-- ==== Sys2Proof/Word.lean ====
section
/-! DEFINITION. The plain word types of the Thozu's model: what the spec treats as bits. -/
namespace Sys2Proof

/-- One byte. -/
abbrev Byte := BitVec 8

/-- A 64-bit word: an Erril register, a transfer tag, a table entry. -/
abbrev Word := BitVec 64

/-- A 48-bit virtual or counter word (R180, R404). -/
abbrev W48 := BitVec 48

/-- A 512-bit vector register (R180). -/
abbrev Vec := BitVec 512

end Sys2Proof
end

