-- ==== Sys2Proof/Machine/Units.lean ====
section
/-! DEFINITION. The unit tree of R15 to R28: paths, flat unit numbers, kinds, parents, children and command orders. -/
namespace Sys2Proof.Machine

/-- The value "no unit" (R19). -/
def noUnit : Nat := 0xFFFF
/-- "/", Table 1.2. -/
def uChip : Nat := 0x0000
/-- "/4". -/
def uFabric : Nat := 0x2000
/-- "/5". -/
def uHost : Nat := 0x2100
/-- "/6". -/
def uDown : Nat := 0x2200
/-- "/7". -/
def uMem : Nat := 0x2300
/-- "/8". -/
def uVault : Nat := 0x2400
/-- "/9". -/
def uSup : Nat := 0x2500
/-- "/10". -/
def uAon : Nat := 0x2600
/-- Quadrant "/q". -/
def uQuad (q : Nat) : Nat := 0x1000 + 0x100 * q
/-- Core "/q/c/k". -/
def uCore (q c k : Nat) : Nat := 0x1011 + 0x100 * q + 0x10 * c + k
/-- Core by its flat number 16q + 4c + k. -/
def uCoreN (n : Nat) : Nat := uCore (n / 16) (n / 4 % 4) (n % 4)
/-- Cluster "/q/c". -/
def uCluster (q c : Nat) : Nat := 0x1010 + 0x100 * q + 0x10 * c
/-- L2 "/q/c/4". -/
def uL2 (q c : Nat) : Nat := 0x1015 + 0x100 * q + 0x10 * c
/-- Offload engine "/q/e", e = 4 to 8. -/
def uEng (q e : Nat) : Nat := 0x1080 + 0x100 * q + (e - 4)
/-- DMA engine "/q/d", d = 9 to 12. -/
def uDma (q d : Nat) : Nat := 0x1085 + 0x100 * q + (d - 9)
/-- Cache slice "/q/13". -/
def uSlice (q : Nat) : Nat := 0x1089 + 0x100 * q
/-- Quadrant SRAM "/q/14". -/
def uSram (q : Nat) : Nat := 0x108A + 0x100 * q
/-- Downstream port "/6/n". -/
def uPort (n : Nat) : Nat := 0x2280 + n
/-- DRAM channel "/7/n". -/
def uChan (n : Nat) : Nat := 0x2380 + n
/-- Vault channel "/8/n". -/
def uVchan (n : Nat) : Nat := 0x2480 + n

/-- The unit number of a path of child indices (Tables 1.1 and 1.2); none for an index the tables do not list. -/
def unitOfPath : List Nat → Option Nat
  | [] => some uChip
  | [i] => if i < 4 then some (uQuad i) else if i = 4 then some uFabric else if i = 5 then some uHost
      else if i = 6 then some uDown else if i = 7 then some uMem else if i = 8 then some uVault
      else if i = 9 then some uSup else if i = 10 then some uAon else none
  | [i, j] =>
      if i < 4 then
        if j < 4 then some (uCluster i j) else if j < 9 then some (uEng i j)
        else if j < 13 then some (uDma i j) else if j = 13 then some (uSlice i) else if j = 14 then some (uSram i)
        else none
      else if i = 6 then (if j < 64 then some (uPort j) else none)
      else if i = 7 then (if j < 8 then some (uChan j) else none)
      else if i = 8 then (if j < 16 then some (uVchan j) else none)
      else none
  | [i, j, k] => if i < 4 ∧ j < 4 then (if k < 4 then some (uCore i j k) else if k = 4 then some (uL2 i j) else none)
      else none
  | _ => none

/-- UnitKind of a unit number (Table 1.2); 0xFF for a number no unit has. -/
def kindOf (u : Nat) : Nat :=
  if u = uChip then 0x00
  else if 0x1000 ≤ u ∧ u < 0x1400 then
    let o := u % 0x100
    if o = 0 then 0x01
    else if 0x10 ≤ o ∧ o < 0x50 then
      (let p := o % 0x10; if p = 0 then 0x02 else if p ≤ 4 then 0x03 else if p = 5 then 0x04 else 0xFF)
    else if o = 0x80 ∨ o = 0x81 then 0x05 else if o = 0x82 then 0x06 else if o = 0x83 then 0x07
    else if o = 0x84 then 0x08 else if 0x85 ≤ o ∧ o ≤ 0x88 then 0x09 else if o = 0x89 then 0x0A
    else if o = 0x8A then 0x0B else 0xFF
  else if u = uFabric then 0x0C else if u = uHost then 0x0D else if u = uDown then 0x0E
  else if 0x2280 ≤ u ∧ u < 0x22C0 then 0x0F
  else if u = uMem then 0x10 else if 0x2380 ≤ u ∧ u < 0x2388 then 0x11
  else if u = uVault then 0x12 else if 0x2480 ≤ u ∧ u < 0x2490 then 0x13
  else if u = uSup then 0x14 else if u = uAon then 0x15 else 0xFF

/-- The quadrant of a unit inside a quadrant. -/
def quadOf (u : Nat) : Option Nat := if 0x1000 ≤ u ∧ u < 0x1400 then some (u / 0x100 - 0x10) else none

/-- The flat core number 16q + 4c + k of a core's unit number. -/
def coreNo (u : Nat) : Nat := (u / 0x100 - 0x10) * 16 + (u % 0x100 / 0x10 - 1) * 4 + (u % 0x10 - 1)

/-- The flat number 5q + e − 4 of an offload engine. -/
def engNo (u : Nat) : Nat := (u / 0x100 - 0x10) * 5 + (u % 0x100 - 0x80)

/-- The flat number 4q + d − 9 of a DMA engine. -/
def dmaNo (u : Nat) : Nat := (u / 0x100 - 0x10) * 4 + (u % 0x100 - 0x85)

/-- The unit number of offload engine 5q + e − 4. -/
def uEngN (n : Nat) : Nat := uEng (n / 5) (n % 5 + 4)

/-- The unit number of DMA engine 4q + d − 9. -/
def uDmaN (n : Nat) : Nat := uDma (n / 4) (n % 4 + 9)

/-- The parent of a unit; the chip's parent is the chip. -/
def parentOf (u : Nat) : Nat :=
  match kindOf u with
  | 0x03 | 0x04 => u - u % 0x10
  | 0x02 | 0x05 | 0x06 | 0x07 | 0x08 | 0x09 | 0x0A | 0x0B => u - u % 0x100
  | 0x0F => uDown
  | 0x11 => uMem
  | 0x13 => uVault
  | _ => uChip

/-- True for the chip and the group kinds of Table 1.1. -/
def isGroup (u : Nat) : Bool :=
  match kindOf u with
  | 0x00 | 0x01 | 0x02 | 0x0E | 0x10 | 0x12 => true
  | _ => false

/-- The child indices of a unit in the up order of Table 1.4. -/
def upIdx (u : Nat) : List Nat :=
  match kindOf u with
  | 0x00 => [10, 9, 4, 7, 8, 0, 1, 2, 3, 6, 5]
  | 0x01 => [14, 13, 9, 10, 11, 12, 4, 5, 6, 7, 8, 0, 1, 2, 3]
  | 0x02 => [4, 0, 1, 2, 3]
  | 0x0E => List.range 64
  | 0x10 => List.range 8
  | 0x12 => List.range 16
  | _ => []

/-- The unit number of child `i` of unit `u`. -/
def childOf (u i : Nat) : Nat :=
  match kindOf u with
  | 0x00 => (unitOfPath [i]).getD noUnit
  | 0x01 => (unitOfPath [u / 0x100 - 0x10, i]).getD noUnit
  | 0x02 => if i < 4 then u + 1 + i else u + 5
  | 0x0E => uPort i
  | 0x10 => uChan i
  | 0x12 => uVchan i
  | _ => noUnit

/-- The children of `u` in up order. -/
def upKids (u : Nat) : List Nat := (upIdx u).map (childOf u)

/-- `u` and its descendants in up order, to depth `n`. -/
def upTree : Nat → Nat → List Nat
  | 0, u => [u]
  | n + 1, u => u :: (upKids u).flatMap (upTree n)

/-- `u` and its descendants, each group before its children, in the up order of R23. -/
def upOrder (u : Nat) : List Nat := upTree 3 u

/-- The reverse of the up order (R23). -/
def downOrder (u : Nat) : List Nat := (upOrder u).reverse

/-- Proper ancestors of `u`, nearest first, the chip last. -/
def ancestors (u : Nat) : List Nat :=
  let p := parentOf u
  let g := parentOf p
  if u = uChip then [] else if p = uChip then [uChip] else if g = uChip then [p, uChip] else [p, g, uChip]

/-- True when the unit has a power domain of its own (R342: chips and clusters have none). -/
def hasDomain (u : Nat) : Bool := match kindOf u with | 0x00 | 0x02 | 0xFF => false | _ => true

/-- The states a domain kind has (Table 15.2). -/
def domainStates (u : Nat) : List Nat :=
  match kindOf u with
  | 0x03 | 0x04 | 0x0B => [0, 1, 2]
  | 0x11 | 0x14 => [0, 1]
  | 0x01 | 0x0A | 0x09 | 0x05 | 0x06 | 0x07 | 0x08 | 0x0D | 0x0E | 0x0F | 0x13 => [0, 2]
  | _ => [0]

/-- Charge OFF→ON in µC (Table 15.2). -/
def chargeOff (u : Nat) : Nat :=
  match kindOf u with
  | 0x03 => 30 | 0x04 => 50 | 0x01 => 200 | 0x0B => 100 | 0x0A => 60 | 0x09 => 20 | 0x05 => 50 | 0x06 => 80
  | 0x07 => 40 | 0x08 => 50 | 0x0D => 150 | 0x0E => 50 | 0x0F => 10 | 0x13 => 30 | _ => 0

/-- Charge RET→ON in µC (Table 15.2). -/
def chargeRet (u : Nat) : Nat :=
  match kindOf u with
  | 0x03 => 5 | 0x04 => 8 | 0x0B => 10 | 0x11 => 20 | _ => 0

/-- What format finds of one LUN (R107 to R111, R115): geometry, spare bytes a page, program time in µs, interface rate in MT/s, erase time
in ms, factory bad blocks. -/
structure LunInfo where
  lun : Nat
  pageSize : Nat
  planes : Nat
  ppb : Nat
  bpl : Nat
  spare : Nat
  progUs : Nat
  rate : Nat
  eraseMs : Nat
  bad : List Nat
  deriving DecidableEq, Repr

/-- A drive namespace of a bound drive (R283): identifier, LBA size, LBAs. -/
structure DriveNs where
  nsid : Nat
  lba : Nat
  size : Nat
  deriving DecidableEq, Repr

/-- What a channel's mode registers and presence data give: ranks (0 unpopulated), device width, Gb, and temperature in 0.1 °C. -/
abbrev FoundChan := Nat × Nat × Nat × Int

/-- What WAKE finds (R132, R108): the DRAM channels, read after a power-on, and the LUNs of the vault flash that respond. -/
structure WakeFound where
  chans : List FoundChan
  luns : List LunInfo
  deriving DecidableEq, Repr

/-- A dictionary request but for its command and body: transport, source endpoint, message tag, SessionId, RequestId, Protected, Counter and MAC (Table 16.3). -/
structure Req where
  tr : Nat
  eid : Nat
  tag : Nat := 0
  sid : Nat := 0xFF
  reqId : Nat := 0
  prot : Bool := false
  counter : Nat := 0
  mac : List Byte := []
  deriving DecidableEq, Repr

end Sys2Proof.Machine
end

