-- ==== Sys2Proof/Syntax.lean ====
section
/-! DEFINITION. The commands of the Thozu: one constructor for each row of the command table, in its order. -/
namespace Sys2Proof
open Sys2Proof.Machine

/-- A command. Each line names its row and the rule that describes it. An Erril command carries its core and its decoded fields; a timer or event carries what
the device measures or is told at it; a dictionary command carries its request and its body. -/
inductive Instr where
  | powerOnReset (keepOk : Bool) (lshEn : Bool) (lshAddr : BitVec 3) (lshMstr : Bool) (testMode : Bool) -- POWER_ON_RESET, R420
  | powerUpStart -- POWER_UP_START, R323
  | railEnable (r : Nat) -- RAIL_ENABLE, R324
  | railStartFail (r : Nat) -- RAIL_START_FAIL, R324
  | adcSample (r : Nat) (code : Nat) -- ADC_SAMPLE, R317
  | railDischargeTimeout (r : Nat) -- RAIL_DISCHARGE_TIMEOUT, R327
  | regulatorPoll (r : Nat) (answered : Bool) (bad : Bool) -- REGULATOR_POLL, R320
  | avsAckReceive (q : Nat) -- AVS_ACK_RECEIVE, R333
  | avsAckTimeout (q : Nat) -- AVS_ACK_TIMEOUT, R334
  | qclkSlewComplete (q : Nat) -- QCLK_SLEW_COMPLETE, R433
  | auxBrownout -- AUX_BROWNOUT, R329
  | mrstN (len : Nat) -- MRST_N, R335
  | pwrbtnShortPress (len : Nat) -- PWRBTN_SHORT_PRESS, R336
  | pwrbtnLongPress (len : Nat) -- PWRBTN_LONG_PRESS, R336
  | pwrbtnIgnoredPress (len : Nat) -- PWRBTN_IGNORED_PRESS, R336
  | marginMode (on : Bool) -- MARGIN_MODE, R330
  | marginStep (r : Nat) (v : Int) -- MARGIN_STEP, R331
  | operatingPointChange (points : BitVec 32) -- OPERATING_POINT_CHANGE, R333
  | railRestart (r : Nat) -- RAIL_RESTART, R339
  | clearCounters (r : Nat) -- CLEAR_COUNTERS, R339
  | shutdownRequestClear -- SHUTDOWN_REQUEST_CLEAR, R336
  | pfailT0 -- PFAIL_T0, R81
  | lshSyncTrigger -- LSH_SYNC_TRIGGER, R171
  | lshSyncStuck -- LSH_SYNC_STUCK, R171
  | vaultThenOff -- VAULT_THEN_OFF, R83
  | vaultThenHold -- VAULT_THEN_HOLD, R83
  | quiesceComplete -- QUIESCE_COMPLETE, R88
  | quiesceOverrun (kind : Nat) (n : Nat) -- QUIESCE_OVERRUN, R89
  | shedComplete -- SHED_COMPLETE, R88
  | vaultBegin -- VAULT_BEGIN, R94
  | spillComplete -- SPILL_COMPLETE, R95
  | segmentProgramDone (i : Nat) (issued : Nat) (mask : Nat) -- SEGMENT_PROGRAM_DONE, R96
  | sealDurable -- SEAL_DURABLE, R86
  | flashProgramFail (i : Nat) (rec : Bool) -- FLASH_PROGRAM_FAIL, R100
  | lunFailDuringVault (lun : Nat) -- LUN_FAIL_DURING_VAULT, R116
  | energyGuardCheck (v : Nat) -- ENERGY_GUARD_CHECK, R98
  | rescindTimerExpire -- RESCIND_TIMER_EXPIRE, R101
  | rescindResumeComplete -- RESCIND_RESUME_COMPLETE, R101
  | retainToDark -- RETAIN_TO_DARK, R103
  | ceilingCompute (mean : Nat) -- CEILING_COMPUTE, R75
  | chargerPoll (answered : Bool) -- CHARGER_POLL, R66
  | capTestStart -- CAP_TEST_START, R67
  | capTestAutoStart -- CAP_TEST_AUTO_START, R67
  | capTestIntervalExpire -- CAP_TEST_INTERVAL_EXPIRE, R67
  | capTestDeferRetry -- CAP_TEST_DEFER_RETRY, R67
  | capTestPauseEnd (v0 : Nat) -- CAP_TEST_PAUSE_END, R68
  | capTestStepSample (v1 : Nat) (i1 : Nat) -- CAP_TEST_STEP_SAMPLE, R68
  | capTestDischargeStop (v2 : Nat) (q : Nat) (t : Nat) -- CAP_TEST_DISCHARGE_STOP, R69
  | capTestExpire -- CAP_TEST_EXPIRE, R69
  | drillStart -- DRILL_START, R72
  | drillIntervalExpire -- DRILL_INTERVAL_EXPIRE, R72
  | drillWriteEnd (bytes : Nat) (dur : Nat) (power : Nat) -- DRILL_WRITE_END, R72
  | drillResumeComplete -- DRILL_RESUME_COMPLETE, R73
  | governorAdmit -- GOVERNOR_ADMIT, R50
  | placeComplete (id : Nat) (bad : List (Nat × Nat)) -- PLACE_COMPLETE, R44
  | throughWriteComplete (id : Nat) (ok : Bool) -- THROUGH_WRITE_COMPLETE, R45
  | mirroringComplete -- MIRRORING_COMPLETE, R48
  | destageIdleTimer (bad : List (Nat × Nat)) -- DESTAGE_IDLE_TIMER, R55
  | destageIssue (bad : List (Nat × Nat)) -- DESTAGE_ISSUE, R57
  | destageWriteComplete (cmd : Nat) (ok : Bool) -- DESTAGE_WRITE_COMPLETE, R56
  | destageFlushIssue (port : Nat) (nsid : Nat) -- DESTAGE_FLUSH_ISSUE, R56
  | destageFlushComplete (port : Nat) (nsid : Nat) (ok : Bool) -- DESTAGE_FLUSH_COMPLETE, R56
  | bucketRebuildComplete -- BUCKET_REBUILD_COMPLETE, R60
  | volumeTableWrite (off : Nat) (data : List Byte) -- VOLUME_TABLE_WRITE, R36
  | nvmeWrite (q : Nat) (cid : Nat) (nsid : Nat) (lba : Nat) (nlb : Nat) (data : List Byte) -- NVME_WRITE, R44
  | nvmeRead (q : Nat) (cid : Nat) (nsid : Nat) (lba : Nat) (nlb : Nat) (dst : Nat) (bad : List (Nat × Nat)) -- NVME_READ, R43
  | nvmeFlush (q : Nat) (cid : Nat) (nsid : Nat) -- NVME_FLUSH, R46
  | writeZeroes (q : Nat) (cid : Nat) (nsid : Nat) (lba : Nat) (nlb : Nat) -- WRITE_ZEROES, R45
  | writeUncorrectable (q : Nat) (cid : Nat) (nsid : Nat) (lba : Nat) (nlb : Nat) -- WRITE_UNCORRECTABLE, R45
  | createIoSq (i : Nat) (cid : Nat) (qid : Nat) (size : Nat) (prp : Nat) (contig : Bool) (cqid : Nat) -- CREATE_IO_SQ, R261
  | createIoCq (i : Nat) (cid : Nat) (qid : Nat) (size : Nat) (prp : Nat) (contig : Bool) (vec : Option Nat) -- CREATE_IO_CQ, R261
  | deleteIoSq (i : Nat) (cid : Nat) (qid : Nat) -- DELETE_IO_SQ, R260
  | deleteIoCq (i : Nat) (cid : Nat) (qid : Nat) -- DELETE_IO_CQ, R260
  | getLogPage (i : Nat) (cid : Nat) (lid : Nat) (off : Nat) (len : Nat) (dst : Nat) -- GET_LOG_PAGE, R151
  | identify (i : Nat) (cid : Nat) (cns : Nat) (nsid : Nat) (dst : Nat) -- IDENTIFY, R260
  | abort (i : Nat) (cid : Nat) (sqid : Nat) (tgt : Nat) -- ABORT, R260
  | setFeatures (i : Nat) (cid : Nat) (fid : Nat) (v : Nat) -- SET_FEATURES, R260
  | getFeatures (i : Nat) (cid : Nat) (fid : Nat) -- GET_FEATURES, R260
  | asynchronousEventRequest (i : Nat) (cid : Nat) -- ASYNCHRONOUS_EVENT_REQUEST, R260
  | keepAlive (i : Nat) (cid : Nat) -- KEEP_ALIVE, R260
  | invalidCommandOpcode (q : Nat) (cid : Nat) (opc : Nat) -- INVALID_COMMAND_OPCODE, R260
  | wakeComplete (found : WakeFound) (speed : Nat) (failed : List Nat) (marginal : List Nat) (metaOk : Bool) (bad : List Nat) (readA : Option (List Nat)) (readB : Option (List Nat)) -- WAKE_COMPLETE, R133
  | restoreReadComplete (lost : List Nat) -- RESTORE_READ_COMPLETE, R139
  | restoreRebuildComplete -- RESTORE_REBUILD_COMPLETE, R139
  | fetchHostAdmit -- FETCH_HOST_ADMIT, R141
  | restoreSegmentInstalled (i : Nat) (ok : Bool) (latency : Nat) -- RESTORE_SEGMENT_INSTALLED, R214
  | backgroundSegmentRestored (ok : Bool) -- BACKGROUND_SEGMENT_RESTORED, R141
  | configRetryLimitExpire -- CONFIG_RETRY_LIMIT_EXPIRE, R140
  | lostRangeRelease (v : Nat) -- LOST_RANGE_RELEASE, R152
  | kennelFormat -- KENNEL_FORMAT, R115
  | kennelFormatForce -- KENNEL_FORMAT_FORCE, R115
  | kennelFormatComplete (found : List LunInfo) -- KENNEL_FORMAT_COMPLETE, R115
  | flashBlockFail (n : Nat) (block : Nat) (dead : Bool) -- FLASH_BLOCK_FAIL, R114
  | slotEraseComplete (i : Nat) -- SLOT_ERASE_COMPLETE, R128
  | scratchEraseComplete -- SCRATCH_ERASE_COMPLETE, R128
  | slotUsabilityCheck -- SLOT_USABILITY_CHECK, R127
  | leashCycle -- LEASH_CYCLE, R160
  | pollMissed (n : Nat) -- POLL_MISSED, R160
  | beacon (f : List Byte) -- BEACON, R161
  | poll (f : List Byte) -- POLL, R162
  | status (f : List Byte) -- STATUS, R160
  | grant (f : List Byte) -- GRANT, R170
  | slotAck (f : List Byte) -- SLOT_ACK, R172
  | leashReset (f : List Byte) -- LEASH_RESET, R175
  | dictReq (f : List Byte) -- DICT_REQ, R175
  | dictRsp (f : List Byte) -- DICT_RSP, R175
  | forwardTimeout (id : Nat) -- FORWARD_TIMEOUT, R175
  | mastershipTakeover -- MASTERSHIP_TAKEOVER, R164
  | grantExpire -- GRANT_EXPIRE, R166
  | budgetCompute -- BUDGET_COMPUTE, R168
  | absentHoldExpire (n : Nat) -- ABSENT_HOLD_EXPIRE, R176
  | waveStart -- WAVE_START, R170
  | slotCmdSend -- SLOT_CMD_SEND, R172
  | packResetMember (v : Nat) -- PACK_RESET_MEMBER, R175
  | drivePresenceDetect (n : Nat) (here : Bool) -- DRIVE_PRESENCE_DETECT, R282
  | portLinkUp (n : Nat) (speed : Nat) (width : Nat) (ds : Nat) (dw : Nat) -- PORT_LINK_UP, R283
  | portTrainTimeout (n : Nat) -- PORT_TRAIN_TIMEOUT, R282
  | driveBind (n : Nat) (fits : Bool) (serial : Nat) (vwc : Bool) (ns : List DriveNs) -- DRIVE_BIND, R284
  | driveLost (n : Nat) -- DRIVE_LOST, R286
  | portReadyTimeout (n : Nat) -- PORT_READY_TIMEOUT, R286
  | rebuild (n : Nat) -- REBUILD, R289
  | rebuildComplete (v : Nat) (i : Nat) -- REBUILD_COMPLETE, R289
  | prepareRemove (n : Nat) -- PREPARE_REMOVE, R290
  | prepareRemoveForce (n : Nat) -- PREPARE_REMOVE_FORCE, R290
  | prepareRemoveDrainEnd (n : Nat) -- PREPARE_REMOVE_DRAIN_END, R290
  | powerOn (slot : Nat) -- POWER_ON, R291
  | powerOff (slot : Nat) -- POWER_OFF, R291
  | dramCommandIssue (i : Nat) (held : List Nat) (passed : Nat) (must : Option (Nat × Nat × Nat)) (res : Nat) -- DRAM_COMMAND_ISSUE, R304
  | activateTableClear -- ACTIVATE_TABLE_CLEAR, R308
  | mr4Read (n : Nat) (t : Int) -- MR4_READ, R295
  | dramAlert (i : Nat) (rank : Nat) -- DRAM_ALERT, R307
  | selfRefreshExit (n : Nat) -- SELF_REFRESH_EXIT, R310
  | retrainDue (n : Nat) (outcome : Nat) (t : Int) -- RETRAIN_DUE, R311
  | channelQuarantine (n : Nat) -- CHANNEL_QUARANTINE, R312
  | channelRetrain (n : Nat) -- CHANNEL_RETRAIN, R315
  | quarantineRescueComplete (n : Nat) (bad : List Nat) (badPages : List Nat) -- QUARANTINE_RESCUE_COMPLETE, R312
  | domainRequestOn (u : Nat) -- DOMAIN_REQUEST_ON, R347
  | domainRequestRet (u : Nat) (mute : List Nat) -- DOMAIN_REQUEST_RET, R345
  | domainRequestOff (u : Nat) (mute : List Nat) -- DOMAIN_REQUEST_OFF, R345
  | domainEntryComplete (u : Nat) -- DOMAIN_ENTRY_COMPLETE, R344
  | inrushGrant -- INRUSH_GRANT, R351
  | domainReady (u : Nat) -- DOMAIN_READY, R347
  | transactionArrival (u : Nat) (tag : Nat) (acc : Nat) (addr : Nat) (data : Nat) -- TRANSACTION_ARRIVAL, R348
  | domainLock (u : Nat) (mute : List Nat) -- DOMAIN_LOCK, R349
  | padRelease (u : Nat) -- PAD_RELEASE, R354
  | supervisorIdleExpire -- SUPERVISOR_IDLE_EXPIRE, R355
  | addressMatchWake (i3c : Bool) (addr : BitVec 7) -- ADDRESS_MATCH_WAKE, R356
  | supervisorWakeEvent -- SUPERVISOR_WAKE_EVENT, R355
  | stretchOverrun -- STRETCH_OVERRUN, R356
  | mctpPacketReceive (tr : Nat) (eid : Nat) (tag : BitVec 3) (som : Bool) (eom : Bool) (seq : BitVec 2) (data : List Byte) -- MCTP_PACKET_RECEIVE, R365
  | reassemblyTimeout (tr : Nat) (eid : Nat) (tag : BitVec 3) -- REASSEMBLY_TIMEOUT, R365
  | openSession (r : Req) (body : List Byte) -- OPEN, R371
  | prove (r : Req) (body : List Byte) -- PROVE, R372
  | read (r : Req) (body : List Byte) -- READ, R361
  | write (r : Req) (body : List Byte) -- WRITE, R360
  | readBlock (r : Req) (body : List Byte) -- READ_BLOCK, R368
  | writeBlock (r : Req) (body : List Byte) -- WRITE_BLOCK, R368
  | commit (r : Req) (body : List Byte) -- COMMIT, R377
  | discard (r : Req) (body : List Byte) -- DISCARD, R377
  | heel (r : Req) (body : List Byte) -- HEEL, R378
  | close (r : Req) (body : List Byte) -- CLOSE, R368
  | lockoutExpire (role : Nat) -- LOCKOUT_EXPIRE, R375
  | proveTimeout (i : Nat) -- PROVE_TIMEOUT, R371
  | sessionIdleExpire (i : Nat) -- SESSION_IDLE_EXPIRE, R373
  | setEndpointId (tr : Nat) (eid : Nat) (op : Nat) (new : Nat) -- SET_ENDPOINT_ID, R364
  | getEndpointId (tr : Nat) (eid : Nat) -- GET_ENDPOINT_ID, R364
  | getEndpointUuid (tr : Nat) (eid : Nat) -- GET_ENDPOINT_UUID, R364
  | getMctpVersionSupport (tr : Nat) (eid : Nat) (typ : Nat) -- GET_MCTP_VERSION_SUPPORT, R364
  | getMessageTypeSupport (tr : Nat) (eid : Nat) -- GET_MESSAGE_TYPE_SUPPORT, R364
  | getVendorDefinedMessageSupport (tr : Nat) (eid : Nat) (sel : Nat) -- GET_VENDOR_DEFINED_MESSAGE_SUPPORT, R364
  | unsupportedControlCommand (tr : Nat) (eid : Nat) (cmd : Nat) -- UNSUPPORTED_CONTROL_COMMAND, R364
  | fuseProgram (v : BitVec 384) (cut : Bool) -- FUSE_PROGRAM, R386
  | fuseLock (cut : Bool) -- FUSE_LOCK, R385
  | faultOccurrence (src : Nat) (acc : Nat) (iu : Nat) (ii : Nat) (addr : Nat) (tag : Nat) -- FAULT_OCCURRENCE, R399
  | faultPinSample (t : Bool) (c : Bool) -- FAULT_PIN_SAMPLE, R395
  | faultAck (sid : Nat) (v : Nat) -- FAULT_ACK, R397
  | forceExitCheck -- FORCE_EXIT_CHECK, R400
  | unitQuarantine (u : Nat) (v : Bool) -- UNIT_QUARANTINE, R398
  | injectFault (v : BitVec 96) -- INJECT_FAULT, R401
  | eventRecordWrite -- EVENT_RECORD_WRITE, R406
  | timeAnchor (v : BitVec 64) -- TIME_ANCHOR, R405
  | logFlush -- LOG_FLUSH, R408
  | logFlushComplete (okA : Bool) (okB : Bool) -- LOG_FLUSH_COMPLETE, R410
  | logEraseComplete (c : Nat) -- LOG_ERASE_COMPLETE, R409
  | eventRecordsRead (r : Req) -- EVENT_RECORDS_READ, R411
  | eventCursor (r : Req) (v : BitVec 48) -- EVENT_CURSOR, R411
  | perstN (pin : Bool) -- PERST_N, R415
  | chipSoftReset -- CHIP_SOFT_RESET, R416
  | unitReset (u : Nat) -- UNIT_RESET, R418
  | watchdogExpire -- WATCHDOG_EXPIRE, R419
  | firmwareImage (off : Nat) (data : List Byte) -- FIRMWARE_IMAGE, R425
  | firmwareStage (ok : Bool) (version : BitVec 32) -- FIRMWARE_STAGE, R425
  | firmwareConfirm -- FIRMWARE_CONFIRM, R426
  | firmwareCancel -- FIRMWARE_CANCEL, R428
  | trialConfirmTimeout -- TRIAL_CONFIRM_TIMEOUT, R426
  | clockLoss (i : Nat) (freq : Nat) -- CLOCK_LOSS, R438
  | clockRecovered (i : Nat) -- CLOCK_RECOVERED, R440
  | xclkHoldoverEnd -- XCLK_HOLDOVER_END, R438
  | mclkPllRestart (n : Nat) (locked : Bool) -- MCLK_PLL_RESTART, R438
  | thermalSample (i : Nat) (t : Int) -- THERMAL_SAMPLE, R454
  | hostLinkTrained (gen : Nat) (width : Nat) -- HOST_LINK_TRAINED, R254
  | instanceCreate (i : Nat) -- INSTANCE_CREATE, R258
  | instanceReset (i : Nat) -- INSTANCE_RESET, R272
  | instanceRemove (i : Nat) -- INSTANCE_REMOVE, R272
  | fenceWaitEnd (i : Nat) -- FENCE_WAIT_END, R274
  | instanceHaltComplete (i : Nat) (outstanding : Nat) -- INSTANCE_HALT_COMPLETE, R272
  | instanceDrainEnd (i : Nat) (arrived : Nat) -- INSTANCE_DRAIN_END, R272
  | ccEnClear (i : Nat) -- CC_EN_CLEAR, R262
  | flr -- FLR, R272
  | instanceTableWrite (off : Nat) (data : List Byte) -- INSTANCE_TABLE_WRITE, R256
  | namespaceTableWrite (off : Nat) (data : List Byte) -- NAMESPACE_TABLE_WRITE, R259
  | queueTableWrite (off : Nat) (data : List Byte) -- QUEUE_TABLE_WRITE, R265
  | doorbellWrite (i : Nat) (control : Bool) (off : Nat) (len : Nat) (val : Nat) -- DOORBELL_WRITE, R263
  | contextQueueWatch (q : Nat) -- CONTEXT_QUEUE_WATCH, R266
  | arbitrationEpoch -- ARBITRATION_EPOCH, R270
  | sqEntryFetch (q : Nat) -- SQ_ENTRY_FETCH, R271
  | vectorUnmask (n : Nat) (addr : Nat) (data : Nat) (pasid : Bool) -- VECTOR_UNMASK, R269
  | programLoad (q : Nat) (core : BitVec 6) (image : List Byte) (arg : List Byte) -- PROGRAM_LOAD, R268
  | programMessage (q : Nat) (payload : List Byte) -- PROGRAM_MESSAGE, R268
  | programKill (q : Nat) -- PROGRAM_KILL, R268
  | dmaCopy (i : Nat) (queue : Nat) (raw : BitVec 512) (n : Nat) -- DMA_COPY, R217
  | dmaFill (i : Nat) (queue : Nat) (raw : BitVec 512) (n : Nat) -- DMA_FILL, R217
  | dmaHostRead (i : Nat) (queue : Nat) (raw : BitVec 512) (n : Nat) (grant : Bool) (data : List Byte) -- DMA_HOST_READ, R221
  | dmaHostWrite (i : Nat) (queue : Nat) (raw : BitVec 512) (n : Nat) (grant : Bool) -- DMA_HOST_WRITE, R221
  | dmaVolumeRead (i : Nat) (queue : Nat) (raw : BitVec 512) (n : Nat) -- DMA_VOLUME_READ, R216
  | dmaVolumeWrite (i : Nat) (queue : Nat) (raw : BitVec 512) (n : Nat) -- DMA_VOLUME_WRITE, R216
  | dmaChannelResume (a : Nat) -- DMA_CHANNEL_RESUME, R219
  | dmaFaultEnd (a : Nat) -- DMA_FAULT_END, R219
  | dmaDescriptorComplete (i : Nat) -- DMA_DESCRIPTOR_COMPLETE, R267
  | pageResponseReceive (prg : Nat) (ok : Bool) -- PAGE_RESPONSE_RECEIVE, R221
  | hostPageTimeout (prg : Nat) -- HOST_PAGE_TIMEOUT, R221
  | tlbInvalidate (asid : Nat) (host : Bool) (va : Nat) -- TLB_INVALIDATE, R212
  | deflateCompress (i : Nat) (queue : Nat) (raw : BitVec 1024) (n : Nat) -- DEFLATE_COMPRESS, R238
  | deflateDecompress (i : Nat) (queue : Nat) (raw : BitVec 1024) (n : Nat) -- DEFLATE_DECOMPRESS, R238
  | zstandardCompress (i : Nat) (queue : Nat) (raw : BitVec 1024) (n : Nat) -- ZSTANDARD_COMPRESS, R238
  | zstandardDecompress (i : Nat) (queue : Nat) (raw : BitVec 1024) (n : Nat) -- ZSTANDARD_DECOMPRESS, R238
  | lz4Compress (i : Nat) (queue : Nat) (raw : BitVec 1024) (n : Nat) -- LZ4_COMPRESS, R238
  | lz4Decompress (i : Nat) (queue : Nat) (raw : BitVec 1024) (n : Nat) -- LZ4_DECOMPRESS, R238
  | scanRow (i : Nat) (queue : Nat) (raw : BitVec 1024) (n : Nat) -- SCAN_ROW, R240
  | scanColumn (i : Nat) (queue : Nat) (raw : BitVec 1024) (n : Nat) -- SCAN_COLUMN, R240
  | hashProbe (i : Nat) (queue : Nat) (raw : BitVec 1024) (n : Nat) -- HASH_PROBE, R241
  | bloomTest (i : Nat) (queue : Nat) (raw : BitVec 1024) (n : Nat) -- BLOOM_TEST, R241
  | runSearch (i : Nat) (queue : Nat) (raw : BitVec 1024) (n : Nat) -- RUN_SEARCH, R241
  | xtsEncrypt (i : Nat) (queue : Nat) (raw : BitVec 1024) (n : Nat) -- XTS_ENCRYPT, R242
  | xtsDecrypt (i : Nat) (queue : Nat) (raw : BitVec 1024) (n : Nat) -- XTS_DECRYPT, R242
  | sha256 (i : Nat) (queue : Nat) (raw : BitVec 1024) (n : Nat) -- SHA_256, R243
  | sha384 (i : Nat) (queue : Nat) (raw : BitVec 1024) (n : Nat) -- SHA_384, R243
  | rsEncode (i : Nat) (queue : Nat) (raw : BitVec 1024) (n : Nat) -- RS_ENCODE, R244
  | rsReconstruct (i : Nat) (queue : Nat) (raw : BitVec 1024) (n : Nat) -- RS_RECONSTRUCT, R244
  | engineJobComplete (i : Nat) -- ENGINE_JOB_COMPLETE, R235
  | keySlotLoad (u : Nat) (v : BitVec 576) -- KEY_SLOT_LOAD, R245
  | sliceExpire (core : BitVec 6) -- SLICE_EXPIRE, R222
  | asyncTrapTake (core : BitVec 6) -- ASYNC_TRAP_TAKE, R195
  | illegalInstruction (core : BitVec 6) (w : BitVec 32) -- ILLEGAL_INSTRUCTION, R186
  | nop (core : BitVec 6) -- NOP, R186
  | trap (core : BitVec 6) (code : BitVec 10) -- TRAP, R197
  | uret (core : BitVec 6) -- URET, R196
  | sret (core : BitVec 6) -- SRET, R196
  | fence (core : BitVec 6) -- FENCE, R179
  | ifence (core : BitVec 6) -- IFENCE, R179
  | wfi (core : BitVec 6) -- WFI, R186
  | mfc (core : BitVec 6) (rd : BitVec 5) (cr : BitVec 5) -- MFC, R181
  | mtc (core : BitVec 6) (cr : BitVec 5) (ra : BitVec 5) -- MTC, R181
  | lclr (core : BitVec 6) (rc : BitVec 5) -- LCLR, R190
  | yield (core : BitVec 6) -- YIELD, R197
  | add (core : BitVec 6) (rd : BitVec 5) (ra : BitVec 5) (rb : BitVec 5) -- ADD, R187
  | addc (core : BitVec 6) (rd : BitVec 5) (ra : BitVec 5) (rb : BitVec 5) -- ADDC, R187
  | sub (core : BitVec 6) (rd : BitVec 5) (ra : BitVec 5) (rb : BitVec 5) -- SUB, R187
  | subb (core : BitVec 6) (rd : BitVec 5) (ra : BitVec 5) (rb : BitVec 5) -- SUBB, R187
  | neg (core : BitVec 6) (rd : BitVec 5) (ra : BitVec 5) -- NEG, R188
  | cmp (core : BitVec 6) (ra : BitVec 5) (rb : BitVec 5) -- CMP, R187
  | and (core : BitVec 6) (rd : BitVec 5) (ra : BitVec 5) (rb : BitVec 5) -- AND, R187
  | or (core : BitVec 6) (rd : BitVec 5) (ra : BitVec 5) (rb : BitVec 5) -- OR, R187
  | xor (core : BitVec 6) (rd : BitVec 5) (ra : BitVec 5) (rb : BitVec 5) -- XOR, R187
  | andn (core : BitVec 6) (rd : BitVec 5) (ra : BitVec 5) (rb : BitVec 5) -- ANDN, R187
  | sll (core : BitVec 6) (rd : BitVec 5) (ra : BitVec 5) (rb : BitVec 5) -- SLL, R188
  | srl (core : BitVec 6) (rd : BitVec 5) (ra : BitVec 5) (rb : BitVec 5) -- SRL, R188
  | sra (core : BitVec 6) (rd : BitVec 5) (ra : BitVec 5) (rb : BitVec 5) -- SRA, R188
  | rol (core : BitVec 6) (rd : BitVec 5) (ra : BitVec 5) (rb : BitVec 5) -- ROL, R188
  | ror (core : BitVec 6) (rd : BitVec 5) (ra : BitVec 5) (rb : BitVec 5) -- ROR, R188
  | min (core : BitVec 6) (rd : BitVec 5) (ra : BitVec 5) (rb : BitVec 5) -- MIN, R187
  | max (core : BitVec 6) (rd : BitVec 5) (ra : BitVec 5) (rb : BitVec 5) -- MAX, R187
  | minu (core : BitVec 6) (rd : BitVec 5) (ra : BitVec 5) (rb : BitVec 5) -- MINU, R187
  | maxu (core : BitVec 6) (rd : BitVec 5) (ra : BitVec 5) (rb : BitVec 5) -- MAXU, R187
  | slt (core : BitVec 6) (rd : BitVec 5) (ra : BitVec 5) (rb : BitVec 5) -- SLT, R187
  | sltu (core : BitVec 6) (rd : BitVec 5) (ra : BitVec 5) (rb : BitVec 5) -- SLTU, R187
  | clz (core : BitVec 6) (rd : BitVec 5) (ra : BitVec 5) -- CLZ, R188
  | ctz (core : BitVec 6) (rd : BitVec 5) (ra : BitVec 5) -- CTZ, R188
  | popc (core : BitVec 6) (rd : BitVec 5) (ra : BitVec 5) -- POPC, R187
  | bswap (core : BitVec 6) (rd : BitVec 5) (ra : BitVec 5) -- BSWAP, R187
  | csel (core : BitVec 6) (rd : BitVec 5) (ra : BitVec 5) (rb : BitVec 5) (cc : BitVec 5) -- CSEL, R186
  | mul (core : BitVec 6) (rd : BitVec 5) (ra : BitVec 5) (rb : BitVec 5) -- MUL, R187
  | mulh (core : BitVec 6) (rd : BitVec 5) (ra : BitVec 5) (rb : BitVec 5) -- MULH, R187
  | mulhu (core : BitVec 6) (rd : BitVec 5) (ra : BitVec 5) (rb : BitVec 5) -- MULHU, R187
  | div (core : BitVec 6) (rd : BitVec 5) (ra : BitVec 5) (rb : BitVec 5) (rc : BitVec 5) -- DIV, R189
  | divu (core : BitVec 6) (rd : BitVec 5) (ra : BitVec 5) (rb : BitVec 5) (rc : BitVec 5) -- DIVU, R189
  | addi (core : BitVec 6) (rd : BitVec 5) (ra : BitVec 5) (imm : BitVec 16) -- ADDI, R187
  | andi (core : BitVec 6) (rd : BitVec 5) (ra : BitVec 5) (imm : BitVec 16) -- ANDI, R187
  | ori (core : BitVec 6) (rd : BitVec 5) (ra : BitVec 5) (imm : BitVec 16) -- ORI, R187
  | xori (core : BitVec 6) (rd : BitVec 5) (ra : BitVec 5) (imm : BitVec 16) -- XORI, R187
  | cmpi (core : BitVec 6) (ra : BitVec 5) (imm : BitVec 16) -- CMPI, R187
  | movz (core : BitVec 6) (rd : BitVec 5) (h : BitVec 5) (imm : BitVec 16) -- MOVZ, R186
  | movk (core : BitVec 6) (rd : BitVec 5) (h : BitVec 5) (imm : BitVec 16) -- MOVK, R186
  | slli (core : BitVec 6) (rd : BitVec 5) (ra : BitVec 5) (imm : BitVec 16) -- SLLI, R188
  | srli (core : BitVec 6) (rd : BitVec 5) (ra : BitVec 5) (imm : BitVec 16) -- SRLI, R188
  | srai (core : BitVec 6) (rd : BitVec 5) (ra : BitVec 5) (imm : BitVec 16) -- SRAI, R188
  | rori (core : BitVec 6) (rd : BitVec 5) (ra : BitVec 5) (imm : BitVec 16) -- RORI, R188
  | ld (core : BitVec 6) (rt : BitVec 5) (base : BitVec 5) (k : BitVec 3) (d12 : BitVec 12) -- LD, R182
  | lw (core : BitVec 6) (rt : BitVec 5) (base : BitVec 5) (k : BitVec 3) (d12 : BitVec 12) -- LW, R182
  | lws (core : BitVec 6) (rt : BitVec 5) (base : BitVec 5) (k : BitVec 3) (d12 : BitVec 12) -- LWS, R182
  | lh (core : BitVec 6) (rt : BitVec 5) (base : BitVec 5) (k : BitVec 3) (d12 : BitVec 12) -- LH, R182
  | lhs (core : BitVec 6) (rt : BitVec 5) (base : BitVec 5) (k : BitVec 3) (d12 : BitVec 12) -- LHS, R182
  | lb (core : BitVec 6) (rt : BitVec 5) (base : BitVec 5) (k : BitVec 3) (d12 : BitVec 12) -- LB, R182
  | lbs (core : BitVec 6) (rt : BitVec 5) (base : BitVec 5) (k : BitVec 3) (d12 : BitVec 12) -- LBS, R182
  | st (core : BitVec 6) (rt : BitVec 5) (base : BitVec 5) (k : BitVec 3) (d12 : BitVec 12) -- ST, R182
  | sw (core : BitVec 6) (rt : BitVec 5) (base : BitVec 5) (k : BitVec 3) (d12 : BitVec 12) -- SW, R182
  | sh (core : BitVec 6) (rt : BitVec 5) (base : BitVec 5) (k : BitVec 3) (d12 : BitVec 12) -- SH, R182
  | sb (core : BitVec 6) (rt : BitVec 5) (base : BitVec 5) (k : BitVec 3) (d12 : BitVec 12) -- SB, R182
  | ldShort (core : BitVec 6) (rt : BitVec 5) (k : BitVec 3) (a20 : BitVec 20) -- LD_SHORT, R182
  | lwShort (core : BitVec 6) (rt : BitVec 5) (k : BitVec 3) (a20 : BitVec 20) -- LW_SHORT, R182
  | stShort (core : BitVec 6) (rt : BitVec 5) (k : BitVec 3) (a20 : BitVec 20) -- ST_SHORT, R182
  | swShort (core : BitVec 6) (rt : BitVec 5) (k : BitVec 3) (a20 : BitVec 20) -- SW_SHORT, R182
  | vld (core : BitVec 6) (vt : BitVec 5) (base : BitVec 5) (k : BitVec 3) (d12 : BitVec 12) -- VLD, R193
  | vst (core : BitVec 6) (vt : BitVec 5) (base : BitVec 5) (k : BitVec 3) (d12 : BitVec 12) -- VST, R193
  | amoSwap (core : BitVec 6) (rd : BitVec 5) (base : BitVec 5) (k : BitVec 3) (rb : BitVec 5) -- AMO_SWAP, R194
  | amoAdd (core : BitVec 6) (rd : BitVec 5) (base : BitVec 5) (k : BitVec 3) (rb : BitVec 5) -- AMO_ADD, R194
  | amoAnd (core : BitVec 6) (rd : BitVec 5) (base : BitVec 5) (k : BitVec 3) (rb : BitVec 5) -- AMO_AND, R194
  | amoOr (core : BitVec 6) (rd : BitVec 5) (base : BitVec 5) (k : BitVec 3) (rb : BitVec 5) -- AMO_OR, R194
  | amoXor (core : BitVec 6) (rd : BitVec 5) (base : BitVec 5) (k : BitVec 3) (rb : BitVec 5) -- AMO_XOR, R194
  | amoMin (core : BitVec 6) (rd : BitVec 5) (base : BitVec 5) (k : BitVec 3) (rb : BitVec 5) -- AMO_MIN, R194
  | amoMax (core : BitVec 6) (rd : BitVec 5) (base : BitVec 5) (k : BitVec 3) (rb : BitVec 5) -- AMO_MAX, R194
  | amoMinu (core : BitVec 6) (rd : BitVec 5) (base : BitVec 5) (k : BitVec 3) (rb : BitVec 5) -- AMO_MINU, R194
  | amoMaxu (core : BitVec 6) (rd : BitVec 5) (base : BitVec 5) (k : BitVec 3) (rb : BitVec 5) -- AMO_MAXU, R194
  | amoCas (core : BitVec 6) (rd : BitVec 5) (base : BitVec 5) (k : BitVec 3) (rb : BitVec 5) -- AMO_CAS, R194
  | pref (core : BitVec 6) (base : BitVec 5) (k : BitVec 3) (d12 : BitVec 12) -- PREF, R186
  | beq (core : BitVec 6) (ra : BitVec 5) (rb : BitVec 5) (d16 : BitVec 16) -- BEQ, R186
  | bne (core : BitVec 6) (ra : BitVec 5) (rb : BitVec 5) (d16 : BitVec 16) -- BNE, R186
  | blt (core : BitVec 6) (ra : BitVec 5) (rb : BitVec 5) (d16 : BitVec 16) -- BLT, R186
  | bge (core : BitVec 6) (ra : BitVec 5) (rb : BitVec 5) (d16 : BitVec 16) -- BGE, R186
  | bltu (core : BitVec 6) (ra : BitVec 5) (rb : BitVec 5) (d16 : BitVec 16) -- BLTU, R186
  | bgeu (core : BitVec 6) (ra : BitVec 5) (rb : BitVec 5) (d16 : BitVec 16) -- BGEU, R186
  | bf (core : BitVec 6) (cc : BitVec 5) (d16 : BitVec 16) -- BF, R186
  | j (core : BitVec 6) (d26 : BitVec 26) -- J, R186
  | jal (core : BitVec 6) (d26 : BitVec 26) -- JAL, R186
  | jr (core : BitVec 6) (rd : BitVec 5) (ra : BitVec 5) -- JR, R186
  | loop (core : BitVec 6) (lvl : BitVec 1) (rc : BitVec 5) (n16 : BitVec 16) -- LOOP, R190
  | movs (core : BitVec 6) (es : BitVec 2) (lim : Nat) -- MOVS, R191
  | cmps (core : BitVec 6) (es : BitVec 2) (lim : Nat) -- CMPS, R191
  | scans (core : BitVec 6) (es : BitVec 2) (lim : Nat) -- SCANS, R191
  | fills (core : BitVec 6) (es : BitVec 2) (lim : Nat) -- FILLS, R191
  | hashs (core : BitVec 6) (lim : Nat) -- HASHS, R191
  | setb (core : BitVec 6) (rd : BitVec 5) (ra : BitVec 5) -- SETB, R186
  | getb (core : BitVec 6) (rd : BitVec 5) (ra : BitVec 5) -- GETB, R186
  | setl (core : BitVec 6) (rc : BitVec 5) (ra : BitVec 5) -- SETL, R186
  | getl (core : BitVec 6) (rd : BitVec 5) (rc : BitVec 5) -- GETL, R186
  | sets (core : BitVec 6) (rc : BitVec 5) (ra : BitVec 5) -- SETS, R186
  | gets (core : BitVec 6) (rd : BitVec 5) (rc : BitVec 5) -- GETS, R186
  | vadd (core : BitVec 6) (es : BitVec 2) (vd : BitVec 5) (va : BitVec 5) (vb : BitVec 5) -- VADD, R193
  | vsub (core : BitVec 6) (es : BitVec 2) (vd : BitVec 5) (va : BitVec 5) (vb : BitVec 5) -- VSUB, R193
  | vmul (core : BitVec 6) (es : BitVec 2) (vd : BitVec 5) (va : BitVec 5) (vb : BitVec 5) -- VMUL, R193
  | vand (core : BitVec 6) (vd : BitVec 5) (va : BitVec 5) (vb : BitVec 5) -- VAND, R193
  | vor (core : BitVec 6) (vd : BitVec 5) (va : BitVec 5) (vb : BitVec 5) -- VOR, R193
  | vxor (core : BitVec 6) (vd : BitVec 5) (va : BitVec 5) (vb : BitVec 5) -- VXOR, R193
  | vandn (core : BitVec 6) (vd : BitVec 5) (va : BitVec 5) (vb : BitVec 5) -- VANDN, R193
  | vmin (core : BitVec 6) (es : BitVec 2) (vd : BitVec 5) (va : BitVec 5) (vb : BitVec 5) -- VMIN, R193
  | vmax (core : BitVec 6) (es : BitVec 2) (vd : BitVec 5) (va : BitVec 5) (vb : BitVec 5) -- VMAX, R193
  | vminu (core : BitVec 6) (es : BitVec 2) (vd : BitVec 5) (va : BitVec 5) (vb : BitVec 5) -- VMINU, R193
  | vmaxu (core : BitVec 6) (es : BitVec 2) (vd : BitVec 5) (va : BitVec 5) (vb : BitVec 5) -- VMAXU, R193
  | vcmpeq (core : BitVec 6) (es : BitVec 2) (vd : BitVec 5) (va : BitVec 5) (vb : BitVec 5) -- VCMPEQ, R193
  | vcmpgt (core : BitVec 6) (es : BitVec 2) (vd : BitVec 5) (va : BitVec 5) (vb : BitVec 5) -- VCMPGT, R193
  | vcmpgtu (core : BitVec 6) (es : BitVec 2) (vd : BitVec 5) (va : BitVec 5) (vb : BitVec 5) -- VCMPGTU, R193
  | vsll (core : BitVec 6) (es : BitVec 2) (vd : BitVec 5) (va : BitVec 5) (vb : BitVec 5) -- VSLL, R193
  | vsrl (core : BitVec 6) (es : BitVec 2) (vd : BitVec 5) (va : BitVec 5) (vb : BitVec 5) -- VSRL, R193
  | vsra (core : BitVec 6) (es : BitVec 2) (vd : BitVec 5) (va : BitVec 5) (vb : BitVec 5) -- VSRA, R193
  | vbsl (core : BitVec 6) (vd : BitVec 5) (va : BitVec 5) (vb : BitVec 5) -- VBSL, R193
  | vbcast (core : BitVec 6) (es : BitVec 2) (vd : BitVec 5) (va : BitVec 5) -- VBCAST, R193
  | vext (core : BitVec 6) (es : BitVec 2) (vd : BitVec 5) (va : BitVec 5) (l : BitVec 6) -- VEXT, R193
  | vins (core : BitVec 6) (es : BitVec 2) (vd : BitVec 5) (va : BitVec 5) (l : BitVec 6) -- VINS, R193
  | vrsum (core : BitVec 6) (es : BitVec 2) (vd : BitVec 5) (va : BitVec 5) -- VRSUM, R193
  | vrmin (core : BitVec 6) (es : BitVec 2) (vd : BitVec 5) (va : BitVec 5) -- VRMIN, R193
  | vrmax (core : BitVec 6) (es : BitVec 2) (vd : BitVec 5) (va : BitVec 5) -- VRMAX, R193
  | vmsk (core : BitVec 6) (es : BitVec 2) (vd : BitVec 5) (va : BitVec 5) -- VMSK, R193
  | vmov (core : BitVec 6) (vd : BitVec 5) (va : BitVec 5) -- VMOV, R193
  | bypass (tdi : List Bool) -- BYPASS, R453
  | idcode (tdi : List Bool) -- IDCODE, R453
  | samplePreload (pins : List Bool) (tdi : List Bool) -- SAMPLE_PRELOAD, R453
  | extest (pins : List Bool) (tdi : List Bool) -- EXTEST, R453
  | clamp (tdi : List Bool) -- CLAMP, R453
  | highz (tdi : List Bool) -- HIGHZ, R453
  | perstNRelease -- PERST_N_RELEASE, R140
  | ccEnSet (i : Nat) (cc : Nat) (aqa : Nat) (asq : Nat) (acq : Nat) -- CC_EN_SET, R262
  | busMasterEnableSet -- BUS_MASTER_ENABLE_SET, R149
  | keepAliveTimeout (i : Nat) -- KEEP_ALIVE_TIMEOUT, R260
  | driveReadyTimeout (n : Nat) -- DRIVE_READY_TIMEOUT, R282
  | driveReadComplete (cmd : Nat) (ok : Bool) (data : List Byte) -- DRIVE_READ_COMPLETE, R38
  | i3cDynamicAddressAssign (addr : BitVec 7) -- I3C_DYNAMIC_ADDRESS_ASSIGN, R357
  | vbatLowLatch -- VBAT_LOW_LATCH, R424
  | supervisorRestartComplete -- SUPERVISOR_RESTART_COMPLETE, R419
  | hostCompletionTimeout (i : Nat) -- HOST_COMPLETION_TIMEOUT, R253
  deriving DecidableEq, Repr

end Sys2Proof
end

