-- ==== Sys2Proof/Decode.lean ====
section
/-! DEFINITION. The command that a word spells by the bits of the command table. -/
namespace Sys2Proof

/-- No row of the command table gives bits, so no word spells a command. [DESIGN CHOICE, log 7] -/
def decodeTableWord (_nbits _w : Nat) : Option Instr := none

end Sys2Proof
end

