-- ==== Sys2Proof/Config.lean ====
section
/-! DEFINITION. What one part fixes and the free values. A free value is an opaque constant applied to the counter `free`
of the device, which each use advances: no proof can see what it is. -/
namespace Sys2Proof

/-- The DeviceNonce of an OPEN (R372): from the random source. [DESIGN CHOICE, log 10] -/
opaque Config.nonce : Nat → BitVec 256

/-- The vault key generated at a format (R120): from the random source. [DESIGN CHOICE, log 10] -/
opaque Config.vaultKey : Nat → BitVec 512

/-- QCLK cycles that pass for one instruction (R181): the spec gives no instruction timing. [DESIGN CHOICE, log 11] -/
opaque Config.cycles : Nat → BitVec 64

/-- The bytes a compression engine chooses among the conforming streams (R238), by counter and index. [DESIGN CHOICE, log 10] -/
opaque Config.compressed : Nat → Nat → BitVec 8

/-- The length of the conforming stream a compression engine produces (R238). -/
opaque Config.compressedLen : Nat → Nat

/-- Where firmware places a program's pages in its address space (R204): base and stack. [DESIGN CHOICE, log 40] -/
opaque Config.loadBase : Nat → BitVec 48

/-- The free context number firmware chooses for a load (R203). [DESIGN CHOICE, log 40] -/
opaque Config.contextNo : Nat → Nat

/-- The frame firmware maps for a page it resolves or loads (R213, R204). [DESIGN CHOICE, log 10] -/
opaque Config.pageFrame : Nat → Nat

/-- The bytes Identify and log pages return where neither the spec nor its NVMe subset fixes them (R260). [DESIGN CHOICE, log 43] -/
opaque Config.identify : Nat → Nat → BitVec 8

/-- The Message of a firmware load's argument placement (R204). [DESIGN CHOICE, log 40] -/
opaque Config.argBase : Nat → BitVec 48

/-- EsrMeasured of a valid test whose first load current reads 0 (R69): the spec states no quotient. [DEDUCED, log 48] -/
opaque Config.openEsr : Nat → Nat

/-- The 4 KiB frame at which the machine-state region lies in DRAM (R225): the spec gives no address. [DESIGN CHOICE, log 79] -/
opaque Config.msFrame : BitVec 28

/-- Lemnov's fused JEP106 identity (R453): the spec gives no number. [DEDUCED, log 62] -/
opaque Config.jep106 : BitVec 11

/-- PackReserve ebank of a member whose master has sent no energy figures (R168): the spec states no value before its first BEACON. -/
opaque Config.ebank : Nat → Nat

/-- TNeed of a Thozu whose b_used is 0 (R163): the spec states no quotient. [DEDUCED, log 64] -/
opaque Config.needTime : Nat → BitVec 32

/-- A read at a group of an object that is no counter and that the group does not itself hold: the spec states no value (R20 to R22). [DEDUCED, log 67] -/
opaque Config.groupValue : Nat → Nat

/-- Whether the bytes of FirmwareImage pass the checks of R425, for a stage command that carries no outcome. [DESIGN CHOICE, log 60] -/
opaque Config.imageOk : Nat → Bool

/-- The version such an image carries. [DESIGN CHOICE, log 60] -/
opaque Config.imageVersion : Nat → BitVec 32

/-- The Age field of a CLEAN frame's metadata entry (R40): the spec gives no rule for its value. [DESIGN CHOICE, log 90] -/
opaque Config.age : Nat → BitVec 4

/-- Checkpoint fields of a compression engine that depend on its own choices (R250): repeat offsets, table sources and the content checksum so far, by job
slot and byte. [DESIGN CHOICE, log 91] -/
opaque Config.engineState : Nat → Nat → BitVec 8

/-- The first 4 KiB frame of the spill area in the firmware reservation (R95): the spec gives no address. [DESIGN CHOICE, log 79] -/
opaque Config.spillFrame : BitVec 28

/-- Firmware has the SRAM of a unit mapped to a context: its own choice (Table 15.2, R153). [DESIGN CHOICE, log 81] -/
opaque Config.sramMapped : Nat → Nat → Bool

/-- A Thozu's last grant, in mJ, as an earlier master of the Pack gave it (R165, R176). [DESIGN CHOICE, log 88] -/
opaque Config.lastGrant : Nat → BitVec 32

end Sys2Proof
end

