-- ==== Sys2Proof/Machine/Store.lean ====
section
/-! DEFINITION. Sparse stores: lists of (key, value) pairs in one canonical form (keys strictly rising, no entry
equal to what an unlisted key reads as), with the three operations every part of the state uses. -/
namespace Sys2Proof.Machine

/-- Reads key `k`; an unlisted key reads as `d k`. -/
def storeGet {V : Type} (d : Nat → V) : List (Nat × V) → Nat → V
  | [], k => d k
  | (a, v) :: r, k => if a = k then v else storeGet d r k

/-- Inserts or replaces the entry of key `k`, keeping the keys strictly rising. -/
def storePut {V : Type} : List (Nat × V) → Nat → V → List (Nat × V)
  | [], k, v => [(k, v)]
  | (a, w) :: r, k, v =>
    if k < a then (k, v) :: (a, w) :: r
    else if k = a then (k, v) :: r
    else (a, w) :: storePut r k v

/-- Removes every entry of key `k`. -/
def storeDel {V : Type} : List (Nat × V) → Nat → List (Nat × V)
  | [], _ => []
  | (a, w) :: r, k => if k = a then storeDel r k else (a, w) :: storeDel r k

/-- Writes `v` at key `k`; writing what an unlisted key reads as removes the entry. -/
def storeSet {V : Type} [DecidableEq V] (d : Nat → V) (m : List (Nat × V)) (k : Nat) (v : V) : List (Nat × V) :=
  if v = d k then storeDel m k else storePut m k v

/-- Every key of the list lies above `lo`, the keys rise strictly, and no entry holds its default. -/
def storeWfFrom {V : Type} [DecidableEq V] (d : Nat → V) : Nat → List (Nat × V) → Bool
  | _, [] => true
  | lo, (a, v) :: r => decide (lo ≤ a) && decide (v ≠ d a) && storeWfFrom d (a + 1) r

/-- The canonical form. -/
def storeWf {V : Type} [DecidableEq V] (d : Nat → V) (m : List (Nat × V)) : Bool := storeWfFrom d 0 m

/-- Applies `f` to the value at key `k`. -/
def storeMod {V : Type} [DecidableEq V] (d : Nat → V) (m : List (Nat × V)) (k : Nat) (f : V → V) : List (Nat × V) :=
  storeSet d m k (f (storeGet d m k))

/-- Applies `f` to every listed value, dropping entries that become their default. -/
def storeMapV {V : Type} [DecidableEq V] (d : Nat → V) (f : Nat → V → V) (m : List (Nat × V)) : List (Nat × V) :=
  (m.map fun p => (p.1, f p.1 p.2)).filter fun p => p.2 ≠ d p.1

/-- Drops the entries that `keep` refuses. -/
def storeKeep {V : Type} (keep : Nat → V → Bool) (m : List (Nat × V)) : List (Nat × V) := m.filter fun p => keep p.1 p.2

/-- Replaces the `i`-th element of a list; beyond its end nothing changes. -/
def listSet {V : Type} : List V → Nat → V → List V
  | [], _, _ => []
  | _ :: r, 0, v => v :: r
  | a :: r, i + 1, v => a :: listSet r i v

/-- The `i`-th element of a list, or `d` beyond its end. -/
def listGet {V : Type} (d : V) : List V → Nat → V
  | [], _ => d
  | a :: _, 0 => a
  | _ :: r, i + 1 => listGet d r i

/-- Applies `f` to the elements that satisfy `p`. -/
def mapIf {V : Type} (p : V → Bool) (f : V → V) (l : List V) : List V := l.map fun a => if p a then f a else a

/-- Bit `i` of a natural number, as a Bool. -/
def bit (n i : Nat) : Bool := n.testBit i

/-- `n` with bit `i` set to `b`. -/
def setBit (n i : Nat) (b : Bool) : Nat :=
  if n.testBit i = b then n else if b then n + 2 ^ i else n - 2 ^ i

/-- Byte `i` of a little-endian number. -/
def byteOf (n i : Nat) : Nat := n / 256 ^ i % 256

/-- `len` bytes of a little-endian number from byte `off`. -/
def fieldOf (n off len : Nat) : Nat := n / 256 ^ off % 256 ^ len

/-- `n` with its `len` bytes from byte `off` replaced by `v`. -/
def setField (n off len v : Nat) : Nat :=
  n - fieldOf n off len * 256 ^ off + v % 256 ^ len * 256 ^ off

/-- The little-endian number of a byte list. -/
def leNat : List Byte → Nat
  | [] => 0
  | b :: r => b.toNat + 256 * leNat r

/-- The `n` low bytes of `v`, little-endian. -/
def leBytes : Nat → Nat → List Byte
  | 0, _ => []
  | n + 1, v => BitVec.ofNat 8 v :: leBytes n (v / 256)

/-- The big-endian number of a byte list. -/
def beNat (l : List Byte) : Nat := leNat l.reverse

/-- The `n` low bytes of `v`, big-endian. -/
def beBytes (n v : Nat) : List Byte := (leBytes n v).reverse

/-- `v` as a signed number of `8·n` bits. -/
def signedOf (n v : Nat) : Int := if v < 2 ^ (8 * n - 1) then (v : Int) else (v : Int) - 2 ^ (8 * n)

/-- The `8·n`-bit pattern of a signed number. -/
def unsignedOf (n : Nat) (v : Int) : Nat := (v % (2 ^ (8 * n) : Int)).toNat

/-- Rounds `x` up to a multiple of `m`. -/
def roundUp (x m : Nat) : Nat := (x + m - 1) / m * m

end Sys2Proof.Machine
end

