-- ==== Sys2Proof/Machine/Crypto.lean ====
section
/-! DEFINITION. The standard algorithms the spec names: the CRCs of R40, R119, R158 and R386, SHA-256 and SHA-384 (FIPS 180-4,
R243), HMAC and HKDF (R372, R374), AES-256-XTS (R121, R242) and GF(2^8) arithmetic (R244). -/
namespace Sys2Proof.Machine

/-- One bit step of an MSB-first CRC of width `w`. -/
def crcBitM (w poly c : Nat) : Nat :=
  let s := c * 2 % 2 ^ w
  if c.testBit (w - 1) then s ^^^ poly else s

/-- `n` bit steps, MSB first. -/
def crcStepsM (w poly : Nat) : Nat → Nat → Nat
  | 0, c => c
  | n + 1, c => crcStepsM w poly n (crcBitM w poly c)

/-- An MSB-first CRC of width `w` over bytes. -/
def crcM (w poly init : Nat) (l : List Byte) : Nat :=
  l.foldl (fun c b => crcStepsM w poly 8 (c ^^^ (b.toNat * 2 ^ (w - 8)))) init

/-- CRC-8, polynomial 0x07, initial value 0 (R40, R386). -/
def crc8 (l : List Byte) : Nat := crcM 8 0x07 0 l

/-- CRC-16/CCITT of the Leash (R158): polynomial 0x1021, initial value 0xFFFF. -/
def crc16 (l : List Byte) : Nat := crcM 16 0x1021 0xFFFF l

/-- CRC-64/ECMA-182 (R119). -/
def crc64 (l : List Byte) : Nat := crcM 64 0x42F0E1EBA9EA3693 0 l

/-- `n` bit steps of the reflected CRC-32C. -/
def crc32cSteps : Nat → Nat → Nat
  | 0, c => c
  | n + 1, c => crc32cSteps n (if c.testBit 0 then (c / 2) ^^^ 0x82F63B78 else c / 2)

/-- crc32c_update of R191: one byte folded into the running value, with no final exclusive-or. -/
def crc32cUpdate (c : Nat) (b : Byte) : Nat := crc32cSteps 8 (c ^^^ b.toNat)

/-- CRC-32C (R119): initial value and final exclusive-or all ones. [PRESUMED, log 14] -/
def crc32c (l : List Byte) : Nat := (l.foldl crc32cUpdate 0xFFFFFFFF) ^^^ 0xFFFFFFFF

/-- The largest `k`-th root below `2 ^ n` above `x`, found bit by bit from the top: the integer `k`-th root of `v`. -/
def rootBits (k v : Nat) : Nat → Nat → Nat
  | 0, x => x
  | n + 1, x => rootBits k v n (bif Nat.ble ((x + 2 ^ n) ^ k) v then x + 2 ^ n else x)

/-- The first 64 bits of the fractional part of the `k`-th root of `p`, from which FIPS 180-4 takes its constants. -/
def rootFraction (k p : Nat) : Nat := rootBits k (p * 2 ^ (64 * k)) 67 0 % 2 ^ 64

/-- The first eighty prime numbers. -/
def shaPrimes : List Nat :=
  (List.range 410).filter fun p => Nat.ble 2 p && ([2, 3, 5, 7, 11, 13, 17, 19].all fun q => Nat.ble p q || !Nat.beq (p % q) 0)

/-- The round constants of FIPS 180-4, section 4.2.3: cube roots of the first eighty primes; their upper halves are those of section 4.2.2. -/
def shaK : List Nat := shaPrimes.map (rootFraction 3)

/-- Initial hash value of SHA-256: square roots of the first eight primes, 32 bits of each (5.3.3). -/
def iv256 : List Nat := (shaPrimes.take 8).map fun p => rootFraction 2 p / 2 ^ 32

/-- Initial hash value of SHA-384: square roots of the ninth to the sixteenth prime, 64 bits of each (5.3.4). -/
def iv384 : List Nat := ((shaPrimes.drop 8).take 8).map (rootFraction 2)

/-- Rotate right within `w` bits. -/
def rotr (w n x : Nat) : Nat := x / 2 ^ n + x % 2 ^ n * 2 ^ (w - n)

/-- The parameters of a SHA-2 function: word bits, rounds and rotation amounts. -/
structure Sha where
  w : Nat
  rounds : Nat
  s0 : List Nat
  s1 : List Nat
  e0 : List Nat
  e1 : List Nat

/-- SHA-256 (FIPS 180-4, 4.1.2). -/
def sha256P : Sha := ⟨32, 64, [7, 18, 3], [17, 19, 10], [2, 13, 22], [6, 11, 25]⟩
/-- SHA-384 (FIPS 180-4, 4.1.3). -/
def sha384P : Sha := ⟨64, 80, [1, 8, 7], [19, 61, 6], [28, 34, 39], [14, 18, 41]⟩

/-- A lower-case sigma: two rotations and a shift. -/
def Sha.sig (p : Sha) (l : List Nat) (x : Nat) : Nat :=
  rotr p.w (listGet 0 l 0) x ^^^ rotr p.w (listGet 0 l 1) x ^^^ (x / 2 ^ listGet 0 l 2)
/-- An upper-case sigma: three rotations. -/
def Sha.sum (p : Sha) (l : List Nat) (x : Nat) : Nat :=
  rotr p.w (listGet 0 l 0) x ^^^ rotr p.w (listGet 0 l 1) x ^^^ rotr p.w (listGet 0 l 2) x

/-- The message schedule, newest word first: `n` more words appended. -/
def Sha.sched (p : Sha) : Nat → List Nat → List Nat
  | 0, ws => ws
  | n + 1, ws =>
    p.sched n ((p.sig p.s1 (listGet 0 ws 1) + listGet 0 ws 6 + p.sig p.s0 (listGet 0 ws 14) + listGet 0 ws 15) % 2 ^ p.w :: ws)

/-- One round on the eight working words. -/
def Sha.round (p : Sha) (h : List Nat) (kw : Nat × Nat) : List Nat :=
  match h with
  | [a, b, c, d, e, f, g, hh] =>
    let m := 2 ^ p.w
    let ch := (e &&& f) ^^^ ((m - 1 - e) &&& g)
    let t1 := hh + p.sum p.e1 e + ch + kw.1 + kw.2
    let maj := (a &&& b) ^^^ (a &&& c) ^^^ (b &&& c)
    let t2 := p.sum p.e0 a + maj
    [(t1 + t2) % m, a, b, c, (d + t1) % m, e, f, g]
  | _ => h

/-- The compression function on one block of 16 words. -/
def Sha.block (p : Sha) (h : List Nat) (ws : List Nat) : List Nat :=
  let sched := (p.sched (p.rounds - 16) ws.reverse).reverse
  let ks := (shaK.take p.rounds).map fun k => if p.w = 32 then k / 2 ^ 32 else k
  let r := (ks.zip sched).foldl p.round h
  (h.zip r).map fun (x, y) => (x + y) % 2 ^ p.w

/-- Splits a list into chunks of `n` elements, at most `fuel` of them. -/
def chunks {α : Type} (n : Nat) : Nat → List α → List (List α)
  | 0, _ => []
  | f + 1, l => if l.isEmpty then [] else l.take n :: chunks n f (l.drop n)

/-- Whole blocks of a message folded into the state `h`. -/
def Sha.fold (p : Sha) (h : List Nat) (l : List Byte) : List Nat :=
  let wb := p.w / 8
  (chunks (16 * wb) (l.length / (16 * wb) + 1) l).foldl
    (fun h blk => if blk.length = 16 * wb then p.block h ((chunks wb 16 blk).map beNat) else h) h

/-- The padding of a message whose last bytes are `l` and whose whole length is `bits` bits. -/
def Sha.pad (p : Sha) (l : List Byte) (bits : Nat) : List Byte :=
  let blk := 2 * p.w
  let lenB := p.w / 4
  let z := (blk - (l.length + 1 + lenB) % blk) % blk
  l ++ [0x80] ++ List.replicate z 0 ++ beBytes lenB bits

/-- The bytes of a hash state. -/
def Sha.out (p : Sha) (h : List Nat) : List Byte := h.flatMap (beBytes (p.w / 8))

/-- SHA-256 of a message. [PRESUMED, log 14] -/
def sha256 (l : List Byte) : List Byte := sha256P.out (sha256P.fold iv256 (sha256P.pad l (8 * l.length)))

/-- SHA-384 of a message. [PRESUMED, log 14] -/
def sha384 (l : List Byte) : List Byte := (sha384P.out (sha384P.fold iv384 (sha384P.pad l (8 * l.length)))).take 48

/-- HMAC-SHA-384 (R372). [PRESUMED, log 14] -/
def hmac384 (key msg : List Byte) : List Byte :=
  let k0 := if key.length > 128 then sha384 key else key
  let k := k0 ++ List.replicate (128 - k0.length) 0
  let ip := k.map (· ^^^ 0x36)
  let op := k.map (· ^^^ 0x5C)
  sha384 (op ++ sha384 (ip ++ msg))

/-- HKDF-Extract (RFC 5869). [PRESUMED, log 14] -/
def hkdfExtract (salt ikm : List Byte) : List Byte := hmac384 salt ikm

/-- HKDF-Expand to 48 bytes, one block of the hash (RFC 5869). -/
def hkdfExpand48 (prk info : List Byte) : List Byte := hmac384 prk (info ++ [1])

/-- Multiplication by x in GF(2^8) with polynomial `m`. -/
def gfX (m a : Nat) : Nat := if a ≥ 128 then (a * 2) ^^^ m else a * 2

/-- `n` steps of multiplication in GF(2^8). -/
def gfMulAux (m : Nat) : Nat → Nat → Nat → Nat → Nat
  | 0, _, _, r => r
  | n + 1, a, b, r => gfMulAux m n (gfX m a) (b / 2) (if b % 2 = 1 then r ^^^ a else r)

/-- Multiplication in GF(2^8) with polynomial `m` (0x11B for AES, 0x11D for R244). -/
def gfMul (m a b : Nat) : Nat := gfMulAux m 8 a b 0

/-- The inverse in GF(2^8): the 254th power; 0 goes to 0. -/
def gfInv (m a : Nat) : Nat :=
  let a2 := gfMul m a a
  let a4 := gfMul m a2 a2
  let a8 := gfMul m a4 a4
  let a16 := gfMul m a8 a8
  let a32 := gfMul m a16 a16
  let a64 := gfMul m a32 a32
  let a128 := gfMul m a64 a64
  gfMul m a2 (gfMul m a4 (gfMul m a8 (gfMul m a16 (gfMul m a32 (gfMul m a64 a128)))))

/-- Rotate a byte left. -/
def rol8 (n x : Nat) : Nat := (x * 2 ^ n + x / 2 ^ (8 - n)) % 256

/-- The AES S-box. -/
def aesSbox (x : Nat) : Nat :=
  let i := gfInv 0x11B x
  i ^^^ rol8 1 i ^^^ rol8 2 i ^^^ rol8 3 i ^^^ rol8 4 i ^^^ 0x63

/-- The inverse AES S-box. -/
def aesInvSbox (y : Nat) : Nat := gfInv 0x11B (rol8 1 y ^^^ rol8 3 y ^^^ rol8 6 y ^^^ 0x05)

/-- Words of the AES-256 key schedule, newest first, `n` more. -/
def aesExpand : Nat → Nat → List (List Nat) → List (List Nat)
  | 0, _, ws => ws
  | n + 1, i, ws =>
    let prev := listGet [] ws 0
    let t := if i % 8 = 0 then
        let r := prev.drop 1 ++ prev.take 1
        let s := r.map aesSbox
        (listGet 0 s 0 ^^^ 2 ^ (i / 8 - 1)) :: s.drop 1
      else if i % 8 = 4 then prev.map aesSbox else prev
    aesExpand n (i + 1) ((((listGet [] ws 7).zip t).map fun (a, b) => a ^^^ b) :: ws)

/-- The 15 round keys of AES-256. -/
def aesKeys (key : List Byte) : List (List Nat) :=
  let ws := (chunks 4 8 (key.map (·.toNat))).reverse
  chunks 16 15 ((aesExpand 52 8 ws).reverse.flatten)

/-- Adds two states. -/
def aesAdd (a b : List Nat) : List Nat := (a.zip b).map fun (x, y) => x ^^^ y

/-- ShiftRows, or its inverse with step 13. -/
def aesShift (step : Nat) (s : List Nat) : List Nat :=
  (List.range 16).map fun i => listGet 0 s ((i + (if step = 5 then 4 * (i % 4) else 16 - 4 * (i % 4))) % 16)

/-- MixColumns with the coefficients of one row. -/
def aesMix (co : List Nat) (s : List Nat) : List Nat :=
  (List.range 16).map fun i =>
    let c := i / 4 * 4
    let r := i % 4
    (List.range 4).foldl (fun acc j => acc ^^^ gfMul 0x11B (listGet 0 co ((j + 4 - r) % 4)) (listGet 0 s (c + j))) 0

/-- AES-256 encryption of one block. -/
def aesEnc (key blk : List Byte) : List Byte :=
  let ks := aesKeys key
  let s0 := aesAdd (blk.map (·.toNat)) (listGet [] ks 0)
  let s := (List.range 13).foldl (fun s r => aesAdd (aesMix [2, 3, 1, 1] (aesShift 5 (s.map aesSbox))) (listGet [] ks (r + 1))) s0
  (aesAdd (aesShift 5 (s.map aesSbox)) (listGet [] ks 14)).map (BitVec.ofNat 8)

/-- AES-256 decryption of one block. -/
def aesDec (key blk : List Byte) : List Byte :=
  let ks := aesKeys key
  let s0 := aesAdd (blk.map (·.toNat)) (listGet [] ks 14)
  let s := (List.range 13).foldl
    (fun s r => aesMix [14, 11, 13, 9] (aesAdd ((aesShift 13 s).map aesInvSbox) (listGet [] ks (13 - r)))) s0
  (aesAdd ((aesShift 13 s).map aesInvSbox) (listGet [] ks 0)).map (BitVec.ofNat 8)

/-- Multiplication of the XTS tweak by alpha (IEEE 1619). -/
def xtsAlpha (t : Nat) : Nat := if t ≥ 2 ^ 127 then (t * 2 % 2 ^ 128) ^^^ 0x87 else t * 2

/-- The blocks of one data unit under the running tweak. -/
def xtsBlocks (f : List Byte → List Byte) : Nat → List (List Byte) → List Byte
  | _, [] => []
  | t, b :: r =>
    let tb := leBytes 16 t
    let x := f ((b.zip tb).map fun (p, q) => p ^^^ q)
    ((x.zip tb).map fun (p, q) => p ^^^ q) ++ xtsBlocks f (xtsAlpha t) r

/-- AES-256-XTS of one data unit whose length is a multiple of 16 (R121, R242). [PRESUMED, log 14] -/
def xts (dec : Bool) (k1 k2 : List Byte) (tweak : Nat) (l : List Byte) : List Byte :=
  let t := leNat (aesEnc k2 (leBytes 16 tweak))
  xtsBlocks (if dec then aesDec k1 else aesEnc k1) t (chunks 16 (l.length / 16) l)

/-- Consecutive data units of `n` bytes with rising tweaks modulo 2^128 (R242). -/
def xtsUnits (dec : Bool) (k1 k2 : List Byte) (tweak n : Nat) (l : List Byte) : List Byte :=
  let us := chunks n (l.length / n) l
  ((List.range us.length).zip us).flatMap fun (u, b) => xts dec k1 k2 ((tweak + u) % 2 ^ 128) b

/-- The coefficient c(j, i) of R244. -/
def rsCoef (j i : Nat) : Nat := gfInv 0x11D (j ^^^ (4 + i))

/-- A linear combination of byte strips. -/
def rsSum (cs : List (Nat × List Byte)) (n : Nat) : List Byte :=
  (List.range n).map fun o =>
    BitVec.ofNat 8 (cs.foldl (fun acc (c, s) => acc ^^^ gfMul 0x11D c (listGet (0 : Byte) s o).toNat) 0)

/-- Parity strip `j` of the data strips (R244). -/
def rsParity (j : Nat) (data : List (List Byte)) (n : Nat) : List Byte :=
  rsSum (((List.range data.length).zip data).map fun (i, s) => (rsCoef j i, s)) n

/-- A row operation of Gaussian elimination over GF(2^8): clears column `c` of row `r` with the pivot row. -/
def gfElim (c : Nat) (piv r : List Nat) : List Nat :=
  let f := listGet 0 r c
  (r.zip piv).map fun (x, y) => x ^^^ gfMul 0x11D f y

/-- Gauss–Jordan elimination of `n` columns, done rows first. -/
def gfSolve : Nat → Nat → List (List Nat) → List (List Nat) → List (List Nat)
  | 0, _, done, rest => done ++ rest
  | n + 1, c, done, rest =>
    match rest.find? (fun r => listGet 0 r c ≠ 0) with
    | none => done ++ rest
    | some p =>
      let inv := gfInv 0x11D (listGet 0 p c)
      let piv := p.map (gfMul 0x11D inv)
      gfSolve n (c + 1) (done.map (gfElim c piv) ++ [piv]) ((rest.erase p).map (gfElim c piv))

/-- Row `m` of the code: a unit row for data, a coefficient row for parity. -/
def rsRow (k m : Nat) : List Nat :=
  (List.range k).map fun i => if m < k then (if m = i then 1 else 0) else rsCoef (m - k) i

/-- The data strips rebuilt from `k` members (number, strip): the inverse matrix applied to the strips (R244). -/
def rsData (k : Nat) (have_ : List (Nat × List Byte)) (n : Nat) : List (List Byte) :=
  let ms := have_.take k
  let aug := ((List.range k).zip ms).map fun (i, (m, _)) => rsRow k m ++ (List.range k).map fun j => if i = j then 1 else 0
  let sol := gfSolve k 0 [] aug
  (List.range k).map fun i => rsSum ((((listGet [] sol i).drop k).zip ms).map fun (c, (_, s)) => (c, s)) n

/-- Member `m` of the row from the data strips. -/
def rsMember (k m : Nat) (data : List (List Byte)) (n : Nat) : List Byte :=
  if m < k then listGet [] data m else rsParity (m - k) data n

end Sys2Proof.Machine
end

