-- ==== Sys2Proof/Machine/DictTable.lean ====
section
/-! DEFINITION. The dictionary's objects (R359, R381): one row for each object the spec's tables define, with its type,
size, access, default, persistence class, apply rule, the units it exists at and its fixed range, and a constant
naming each. Rail objects stand once, for rail 0; rail r is `256 · r` further (R318, R339). Row `12` fields: the object's key index·256 + subindex, and the columns. -/
namespace Sys2Proof.Machine

/-- A row of the dictionary: the columns of the object tables. `loc`: 0 the chip, 1 every unit, 2 /9, 3 /6, 4 /7, 5 each
/7/n, 6 /8, 7 cores, 8 offload engines, 9 crypto engines, 10 DMA engines, 11 cache slices. `pers`: 0 V, 1 K, 2 F. Rights: 1 r, 2 rw. -/
structure ObjRow where
  oid : Nat
  typ : Nat
  size : Nat
  obs : Nat
  opr : Nat
  mgr : Nat
  fac : Nat
  dflt : Nat
  pers : Nat
  staged : Bool
  loc : Nat
  range : Option (Int × Int)
  counter : Bool
  deriving DecidableEq, Repr

/-- 0x1000:00 PartNumber, R383. -/
def oPartNumber : Nat := 0x100000
/-- 0x1000:01 SiliconRevision, R383. -/
def oSiliconRevision : Nat := 0x100001
/-- 0x1000:02 DeviceSerial, R383. -/
def oDeviceSerial : Nat := 0x100002
/-- 0x1000:03 VendorName, R383. -/
def oVendorName : Nat := 0x100003
/-- 0x1000:04 ProductName, R383. -/
def oProductName : Nat := 0x100004
/-- 0x1000:05 PciVendorId, R383. -/
def oPciVendorId : Nat := 0x100005
/-- 0x1000:06 PciDeviceId, R383. -/
def oPciDeviceId : Nat := 0x100006
/-- 0x1000:07 EndpointUuid, R383. -/
def oEndpointUuid : Nat := 0x100007
/-- 0x1008:00 FirmwareVersion, R384. -/
def oFirmwareVersion : Nat := 0x100800
/-- 0x1008:01 FirmwareSlot, R384. -/
def oFirmwareSlot : Nat := 0x100801
/-- 0x1008:02 IsaVersion, R384. -/
def oIsaVersion : Nat := 0x100802
/-- 0x1008:03 MessageVersion, R384. -/
def oMessageVersion : Nat := 0x100803
/-- 0x1008:04 HeelFormat, R384. -/
def oHeelFormat : Nat := 0x100804
/-- 0x1008:05 SaveAreaFormat, R384. -/
def oSaveAreaFormat : Nat := 0x100805
/-- 0x1010:00 ResetCommand, R428. -/
def oResetCommand : Nat := 0x101000
/-- 0x1010:01 LastResetKind, R428. -/
def oLastResetKind : Nat := 0x101001
/-- 0x1010:02 ResetCounts, R428. -/
def oResetCounts : Nat := 0x101002
/-- 0x1010:03 WatchdogTimeout, R428. -/
def oWatchdogTimeout : Nat := 0x101003
/-- 0x1010:04 UnitReset, R428. -/
def oUnitReset : Nat := 0x101004
/-- 0x1010:05 FirmwareImage, R428. -/
def oFirmwareImage : Nat := 0x101005
/-- 0x1010:06 FirmwareCommand, R428. -/
def oFirmwareCommand : Nat := 0x101006
/-- 0x1010:07 FirmwareStatus, R428. -/
def oFirmwareStatus : Nat := 0x101007
/-- 0x1020:00 UnitKind, R25. -/
def oUnitKind : Nat := 0x102000
/-- 0x1020:01 UnitNumber, R25. -/
def oUnitNumber : Nat := 0x102001
/-- 0x1020:02 ChildCount, R25. -/
def oChildCount : Nat := 0x102002
/-- 0x1020:03 ChildPresent, R25. -/
def oChildPresent : Nat := 0x102003
/-- 0x1020:04 FaultStatus, R25. -/
def oFaultStatus : Nat := 0x102004
/-- 0x1100:00 SessionCount, R380. -/
def oSessionCount : Nat := 0x110000
/-- 0x1100:01 OperatorKey, R380. -/
def oOperatorKey : Nat := 0x110001
/-- 0x1100:02 ManagerKey, R380. -/
def oManagerKey : Nat := 0x110002
/-- 0x1100:03 FactoryKey, R380. -/
def oFactoryKey : Nat := 0x110003
/-- 0x1100:04 LockoutState, R380. -/
def oLockoutState : Nat := 0x110004
/-- 0x1100:05 SessionIdle, R380. -/
def oSessionIdle : Nat := 0x110005
/-- 0x1100:06 AuthFailures, R380. -/
def oAuthFailures : Nat := 0x110006
/-- 0x1108:00 SmbusAddress, R380. -/
def oSmbusAddress : Nat := 0x110800
/-- 0x1108:01 I3cStaticAddress, R380. -/
def oI3cStaticAddress : Nat := 0x110801
/-- 0x1108:02 PcieMctpEnable, R380. -/
def oPcieMctpEnable : Nat := 0x110802
/-- 0x1200:00 DictChangeCounter, R380. -/
def oDictChangeCounter : Nat := 0x120000
/-- 0x1200:01 HeelRequests, R380. -/
def oHeelRequests : Nat := 0x120001
/-- 0x20rr:00 RailKind, R318. -/
def oRailKind : Nat := 0x200000
/-- 0x20rr:01 BusAddress, R318. -/
def oBusAddress : Nat := 0x200001
/-- 0x20rr:02 Nominal, R318. -/
def oNominal : Nat := 0x200002
/-- 0x20rr:03 WarnHigh, R318. -/
def oWarnHigh : Nat := 0x200003
/-- 0x20rr:04 FaultHigh, R318. -/
def oFaultHigh : Nat := 0x200004
/-- 0x20rr:05 WarnLow, R318. -/
def oWarnLow : Nat := 0x200005
/-- 0x20rr:06 FaultLow, R318. -/
def oFaultLow : Nat := 0x200006
/-- 0x20rr:07 Debounce, R318. -/
def oDebounce : Nat := 0x200007
/-- 0x20rr:08 PgDeadline, R318. -/
def oPgDeadline : Nat := 0x200008
/-- 0x20rr:09 DischargeLevel, R318. -/
def oDischargeLevel : Nat := 0x200009
/-- 0x20rr:0A DischargeTimeout, R318. -/
def oDischargeTimeout : Nat := 0x20000A
/-- 0x20rr:0B Parents, R318. -/
def oParents : Nat := 0x20000B
/-- 0x20rr:0C Flags, R318. -/
def oFlags : Nat := 0x20000C
/-- 0x20rr:0D StartDelay, R318. -/
def oStartDelay : Nat := 0x20000D
/-- 0x20rr:0E SenseScale, R318. -/
def oSenseScale : Nat := 0x20000E
/-- 0x20rr:0F MarginStep, R318. -/
def oMarginStep : Nat := 0x20000F
/-- 0x2040+r:00 RailState, R339. -/
def oRailState : Nat := 0x204000
/-- 0x2040+r:01 RailVoltage, R339. -/
def oRailVoltage : Nat := 0x204001
/-- 0x2040+r:02 Warnings, R339. -/
def oWarnings : Nat := 0x204002
/-- 0x2040+r:03 Faults, R339. -/
def oFaults : Nat := 0x204003
/-- 0x2040+r:04 StartFailures, R339. -/
def oStartFailures : Nat := 0x204004
/-- 0x2040+r:05 DischargeTimeouts, R339. -/
def oDischargeTimeouts : Nat := 0x204005
/-- 0x2040+r:06 MarginCycles, R339. -/
def oMarginCycles : Nat := 0x204006
/-- 0x2080:00 SupervisorState, R339. -/
def oSupervisorState : Nat := 0x208000
/-- 0x2080:01 PowerGoodTick, R339. -/
def oPowerGoodTick : Nat := 0x208001
/-- 0x2080:02 LongPressTime, R339. -/
def oLongPressTime : Nat := 0x208002
/-- 0x2080:03 MarginMode, R339. -/
def oMarginMode : Nat := 0x208003
/-- 0x2080:04 AvsAckTimeout, R339. -/
def oAvsAckTimeout : Nat := 0x208004
/-- 0x2080:05 ShutdownRequest, R339. -/
def oShutdownRequest : Nat := 0x208005
/-- 0x2080:06 RailCommand, R339. -/
def oRailCommand : Nat := 0x208006
/-- 0x2080:07 AutoPowerOn, R339. -/
def oAutoPowerOn : Nat := 0x208007
/-- 0x2080:08 OperatingPoints, R339. -/
def oOperatingPoints : Nat := 0x208008
/-- 0x2080:09 CoreOperatingPoint, R339. -/
def oCoreOperatingPoint : Nat := 0x208009
/-- 0x2800:00 GroupWidth, R293. -/
def oGroupWidth : Nat := 0x280000
/-- 0x2800:01 RefClockMode, R293. -/
def oRefClockMode : Nat := 0x280001
/-- 0x2800:02 MaxSpeed, R293. -/
def oMaxSpeed : Nat := 0x280002
/-- 0x2800:03 PortTable, R293. -/
def oPortTable : Nat := 0x280003
/-- 0x2800:04 PortCommand, R293. -/
def oPortCommand : Nat := 0x280004
/-- 0x2800:05 PortReadyTimeout, R293. -/
def oPortReadyTimeout : Nat := 0x280005
/-- 0x2800:06 RebuildRate, R293. -/
def oRebuildRate : Nat := 0x280006
/-- 0x2800:07 PortSlot, R293. -/
def oPortSlot : Nat := 0x280007
/-- 0x2800:08 SlotAutoOn, R293. -/
def oSlotAutoOn : Nat := 0x280008
/-- 0x2800:09 DrivesLost, R293. -/
def oDrivesLost : Nat := 0x280009
/-- 0x3000:00 DomainRequest, R358. -/
def oDomainRequest : Nat := 0x300000
/-- 0x3000:01 DomainState, R358. -/
def oDomainState : Nat := 0x300001
/-- 0x3000:02 DomainLock, R358. -/
def oDomainLock : Nat := 0x300002
/-- 0x3000:03 EntryAborts, R358. -/
def oEntryAborts : Nat := 0x300003
/-- 0x3000:04 LastRefuser, R358. -/
def oLastRefuser : Nat := 0x300004
/-- 0x3000:05 DemandWakes, R358. -/
def oDemandWakes : Nat := 0x300005
/-- 0x3000:06 WakeStallMax, R358. -/
def oWakeStallMax : Nat := 0x300006
/-- 0x3000:07 LockedRefusals, R358. -/
def oLockedRefusals : Nat := 0x300007
/-- 0x3000:08 InrushCharge, R358. -/
def oInrushCharge : Nat := 0x300008
/-- 0x3000:09 InrushChargeRet, R358. -/
def oInrushChargeRet : Nat := 0x300009
/-- 0x3008:00 InrushCapacity, R358. -/
def oInrushCapacity : Nat := 0x300800
/-- 0x3008:01 InrushRefill, R358. -/
def oInrushRefill : Nat := 0x300801
/-- 0x3008:02 InrushLevel, R358. -/
def oInrushLevel : Nat := 0x300802
/-- 0x3008:03 InrushWaits, R358. -/
def oInrushWaits : Nat := 0x300803
/-- 0x3010:00 PadHeld, R358. -/
def oPadHeld : Nat := 0x301000
/-- 0x3010:01 PadRelease, R358. -/
def oPadRelease : Nat := 0x301001
/-- 0x3010:02 PadAutoRelease, R358. -/
def oPadAutoRelease : Nat := 0x301002
/-- 0x3018:00 SupervisorIdle, R358. -/
def oSupervisorIdle : Nat := 0x301800
/-- 0x3018:01 AllowI3cRet, R358. -/
def oAllowI3cRet : Nat := 0x301801
/-- 0x3018:02 AddressWakes, R358. -/
def oAddressWakes : Nat := 0x301802
/-- 0x3018:03 StretchOverruns, R358. -/
def oStretchOverruns : Nat := 0x301803
/-- 0x4000:00 DramCapacity, R315. -/
def oDramCapacity : Nat := 0x400000
/-- 0x4000:01 DramSpeed, R315. -/
def oDramSpeed : Nat := 0x400001
/-- 0x4000:02 MaxDramSpeed, R315. -/
def oMaxDramSpeed : Nat := 0x400002
/-- 0x4000:03 ChannelsInService, R315. -/
def oChannelsInService : Nat := 0x400003
/-- 0x4000:04 ProgramReserve, R315. -/
def oProgramReserve : Nat := 0x400004
/-- 0x4008:00 ChannelState, R315. -/
def oChannelState : Nat := 0x400800
/-- 0x4008:01 CorrectedReads, R315. -/
def oCorrectedReads : Nat := 0x400801
/-- 0x4008:02 UncorrectableReads, R315. -/
def oUncorrectableReads : Nat := 0x400802
/-- 0x4008:03 Replays, R315. -/
def oReplays : Nat := 0x400803
/-- 0x4008:04 NeighbourRefreshes, R315. -/
def oNeighbourRefreshes : Nat := 0x400804
/-- 0x4008:05 Retrains, R315. -/
def oRetrains : Nat := 0x400805
/-- 0x4008:06 TrainTemperature, R315. -/
def oTrainTemperature : Nat := 0x400806
/-- 0x4008:07 SelfRefreshAborts, R315. -/
def oSelfRefreshAborts : Nat := 0x400807
/-- 0x4010:00 HashMasks, R315. -/
def oHashMasks : Nat := 0x401000
/-- 0x4010:01 PagePolicy, R315. -/
def oPagePolicy : Nat := 0x401001
/-- 0x4010:02 PortLatencyTarget, R315. -/
def oPortLatencyTarget : Nat := 0x401002
/-- 0x4010:03 AgeLimit, R315. -/
def oAgeLimit : Nat := 0x401003
/-- 0x4010:04 RowHammerThreshold, R315. -/
def oRowHammerThreshold : Nat := 0x401004
/-- 0x4010:05 BlastRadius, R315. -/
def oBlastRadius : Nat := 0x401005
/-- 0x4010:06 RetrainInterval, R315. -/
def oRetrainInterval : Nat := 0x401006
/-- 0x4010:07 RetrainDrift, R315. -/
def oRetrainDrift : Nat := 0x401007
/-- 0x4010:08 ChannelCommand, R315. -/
def oChannelCommand : Nat := 0x401008
/-- 0x5000:00 CacheModeRequested, R62. -/
def oCacheModeRequested : Nat := 0x500000
/-- 0x5000:01 CacheModeActive, R62. -/
def oCacheModeActive : Nat := 0x500001
/-- 0x5000:02 WriteThroughCause, R62. -/
def oWriteThroughCause : Nat := 0x500002
/-- 0x5000:03 CacheCapacity, R62. -/
def oCacheCapacity : Nat := 0x500003
/-- 0x5000:04 CacheSizeLimit, R62. -/
def oCacheSizeLimit : Nat := 0x500004
/-- 0x5000:05 DirtyBlocks, R62. -/
def oDirtyBlocks : Nat := 0x500005
/-- 0x5000:06 EffectiveCeiling, R62. -/
def oEffectiveCeiling : Nat := 0x500006
/-- 0x5000:07 GovernorWaits, R62. -/
def oGovernorWaits : Nat := 0x500007
/-- 0x5000:08 ThroughWrites, R62. -/
def oThroughWrites : Nat := 0x500008
/-- 0x5000:09 DestageLowWater, R62. -/
def oDestageLowWater : Nat := 0x500009
/-- 0x5000:0A DestageHighWater, R62. -/
def oDestageHighWater : Nat := 0x50000A
/-- 0x5000:0B DestageWindow, R62. -/
def oDestageWindow : Nat := 0x50000B
/-- 0x5000:0C PoisonedBlocks, R62. -/
def oPoisonedBlocks : Nat := 0x50000C
/-- 0x5100:00 VolumeTable, R62. -/
def oVolumeTable : Nat := 0x510000
/-- 0x5800:00 EnergyShortfall, R80. -/
def oEnergyShortfall : Nat := 0x580000
/-- 0x5800:01 BankVoltage, R80. -/
def oBankVoltage : Nat := 0x580001
/-- 0x5800:02 EnergyAvailable, R80. -/
def oEnergyAvailable : Nat := 0x580002
/-- 0x5800:03 DirtyCeilingBlocks, R80. -/
def oDirtyCeilingBlocks : Nat := 0x580003
/-- 0x5800:04 CapMeasured, R80. -/
def oCapMeasured : Nat := 0x580004
/-- 0x5800:05 EsrMeasured, R80. -/
def oEsrMeasured : Nat := 0x580005
/-- 0x5800:06 CapUsed, R80. -/
def oCapUsed : Nat := 0x580006
/-- 0x5800:07 CapTestAge, R80. -/
def oCapTestAge : Nat := 0x580007
/-- 0x5808:00 VMin, R80. -/
def oVMin : Nat := 0x580800
/-- 0x5808:01 Efficiency, R80. -/
def oEfficiency : Nat := 0x580801
/-- 0x5808:02 Margin, R80. -/
def oMargin : Nat := 0x580802
/-- 0x5808:03 TFixed, R80. -/
def oTFixed : Nat := 0x580803
/-- 0x5808:04 ERetainMin, R80. -/
def oERetainMin : Nat := 0x580804
/-- 0x5808:05 PVaultDefault, R80. -/
def oPVaultDefault : Nat := 0x580805
/-- 0x5808:06 PVaultFloor, R80. -/
def oPVaultFloor : Nat := 0x580806
/-- 0x5808:07 BVaultDefault, R80. -/
def oBVaultDefault : Nat := 0x580807
/-- 0x5808:08 AgeMargin, R80. -/
def oAgeMargin : Nat := 0x580808
/-- 0x5808:09 EsrLimit, R80. -/
def oEsrLimit : Nat := 0x580809
/-- 0x5808:0A DerateTable, R80. -/
def oDerateTable : Nat := 0x58080A
/-- 0x5808:0B BankTempInput, R80. -/
def oBankTempInput : Nat := 0x58080B
/-- 0x5808:0C SenseInputs, R80. -/
def oSenseInputs : Nat := 0x58080C
/-- 0x5808:0D CapTestInterval, R80. -/
def oCapTestInterval : Nat := 0x58080D
/-- 0x5810:00 ChargerAddress, R80. -/
def oChargerAddress : Nat := 0x581000
/-- 0x5810:01 ChargeVoltage, R80. -/
def oChargeVoltage : Nat := 0x581001
/-- 0x5810:02 ChargeCurrent, R80. -/
def oChargeCurrent : Nat := 0x581002
/-- 0x5818:00 CapTestStart, R80. -/
def oCapTestStart : Nat := 0x581800
/-- 0x5818:01 DrillStart, R80. -/
def oDrillStart : Nat := 0x581801
/-- 0x5818:02 DrillBytes, R80. -/
def oDrillBytes : Nat := 0x581802
/-- 0x5818:03 DrillInterval, R80. -/
def oDrillInterval : Nat := 0x581803
/-- 0x5818:04 DrillValid, R80. -/
def oDrillValid : Nat := 0x581804
/-- 0x5818:05 DrillRate, R80. -/
def oDrillRate : Nat := 0x581805
/-- 0x5818:06 DrillPower, R80. -/
def oDrillPower : Nat := 0x581806
/-- 0x5818:07 CapTestsAbandoned, R80. -/
def oCapTestsAbandoned : Nat := 0x581807
/-- 0x6000:00 PfailThreshold, R87. -/
def oPfailThreshold : Nat := 0x600000
/-- 0x6000:01 PfailFilter, R87. -/
def oPfailFilter : Nat := 0x600001
/-- 0x6000:02 RescindInterval, R87. -/
def oRescindInterval : Nat := 0x600002
/-- 0x6000:03 VaultCommand, R87. -/
def oVaultCommand : Nat := 0x600003
/-- 0x6000:04 MayDropPolicy, R87. -/
def oMayDropPolicy : Nat := 0x600004
/-- 0x6001:00 VaultState, R87. -/
def oVaultState : Nat := 0x600100
/-- 0x6001:01 FixedBytes, R87. -/
def oFixedBytes : Nat := 0x600101
/-- 0x6001:02 MustPageBytes, R87. -/
def oMustPageBytes : Nat := 0x600102
/-- 0x6001:03 MayDropBytes, R87. -/
def oMayDropBytes : Nat := 0x600103
/-- 0x6001:04 RefusedWakes, R87. -/
def oRefusedWakes : Nat := 0x600104
/-- 0x6001:05 VaultsSealed, R87. -/
def oVaultsSealed : Nat := 0x600105
/-- 0x6001:06 VaultsRescinded, R87. -/
def oVaultsRescinded : Nat := 0x600106
/-- 0x6001:07 VaultsPartial, R87. -/
def oVaultsPartial : Nat := 0x600107
/-- 0x6002:00 LastOutage, R87. -/
def oLastOutage : Nat := 0x600200
/-- 0x6010:00 KennelState, R131. -/
def oKennelState : Nat := 0x601000
/-- 0x6010:01 KennelFormat, R131. -/
def oKennelFormat : Nat := 0x601001
/-- 0x6010:02 KennelFormatForce, R131. -/
def oKennelFormatForce : Nat := 0x601002
/-- 0x6010:03 UsableLuns, R131. -/
def oUsableLuns : Nat := 0x601003
/-- 0x6010:04 SlotStateA, R131. -/
def oSlotStateA : Nat := 0x601004
/-- 0x6010:05 SlotStateB, R131. -/
def oSlotStateB : Nat := 0x601005
/-- 0x6010:06 ImageSeqHigh, R131. -/
def oImageSeqHigh : Nat := 0x601006
/-- 0x6010:07 ScratchMiB, R131. -/
def oScratchMiB : Nat := 0x601007
/-- 0x6010:08 SlcFeature, R131. -/
def oSlcFeature : Nat := 0x601008
/-- 0x6010:09 SlotRows, R131. -/
def oSlotRows : Nat := 0x601009
/-- 0x6010:0A RateQualified, R131. -/
def oRateQualified : Nat := 0x60100A
/-- 0x6010:0B WorstProgramTime, R131. -/
def oWorstProgramTime : Nat := 0x60100B
/-- 0x6010:0C FailedLuns, R131. -/
def oFailedLuns : Nat := 0x60100C
/-- 0x6010:0D ImageFormat, R131. -/
def oImageFormat : Nat := 0x60100D
/-- 0x6020:00 RestoreMode, R154. -/
def oRestoreMode : Nat := 0x602000
/-- 0x6020:01 RestoreSource, R154. -/
def oRestoreSource : Nat := 0x602001
/-- 0x6020:02 ResidentBytes, R154. -/
def oResidentBytes : Nat := 0x602002
/-- 0x6020:03 ImageBytes, R154. -/
def oImageBytes : Nat := 0x602003
/-- 0x6020:04 FetchMisses, R154. -/
def oFetchMisses : Nat := 0x602004
/-- 0x6020:05 FetchMissMax, R154. -/
def oFetchMissMax : Nat := 0x602005
/-- 0x6020:06 DivergedSeq, R154. -/
def oDivergedSeq : Nat := 0x602006
/-- 0x6020:07 LostUnknown, R154. -/
def oLostUnknown : Nat := 0x602007
/-- 0x6020:08 LostRangeCount, R154. -/
def oLostRangeCount : Nat := 0x602008
/-- 0x6020:09 LostBlocks, R154. -/
def oLostBlocks : Nat := 0x602009
/-- 0x6020:0A LostRangeRelease, R154. -/
def oLostRangeRelease : Nat := 0x60200A
/-- 0x6020:0B ConfigRetryLimit, R154. -/
def oConfigRetryLimit : Nat := 0x60200B
/-- 0x6028:00 LostRangeList, R154. -/
def oLostRangeList : Nat := 0x602800
/-- 0x7000:00 InstanceCommand, R277. -/
def oInstanceCommand : Nat := 0x700000
/-- 0x7000:01 ActiveInstances, R277. -/
def oActiveInstances : Nat := 0x700001
/-- 0x7000:02 EpochCount, R277. -/
def oEpochCount : Nat := 0x700002
/-- 0x7000:03 ResetTimeouts, R277. -/
def oResetTimeouts : Nat := 0x700003
/-- 0x7000:04 FencedDrops, R277. -/
def oFencedDrops : Nat := 0x700004
/-- 0x7000:05 DoorbellErrors, R277. -/
def oDoorbellErrors : Nat := 0x700005
/-- 0x7000:06 FreeQueuePairs, R277. -/
def oFreeQueuePairs : Nat := 0x700006
/-- 0x7100:00 InstanceTable, R277. -/
def oInstanceTable : Nat := 0x710000
/-- 0x7200:00 NamespaceTable, R277. -/
def oNamespaceTable : Nat := 0x720000
/-- 0x7300:00 QueueTable, R277. -/
def oQueueTable : Nat := 0x730000
/-- 0x7820:00 SliceCycles, R228. -/
def oSliceCycles : Nat := 0x782000
/-- 0x7820:01 TranslationFaults, R228. -/
def oTranslationFaults : Nat := 0x782001
/-- 0x7820:02 FatalTranslationFaults, R228. -/
def oFatalTranslationFaults : Nat := 0x782002
/-- 0x8000:00 JobsCompleted, R252. -/
def oJobsCompleted : Nat := 0x800000
/-- 0x8000:01 BytesIn, R252. -/
def oBytesIn : Nat := 0x800001
/-- 0x8000:02 BytesOut, R252. -/
def oBytesOut : Nat := 0x800002
/-- 0x8000:03 RollbackBytes, R252. -/
def oRollbackBytes : Nat := 0x800003
/-- 0x8000:04 ForcedStops, R252. -/
def oForcedStops : Nat := 0x800004
/-- 0x8000:05 SlotsBusy, R252. -/
def oSlotsBusy : Nat := 0x800005
/-- 0x8010:00 KeySlotLoad, R252. -/
def oKeySlotLoad : Nat := 0x801000
/-- 0x8010:01 KeySlotOwners, R252. -/
def oKeySlotOwners : Nat := 0x801001
/-- 0x8100:00 DmaSuspended, R228. -/
def oDmaSuspended : Nat := 0x810000
/-- 0x8100:01 HostPageTimeout, R228. -/
def oHostPageTimeout : Nat := 0x810001
/-- 0x8100:02 HostPageRequests, R228. -/
def oHostPageRequests : Nat := 0x810002
/-- 0x9000:00 SourceClass, R413. -/
def oSourceClass : Nat := 0x900000
/-- 0x9000:01 QuietPeriod, R413. -/
def oQuietPeriod : Nat := 0x900001
/-- 0x9000:02 LiveBits, R413. -/
def oLiveBits : Nat := 0x900002
/-- 0x9000:03 LatchedBits, R413. -/
def oLatchedBits : Nat := 0x900003
/-- 0x9000:04 FaultAck, R413. -/
def oFaultAck : Nat := 0x900004
/-- 0x9000:05 PinClass, R413. -/
def oPinClass : Nat := 0x900005
/-- 0x9000:06 CaptureTable, R413. -/
def oCaptureTable : Nat := 0x900006
/-- 0x9000:07 LatchedCount, R413. -/
def oLatchedCount : Nat := 0x900007
/-- 0x9000:08 FaultPinState, R413. -/
def oFaultPinState : Nat := 0x900008
/-- 0x9008:00 Recoveries, R413. -/
def oRecoveries : Nat := 0x900800
/-- 0x9008:01 Escalations, R413. -/
def oEscalations : Nat := 0x900801
/-- 0x9008:02 UnitQuarantine, R413. -/
def oUnitQuarantine : Nat := 0x900802
/-- 0x9800:00 EventSeqHead, R413. -/
def oEventSeqHead : Nat := 0x980000
/-- 0x9800:01 TimeAnchor, R413. -/
def oTimeAnchor : Nat := 0x980001
/-- 0x9800:02 LogFlush, R413. -/
def oLogFlush : Nat := 0x980002
/-- 0x9800:03 EventCursor, R413. -/
def oEventCursor : Nat := 0x980003
/-- 0x9800:04 EventRecords, R413. -/
def oEventRecords : Nat := 0x980004
/-- 0x9800:05 LimiterRate, R413. -/
def oLimiterRate : Nat := 0x980005
/-- 0x9800:06 LimiterBurst, R413. -/
def oLimiterBurst : Nat := 0x980006
/-- 0x9800:07 RingUnflushed, R413. -/
def oRingUnflushed : Nat := 0x980007
/-- 0x9800:08 RingOverwrites, R413. -/
def oRingOverwrites : Nat := 0x980008
/-- 0x9800:09 LogFlushes, R413. -/
def oLogFlushes : Nat := 0x980009
/-- 0x9800:0A LogRetainedPages, R413. -/
def oLogRetainedPages : Nat := 0x98000A
/-- 0x9800:0B SeqReserve, R413. -/
def oSeqReserve : Nat := 0x98000B
/-- 0xA000:00 PackRole, R177. -/
def oPackRole : Nat := 0xA00000
/-- 0xA000:01 PackAddress, R177. -/
def oPackAddress : Nat := 0xA00001
/-- 0xA000:02 MasterAddress, R177. -/
def oMasterAddress : Nat := 0xA00002
/-- 0xA000:03 Roster, R177. -/
def oRoster : Nat := 0xA00003
/-- 0xA000:04 OpVersion, R177. -/
def oOpVersion : Nat := 0xA00004
/-- 0xA000:05 MaxVersion, R177. -/
def oMaxVersion : Nat := 0xA00005
/-- 0xA000:06 GrantSeq, R177. -/
def oGrantSeq : Nat := 0xA00006
/-- 0xA000:07 GrantEnergy, R177. -/
def oGrantEnergy : Nat := 0xA00007
/-- 0xA000:08 GrantCap, R177. -/
def oGrantCap : Nat := 0xA00008
/-- 0xA000:09 GrantPower, R177. -/
def oGrantPower : Nat := 0xA00009
/-- 0xA000:0A GrantOffset, R177. -/
def oGrantOffset : Nat := 0xA0000A
/-- 0xA000:0B PackSurplus, R177. -/
def oPackSurplus : Nat := 0xA0000B
/-- 0xA000:0C LeashErrors, R177. -/
def oLeashErrors : Nat := 0xA0000C
/-- 0xA000:0D Takeovers, R177. -/
def oTakeovers : Nat := 0xA0000D
/-- 0xA000:0E PackResetMember, R177. -/
def oPackResetMember : Nat := 0xA0000E
/-- 0xA008:00 BankCurrentLimit, R177. -/
def oBankCurrentLimit : Nat := 0xA00800
/-- 0xA008:01 StaticShare, R177. -/
def oStaticShare : Nat := 0xA00801
/-- 0xA008:02 MinRate, R177. -/
def oMinRate : Nat := 0xA00802
/-- 0xA008:03 HoldPower, R177. -/
def oHoldPower : Nat := 0xA00803
/-- 0xA008:04 AbsentHold, R177. -/
def oAbsentHold : Nat := 0xA00804
/-- 0xA010:00 SlotBucketCapacity, R177. -/
def oSlotBucketCapacity : Nat := 0xA01000
/-- 0xA010:01 SlotBucketRefill, R177. -/
def oSlotBucketRefill : Nat := 0xA01001
/-- 0xA010:02 SlotInrush, R177. -/
def oSlotInrush : Nat := 0xA01002
/-- 0xA010:03 SlotState, R177. -/
def oSlotState : Nat := 0xA01003
/-- 0xB000:00 ClockState, R442. -/
def oClockState : Nat := 0xB00000
/-- 0xB000:01 ClockFrequency, R442. -/
def oClockFrequency : Nat := 0xB00001
/-- 0xB000:02 ClockLosses, R442. -/
def oClockLosses : Nat := 0xB00002
/-- 0xB008:00 HostRefClockMode, R442. -/
def oHostRefClockMode : Nat := 0xB00800
/-- 0xB008:01 AonClockSource, R442. -/
def oAonClockSource : Nat := 0xB00801
/-- 0xF000:00 TestMode, R385. -/
def oTestMode : Nat := 0xF00000
/-- 0xF000:01 FuseLock, R385. -/
def oFuseLock : Nat := 0xF00001
/-- 0xF000:02 FuseProgram, R385. -/
def oFuseProgram : Nat := 0xF00002
/-- 0xF000:03 FuseFieldState, R385. -/
def oFuseFieldState : Nat := 0xF00003
/-- 0xF008:00 AdcTrim, R385. -/
def oAdcTrim : Nat := 0xF00800
/-- 0xF008:01 PfailTrim, R385. -/
def oPfailTrim : Nat := 0xF00801
/-- 0xF008:02 MonclkTrim, R385. -/
def oMonclkTrim : Nat := 0xF00802
/-- 0xF010:00 InjectFault, R413. -/
def oInjectFault : Nat := 0xF01000
/-- 0xF010:01 InjectedDisplaced, R413. -/
def oInjectedDisplaced : Nat := 0xF01001

/-- Rows 0 to 59 of the dictionary. -/
def objRows0 : List ObjRow := [
  ⟨oPartNumber, 8, 1, 1, 1, 1, 1, 0, 2, false, 0, none, false⟩,
  ⟨oSiliconRevision, 2, 1, 1, 1, 1, 1, 176, 2, false, 0, none, false⟩,
  ⟨oDeviceSerial, 5, 8, 1, 1, 1, 1, 0, 2, false, 0, none, false⟩,
  ⟨oVendorName, 10, 32, 1, 1, 1, 1, 0x736d65747379736f7263694d20766f6e6d654c, 2, false, 0, none, false⟩,
  ⟨oProductName, 10, 16, 1, 1, 1, 1, 0x757a6f68542078656e657243, 2, false, 0, none, false⟩,
  ⟨oPciVendorId, 3, 2, 1, 1, 1, 1, 0, 2, false, 0, none, false⟩,
  ⟨oPciDeviceId, 3, 2, 1, 1, 1, 1, 0, 2, false, 0, none, false⟩,
  ⟨oEndpointUuid, 10, 16, 1, 1, 1, 1, 0, 2, false, 0, none, false⟩,
  ⟨oFirmwareVersion, 10, 4, 1, 1, 1, 1, 0, 0, false, 0, none, false⟩,
  ⟨oFirmwareSlot, 8, 1, 1, 1, 1, 1, 0, 0, false, 0, none, false⟩,
  ⟨oIsaVersion, 2, 1, 1, 1, 1, 1, 1, 2, false, 0, none, false⟩,
  ⟨oMessageVersion, 2, 1, 1, 1, 1, 1, 1, 2, false, 0, none, false⟩,
  ⟨oHeelFormat, 3, 2, 1, 1, 1, 1, 1, 2, false, 0, none, false⟩,
  ⟨oSaveAreaFormat, 3, 2, 1, 1, 1, 1, 1, 2, false, 0, none, false⟩,
  ⟨oResetCommand, 8, 1, 1, 1, 2, 2, 0, 0, false, 0, some (1, 1), false⟩,
  ⟨oLastResetKind, 8, 1, 1, 1, 1, 1, 1, 0, false, 0, none, false⟩,
  ⟨oResetCounts, 10, 16, 1, 1, 1, 1, 0, 1, false, 0, none, false⟩,
  ⟨oWatchdogTimeout, 3, 2, 1, 1, 2, 2, 2000, 1, true, 0, some (500, 60000), false⟩,
  ⟨oUnitReset, 1, 1, 1, 1, 2, 2, 0, 0, false, 1, none, false⟩,
  ⟨oFirmwareImage, 10, 16777216, 1, 1, 2, 2, 0, 0, false, 0, none, false⟩,
  ⟨oFirmwareCommand, 8, 1, 1, 1, 2, 2, 0, 0, false, 0, some (1, 3), false⟩,
  ⟨oFirmwareStatus, 10, 8, 1, 1, 1, 1, 0, 1, false, 0, none, false⟩,
  ⟨oUnitKind, 8, 1, 1, 1, 1, 1, 0, 2, false, 1, none, false⟩,
  ⟨oUnitNumber, 3, 2, 1, 1, 1, 1, 0, 2, false, 1, none, false⟩,
  ⟨oChildCount, 2, 1, 1, 1, 1, 1, 0, 0, false, 1, none, false⟩,
  ⟨oChildPresent, 10, 8, 1, 1, 1, 1, 0, 0, false, 1, none, false⟩,
  ⟨oFaultStatus, 8, 1, 1, 1, 1, 1, 0, 0, false, 1, none, false⟩,
  ⟨oSessionCount, 2, 1, 1, 1, 1, 1, 0, 0, false, 0, none, false⟩,
  ⟨oOperatorKey, 10, 32, 1, 1, 2, 2, 0, 1, true, 0, none, false⟩,
  ⟨oManagerKey, 10, 32, 1, 1, 2, 2, 0, 1, true, 0, none, false⟩,
  ⟨oFactoryKey, 10, 32, 1, 1, 1, 1, 0, 2, false, 0, none, false⟩,
  ⟨oLockoutState, 10, 12, 1, 1, 1, 1, 0, 1, false, 0, none, false⟩,
  ⟨oSessionIdle, 3, 2, 1, 1, 2, 2, 300, 1, true, 0, some (30, 3600), false⟩,
  ⟨oAuthFailures, 4, 4, 1, 1, 1, 1, 0, 1, false, 0, none, false⟩,
  ⟨oSmbusAddress, 2, 1, 1, 1, 2, 2, 58, 1, true, 0, some (8, 119), false⟩,
  ⟨oI3cStaticAddress, 2, 1, 1, 1, 2, 2, 58, 1, true, 0, some (8, 119), false⟩,
  ⟨oPcieMctpEnable, 1, 1, 1, 1, 2, 2, 1, 1, true, 0, none, false⟩,
  ⟨oDictChangeCounter, 12, 6, 1, 1, 1, 1, 0, 0, false, 0, none, false⟩,
  ⟨oHeelRequests, 4, 4, 1, 1, 1, 1, 0, 0, false, 0, none, false⟩,
  ⟨oRailKind, 8, 1, 1, 1, 1, 2, 0, 1, true, 2, some (0, 3), false⟩,
  ⟨oBusAddress, 2, 1, 1, 1, 2, 2, 0, 1, true, 2, some (0, 127), false⟩,
  ⟨oNominal, 3, 2, 1, 1, 2, 2, 0, 1, true, 2, some (0, 15000), false⟩,
  ⟨oWarnHigh, 14, 2, 1, 1, 2, 2, 50, 1, true, 2, some (0, 200), false⟩,
  ⟨oFaultHigh, 14, 2, 1, 1, 2, 2, 100, 1, true, 2, some (0, 250), false⟩,
  ⟨oWarnLow, 14, 2, 1, 1, 2, 2, 65486, 1, true, 2, some (-200, 0), false⟩,
  ⟨oFaultLow, 14, 2, 1, 1, 2, 2, 65436, 1, true, 2, some (-250, 0), false⟩,
  ⟨oDebounce, 2, 1, 1, 1, 2, 2, 4, 1, true, 2, some (1, 255), false⟩,
  ⟨oPgDeadline, 3, 2, 1, 1, 2, 2, 20, 1, true, 2, some (1, 1000), false⟩,
  ⟨oDischargeLevel, 3, 2, 1, 1, 2, 2, 100, 1, true, 2, some (0, 500), false⟩,
  ⟨oDischargeTimeout, 3, 2, 1, 1, 2, 2, 100, 1, true, 2, some (1, 10000), false⟩,
  ⟨oParents, 9, 4, 1, 1, 2, 2, 0, 1, true, 2, some (0, 16777215), false⟩,
  ⟨oFlags, 9, 4, 1, 1, 2, 2, 0, 1, true, 2, some (0, 31), false⟩,
  ⟨oStartDelay, 3, 2, 1, 1, 2, 2, 500, 1, true, 2, some (0, 10000), false⟩,
  ⟨oSenseScale, 3, 2, 1, 1, 2, 2, 1500, 1, true, 2, some (100, 65535), false⟩,
  ⟨oMarginStep, 13, 1, 1, 1, 2, 2, 0, 1, false, 2, some (-20, 20), false⟩,
  ⟨oRailState, 8, 1, 1, 1, 1, 1, 0, 0, false, 2, none, false⟩,
  ⟨oRailVoltage, 3, 2, 1, 1, 1, 1, 0, 0, false, 2, none, false⟩,
  ⟨oWarnings, 3, 2, 1, 1, 1, 1, 0, 1, false, 2, none, false⟩,
  ⟨oFaults, 3, 2, 1, 1, 1, 1, 0, 1, false, 2, none, false⟩,
  ⟨oStartFailures, 3, 2, 1, 1, 1, 1, 0, 1, false, 2, none, false⟩]

/-- Rows 60 to 119 of the dictionary. -/
def objRows1 : List ObjRow := [
  ⟨oDischargeTimeouts, 3, 2, 1, 1, 1, 1, 0, 1, false, 2, none, false⟩,
  ⟨oMarginCycles, 3, 2, 1, 1, 1, 1, 0, 1, false, 2, none, false⟩,
  ⟨oSupervisorState, 8, 1, 1, 1, 1, 1, 0, 0, false, 2, none, false⟩,
  ⟨oPowerGoodTick, 5, 8, 1, 1, 1, 1, 0, 0, false, 2, none, false⟩,
  ⟨oLongPressTime, 2, 1, 1, 1, 2, 2, 8, 1, true, 2, some (4, 16), false⟩,
  ⟨oMarginMode, 1, 1, 1, 1, 2, 2, 0, 0, false, 2, none, false⟩,
  ⟨oAvsAckTimeout, 3, 2, 1, 1, 2, 2, 1000, 1, true, 2, some (100, 10000), false⟩,
  ⟨oShutdownRequest, 1, 1, 1, 1, 2, 2, 0, 0, false, 2, some (0, 0), false⟩,
  ⟨oRailCommand, 10, 4, 1, 1, 2, 2, 0, 0, false, 2, none, false⟩,
  ⟨oAutoPowerOn, 1, 1, 1, 1, 2, 2, 1, 1, true, 2, none, false⟩,
  ⟨oOperatingPoints, 10, 32, 1, 1, 1, 2, 0x3700960032007d002ee064002bc04b0028a0320, 1, true, 2, none, false⟩,
  ⟨oCoreOperatingPoint, 10, 4, 1, 1, 2, 2, 0, 0, false, 2, none, false⟩,
  ⟨oGroupWidth, 10, 4, 1, 1, 2, 2, 67372036, 1, true, 3, none, false⟩,
  ⟨oRefClockMode, 10, 4, 1, 1, 2, 2, 0, 1, true, 3, none, false⟩,
  ⟨oMaxSpeed, 10, 4, 1, 1, 2, 2, 101058054, 1, true, 3, none, false⟩,
  ⟨oPortTable, 10, 2048, 1, 1, 1, 1, 0, 0, false, 3, none, false⟩,
  ⟨oPortCommand, 10, 4, 1, 1, 2, 2, 0, 0, false, 3, none, false⟩,
  ⟨oPortReadyTimeout, 3, 2, 1, 1, 2, 2, 2000, 1, true, 3, some (500, 10000), false⟩,
  ⟨oRebuildRate, 4, 4, 1, 1, 2, 2, 2000, 1, true, 3, some (100, 32000), false⟩,
  ⟨oPortSlot, 10, 128, 1, 1, 2, 2, 2 ^ 1024 - 1, 1, true, 3, none, false⟩,
  ⟨oSlotAutoOn, 10, 16, 1, 1, 2, 2, 2 ^ 128 - 1, 1, true, 3, none, false⟩,
  ⟨oDrivesLost, 4, 4, 1, 1, 1, 1, 0, 0, false, 3, none, false⟩,
  ⟨oDomainRequest, 8, 1, 1, 1, 2, 2, 0, 0, false, 1, some (0, 2), false⟩,
  ⟨oDomainState, 8, 1, 1, 1, 1, 1, 0, 0, false, 1, none, false⟩,
  ⟨oDomainLock, 1, 1, 1, 1, 2, 2, 0, 1, false, 1, none, false⟩,
  ⟨oEntryAborts, 4, 4, 1, 1, 1, 1, 0, 0, false, 1, none, true⟩,
  ⟨oLastRefuser, 3, 2, 1, 1, 1, 1, 65535, 0, false, 1, none, false⟩,
  ⟨oDemandWakes, 5, 8, 1, 1, 1, 1, 0, 0, false, 1, none, true⟩,
  ⟨oWakeStallMax, 4, 4, 1, 1, 1, 1, 0, 0, false, 1, none, false⟩,
  ⟨oLockedRefusals, 4, 4, 1, 1, 1, 1, 0, 0, false, 1, none, true⟩,
  ⟨oInrushCharge, 3, 2, 1, 1, 2, 2, 0, 1, true, 1, some (1, 65535), false⟩,
  ⟨oInrushChargeRet, 3, 2, 1, 1, 2, 2, 0, 1, true, 1, none, false⟩,
  ⟨oInrushCapacity, 4, 4, 1, 1, 2, 2, 2000, 1, true, 0, some (500, 20000), false⟩,
  ⟨oInrushRefill, 4, 4, 1, 1, 2, 2, 500, 1, true, 0, some (50, 10000), false⟩,
  ⟨oInrushLevel, 4, 4, 1, 1, 1, 1, 2000, 0, false, 0, none, false⟩,
  ⟨oInrushWaits, 4, 4, 1, 1, 1, 1, 0, 0, false, 0, none, false⟩,
  ⟨oPadHeld, 1, 1, 1, 1, 1, 1, 0, 0, false, 1, none, false⟩,
  ⟨oPadRelease, 1, 1, 1, 1, 2, 2, 0, 0, false, 1, none, false⟩,
  ⟨oPadAutoRelease, 1, 1, 1, 1, 2, 2, 0, 1, false, 1, none, false⟩,
  ⟨oSupervisorIdle, 3, 2, 1, 1, 2, 2, 0, 1, true, 0, none, false⟩,
  ⟨oAllowI3cRet, 1, 1, 1, 1, 2, 2, 0, 1, true, 0, none, false⟩,
  ⟨oAddressWakes, 4, 4, 1, 1, 1, 1, 0, 0, false, 0, none, false⟩,
  ⟨oStretchOverruns, 3, 2, 1, 1, 1, 1, 0, 0, false, 0, none, false⟩,
  ⟨oDramCapacity, 4, 4, 1, 1, 1, 1, 0, 0, false, 4, none, false⟩,
  ⟨oDramSpeed, 3, 2, 1, 1, 1, 1, 0, 0, false, 4, none, false⟩,
  ⟨oMaxDramSpeed, 3, 2, 1, 1, 2, 2, 8800, 1, true, 4, none, false⟩,
  ⟨oChannelsInService, 9, 4, 1, 1, 1, 1, 0, 0, false, 4, none, false⟩,
  ⟨oProgramReserve, 2, 1, 1, 1, 2, 2, 3, 1, true, 4, some (0, 16), false⟩,
  ⟨oChannelState, 8, 1, 1, 1, 1, 1, 0, 0, false, 5, none, false⟩,
  ⟨oCorrectedReads, 5, 8, 1, 1, 1, 1, 0, 0, false, 5, none, true⟩,
  ⟨oUncorrectableReads, 4, 4, 1, 1, 1, 1, 0, 0, false, 5, none, true⟩,
  ⟨oReplays, 4, 4, 1, 1, 1, 1, 0, 0, false, 5, none, true⟩,
  ⟨oNeighbourRefreshes, 5, 8, 1, 1, 1, 1, 0, 0, false, 5, none, true⟩,
  ⟨oRetrains, 4, 4, 1, 1, 1, 1, 0, 0, false, 5, none, true⟩,
  ⟨oTrainTemperature, 14, 2, 1, 1, 1, 1, 0, 0, false, 5, none, false⟩,
  ⟨oSelfRefreshAborts, 4, 4, 1, 1, 1, 1, 0, 0, false, 5, none, true⟩,
  ⟨oHashMasks, 10, 64, 1, 1, 2, 2, 0, 1, true, 4, none, false⟩,
  ⟨oPagePolicy, 8, 1, 1, 1, 2, 2, 0, 1, true, 4, some (0, 2), false⟩,
  ⟨oPortLatencyTarget, 10, 64, 1, 1, 2, 2, 0x2710000027100000271000002710000001f4000001f4000001f4000001f4000003e8000003e8000003e8000003e800001388000007d0000007d0000003e8, 1, true, 4, none, false⟩,
  ⟨oAgeLimit, 3, 2, 1, 1, 2, 2, 16, 1, true, 4, some (2, 64), false⟩]

/-- Rows 120 to 179 of the dictionary. -/
def objRows2 : List ObjRow := [
  ⟨oRowHammerThreshold, 3, 2, 1, 1, 2, 2, 4096, 1, true, 4, some (256, 65535), false⟩,
  ⟨oBlastRadius, 2, 1, 1, 1, 2, 2, 2, 1, true, 4, some (1, 4), false⟩,
  ⟨oRetrainInterval, 3, 2, 1, 1, 2, 2, 30, 1, true, 4, some (5, 600), false⟩,
  ⟨oRetrainDrift, 2, 1, 1, 1, 2, 2, 8, 1, true, 4, some (2, 20), false⟩,
  ⟨oChannelCommand, 10, 4, 1, 1, 2, 2, 0, 0, false, 4, none, false⟩,
  ⟨oCacheModeRequested, 8, 1, 1, 1, 2, 2, 0, 1, true, 0, some (0, 2), false⟩,
  ⟨oCacheModeActive, 8, 1, 1, 1, 1, 1, 2, 0, false, 0, none, false⟩,
  ⟨oWriteThroughCause, 9, 4, 1, 1, 1, 1, 6, 0, false, 0, none, false⟩,
  ⟨oCacheCapacity, 4, 4, 1, 1, 1, 1, 0, 0, false, 0, none, false⟩,
  ⟨oCacheSizeLimit, 4, 4, 1, 1, 2, 2, 0, 1, true, 0, none, false⟩,
  ⟨oDirtyBlocks, 4, 4, 1, 1, 1, 1, 0, 0, false, 11, none, true⟩,
  ⟨oEffectiveCeiling, 4, 4, 1, 1, 1, 1, 0, 0, false, 0, none, false⟩,
  ⟨oGovernorWaits, 4, 4, 1, 1, 1, 1, 0, 0, false, 11, none, true⟩,
  ⟨oThroughWrites, 5, 8, 1, 1, 1, 1, 0, 0, false, 11, none, true⟩,
  ⟨oDestageLowWater, 2, 1, 1, 1, 2, 2, 10, 1, false, 0, some (0, 100), false⟩,
  ⟨oDestageHighWater, 2, 1, 1, 1, 2, 2, 60, 1, false, 0, some (0, 100), false⟩,
  ⟨oDestageWindow, 3, 2, 1, 1, 2, 2, 64, 1, false, 0, some (1, 4096), false⟩,
  ⟨oPoisonedBlocks, 4, 4, 1, 1, 1, 1, 0, 0, false, 11, none, true⟩,
  ⟨oVolumeTable, 10, 8388608, 1, 1, 2, 2, 0, 0, false, 0, none, false⟩,
  ⟨oEnergyShortfall, 9, 4, 1, 1, 1, 1, 3, 0, false, 0, none, false⟩,
  ⟨oBankVoltage, 4, 4, 1, 1, 1, 1, 0, 0, false, 0, none, false⟩,
  ⟨oEnergyAvailable, 4, 4, 1, 1, 1, 1, 0, 0, false, 0, none, false⟩,
  ⟨oDirtyCeilingBlocks, 4, 4, 1, 1, 1, 1, 0, 0, false, 0, none, false⟩,
  ⟨oCapMeasured, 4, 4, 1, 1, 1, 1, 0, 1, false, 0, none, false⟩,
  ⟨oEsrMeasured, 4, 4, 1, 1, 1, 1, 0, 1, false, 0, none, false⟩,
  ⟨oCapUsed, 4, 4, 1, 1, 1, 1, 0, 0, false, 0, none, false⟩,
  ⟨oCapTestAge, 4, 4, 1, 1, 1, 1, 4294967295, 0, false, 0, none, false⟩,
  ⟨oVMin, 4, 4, 1, 1, 2, 2, 10000, 1, true, 0, some (9000, 30000), false⟩,
  ⟨oEfficiency, 3, 2, 1, 1, 2, 2, 900, 1, true, 0, some (500, 1000), false⟩,
  ⟨oMargin, 3, 2, 1, 1, 2, 2, 200, 1, true, 0, some (50, 1000), false⟩,
  ⟨oTFixed, 4, 4, 1, 1, 2, 2, 250, 1, true, 0, some (100, 2000), false⟩,
  ⟨oERetainMin, 4, 4, 1, 1, 2, 2, 10000, 1, true, 0, some (0, 1000000), false⟩,
  ⟨oPVaultDefault, 4, 4, 1, 1, 2, 2, 45000, 1, true, 0, some (10000, 200000), false⟩,
  ⟨oPVaultFloor, 4, 4, 1, 1, 2, 2, 20000, 1, true, 0, some (10000, 200000), false⟩,
  ⟨oBVaultDefault, 4, 4, 1, 1, 2, 2, 48000, 1, true, 0, some (1000, 48000), false⟩,
  ⟨oAgeMargin, 3, 2, 1, 1, 2, 2, 20, 1, true, 0, some (0, 200), false⟩,
  ⟨oEsrLimit, 4, 4, 1, 1, 2, 2, 200000, 1, true, 0, none, false⟩,
  ⟨oDerateTable, 10, 32, 1, 1, 2, 2, 0x3b6035203d4028a03e801c203e800fa03b600000384ff380320fe70, 1, true, 0, none, false⟩,
  ⟨oBankTempInput, 2, 1, 1, 1, 2, 2, 255, 1, true, 0, none, false⟩,
  ⟨oSenseInputs, 10, 4, 1, 1, 2, 2, 4294967295, 1, true, 0, none, false⟩,
  ⟨oCapTestInterval, 4, 4, 1, 1, 2, 2, 86400, 1, true, 0, some (3600, 604800), false⟩,
  ⟨oChargerAddress, 2, 1, 1, 1, 2, 2, 0, 1, true, 0, some (0, 127), false⟩,
  ⟨oChargeVoltage, 4, 4, 1, 1, 2, 2, 0, 1, true, 0, none, false⟩,
  ⟨oChargeCurrent, 4, 4, 1, 1, 2, 2, 1000, 1, true, 0, some (100, 20000), false⟩,
  ⟨oCapTestStart, 1, 1, 1, 2, 2, 2, 0, 0, false, 0, none, false⟩,
  ⟨oDrillStart, 1, 1, 1, 1, 2, 2, 0, 0, false, 0, none, false⟩,
  ⟨oDrillBytes, 4, 4, 1, 1, 2, 2, 8192, 1, true, 0, some (4096, 32768), false⟩,
  ⟨oDrillInterval, 4, 4, 1, 1, 2, 2, 0, 1, true, 0, some (0, 8760), false⟩,
  ⟨oDrillValid, 1, 1, 1, 1, 1, 1, 0, 1, false, 0, none, false⟩,
  ⟨oDrillRate, 4, 4, 1, 1, 1, 1, 0, 1, false, 0, none, false⟩,
  ⟨oDrillPower, 4, 4, 1, 1, 1, 1, 0, 1, false, 0, none, false⟩,
  ⟨oCapTestsAbandoned, 3, 2, 1, 1, 1, 1, 0, 0, false, 0, none, false⟩,
  ⟨oPfailThreshold, 3, 2, 1, 1, 2, 2, 10500, 1, true, 0, some (9000, 11500), false⟩,
  ⟨oPfailFilter, 3, 2, 1, 1, 2, 2, 100, 1, true, 0, some (20, 500), false⟩,
  ⟨oRescindInterval, 2, 1, 1, 1, 2, 2, 10, 1, true, 0, some (1, 100), false⟩,
  ⟨oVaultCommand, 8, 1, 1, 1, 2, 2, 0, 0, false, 0, some (1, 2), false⟩,
  ⟨oMayDropPolicy, 1, 1, 1, 1, 2, 2, 1, 1, true, 0, none, false⟩,
  ⟨oVaultState, 8, 1, 1, 1, 1, 1, 0, 0, false, 0, none, false⟩,
  ⟨oFixedBytes, 5, 8, 1, 1, 1, 1, 0, 0, false, 0, none, false⟩,
  ⟨oMustPageBytes, 5, 8, 1, 1, 1, 1, 0, 0, false, 0, none, false⟩]

/-- Rows 180 to 239 of the dictionary. -/
def objRows3 : List ObjRow := [
  ⟨oMayDropBytes, 5, 8, 1, 1, 1, 1, 0, 0, false, 0, none, false⟩,
  ⟨oRefusedWakes, 4, 4, 1, 1, 1, 1, 0, 0, false, 0, none, false⟩,
  ⟨oVaultsSealed, 4, 4, 1, 1, 1, 1, 0, 1, false, 0, none, false⟩,
  ⟨oVaultsRescinded, 4, 4, 1, 1, 1, 1, 0, 1, false, 0, none, false⟩,
  ⟨oVaultsPartial, 4, 4, 1, 1, 1, 1, 0, 1, false, 0, none, false⟩,
  ⟨oLastOutage, 10, 32, 1, 1, 1, 1, 0, 1, false, 0, none, false⟩,
  ⟨oKennelState, 8, 1, 1, 1, 1, 1, 0, 0, false, 6, none, false⟩,
  ⟨oKennelFormat, 1, 1, 1, 1, 2, 2, 0, 0, false, 6, none, false⟩,
  ⟨oKennelFormatForce, 1, 1, 1, 1, 1, 2, 0, 0, false, 6, none, false⟩,
  ⟨oUsableLuns, 3, 2, 1, 1, 1, 1, 0, 0, false, 6, none, false⟩,
  ⟨oSlotStateA, 8, 1, 1, 1, 1, 1, 0, 0, false, 6, none, false⟩,
  ⟨oSlotStateB, 8, 1, 1, 1, 1, 1, 0, 0, false, 6, none, false⟩,
  ⟨oImageSeqHigh, 12, 6, 1, 1, 1, 1, 0, 1, false, 6, none, false⟩,
  ⟨oScratchMiB, 4, 4, 1, 1, 2, 2, 8192, 1, true, 6, some (4096, 32768), false⟩,
  ⟨oSlcFeature, 3, 2, 1, 1, 1, 2, 0, 1, true, 6, none, false⟩,
  ⟨oSlotRows, 4, 4, 1, 1, 1, 1, 0, 0, false, 6, none, false⟩,
  ⟨oRateQualified, 1, 1, 1, 1, 1, 1, 0, 0, false, 6, none, false⟩,
  ⟨oWorstProgramTime, 3, 2, 1, 1, 1, 1, 0, 0, false, 6, none, false⟩,
  ⟨oFailedLuns, 10, 32, 1, 1, 1, 1, 0, 0, false, 6, none, false⟩,
  ⟨oImageFormat, 3, 2, 1, 1, 1, 1, 3, 2, false, 6, none, false⟩,
  ⟨oRestoreMode, 8, 1, 1, 1, 2, 2, 1, 1, true, 0, some (0, 1), false⟩,
  ⟨oRestoreSource, 8, 1, 1, 1, 1, 1, 0, 0, false, 0, none, false⟩,
  ⟨oResidentBytes, 5, 8, 1, 1, 1, 1, 0, 0, false, 0, none, false⟩,
  ⟨oImageBytes, 5, 8, 1, 1, 1, 1, 0, 0, false, 0, none, false⟩,
  ⟨oFetchMisses, 5, 8, 1, 1, 1, 1, 0, 0, false, 0, none, false⟩,
  ⟨oFetchMissMax, 4, 4, 1, 1, 1, 1, 0, 0, false, 0, none, false⟩,
  ⟨oDivergedSeq, 12, 6, 1, 1, 1, 1, 0, 1, false, 0, none, false⟩,
  ⟨oLostUnknown, 1, 1, 1, 1, 1, 1, 0, 0, false, 0, none, false⟩,
  ⟨oLostRangeCount, 4, 4, 1, 1, 1, 1, 0, 0, false, 0, none, false⟩,
  ⟨oLostBlocks, 4, 4, 1, 1, 1, 1, 0, 0, false, 0, none, false⟩,
  ⟨oLostRangeRelease, 3, 2, 1, 1, 2, 2, 65535, 0, false, 0, none, false⟩,
  ⟨oConfigRetryLimit, 3, 2, 1, 1, 2, 2, 900, 1, true, 0, some (100, 900), false⟩,
  ⟨oLostRangeList, 10, 1048576, 1, 1, 1, 1, 0, 0, false, 0, none, false⟩,
  ⟨oInstanceCommand, 10, 4, 1, 1, 2, 2, 0, 0, false, 0, none, false⟩,
  ⟨oActiveInstances, 3, 2, 1, 1, 1, 1, 1, 0, false, 0, none, false⟩,
  ⟨oEpochCount, 5, 8, 1, 1, 1, 1, 0, 0, false, 0, none, false⟩,
  ⟨oResetTimeouts, 4, 4, 1, 1, 1, 1, 0, 0, false, 0, none, false⟩,
  ⟨oFencedDrops, 5, 8, 1, 1, 1, 1, 0, 0, false, 0, none, false⟩,
  ⟨oDoorbellErrors, 4, 4, 1, 1, 1, 1, 0, 0, false, 0, none, false⟩,
  ⟨oFreeQueuePairs, 3, 2, 1, 1, 1, 1, 16384, 0, false, 0, none, false⟩,
  ⟨oInstanceTable, 10, 262144, 1, 1, 2, 2, 0, 0, false, 0, none, false⟩,
  ⟨oNamespaceTable, 10, 262144, 1, 1, 2, 2, 0, 0, false, 0, none, false⟩,
  ⟨oQueueTable, 10, 1048576, 1, 1, 2, 2, 0, 0, false, 0, none, false⟩,
  ⟨oSliceCycles, 4, 4, 1, 1, 2, 2, 2400000, 1, true, 7, some (24000, 240000000), false⟩,
  ⟨oTranslationFaults, 5, 8, 1, 1, 1, 1, 0, 0, false, 7, none, true⟩,
  ⟨oFatalTranslationFaults, 4, 4, 1, 1, 1, 1, 0, 0, false, 7, none, true⟩,
  ⟨oJobsCompleted, 5, 8, 1, 1, 1, 1, 0, 0, false, 8, none, true⟩,
  ⟨oBytesIn, 5, 8, 1, 1, 1, 1, 0, 0, false, 8, none, true⟩,
  ⟨oBytesOut, 5, 8, 1, 1, 1, 1, 0, 0, false, 8, none, true⟩,
  ⟨oRollbackBytes, 5, 8, 1, 1, 1, 1, 0, 0, false, 8, none, true⟩,
  ⟨oForcedStops, 4, 4, 1, 1, 1, 1, 0, 0, false, 8, none, true⟩,
  ⟨oSlotsBusy, 2, 1, 1, 1, 1, 1, 0, 0, false, 8, none, true⟩,
  ⟨oKeySlotLoad, 10, 72, 1, 1, 2, 2, 0, 0, false, 9, none, false⟩,
  ⟨oKeySlotOwners, 10, 512, 1, 1, 1, 1, 2 ^ 4096 - 1, 0, false, 9, none, false⟩,
  ⟨oDmaSuspended, 4, 4, 1, 1, 1, 1, 0, 0, false, 10, none, true⟩,
  ⟨oHostPageTimeout, 4, 4, 1, 1, 2, 2, 1000, 1, true, 10, some (10, 60000), false⟩,
  ⟨oHostPageRequests, 5, 8, 1, 1, 1, 1, 0, 0, false, 10, none, true⟩,
  ⟨oSourceClass, 10, 256, 1, 1, 2, 2, 0, 1, true, 0, none, false⟩,
  ⟨oQuietPeriod, 4, 4, 1, 1, 2, 2, 100, 1, true, 0, some (1, 60000), false⟩,
  ⟨oLiveBits, 10, 128, 1, 1, 1, 1, 0, 0, false, 0, none, false⟩]

/-- Rows 240 to 298 of the dictionary. -/
def objRows4 : List ObjRow := [
  ⟨oLatchedBits, 10, 128, 1, 1, 1, 1, 0, 0, false, 0, none, false⟩,
  ⟨oFaultAck, 3, 2, 1, 2, 2, 2, 65535, 0, false, 0, none, false⟩,
  ⟨oPinClass, 2, 1, 1, 1, 2, 2, 2, 1, true, 0, some (1, 3), false⟩,
  ⟨oCaptureTable, 10, 65536, 1, 1, 1, 1, 0, 0, false, 0, none, false⟩,
  ⟨oLatchedCount, 3, 2, 1, 1, 1, 1, 0, 0, false, 0, none, false⟩,
  ⟨oFaultPinState, 2, 1, 1, 1, 1, 1, 0, 0, false, 0, none, false⟩,
  ⟨oRecoveries, 4, 4, 1, 1, 1, 1, 0, 0, false, 1, none, true⟩,
  ⟨oEscalations, 4, 4, 1, 1, 1, 1, 0, 0, false, 1, none, true⟩,
  ⟨oUnitQuarantine, 1, 1, 1, 1, 2, 2, 0, 1, false, 1, none, false⟩,
  ⟨oEventSeqHead, 12, 6, 1, 1, 1, 1, 0, 0, false, 0, none, false⟩,
  ⟨oTimeAnchor, 10, 8, 1, 2, 2, 2, 0, 0, false, 0, none, false⟩,
  ⟨oLogFlush, 1, 1, 1, 2, 2, 2, 0, 0, false, 0, none, false⟩,
  ⟨oEventCursor, 12, 6, 2, 2, 2, 2, 0, 0, false, 0, none, false⟩,
  ⟨oEventRecords, 10, 4096, 1, 1, 1, 1, 2 ^ 32768 - 1, 0, false, 0, none, false⟩,
  ⟨oLimiterRate, 2, 1, 1, 1, 2, 2, 8, 1, true, 0, some (1, 255), false⟩,
  ⟨oLimiterBurst, 2, 1, 1, 1, 2, 2, 16, 1, true, 0, some (1, 255), false⟩,
  ⟨oRingUnflushed, 3, 2, 1, 1, 1, 1, 0, 0, false, 0, none, false⟩,
  ⟨oRingOverwrites, 4, 4, 1, 1, 1, 1, 0, 0, false, 0, none, false⟩,
  ⟨oLogFlushes, 4, 4, 1, 1, 1, 1, 0, 0, false, 0, none, false⟩,
  ⟨oLogRetainedPages, 4, 4, 1, 1, 1, 1, 0, 0, false, 0, none, false⟩,
  ⟨oSeqReserve, 12, 6, 1, 1, 1, 1, 0, 1, false, 0, none, false⟩,
  ⟨oPackRole, 8, 1, 1, 1, 1, 1, 0, 0, false, 0, none, false⟩,
  ⟨oPackAddress, 2, 1, 1, 1, 1, 1, 0, 0, false, 0, none, false⟩,
  ⟨oMasterAddress, 2, 1, 1, 1, 1, 1, 255, 0, false, 0, none, false⟩,
  ⟨oRoster, 9, 4, 1, 1, 1, 1, 0, 0, false, 0, none, false⟩,
  ⟨oOpVersion, 2, 1, 1, 1, 1, 1, 0, 0, false, 0, none, false⟩,
  ⟨oMaxVersion, 2, 1, 1, 1, 1, 1, 2, 2, false, 0, none, false⟩,
  ⟨oGrantSeq, 3, 2, 1, 1, 1, 1, 0, 0, false, 0, none, false⟩,
  ⟨oGrantEnergy, 4, 4, 1, 1, 1, 1, 0, 0, false, 0, none, false⟩,
  ⟨oGrantCap, 3, 2, 1, 1, 1, 1, 0, 0, false, 0, none, false⟩,
  ⟨oGrantPower, 4, 4, 1, 1, 1, 1, 0, 0, false, 0, none, false⟩,
  ⟨oGrantOffset, 4, 4, 1, 1, 1, 1, 0, 0, false, 0, none, false⟩,
  ⟨oPackSurplus, 4, 4, 1, 1, 1, 1, 0, 0, false, 0, none, false⟩,
  ⟨oLeashErrors, 4, 4, 1, 1, 1, 1, 0, 0, false, 0, none, false⟩,
  ⟨oTakeovers, 3, 2, 1, 1, 1, 1, 0, 0, false, 0, none, false⟩,
  ⟨oPackResetMember, 2, 1, 1, 1, 2, 2, 255, 0, false, 0, some (0, 7), false⟩,
  ⟨oBankCurrentLimit, 4, 4, 1, 1, 2, 2, 10000, 1, true, 0, some (1000, 50000), false⟩,
  ⟨oStaticShare, 3, 2, 1, 1, 2, 2, 500, 1, true, 0, some (0, 1000), false⟩,
  ⟨oMinRate, 3, 2, 1, 1, 2, 2, 250, 1, true, 0, some (100, 1000), false⟩,
  ⟨oHoldPower, 4, 4, 1, 1, 2, 2, 8000, 1, true, 0, some (1000, 50000), false⟩,
  ⟨oAbsentHold, 4, 4, 1, 1, 2, 2, 10, 1, true, 0, some (1, 600), false⟩,
  ⟨oSlotBucketCapacity, 4, 4, 1, 1, 2, 2, 100, 1, true, 0, some (10, 10000), false⟩,
  ⟨oSlotBucketRefill, 4, 4, 1, 1, 2, 2, 10, 1, true, 0, some (1, 1000), false⟩,
  ⟨oSlotInrush, 10, 128, 1, 1, 2, 2, 0x1919191919191919191919191919191919191919191919191919191919191919191919191919191919191919191919191919191919191919191919191919191919191919191919191919191919191919191919191919191919191919191919191919191919191919191919191919191919191919191919191919191919191919, 1, true, 0, none, false⟩,
  ⟨oSlotState, 10, 128, 1, 1, 1, 1, 0x404040404040404040404040404040404040404040404040404040404040404040404040404040404040404040404040404040404040404040404040404040404040404040404040404040404040404040404040404040404040404040404040404040404040404040404040404040404040404040404040404040404040404, 0, false, 0, none, false⟩,
  ⟨oClockState, 10, 22, 1, 1, 1, 1, 0, 0, false, 0, none, false⟩,
  ⟨oClockFrequency, 10, 88, 1, 1, 1, 1, 0, 0, false, 0, none, false⟩,
  ⟨oClockLosses, 10, 44, 1, 1, 1, 1, 0, 0, false, 0, none, false⟩,
  ⟨oHostRefClockMode, 8, 1, 1, 1, 2, 2, 0, 1, true, 0, some (0, 1), false⟩,
  ⟨oAonClockSource, 8, 1, 1, 1, 2, 2, 0, 1, true, 0, some (0, 1), false⟩,
  ⟨oTestMode, 1, 1, 1, 1, 1, 1, 0, 0, false, 0, none, false⟩,
  ⟨oFuseLock, 1, 1, 1, 1, 1, 2, 0, 2, false, 0, none, false⟩,
  ⟨oFuseProgram, 10, 48, 1, 1, 1, 2, 0, 0, false, 0, none, false⟩,
  ⟨oFuseFieldState, 9, 4, 1, 1, 1, 1, 0, 2, false, 0, none, false⟩,
  ⟨oAdcTrim, 10, 48, 1, 1, 1, 2, 0, 2, true, 0, none, false⟩,
  ⟨oPfailTrim, 13, 1, 1, 1, 1, 2, 0, 2, true, 0, some (-20, 20), false⟩,
  ⟨oMonclkTrim, 13, 1, 1, 1, 1, 2, 0, 2, true, 0, some (-50, 50), false⟩,
  ⟨oInjectFault, 10, 12, 1, 1, 1, 2, 0, 0, false, 0, none, false⟩,
  ⟨oInjectedDisplaced, 4, 4, 1, 1, 1, 1, 0, 0, false, 0, none, false⟩]

/-- Every object of the dictionary. -/
def objRows : List ObjRow := objRows0 ++ objRows1 ++ objRows2 ++ objRows3 ++ objRows4

/-- The key of a rail object for rail `r` (0x20rr and 0x2040 + r). -/
def oRail (o r : Nat) : Nat := o + 0x100 * r

/-- Brings a rail object's key to rail 0's row, with the rail. -/
def baseOid (o : Nat) : Nat × Nat :=
  if 0x200000 ≤ o ∧ o < 0x201800 then (0x200000 + o % 0x100, (o - 0x200000) / 0x100)
  else if 0x204000 ≤ o ∧ o < 0x205800 then (0x204000 + o % 0x100, (o - 0x204000) / 0x100)
  else (o, 0)

/-- The row of an object, if the dictionary has it (R381). -/
def objRow (o : Nat) : Option ObjRow := objRows.find? fun r => r.oid = (baseOid o).1

/-- True when an object of location code `loc` exists at unit `u` itself. -/
def locAt (loc u : Nat) : Bool :=
  match loc with
  | 0 => u = uChip
  | 1 => true
  | 2 => u = uSup
  | 3 => u = uDown
  | 4 => u = uMem
  | 5 => kindOf u = 0x11
  | 6 => u = uVault
  | 7 => kindOf u = 0x03
  | 8 => 0x05 ≤ kindOf u ∧ kindOf u ≤ 0x08
  | 9 => kindOf u = 0x08
  | 10 => kindOf u = 0x09
  | 11 => kindOf u = 0x0A
  | _ => false

/-- Flags, parents and nominal levels of Table 14.1, by rail. -/
def railDefault (sub r : Nat) : Option Nat :=
  match sub with
  | 0x00 => some (if r < 4 then 2 else if r < 16 then 1 else 3)
  | 0x01 => some (if r < 4 then r else 0)
  | 0x02 => some (listGetN 0 [650, 650, 650, 650, 800, 850, 850, 850, 1200, 1100, 1100, 1800, 2500, 1200, 1800, 900] r)
  | 0x0B => some (listGetN 0 [32, 32, 32, 32, 0, 16, 16, 16, 16, 2048, 2048, 0, 0, 4096, 0, 0] r)
  | 0x0C => some (listGetN 0 [1, 1, 1, 1, 7, 7, 19, 19, 19, 15, 15, 15, 7, 7, 7, 7] r)
  | _ => none
where
  listGetN (d : Nat) : List Nat → Nat → Nat
    | [], _ => d
    | a :: _, 0 => a
    | _ :: l, i + 1 => listGetN d l i

/-- The default class of a fault source (Table 18.1); an unassigned source is S0. -/
def classDefault (s : Nat) : Nat :=
  if s = 1 ∨ s = 2 ∨ s = 3 ∨ s = 4 ∨ s = 8 ∨ s = 10 then 3
  else if s = 13 ∨ s = 15 ∨ s = 16 ∨ s = 17 then 2
  else if s < 32 then 1
  else if s < 36 then 1 else if s < 44 then 2 else if s < 52 then 1 else if s < 56 then 2 else if s < 72 then 1
  else if s < 200 then 2 else if s < 300 then 1 else if s < 336 then 2 else if s < 472 then 1
  else if s < 480 then 2 else if s < 512 then 1 else if s < 528 then 2 else if s < 552 then 0
  else if s < 576 then (if s = 556 ∨ s = 567 then 3 else if s < 568 then 2 else 1)
  else if s < 600 then 2 else if s < 648 then 1
  else if s < 670 then (if s = 657 ∨ s = 667 then 3 else if s = 669 then 1 else 2)
  else 0

/-- Sources Table 18.1 marks fixed. -/
def classFixed (s : Nat) : Bool :=
  s = 1 ∨ s = 2 ∨ s = 3 ∨ s = 4 ∨ s = 8 ∨ s = 10 ∨ s = 556 ∨ s = 567 ∨ s = 657 ∨ s = 667

/-- 0x9000:00 SourceClass by default: two bits a source (R391). -/
def sourceClassDefault : Nat := (List.range 670).foldl (fun n s => n + classDefault s * 4 ^ s) 0

/-- The default of object `o` at unit `u`: the Default column of its table. [DESIGN CHOICE, log 3] -/
def dictDefault (u o : Nat) : Nat :=
  let (b, r) := baseOid o
  if b = oUnitKind then kindOf u
  else if b = oUnitNumber then u
  else if b = oInrushCharge then chargeOff u
  else if b = oInrushChargeRet then chargeRet u
  else if b = oSourceClass then sourceClassDefault
  else if 0x200000 ≤ b ∧ b < 0x201800 ∧ (railDefault (b % 0x100) r).isSome then (railDefault (b % 0x100) r).getD 0
  else match objRow o with
    | some row => row.dflt
    | none => 0

end Sys2Proof.Machine
end

