-- ==== Sys2Proof/Machine/DevBase.lean ====
section
/-! DEFINITION. Plain-data records of the always-on block, the dictionary, sessions, faults, events, rails, domains,
cache, energy, vault and Kennel (01 to 06, 14 to 21): the parts of the state that those chapters name. -/
namespace Sys2Proof.Machine

/-- What leaves the block: the kind of an output. [DESIGN CHOICE, log 9] -/
inductive OutKind where
  | response      -- a dictionary response (R366 to R369): transport, endpoint, command, status, session, request id, message tag
  | notify        -- NOTIFY (R368): slot, kind, code, unit, event sequence, change counter
  | mctp          -- an MCTP control response (R364): transport, destination, completion code
  | vector        -- a posted vector write (R269): vector, address, data, PASID (all ones none)
  | leash         -- a Leash frame (R158): type, destination, fields
  | cqe           -- a completion queue entry (R267): queue, CID, status, phase, result
  | pmbus         -- a PMBus command (R65, R320): address, code, value
  | avs           -- an AVSBus voltage write (R321): select, millivolts
  | drive         -- a command to a drive (R284): port, namespace, opcode, LBA, sectors, flags
  | driveReset    -- DPC or link disable at a port (R290)
  | flash         -- a flash program, erase or read (R107): Kennel address, kind
  | hostWrite     -- a write of host memory: address
  | hostRead      -- a read request of host memory: address, length
  | page          -- a page request (R221): group index, instance, address
  | dram          -- a DRAM command (R304): channel, subchannel, kind, bank, row, column
  | record        -- a completion record or CQ element of a program or engine
  | message       -- a firmware message on the supervisor (Table 18.2)
  | pads          -- the levels that a unit's held pads latch (Table 15.6): unit, then one level a pad
  | tdo           -- bits shifted out of the test port (R453)
  | i3c           -- an I3C or SMBus bus action: acknowledge, NACK, SCL hold
  | bus           -- a unit's answer to a transaction: unit, 0 served, 1 unit-isolated, 2 vault-refused, 3 domain-locked, 4 address-error, 5 served with Poison, tag
  deriving DecidableEq, Repr

/-- One output of the block, with its fields and any bytes it carries. -/
structure Output where
  kind : OutKind
  args : List Nat
  data : List Byte := []
  deriving DecidableEq, Repr

/-- One occurrence of a fault source (R390): its source, the injected flag, access type, initiator, address and tag. -/
structure Occ where
  src : Nat
  inj : Bool := false
  acc : Nat := 0
  iUnit : Nat := 0xFFFF
  iInst : Nat := 0xFFFF
  addr : Nat := 0
  tag : Nat := 0
  live : Bool := false
  quiet : Bool := false
  deriving DecidableEq, Repr

/-- A fault capture (Table 18.4). -/
structure Capture where
  cls : Nat := 0
  eff : Nat := 0
  inj : Bool := false
  esc : Bool := false
  acc : Nat := 0
  iUnit : Nat := 0
  iInst : Nat := 0
  count : Nat := 0
  addr : Nat := 0
  tag : Nat := 0
  tick : Nat := 0
  last : Nat := 0
  seq : Nat := 0
  latched : Bool := false
  lacc : Nat := 0
  liUnit : Nat := 0
  liInst : Nat := 0
  laddr : Nat := 0
  ltag : Nat := 0
  deriving DecidableEq, Repr

/-- The capture of a source that has never been raised: all 0 (Table 18.8). -/
def noCapture : Nat → Capture := fun _ => {}

/-- A record waiting in the intake (R406), or written to the ring (Table 18.5). `cap` is the source whose capture
takes this record's sequence. -/
structure EvRec where
  seq : Nat := 0
  code : Nat
  sev : Nat
  unit : Nat
  drop : Nat := 0
  p0 : Nat := 0
  p1 : Nat := 0
  p2 : Nat := 0
  p3 : Nat := 0
  cap : Option Nat := none
  deriving DecidableEq, Repr

/-- A slot of the ring (R407). -/
structure RingSlot where
  ev : EvRec
  flushed : Bool := false
  pinned : Bool := false
  deriving DecidableEq, Repr

/-- One page of the log (R409, R410): its records, and its page number in each copy that holds it. `step5`: written by a vault and not yet
copied to the other copy. -/
structure LogPage where
  recs : List EvRec
  inA : Option Nat
  inB : Option Nat
  step5 : Bool := false
  deriving DecidableEq, Repr

/-- A reaction in force (R399, R400): home unit, class, last raise, units it contains. -/
structure InForce where
  unit : Nat
  cls : Nat
  last : Nat
  contains : List Nat := []
  deriving DecidableEq, Repr

/-- Limiter of one event code (R406): tokens in millionths, tick of the last refill, drop count. -/
structure Limit where
  tokens : Nat
  tick : Nat
  drop : Nat := 0
  fresh : Bool := true
  deriving DecidableEq, Repr

/-- State of the fault collector and recorder (18). -/
structure Faults where
  caps : List (Nat × Capture) := []
  live : Nat := 0
  inforce : List InForce := []
  s3 : Option Nat := none
  haltDone : Bool := false
  haltPath : Bool := false
  intake : List EvRec := []
  ring : List RingSlot := []
  limits : List (Nat × Limit) := []
  nextSeq : Nat := 0
  seqRestart : Bool := false
  tickRec : Option Nat := none
  pages : List LogPage := []
  flushing : List Nat := []
  flushDue : Bool := false
  wpA : Nat := 0
  wpB : Nat := 0
  eraseA : Bool := false
  eraseB : Bool := false
  blkA : Nat := 0
  blkB : Nat := 0
  step5Pages : Bool := false
  armed : List (Occ × Nat) := []
  pinBad : Nat := 0
  cursors : List (Nat × Nat) := []
  deriving DecidableEq, Repr

/-- One supervised rail (14): its enable, the state its last samples support and how many. -/
structure Rail where
  en : Bool := false
  cnt : Nat := 0
  cand : Nat := 0
  deriving DecidableEq, Repr

/-- A rail at power-on: enable released. -/
def noRail : Nat → Rail := fun _ => {}

/-- Core voltage scaling of one quadrant (R333): acknowledged voltage, QCLK frequency, the point in force, and a change
under way. `step`: 0 none, 1 waiting for the acknowledgement, 2 slewing the clock. -/
structure Avs where
  vack : Nat
  freq : Nat
  point : Nat := 0
  target : Nat := 0
  step : Nat := 0
  want : Option Nat := none
  retried : Bool := false
  deriving DecidableEq, Repr

/-- Operating point 0 of R332, acknowledged (R321). -/
def avs0 : Nat → Avs := fun _ => { vack := 650, freq := 800 }

/-- State of the supervisor's supply sequencing (14). `down`: rails still to be released in order, with the state each is to read
then (Table 14.3); `full`: a full power-down runs; `missed`: unanswered polls in a row; `applied`: rail objects in force since the
last power-up sequence began; `cfgDue`: rails whose address has changed since; `scaled`: rails whose VOUT_MODE has been read. -/
structure Power where
  rails : List (Nat × Rail) := []
  s0 : Nat := 0
  seqUp : Bool := false
  down : List (Nat × Nat) := []
  full : Bool := false
  endedStandby : Bool := false
  shortPress : Bool := false
  missed : List (Nat × Nat) := []
  statusBad : List Nat := []
  avs : List (Nat × Avs) := []
  applied : List (Nat × Nat) := []
  cfgDue : List Nat := []
  scaled : List Nat := []
  deriving DecidableEq, Repr

/-- A transaction stalled at a domain (R348): its tag, its arrival tick and access kind. -/
structure Stall where
  tag : Nat
  at_ : Nat
  acc : Nat := 0
  addr : Nat := 0
  data : Nat := 0
  deriving DecidableEq, Repr

/-- One power domain (15). `st`: Table 15.1. `entry`: target of an entry under way; `wakeFrom`: the state a power-up left; `since`: the
tick at which the entry was committed or the wake granted; `arr`: the tick of the first demand access that waits; `later`: a
request that waits for the one under way or for an ancestor, with `demand` its class; `manager`: woken by the manager's own request. -/
structure Domain where
  st : Nat := 0
  entry : Option Nat := none
  wakeFrom : Nat := 2
  since : Nat := 0
  arr : Option Nat := none
  demand : Bool := false
  stalled : List Stall := []
  later : Option Nat := none
  manager : Bool := false
  deriving DecidableEq, Repr

/-- A domain at power-on: ON (Table 19.3). -/
def domOn : Nat → Domain := fun _ => {}

/-- A wake waiting for the inrush bucket (R351): unit, class, arrival. -/
structure InrushReq where
  unit : Nat
  cls : Nat
  arrival : Nat
  deriving DecidableEq, Repr

/-- State of the power domains (15). `level` is in nanocoulombs; `resumes`: units whose entry was aborted within the command being
executed, whose activities resume before it ends; `heldVals`: what each unit's counters and status were when its domain last left ON (R21), by
dictionary key. -/
structure Domains where
  doms : List (Nat × Domain) := []
  queue : List InrushReq := []
  level : Nat := 2000000
  levelTick : Nat := 0
  resumes : List Nat := []
  padHeld : List Nat := []
  supRet : Bool := false
  mgtTick : Nat := 0
  sclHold : Option Nat := none
  i3cAddr : Option Nat := none
  heldVals : List (Nat × Nat) := []
  deriving DecidableEq, Repr

/-- A staged write (R376): member, path, object, type, value, the object's last-change number. -/
structure Staged where
  member : Nat
  path : List Nat
  oid : Nat
  typ : Nat
  len : Nat
  value : Nat
  lastChange : Nat
  deriving DecidableEq, Repr

/-- A session slot (R371). `state`: 0 free, 1 awaiting proof, 2 open. -/
structure Session where
  role : Nat := 0
  transport : Nat := 0
  state : Nat := 0
  eid : Nat := 0
  devNonce : Nat := 0
  reqNonce : Nat := 0
  lastCounter : Nat := 0
  notifyCounter : Nat := 0
  openTick : Nat := 0
  lastTick : Nat := 0
  staged : List Staged := []
  key : Nat := 0
  deriving DecidableEq, Repr

/-- A free session slot. -/
def noSession : Nat → Session := fun _ => {}

/-- Lockout of one role (R375). -/
structure Lockout where
  fails : Nat := 0
  run : Nat := 0
  until_ : Nat := 0
  deriving DecidableEq, Repr

/-- No failure counted. -/
def noLockout : Nat → Lockout := fun _ => {}

/-- A message being reassembled (R365): transport, source endpoint, message tag, bytes so far, next packet sequence,
tick of its first packet. -/
structure Assembly where
  transport : Nat
  eid : Nat
  mtag : Nat
  bytes : List Byte
  nextSeq : Nat
  tick : Nat
  deriving DecidableEq, Repr

/-- State of sessions and transports (16). -/
structure Sess where
  slots : List (Nat × Session) := []
  lock : List (Nat × Lockout) := []
  lastChange : List (Nat × Nat) := []
  asm : List Assembly := []
  eids : List (Nat × Nat) := []
  deriving DecidableEq, Repr

/-- A version of a block in the cache: the fields of Table 2.2 that the model keeps, its COPY's frame, and the data
(little-endian, 4,096 bytes). A frame is 2^28 · channel + index. `st`: 1 CLEAN, 2 DIRTY, 3 DESTAGING. `unc`: sectors that a Write
Uncorrectable covers. `dropping`: of a deleted volume (R36). `image`: it came from the held image. -/
structure Version where
  frame : Nat
  vol : Nat
  blk : Nat
  inst : Nat
  dom : Nat := 0
  seq : Nat := 0
  valid : Nat := 0xFF
  st : Nat
  poison : Bool := false
  fence : Bool := false
  superseded : Bool := false
  copy : Option Nat := none
  data : Nat
  unc : Nat := 0
  dropping : Bool := false
  image : Bool := false
  deriving DecidableEq, Repr

/-- A write to a volume and its stage (Table 2.3): 0 RECEIVED, 1 ADMITTED, 3 THROUGH. `org`: 0 host (`ref` its queue), 1 DMA (`ref`
the channel), 2 engine (`ref` the slot). `kind`: 0 Write, 1 Write Zeroes, 2 Write Uncorrectable. `start` and `len` count bytes of
the volume. `waiting`: waits in the governor; `r144`: waits under R144; `thru`: takes the write-through route. Of a write-through, `noFua`: a drive write was
issued without FUA, and `unflushed`: namespaces whose Flush it waits for, as (port, namespace, a Flush covers it) (R56). -/
structure HostWrite where
  id : Nat
  org : Nat := 0
  ref : Nat
  cid : Nat := 0
  inst : Nat
  gen : Nat := 0
  dom : Nat := 0
  fence : Bool := false
  vol : Nat
  start : Nat
  len : Nat
  data : Nat := 0
  kind : Nat := 0
  stage : Nat := 0
  waiting : Bool := false
  r144 : Bool := false
  thru : Bool := false
  noFua : Bool := false
  unflushed : List (Nat × Nat × Bool) := []
  deriving DecidableEq, Repr

/-- A read of a block from the drives (R37, R38, R288). `owner`: 1 destage (`ref` its frame), 2 write-through (`ref` the write), 3 a
read (`ref` the command). `want`: outstanding (command, member); `got`: (strip index, data); `failed`: members that gave an error;
`full`: the whole row is wanted for its parity. -/
structure Fill where
  id : Nat
  owner : Nat
  ref : Nat
  vol : Nat
  blk : Nat
  want : List (Nat × Nat)
  got : List (Nat × Nat) := []
  failed : List Nat := []
  full : Bool := false
  deriving DecidableEq, Repr

/-- One attempt to destage a version (R56): the drive writes still outstanding, as (command, port, namespace, member), and those
complete but unflushed, as (port, namespace, a Flush covers it). `reading`: it still reads the volume; `noFua`: its writes carry no FUA. -/
structure Destage where
  frame : Nat
  wait : List (Nat × Nat × Nat × Nat) := []
  unflushed : List (Nat × Nat × Bool) := []
  quad : Nat := 0
  reading : Bool := false
  noFua : Bool := false
  deriving DecidableEq, Repr

/-- A Flush outstanding at a drive namespace (R56). -/
structure DriveFlush where
  port : Nat
  nsid : Nat
  cmd : Nat
  deriving DecidableEq, Repr

/-- State of the protected write cache (02). `bucket`: buckets away from home, with their owner; `adopting`: buckets whose lookup
state is being rebuilt; `fails`: (frame, member, consecutive failures) of R56. -/
structure Cache where
  versions : List Version := []
  nextSeq : List (Nat × Nat) := []
  frozen : Bool := false
  writes : List HostWrite := []
  wid : Nat := 0
  bucket : List (Nat × Nat) := []
  adopting : List Nat := []
  destages : List Destage := []
  fills : List Fill := []
  fillId : Nat := 0
  flushes : List DriveFlush := []
  fails : List (Nat × Nat × Nat) := []
  volumes : List (Nat × BitVec 16384) := []
  deriving DecidableEq, Repr

/-- The descriptor an unwritten position holds: VolumeId its position, all else 0 (R35). -/
def volDefault (i : Nat) : BitVec 16384 := BitVec.ofNat 16384 i

/-- A capacitance test (Table 3.3). `step`: 0 idle, 1 deferred, 2 PAUSE, 3 STEP, 4 DISCHARGE. `auto`: the first test of this power-on is
still to come; `current`: a test is current; `tested`: one has been valid in this power-on, at `doneTick` and bank temperature
`tTest`; `predicted`: the predicted ceiling is delivered (R67);
`adopted`: the c_used that a new Pack master took over, until its own first valid test, with the age in s it then had (R165). -/
structure CapTest where
  step : Nat := 0
  v0 : Nat := 0
  v1 : Nat := 0
  i1 : Nat := 0
  deferSince : Nat := 0
  predicted : Bool := false
  auto : Bool := true
  current : Bool := false
  tested : Bool := false
  tTest : Int := 250
  doneTick : Nat := 0
  adopted : Option Nat := none
  ageBase : Nat := 0
  deriving DecidableEq, Repr

/-- A drill (Table 3.4). `step`: 0 idle, 3 VAULT, 4 RESUME; `due`: waits for the scratch erase; `shed`: the domains it has shed, with
their states before. -/
structure Drill where
  step : Nat := 0
  bytes : Nat := 0
  power : Nat := 0
  dur : Nat := 0
  faulted : Bool := false
  due : Bool := false
  shed : List (Nat × Nat) := []
  deriving DecidableEq, Repr

/-- State of the energy reserve (03): the mean bank voltage last computed, whether the charger has been told to charge, its unanswered
polls, whether its VOUT_MODE has been read since it was last reset (Table 3.2), and since when the ceiling has covered 1 GiB (R77). -/
structure Energy where
  cap : CapTest := {}
  drill : Drill := {}
  charging : Bool := false
  missed : Nat := 0
  scaled : Bool := false
  vhold : Nat := 0
  ceilSince : Option Nat := none
  deriving DecidableEq, Repr

/-- A lost range (R152): volume, kind, count, start block. -/
structure LostRange where
  vol : Nat
  kind : Nat
  count : Nat
  start : Nat
  deriving DecidableEq, Repr

/-- Restore and Fetch (06). `src`: the source (RestoreSource); `seq`: ImageSeq of the restored image, 0 none; `held`: the held image's;
`asked`: residency keys restore faults have asked for, with who waits; `readDone`: the fetch prefix is resident and lookup is being rebuilt; `fromRetain`:
WAKE was entered from RETAIN; `lost`: lost and poisoned ranges; `truncated`: the list is; `hold`:
restored work waits for MSI-X Enable and Bus Master Enable (R149); `readyTick`: host readiness since (R415); `fetch`: the image is restored by FETCH;
`rewritten`: frames rewritten once from their segment (Table 6.6); `redo`: restored host writes that wait for `hold` to end (R148, R149). -/
structure Restore where
  src : Nat := 0
  seq : Nat := 0
  held : Option Nat := none
  asked : List (Nat × Nat) := []
  readDone : Bool := false
  fromRetain : Bool := false
  configRetryOver : Bool := false
  hostIo : Bool := false
  readyTick : Option Nat := none
  wasIo : Bool := false
  lost : List LostRange := []
  truncated : Bool := false
  hold : Bool := false
  fetch : Bool := false
  rewritten : List Nat := []
  redo : List HostWrite := []
  deriving DecidableEq, Repr

/-- A clock (20). `st`: 0 not lost, 2 LOST, 3 FALLBACK; `attempts`: restarts of a lost MCLK PLL; `freq`: what the detector of a lost clock
measured, in kHz. Index 22 is XCLK. -/
structure Clock where
  st : Nat := 0
  attempts : Nat := 0
  freq : Nat := 0
  deriving DecidableEq, Repr

/-- A clock that is not lost. -/
def clockOk : Nat → Clock := fun _ => {}

/-- A firmware slot (R425): bytes written, and whether the image's checks pass. -/
structure FwSlot where
  bytes : List (Nat × Byte) := []
  valid : Bool := false
  version : Nat := 0
  deriving DecidableEq, Repr

/-- The always-on block, resets, pins and test port (14, 19, 20, 21). `ir`: the test port's instruction (0 BYPASS, 1 IDCODE, 2 SAMPLE/PRELOAD,
3 EXTEST, 4 CLAMP, 5 HIGHZ); `cells`: the boundary chain, the cell next to TDO first; `drive`: the balls are 0 the device's, 1 the chain's, 2 high impedance; `pins`: the
levels driven on FAULT_T and FAULT_C. -/
structure Aon where
  tick : Nat := 0
  auxUp : Bool := true
  vbatLow : Bool := false
  collapse : Option Nat := none
  keepLost : Bool := false
  mrstDefer : Bool := false
  perstN : Bool := false
  holdEn : Bool := false
  bankLoad : Bool := false
  lshSyncDrive : Bool := false
  lshSyncN : Bool := true
  pins : Option (Bool × Bool) := some (false, true)
  wdRestart : Bool := false
  lshEn : Bool := false
  lshAddr : Nat := 0
  lshMstr : Bool := false
  testMode : Bool := false
  fw : List (Nat × FwSlot) := []
  fwSlot : Nat := 0
  softDue : Bool := false
  wdSince : Bool := false
  fwHalt : Bool := false
  clocks : List (Nat × Clock) := []
  xclkHold : Option Nat := none
  thermal : List (Nat × Int) := []
  ir : Nat := 1
  bypass : Bool := false
  cells : List Bool := []
  drive : Nat := 0
  powered : Bool := true
  deriving DecidableEq, Repr

end Sys2Proof.Machine
end

