-- ==== Sys2Proof/Machine/DevMore.lean ====
section
/-! DEFINITION. Plain-data records of the Pack, the Erril cores, translation and DMA, the offload engines, instances
and queues, downstream ports and the DRAM controller (07 to 13), and `Dev`, the whole of the device's state. -/
namespace Sys2Proof.Machine

/-- What the master knows of a Pack node (R162): the fields of its last STATUS. `seen`: it has answered under this master; `polled`: the Seq of a
POLL not yet answered; `missed`: missed polls in a row; `left`: it has left VAULT and SEAL in this sequence; `held`: it joined while PackVault was set;
`grant` and `key`: the energy and all fields of its last grant; `due`: a GRANT is to be sent. -/
structure Node where
  seen : Bool := false
  polled : Option Nat := none
  missed : Nat := 0
  maxVersion : Nat := 0
  kind : Nat := 0
  vaultState : Nat := 0
  flags : Nat := 0
  faultStatus : Nat := 0
  pused : Nat := 0
  bused : Nat := 0
  tneed : Nat := 0
  eretain : Nat := 0
  phold : Nat := 0
  thold : Nat := 0
  slots : Nat := 0
  slotOn : Nat := 0
  slotPresent : Nat := 0
  slotFault : Nat := 0
  left : Bool := false
  held : Bool := false
  grant : Nat := 0
  key : List Nat := []
  due : Bool := false
  deriving DecidableEq, Repr

/-- A node never heard from. -/
def noNode : Nat → Node := fun _ => {}

/-- A slot command at the master (R172). `action`: 1 ON, 2 OFF, 3 CLEAR-FAULT; `sends`: frames sent so far, 0 while it waits. -/
structure SlotReq where
  slot : Nat
  action : Nat
  demand : Bool
  token : Nat := 0
  sends : Nat := 0
  deriving DecidableEq, Repr

/-- An absent Thozu whose last grant stays reserved (R168, R176). -/
structure Absent where
  node : Nat
  grant : Nat
  since : Nat
  deriving DecidableEq, Repr

/-- A dictionary message that the master forwards (R175): the requester's transport and endpoint with its MCTP tag, the request's bytes with how many have been sent,
the tick of the Last request fragment, and the response so far. -/
structure Forward where
  msgId : Nat
  node : Nat
  transport : Nat
  eid : Nat
  mtag : Nat
  req : List Byte
  sent : Nat := 0
  frag : Nat := 0
  lastTick : Option Nat := none
  rsp : List Byte := []
  rspFrag : Nat := 0
  deriving DecidableEq, Repr

/-- The Pack and the Leash (07). `cycle`, `budgetSeq`, `waveDone`, `capUsed`, `esr`, `capAge`, `vFloor` and `effP` are those of the last BEACON sent or received;
`bucketUsed`: µC drawn from the slot bucket at `bucketTick`; `slotBad`: slots whose command went unanswered; `memFrags`, `memMsg` and `memRsp`: a message forwarded to this
member and its response; `hasGrant`, `grantWave`: the grant in force; `ebank0`: e_bank(t0) in µJ; `cycles`: those this master has begun, and `heir`: it took over from another (R165). -/
structure Pack where
  nodes : List (Nat × Node) := []
  beaconTick : Option Nat := none
  cycle : Nat := 0
  seq : Nat := 0
  budgetSeq : Nat := 0
  budgetValid : Bool := false
  waveDone : Nat := 0xFF
  probe : Nat := 15
  absents : List Absent := []
  bucketUsed : Nat := 0
  bucketTick : Nat := 0
  slotReqs : List SlotReq := []
  slotBad : Nat := 0
  token : Nat := 0
  resets : List Nat := []
  msgId : Nat := 0
  fwd : List Forward := []
  memFrags : List Byte := []
  memNext : Nat := 0
  memMsg : Option Nat := none
  memRsp : Option (List Byte) := none
  rspFrag : Nat := 0
  grantWave : Nat := 0xFF
  hasGrant : Bool := false
  packVault : Bool := false
  capUsed : Nat := 0
  esr : Nat := 0
  capAge : Nat := 0xFFFFFFFF
  vFloor : Nat := 0
  effP : Nat := 0
  ebank0 : Nat := 0
  cycles : Nat := 0
  heir : Bool := false
  deriving DecidableEq, Repr

/-- One Erril core (08): general, vector, base, loop, string and control registers, and the traps pending at it.
`owner`: the context that owns its scratch; `stopped`: stopped at a QUIESCE, a HALT or a domain entry; `inStr`: inside a string
instruction. `slices`: slices that each instance has had of the core in this round, `lastInst` the instance served last and `turns` the context
of each instance served last (R222). -/
structure Core where
  w : List (Nat × Word) := []
  v : List (Nat × Vec) := []
  b : List (Nat × W48) := []
  lc : List (Nat × Word) := []
  ls : List (Nat × W48) := []
  le : List (Nat × W48) := []
  ps : Word := 0
  pd : Word := 0
  pn : Word := 0
  pk : Word := 0
  pc : W48 := 0
  flags : Word := 0
  uctl : Word := 0
  utvec : Word := 0
  uepc : Word := 0
  ucause : Word := 0
  utval : Word := 0
  cycle : Word := 0
  ctxid : Word := 0xFFFF
  status : Word := 1
  stvec : Word := 0
  sepc : Word := 0
  scause : Word := 0
  stval : Word := 0
  sscratch : Word := 0
  slice : Word := 0
  ctxptr : Word := 0
  owner : Nat := 0xFFFF
  preempt : Option Nat := none
  irqs : List Nat := []
  wfi : Bool := false
  stopped : Bool := false
  inStr : Bool := false
  slices : List (Nat × Nat) := []
  lastInst : Nat := 0
  turns : List (Nat × Nat) := []
  scratch : List (Nat × Byte) := []
  deriving DecidableEq, Repr

/-- A core after reset: supervisor privilege, no context loaded. [DESIGN CHOICE, log 5] -/
def coreReset : Nat → Core := fun _ => {}

/-- An entry of a TLB or IOTLB (R212). -/
structure TlbEntry where
  asid : Nat
  host : Bool := false
  va : Nat
  size : Nat
  pa : Nat
  perms : Nat
  cls : Nat
  deriving DecidableEq, Repr

/-- A context-table entry (Table 9.1) with the page list entries of the context (R226). -/
structure Context where
  inst : Nat := 0
  gen : Nat := 0
  st : Nat := 0
  scratchCore : Nat := 0xFFFF
  root : Nat := 0
  inexact : Bool := false
  core : Option Nat := none
  deriving DecidableEq, Repr

/-- A FREE entry of the context table. -/
def noContext : Nat → Context := fun _ => {}

/-- A page-list entry (Table 9.8); frames of NEVER-VAULT pages (`cls` 2) are kept beside it and are no entry of the page list. -/
structure PageEntry where
  ctx : Nat
  phys : Nat
  va : Nat
  cls : Nat
  size : Nat
  table : Bool
  level : Nat
  deriving DecidableEq, Repr

/-- A fault record (Table 9.5). -/
structure FaultRec where
  kind : Nat := 0
  detail : Nat := 0
  seq : Nat := 0
  addr : Nat := 0
  progress : Nat := 0
  tag : Nat := 0
  tick : Nat := 0
  prg : Nat := 0
  deriving DecidableEq, Repr

/-- A DMA descriptor (Table 9.4) and the queue it came from (0xFFFF: firmware). `vst` of a volume operation: 0 not begun, 1 under
way, 2 done, 3 failed; `vdata` what it read. -/
structure Desc where
  op : Nat
  flags : Nat := 0
  ctx : Nat := 0xFFFF
  inst : Nat := 0
  gen : Nat := 0
  dom : Nat := 0
  src : Nat := 0
  dst : Nat := 0
  len : Nat := 0
  progress : Nat := 0
  vol : Nat := 0
  cls : Nat := 0
  status : Nat := 0
  user : Nat := 0
  queue : Nat := 0xFFFF
  reserved : Nat := 0
  resumed : Bool := false
  vst : Nat := 0
  vdata : Nat := 0
  deriving DecidableEq, Repr

/-- One DMA channel's state: its active descriptor and fault record. -/
structure Channel where
  desc : Option Desc := none
  fault : FaultRec := {}
  deriving DecidableEq, Repr

/-- A channel with no descriptor. -/
def noChannel : Nat → Channel := fun _ => {}

/-- A page request waiting for the host (R221): group index, channel, instance, address, tick. -/
structure PageReq where
  prg : Nat
  chan : Nat
  inst : Nat
  addr : Nat
  tick : Nat
  deriving DecidableEq, Repr

/-- A store of firmware into a context's address space that met a restore fault and waits for its segment (R214): context, address, bytes. -/
structure FwStore where
  ctx : Nat
  va : Nat
  bytes : List Byte
  deriving DecidableEq, Repr

/-- Translation and DMA (09), with memory: DRAM bytes, poisoned lines, quadrant SRAM. `fwWait`: firmware's stores that wait for a segment, oldest
first; `reissue`: page requests outstanding at FREEZE are to be issued again once the link is up (R221). -/
structure Mem where
  dram : List (Nat × Byte) := []
  poison : List Nat := []
  sram : List (Nat × Byte) := []
  resid : List Nat := []
  contexts : List (Nat × Context) := []
  pages : List PageEntry := []
  chans : List (Nat × Channel) := []
  preqs : List PageReq := []
  prg : Nat := 0
  tlb : List (Nat × List TlbEntry) := []
  iotlb : List (Nat × List TlbEntry) := []
  msState : Bool := false
  fwWait : List FwStore := []
  reissue : Bool := false
  deriving DecidableEq, Repr

/-- Bytes nothing has written read as 0 (DESIGN CHOICE, log 6). [DESIGN CHOICE, log 6] -/
def zeroByte : Nat → Byte := fun _ => 0

/-- A job descriptor (Table 10.2) with the queue it came from. -/
structure Job where
  op : Nat
  flags : Nat := 0
  ctx : Nat := 0xFFFF
  inst : Nat := 0
  gen : Nat := 0
  dom : Nat := 0
  src : Nat := 0
  srcLen : Nat := 0
  dst : Nat := 0
  dstCap : Nat := 0
  aux : Nat := 0
  auxLen : Nat := 0
  vol : Nat := 0
  cls : Nat := 0
  status : Nat := 0
  inProg : Nat := 0
  outProg : Nat := 0
  user : Nat := 0
  params : Nat := 0
  reserved : Nat := 0
  queue : Nat := 0xFFFF
  vst : Nat := 0
  vdata : Nat := 0
  deriving DecidableEq, Repr

/-- A job slot and its checkpoint (Table 10.9). `kind`: 0 empty, 1 taken, 2 checkpoint valid. `fin`: its work is done, with status
`fst`, and its completion not yet posted. `cut`: offset of the first 4 KiB source unit found to carry Poison. `pick`: the free choice of its compressed stream; `blk`: blocks of a stream done. Stream-through:
`stage` holds (volume block, data) read and `vblk` the block being read; `wst`: the transfer under way is a write; `outBuf` is output
not yet written to its volume, `outBlk` the blocks written. -/
structure JobSlot where
  job : Option Job := none
  kind : Nat := 0
  inexact : Bool := false
  pendingDone : Bool := false
  resumed : Bool := false
  ckptSeq : Nat := 0
  count : Nat := 0
  crc : Nat := 0
  hash : List Nat := []
  bits : Nat := 0
  fault : FaultRec := {}
  result : Nat := 0
  fin : Bool := false
  fst : Nat := 4
  pick : Nat := 0
  blk : Nat := 0
  stage : List (Nat × Nat) := []
  vblk : Nat := 0
  wst : Bool := false
  outBuf : List Byte := []
  outBlk : Nat := 0
  cut : Option Nat := none
  deriving DecidableEq, Repr

/-- An empty job slot. -/
def noJob : Nat → JobSlot := fun _ => {}

/-- A key slot (R245). -/
structure KeySlot where
  owner : Nat := 0xFFFF
  k1 : Nat := 0
  k2 : Nat := 0
  deriving DecidableEq, Repr

/-- An empty key slot. -/
def noKey : Nat → KeySlot := fun _ => {}

/-- Offload engines (10): slots by 16 · engine + slot, keys by 256 · quadrant + slot. -/
structure Engines where
  slots : List (Nat × JobSlot) := []
  keys : List (Nat × KeySlot) := []
  deriving DecidableEq, Repr

/-- Run-time state of a queue pair (R275). `cq`: the completion queue of a HOST submission queue; `got`: entries read from a context's ring that
nothing has taken yet (R266). -/
structure QState where
  sqHead : Nat := 0
  sqTail : Nat := 0
  cqTail : Nat := 0
  cqHead : Nat := 0
  phase : Bool := true
  doorbell : Bool := false
  outstanding : Nat := 0
  cq : Nat := 0
  got : List Nat := []
  deriving DecidableEq, Repr

/-- Queue state at reset. -/
def noQState : Nat → QState := fun _ => {}

/-- Control-page registers of an instance's controller (Table 11.5) and its NVMe features and events. `abortDue`: admin commands fetched before an
outage whose effect was not taken, still to be aborted (R148). -/
structure Ctrl where
  cc : Nat := 0
  csts : Nat := 0
  aqa : Nat := 0
  asq : Nat := 0
  acq : Nat := 0
  gSq : Nat := 0
  gCq : Nat := 0
  aers : List Nat := []
  events : List (Nat × Nat) := []
  features : List (Nat × Nat) := []
  smart : Nat := 0
  changedNs : List Nat := []
  errors : Nat := 0
  kaTick : Nat := 0
  abortDue : Nat := 0
  deriving DecidableEq, Repr

/-- A controller after a Controller Reset. -/
def noCtrl : Nat → Ctrl := fun _ => {}

/-- Reset under way at an instance (Table 11.11). `step`: 0 none, 1 waiting for R274, 2 HALT, 3 DRAIN. `lastIssue`: (generation, tick of the
last non-posted request issued under it). `credits`: fetch credits of this epoch; `lastQ`: the queue that fetched last, and `burst` the entries it has fetched in its turn; `pendingShare`: a
share change accepted at a tick, bytes 0x08 to 0x13 of Table 11.3. -/
structure InstRun where
  step : Nat := 0
  remove : Bool := false
  start : Nat := 0
  lastIssue : List (Nat × Nat) := []
  credits : Nat := 0
  lastQ : Nat := 0
  burst : Nat := 0
  pendingShare : Option (Nat × Nat) := none
  deriving DecidableEq, Repr

/-- No reset under way, no request outstanding. -/
def noInstRun : Nat → InstRun := fun _ => {}

/-- An interrupt vector (R269). -/
structure IntVec where
  addr : Nat := 0
  data : Nat := 0
  mask : Bool := true
  pasid : Bool := false
  pending : Bool := false
  deriving DecidableEq, Repr

/-- A vector at reset: masked. -/
def noVec : Nat → IntVec := fun _ => {}

/-- A read of a volume not completed (R148): `org` and `ref` as in a write; `dst` the host address. `st`: 0 to be run, 1 drive
reads outstanding; `got`: (block, data) from the drives. -/
structure HostCmd where
  id : Nat
  org : Nat := 0
  ref : Nat
  cid : Nat := 0
  inst : Nat
  gen : Nat := 0
  vol : Nat
  start : Nat
  len : Nat
  dst : Nat := 0
  st : Nat := 0
  got : List (Nat × Nat) := []
  deriving DecidableEq, Repr

/-- Instances, namespaces, queues and vectors (11). -/
structure Insts where
  table : List (Nat × BitVec 512) := []
  ns : List (Nat × BitVec 128) := []
  queues : List (Nat × BitVec 512) := []
  qstate : List (Nat × QState) := []
  ctrl : List (Nat × Ctrl) := []
  run : List (Nat × InstRun) := []
  vecs : List (Nat × IntVec) := []
  cmds : List HostCmd := []
  link : Nat := 0
  linkGen : Nat := 0
  linkWidth : Nat := 0
  msix : Bool := false
  busMaster : Bool := false
  detectHeld : Bool := false
  withheld : List Output := []
  deriving DecidableEq, Repr

/-- Instance 0's entry at power-on (R277); every other entry holds its InstanceId. -/
def instDefault (i : Nat) : BitVec 512 :=
  if i = 0 then BitVec.ofNat 512 (1 * 2 ^ 16 + 1000 * 2 ^ 64 + 2 * 2 ^ 88 + 0xFFFFFFFF * 2 ^ 96 + 0xFFFFFFFF * 2 ^ 128
    + 512 * 2 ^ 160 + 2048 * 2 ^ 208 + 1024 * 2 ^ 224)
  else BitVec.ofNat 512 i

/-- An UNUSED queue entry: its QpIndex, all else 0. -/
def queueDefault (i : Nat) : BitVec 512 := BitVec.ofNat 512 i

/-- An unused namespace entry. -/
def nsDefault : Nat → BitVec 128 := fun _ => 0

/-- A command outstanding at a drive. `owner`: 1 destage, 2 through write, 3 read, 4 rebuild, 5 Flush; `ref`: the frame, the
write, the host command or the volume it serves. -/
structure DriveCmd where
  id : Nat
  owner : Nat
  ref : Nat
  nsid : Nat
  deriving DecidableEq, Repr

/-- One downstream port (12). `removing`: 0 no, 1 waiting for outstanding commands, 2 link disabled; `offAfter`: its slot is to be
switched off then; `again`: it was BOUND when its domain left ON and has not been BOUND since it woke (R286). -/
structure Port where
  state : Nat := 0
  speed : Nat := 0
  width : Nat := 0
  serial : Nat := 0
  present : Bool := false
  removing : Nat := 0
  offAfter : Option Nat := none
  ns : List DriveNs := []
  vwc : Bool := true
  cmds : List DriveCmd := []
  again : Bool := false
  deriving DecidableEq, Repr

/-- A port with no drive. -/
def noPort : Nat → Port := fun _ => {}

/-- A rebuild under way (R289): volume, member, next block. -/
structure Rebuild where
  vol : Nat
  pos : Nat
  point : Nat
  deriving DecidableEq, Repr

/-- Downstream ports (12). -/
structure Ports where
  ports : List (Nat × Port) := []
  rebuilds : List Rebuild := []
  cmdId : Nat := 0
  deriving DecidableEq, Repr

/-- One bank's page predictor (R301) and open row. -/
structure Bank where
  hist : Nat := 0
  lastRow : Option Nat := none
  idx : Nat := 0
  pend : Bool := false
  openRow : Option Nat := none
  deriving DecidableEq, Repr

/-- A bank at power-on. -/
def noBank : Nat → Bank := fun _ => {}

/-- A request at a DRAM subchannel (R304): its place, its 64-byte line, tag, port and acceptance; of a write the data. -/
structure DramReq where
  id : Nat
  write : Bool
  rank : Nat
  bank : Nat
  row : Nat
  col : Nat
  line : Nat
  tag : Nat
  port : Nat
  at_ : Nat
  data : Nat := 0
  deriving DecidableEq, Repr

/-- A read accepted by a channel and not yet returned (R305): its data as the channel accepted it, with Poison, and whether DRAM has given it. -/
structure DramAns where
  id : Nat
  chan : Nat
  tag : Nat
  data : Nat
  bad : Bool
  done : Bool := false
  deriving DecidableEq, Repr

/-- A command in the retry buffer (R307). -/
structure Retry where
  req : DramReq
  replays : Nat := 0
  deriving DecidableEq, Repr

/-- An activate count (R308). -/
structure ActCount where
  rank : Nat
  bank : Nat
  row : Nat
  count : Nat
  deriving DecidableEq, Repr

/-- A neighbour refresh due (R308). -/
structure NeighbourDue where
  rank : Nat
  bank : Nat
  row : Nat
  deriving DecidableEq, Repr

/-- One subchannel (13). `waiting`: requests at their ports while a queue is full; `stopped`: its replay limit is reached; banks by
32 · rank + bank. -/
structure SubChan where
  reads : List DramReq := []
  writes : List DramReq := []
  waiting : List DramReq := []
  draining : Bool := false
  retry : List Retry := []
  stopped : Bool := false
  acts : List ActCount := []
  due : List NeighbourDue := []
  banks : List (Nat × Bank) := []
  ctr : List (Nat × Nat) := []
  deriving DecidableEq, Repr

/-- A subchannel at power-on. -/
def noSub : Nat → SubChan := fun _ => {}

/-- One DRAM channel (13). `cap` in MiB, `width` and `gbit` of its devices; `temp` the last MR4 temperature in 0.1 °C, `trainTemp` and
`trained` those of its last training; `retrain`: one is due; `quarDue`: a quarantine waits for the end of a vault sequence; `srTemp`: the
temperature before a self-refresh that has ended, until the next reading. -/
structure Chan where
  populated : Bool := false
  ranks : Nat := 1
  width : Nat := 8
  gbit : Nat := 16
  cap : Nat := 0
  st : Nat := 0
  temp : Int := 0
  trainTemp : Int := 0
  trained : Nat := 0
  retrain : Bool := false
  srSince : Option Nat := none
  quarDue : Bool := false
  srTemp : Option Int := none
  deriving DecidableEq, Repr

/-- An unpopulated channel. -/
def noChan : Nat → Chan := fun _ => {}

/-- The DRAM controller (13). Subchannels by 2 · channel + subchannel. -/
structure Dram where
  chans : List (Nat × Chan) := []
  subs : List (Nat × SubChan) := []
  reqId : Nat := 0
  ans : List DramAns := []
  deriving DecidableEq, Repr

/-- The machine state a vault saves in steps 2 and 4 (Table 4.6): the volume table, contexts with their pages, DMA channels, core
save areas and scratch, quadrant SRAM, engine checkpoints, tables, queues and the writes under way. -/
structure Snap where
  cores : List (Nat × Core) := []
  mem : Mem := {}
  eng : Engines := {}
  insts : Insts := {}
  volumes : List (Nat × BitVec 16384) := []
  nextSeq : List (Nat × Nat) := []
  writes : List HostWrite := []
  deriving DecidableEq, Repr

/-- An item of a manifest (Table 5.6): ItemId, vault step, first segment, segments, bytes. -/
structure PlanItem where
  id : Nat
  step : Nat
  first : Nat
  segs : Nat
  len : Nat
  deriving DecidableEq, Repr

/-- A restripe entry (Table 5.7): FromSegment, RowBase, LunMap. -/
structure Restripe where
  fromSeg : Nat
  rowBase : Nat
  luns : List Nat
  deriving DecidableEq, Repr

/-- A progress, void or release record in a slot (Table 5.7), and the progress record's durable prefix, tick, last flushed event sequence, restripe table and
the relocations it lists. `kind`: 1 PROGRESS, 2 VOID, 3 RELEASE. -/
structure KRec where
  kind : Nat
  num : Nat := 0
  durable : Nat := 0
  tick : Nat := 0
  evLast : Nat := 0
  restripe : List Restripe := []
  reloc : List (Nat × Nat) := []
  deriving DecidableEq, Repr

/-- An image in a slot (05): the manifest's fields, the dirty versions in plan order, the saved state; `done`: programmed segments above
the durable prefix; `poison`: (segment, mask) of poison markers; `reloc`: (segment, Kennel address); `recs`: the readable records, `recNum` those written
and `recPages` the pages of each LUN's progress blocks they took; `ring`: the Kennel addresses of the step-5 segments (R125); `lost`: segments found
unreadable; `got`: segments restored. -/
structure Image where
  fmt : Nat := 3
  seq : Nat
  trigger : Nat := 0
  t0 : Nat := 0
  serial : Nat := 0
  unarmed : Bool := false
  mayDrop : Bool := false
  mode : Nat := 0
  capacity : Nat := 0
  keyCheck : Nat := 0
  plan : Nat := 0
  items : List PlanItem := []
  vers : List Version := []
  must : List PageEntry := []
  may : List PageEntry := []
  snap : Snap := {}
  restripe : List Restripe := []
  done : List Nat := []
  durable : Nat := 0
  poison : List (Nat × Nat) := []
  reloc : List (Nat × Nat) := []
  recs : List KRec := []
  recNum : Nat := 0
  recPages : List (Nat × Nat) := []
  ring : List Nat := []
  manifest : Bool := false
  sealOk : Bool := false
  voided : Bool := false
  released : Bool := false
  evLast : Nat := 0
  lost : List Nat := []
  got : List Nat := []
  deriving DecidableEq, Repr

/-- A slot band (R126): its image, whether an erase runs, whether it is the target or held, and the sequence of the last
image erased from it (R127). -/
structure Slot where
  image : Option Image := none
  erasing : Bool := false
  corrupt : Bool := false
  target : Bool := false
  held : Bool := false
  lastErased : Nat := 0
  deriving DecidableEq, Repr

/-- One LUN of the vault flash (R109, R113, R114): FAILED in its header, bad blocks and their remaps, reserve blocks that relocations have taken, the
last taken first, with the rows used in that one; the generation of its newest header, and the pages used in header blocks 0 and 1. -/
structure Lun where
  present : Bool := false
  failed : Bool := false
  bad : List Nat := []
  remap : List (Nat × Nat) := []
  relUsed : List Nat := []
  relocRows : Nat := 0
  gen : Nat := 0
  hdr0 : Nat := 0
  hdr1 : Nat := 0
  deriving DecidableEq, Repr

/-- State of the Kennel (05): the directory (Table 5.3), the slots, the vault key, the erases and format under way, and what the last format
measured (R110). `fmt`: the format of its headers (R129); `slc`: SlcFeature of the last format; `nextSeq`: the next image sequence (R123). -/
structure Kennel where
  valid : Bool := false
  fmt : Nat := 3
  slc : Nat := 0
  serial : Nat := 0
  nextSeq : Nat := 0
  gen : Nat := 0
  map : List Nat := []
  fmtMap : List Nat := []
  pageSize : Nat := 16384
  planes : Nat := 4
  ppb : Nat := 256
  bpl : Nat := 96
  slotBlocks : Nat := 0
  progress : Nat := 0
  scratchBase : Nat := 0
  scratchBlocks : Nat := 0
  logBase : Nat := 0
  logBlocks : Nat := 0
  reserveBase : Nat := 0
  reserveBlocks : Nat := 0
  keyCheck : Nat := 0
  seqFloor : Nat := 0
  luns : List (Nat × Lun) := []
  a : Slot := {}
  b : Slot := {}
  key : Option (BitVec 512) := none
  formatting : Bool := false
  rateOk : Bool := false
  worst : Nat := 0
  scratchErase : Bool := false
  deriving DecidableEq, Repr

/-- An unpopulated LUN. -/
def noLun : Nat → Lun := fun _ => {}

/-- The running or ended vault sequence (04). `held`: hardware holds it until the supervisor has restarted (R419); `guard`: the energy guard
applies; `empty`: the plan is empty; `issued`: segments issued; `stop`: no further one is; `commit`: the seal's program command has been
issued; `shed`: domains with their states at FREEZE; `prior`: VaultState at t0; `wakeDue`: RETAIN is left at once; `ending`: no further segment is issued and
the sequence ends once those in flight have ended, 1 by the energy guard (R98), 2 by a rescind (R101); `cut`: segments in flight that failed after that;
`spilled`: units whose contents lie in the spill area (R95). -/
structure VaultRun where
  trigger : Nat := 0
  t0 : Nat := 0
  held : Bool := false
  guard : Bool := false
  empty : Bool := false
  unarmed : Bool := false
  slot : Nat := 0xFF
  issued : Nat := 0
  mark : Nat := 268435456
  stop : Bool := false
  commit : Bool := false
  sealTry : Bool := false
  shedDone : Bool := false
  spill : Bool := false
  shed : List (Nat × Nat) := []
  prior : Nat := 0
  wakeDue : Bool := false
  ending : Nat := 0
  cut : List Nat := []
  spilled : List Nat := []
  deriving DecidableEq, Repr

/-- The one-time programmable store (17): the fused fields that are programmed (R386), the lock, fields whose programming the collapse of the auxiliary
input has cut short (R388), and the banks of each trim programmed so far, oldest first (R387). -/
structure Fuse where
  serial : Option Nat := none
  uuid : Option Nat := none
  factoryKey : Option Nat := none
  vendorId : Option Nat := none
  deviceId : Option Nat := none
  partNumber : Option Nat := none
  locked : Bool := false
  cut : List Nat := []
  adcTrim : List Nat := []
  pfailTrim : List Nat := []
  monclkTrim : List Nat := []
  deriving DecidableEq, Repr

/-- The device: everything the spec gives the machine. `out` lists what has left the block, `free` counts the
free values taken, `faultQ` holds occurrences raised within the command being executed (empty between commands). -/
structure Dev where
  aon : Aon := {}
  dict : List (Nat × Nat) := []
  eff : List (Nat × Nat) := []
  faults : Faults := {}
  power : Power := {}
  doms : Domains := {}
  sess : Sess := {}
  cache : Cache := {}
  energy : Energy := {}
  vault : VaultRun := {}
  kennel : Kennel := {}
  restore : Restore := {}
  pack : Pack := {}
  cores : List (Nat × Core) := []
  mem : Mem := {}
  eng : Engines := {}
  insts : Insts := {}
  ports : Ports := {}
  dram : Dram := {}
  fuse : Fuse := {}
  part48 : Bool := false
  presPorts : Nat := 0x1111111111111111
  contained : List Nat := []
  out : List Output := []
  free : Nat := 0
  faultQ : List Occ := []
  deriving DecidableEq, Repr

end Sys2Proof.Machine
end

