-- ==== Sys2Proof/Machine/Ops.lean ====
section
/-! DEFINITION. The operations every family shares: dictionary values, outputs, the tick, event records entering the
intake, occurrences of fault sources, NOTIFY, vectors, unit presence and domain states. -/
namespace Sys2Proof.Machine

/-- The key of object `o` at unit `u` in the dictionary store. -/
def dkey (u o : Nat) : Nat := u * 0x1000000 + o

/-- What an unlisted key of the dictionary store reads as: the Default column. -/
def dictD (k : Nat) : Nat := dictDefault (k / 0x1000000) (k % 0x1000000)

/-- The unit at which an object stands when only one unit holds it (Table 17.1). -/
def homeOf (o : Nat) : Nat :=
  if 0x200000 ≤ o ∧ o < 0x280000 then uSup
  else if 0x280000 ≤ o ∧ o < 0x300000 then uDown
  else if 0x400000 ≤ o ∧ o < 0x500000 then uMem
  else if 0x601000 ≤ o ∧ o < 0x602000 then uVault
  else uChip

/-- Value of object `o` at unit `u`. -/
def Dev.gu (d : Dev) (u o : Nat) : Nat := storeGet dictD d.dict (dkey u o)

/-- Value of object `o` at its home unit. -/
def Dev.g (d : Dev) (o : Nat) : Nat := d.gu (homeOf o) o

/-- Sets object `o` at unit `u`. -/
def Dev.su (d : Dev) (u o v : Nat) : Dev := { d with dict := storeSet dictD d.dict (dkey u o) v }

/-- Sets object `o` at its home unit. -/
def Dev.s (d : Dev) (o v : Nat) : Dev := d.su (homeOf o) o v

/-- Adds `n` to object `o` at unit `u`, saturating at `w` bits. -/
def Dev.incU (d : Dev) (u o : Nat) (w : Nat := 32) (n : Nat := 1) : Dev := d.su u o (min (2 ^ w - 1) (d.gu u o + n))

/-- Adds `n` to object `o` at its home unit, saturating at `w` bits. -/
def Dev.inc (d : Dev) (o : Nat) (w : Nat := 32) (n : Nat := 1) : Dev := d.incU (homeOf o) o w n

/-- Value of rail `r`'s object. -/
def Dev.gr (d : Dev) (o r : Nat) : Nat := d.g (oRail o r)

/-- Sets rail `r`'s object. -/
def Dev.sr (d : Dev) (o r v : Nat) : Dev := d.s (oRail o r) v

/-- Byte `i` of an OCTETS object at its home unit. -/
def Dev.gb (d : Dev) (o i : Nat) : Nat := byteOf (d.g o) i

/-- Sets byte `i` of an OCTETS object at its home unit. -/
def Dev.sb (d : Dev) (o i v : Nat) : Dev := d.s o (setField (d.g o) i 1 v)

/-- The value in force of an object that applies at the next power-on (R377, R421). -/
def Dev.ge (d : Dev) (o : Nat) : Nat := storeGet dictD d.eff (dkey (homeOf o) o)

/-- Sets bit `i` of a BITS32 object at its home unit. -/
def Dev.sbit (d : Dev) (o i : Nat) (b : Bool) : Dev := d.s o (setBit (d.g o) i b)

/-- Appends an output. [DESIGN CHOICE, log 9] -/
def Dev.emit (d : Dev) (k : OutKind) (args : List Nat) (data : List Byte := []) : Dev :=
  { d with out := d.out ++ [{ kind := k, args := args, data := data }] }

/-- The 1 MHz tick (R432). -/
def Dev.now (d : Dev) : Nat := d.aon.tick

/-- Takes one free value: the counter's value, and the device with the counter advanced. [DESIGN CHOICE, log 10] -/
def Dev.fresh (d : Dev) : Nat × Dev := (d.free, { d with free := d.free + 1 })

/-- Raises a fault source: the occurrence is handled before the command ends. -/
def Dev.raise (d : Dev) (o : Occ) : Dev := { d with faultQ := d.faultQ ++ [o] }

/-- Raises source `s` with no access behind it. -/
def Dev.fault (d : Dev) (s : Nat) : Dev := d.raise { src := s }

/-- Raises level source `s`, which is live from now on (R390). -/
def Dev.faultLive (d : Dev) (s : Nat) : Dev := d.raise { src := s, live := true }

/-- The condition of a level source ends (R390). -/
def Dev.unlive (d : Dev) (s : Nat) : Dev :=
  { d with faults := { d.faults with live := if d.faults.live.testBit s then d.faults.live - 2 ^ s else d.faults.live } }

/-- The ranks of R403, and whether a code is exempt from the limiter (R406). -/
def codeExempt (code : Nat) : Bool := code = 0x002

/-- Limiter state of a code that has not been used since power-on: full. -/
def noLimit : Nat → Limit := fun _ => { tokens := 0, tick := 0 }

/-- Puts a record into the intake; with the intake full it is suppressed and its code's drop count rises (R406). -/
def Dev.record (d : Dev) (code sev unit : Nat) (p0 p1 p2 p3 : Nat := 0) (cap : Option Nat := none) : Dev :=
  if d.faults.intake.length < 64 then
    { d with faults := { d.faults with intake := d.faults.intake ++
        [{ code := code, sev := sev, unit := unit, p0 := p0 % 2 ^ 32, p1 := p1 % 2 ^ 32, p2 := p2 % 2 ^ 32, p3 := p3 % 2 ^ 32, cap := cap }] } }
  else
    { d with faults := { d.faults with
        limits := storeMod noLimit d.faults.limits code fun l => { l with drop := min 65535 (l.drop + 1) },
        caps := match cap with
          | some s => storeMod noCapture d.faults.caps s fun c => { c with seq := 2 ^ 48 - 1 }
          | none => d.faults.caps } }

/-- The bytes of a message of Table 16.3: header, body, and the MAC of R374 when the session is protected. `dir`: 1 response,
2 notify. -/
def msgBytes (cmd status : Nat) (prot : Bool) (sid reqId counter : Nat) (body : List Byte) : List Byte :=
  leBytes 4 (1 + cmd * 0x100 + status * 0x10000 + ((if prot then 3 else 1) * 0x1000000)) ++ leBytes 2 sid ++ leBytes 2 reqId
    ++ leBytes 2 body.length ++ leBytes 6 counter ++ body

/-- The MAC of R374 over header and body. -/
def sessionMac (s : Session) (dir sid counter : Nat) (hdrBody : List Byte) : List Byte :=
  let prk := hkdfExtract (leBytes 32 s.devNonce ++ leBytes 32 s.reqNonce) (leBytes 32 s.key)
  let info : List Byte := [0x54, 0x5A, 0x44, 0x4D] ++ leBytes 1 dir ++ leBytes 1 sid ++ leBytes 6 counter
  (hmac384 (hkdfExpand48 prk info) hdrBody).take 16

/-- Session slot `i`. -/
def Dev.session (d : Dev) (i : Nat) : Session := storeGet noSession d.sess.slots i

/-- Replaces session slot `i`. -/
def Dev.setSession (d : Dev) (i : Nat) (s : Session) : Dev :=
  { d with sess := { d.sess with slots := storeSet noSession d.sess.slots i s } }

/-- PCIe VDM carries messages while the host link is up and PcieMctpEnable is 1 (R364). [DEDUCED, log 74] -/
def Dev.vdmUp (d : Dev) : Bool := d.insts.link != 0 && d.g oPcieMctpEnable == 1

/-- Sends one NOTIFY to session `i` (R368) on its transport, protected with the Thozu's own counter once the session has been proved. [DEDUCED, log 74] -/
def Dev.notifyTo (d : Dev) (i kind code unit : Nat) : Dev :=
  let s := d.session i
  if s.transport = 1 ∧ ¬ d.vdmUp then d else
  let body := leBytes 2 kind ++ leBytes 2 code ++ leBytes 2 unit ++ leBytes 2 0 ++ leBytes 6 (d.g oEventSeqHead)
    ++ leBytes 6 (d.g oDictChangeCounter)
  let prot := s.role ≠ 0
  let hb := msgBytes 0x0A 0 prot i 0xFFFF (if prot then s.notifyCounter + 1 else 0) body
  let mac := if prot then sessionMac s 2 i (s.notifyCounter + 1) hb else []
  (d.setSession i { s with notifyCounter := if prot then s.notifyCounter + 1 else 0 }).emit .notify
    [i, s.transport, s.eid, kind, code, unit] (hb ++ mac)

/-- Sends NOTIFY to every open session (R368). -/
def Dev.notify (d : Dev) (kind code unit : Nat) : Dev :=
  (List.range 16).foldl (fun d i => if (d.session i).state = 2 then d.notifyTo i kind code unit else d) d

/-- Interrupt vector `v`. -/
def Dev.vec (d : Dev) (v : Nat) : IntVec := storeGet noVec d.insts.vecs v

/-- Replaces vector `v`. -/
def Dev.setVec (d : Dev) (v : Nat) (x : IntVec) : Dev :=
  { d with insts := { d.insts with vecs := storeSet noVec d.insts.vecs v x } }

/-- The MSI-X table and PBA and the Bus Master and MSI-X enables return to their reset values; a pending message stays pending. -/
def Dev.functionReset (d : Dev) : Dev :=
  let vec (n : Nat) (x : IntVec) : IntVec := if n < 2048 then { pending := x.pending } else x
  { d with insts := { d.insts with msix := false, busMaster := false, vecs := storeMapV noVec vec d.insts.vecs } }

/-- The host port's configuration space, MSI-X table and PBA return to their reset values (R415), and the link retrains. -/
def Dev.hostPortReset (d : Dev) : Dev :=
  let d := d.functionReset
  { d with insts := { d.insts with link := 0, linkGen := 0, linkWidth := 0 } }

/-- The entry of instance `i` (Table 11.3). -/
def Dev.inst (d : Dev) (i : Nat) : BitVec 512 := storeGet instDefault d.insts.table i

/-- Bytes `off` to `off + len − 1` of a little-endian table entry. -/
def ent {w : Nat} (e : BitVec w) (off len : Nat) : Nat := fieldOf e.toNat off len

/-- An entry with `len` bytes at `off` replaced. -/
def setEnt {w : Nat} (e : BitVec w) (off len v : Nat) : BitVec w := BitVec.ofNat w (setField e.toNat off len v)

/-- State of instance `i`: 0 FREE, 1 ACTIVE, 2 RESETTING, 3 REMOVING. -/
def Dev.instState (d : Dev) (i : Nat) : Nat := ent (d.inst i) 2 1
/-- Current generation of instance `i`. -/
def Dev.instGen (d : Dev) (i : Nat) : Nat := ent (d.inst i) 3 1

/-- Sets `len` bytes at `off` of instance `i`'s entry. -/
def Dev.setInst (d : Dev) (i off len v : Nat) : Dev :=
  { d with insts := { d.insts with table := storeMod instDefault d.insts.table i fun e => setEnt e off len v } }

/-- The PASID that traffic of instance `i` carries (Table 11.3, R221): all ones where its entry names none. -/
def Dev.pasid (d : Dev) (i : Nat) : Nat := if (ent (d.inst i) 0x0B 1).testBit 0 then ent (d.inst i) 4 4 else 2 ^ 32 - 1

/-- Presence of a unit (R2, R16, R278, R294): a TZ6448 has no clusters and no ports in quadrant 3; ports follow GroupWidth;
a DRAM channel is present when populated. -/
def Dev.present (d : Dev) (u : Nat) : Bool :=
  let k := kindOf u
  if k = 0xFF then false
  else if (k = 0x02 ∨ k = 0x03 ∨ k = 0x04) ∧ d.part48 ∧ 0x1300 ≤ u then false
  else if k = 0x0F then d.presPorts.testBit (u - 0x2280) ∧ ¬ (d.part48 ∧ u ≥ 0x22B0)
  else if k = 0x11 then (storeGet noChan d.dram.chans (u - 0x2380)).populated
  else true

/-- Present children of `u` in up order. -/
def Dev.kids (d : Dev) (u : Nat) : List Nat := (upKids u).filter d.present

/-- The power domain of unit `u`. -/
def Dev.dom (d : Dev) (u : Nat) : Domain := storeGet domOn d.doms.doms u

/-- DomainState of a unit with a domain of its own (Table 15.1). A DRAM channel that is absent or quarantined is OFF. -/
def Dev.domSt (d : Dev) (u : Nat) : Nat := (d.dom u).st

/-- DomainState as read (R342): groups without a domain are ON, RET or OFF by their children. -/
def Dev.domainState (d : Dev) (u : Nat) : Nat :=
  if hasDomain u then d.domSt u
  else
    let ks := ((upOrder u).drop 1).filter fun c => hasDomain c && d.present c
    if ks.any fun c => d.domSt c = 0 ∨ d.domSt c ≥ 3 then 0
    else if ks.any fun c => d.domSt c = 1 then 1 else 2

/-- True while the unit, or an ancestor, is locked off by DomainLock (R349). -/
def Dev.lockedOff (d : Dev) (u : Nat) : Bool := (u :: ancestors u).any fun x => d.gu x oDomainLock = 1

/-- True while the unit or an ancestor is contained (R392) or quarantined (R398). -/
def Dev.isolated (d : Dev) (u : Nat) : Bool :=
  (u :: ancestors u).any fun x => d.contained.contains x || d.gu x oUnitQuarantine = 1

/-- The DRAM channel `n`. -/
def Dev.chan (d : Dev) (n : Nat) : Chan := storeGet noChan d.dram.chans n

/-- Home unit of source `s` (Tables 18.1 and 18.1B); no unit for an unassigned number. -/
def homeUnit (s : Nat) : Nat :=
  if s ≤ 1 then uFabric else if s = 2 then uSup else if s = 3 then uAon else if s = 4 then uChip else if s ≤ 6 then uAon
  else if s = 7 then uVault else if s ≤ 10 then uMem else if s ≤ 12 then uChip else if s ≤ 15 then uHost else if s = 16 then uDown
  else if s = 17 then uVault else if s ≤ 23 then uChip else if s ≤ 26 then uVault else if s ≤ 30 then uChip else if s = 31 then uMem
  else if s < 40 then uSlice (s % 4) else if s < 48 then uQuad (s % 4) else if s < 52 then uSram (s % 4) else if s < 56 then uQuad (s % 4)
  else if s < 72 then uL2 ((s - 56) / 4) ((s - 56) % 4)
  else if s < 136 then uCoreN (s - 72) else if s < 200 then uCoreN (s - 136) else if s < 264 then uCoreN (s - 200)
  else if s < 280 then uDmaN (s - 264) else if s < 300 then uEngN (s - 280) else if s < 316 then uDmaN (s - 300) else if s < 336 then uEngN (s - 316)
  else if s < 400 then uPort (s - 336) else if s < 464 then uPort (s - 400)
  else if s < 496 then uChan (s % 8) else if s < 528 then uVchan (s % 16)
  else if s < 648 then uSup
  else if s = 648 then uHost else if s < 653 then uDown else if s < 657 then uQuad (s - 653) else if s = 657 then uFabric
  else if s < 666 then uChan (s - 658) else if s = 666 then uVault else if s = 667 then uSup else if s < 670 then uAon else noUnit

/-- An S2 in force, or quarantine, isolates the unit or a group it lies in. -/
def Dev.readsContained (d : Dev) (u : Nat) : Bool := (u :: ancestors u).any fun x => d.contained.contains x

/-- A unit's own fault status (R398, R312). -/
def Dev.ownStatus (d : Dev) (u : Nat) : Nat :=
  if d.faults.inforce.any fun x => x.unit = u ∧ x.cls = 3 then 5
  else if d.gu u oUnitQuarantine = 1 ∨ (kindOf u = 0x11 ∧ (d.chan (u - 0x2380)).st = 5) then 4
  else if d.readsContained u then 3
  else if d.faults.inforce.any fun x => x.unit = u ∧ x.cls = 1 then 2
  else if d.faults.caps.any fun p => p.2.latched ∧ p.2.cls = 0 ∧ homeUnit p.1 = u then 1
  else 0

/-- Unit `u` is of this part's numbering and absent (R2). -/
def Dev.unitGone (d : Dev) (u : Nat) : Bool := kindOf u ≠ 0xFF ∧ ¬ d.present u

/-- A group reads unit `x` as its domain last left ON: it is RET or OFF (R21). -/
def Dev.readsHeld (d : Dev) (x : Nat) : Bool := d.domSt x = 1 ∨ d.domSt x = 2

/-- The value that a group goes on counting for unit `u` while its domain is RET or OFF (R21): its status (R22), its occupied job slots or suspended
channels, and its other counters as the dictionary holds them. -/
def Dev.heldOf (d : Dev) (u : Nat) : List (Nat × Nat) :=
  (d.dict.filter fun p => p.1 / 0x1000000 = u) ++
    [(dkey u oFaultStatus, d.ownStatus u),
     (dkey u oSlotsBusy, (d.eng.slots.filter fun p => p.2.job.isSome ∧ uEngN (p.1 / 16) = u).length),
     (dkey u oDmaSuspended, (d.mem.chans.filter fun p => p.2.desc.any (·.status = 2) ∧ uDmaN (p.1 / 64) = u).length)]

/-- A domain that was ON, or leaving it, and is so no more. -/
def leftOn (old new : Domain) : Bool := (old.st = 0 ∨ old.st = 4) ∧ (new.st = 1 ∨ new.st = 2)

/-- The held values after unit `u` goes from one domain state to another: taken anew as it leaves ON. -/
def Dev.keepVals (d : Dev) (u : Nat) (x : Domain) : List (Nat × Nat) :=
  if leftOn (d.dom u) x then (d.heldOf u).foldl (fun l p => storeSet dictD l p.1 p.2) (d.doms.heldVals.filter fun p => p.1 / 0x1000000 ≠ u)
  else d.doms.heldVals

/-- Replaces the domain of unit `u`; as it leaves ON, the unit's counters and status are held for its groups (R21). -/
def Dev.setDom (d : Dev) (u : Nat) (x : Domain) : Dev :=
  { d with doms := { d.doms with doms := storeSet domOn d.doms.doms u x, heldVals := d.keepVals u x } }

/-- The value of object `o` that unit `x` held when its domain last left ON. -/
def Dev.heldVal (d : Dev) (x o : Nat) : Nat := storeGet dictD d.doms.heldVals (dkey x o)

/-- Replaces DRAM channel `n`; a change of ChannelState is recorded (Table 18.6). -/
def Dev.setChan (d : Dev) (n : Nat) (c : Chan) : Dev :=
  let old := (d.chan n).st
  let d := { d with dram := { d.dram with chans := storeSet noChan d.dram.chans n c } }
  if old = c.st then d else d.record 0x900 0 (uChan n) old c.st 0 0

/-- Channel `n` is in service: IN-SERVICE or SELF-REFRESH (Table 13.8); a channel under rescue has left the pools (R312). -/
def Dev.inService (d : Dev) (n : Nat) : Bool := let s := (d.chan n).st; s = 2 ∨ s = 3

/-- VaultState (Table 4.2). -/
def Dev.vst (d : Dev) : Nat := d.g oVaultState

/-- SupervisorState (Table 14.6). -/
def Dev.sup (d : Dev) : Nat := d.g oSupervisorState

/-- True from FREEZE until RESCIND ends or the next WAKE (R91). -/
def Dev.inVault (d : Dev) : Bool := let s := d.vst; (2 ≤ s ∧ s ≤ 7) ∨ s = 9

/-- The machine is quiet: from FREEZE until RESCIND ends or the next WAKE, or while a drill runs (R88, R72). -/
def Dev.quiet (d : Dev) : Bool := d.inVault || d.energy.drill.step ≠ 0

/-- True while the host port issues no completion: from FREEZE on (Table 4.5), and after an image restore until the host has
set MSI-X Enable and Bus Master Enable (R149). -/
def Dev.hostHeld (d : Dev) : Bool := d.quiet || d.restore.hold

/-- Signals vector `v` of instance `i` (R269): a posted write with the entry's address and data, or its pending bit when it is masked or the host port
issues no completion. -/
def Dev.vector (d : Dev) (i v : Nat) : Dev :=
  if v < ent (d.inst i) 0x1A 2 then
    let n := ent (d.inst i) 0x18 2 + v
    let x := d.vec n
    if x.mask ∨ (n < 2048 ∧ ¬ d.insts.msix) ∨ d.hostHeld then d.setVec n { x with pending := true }
    else d.emit .vector [n, x.addr, x.data, if x.pasid then d.pasid i else 2 ^ 32 - 1]
  else d

/-- True while the chip is HALTED (R394). -/
def Dev.halted (d : Dev) : Bool := d.faults.s3.isSome

/-- Cores present. -/
def Dev.coreNos (d : Dev) : List Nat := List.range (if d.part48 then 48 else 64)

/-- Core `n`. -/
def Dev.core (d : Dev) (n : Nat) : Core := storeGet coreReset d.cores n

/-- Replaces core `n`. -/
def Dev.setCore (d : Dev) (n : Nat) (c : Core) : Dev := { d with cores := storeSet coreReset d.cores n c }

/-- Sends a firmware message to the supervisor (Table 18.2). -/
def Dev.fwMessage (d : Dev) (args : List Nat) : Dev := d.emit .message args

/-- The highest image sequence of R123's three values. -/
def Dev.seqTop (d : Dev) : Nat :=
  let s (x : Slot) : Nat := match x.image with | some i => i.seq | none => 0
  max (max (d.g oImageSeqHigh) d.kennel.seqFloor) (max (s d.kennel.a) (s d.kennel.b))

/-- The next image sequence is set anew (R123). -/
def Dev.nextImage (d : Dev) : Dev := { d with kennel := { d.kennel with nextSeq := d.seqTop + 1 } }

/-- ImageSeqHigh takes the next image sequence, at FREEZE and at the start of a drill (R123); a sequence used since it was set is not used again. -/
def Dev.useSeq (d : Dev) : Dev := d.s oImageSeqHigh (max d.kennel.nextSeq (d.seqTop + 1))

/-- The new VaultState with its event, NOTIFY and LastOutage entry made by the caller (R86, R368, Table 18.6); at ARMED or UNARMED the next image
sequence is set (R123). -/
def Dev.setVaultState (d : Dev) (s : Nat) : Dev :=
  let o := d.vst
  if o = s then d
  else
    let d := ((d.s oVaultState s).record 0x501 0 uChip o s (byteOf (d.g oLastOutage) 2) 0).notify 0x03 s uChip
    if s ≤ 1 then d.nextImage else d

/-- LastOutage with its Check rewritten (Table 4.9). -/
def withCheck (l : Nat) : Nat := setField l 0x1C 4 (crc32c (leBytes 0x1C l))

/-- Writes `len` bytes at `off` of LastOutage and rewrites its Check. -/
def Dev.outage (d : Dev) (off len v : Nat) : Dev := d.s oLastOutage (withCheck (setField (d.g oLastOutage) off len v))

/-- Raises FurthestState to `s` (Table 4.9: 0x02 FREEZE to 0x08 DARK). -/
def Dev.furthest (d : Dev) (s : Nat) : Dev :=
  if 2 ≤ s ∧ s ≤ 8 ∧ byteOf (d.g oLastOutage) 1 < s then d.outage 1 1 s else d

end Sys2Proof.Machine
end

