-- ==== Sys2Proof/Machine/Wake.lean ====
section
/-! DEFINITION. Waking a power domain (R347, R348, R350, R351): requests, the inrush queue and its bucket. -/
namespace Sys2Proof.Machine

/-- The inrush bucket refilled to now (R351): InrushRefill µC per ms is the same number of nC per µs. -/
def Dev.refill (d : Dev) : Dev :=
  let lvl := min (d.g oInrushCapacity * 1000) (d.doms.level + (d.now - d.doms.levelTick) * d.g oInrushRefill)
  { d with doms := { d.doms with level := lvl, levelTick := d.now } }

/-- The charge a wake of unit `u` draws, in nC: by the state it leaves (R351). -/
def Dev.wakeCharge (d : Dev) (u : Nat) : Nat :=
  (if (d.dom u).st = 1 then d.gu u oInrushChargeRet else d.gu u oInrushCharge) * 1000

/-- Puts a wake of unit `u` into the inrush queue, or raises the class of the one already there, keeping its arrival. -/
def Dev.enqueueWake (d : Dev) (u cls : Nat) : Dev :=
  if d.doms.queue.any (·.unit = u) then
    { d with doms := { d.doms with queue := mapIf (·.unit = u) (fun r => { r with cls := min r.cls cls }) d.doms.queue } }
  else
    { d with doms := { d.doms with queue := d.doms.queue ++ [{ unit := u, cls := cls, arrival := d.now }] } }

/-- Ancestors of `u` that have a domain, top first. -/
def domAncestors (u : Nat) : List Nat := ((ancestors u).filter hasDomain).reverse

/-- Every ancestor domain is ON (R342). -/
def Dev.parentsOn (d : Dev) (u : Nat) : Bool := (domAncestors u).all fun a => d.domSt a = 0

/-- SAVE of the entry of a domain has ended (R344): 7 µs after it was committed. [DESIGN CHOICE, log 33] -/
def Dev.entrySaved (d : Dev) (x : Domain) : Bool := x.since + 7 ≤ d.now

/-- An entry aborts back to ON from its stop boundary (Table 15.5, R309). -/
def Dev.entryAbort (d : Dev) (u : Nat) : Dev :=
  let d := (d.setDom u { d.dom u with st := 0, entry := none, later := none, arr := none }).incU u oEntryAborts
  let d := if kindOf u = 0x11 then d.incU u oSelfRefreshAborts else d
  let d := d.su u oLastRefuser u
  { d with doms := { d.doms with resumes := d.doms.resumes ++ [u] } }

/-- Requests ON for one domain in wake class `cls` (Table 15.5 for a domain in transition). -/
def Dev.wakeOne (d : Dev) (cls u : Nat) : Dev :=
  let x := d.dom u
  if x.st = 0 then d
  else if x.st = 4 then (if d.entrySaved x ∧ kindOf u ≠ 0x11 then d.setDom u { x with later := some 0, demand := x.demand || cls ≤ 2 } else d.entryAbort u)
  else if x.st = 3 then d.setDom u { x with later := none }
  else if d.parentsOn u then d.enqueueWake u cls
  else d.setDom u { x with later := some 0, demand := x.demand || cls ≤ 2 }

/-- Requests ON for `u` and every ancestor domain that is not ON, from the top down (R348). -/
def Dev.requestOn (d : Dev) (cls u : Nat) : Dev :=
  ((domAncestors u ++ [u]).filter hasDomain).foldl (Dev.wakeOne · cls) d

/-- A demand wake of `u` (R348): counted when the domain is RET or OFF. -/
def Dev.demandWake (d : Dev) (u : Nat) : Dev :=
  let fresh := d.domSt u = 1 ∨ d.domSt u = 2
  let joined := d.doms.queue.any (·.unit = u) ∨ (d.dom u).later = some 0
  let d := if fresh ∧ ¬ joined then d.incU u oDemandWakes 64 else d
  let d := if (d.dom u).arr.isNone then d.setDom u { d.dom u with arr := some d.now } else d
  d.requestOn 2 u

/-- The whole path from `u` to the chip is ON. -/
def Dev.pathOn (d : Dev) (u : Nat) : Bool := ((u :: ancestors u).filter hasDomain).all fun a => d.domSt a = 0

/-- What a transaction without VaultPath meets at a unit whose domain is not ON (R90, R348, R349): refused while locked off or
from FREEZE until SEAL ends, else stalled on a demand wake. -/
inductive Gate where
  | open_
  | refused (d : Dev)
  | stall (d : Dev)

/-- The gate of unit `u`: its own domain and every ancestor's (R342). -/
def Dev.gate (d : Dev) (u : Nat) : Gate :=
  if d.isolated u then .refused d
  else if d.lockedOff u then .refused (d.incU u oLockedRefusals)
  else if d.pathOn u then .open_
  else if 2 ≤ d.vst ∧ d.vst ≤ 6 then .refused (d.inc oRefusedWakes)
  else if d.halted then .refused d
  else .stall (d.demandWake u)

/-- The classes of R351 order the queue: a wake of a lower class number goes first, then the earlier arrival. -/
def headWake : List InrushReq → Option InrushReq
  | [] => none
  | r :: l => match headWake l with
    | none => some r
    | some h => if h.cls < r.cls then some h else some r

end Sys2Proof.Machine
end

