-- ==== Sys2Proof/Machine/Phys.lean ====
section
/-! DEFINITION. Physical memory: DRAM by channel (R296), core scratch (R184), Poison by line (R30), non-resident data
(R142, R214), and what an access meets before it reaches its bytes. -/
namespace Sys2Proof.Machine

/-- What an access meets. `ok`: the location, the VaultClass of its page and the device after the translation caches were
filled; `trap`: a synchronous trap with code, Detail and value; `wait`: abandoned with no effect, to be retried (restore
fault R142, demand wake R348); `gone`: old-generation traffic, discarded (R206). -/
inductive Acc where
  | ok (loc cls : Nat) (d : Dev)
  | trap (code detail value : Nat) (d : Dev)
  | wait (d : Dev)
  | gone (d : Dev)

/-- Location of byte `off` of core `n`'s local scratch: above every physical address. -/
def scratchLoc (n off : Nat) : Nat := 2 ^ 40 + n * 2 ^ 18 + off

/-- Location of byte `off` of quadrant `q`'s SRAM. -/
def sramLoc (q off : Nat) : Nat := 2 ^ 41 + q * 2 ^ 25 + off

/-- The residency-map bit of a location (R214): one per 4 KiB DRAM frame, one per 64 KiB of scratch and SRAM. -/
def resKey (loc : Nat) : Nat := if loc < 2 ^ 40 then loc / 2 ^ 12 else 2 ^ 28 + (loc - 2 ^ 40) / 2 ^ 16

/-- DRAM channel of a physical address (R296). -/
def chanOf (pa : Nat) : Nat := pa / 2 ^ 35

/-- A channel that serves accesses: IN-SERVICE, SELF-REFRESH or RESCUING (Table 13.8). -/
def Dev.serving (d : Dev) (n : Nat) : Bool := let s := (d.chan n).st; s = 2 ∨ s = 3 ∨ s = 4

/-- The physical address exists (R296). -/
def Dev.paOk (d : Dev) (pa : Nat) : Bool :=
  chanOf pa < 8 ∧ (d.chan (chanOf pa)).populated ∧ pa % 2 ^ 35 < (d.chan (chanOf pa)).cap * 2 ^ 20

/-- Populated DRAM channels. -/
def Dev.populated (d : Dev) : Nat := ((List.range 8).filter fun n => (d.chan n).populated).length

/-- fw_c of R297: a channel's share of the firmware reservation. -/
def Dev.fwShare (d : Dev) : Nat := 2147483648 / d.populated

/-- prog_c of R297: the program reservation of channel `n`, above its firmware share. -/
def Dev.progBytes (d : Dev) (n : Nat) : Nat := d.ge oProgramReserve * ((d.chan n).cap * 2 ^ 20) / 64

/-- One byte at a location. [DESIGN CHOICE, log 6] -/
def Dev.peek (d : Dev) (loc : Nat) : Byte :=
  if loc < 2 ^ 40 then storeGet zeroByte d.mem.dram loc
  else if loc < 2 ^ 41 then storeGet zeroByte (d.core ((loc - 2 ^ 40) / 2 ^ 18)).scratch (loc % 2 ^ 18)
  else storeGet zeroByte d.mem.sram (loc - 2 ^ 41)

/-- Stores one byte at a location. [DESIGN CHOICE, log 6] -/
def Dev.poke (d : Dev) (loc : Nat) (b : Byte) : Dev :=
  if loc < 2 ^ 40 then { d with mem := { d.mem with dram := storeSet zeroByte d.mem.dram loc b } }
  else if loc < 2 ^ 41 then
    let n := (loc - 2 ^ 40) / 2 ^ 18
    let c := d.core n
    d.setCore n { c with scratch := storeSet zeroByte c.scratch (loc % 2 ^ 18) b }
  else { d with mem := { d.mem with sram := storeSet zeroByte d.mem.sram (loc - 2 ^ 41) b } }

/-- `n` bytes from a location. -/
def Dev.peekN (d : Dev) (loc n : Nat) : List Byte := (List.range n).map fun i => d.peek (loc + i)

/-- Stores bytes from a location on. -/
def Dev.pokeN (d : Dev) (loc : Nat) : List Byte → Dev
  | [] => d
  | b :: r => (d.poke loc b).pokeN (loc + 1) r

/-- A little-endian value of `n` bytes. -/
def Dev.peekLe (d : Dev) (loc n : Nat) : Nat := leNat (d.peekN loc n)

/-- Stores a little-endian value of `n` bytes. -/
def Dev.pokeLe (d : Dev) (loc n v : Nat) : Dev := d.pokeN loc (leBytes n v)

/-- A 64-byte line that carries Poison (R30). [DEDUCED, log 26] -/
def Dev.poisoned (d : Dev) (loc n : Nat) : Bool :=
  loc < 2 ^ 40 ∧ d.mem.poison.any fun l => loc / 64 ≤ l ∧ l ≤ (loc + n - 1) / 64

/-- Rewriting whole lines clears their Poison mark; a partial write leaves it. [DEDUCED, log 26] -/
def Dev.cleanPoison (d : Dev) (loc n : Nat) : Dev :=
  { d with mem := { d.mem with poison := d.mem.poison.filter fun l => ¬ (loc ≤ l * 64 ∧ l * 64 + 64 ≤ loc + n) } }

/-- Marks the 64-byte line at `loc` as carrying Poison (R30). -/
def Dev.markPoison (d : Dev) (loc : Nat) : Dev :=
  if d.mem.poison.contains (loc / 64) then d else { d with mem := { d.mem with poison := d.mem.poison ++ [loc / 64] } }

/-- A restore fault of `who` on a residency bit (R142, R214): counted once for the access until it is retried, and its segment asked for. [DEDUCED, log 35] -/
def Dev.restoreFault (d : Dev) (key who : Nat) : Dev :=
  if d.restore.asked.contains (key, who) then d
  else
    let d := d.inc oFetchMisses 64
    { d with restore := { d.restore with asked := d.restore.asked ++ [(key, who)] } }

/-- What the physical path of an access gives. -/
inductive Path where
  | ready
  | bad (d : Dev)     -- an error response, which carries Poison (R296, R349, R28)
  | wait (d : Dev)

/-- The physical path to a location (R142, R296, R348, R349): the address exists, its channel serves and is
awake, and the data is resident. -/
def Dev.path (d : Dev) (loc acc iu ii tag : Nat) : Path :=
  if loc < 2 ^ 40 then
    let n := chanOf loc
    let u := uChan n
    if ¬ d.paOk loc then .bad (d.raise { src := 9, acc := acc, iUnit := iu, iInst := ii, addr := loc, tag := tag })
    else if ¬ d.serving n then .bad d
    else match d.gate u with
    | .refused d => .bad d
    | .stall d => .wait d
    | .open_ => if d.mem.resid.contains (resKey loc) then .wait (d.restoreFault (resKey loc) tag)
    else .ready
  else if d.mem.resid.contains (resKey loc) then .wait (d.restoreFault (resKey loc) tag)
  else .ready

/-- Units that an access to location `loc` concerns. -/
def locUnits (loc : Nat) : List Nat :=
  if loc < 2 ^ 40 then [uChan (chanOf loc), uMem, uFabric] else if loc < 2 ^ 41 then [uCoreN ((loc - 2 ^ 40) / 2 ^ 18)] else [uSram ((loc - 2 ^ 41) / 2 ^ 25)]

/-- Sources that report a data error (R401). -/
def dataSource (s : Nat) : Bool := (32 ≤ s ∧ s < 36) ∨ (48 ≤ s ∧ s < 52) ∨ (56 ≤ s ∧ s < 72) ∨ (464 ≤ s ∧ s < 472)

/-- An access of `n` bytes at `loc` meets the faults armed for `units` (R401): they are raised with it, its tag carries Injected, and its data
Poison when a source reports a data error. -/
def Dev.spring (d : Dev) (units : List Nat) (loc n acc iu ii tag : Nat) : Bool × Dev :=
  let hit := fun (a : Occ × Nat) => decide (loc ≤ a.1.addr ∧ a.1.addr < loc + n) && units.contains a.2
  let l := d.faults.armed.filter hit
  if l.isEmpty then (false, d)
  else
    let d := { d with faults := { d.faults with armed := d.faults.armed.filter fun a => !hit a } }
    (l.any fun a => dataSource a.1.src, l.foldl (fun d a =>
      d.raise { a.1 with acc := acc, iUnit := iu, iInst := ii, tag := setBit (if dataSource a.1.src then setBit tag 3 true else tag) 2 true }) d)

/-- A transfer tag (Table 1.8), with Poison, Injected and VaultPath 0. -/
def mkTag (inst gen sc vc od su stream : Nat) (fence : Bool) : Nat :=
  inst % 2 ^ 12 * 2 ^ 52 + gen % 2 ^ 8 * 2 ^ 44 + sc % 4 * 2 ^ 42 + vc % 4 * 2 ^ 40 + od % 2 ^ 8 * 2 ^ 32
    + su % 2 ^ 16 * 2 ^ 16 + stream % 2 ^ 12 * 2 ^ 4 + (if fence then 2 else 0)

/-- InstanceId of a tag. -/
def tagInst (tag : Nat) : Nat := tag / 2 ^ 52 % 2 ^ 12

/-- A tag with the VaultClass `vc` of the page it writes (R211). -/
def tagClass (tag vc : Nat) : Nat := tag - tag / 2 ^ 40 % 4 * 2 ^ 40 + vc % 4 * 2 ^ 40

/-- A tag with Poison set by the unit that found the data bad (R30). -/
def tagPoison (tag : Nat) : Nat := setBit tag 3 true

/-- A tag whose data is bad when `bad` holds. -/
def tagIf (bad : Bool) (tag : Nat) : Nat := if bad then tagPoison tag else tag

/-- The tag that unit `u` gives flow `stream` of instance `i`: the instance's generation and ServiceClass, and the defaults of Table 1.8 elsewhere
(R32). -/
def Dev.flowTag (d : Dev) (i u stream : Nat) : Nat := mkTag i (d.instGen i) (ent (d.inst i) 0x0A 1) 0 0 u stream false

/-- Physical address of the machine-state region (R225). [DESIGN CHOICE, log 79] -/
def msBase : Nat := Config.msFrame.toNat * 2 ^ 12

/-- Physical address of the save area of context `k` in the machine-state region (Table 9.7). [DESIGN CHOICE, log 79] -/
def saveAt (k : Nat) : Nat := msBase + k * 4096

/-- The context whose save area stands at `pa`: by its place in the region, elsewhere as the area `field` says (R201). -/
def areaCtx (pa field : Nat) : Nat := if msBase ≤ pa ∧ pa < msBase + 2 ^ 22 then (pa - msBase) / 4096 else field

/-- Context `c` of the context table. -/
def Dev.ctx (d : Dev) (c : Nat) : Context := storeGet noContext d.mem.contexts c

/-- Replaces context `c`. -/
def Dev.setCtx (d : Dev) (c : Nat) (x : Context) : Dev :=
  { d with mem := { d.mem with contexts := storeSet noContext d.mem.contexts c x } }

end Sys2Proof.Machine
end

