-- ==== Sys2Proof/Machine/Queue.lean ====
section
/-! DEFINITION. Queue pairs (R263 to R269): descriptor fields, posted writes under the generation fence, completion entries,
status lines and the vectors that follow them. -/
namespace Sys2Proof.Machine

/-- The descriptor of queue pair `i` (Table 11.6). -/
def Dev.q (d : Dev) (i : Nat) : BitVec 512 := storeGet queueDefault d.insts.queues i

/-- Replaces the descriptor of queue pair `i`. -/
def Dev.setQ (d : Dev) (i : Nat) (e : BitVec 512) : Dev :=
  { d with insts := { d.insts with queues := storeSet queueDefault d.insts.queues i e } }

/-- Run-time state of queue pair `i` (R275). -/
def Dev.qs (d : Dev) (i : Nat) : QState := storeGet noQState d.insts.qstate i

/-- Replaces the run-time state of queue pair `i`. -/
def Dev.setQs (d : Dev) (i : Nat) (x : QState) : Dev :=
  { d with insts := { d.insts with qstate := storeSet noQState d.insts.qstate i x } }

/-- Kind: 0 UNUSED, 1 HOST, 2 ENGINE, 3 PROGRAM. -/
def qKind (e : BitVec 512) : Nat := ent e 2 1
/-- State: 0 IDLE, 1 LIVE, 2 ERROR. -/
def qState (e : BitVec 512) : Nat := ent e 3 1
/-- Owner. -/
def qInst (e : BitVec 512) : Nat := ent e 4 2
/-- Doorbell slot. -/
def qSlot (e : BitVec 512) : Nat := ent e 6 2
/-- SqBase. -/
def qSqBase (e : BitVec 512) : Nat := ent e 8 8
/-- CqBase. -/
def qCqBase (e : BitVec 512) : Nat := ent e 0x10 8
/-- SqEntries. -/
def qSqEntries (e : BitVec 512) : Nat := ent e 0x18 4
/-- CqEntries. -/
def qCqEntries (e : BitVec 512) : Nat := ent e 0x1C 4
/-- Binding: engine unit or ContextId. -/
def qBinding (e : BitVec 512) : Nat := ent e 0x20 2
/-- Vector within the owner's range. -/
def qVector (e : BitVec 512) : Nat := ent e 0x22 2
/-- OrderingDomain of the queue. -/
def qDomain (e : BitVec 512) : Nat := ent e 0x24 1
/-- Location: 0 HOST, 1 CONTEXT. -/
def qLoc (e : BitVec 512) : Nat := ent e 0x25 1
/-- OwnerContext. -/
def qOwner (e : BitVec 512) : Nat := ent e 0x26 2
/-- InboxVa. -/
def qInboxVa (e : BitVec 512) : Nat := ent e 0x28 8
/-- InboxEntries. -/
def qInboxEntries (e : BitVec 512) : Nat := ent e 0x30 2

/-- Sets `len` bytes at `off` of queue `i`'s descriptor. -/
def Dev.setQf (d : Dev) (i off len v : Nat) : Dev := d.setQ i (setEnt (d.q i) off len v)

/-- Queue pairs of instance `inst` that are not UNUSED. -/
def Dev.queuesOf (d : Dev) (inst : Nat) : List Nat :=
  (d.insts.queues.filter fun p => qKind p.2 ≠ 0 ∧ qInst p.2 = inst).map (·.1)

/-- The queue pair that uses doorbell slot `slot` of instance `inst` (R263). -/
def Dev.queueAt (d : Dev) (inst slot kind : Nat) : Option Nat :=
  (d.insts.queues.find? fun p => (if kind = 0 then qKind p.2 ≠ 0 else qKind p.2 = kind) ∧ qInst p.2 = inst ∧ qSlot p.2 = slot).map (·.1)



/-- A posted write to the host carrying generation `gen` of instance `inst` (R272): dropped and counted when the generation
is old, withheld while completions are stopped, else sent. -/
def Dev.hostPost (d : Dev) (inst gen : Nat) (k : OutKind) (args : List Nat) (data : List Byte) : Dev :=
  if gen ≠ d.instGen inst then d.inc oFencedDrops 64
  else if d.hostHeld then
    { d with insts := { d.insts with withheld := d.insts.withheld ++ [{ kind := k, args := args, data := data }] } }
  else d.emit k args data

/-- Reset and share state of instance `i`. -/
def Dev.irun (d : Dev) (i : Nat) : InstRun := storeGet noInstRun d.insts.run i

/-- Replaces the reset and share state of instance `i`. -/
def Dev.setIrun (d : Dev) (i : Nat) (x : InstRun) : Dev := { d with insts := { d.insts with run := storeSet noInstRun d.insts.run i x } }

/-- A non-posted request of the current generation of instance `i` is issued to the host now (R274). -/
def Dev.noteRequest (d : Dev) (i : Nat) : Dev :=
  let x := d.irun i
  d.setIrun i { x with lastIssue := storePut x.lastIssue (d.instGen i) d.now }

/-- Signals the vector of queue `i` (R269). -/
def Dev.queueVector (d : Dev) (i : Nat) : Dev :=
  let e := d.q i
  let v := qVector e
  if v = 0xFFFF then d else d.vector (qInst e) v

/-- Raises INTERRUPT with `detail` on core `n` (Table 12: 0 doorbell, 1 DMA, 2 engine, 3 firmware message). -/
def Dev.interrupt (d : Dev) (n detail : Nat) : Dev :=
  let c := d.core n
  d.setCore n { c with irqs := if c.irqs.contains detail then c.irqs else c.irqs ++ [detail] }

/-- The core a context runs on. -/
def Dev.coreOfCtx (d : Dev) (c : Nat) : Option Nat :=
  if 1024 ≤ c then none else d.coreNos.find? fun n => (d.core n).ctxid.toNat = c

/-- Raises INTERRUPT for context `c` on the core it runs on, else on the first core of its quadrants that is ON. [DEDUCED, log 27] -/
def Dev.interruptCtx (d : Dev) (c detail : Nat) : Dev :=
  match d.coreOfCtx c with
  | some n => d.interrupt n detail
  | none => match d.coreNos.find? fun n => d.pathOn (uCoreN n) with
    | some n => d.interrupt n detail
    | none => d

/-- A completion entry of `size` bytes at the tail of queue `i`'s completion ring (R266), carrying generation `gen`. Rings in
host memory are written as posted writes; rings of a context are written through `put`, the store into its address space. `irq`: whether the entry signals
(IrqOnDone of a descriptor or job). In a context's ring only completions of DMA and offload engines raise INTERRUPT, with `detail` 1 or 2.
A ring whose consumer has not moved its head is written on. [DESIGN CHOICE, log 89] -/
def Dev.postCq (d : Dev) (i size gen : Nat) (entry : List Byte) (put : Dev → Nat → Nat → List Byte → Dev) (detail : Nat) (irq : Bool := true) : Dev :=
  let e := d.q i
  let s := d.qs i
  let at_ := qCqBase e + size * s.cqTail
  let tail := if s.cqTail + 1 = qCqEntries e then 0 else s.cqTail + 1
  let phase := if s.cqTail + 1 = qCqEntries e then !s.phase else s.phase
  let status := leBytes 4 s.sqHead ++ leBytes 4 tail ++ List.replicate 56 0
  if gen ≠ d.instGen (qInst e) then d.inc oFencedDrops 64
  else if qLoc e = 1 then
    let d := put d (qOwner e) at_ entry
    let d := put d (qOwner e) (qCqBase e - 64) status
    let d := d.setQs i { s with cqTail := tail, phase := phase, outstanding := s.outstanding - 1 }
    if irq ∧ detail ≠ 0 then d.interruptCtx (qOwner e) detail else d
  else
    let d := d.hostPost (qInst e) gen .cqe [i, at_] entry
    let d := if qKind e = 1 then d else d.hostPost (qInst e) gen .hostWrite [qInst e, qCqBase e - 64] status
    let d := d.setQs i { s with cqTail := tail, phase := phase, outstanding := s.outstanding - 1 }
    if irq then d.queueVector i else d

end Sys2Proof.Machine
end

