-- ==== Sys2Proof/Machine/Translate.lean ====
section
/-! DEFINITION. Address translation (R205 to R213): entries, the entry check, the four-level walk, the translation caches,
the access of a core and of an engine to one naturally aligned piece of memory, and firmware's resolution of demand-zero and
dropped pages (R213, R215, R226). -/
namespace Sys2Proof.Machine

/-- Phys of a table entry, as an address. -/
def tePhys (e : Nat) : Nat := e / 2 ^ 12 % 2 ^ 28 * 2 ^ 12
/-- Kind of a table entry. -/
def teKind (e : Nat) : Nat := e / 2 ^ 9 % 8
/-- VaultClass of a table entry. -/
def teClass (e : Nat) : Nat := e / 2 ^ 60 % 4
/-- Permission bits R, W, X as 1, 2, 4. -/
def tePerms (e : Nat) : Nat := e / 2 % 8

/-- The RSV bits of a table entry (Table 9.2). -/
def teRsv (e : Nat) : Bool := e / 2 ^ 62 ≠ 0 ∨ e / 2 ^ 40 % 2 ^ 20 ≠ 0 ∨ bit e 8 ∨ e / 2 ^ 5 % 4 ≠ 0

/-- The entry check of R210 on a valid entry at level `lvl`, but for its Contig clause. [DEDUCED, log 24] -/
def teBad (e lvl : Nat) : Bool :=
  teRsv e || decide (teKind e ≠ 0) || decide (teClass e = 3) || (bit e 2 && bit e 3)
    || decide (lvl = 0 ∧ ¬ bit e 4) || decide (lvl = 3 ∧ bit e 4)
    || (!(bit e 4) && decide (teClass e ≠ 0 ∨ tePerms e ≠ 0))
    || (bit e 4 && decide (lvl = 1) && decide (e / 2 ^ 12 % 2 ^ 9 ≠ 0))
    || (bit e 4 && decide (lvl = 2) && decide (e / 2 ^ 12 % 2 ^ 18 ≠ 0))

/-- A table entry without Phys [15:12]. -/
def teStrip (e : Nat) : Nat := e - e / 2 ^ 12 % 16 * 2 ^ 12

/-- The Contig clause of R210: the other 15 entries of the group agree with entry `i` of table `t` but for Phys [15:12], which of entry `i` is its
position. [DEDUCED, log 24] -/
def Dev.contigOk (d : Dev) (t i : Nat) : Bool :=
  let e := d.peekLe (t + 8 * i) 8
  decide (e / 2 ^ 12 % 16 = i % 16) && (List.range 16).all fun j => teStrip (d.peekLe (t + 8 * (i / 16 * 16 + j)) 8) == teStrip e

/-- What a walk gives: a page, a fault with reason and level, or an abandoned walk. `te`: the location of the last entry. -/
inductive Walk where
  | page (pa base size perms cls : Nat)
  | fault (reason lvl te : Nat)
  | wait (d : Dev)

/-- Page size of a leaf at level `lvl` (R208). -/
def leafSize (e lvl : Nat) : Nat :=
  if lvl = 2 then 2 ^ 30 else if lvl = 1 then 2 ^ 21 else if bit e 7 then 2 ^ 16 else 2 ^ 12

/-- The walk of R208 from level `lvl` down, for a request with transfer tag `tag` of unit `iu`. The address of a leaf is the pseudocode's
e.phys * 4096 + va mod size, which R12 makes binding for a Contig leaf too. [DEDUCED, log 24] -/
def Dev.walk (d : Dev) (iu tag va : Nat) : Nat → Nat → Walk
  | lvl, t =>
    let i := va / 2 ^ (12 + 9 * lvl) % 512
    let loc := t + 8 * i
    match d.path loc 1 iu (tagInst tag) tag with
    | .bad _ => .fault 9 lvl loc
    | .wait d => .wait d
    | .ready =>
      if d.poisoned loc 8 then .fault 9 lvl loc
      else
        let e := d.peekLe loc 8
        if ¬ bit e 0 then
          .fault (if teKind e = 0 then 1 else if teKind e = 1 then 2 else if teKind e = 2 then 3 else 5) lvl loc
        else if teBad e lvl || (decide (lvl = 0) && bit e 7 && !d.contigOk t i) then .fault 5 lvl loc
        else if bit e 4 then
          let size := leafSize e lvl
          .page (tePhys e + va % size) (tePhys e) size (tePerms e) (teClass e)
        else match lvl with
          | 0 => .fault 5 0 loc
          | n + 1 => d.walk iu tag va n (tePhys e)

/-- ASID of a context (R205). -/
def asidOf (inst c : Nat) : Nat := inst * 1024 + c

/-- The source a malformed or poisoned entry raises at the issuing unit (Table 18.1): a core, a DMA engine or an offload engine. -/
def teSource (iu : Nat) : Nat :=
  if kindOf iu = 0x03 then 200 + coreNo iu else if kindOf iu = 0x09 then 264 + dmaNo iu else 280 + engNo iu

/-- A walk of unit `iu` with tag `tag` ends in a malformed or poisoned entry: the unit's translation-entry source is raised (R210, R213). -/
def Dev.entryFault (d : Dev) (iu tag acc va : Nat) : Dev :=
  d.raise { src := teSource iu, acc := acc, iUnit := iu, iInst := tagInst tag, addr := va, tag := tag }

/-- The translation cache of unit `iu`: a core's TLB or a DMA engine's IOTLB; an offload engine has none. [DEDUCED, log 27] -/
def Dev.tlbOf (d : Dev) (iu : Nat) : List TlbEntry :=
  if kindOf iu = 0x03 then storeGet (fun _ => []) d.mem.tlb (coreNo iu)
  else if kindOf iu = 0x09 then storeGet (fun _ => []) d.mem.iotlb (dmaNo iu) else []

/-- Replaces the translation cache of unit `iu`. -/
def Dev.setTlb (d : Dev) (iu : Nat) (l : List TlbEntry) : Dev :=
  if kindOf iu = 0x03 then { d with mem := { d.mem with tlb := storeSet (fun _ => []) d.mem.tlb (coreNo iu) l } }
  else if kindOf iu = 0x09 then { d with mem := { d.mem with iotlb := storeSet (fun _ => []) d.mem.iotlb (dmaNo iu) l } }
  else d

/-- Entries a translation cache holds (R212). [DEDUCED, log 20] -/
def tlbSize (iu : Nat) : Nat := if kindOf iu = 0x03 then 1024 else if kindOf iu = 0x09 then 2048 else 0

/-- Fills the cache of unit `iu`; the oldest entry leaves when it is full. [DEDUCED, log 20] -/
def Dev.tlbFill (d : Dev) (iu : Nat) (x : TlbEntry) : Dev :=
  d.setTlb iu ((x :: d.tlbOf iu).take (tlbSize iu))

/-- Empties every translation cache (R212). -/
def Dev.tlbEmpty (d : Dev) : Dev := { d with mem := { d.mem with tlb := [], iotlb := [] } }

/-- Result of a translation. -/
inductive Xlat where
  | hit (pa perms cls : Nat) (d : Dev)
  | fault (reason lvl te : Nat) (d : Dev)
  | wait (d : Dev)

/-- The level a page size belongs to. -/
def lvlOfSize (size : Nat) : Nat := if size = 2 ^ 30 then 2 else if size = 2 ^ 21 then 1 else 0

/-- What a walk puts into a translation cache for `va`: its page, or, of a Contig page, the 4 KiB that this entry maps. [DEDUCED, log 24] -/
def tlbEntryOf (asid va base size perms cls : Nat) : TlbEntry :=
  if size = 2 ^ 16 then { asid := asid, va := va / 2 ^ 12 * 2 ^ 12, size := 2 ^ 12, pa := base + va % size / 2 ^ 12 * 2 ^ 12, perms := perms, cls := cls }
  else { asid := asid, va := va / size * size, size := size, pa := base, perms := perms, cls := cls }

/-- Translates `va` of context `c` for unit `iu` and its tag through the cache of unit `cu` (R212, R231), needing the permission bits `need` (1 R, 2 W,
4 X; R211). A cached translation is used as it stands (R212). -/
def Dev.xlat (d : Dev) (iu cu c va need acc tag : Nat) : Xlat :=
  let x := d.ctx c
  let asid := asidOf x.inst c
  match (d.tlbOf cu).find? fun e => e.asid = asid ∧ ¬ e.host ∧ e.va ≤ va ∧ va < e.va + e.size with
  | some e => if e.perms &&& need = need then .hit (e.pa + (va - e.va)) e.perms e.cls d else .fault 4 (lvlOfSize e.size) 0 d
  | none =>
    match d.walk iu tag va 3 x.root with
    | .wait d => .wait d
    | .fault r l te => .fault r l te (if r = 5 ∨ r = 9 then d.entryFault iu tag acc va else d)
    | .page pa base size perms cls =>
      if perms &&& need = need then .hit pa perms cls (d.tlbFill cu (tlbEntryOf asid va base size perms cls))
      else .fault 4 (lvlOfSize size) 0 d

/-- The Detail byte of R213. -/
def faultDetail (write : Bool) (lvl reason : Nat) : Nat := (if write then 0x80 else 0) + lvl * 16 + reason

/-- Start of the scratch window (R184). -/
def winBase : Nat := 2 ^ 48 - 2 ^ 18

/-- True when the core's context may use the scratch window (R184). -/
def Core.ownsScratch (c : Core) : Bool := c.owner = c.ctxid.toNat ∧ c.ctxid.toNat < 1024

/-- STATUS.Priv: the core runs at supervisor privilege. -/
def Core.sup (c : Core) : Bool := c.status.getLsbD 0

/-- The transfer tag of core `n`'s requests (Table 1.8, Table 1.9): the instance and generation of its context, which is its flow; firmware's carry
instance 0 and flow 0. -/
def Dev.coreTag (d : Dev) (n : Nat) : Nat :=
  let c := d.core n
  let k := c.ctxid.toNat
  if c.sup ∨ 1024 ≤ k then d.flowTag 0 (uCoreN n) 0
  else mkTag (d.ctx k).inst (d.ctx k).gen (ent (d.inst (d.ctx k).inst) 0x0A 1) 0 0 (uCoreN n) k false

/-- An access of core `n` to an effective address, for `len` bytes with permission `need` (R182 to R184, R205, R206, R211,
R213): the checks in the priority order of Table 8.12. `acc`: access type of Table 18.4. Poison is reported for loads. A store's tag takes the
VaultClass of its page (R211). An instruction fetch meets what a load meets on its way to memory (R142, R296). -/
def Dev.coreAccess (d : Dev) (n : Nat) (ea : Int) (len need acc : Nat) : Acc :=
  let c := d.core n
  let u := uCoreN n
  let fetch := need = 4
  let tag := d.coreTag n
  if ea < 0 ∨ ea ≥ 2 ^ 48 then .trap 0x04 0 (unsignedOf 8 ea) d
  else
    let va := ea.toNat
    if ¬ fetch ∧ 2 ^ 48 - 2 ^ 20 ≤ va ∧ va < winBase then .trap 0x04 0 va d
    else if c.sup ∧ va < winBase ∧ 2 ^ 40 ≤ va then .trap 0x04 0 va d
    else if ¬ fetch ∧ va % len ≠ 0 then .trap 0x05 0 va d
    else if winBase ≤ va then
      if c.ownsScratch then
        let loc := scratchLoc n (va - winBase)
        match d.path loc acc u (tagInst tag) tag with
        | .wait d => .wait d
        | _ => .ok loc 0 d
      else .trap 0x07 0 va d
    else
      let finish (pa cls : Nat) (d : Dev) : Acc :=
        let tag := if need = 2 then tagClass tag cls else tag
        match d.path pa acc u (tagInst tag) tag with
        | .wait d => .wait d
        | .bad d => if need = 2 then .gone d else .trap 0x09 0 va d
        | .ready =>
          let (bad, d) := d.spring (locUnits pa) pa len acc u (tagInst tag) tag
          if need ≠ 2 ∧ (bad ∨ d.poisoned pa len) then .trap 0x09 0 va d else .ok pa cls d
      if c.sup then finish va 0 d
      else
        let x := d.ctx c.ctxid.toNat
        if x.gen ≠ d.instGen x.inst then .gone d
        else match d.xlat u u c.ctxid.toNat va need acc tag with
        | .wait d => .wait d
        | .fault r l _ d => .trap (if fetch then 0x01 else 0x08) (faultDetail (need = 2) l r) va d
        | .hit pa _ cls d => finish pa cls d

/-- The page-list limit (R226). -/
def pageListMax : Nat := 1048575

/-- Bytes of a page size of Table 9.8. -/
def pageSz (s : Nat) : Nat := if s = 3 then 2 ^ 30 else if s = 2 then 2 ^ 21 else if s = 1 then 2 ^ 16 else 2 ^ 12

/-- The entries that name frame `phys`. -/
def framePages (l : List PageEntry) (phys : Nat) : List PageEntry := l.filter (·.phys = phys)

/-- The lowest ContextId among entries. -/
def lowestCtx (l : List PageEntry) : Nat := l.foldl (fun m p => min m p.ctx) 0xFFFF

/-- Entry `p` stands for its frame: the first of the lowest context that maps it (R226). -/
def pageKept (l : List PageEntry) (p : PageEntry) : Bool :=
  let s := framePages l p.phys
  s.find? (·.ctx = lowestCtx s) = some p

/-- Entries of the page list (R226): a frame that several contexts map appears once, as MUST-VAULT when any mapping is. -/
def Dev.pageList (d : Dev) : List PageEntry :=
  let l := d.mem.pages.filter (·.cls ≠ 2)
  (l.filter (pageKept l)).map fun p => { p with cls := if (framePages l p.phys).any (·.cls = 0) then 0 else p.cls }

/-- Bytes of the entries of a class: 0 MUST-VAULT, 1 MAY-DROP. -/
def Dev.pageBytes (d : Dev) (cls : Nat) : Nat := ((d.pageList.filter (·.cls = cls)).map fun p => pageSz p.size).sum

/-- MustPageBytes and MayDropBytes are the sums of the page list (R226). -/
def Dev.sumPages (d : Dev) : Dev := (d.s oMustPageBytes (d.pageBytes 0)).s oMayDropBytes (d.pageBytes 1)

/-- Zero-fills a frame. -/
def Dev.zeroFrame (d : Dev) (pa size : Nat) : Dev :=
  { d with mem := { d.mem with dram := d.mem.dram.filter fun p => ¬ (pa ≤ p.1 ∧ p.1 < pa + size) } }.cleanPoison pa size

/-- The physical range holds no page of a context and nothing of the machine-state region, and exists. -/
def Dev.frameFree (d : Dev) (pa size : Nat) : Bool :=
  d.paOk pa ∧ d.paOk (pa + size - 1) ∧ (d.mem.pages.all fun p => pa + size ≤ p.phys * 4096 ∨ p.phys * 4096 + pageSz p.size ≤ pa) ∧
    (pa + size ≤ msBase ∨ msBase + 2 ^ 25 ≤ pa)

/-- The program reservations of the channels in service as runs of pages of `size` bytes: (first page number, pages) (R297). -/
def Dev.progRuns (d : Dev) (size : Nat) : List (Nat × Nat) :=
  ((List.range 8).filter d.inService).map fun n =>
    let lo := (n * 2 ^ 35 + d.fwShare + size - 1) / size
    (lo, (n * 2 ^ 35 + d.fwShare + d.progBytes n) / size - lo)

/-- Page number `i` of a list of runs. -/
def runAt : List (Nat × Nat) → Nat → Nat
  | [], _ => 0
  | (lo, n) :: r, i => if i < n then lo + i else runAt r (i - n)

/-- The frame firmware takes for a page of `size` bytes in a program reservation: its own choice among the free ones, a free value. [DESIGN CHOICE, log 40] -/
def Dev.allocFrame (d : Dev) (size : Nat) : Option (Nat × Dev) :=
  let (k, d) := d.fresh
  let runs := d.progRuns size
  let total := (runs.map (·.2)).sum
  let tries := min total (2 ^ 25 / size + 3 + (d.mem.pages.map fun p => pageSz p.size / size + 2).sum)
  let at_ (j : Nat) : Nat := runAt runs ((Config.pageFrame k + j) % total) * size
  match (List.range tries).find? fun j => d.frameFree (at_ j) size with
  | some j => some (at_ j, d)
  | none => none

/-- Firmware's resolution of a DEMAND_ZERO or DROPPED entry at location `te`, level `lvl` (R213, R215): a zero-filled frame of
the entry's class, mapped with the entry's permissions by one 8-byte store. None when the page list is full (R226), when no frame is
free, or at level 3, where no leaf may stand. [DEDUCED, log 24] -/
def Dev.mapZero (d : Dev) (c va te lvl : Nat) : Option Dev :=
  let e := d.peekLe te 8
  let size := 2 ^ (12 + 9 * lvl)
  if lvl = 3 ∨ (teClass e ≠ 2 ∧ d.pageList.length ≥ pageListMax) then none
  else
    match d.allocFrame size with
    | none => none
    | some (pa, d) =>
      let new := teClass e % 4 * 2 ^ 60 + pa + tePerms e * 2 + 0x11
      let d := (d.zeroFrame pa size).pokeLe te 8 new
      let p : PageEntry := { ctx := c, phys := pa / 2 ^ 12, va := va / size * size, cls := teClass e, size := if lvl = 0 then 0 else lvl + 1, table := false, level := 0 }
      some { d with mem := { d.mem with pages := d.mem.pages ++ [p] } }.sumPages

/-- The unit on which firmware works for context `c` (R210, R214): the core the context runs on, else the first core that is ON. [DEDUCED, log 27] -/
def Dev.fwUnit (d : Dev) (c : Nat) : Nat :=
  match d.coreOfCtx c with
  | some n => uCoreN n
  | none => match d.coreNos.find? fun n => d.pathOn (uCoreN n) with
    | some n => uCoreN n
    | none => uCoreN 0

/-- The tag of firmware's own accesses from unit `u`: instance 0, flow 0 (Table 1.8). -/
def Dev.fwTag (d : Dev) (u : Nat) : Nat := d.flowTag 0 u 0

/-- Firmware's own walk in the address space of context `c` (R214). -/
def Dev.fwWalk (d : Dev) (c va : Nat) : Walk := d.walk (d.fwUnit c) (d.fwTag (d.fwUnit c)) va 3 (d.ctx c).root

/-- What firmware's walk for context `c` raises when it ends in a malformed or poisoned entry (R210, R213). -/
def Dev.fwRaise (d : Dev) (c va reason : Nat) : Dev :=
  if reason = 5 ∨ reason = 9 then d.entryFault (d.fwUnit c) (d.fwTag (d.fwUnit c)) 6 va else d

/-- What firmware's own access to a context's address gives: the location, a restore fault or a wake to wait for (R214), or nothing it can
reach. -/
inductive FwAcc where
  | at_ (pa : Nat) (d : Dev)
  | wait (d : Dev)
  | lost (d : Dev)

/-- Firmware's own access to location `pa`, for context `c`. -/
def Dev.fwPath (d : Dev) (c pa acc : Nat) : FwAcc :=
  match d.path pa acc (d.fwUnit c) 0 (d.fwTag (d.fwUnit c)) with
  | .ready => .at_ pa d
  | .wait d => .wait d
  | .bad d => .lost d

/-- Firmware's own store to an address of a context (R214, R227): a demand-zero page is mapped first. -/
def Dev.fwVa (d : Dev) (c va : Nat) : FwAcc :=
  match d.fwWalk c va with
  | .page pa _ _ _ _ => d.fwPath c pa 2
  | .wait d => .wait d
  | .fault 2 l te => match d.mapZero c va te l with
    | some d => match d.fwWalk c va with
      | .page pa _ _ _ _ => d.fwPath c pa 2
      | _ => .lost d
    | none => .lost d
  | .fault r _ _ => .lost (d.fwRaise c va r)

/-- Firmware stores bytes into a context's address space, byte by byte; bytes it cannot place are left out, and from a restore fault on the rest
waits for the segment (R214). -/
def Dev.fwPlace (d : Dev) (c va : Nat) : List Byte → Dev
  | [] => d
  | b :: r => match d.fwVa c va with
    | .at_ pa d => (d.poke pa b).fwPlace c (va + 1) r
    | .lost d => d.fwPlace c (va + 1) r
    | .wait d => { d with mem := { d.mem with fwWait := d.mem.fwWait ++ [{ ctx := c, va := va, bytes := b :: r }] } }

/-- A store of firmware into a context's address space; one that would overtake a store that waits, waits behind it. -/
def Dev.fwStore (d : Dev) (c va : Nat) (l : List Byte) : Dev :=
  if d.mem.fwWait.any (·.ctx = c) then { d with mem := { d.mem with fwWait := d.mem.fwWait ++ [{ ctx := c, va := va, bytes := l }] } }
  else d.fwPlace c va l

/-- Retries firmware's waiting stores in order, when a segment has been installed (R214). -/
def Dev.fwRetry (d : Dev) : Dev :=
  d.mem.fwWait.foldl (fun d w => d.fwStore w.ctx w.va w.bytes) { d with mem := { d.mem with fwWait := [] } }

/-- Firmware reads `n` bytes of a context's address space; a byte it cannot reach reads as 0. -/
def Dev.fwLoad (d : Dev) (c va n : Nat) : List Byte :=
  (List.range n).map fun i => match d.fwWalk c (va + i) with
    | .page pa _ _ _ _ => d.peek pa
    | _ => 0

/-- Firmware's read of `n` bytes of a context's address space meets a restore fault or a wake: the device that waits for it, and the read is made
again later (R214). The bytes of a context are read aligned, within one page. -/
def Dev.fwMissing (d : Dev) (c va : Nat) : Option Dev :=
  match d.fwWalk c va with
  | .wait d => some d
  | .page pa _ _ _ _ => match d.fwPath c pa 1 with
    | .wait d => some d
    | _ => none
  | .fault .. => none

/-- The PROGRAM queue bound to context `c`. -/
def Dev.progQueue (d : Dev) (c : Nat) : Option Nat :=
  (d.insts.queues.find? fun p => qKind p.2 = 3 ∧ qBinding p.2 = c).map (·.1)

/-- Free entries of the inbox of queue `i` (R268): Head and Tail count entries modulo InboxEntries. [DEDUCED, log 25] -/
def Dev.inboxFree (d : Dev) (i : Nat) : Nat :=
  let e := d.q i
  let c := qBinding e
  let h := leNat (d.fwLoad c (qInboxVa e) 4)
  let t := leNat (d.fwLoad c (qInboxVa e + 4) 4)
  let n := qInboxEntries e
  n - (t + n - h) % n - 1

/-- Firmware cannot yet read the inbox header of queue `i` (R214). -/
def Dev.inboxMissing (d : Dev) (i : Nat) : Option Dev := d.fwMissing (qBinding (d.q i)) (qInboxVa (d.q i))

/-- Firmware copies one entry into the inbox of queue `i` and advances Tail (R268), which ends a WAIT (R197). -/
def Dev.inboxPut (d : Dev) (i : Nat) (entry : List Byte) : Dev :=
  let e := d.q i
  let c := qBinding e
  let t := leNat (d.fwLoad c (qInboxVa e + 4) 4) % qInboxEntries e
  let d := d.fwStore c (qInboxVa e + 64 + 64 * t) entry
  let d := d.fwStore c (qInboxVa e + 4) (leBytes 4 ((t + 1) % qInboxEntries e))
  if (d.ctx c).st = 3 then d.setCtx c { d.ctx c with st := 1 } else d

/-- A program completion entry (Table 11.10) posted on queue `i`. -/
def Dev.postProg (d : Dev) (i kind code c tag d0 d1 d2 : Nat) : Dev :=
  d.postCq i 32 (d.ctx c).gen (leBytes 1 kind ++ leBytes 1 code ++ leBytes 2 c ++ leBytes 4 tag ++ leBytes 8 d0 ++ leBytes 8 d1
    ++ leBytes 8 d2) (fun d _ va l => d.fwStore c va l) 0

end Sys2Proof.Machine
end

