-- ==== Sys2Proof/Machine/Activity.lean ====
section
/-! DEFINITION. What DMA channels and job slots share with contexts: their state, their completion (R235, R267), and their end
when their context ends (R220). -/
namespace Sys2Proof.Machine

/-- DMA channel `i` = 64 · (4q + e) + c (R225). -/
def Dev.ch (d : Dev) (i : Nat) : Channel := storeGet noChannel d.mem.chans i

/-- Replaces DMA channel `i`. -/
def Dev.setCh (d : Dev) (i : Nat) (x : Channel) : Dev :=
  { d with mem := { d.mem with chans := storeSet noChannel d.mem.chans i x } }

/-- The DMA engine of channel `i`. -/
def chUnit (i : Nat) : Nat := uDmaN (i / 64)

/-- Job slot `i` = 16 · engine + slot. -/
def Dev.slot (d : Dev) (i : Nat) : JobSlot := storeGet noJob d.eng.slots i

/-- Replaces job slot `i`. -/
def Dev.setSlot (d : Dev) (i : Nat) (x : JobSlot) : Dev :=
  { d with eng := { d.eng with slots := storeSet noJob d.eng.slots i x } }

/-- The engine of job slot `i`. -/
def slotUnit (i : Nat) : Nat := uEngN (i / 16)

/-- Descriptor status codes (Table 9.4, R233). -/
def stQueued : Nat := 0x00
/-- RUNNING. -/
def stRunning : Nat := 0x01
/-- SUSPENDED_FAULT. -/
def stSuspFault : Nat := 0x02
/-- SUSPENDED_QUIESCE. -/
def stSuspQuiesce : Nat := 0x03
/-- DONE. -/
def stDone : Nat := 0x04
/-- TRANSLATION_ERROR. -/
def stTransErr : Nat := 0x05
/-- ABORTED. -/
def stAborted : Nat := 0x06
/-- POISONED. -/
def stPoisoned : Nat := 0x07
/-- INVALID. -/
def stInvalid : Nat := 0x08
/-- VOLUME_ERROR. -/
def stVolErr : Nat := 0x09
/-- DATA_ERROR. -/
def stDataErr : Nat := 0x0A
/-- OVERFLOW. -/
def stOverflow : Nat := 0x0B
/-- UNSUPPORTED. -/
def stUnsupported : Nat := 0x0C

/-- The completion entry of a descriptor (Table 11.8). -/
def dmaEntry (i : Nat) (x : Desc) : List Byte :=
  leBytes 1 x.status ++ leBytes 1 x.op ++ leBytes 1 (i % 64) ++ leBytes 1 ((if bit x.flags 2 then 1 else 0) + (if x.resumed then 2 else 0))
    ++ leBytes 2 (chUnit i) ++ leBytes 2 0 ++ leBytes 8 x.progress ++ leBytes 8 0 ++ leBytes 8 x.user

/-- Volume transfers of a channel (`org` 1) or slot (`org` 2) that ends go on, and report to no one. [DEDUCED, log 37] -/
def Dev.orphan (d : Dev) (org ref : Nat) : Dev :=
  { d with cache := { d.cache with writes := mapIf (fun w => w.org = org ∧ w.ref = ref) (fun w => { w with org := 3 }) d.cache.writes }, insts := { d.insts with cmds := mapIf (fun c => c.org = org ∧ c.ref = ref) (fun c => { c with org := 3 }) d.insts.cmds } }

/-- The descriptor of channel `i` completes with `status` (R267): its entry is posted, and the channel holds none. -/
def Dev.dmaFinish (d : Dev) (i status : Nat) : Dev :=
  match (d.ch i).desc with
  | none => d
  | some x =>
    let x := { x with status := status }
    let d := (d.orphan 1 i).setCh i { d.ch i with desc := none, fault := { (d.ch i).fault with kind := 0 } }
    if x.queue = 0xFFFF then d
    else d.postCq x.queue 32 x.gen (dmaEntry i x) (fun d c va l => d.fwStore c va l) 1 (bit x.flags 0)

/-- The completion record of a job (Table 10.3). -/
def jobEntry (i : Nat) (x : Job) (resumed : Bool) (out result : Nat) : List Byte :=
  leBytes 1 x.status ++ leBytes 1 x.op ++ leBytes 1 (i % 16) ++ leBytes 1 ((if bit x.flags 2 then 1 else 0) + (if resumed then 2 else 0))
    ++ leBytes 2 (slotUnit i) ++ leBytes 2 0 ++ leBytes 8 out ++ leBytes 8 result ++ leBytes 8 x.user

/-- The job of slot `i` completes with `status` (R235): its record is posted and counted, and the slot is free. -/
def Dev.jobFinish (d : Dev) (i status : Nat) : Dev :=
  let s := d.slot i
  match s.job with
  | none => d
  | some x =>
    let x := { x with status := status }
    let d := ((d.orphan 2 i).setSlot i {}).incU (slotUnit i) oJobsCompleted 64
    if x.queue = 0xFFFF then d
    else d.postCq x.queue 32 x.gen (jobEntry i x s.resumed (if x.op = 0x10 then (x.outProg + 7) / 8 else x.outProg) s.result)
      (fun d c va l => d.fwStore c va l) 2 (bit x.flags 0)

/-- Every descriptor and job of context `c` completes ABORTED, keeping its progress (R220, R249). [DEDUCED, log 37] -/
def Dev.abortCtx (d : Dev) (c : Nat) : Dev :=
  let chs := (d.mem.chans.filter fun p => p.2.desc.any (·.ctx = c)).map (·.1)
  let sls := (d.eng.slots.filter fun p => p.2.job.any (·.ctx = c)).map (·.1)
  sls.foldl (Dev.jobFinish · · stAborted) (chs.foldl (Dev.dmaFinish · · stAborted) d)

end Sys2Proof.Machine
end

