-- ==== Sys2Proof/Machine/Flags.lean ====
section
/-! DEFINITION. FLAGS of an Erril core (Table 8.4) and every flag computation of R187 to R189. -/
namespace Sys2Proof.Machine

/-- `f` with bit `i` set to `b`. -/
def setF (f : Word) (i : Nat) (b : Bool) : Word :=
  if b then f ||| BitVec.ofNat 64 (2 ^ i) else f &&& ~~~ BitVec.ofNat 64 (2 ^ i)

/-- Z and N from a result (R187). -/
def flagsZN (f r : Word) : Word := setF (setF f 0 (r == 0)) 1 r.msb

/-- Z, N, C and V. -/
def flagsZNCV (f r : Word) (c v : Bool) : Word := setF (setF (flagsZN f r) 2 c) 3 v

/-- The flags Z, N, C, V, D of FLAGS. -/
def flagZ (f : Word) : Bool := f.getLsbD 0
/-- N. -/
def flagN (f : Word) : Bool := f.getLsbD 1
/-- C. -/
def flagC (f : Word) : Bool := f.getLsbD 2
/-- V. -/
def flagV (f : Word) : Bool := f.getLsbD 3
/-- D. -/
def flagD (f : Word) : Bool := f.getLsbD 4

/-- A signed value that does not fit 64 bits. -/
def ovf (x : Int) : Bool := decide (x < -(2 ^ 63) ∨ 2 ^ 63 ≤ x)

/-- Sum with carry in: result and flags (R187). -/
def addF (f a b : Word) (cin : Bool) : Word × Word :=
  let k := if cin then 1 else 0
  let r := BitVec.ofNat 64 (a.toNat + b.toNat + k)
  (r, flagsZNCV f r (decide (2 ^ 64 ≤ a.toNat + b.toNat + k)) (ovf (a.toInt + b.toInt + k)))

/-- Difference with borrow in: result and flags; C is the borrow (R187). -/
def subF (f a b : Word) (bin : Bool) : Word × Word :=
  let k := if bin then 1 else 0
  let r := a - b - BitVec.ofNat 64 k
  (r, flagsZNCV f r (decide (a.toNat < b.toNat + k)) (ovf (a.toInt - b.toInt - k)))

/-- A result that writes Z and N alone. -/
def znF (f r : Word) : Word × Word := (r, flagsZN f r)

/-- MUL (Table 8.10): low half; V when the signed product does not fit, C when the unsigned one does not. -/
def mulF (f a b : Word) : Word × Word :=
  let r := a * b
  (r, flagsZNCV f r (decide (2 ^ 64 ≤ a.toNat * b.toNat)) (ovf (a.toInt * b.toInt)))

/-- DIV and DIVU after the divide trap was ruled out (R189): quotient, remainder and flags. -/
def divF (f a b : Word) (signed : Bool) : Word × Word × Word :=
  if b = 0 then
    let q := BitVec.allOnes 64
    (q, a, flagsZN (setF f 4 true) q)
  else if signed ∧ a = BitVec.ofNat 64 (2 ^ 63) ∧ b = BitVec.allOnes 64 then (a, 0, flagsZN (setF f 3 true) a)
  else
    let q := if signed then BitVec.ofInt 64 (a.toInt.tdiv b.toInt) else BitVec.ofNat 64 (a.toNat / b.toNat)
    let r := a - q * b
    (q, r, flagsZN (setF f 3 false) q)

/-- Condition codes of BF and CSEL (Table 8.11); none for a code the table does not list. -/
def condHolds (f : Word) : Nat → Option Bool
  | 0 => some (flagZ f) | 1 => some (!flagZ f) | 2 => some (flagN f) | 3 => some (!flagN f)
  | 4 => some (flagC f) | 5 => some (!flagC f) | 6 => some (flagV f) | 7 => some (!flagV f)
  | 8 => some (flagD f) | 9 => some (!flagD f) | _ => none

end Sys2Proof.Machine
end

