-- ==== Sys2Proof/Machine/Operands.lean ====
section
/-! DEFINITION. Operands of Erril instructions: registers, effective addresses (R182), shift amounts (R188), vector lanes
(R193), control registers (R181), and the encodings of Table 8.8, which a trap's value needs. -/
namespace Sys2Proof.Machine

/-- General register `r`; w0 reads 0. -/
def Core.rw (c : Core) (r : Nat) : Word := if r = 0 then 0 else storeGet (fun _ => 0) c.w r

/-- Writes general register `r`; a write of w0 is discarded. -/
def Core.ww (c : Core) (r : Nat) (v : Word) : Core := if r = 0 then c else { c with w := storeSet (fun _ => 0) c.w r v }

/-- Vector register `r`. -/
def Core.rv (c : Core) (r : Nat) : Vec := storeGet (fun _ => 0) c.v r

/-- Writes vector register `r`. -/
def Core.wv (c : Core) (r : Nat) (v : Vec) : Core := { c with v := storeSet (fun _ => 0) c.v r v }

/-- Bank register `k`. -/
def Core.rb (c : Core) (k : Nat) : W48 := storeGet (fun _ => 0) c.b k

/-- Writes bank register `k`, bits [19:0] cleared (Table 8.2). -/
def Core.wb (c : Core) (k : Nat) (v : W48) : Core :=
  { c with b := storeSet (fun _ => 0) c.b k (BitVec.ofNat 48 (v.toNat / 2 ^ 20 * 2 ^ 20)) }

/-- Loop count of level `l`. -/
def Core.rlc (c : Core) (l : Nat) : Word := storeGet (fun _ => 0) c.lc l
/-- Writes the loop count of level `l`. -/
def Core.wlc (c : Core) (l : Nat) (v : Word) : Core := { c with lc := storeSet (fun _ => 0) c.lc l v }
/-- Loop start of level `l`. -/
def Core.rls (c : Core) (l : Nat) : W48 := storeGet (fun _ => 0) c.ls l
/-- Writes the loop start of level `l`. -/
def Core.wls (c : Core) (l : Nat) (v : W48) : Core := { c with ls := storeSet (fun _ => 0) c.ls l v }
/-- Loop end of level `l`. -/
def Core.rle (c : Core) (l : Nat) : W48 := storeGet (fun _ => 0) c.le l
/-- Writes the loop end of level `l`. -/
def Core.wle (c : Core) (l : Nat) (v : W48) : Core := { c with le := storeSet (fun _ => 0) c.le l v }

/-- Effective address of formats M and A (R182): b[k] + signed(w[base]) + sext(d12). -/
def eaBased (c : Core) (k base : Nat) (d12 : BitVec 12) : Int := (c.rb k).toNat + (c.rw base).toInt + d12.toInt

/-- Effective address of format S (R182): b[k] + a20. -/
def eaShort (c : Core) (k : Nat) (a20 : BitVec 20) : Int := (c.rb k).toNat + a20.toNat

/-- SLL by an unsigned amount that is never masked (R188). -/
def sll (a : Word) (n : Nat) : Word := if 64 ≤ n then 0 else a <<< n
/-- SRL. -/
def srl (a : Word) (n : Nat) : Word := if 64 ≤ n then 0 else a >>> n
/-- SRA. -/
def sra (a : Word) (n : Nat) : Word := if 64 ≤ n then a.sshiftRight 63 else a.sshiftRight n
/-- ROL: the amount modulo 64. -/
def rol (a : Word) (n : Nat) : Word := a.rotateLeft (n % 64)
/-- ROR: the amount modulo 64. -/
def ror (a : Word) (n : Nat) : Word := a.rotateRight (n % 64)

/-- Leading zeros of a 64-bit value (64 for 0). -/
def clz (a : Word) : Nat := if a = 0 then 64 else 63 - Nat.log2 a.toNat
/-- Trailing zeros of a 64-bit value (64 for 0). -/
def ctz (a : Word) : Nat := ((List.range 64).find? fun i => a.getLsbD i).getD 64
/-- Ones of a 64-bit value. -/
def popc (a : Word) : Nat := ((List.range 64).filter fun i => a.getLsbD i).length
/-- The bytes of a 64-bit value reversed. -/
def bswap (a : Word) : Word := BitVec.ofNat 64 (beNat (leBytes 8 a.toNat))

/-- Lane width in bits of an element-size code (Table 8.8). -/
def laneW (es : Nat) : Nat := 8 * 2 ^ es
/-- Lanes of a vector register at an element size (R193). -/
def laneN (es : Nat) : Nat := 512 / laneW es
/-- Lane `i`, as an unsigned number. -/
def lane (es : Nat) (v : Vec) (i : Nat) : Nat := v.toNat / 2 ^ (laneW es * i) % 2 ^ laneW es
/-- A lane read as a signed number. -/
def laneS (es x : Nat) : Int := if x < 2 ^ (laneW es - 1) then (x : Int) else (x : Int) - 2 ^ laneW es
/-- The vector whose lane `i` is `f i`. -/
def ofLanes (es : Nat) (f : Nat → Nat) : Vec :=
  BitVec.ofNat 512 ((List.range (laneN es)).foldl (fun n i => n + f i % 2 ^ laneW es * 2 ^ (laneW es * i)) 0)
/-- Lane by lane. -/
def lanes2 (es : Nat) (f : Nat → Nat → Nat) (a b : Vec) : Vec := ofLanes es fun i => f (lane es a i) (lane es b i)
/-- `v` with lane `i` replaced. -/
def putLane (es : Nat) (v : Vec) (i x : Nat) : Vec := ofLanes es fun j => if j = i then x else lane es v j

/-- Format R. [DEDUCED, log 15] -/
def encR (op rd ra rb rc func : Nat) : Nat := op * 2 ^ 26 + rd * 2 ^ 21 + ra * 2 ^ 16 + rb * 2 ^ 11 + rc * 2 ^ 6 + func
/-- Format I. [DEDUCED, log 15] -/
def encI (op rd ra imm : Nat) : Nat := op * 2 ^ 26 + rd * 2 ^ 21 + ra * 2 ^ 16 + imm
/-- Format B. -/
def encB (op ra rb d16 : Nat) : Nat := op * 2 ^ 26 + ra * 2 ^ 21 + rb * 2 ^ 16 + d16
/-- Format L. -/
def encL (lvl rc n16 : Nat) : Nat := 0x2A * 2 ^ 26 + lvl * 2 ^ 25 + rc * 2 ^ 20 + n16
/-- Format V; `hi` is bit 8, the top lane-index bit of VEXT and VINS. -/
def encV (op vd va vb es hi func : Nat) : Nat :=
  op * 2 ^ 26 + vd * 2 ^ 21 + va * 2 ^ 16 + vb * 2 ^ 11 + es * 2 ^ 9 + hi * 2 ^ 8 + func

/-- Bits [hi:lo] of an instruction word. -/
def fld (w hi lo : Nat) : Nat := w / 2 ^ lo % 2 ^ (hi - lo + 1)

/-- An encoding that Tables 8.8 to 8.10 list, with every field that must be 0 equal to 0 and every index in range (R185,
R186). [DEDUCED, log 15] -/
def legalWord (w : Nat) : Bool :=
  let op := fld w 31 26
  let f := fld w 5 0
  let rd := fld w 25 21
  let ra := fld w 20 16
  let rb := fld w 15 11
  let rc := fld w 10 6
  if op ≥ 0x30 then true
  else if op = 0x00 then
    (f = 0 ∧ fld w 25 6 = 0) ∨ (f = 1 ∧ rd = 0 ∧ ra = 0) ∨ (2 ≤ f ∧ f ≤ 8) ∨ (f = 9 ∧ rc ≤ 1) ∨ f = 0x0A
  else if op = 0x01 then
    if f = 0x19 then rc ≤ 9
    else f ≤ 0x18 ∧ (f = 4 ∨ (0x15 ≤ f) → rb = 0) ∧ (f = 5 → rd = 0)
  else if op = 0x02 then f ≤ 4 ∧ (f ≤ 2 → rc = 0)
  else if 0x03 ≤ op ∧ op ≤ 0x06 then true
  else if op = 0x07 then rd = 0
  else if op = 0x08 ∨ op = 0x09 then ra ≤ 3
  else if 0x0A ≤ op ∧ op ≤ 0x0D then fld w 15 6 = 0
  else if 0x10 ≤ op ∧ op ≤ 0x1C then fld w 0 0 = 0
  else if op = 0x1D then fld w 7 4 ≤ 9 ∧ fld w 3 0 = 0
  else if op = 0x1E then rd = 0 ∧ fld w 0 0 = 0
  else if 0x20 ≤ op ∧ op ≤ 0x25 then true
  else if op = 0x26 then rd ≤ 9 ∧ ra = 0
  else if op = 0x27 ∨ op = 0x28 then true
  else if op = 0x29 then fld w 15 0 = 0
  else if op = 0x2A then fld w 19 16 = 0 ∧ fld w 15 0 ≠ 0
  else if op = 0x2B then f ≤ 0x10 ∧ (f ≤ 3 → fld w 25 6 = 0)
  else if op = 0x2C then
    (f = 0 ∧ rd ≤ 7) ∨ (f = 1 ∧ ra ≤ 7) ∨ ((f = 2 ∨ f = 3) ∧ rc ≤ 5) ∨ ((f = 4 ∨ f = 5) ∧ rc ≤ 3)
  else if op = 0x2D then f ≤ 0x11 ∧ fld w 8 6 = 0
  else if op = 0x2E then
    let es := fld w 10 9
    let l := fld w 8 8 * 32 + rb
    ((f = 1 ∨ f = 2) ∧ fld w 7 6 = 0 ∧ l < laneN es)
      ∨ ((f = 0 ∨ f = 6) ∧ fld w 8 6 = 0) ∨ ((f = 3 ∨ f = 4 ∨ f = 5 ∨ f = 7) ∧ fld w 8 6 = 0 ∧ rb = 0)
  else false

/-- Control-register numbers that Table 8.3 lists. -/
def crListed (n : Nat) : Bool := n ≤ 0x09 ∨ (0x10 ≤ n ∧ n ≤ 0x17)
/-- Control registers that user privilege may not touch. -/
def crSup (n : Nat) : Bool := 0x10 ≤ n ∧ n ≤ 0x17
/-- Registers the executing privilege may only read. [DEDUCED, log 17] -/
def crReadOnly (n : Nat) (sup : Bool) : Bool := (0x06 ≤ n ∧ n ≤ 0x09) ∨ ((n = 0x04 ∨ n = 0x05) ∧ ¬ sup)
/-- The bits of control register `n` that are not RSV (Tables 8.3 to 8.7). -/
def crBits (n : Nat) : Nat :=
  if n = 0x00 ∨ n = 0x10 then 2 ^ 5 - 1 else if n = 0x01 then 3
  else if n = 0x02 ∨ n = 0x03 then 2 ^ 48 - 4
  else if n = 0x04 ∨ n = 0x13 then 2 ^ 17 - 1
  else if n = 0x11 then 2 ^ 64 - 4
  else if n = 0x17 then 2 ^ 40 - 2 ^ 12 else 2 ^ 64 - 1

/-- A value that would set an RSV bit of control register `n`. -/
def crRsv (n v : Nat) : Bool := v &&& crBits n ≠ v

/-- Reads control register `n` of core `k` (Table 8.3). -/
def Dev.readCr (d : Dev) (k n : Nat) : Word :=
  let c := d.core k
  match n with
  | 0x00 => c.flags | 0x01 => c.uctl | 0x02 => c.utvec | 0x03 => c.uepc | 0x04 => c.ucause | 0x05 => c.utval
  | 0x06 => c.cycle | 0x07 => BitVec.ofNat 64 d.now | 0x08 => BitVec.ofNat 64 (uCoreN k) | 0x09 => c.ctxid
  | 0x10 => c.status | 0x11 => c.stvec | 0x12 => c.sepc | 0x13 => c.scause | 0x14 => c.stval | 0x15 => c.sscratch
  | 0x16 => c.slice | 0x17 => c.ctxptr | _ => 0

/-- `old` with the bits of `mask` taken from `v`. [DEDUCED, log 17] -/
def maskIn (old v : Word) (mask : Nat) : Word := (old &&& ~~~ BitVec.ofNat 64 mask) ||| (v &&& BitVec.ofNat 64 mask)

/-- Writes control register `n` (Table 8.3); a field marked RO keeps its value. [DEDUCED, log 17] -/
def Core.writeCr (c : Core) (n : Nat) (v : Word) : Core :=
  match n with
  | 0x00 => { c with flags := v } | 0x01 => { c with uctl := maskIn c.uctl v 1 } | 0x02 => { c with utvec := v }
  | 0x03 => { c with uepc := v } | 0x05 => { c with utval := v }
  | 0x10 => { c with status := maskIn c.status v 0x1E } | 0x11 => { c with stvec := v } | 0x12 => { c with sepc := v }
  | 0x14 => { c with stval := v } | 0x15 => { c with sscratch := v } | 0x16 => { c with slice := v }
  | 0x17 => { c with ctxptr := v } | _ => c

end Sys2Proof.Machine
end

