-- ==== Sys2Proof/Machine/Trap.lean ====
section
/-! DEFINITION. Contexts and traps of an Erril core: the save area (R199 to R201), trap entry (R196), what firmware does with
a trap from user privilege (R197, R213, R215), the end of a context (R202, R268), asynchronous traps (R195), and the run of
one instruction with its fetch check and end-of-loop check (R183, R190). -/
namespace Sys2Proof.Machine

/-- The save area of Table 8.13 for core `n`, saving for a trap of `cause` and `value` that resumes at `epc`. -/
def saveBytes (d : Dev) (n cause value epc : Nat) (inexact : Bool) : List Byte :=
  let c := d.core n
  let x := d.ctx c.ctxid.toNat
  let w8 (v : Nat) : List Byte := leBytes 8 v
  let body := leBytes 2 1
    ++ leBytes 2 ((if inexact then 1 else 0) + (if bit cause 16 then 2 else 0) + (if c.uctl.getLsbD 1 then 4 else 0))
    ++ leBytes 2 c.ctxid.toNat ++ leBytes 2 x.inst ++ leBytes 1 x.gen ++ leBytes 1 0 ++ leBytes 2 (uCoreN n) ++ leBytes 4 0
    ++ w8 epc
    ++ [c.flags, c.uctl, c.utvec, c.uepc, c.ucause, c.utval].flatMap (fun v => w8 v.toNat)
    ++ w8 cause ++ w8 value ++ w8 c.cycle.toNat ++ w8 c.slice.toNat ++ w8 0
    ++ (List.range 31).flatMap (fun i => w8 (c.rw (i + 1)).toNat)
    ++ (List.range 8).flatMap (fun i => w8 (c.rb i).toNat)
    ++ w8 (c.rlc 0).toNat ++ w8 (c.rlc 1).toNat ++ w8 (c.rls 0).toNat ++ w8 (c.rls 1).toNat ++ w8 (c.rle 0).toNat ++ w8 (c.rle 1).toNat
    ++ [c.ps, c.pd, c.pn, c.pk].flatMap (fun v => w8 v.toNat) ++ w8 0
    ++ (List.range 32).flatMap (fun i => leBytes 64 (c.rv i).toNat)
    ++ List.replicate 1528 0
  body ++ leBytes 8 (crc64 body)

/-- The save of R199 at CTXPTR. -/
def Dev.saveContext (d : Dev) (n cause value epc : Nat) (inexact : Bool := false) : Dev :=
  let c := d.core n
  let d := d.pokeN c.ctxptr.toNat (saveBytes d n cause value epc inexact)
  let k := c.ctxid.toNat
  if k < 1024 then d.setCtx k { d.ctx k with inexact := inexact } else d

/-- A field of a save area. -/
def areaF (a : List Byte) (off len : Nat) : Nat := leNat ((a.drop off).take len)

/-- A value of control register `cr` without its RSV bits, which read 0 (R9). -/
def maskCr (cr : Nat) (v : Word) : Word := BitVec.ofNat 64 (v.toNat &&& crBits cr)

/-- The registers of the save area `a` in core `c` (R199): every register of the context, whose RSV bits read 0 (R9); the resume address goes to SEPC,
from which SRET takes it. SLICE is firmware's (Table 8.2) and stays. [DEDUCED, log 18] -/
def loadRegs (c : Core) (a : List Byte) : Core :=
  let g (off : Nat) : Word := BitVec.ofNat 64 (areaF a off 8)
  let b48 (off : Nat) : W48 := BitVec.ofNat 48 (areaF a off 8)
  let c := { c with flags := maskCr 0 (g 0x18), uctl := maskCr 1 (g 0x20), utvec := maskCr 2 (g 0x28), uepc := maskCr 3 (g 0x30), ucause := maskCr 4 (g 0x38), utval := g 0x40, cycle := g 0x58, ctxid := BitVec.ofNat 64 (areaF a 4 2), ps := g 0x1D8, pd := g 0x1E0, pn := g 0x1E8, pk := g 0x1F0, sepc := g 0x10, inStr := bit (areaF a 2 2) 1 }
  let c := (List.range 31).foldl (fun c i => c.ww (i + 1) (g (0x70 + 8 * i))) c
  let c := (List.range 8).foldl (fun c i => c.wb i (b48 (0x168 + 8 * i))) c
  let c := (List.range 2).foldl (fun c l => ((c.wlc l (g (0x1A8 + 8 * l))).wls l (b48 (0x1B8 + 8 * l))).wle l (b48 (0x1C8 + 8 * l))) c
  (List.range 32).foldl (fun c i => c.wv i (BitVec.ofNat 512 (areaF a (0x200 + 64 * i) 64))) c

/-- The Crc of a save area is right (R199). -/
def areaOk (a : List Byte) : Bool := crc64 (a.take 0xFF8) = areaF a 0xFF8 8

/-- The context leaves the core it runs on. -/
def Dev.unloadCtx (d : Dev) (k : Nat) : Dev :=
  d.coreNos.foldl (fun d n => if (d.core n).ctxid.toNat = k then d.setCore n { d.core n with ctxid := 0xFFFF } else d) d

/-- Frees what context `k` holds: its pages, its translations, its scratch, firmware's stores that wait for it, its place in its owner's count. -/
def Dev.freeCtx (d : Dev) (k : Nat) : Dev :=
  let x := d.ctx k
  let asid := asidOf x.inst k
  let d := d.unloadCtx k
  let d := d.coreNos.foldl (fun d n => if (d.core n).owner = k then d.setCore n { d.core n with owner := 0xFFFF } else d) d
  let drop (_ : Nat) (l : List TlbEntry) : List TlbEntry := l.filter fun e => e.host || decide (e.asid ≠ asid)
  let d := { d with mem := { d.mem with pages := d.mem.pages.filter (·.ctx ≠ k), fwWait := d.mem.fwWait.filter (·.ctx ≠ k), tlb := storeMapV (fun _ => []) drop d.mem.tlb, iotlb := storeMapV (fun _ => []) drop d.mem.iotlb } }
  let used := ent (d.inst x.inst) 0x1E 2
  (((d.setInst x.inst 0x1E 2 (used - 1)).setCtx k { x with st := 4, core := none, scratchCore := 0xFFFF }).sumPages)

/-- Ends context `k` (R197, R201, R202, R268): the event, ABORTED descriptors and jobs, its completion of `kind` when `post`,
Binding back to 0xFFFF. `val` and `pc` are Data0 and Data1. -/
def Dev.endCtx (d : Dev) (k kind code val pc : Nat) (post : Bool := true) : Dev :=
  let x := d.ctx k
  if x.st = 0 ∨ x.st = 4 then d
  else
    let unit := match d.coreOfCtx k with | some n => uCoreN n | none => x.scratchCore
    let d := (d.abortCtx k).record 0x700 0 unit k x.inst code 0
    let d := match d.progQueue k with
      | some q => (if post then d.postProg q kind code k 0 val pc 0 else d).setQf q 0x20 2 0xFFFF
      | none => d
    d.freeCtx k

/-- Firmware suspends context `k` of core `n` with its registers in its save area (R197), in state `st`. [DEDUCED, log 19] -/
def Dev.parkCtx (d : Dev) (n cause value epc st : Nat) : Dev :=
  let k := (d.core n).ctxid.toNat
  if k < 1024 then
    let d := d.saveContext n cause value epc
    (d.setCtx k { d.ctx k with st := st, core := none }).unloadCtx k
  else d

/-- What firmware's resolution of a translation fault comes to: the entry is right now, the resolution waits for a restore fault or a wake
(R214, R227), or nothing corrects the entry. -/
inductive Fixed where
  | done (d : Dev)
  | wait (d : Dev)
  | lost (d : Dev)

/-- Firmware posts the page-dropped notice of the page of `size` bytes at `va` to queue `q` of context `k`, or ends the context when its inbox is full
(R215, R268). -/
def Dev.pageDropped (d : Dev) (k q va size : Nat) : Dev :=
  if d.inboxFree q = 0 then d.endCtx k 0x06 0 0 0
  else d.inboxPut q (leBytes 1 2 ++ List.replicate 7 0 ++ leBytes 8 (va / size * size) ++ leBytes 8 size ++ List.replicate 40 0)

/-- Firmware resolves the fault at `va` of context `k` (R213, R215, R226), with the walk and the notice that this takes. -/
def Dev.fwResolve (d : Dev) (k va : Nat) : Fixed :=
  match d.fwWalk k va with
  | .page .. => .done d
  | .wait d => .wait d
  | .fault r l te =>
    if r = 2 then match d.mapZero k va te l with
      | some d => .done d
      | none => .lost d
    else if r = 3 then match d.progQueue k with
      | none => match d.mapZero k va te l with
        | some d => .done d
        | none => .lost d
      | some q => match d.inboxMissing q with
        | some d => .wait d
        | none => match d.mapZero k va te l with
          | some d => .done (d.pageDropped k q va (2 ^ (12 + 9 * l)))
          | none => .lost d
    else .lost (d.fwRaise k va r)

/-- Firmware's handling of a FETCH_FAULT or DATA_FAULT of context `k` (R213, R215). One that waits for a restore fault is handled again when the
instruction is retried. [DESIGN CHOICE, log 8; DEDUCED, log 25] -/
def Dev.resolveFault (d : Dev) (n k code detail va epc : Nat) : Dev :=
  let u := uCoreN n
  let d := d.incU u oTranslationFaults 64
  let dead (d : Dev) := (d.incU u oFatalTranslationFaults).endCtx k 0x03 code va epc
  if detail % 16 ≠ 2 ∧ detail % 16 ≠ 3 then dead d
  else match d.fwResolve k va with
    | .done d => d
    | .wait d => d
    | .lost d => dead d

/-- WAIT ends when Tail differs from Head (R268). [DEDUCED, log 19] -/
def Dev.inboxNonEmpty (d : Dev) (q : Nat) : Bool :=
  let e := d.q q
  leNat (d.fwLoad (qBinding e) (qInboxVa e) 4) ≠ leNat (d.fwLoad (qBinding e) (qInboxVa e + 4) 4)

/-- WAIT (R197, R268): the context goes on when its inbox holds an entry, else it waits; while firmware cannot read the inbox yet, the TRAP is
executed again (R214). -/
def Dev.fwWaitCall (d : Dev) (n cause value epc : Nat) : Dev :=
  match d.progQueue (d.core n).ctxid.toNat with
  | none => d.parkCtx n cause value epc 3
  | some q => match d.inboxMissing q with
    | some d => d.setCore n { d.core n with sepc := BitVec.ofNat 64 (epc - 4) }
    | none => if d.inboxNonEmpty q then d else d.parkCtx n cause value epc 3

/-- What firmware does with a trap that reached it from user privilege, of a core with a context (R197). -/
def Dev.serveTrap (d : Dev) (n code detail value epc cause : Nat) : Dev :=
  let c := d.core n
  let k := c.ctxid.toNat
  match code with
  | 0x10 => (d.setCtx k { d.ctx k with st := 1, core := none }).unloadCtx k
  | 0x11 => d
  | 0x01 | 0x08 => d.resolveFault n k code detail value epc
  | 0x0C => d.parkCtx n cause value epc 1
  | 0x0B =>
    if value = 0 then d.endCtx k 0x02 0 (c.rw 1).toNat 0
    else if value = 1 then d.fwWaitCall n cause value epc
    else if value = 2 then
      match d.progQueue k with
      | some q => d.postProg q 0x01 ((c.rw 1).toNat % 256) k ((c.rw 1).toNat / 2 ^ 32) (c.rw 2).toNat (c.rw 3).toNat (c.rw 4).toNat
      | none => d
    else d.endCtx k 0x03 code value epc
  | _ => d.endCtx k 0x03 code value epc

/-- The least number of a list above `x`, else its least. -/
def nextAfter (l : List Nat) (x : Nat) : Option Nat :=
  let up := l.filter (x < ·)
  (if up.isEmpty then l else up).min?

/-- The contexts that firmware may dispatch on core `n`, with their instances (R222): RUNNABLE, of the current generation, not waiting for another
core to resume them, and owning no other core's scratch. [DEDUCED, log 83] -/
def Dev.runnable (d : Dev) (n : Nat) : List (Nat × Nat) :=
  (d.mem.contexts.filter fun p => p.2.st = 1 ∧ (p.2.core.isNone ∨ p.2.core = some n) ∧ (p.2.scratchCore = 0xFFFF ∨ p.2.scratchCore = uCoreN n)
    ∧ p.2.gen = d.instGen p.2.inst).map fun p => (p.1, p.2.inst)

/-- The next context of core `n` by weighted round robin over instances (R222): an instance of share weight w has w slices of each round, and its
contexts take them in turn; with them the counts of the round. [DEDUCED, log 83] -/
def Dev.nextCtx (d : Dev) (n : Nat) : Option (Nat × Nat × List (Nat × Nat)) :=
  let c := d.core n
  let l := d.runnable n
  let used (i : Nat) : Nat := storeGet (fun _ => 0) c.slices i
  let left := l.filter fun p => used p.2 < ent (d.inst p.2) 8 2
  let slices := if left.isEmpty then [] else c.slices
  let l := if left.isEmpty then l else left
  match nextAfter (l.map (·.2)) c.lastInst with
  | none => none
  | some i => match nextAfter ((l.filter (·.2 = i)).map (·.1)) (storeGet (fun _ => 0) c.turns i) with
    | none => none
    | some k => some (k, i, storeSet (fun _ => 0) slices i (storeGet (fun _ => 0) slices i + 1))

/-- Firmware dispatches the next context on core `n`, which has none (R222): CTXPTR, SLICE and LoadCtx are set for its SRET. [DEDUCED, log 83] -/
def Dev.dispatch (d : Dev) (n : Nat) : Dev :=
  let c := d.core n
  if c.ctxid.toNat < 1024 ∨ c.stopped ∨ d.quiet then d
  else match d.nextCtx n with
  | none => d
  | some (k, i, slices) =>
    (d.setCtx k { d.ctx k with core := some n }).setCore n
      { c with ctxptr := BitVec.ofNat 64 (saveAt k), slice := BitVec.ofNat 64 (d.g oSliceCycles), status := setF (setF c.status 2 false) 4 true, slices := slices, lastInst := i, turns := storeSet (fun _ => 0) c.turns i k }

/-- What firmware does with a trap that reached it from user privilege (R197), and the dispatch that follows when its context has left the core (R222). [DESIGN CHOICE, log 8; DEDUCED, log 19] -/
def Dev.firmwareTrap (d : Dev) (n code detail value epc cause : Nat) : Dev :=
  (if (d.core n).ctxid.toNat < 1024 then d.serveTrap n code detail value epc cause else d).dispatch n

/-- Traps a user handler may take (Table 8.12). -/
def delegable (code : Nat) : Bool := code = 2 ∨ code = 4 ∨ code = 5 ∨ code = 6 ∨ code = 0x0A

/-- Trap entry (R196) at core `n`, then what firmware does with it. `inexact`: a forced stop, which marks what it saves (R89). -/
def Dev.trapEnter (d : Dev) (n code detail value epc : Nat) (inStr : Bool := false) (inexact : Bool := false) : Dev :=
  let c := d.core n
  let cause := code + detail * 2 ^ 8 + (if inStr then 2 ^ 16 else 0)
  let cw := BitVec.ofNat 64 cause
  let vw := BitVec.ofNat 64 value
  if delegable code && !c.sup && decide (c.utvec ≠ 0) && !(c.uctl.getLsbD 1) then
    d.setCore n { c with uepc := BitVec.ofNat 64 epc, ucause := cw, utval := vw, uctl := c.uctl ||| 2, pc := c.utvec.truncate 48 }
  else
    let d := if code = 0x10 then d.saveContext n cause value epc inexact else d
    let st := setF (setF c.status 2 c.sup) 3 (c.status.getLsbD 1)
    let d := d.setCore n { c with sepc := BitVec.ofNat 64 epc, scause := cw, stval := vw, status := setF (setF st 0 true) 1 false, pc := c.stvec.truncate 48, wfi := false }
    if c.sup then (if code < 0x10 then d.raise { src := 72 + n, acc := 6, iUnit := uCoreN n, addr := epc } else d)
    else d.firmwareTrap n code detail value epc cause

/-- A core takes asynchronous traps: always at user privilege, at supervisor privilege while IE = 1 or during WFI (R195). [DEDUCED, log 78] -/
def Core.asyncOn (c : Core) : Bool := !c.sup || c.status.getLsbD 1 || c.wfi

/-- Takes a pending PREEMPT, else a pending INTERRUPT, at the boundary the core stands at (R195). [DESIGN CHOICE, log 16; DEDUCED, log 78] -/
def Dev.takeAsync (d : Dev) (n : Nat) : Dev :=
  let c := d.core n
  match c.preempt with
  | some det => (d.setCore n { c with preempt := none, inStr := false }).trapEnter n 0x10 det 0 c.pc.toNat c.inStr
  | none => match c.irqs with
    | [] => d
    | det :: r => (d.setCore n { c with irqs := r, inStr := false }).trapEnter n 0x11 det 0 c.pc.toNat c.inStr

/-- An asynchronous trap is pending and enabled. [DESIGN CHOICE, log 16] -/
def Core.asyncDue (c : Core) : Bool := c.asyncOn && (c.preempt.isSome || !c.irqs.isEmpty)

/-- The core executes: present, powered, not isolated, not stopped, the machine UP and not HALTED. [DEDUCED, log 27] -/
def Dev.canRun (d : Dev) (n : Nat) : Bool :=
  d.present (uCoreN n) && d.pathOn (uCoreN n) && !d.isolated (uCoreN n) && decide (d.sup = 2) && !d.halted
    && !(d.core n).stopped

/-- What one instruction does before its pc is settled: complete with a next pc and a taken flag, trap, or leave the core
where it stands (an abandoned access, or a string with elements left). -/
inductive Res where
  | done (next : Nat) (taken : Bool) (d : Dev)
  | trap (code detail value epc : Nat) (inStr : Bool) (d : Dev)
  | stay (d : Dev)

/-- The end check of R190 after the instruction at `a` completed sequentially: the core with its counts, and the next pc. -/
def endCheck (c : Core) (a next : Nat) : Core × Nat :=
  let one (c : Core) (l : Nat) : Core × Bool :=
    if c.rlc l ≠ 0 ∧ (c.rle l).toNat = a then
      let c := c.wlc l (c.rlc l - 1)
      (c, c.rlc l ≠ 0)
    else (c, false)
  let (c, t) := one c 1
  if t then (c, (c.rls 1).toNat)
  else
    let (c, t) := one c 0
    if t then (c, (c.rls 0).toNat) else (c, next)

/-- QCLK cycles counted by CYCLE and SLICE for one instruction: free values (R181). SLICE stops at 1: its reaching 0 is the
command SLICE_EXPIRE. [DESIGN CHOICE, log 11] -/
def Dev.countCycles (d : Dev) (n : Nat) : Dev :=
  let (k, d) := d.fresh
  let c := d.core n
  let q := Config.cycles k
  d.setCore n { c with cycle := c.cycle + q, slice := if c.sup ∨ c.slice = 0 then c.slice else c.slice - (if q < c.slice then q else c.slice - 1) }

/-- Settles what an instruction at `a` did. -/
def Dev.settleRes (d : Dev) (n a : Nat) : Res → Dev
  | .stay d => d
  | .trap code detail value epc s d => d.trapEnter n code detail value epc s
  | .done next taken d1 =>
    if taken ∧ next % 4 ≠ 0 then d.trapEnter n 0x06 0 next a
    else
      let d1 := d1.countCycles n
      let c := { d1.core n with inStr := false }
      if taken then d1.setCore n { c with pc := BitVec.ofNat 48 next }
      else
        let (c, next) := endCheck c a next
        d1.setCore n { c with pc := BitVec.ofNat 48 next }

/-- One instruction of core `n`: nothing while the core does not execute or waits in WFI; a due asynchronous trap first (R195);
then the fetch check (R211, R184); then `f` (R186: a trapping instruction changes nothing). [DESIGN CHOICE, log 7] -/
def Dev.run (d : Dev) (n : Nat) (f : Dev → Core → Nat → Res) : Dev :=
  let c := d.core n
  if ¬ d.canRun n then d
  else if c.asyncDue then d.takeAsync n
  else if c.wfi then d
  else
    let a := c.pc.toNat
    match d.coreAccess n a 4 4 3 with
    | .wait d | .gone d => d
    | .trap code det v d => d.trapEnter n code det v a
    | .ok _ _ d => d.settleRes n a (f d (d.core n) a)

/-- An instruction that changes its core alone and completes at the next word. [DESIGN CHOICE, log 16] -/
def Dev.runReg (d : Dev) (n : Nat) (f : Core → Core) : Dev :=
  d.run n fun d c a => .done (a + 4) false (d.setCore n (f c))

/-- A synchronous trap of the running instruction. -/
def trapAt (code value a : Nat) (d : Dev) : Res := .trap code 0 value a false d

/-- ILLEGAL with the instruction word (Table 8.12). -/
def illegalAt (w a : Nat) (d : Dev) : Res := trapAt 0x02 w a d

end Sys2Proof.Machine
end

