-- ==== Sys2Proof/Machine/ErrilAlu.lean ====
section
/-! DEFINITION. Erril arithmetic: the ALU and MULDIV groups and the immediate forms (Tables 8.9 and 8.10, R187 to R189). -/
namespace Sys2Proof.Machine

/-- An instruction of two sources: `f` takes FLAGS and the sources and gives the result and the new FLAGS. -/
def Dev.alu3 (d : Dev) (n rd ra rb : Nat) (f : Word → Word → Word → Word × Word) : Dev :=
  d.runReg n fun c => let (r, fl) := f c.flags (c.rw ra) (c.rw rb); { c.ww rd r with flags := fl }

/-- An instruction of one source and an immediate. -/
def Dev.aluI (d : Dev) (n rd ra : Nat) (imm : Word) (f : Word → Word → Word → Word × Word) : Dev :=
  d.runReg n fun c => let (r, fl) := f c.flags (c.rw ra) imm; { c.ww rd r with flags := fl }

/-- ADD. -/
def Dev.opAdd (d : Dev) (n rd ra rb : Nat) : Dev := d.alu3 n rd ra rb fun f a b => addF f a b false
/-- ADDC: plus C. -/
def Dev.opAddc (d : Dev) (n rd ra rb : Nat) : Dev := d.alu3 n rd ra rb fun f a b => addF f a b (flagC f)
/-- SUB. -/
def Dev.opSub (d : Dev) (n rd ra rb : Nat) : Dev := d.alu3 n rd ra rb fun f a b => subF f a b false
/-- SUBB: minus C. -/
def Dev.opSubb (d : Dev) (n rd ra rb : Nat) : Dev := d.alu3 n rd ra rb fun f a b => subF f a b (flagC f)
/-- NEG: 0 − ra. -/
def Dev.opNeg (d : Dev) (n rd ra : Nat) : Dev := d.alu3 n rd ra 0 fun f a _ => subF f 0 a false
/-- CMP: flags from ra − rb. -/
def Dev.opCmp (d : Dev) (n ra rb : Nat) : Dev := d.alu3 n 0 ra rb fun f a b => subF f a b false
/-- AND. -/
def Dev.opAnd (d : Dev) (n rd ra rb : Nat) : Dev := d.alu3 n rd ra rb fun f a b => znF f (a &&& b)
/-- OR. -/
def Dev.opOr (d : Dev) (n rd ra rb : Nat) : Dev := d.alu3 n rd ra rb fun f a b => znF f (a ||| b)
/-- XOR. -/
def Dev.opXor (d : Dev) (n rd ra rb : Nat) : Dev := d.alu3 n rd ra rb fun f a b => znF f (a ^^^ b)
/-- ANDN: ra AND NOT rb. -/
def Dev.opAndn (d : Dev) (n rd ra rb : Nat) : Dev := d.alu3 n rd ra rb fun f a b => znF f (a &&& ~~~b)
/-- SLL. -/
def Dev.opSll (d : Dev) (n rd ra rb : Nat) : Dev := d.alu3 n rd ra rb fun f a b => znF f (sll a b.toNat)
/-- SRL. -/
def Dev.opSrl (d : Dev) (n rd ra rb : Nat) : Dev := d.alu3 n rd ra rb fun f a b => znF f (srl a b.toNat)
/-- SRA. -/
def Dev.opSra (d : Dev) (n rd ra rb : Nat) : Dev := d.alu3 n rd ra rb fun f a b => znF f (sra a b.toNat)
/-- ROL. -/
def Dev.opRol (d : Dev) (n rd ra rb : Nat) : Dev := d.alu3 n rd ra rb fun f a b => znF f (rol a b.toNat)
/-- ROR. -/
def Dev.opRor (d : Dev) (n rd ra rb : Nat) : Dev := d.alu3 n rd ra rb fun f a b => znF f (ror a b.toNat)
/-- MIN. -/
def Dev.opMin (d : Dev) (n rd ra rb : Nat) : Dev := d.alu3 n rd ra rb fun f a b => znF f (if a.slt b then a else b)
/-- MAX. -/
def Dev.opMax (d : Dev) (n rd ra rb : Nat) : Dev := d.alu3 n rd ra rb fun f a b => znF f (if a.slt b then b else a)
/-- MINU. -/
def Dev.opMinu (d : Dev) (n rd ra rb : Nat) : Dev := d.alu3 n rd ra rb fun f a b => znF f (if a.ult b then a else b)
/-- MAXU. -/
def Dev.opMaxu (d : Dev) (n rd ra rb : Nat) : Dev := d.alu3 n rd ra rb fun f a b => znF f (if a.ult b then b else a)
/-- SLT. -/
def Dev.opSlt (d : Dev) (n rd ra rb : Nat) : Dev := d.alu3 n rd ra rb fun f a b => znF f (if a.slt b then 1 else 0)
/-- SLTU. -/
def Dev.opSltu (d : Dev) (n rd ra rb : Nat) : Dev := d.alu3 n rd ra rb fun f a b => znF f (if a.ult b then 1 else 0)
/-- CLZ. -/
def Dev.opClz (d : Dev) (n rd ra : Nat) : Dev := d.alu3 n rd ra 0 fun f a _ => znF f (BitVec.ofNat 64 (clz a))
/-- CTZ. -/
def Dev.opCtz (d : Dev) (n rd ra : Nat) : Dev := d.alu3 n rd ra 0 fun f a _ => znF f (BitVec.ofNat 64 (ctz a))
/-- POPC. -/
def Dev.opPopc (d : Dev) (n rd ra : Nat) : Dev := d.alu3 n rd ra 0 fun f a _ => znF f (BitVec.ofNat 64 (popc a))
/-- BSWAP. -/
def Dev.opBswap (d : Dev) (n rd ra : Nat) : Dev := d.alu3 n rd ra 0 fun f a _ => znF f (bswap a)

/-- CSEL: rd := ra when condition `cc` holds, else rb; ILLEGAL for a code Table 8.11 does not list. -/
def Dev.opCsel (d : Dev) (n rd ra rb cc : Nat) : Dev :=
  d.run n fun d c a => match condHolds c.flags cc with
    | none => illegalAt (encR 0x01 rd ra rb cc 0x19) a d
    | some b => .done (a + 4) false (d.setCore n (c.ww rd (if b then c.rw ra else c.rw rb)))

/-- MUL. -/
def Dev.opMul (d : Dev) (n rd ra rb : Nat) : Dev := d.alu3 n rd ra rb mulF
/-- MULH: the signed high half. -/
def Dev.opMulh (d : Dev) (n rd ra rb : Nat) : Dev :=
  d.alu3 n rd ra rb fun f a b => znF f (BitVec.ofInt 64 ((a.toInt * b.toInt) / 2 ^ 64))
/-- MULHU: the unsigned high half. -/
def Dev.opMulhu (d : Dev) (n rd ra rb : Nat) : Dev :=
  d.alu3 n rd ra rb fun f a b => znF f (BitVec.ofNat 64 (a.toNat * b.toNat / 2 ^ 64))

/-- DIV and DIVU (R189): DIVZERO under UCTL.DivTrap; the remainder to rc, then the quotient to rd. -/
def Dev.divide (d : Dev) (n rd ra rb rc : Nat) (signed : Bool) : Dev :=
  d.run n fun d c a =>
    if c.rw rb = 0 ∧ c.uctl.getLsbD 0 then trapAt 0x0A 0 a d
    else
      let (q, r, fl) := divF c.flags (c.rw ra) (c.rw rb) signed
      .done (a + 4) false (d.setCore n { (c.ww rc r).ww rd q with flags := fl })

/-- DIV. -/
def Dev.opDiv (d : Dev) (n rd ra rb rc : Nat) : Dev := d.divide n rd ra rb rc true
/-- DIVU. -/
def Dev.opDivu (d : Dev) (n rd ra rb rc : Nat) : Dev := d.divide n rd ra rb rc false

/-- ADDI. -/
def Dev.opAddi (d : Dev) (n rd ra : Nat) (imm : BitVec 16) : Dev := d.aluI n rd ra (imm.signExtend 64) fun f a b => addF f a b false
/-- ANDI. -/
def Dev.opAndi (d : Dev) (n rd ra : Nat) (imm : BitVec 16) : Dev := d.aluI n rd ra (imm.zeroExtend 64) fun f a b => znF f (a &&& b)
/-- ORI. -/
def Dev.opOri (d : Dev) (n rd ra : Nat) (imm : BitVec 16) : Dev := d.aluI n rd ra (imm.zeroExtend 64) fun f a b => znF f (a ||| b)
/-- XORI. -/
def Dev.opXori (d : Dev) (n rd ra : Nat) (imm : BitVec 16) : Dev := d.aluI n rd ra (imm.zeroExtend 64) fun f a b => znF f (a ^^^ b)
/-- CMPI: flags from ra − sext(imm16). -/
def Dev.opCmpi (d : Dev) (n ra : Nat) (imm : BitVec 16) : Dev := d.aluI n 0 ra (imm.signExtend 64) fun f a b => subF f a b false

/-- MOVZ: rd := imm16 × 2^(16h), h = ra[1:0]; ra[4:2] must be 0. -/
def Dev.opMovz (d : Dev) (n rd h : Nat) (imm : BitVec 16) : Dev :=
  d.run n fun d c a =>
    if 4 ≤ h then illegalAt (encI 0x08 rd h imm.toNat) a d
    else .done (a + 4) false (d.setCore n (c.ww rd (BitVec.ofNat 64 (imm.toNat * 2 ^ (16 * h)))))

/-- MOVK: bits [16h+15:16h] of rd := imm16, the others kept. -/
def Dev.opMovk (d : Dev) (n rd h : Nat) (imm : BitVec 16) : Dev :=
  d.run n fun d c a =>
    if 4 ≤ h then illegalAt (encI 0x09 rd h imm.toNat) a d
    else .done (a + 4) false (d.setCore n (c.ww rd (BitVec.ofNat 64 (setField (c.rw rd).toNat (2 * h) 2 imm.toNat))))

/-- A shift by imm16[5:0]; imm16[15:6] must be 0. -/
def Dev.shiftI (d : Dev) (n op rd ra : Nat) (imm : BitVec 16) (f : Word → Nat → Word) : Dev :=
  d.run n fun d c a =>
    if 64 ≤ imm.toNat then illegalAt (encI op rd ra imm.toNat) a d
    else
      let r := f (c.rw ra) imm.toNat
      .done (a + 4) false (d.setCore n { c.ww rd r with flags := flagsZN c.flags r })

/-- SLLI. -/
def Dev.opSlli (d : Dev) (n rd ra : Nat) (imm : BitVec 16) : Dev := d.shiftI n 0x0A rd ra imm sll
/-- SRLI. -/
def Dev.opSrli (d : Dev) (n rd ra : Nat) (imm : BitVec 16) : Dev := d.shiftI n 0x0B rd ra imm srl
/-- SRAI. -/
def Dev.opSrai (d : Dev) (n rd ra : Nat) (imm : BitVec 16) : Dev := d.shiftI n 0x0C rd ra imm sra
/-- RORI. -/
def Dev.opRori (d : Dev) (n rd ra : Nat) (imm : BitVec 16) : Dev := d.shiftI n 0x0D rd ra imm ror

end Sys2Proof.Machine
end

