-- ==== Sys2Proof/Machine/ErrilMem.lean ====
section
/-! DEFINITION. Erril memory instructions: loads, stores, vector moves and atomics (R182 to R184, R193, R194). -/
namespace Sys2Proof.Machine

/-- Continues an access of core `n`: its trap, its abandonment, or `k` at the location. -/
def Dev.withAcc (d : Dev) (n a : Nat) (ea : Int) (len need acc : Nat) (k : Dev → Nat → Nat → Res) : Res :=
  match d.coreAccess n ea len need acc with
  | .trap code det v d => .trap code det v a false d
  | .wait d => .stay d
  | .gone d => if need = 2 then .done (a + 4) false d else .stay d
  | .ok loc cls d => k d loc cls

/-- A store of `len` bytes, after which the lines it covers hold no Poison. -/
def Dev.storeAt (d : Dev) (loc len v : Nat) : Dev := (d.pokeLe loc len v).cleanPoison loc len

/-- Loads `len` bytes, zero- or sign-extended, into rt. -/
def Dev.load (d : Dev) (n rt : Nat) (ea : Core → Int) (len : Nat) (sx : Bool) : Dev :=
  d.run n fun d c a => d.withAcc n a (ea c) len 1 1 fun d loc _ =>
    let v := d.peekLe loc len
    let r : Word := if sx then BitVec.ofInt 64 (signedOf len v) else BitVec.ofNat 64 v
    .done (a + 4) false (d.setCore n ((d.core n).ww rt r))

/-- Stores the low `len` bytes of rt. -/
def Dev.store (d : Dev) (n rt : Nat) (ea : Core → Int) (len : Nat) : Dev :=
  d.run n fun d c a => d.withAcc n a (ea c) len 2 2 fun d loc _ =>
    .done (a + 4) false (d.storeAt loc len (c.rw rt).toNat)

/-- LD. -/
def Dev.opLd (d : Dev) (n rt base k : Nat) (d12 : BitVec 12) : Dev := d.load n rt (eaBased · k base d12) 8 false
/-- LW. -/
def Dev.opLw (d : Dev) (n rt base k : Nat) (d12 : BitVec 12) : Dev := d.load n rt (eaBased · k base d12) 4 false
/-- LWS. -/
def Dev.opLws (d : Dev) (n rt base k : Nat) (d12 : BitVec 12) : Dev := d.load n rt (eaBased · k base d12) 4 true
/-- LH. -/
def Dev.opLh (d : Dev) (n rt base k : Nat) (d12 : BitVec 12) : Dev := d.load n rt (eaBased · k base d12) 2 false
/-- LHS. -/
def Dev.opLhs (d : Dev) (n rt base k : Nat) (d12 : BitVec 12) : Dev := d.load n rt (eaBased · k base d12) 2 true
/-- LB. -/
def Dev.opLb (d : Dev) (n rt base k : Nat) (d12 : BitVec 12) : Dev := d.load n rt (eaBased · k base d12) 1 false
/-- LBS. -/
def Dev.opLbs (d : Dev) (n rt base k : Nat) (d12 : BitVec 12) : Dev := d.load n rt (eaBased · k base d12) 1 true
/-- ST. -/
def Dev.opSt (d : Dev) (n rt base k : Nat) (d12 : BitVec 12) : Dev := d.store n rt (eaBased · k base d12) 8
/-- SW. -/
def Dev.opSw (d : Dev) (n rt base k : Nat) (d12 : BitVec 12) : Dev := d.store n rt (eaBased · k base d12) 4
/-- SH. -/
def Dev.opSh (d : Dev) (n rt base k : Nat) (d12 : BitVec 12) : Dev := d.store n rt (eaBased · k base d12) 2
/-- SB. -/
def Dev.opSb (d : Dev) (n rt base k : Nat) (d12 : BitVec 12) : Dev := d.store n rt (eaBased · k base d12) 1
/-- Short-form LD. -/
def Dev.opLdShort (d : Dev) (n rt k : Nat) (a20 : BitVec 20) : Dev := d.load n rt (eaShort · k a20) 8 false
/-- Short-form LW. -/
def Dev.opLwShort (d : Dev) (n rt k : Nat) (a20 : BitVec 20) : Dev := d.load n rt (eaShort · k a20) 4 false
/-- Short-form ST. -/
def Dev.opStShort (d : Dev) (n rt k : Nat) (a20 : BitVec 20) : Dev := d.store n rt (eaShort · k a20) 8
/-- Short-form SW. -/
def Dev.opSwShort (d : Dev) (n rt k : Nat) (a20 : BitVec 20) : Dev := d.store n rt (eaShort · k a20) 4

/-- VLD: all 64 bytes, or none when it traps (R193). -/
def Dev.opVld (d : Dev) (n vt base k : Nat) (d12 : BitVec 12) : Dev :=
  d.run n fun d c a => d.withAcc n a (eaBased c k base d12) 64 1 1 fun d loc _ =>
    .done (a + 4) false (d.setCore n ((d.core n).wv vt (BitVec.ofNat 512 (d.peekLe loc 64))))

/-- VST. -/
def Dev.opVst (d : Dev) (n vt base k : Nat) (d12 : BitVec 12) : Dev :=
  d.run n fun d c a => d.withAcc n a (eaBased c k base d12) 64 2 2 fun d loc _ =>
    .done (a + 4) false (d.storeAt loc 64 (c.rv vt).toNat)

/-- PREF: never traps but by ILLEGAL, and changes no state (Table 8.9). -/
def Dev.opPref (d : Dev) (n _base _k : Nat) (_d12 : BitVec 12) : Dev := d.runReg n id

/-- An atomic read and write of an 8-byte word (R194). The page must allow both (R211). -/
def Dev.amo (d : Dev) (n rd base k rb : Nat) (f : Word → Word → Word) : Dev :=
  d.run n fun d c a => d.withAcc n a (eaBased c k base 0) 8 1 4 fun d _ _ =>
    d.withAcc n a (eaBased c k base 0) 8 2 4 fun d loc _ =>
      let old := BitVec.ofNat 64 (d.peekLe loc 8)
      let d := d.storeAt loc 8 (f old (c.rw rb)).toNat
      .done (a + 4) false (d.setCore n ((d.core n).ww rd old))

/-- AMO SWAP. -/
def Dev.opAmoSwap (d : Dev) (n rd base k rb : Nat) : Dev := d.amo n rd base k rb fun _ b => b
/-- AMO ADD. -/
def Dev.opAmoAdd (d : Dev) (n rd base k rb : Nat) : Dev := d.amo n rd base k rb fun a b => a + b
/-- AMO AND. -/
def Dev.opAmoAnd (d : Dev) (n rd base k rb : Nat) : Dev := d.amo n rd base k rb fun a b => a &&& b
/-- AMO OR. -/
def Dev.opAmoOr (d : Dev) (n rd base k rb : Nat) : Dev := d.amo n rd base k rb fun a b => a ||| b
/-- AMO XOR. -/
def Dev.opAmoXor (d : Dev) (n rd base k rb : Nat) : Dev := d.amo n rd base k rb fun a b => a ^^^ b
/-- AMO MIN. -/
def Dev.opAmoMin (d : Dev) (n rd base k rb : Nat) : Dev := d.amo n rd base k rb fun a b => if a.slt b then a else b
/-- AMO MAX. -/
def Dev.opAmoMax (d : Dev) (n rd base k rb : Nat) : Dev := d.amo n rd base k rb fun a b => if a.slt b then b else a
/-- AMO MINU. -/
def Dev.opAmoMinu (d : Dev) (n rd base k rb : Nat) : Dev := d.amo n rd base k rb fun a b => if a.ult b then a else b
/-- AMO MAXU. -/
def Dev.opAmoMaxu (d : Dev) (n rd base k rb : Nat) : Dev := d.amo n rd base k rb fun a b => if a.ult b then b else a

/-- AMO CAS: written only when the word equals the prior rd; Z tells (R194). -/
def Dev.opAmoCas (d : Dev) (n rd base k rb : Nat) : Dev :=
  d.run n fun d c a => d.withAcc n a (eaBased c k base 0) 8 1 4 fun d _ _ =>
    d.withAcc n a (eaBased c k base 0) 8 2 4 fun d loc _ =>
      let old := BitVec.ofNat 64 (d.peekLe loc 8)
      let ok := old = c.rw rd
      let d := if ok then d.storeAt loc 8 (c.rw rb).toNat else d
      let c := d.core n
      .done (a + 4) false (d.setCore n { c.ww rd old with flags := setF c.flags 0 ok })

end Sys2Proof.Machine
end

