-- ==== Sys2Proof/Machine/ErrilFlow.lean ====
section
/-! DEFINITION. Erril control flow, loops, register moves and system instructions (Tables 8.9 and 8.10, R181, R183, R190, R195
to R198), and the asynchronous traps of a core. -/
namespace Sys2Proof.Machine

/-- pc + 4 · disp, modulo the 48-bit pc. [DEDUCED, log 21] -/
def pcRel (a : Nat) (words : Int) : Nat := (((a : Int) + 4 * words) % (2 ^ 48 : Int)).toNat

/-- A conditional branch by `cond` of ra and rb. [DEDUCED, log 21] -/
def Dev.branch (d : Dev) (n ra rb : Nat) (d16 : BitVec 16) (cond : Word → Word → Bool) : Dev :=
  d.run n fun d c a =>
    if cond (c.rw ra) (c.rw rb) then .done (pcRel a d16.toInt) true d else .done (a + 4) false d

/-- BEQ. -/
def Dev.opBeq (d : Dev) (n ra rb : Nat) (d16 : BitVec 16) : Dev := d.branch n ra rb d16 fun a b => a == b
/-- BNE. -/
def Dev.opBne (d : Dev) (n ra rb : Nat) (d16 : BitVec 16) : Dev := d.branch n ra rb d16 fun a b => a != b
/-- BLT. -/
def Dev.opBlt (d : Dev) (n ra rb : Nat) (d16 : BitVec 16) : Dev := d.branch n ra rb d16 fun a b => a.slt b
/-- BGE. -/
def Dev.opBge (d : Dev) (n ra rb : Nat) (d16 : BitVec 16) : Dev := d.branch n ra rb d16 fun a b => !a.slt b
/-- BLTU. -/
def Dev.opBltu (d : Dev) (n ra rb : Nat) (d16 : BitVec 16) : Dev := d.branch n ra rb d16 fun a b => a.ult b
/-- BGEU. -/
def Dev.opBgeu (d : Dev) (n ra rb : Nat) (d16 : BitVec 16) : Dev := d.branch n ra rb d16 fun a b => !a.ult b

/-- BF: on condition `cc` of Table 8.11; ILLEGAL for a code the table does not list. -/
def Dev.opBf (d : Dev) (n cc : Nat) (d16 : BitVec 16) : Dev :=
  d.run n fun d c a => match condHolds c.flags cc with
    | none => illegalAt (encB 0x26 cc 0 d16.toNat) a d
    | some b => if b then .done (pcRel a d16.toInt) true d else .done (a + 4) false d

/-- J. -/
def Dev.opJ (d : Dev) (n : Nat) (d26 : BitVec 26) : Dev := d.run n fun d _ a => .done (pcRel a d26.toInt) true d

/-- JAL: w31 := pc + 4, then the jump. -/
def Dev.opJal (d : Dev) (n : Nat) (d26 : BitVec 26) : Dev :=
  d.run n fun d c a => .done (pcRel a d26.toInt) true (d.setCore n (c.ww 31 (BitVec.ofNat 64 (a + 4))))

/-- JR: rd := pc + 4, then pc := w[ra]. A target that is not a multiple of 4 raises FETCH_MISALIGNED and writes nothing. -/
def Dev.opJr (d : Dev) (n rd ra : Nat) : Dev :=
  d.run n fun d c a =>
    let t := (c.rw ra).toNat
    if t % 4 ≠ 0 then trapAt 0x06 t a d else .done t true (d.setCore n (c.ww rd (BitVec.ofNat 64 (a + 4))))

/-- LOOP (R190). An n16 of 0 raises ILLEGAL. -/
def Dev.opLoop (d : Dev) (n lvl rc : Nat) (n16 : BitVec 16) : Dev :=
  d.run n fun d c a =>
    if n16 = 0 then illegalAt (encL lvl rc 0) a d
    else
      let le := BitVec.ofNat 48 (a + 4 * n16.toNat)
      let k := c.rw rc
      let c := ((c.wls lvl (BitVec.ofNat 48 (a + 4))).wle lvl le).wlc lvl k
      .done (if k = 0 then (le + 4).toNat else a + 4) false (d.setCore n c)

/-- LCLR: lc[rc] := 0, with rc 0 or 1. -/
def Dev.opLclr (d : Dev) (n rc : Nat) : Dev :=
  d.run n fun d c a =>
    if 2 ≤ rc then illegalAt (encR 0x00 0 0 0 rc 0x09) a d else .done (a + 4) false (d.setCore n (c.wlc rc 0))

/-- SETB: b[k] := ra with bits [19:0] cleared; ADDRESS_RANGE when ra[63:48] is not 0. -/
def Dev.opSetb (d : Dev) (n rd ra : Nat) : Dev :=
  d.run n fun d c a =>
    if 8 ≤ rd then illegalAt (encR 0x2C rd ra 0 0 0) a d
    else
      let v := c.rw ra
      if 2 ^ 48 ≤ v.toNat then trapAt 0x04 v.toNat a d else .done (a + 4) false (d.setCore n (c.wb rd (v.truncate 48)))

/-- GETB: rd := b[k]. -/
def Dev.opGetb (d : Dev) (n rd ra : Nat) : Dev :=
  d.run n fun d c a =>
    if 8 ≤ ra then illegalAt (encR 0x2C rd ra 0 0 1) a d
    else .done (a + 4) false (d.setCore n (c.ww rd ((c.rb ra).zeroExtend 64)))

/-- SETL: loop register rc := ra; address bits [1:0] and [63:48] are cleared. -/
def Dev.opSetl (d : Dev) (n rc ra : Nat) : Dev :=
  d.run n fun d c a =>
    let v := c.rw ra
    let v48 : W48 := BitVec.ofNat 48 (v.toNat / 4 * 4)
    if 6 ≤ rc then illegalAt (encR 0x2C 0 ra 0 rc 2) a d
    else .done (a + 4) false (d.setCore n
      (if rc < 2 then c.wlc rc v else if rc < 4 then c.wls (rc - 2) v48 else c.wle (rc - 4) v48))

/-- GETL: rd := loop register rc. -/
def Dev.opGetl (d : Dev) (n rd rc : Nat) : Dev :=
  d.run n fun d c a =>
    if 6 ≤ rc then illegalAt (encR 0x2C rd 0 0 rc 3) a d
    else .done (a + 4) false (d.setCore n (c.ww rd
      (if rc < 2 then c.rlc rc else if rc < 4 then (c.rls (rc - 2)).zeroExtend 64 else (c.rle (rc - 4)).zeroExtend 64)))

/-- SETS: string register rc := ra. -/
def Dev.opSets (d : Dev) (n rc ra : Nat) : Dev :=
  d.run n fun d c a =>
    let v := c.rw ra
    let go (c : Core) : Res := .done (a + 4) false (d.setCore n c)
    match rc with
    | 0 => go { c with ps := v } | 1 => go { c with pd := v } | 2 => go { c with pn := v } | 3 => go { c with pk := v }
    | _ => illegalAt (encR 0x2C 0 ra 0 rc 4) a d

/-- GETS: rd := string register rc. -/
def Dev.opGets (d : Dev) (n rd rc : Nat) : Dev :=
  d.run n fun d c a =>
    let go (v : Word) : Res := .done (a + 4) false (d.setCore n (c.ww rd v))
    match rc with
    | 0 => go c.ps | 1 => go c.pd | 2 => go c.pn | 3 => go c.pk
    | _ => illegalAt (encR 0x2C rd 0 0 rc 5) a d

/-- NOP. -/
def Dev.opNop (d : Dev) (n : Nat) : Dev := d.runReg n id

/-- FENCE: one core's instructions take effect in order here, so every earlier access is complete (R179). -/
def Dev.opFence (d : Dev) (n : Nat) : Dev := d.runReg n id

/-- IFENCE: discards the instruction cache lines of the core; instructions come with their commands, so no line is held. -/
def Dev.opIfence (d : Dev) (n : Nat) : Dev := d.runReg n id

/-- ILLEGAL_INSTRUCTION: a word that no encoding lists raises ILLEGAL (R186); a listed word is not this event. -/
def Dev.opIllegal (d : Dev) (n : Nat) (w : BitVec 32) : Dev :=
  if legalWord w.toNat then d else d.run n fun d _ a => illegalAt w.toNat a d

/-- TRAP with a service code; epc is pc + 4 (R196). -/
def Dev.opTrap (d : Dev) (n code : Nat) : Dev := d.run n fun d _ a => .trap 0x0B 0 (code % 1024) (a + 4) false d

/-- YIELD; epc is pc + 4 (R196). -/
def Dev.opYield (d : Dev) (n : Nat) : Dev := d.run n fun d _ a => .trap 0x0C 0 0 (a + 4) false d

/-- URET: pc := UEPC, InHandler := 0 (Table 8.10). -/
def Dev.opUret (d : Dev) (n : Nat) : Dev :=
  d.run n fun d c a =>
    let t := c.uepc.toNat
    if t % 4 ≠ 0 then trapAt 0x06 t a d
    else .done t true (d.setCore n { c with uctl := maskIn c.uctl 0 2 })

/-- Another context that was to be dispatched on core `n` may run elsewhere. -/
def Dev.unbind (d : Dev) (n k : Nat) : Dev :=
  d.mem.contexts.foldl (fun d p => if p.1 ≠ k ∧ (d.ctx p.1).core = some n ∧ (d.ctx p.1).st = 1 then d.setCtx p.1 { d.ctx p.1 with core := none } else d) d

/-- The context that SRET loads from the save area at CTXPTR (R199 to R201): refused for a wrong Crc, an old generation or an
inexact area, and the context whose area it is then ends; one that owns another core's scratch is not loaded (R222). [DEDUCED, log 18] -/
def Dev.loadContext (d : Dev) (n : Nat) : Option Dev × Dev :=
  let c := d.core n
  let area := d.peekN c.ctxptr.toNat 4096
  let k := areaF area 4 2
  let inst := areaF area 6 2
  if ¬ areaOk area then (none, d.endCtx (areaCtx c.ctxptr.toNat k) 0x03 0x0F 0 (areaF area 0x10 8))
  else if areaF area 8 1 ≠ d.instGen inst then (none, d.endCtx k 0x03 0 0 0 false)
  else if bit (areaF area 2 2) 0 then (none, d.endCtx k 0x03 0x0E 0 (areaF area 0x10 8))
  else if (d.ctx k).scratchCore ≠ 0xFFFF ∧ (d.ctx k).scratchCore ≠ uCoreN n then (none, d)
  else
    let d := (d.unbind n k).setCtx k { d.ctx k with st := 2, core := some n, inexact := false }
    (some (d.setCore n (loadRegs (d.core n) area)), d)

/-- SRET (R196): supervisor only. [DESIGN CHOICE, log 7; DEDUCED, log 18] -/
def Dev.opSret (d : Dev) (n : Nat) : Dev :=
  d.run n fun d c a =>
    if ¬ c.sup then trapAt 0x03 (encR 0 0 0 0 0 3) a d
    else
      let fin (d : Dev) : Res :=
        let c := d.core n
        let t := c.sepc.toNat
        if t % 4 ≠ 0 then trapAt 0x06 t a d
        else
          let st := setF (setF (setF c.status 4 false) 0 (c.status.getLsbD 2)) 1 (c.status.getLsbD 3)
          .done t true (d.setCore n { c with status := st })
      if ¬ c.status.getLsbD 2 ∧ c.status.getLsbD 4 then
        match d.loadContext n with
        | (some d, _) => fin d
        | (none, d) => .done (a + 4) true (d.setCore n { d.core n with status := setF (d.core n).status 4 false })
      else fin d

/-- WFI: supervisor only; the core waits until an asynchronous trap is pending. -/
def Dev.opWfi (d : Dev) (n : Nat) : Dev :=
  d.run n fun d c a =>
    if ¬ c.sup then trapAt 0x03 (encR 0 0 0 0 0 6) a d else .done (a + 4) false (d.setCore n { c with wfi := true })

/-- MFC (R181). -/
def Dev.opMfc (d : Dev) (n rd cr : Nat) : Dev :=
  d.run n fun d c a =>
    let w := encR 0 rd 0 cr 0 7
    if ¬ crListed cr then illegalAt w a d
    else if crSup cr ∧ ¬ c.sup then trapAt 0x03 w a d
    else .done (a + 4) false (d.setCore n (c.ww rd (d.readCr n cr)))

/-- MTC (R181). -/
def Dev.opMtc (d : Dev) (n cr ra : Nat) : Dev :=
  d.run n fun d c a =>
    let w := encR 0 0 ra cr 0 8
    let v := c.rw ra
    if ¬ crListed cr ∨ crReadOnly cr c.sup ∨ crRsv cr v.toNat then illegalAt w a d
    else if crSup cr ∧ ¬ c.sup then trapAt 0x03 w a d
    else .done (a + 4) false (d.setCore n (c.writeCr cr v))

/-- SLICE_EXPIRE (R222): in user mode with SLICE running, SLICE reaches 0 and PREEMPT Detail 0x00 is raised. [DEDUCED, log 78] -/
def Dev.sliceExpire (d : Dev) (n : Nat) : Dev :=
  let c := d.core n
  if d.canRun n ∧ ¬ c.sup ∧ c.slice ≠ 0 then d.setCore n { c with slice := 0, preempt := some (c.preempt.getD 0) } else d

/-- ASYNC_TRAP_TAKE (R195): a pending asynchronous trap is taken at the boundary. -/
def Dev.asyncTrapTake (d : Dev) (n : Nat) : Dev := if d.canRun n ∧ (d.core n).asyncDue then d.takeAsync n else d

end Sys2Proof.Machine
end

