-- ==== Sys2Proof/Machine/ErrilStr.lean ====
section
/-! DEFINITION. Erril string instructions (R191, R192): one element at a time, in ascending order, each element whole or
without effect. A command carries how many elements complete before it ends at an element boundary. -/
namespace Sys2Proof.Machine

/-- What one element does: go on, complete the instruction, trap, or be abandoned. -/
inductive Elem where
  | next (d : Dev)
  | stop (d : Dev)
  | trap (code detail value : Nat) (d : Dev)
  | wait (d : Dev)

/-- The source or destination access of an element: its location, or none for a store whose request is discarded (R206, R296). -/
def Dev.elemAcc (d : Dev) (n : Nat) (at_ : Word) (sz need : Nat) (k : Dev → Option Nat → Elem) : Elem :=
  match d.coreAccess n at_.toNat sz need need with
  | .ok loc _ d => k d (some loc)
  | .trap code det v d => .trap code det v d
  | .wait d => .wait d
  | .gone d => if need = 2 then k d none else .wait d

/-- An element of a load. -/
def Dev.elemLoad (d : Dev) (n : Nat) (at_ : Word) (sz : Nat) (k : Dev → Nat → Elem) : Elem :=
  d.elemAcc n at_ sz 1 fun d o => match o with
    | some loc => k d (d.peekLe loc sz)
    | none => .wait d

/-- An element of a store. -/
def Dev.elemStore (d : Dev) (n : Nat) (at_ : Word) (sz v : Nat) (k : Dev → Elem) : Elem :=
  d.elemAcc n at_ sz 2 fun d o => k (match o with | some loc => d.storeAt loc sz v | none => d)

/-- Runs up to `fuel` elements while pn ≠ 0; `last` is what completing with pn = 0 does. -/
def strLoop (n : Nat) (elem : Dev → Elem) (last : Core → Core) (a : Nat) : Nat → Dev → Res
  | 0, d =>
    let c := d.core n
    if c.pn = 0 then .done (a + 4) false (d.setCore n (last c)) else .stay (d.setCore n { c with inStr := true })
  | fuel + 1, d =>
    let c := d.core n
    if c.pn = 0 then .done (a + 4) false (d.setCore n (last c))
    else match elem d with
      | .next d => strLoop n elem last a fuel (d.setCore n { d.core n with pn := (d.core n).pn - 1 })
      | .stop d => .done (a + 4) false d
      | .trap code det v d => .trap code det v a true d
      | .wait d => .stay (d.setCore n { d.core n with inStr := true })

/-- A string instruction of at most `lim` elements in this command. -/
def Dev.str (d : Dev) (n lim : Nat) (elem : Dev → Elem) (last : Core → Core := id) : Dev :=
  d.run n fun d _ a => strLoop n elem last a lim d

/-- Element size in bytes of func[1:0]. -/
def strSz (es : Nat) : Nat := 2 ^ es

/-- The pattern pk modulo 2^(8·sz). -/
def patOf (c : Core) (sz : Nat) : Nat := c.pk.toNat % 2 ^ (8 * sz)

/-- Advances a string address. -/
def bump (a : Word) (sz : Nat) : Word := a + BitVec.ofNat 64 sz

/-- MOVS. -/
def Dev.opMovs (d : Dev) (n es lim : Nat) : Dev :=
  let sz := strSz es
  d.str n lim fun d0 =>
    let c := d0.core n
    d0.elemLoad n c.ps sz fun d x =>
      d.elemStore n c.pd sz x fun d =>
        .next (d.setCore n { d.core n with ps := bump c.ps sz, pd := bump c.pd sz })

/-- FILLS. -/
def Dev.opFills (d : Dev) (n es lim : Nat) : Dev :=
  let sz := strSz es
  d.str n lim fun d0 =>
    let c := d0.core n
    d0.elemStore n c.pd sz (patOf c sz) fun d =>
      .next (d.setCore n { d.core n with pd := bump c.pd sz })

/-- Flags of CMPS at a mismatch: Z 0, V 0, C unsigned below, N signed below at the element width. -/
def cmpsFlags (f : Word) (sz x y : Nat) : Word :=
  setF (setF (setF (setF f 0 false) 3 false) 2 (decide (x < y))) 1 (decide (signedOf sz x < signedOf sz y))

/-- CMPS. -/
def Dev.opCmps (d : Dev) (n es lim : Nat) : Dev :=
  let sz := strSz es
  d.str n lim (fun d0 =>
    let c := d0.core n
    d0.elemLoad n c.ps sz fun d x =>
      d.elemLoad n c.pd sz fun d y =>
        let c' := d.core n
        if x ≠ y then .stop (d.setCore n { c' with flags := cmpsFlags c'.flags sz x y })
        else .next (d.setCore n { c' with ps := bump c.ps sz, pd := bump c.pd sz }))
    fun c => { c with flags := setF (setF (setF (setF c.flags 0 true) 1 false) 2 false) 3 false }

/-- SCANS. -/
def Dev.opScans (d : Dev) (n es lim : Nat) : Dev :=
  let sz := strSz es
  d.str n lim (fun d0 =>
    let c := d0.core n
    d0.elemLoad n c.ps sz fun d x =>
      let c' := d.core n
      if x = patOf c sz then .stop (d.setCore n { c' with flags := setF c'.flags 0 true })
      else .next (d.setCore n { c' with ps := bump c.ps sz }))
    fun c => { c with flags := setF c.flags 0 false }

/-- HASHS: the CRC-32C state in pk, bits [63:32] cleared. -/
def Dev.opHashs (d : Dev) (n lim : Nat) : Dev :=
  d.str n lim fun d0 =>
    let c := d0.core n
    d0.elemLoad n c.ps 1 fun d x =>
      .next (d.setCore n { d.core n with pk := BitVec.ofNat 64 (crc32cUpdate (c.pk.toNat % 2 ^ 32) (BitVec.ofNat 8 x)), ps := bump c.ps 1 })

end Sys2Proof.Machine
end

