-- ==== Sys2Proof/Machine/ErrilVec.lean ====
section
/-! DEFINITION. Erril vector instructions (Table 8.10, R193). -/
namespace Sys2Proof.Machine

/-- An instruction of two vector sources. -/
def Dev.vec2 (d : Dev) (n vd va vb : Nat) (f : Vec → Vec → Vec) : Dev := d.runReg n fun c => c.wv vd (f (c.rv va) (c.rv vb))

/-- VADD. -/
def Dev.opVadd (d : Dev) (n es vd va vb : Nat) : Dev := d.vec2 n vd va vb (lanes2 es fun a b => a + b)
/-- VSUB. -/
def Dev.opVsub (d : Dev) (n es vd va vb : Nat) : Dev := d.vec2 n vd va vb (lanes2 es fun a b => a + 2 ^ laneW es - b)
/-- VMUL: the low half. -/
def Dev.opVmul (d : Dev) (n es vd va vb : Nat) : Dev := d.vec2 n vd va vb (lanes2 es fun a b => a * b)
/-- VAND. -/
def Dev.opVand (d : Dev) (n vd va vb : Nat) : Dev := d.vec2 n vd va vb fun a b => a &&& b
/-- VOR. -/
def Dev.opVor (d : Dev) (n vd va vb : Nat) : Dev := d.vec2 n vd va vb fun a b => a ||| b
/-- VXOR. -/
def Dev.opVxor (d : Dev) (n vd va vb : Nat) : Dev := d.vec2 n vd va vb fun a b => a ^^^ b
/-- VANDN. -/
def Dev.opVandn (d : Dev) (n vd va vb : Nat) : Dev := d.vec2 n vd va vb fun a b => a &&& ~~~b
/-- VMIN, signed. -/
def Dev.opVmin (d : Dev) (n es vd va vb : Nat) : Dev := d.vec2 n vd va vb (lanes2 es fun a b => if laneS es a < laneS es b then a else b)
/-- VMAX, signed. -/
def Dev.opVmax (d : Dev) (n es vd va vb : Nat) : Dev := d.vec2 n vd va vb (lanes2 es fun a b => if laneS es a < laneS es b then b else a)
/-- VMINU. -/
def Dev.opVminu (d : Dev) (n es vd va vb : Nat) : Dev := d.vec2 n vd va vb (lanes2 es fun a b => min a b)
/-- VMAXU. -/
def Dev.opVmaxu (d : Dev) (n es vd va vb : Nat) : Dev := d.vec2 n vd va vb (lanes2 es fun a b => max a b)
/-- All ones of a lane when `p` holds, else 0. -/
def laneMask (es : Nat) (p : Bool) : Nat := if p then 2 ^ laneW es - 1 else 0
/-- VCMPEQ. -/
def Dev.opVcmpeq (d : Dev) (n es vd va vb : Nat) : Dev := d.vec2 n vd va vb (lanes2 es fun a b => laneMask es (a == b))
/-- VCMPGT, signed. -/
def Dev.opVcmpgt (d : Dev) (n es vd va vb : Nat) : Dev := d.vec2 n vd va vb (lanes2 es fun a b => laneMask es (decide (laneS es b < laneS es a)))
/-- VCMPGTU. -/
def Dev.opVcmpgtu (d : Dev) (n es vd va vb : Nat) : Dev := d.vec2 n vd va vb (lanes2 es fun a b => laneMask es (decide (b < a)))
/-- VSLL: 0 at the lane width or more. -/
def Dev.opVsll (d : Dev) (n es vd va vb : Nat) : Dev := d.vec2 n vd va vb (lanes2 es fun a b => if laneW es ≤ b then 0 else a * 2 ^ b)
/-- VSRL. -/
def Dev.opVsrl (d : Dev) (n es vd va vb : Nat) : Dev := d.vec2 n vd va vb (lanes2 es fun a b => if laneW es ≤ b then 0 else a / 2 ^ b)
/-- VSRA: the sign at the lane width or more. -/
def Dev.opVsra (d : Dev) (n es vd va vb : Nat) : Dev :=
  d.vec2 n vd va vb (lanes2 es fun a b => ((laneS es a / 2 ^ (min b (laneW es))) % (2 ^ laneW es : Int)).toNat)
/-- VBSL: vd := (va AND vd) OR (vb AND NOT vd). -/
def Dev.opVbsl (d : Dev) (n vd va vb : Nat) : Dev := d.runReg n fun c => c.wv vd ((c.rv va &&& c.rv vd) ||| (c.rv vb &&& ~~~(c.rv vd)))
/-- VBCAST: every lane := the low bits of w[va]. -/
def Dev.opVbcast (d : Dev) (n es vd va : Nat) : Dev := d.runReg n fun c => c.wv vd (ofLanes es fun _ => (c.rw va).toNat)

/-- VEXT: w[vd] := lane l of va; ILLEGAL for a lane index not below the lane count. -/
def Dev.opVext (d : Dev) (n es vd va l : Nat) : Dev :=
  d.run n fun d c a =>
    if laneN es ≤ l then illegalAt (encV 0x2E vd va (l % 32) es (l / 32) 1) a d
    else .done (a + 4) false (d.setCore n (c.ww vd (BitVec.ofNat 64 (lane es (c.rv va) l))))

/-- VINS: lane l of vd := w[va]. -/
def Dev.opVins (d : Dev) (n es vd va l : Nat) : Dev :=
  d.run n fun d c a =>
    if laneN es ≤ l then illegalAt (encV 0x2E vd va (l % 32) es (l / 32) 2) a d
    else .done (a + 4) false (d.setCore n (c.wv vd (putLane es (c.rv vd) l (c.rw va).toNat)))

/-- The lanes of a vector register. -/
def lanesOf (es : Nat) (v : Vec) : List Nat := (List.range (laneN es)).map (lane es v)

/-- VRSUM: the wrapping sum of the lanes, at the lane width. [DEDUCED, log 22] -/
def Dev.opVrsum (d : Dev) (n es vd va : Nat) : Dev :=
  d.runReg n fun c => c.ww vd (BitVec.ofNat 64 ((lanesOf es (c.rv va)).foldl (· + ·) 0 % 2 ^ laneW es))

/-- The lane a signed reduction selects. -/
def laneFold (es : Nat) (better : Int → Int → Bool) (v : Vec) : Nat :=
  match lanesOf es v with
  | [] => 0
  | x :: r => r.foldl (fun m y => if better (laneS es y) (laneS es m) then y else m) x

/-- VRMIN. [DEDUCED, log 22] -/
def Dev.opVrmin (d : Dev) (n es vd va : Nat) : Dev :=
  d.runReg n fun c => c.ww vd (BitVec.ofInt 64 (laneS es (laneFold es (fun y m => decide (y < m)) (c.rv va))))
/-- VRMAX. [DEDUCED, log 22] -/
def Dev.opVrmax (d : Dev) (n es vd va : Nat) : Dev :=
  d.runReg n fun c => c.ww vd (BitVec.ofInt 64 (laneS es (laneFold es (fun y m => decide (m < y)) (c.rv va))))

/-- VMSK: bit i of w[vd] := the top bit of lane i. -/
def Dev.opVmsk (d : Dev) (n es vd va : Nat) : Dev :=
  d.runReg n fun c => c.ww vd (BitVec.ofNat 64 ((List.range (laneN es)).foldl
    (fun m i => m + (if (lane es (c.rv va) i).testBit (laneW es - 1) then 2 ^ i else 0)) 0))

/-- VMOV. -/
def Dev.opVmov (d : Dev) (n vd va : Nat) : Dev := d.runReg n fun c => c.wv vd (c.rv va)

end Sys2Proof.Machine
end

