-- ==== Sys2Proof/Machine/DramQ.lean ====
section
/-! DEFINITION. DRAM requests: the address map (R299, R300), ports (R302), acceptance, the order of data and visibility (R305), and the
draining of a channel (R309). -/
namespace Sys2Proof.Machine

/-- Column bits of the burst index (Table 13.3). -/
def Chan.c (x : Chan) : Nat := if x.width = 4 then 7 else 6
/-- Bank-group bits. -/
def Chan.g (x : Chan) : Nat := if x.width = 16 then 2 else 3
/-- Rank bits. -/
def Chan.k (x : Chan) : Nat := if x.ranks = 2 then 1 else 0
/-- Row bits. -/
def Chan.r (x : Chan) : Nat := if x.gbit = 16 then 16 else 17
/-- First bit of the bank field. -/
def Chan.bankAt (x : Chan) : Nat := 9 + x.g + (x.c - 2)
/-- First bit of the row field. -/
def Chan.rowAt (x : Chan) : Nat := x.bankAt + 2 + x.k

/-- Base position of output `i` in the order of R300's default set: subchannel, bank-group bits, bank bits. -/
def Chan.base (x : Chan) (i : Nat) : Nat := if i = 0 then 6 else if i ≤ x.g then 8 + i else x.bankAt + (i - x.g - 1)

/-- Index in HashMasks of output `i`: BG2's mask is unused with two bank-group bits. -/
def Chan.maskIdx (x : Chan) (i : Nat) : Nat := if x.g < i then i + 3 - x.g else i

/-- The default mask of output `i` (R300). -/
def Chan.defMask (x : Chan) (i : Nat) : Nat :=
  (List.range x.r).foldl (fun m j => if j % (x.g + 3) = i then m + 2 ^ (x.rowAt + j) else m) (2 ^ x.base i)

/-- The mask in force of output `i`: every mask 0 selects the defaults. -/
def Chan.mask (x : Chan) (masks i : Nat) : Nat := if masks = 0 then x.defMask i else fieldOf masks (8 * x.maskIdx i) 8

/-- Number of set bits below bit `n`. -/
def popBits (m n : Nat) : Nat := ((List.range n).filter m.testBit).length

/-- Output bit `i` of an address. -/
def Chan.hash (x : Chan) (masks pa i : Nat) : Nat := popBits (x.mask masks i &&& pa) 64 % 2

/-- A set of masks is valid for the channel (R300). -/
def Chan.masksOk (x : Chan) (masks : Nat) : Bool :=
  let own := (List.range (x.g + 3)).map x.base
  fieldOf masks 48 16 = 0 ∧ (x.g = 3 ∨ fieldOf masks 24 8 = 0) ∧
    (List.range (x.g + 3)).all fun i =>
      let m := fieldOf masks (8 * x.maskIdx i) 8
      let n := popBits m 64
      1 ≤ n ∧ n ≤ 8 ∧ m < 2 ^ 40 ∧ m.testBit (x.base i) ∧
        (List.range 40).all fun b => ¬ m.testBit b ∨ b = x.base i ∨ (7 ≤ b ∧ b < x.rowAt + x.r ∧ ¬ own.contains b)

/-- Subchannel, rank, bank (4 · group + bank), row and column of a physical address (R299, R300). -/
def Dev.dramPlace (d : Dev) (pa : Nat) : Nat × Nat × Nat × Nat × Nat :=
  let x := d.chan (chanOf pa)
  let o := pa % 2 ^ 35
  let ms := d.ge oHashMasks
  let bg := (List.range x.g).foldl (fun n i => n + x.hash ms pa (i + 1) * 2 ^ i) 0
  let ba := x.hash ms pa (x.g + 1) + 2 * x.hash ms pa (x.g + 2)
  let burst := o / 2 ^ (9 + x.g) % 2 ^ (x.c - 2) * 4 + o / 2 ^ 7 % 4
  (x.hash ms pa 0, o / 2 ^ (x.bankAt + 2) % 2 ^ x.k, bg * 4 + ba, o / 2 ^ x.rowAt % 2 ^ x.r, 16 * burst)

/-- The port of a request (Table 13.4). -/
def dramPort (tag : Nat) : Nat :=
  let u := tag / 2 ^ 16 % 2 ^ 16
  let q := (quadOf u).getD 0
  if tag.testBit 0 then 0
  else match kindOf u with
  | 0x0D => 2
  | 0x0E | 0x0F => 3
  | 0x0A => 4 + q
  | 0x03 | 0x04 => 8 + q
  | 0x05 | 0x06 | 0x07 | 0x08 | 0x09 => 12 + q
  | _ => 1

/-- Subchannel `i` = 2 · channel + subchannel. -/
def Dev.subch (d : Dev) (i : Nat) : SubChan := storeGet noSub d.dram.subs i

/-- Replaces subchannel `i`. -/
def Dev.setSub (d : Dev) (i : Nat) (x : SubChan) : Dev := { d with dram := { d.dram with subs := storeSet noSub d.dram.subs i x } }

/-- Reads whose data may be returned: done, with no earlier read of the same source to the channel still to come (R305). -/
def ansReady : List DramAns → List DramAns → List DramAns
  | _, [] => []
  | seen, a :: l =>
    if a.done ∧ ¬ seen.any fun b => b.chan = a.chan ∧ b.tag / 2 ^ 16 % 2 ^ 16 = a.tag / 2 ^ 16 % 2 ^ 16 then a :: ansReady seen l
    else ansReady (a :: seen) l

/-- Returns read data in acceptance order (R305). -/
def Dev.dramReturn (d : Dev) : Dev :=
  let l := ansReady [] d.dram.ans
  let d := { d with dram := { d.dram with ans := d.dram.ans.filter fun a => ¬ l.any (·.id = a.id) } }
  l.foldl (fun d a => d.emit .bus [uChan a.chan, if a.bad then 5 else 0, tagIf a.bad a.tag] (leBytes 64 a.data)) d

/-- DRAM has given the data of read `id`, with Poison when `bad`. -/
def Dev.dramDone (d : Dev) (id : Nat) (bad : Bool) : Dev :=
  ({ d with dram := { d.dram with ans := mapIf (·.id = id) (fun a => { a with done := true, bad := a.bad || bad }) d.dram.ans } }).dramReturn

/-- Accepts a request at subchannel `i`, whose queue has room (R305): a write is visible, with the Poison its tag carries
(R30), a read takes its data. -/
def Dev.dramAccept (d : Dev) (i : Nat) (q : DramReq) : Dev :=
  let x := d.subch i
  let q := { q with at_ := d.now }
  if q.write then
    let d := d.pokeLe (q.line * 64) 64 q.data
    let d := (if q.tag.testBit 3 then d.markPoison (q.line * 64) else d.cleanPoison (q.line * 64) 64).emit .bus [uChan (i / 2), 0, q.tag]
    d.setSub i { x with writes := x.writes ++ [q], draining := x.draining || decide (48 ≤ x.writes.length + 1) }
  else
    let a : DramAns := { id := q.id, chan := i / 2, tag := q.tag, data := d.peekLe (q.line * 64) 64, bad := d.poisoned (q.line * 64) 64 }
    let d := { d with dram := { d.dram with ans := d.dram.ans ++ [a] } }
    if x.writes.any (·.line = q.line) then d.dramDone q.id false else d.setSub i { x with reads := x.reads ++ [q] }

/-- The queue of a request has room, and none of its kind waits before it (R304). -/
def SubChan.room (x : SubChan) (write : Bool) : Bool :=
  (if write then x.writes.length else x.reads.length) < 64 ∧ ¬ x.waiting.any (·.write = write)

/-- Takes the requests that wait for room at subchannel `i`. -/
def Dev.dramAdmit (d : Dev) (i : Nat) : Dev :=
  (d.subch i).waiting.foldl (fun d q =>
    let x := d.subch i
    if (if q.write then x.writes.length else x.reads.length) < 64 ∧ (x.waiting.find? fun w => w.write = q.write) = some q then
      (d.setSub i { x with waiting := x.waiting.filter (·.id ≠ q.id) }).dramAccept i q
    else d) d

/-- A request of a served channel arrives (R302, R304). [DEDUCED, log 54] -/
def Dev.dramRequest (d : Dev) (pa tag acc data : Nat) : Dev :=
  let (s, rank, bank, row, col) := d.dramPlace pa
  let i := 2 * chanOf pa + s
  let q : DramReq := { id := d.dram.reqId, write := decide (acc = 2), rank := rank, bank := bank, row := row, col := col, line := pa / 64, tag := tag, port := dramPort tag, at_ := d.now, data := data % 2 ^ 512 }
  let d := { d with dram := { d.dram with reqId := d.dram.reqId + 1 } }
  let x := d.subch i
  if x.room q.write then d.dramAccept i q else d.setSub i { x with waiting := x.waiting ++ [q] }

/-- Drains subchannel `i` (R309): every queued request is served, due neighbour refreshes are done, and every bank is precharged. -/
def Dev.subDrain (d : Dev) (i : Nat) : Dev :=
  let d := (List.range ((d.subch i).waiting.length + 1)).foldl (fun d _ =>
    let x := d.subch i
    let d := d.setSub i { x with reads := [], writes := [], draining := false }
    let d := x.reads.foldl (fun d q => d.dramDone q.id false) d
    d.dramAdmit i) d
  let x := d.subch i
  let d := x.due.foldl (fun d r => (d.emit .dram [i / 2, i % 2, 8, r.rank * 32 + r.bank, r.row, 0]).incU (uChan (i / 2)) oNeighbourRefreshes 64) d
  d.setSub i { x with due := [], retry := [], banks := storeMapV noBank (fun _ b => { b with openRow := none }) x.banks }

/-- Self-refresh entry of channel `n` (R309): it drains, and the entry command is issued. -/
def Dev.selfRefreshEnter (d : Dev) (n : Nat) : Dev :=
  let d := (d.subDrain (2 * n)).subDrain (2 * n + 1)
  (d.setChan n { d.chan n with st := 3, srSince := some d.now }).emit .dram [n, 0, 9, 0, 0, 0]

end Sys2Proof.Machine
end

