-- ==== Sys2Proof/Machine/Stop.lean ====
section
/-! DEFINITION. Stopping and resuming cores, DMA channels and engine jobs at their boundaries (R89, R199, R224, R247, R248). -/
namespace Sys2Proof.Machine

/-- A firmware handler that is running completes before PREEMPT is taken (Table 9.9, R198). -/
def finishHandler (c : Core) : Core :=
  if c.sup then
    { c with pc := c.sepc.truncate 48, status := setF (setF (setF c.status 4 false) 0 (c.status.getLsbD 2)) 1 (c.status.getLsbD 3), wfi := false }
  else c

/-- Stops core `n` at its boundary by PREEMPT with `detail`: a loaded context is saved and becomes RUNNABLE, and the core
executes nothing until it is resumed. A forced stop marks the save inexact and raises quiesce-overrun (R89). -/
def Dev.stopCore (d : Dev) (n detail : Nat) (forced : Bool := false) : Dev :=
  let c := d.core n
  let k := c.ctxid.toNat
  if ¬ d.present (uCoreN n) ∨ c.stopped then d
  else
    let d := if forced then d.fault 23 else d
    if k ≥ 1024 then d.setCore n { c with stopped := true }
    else
      let c := finishHandler c
      let d := (d.setCore n { c with preempt := none, inStr := false, stopped := true }).trapEnter n 0x10 detail 0 c.pc.toNat c.inStr forced
      d.setCtx k { d.ctx k with core := some n }

/-- Resumes core `n`: the context that it stopped with is loaded from its area alone (R200), unless its Crc is wrong, its generation is old or it is
inexact, and it ends (R89, R201). -/
def Dev.resumeCore (d : Dev) (n : Nat) : Dev :=
  let d := d.setCore n { d.core n with stopped := false }
  match d.mem.contexts.find? fun p => p.2.core = some n ∧ p.2.st = 1 with
  | none => d
  | some (k, x) =>
    let area := d.peekN (saveAt k) 4096
    if ¬ areaOk area then d.endCtx k 0x03 0x0F 0 0
    else if x.gen ≠ d.instGen x.inst then d.endCtx k 0x03 0 0 0 false
    else if x.inexact ∨ bit (areaF area 2 2) 0 then d.endCtx k 0x03 0x0E 0 0
    else
      let c := loadRegs (d.core n) area
      let d := d.setCtx k { x with st := 2, core := some n }
      d.setCore n { c with pc := c.sepc.truncate 48, status := setF c.status 0 false, ctxptr := BitVec.ofNat 64 (saveAt k) }

/-- Stops DMA channel `i` (R224): RUNNING becomes SUSPENDED_QUIESCE, SUSPENDED_FAULT stays. -/
def Dev.stopChan (d : Dev) (i : Nat) (forced : Bool := false) : Dev :=
  let x := d.ch i
  match x.desc with
  | none => d
  | some c =>
    let c := if c.status = stRunning ∨ c.status = stQueued then { c with status := stSuspQuiesce, resumed := true } else c
    if forced then (d.setCh i { x with desc := some { c with flags := setBit c.flags 2 true } }).fault 23
    else d.setCh i { x with desc := some c }

/-- Resumes DMA channel `i` (R224): SUSPENDED_QUIESCE runs again; an inexact descriptor completes ABORTED (R89). -/
def Dev.resumeChan (d : Dev) (i : Nat) : Dev :=
  let x := d.ch i
  match x.desc with
  | none => d
  | some c =>
    if bit c.flags 2 then d.dmaFinish i stAborted
    else if c.status = stSuspQuiesce then d.setCh i { x with desc := some { c with status := stRunning } } else d

/-- Stops job slot `i` with its checkpoint (R248). -/
def Dev.stopSlot (d : Dev) (i : Nat) (forced : Bool := false) : Dev :=
  let s := d.slot i
  match s.job with
  | none => d
  | some j =>
    let above := s.fin ∧ j.vst = 0 ∧ s.outBuf.isEmpty
    let j := if above then { j with status := s.fst } else if j.status = stRunning ∨ j.status = stQueued then { j with status := stSuspQuiesce } else j
    if forced then
      ((d.setSlot i { s with job := some { j with flags := setBit j.flags 2 true }, inexact := true, resumed := true }).incU (slotUnit i) oForcedStops).fault 23
    else d.setSlot i { s with job := some j, kind := 2, ckptSeq := s.ckptSeq + 1, resumed := true, pendingDone := above }

/-- Resumes job slot `i`: inexact jobs complete ABORTED (R89), withheld completions are posted (R248). -/
def Dev.resumeSlot (d : Dev) (i : Nat) : Dev :=
  let s := d.slot i
  match s.job with
  | none => d
  | some j =>
    if s.inexact then d.jobFinish i stAborted
    else if s.pendingDone then d.jobFinish i j.status
    else if j.status = stSuspQuiesce then d.setSlot i { s with job := some { j with status := stRunning } } else d

/-- The DMA channels with a descriptor, on the units `p` selects. -/
def Dev.busyChans (d : Dev) (p : Nat → Bool) : List Nat :=
  (d.mem.chans.filter fun x => x.2.desc.isSome ∧ p (chUnit x.1)).map (·.1)

/-- The occupied job slots on the units `p` selects. -/
def Dev.busySlots (d : Dev) (p : Nat → Bool) : List Nat :=
  (d.eng.slots.filter fun x => x.2.job.isSome ∧ p (slotUnit x.1)).map (·.1)

/-- Stops everything that runs in unit `u`'s own domain (R344 STOP). -/
def Dev.stopUnit (d : Dev) (u detail : Nat) (forced : Bool := false) : Dev :=
  match kindOf u with
  | 0x03 => d.stopCore (coreNo u) detail forced
  | 0x09 => (d.busyChans (· = u)).foldl (Dev.stopChan · · forced) d
  | 0x05 | 0x06 | 0x07 | 0x08 => (d.busySlots (· = u)).foldl (Dev.stopSlot · · forced) d
  | _ => d

/-- Resumes everything stopped in unit `u`'s own domain. -/
def Dev.resumeUnit (d : Dev) (u : Nat) : Dev :=
  match kindOf u with
  | 0x03 => d.resumeCore (coreNo u)
  | 0x09 => (d.busyChans (· = u)).foldl Dev.resumeChan d
  | 0x05 | 0x06 | 0x07 | 0x08 => (d.busySlots (· = u)).foldl Dev.resumeSlot d
  | _ => d

/-- What a core loses when its switch opens (R202): its registers, its scratch, its TLB, and a context that owns the scratch. -/
def Dev.loseCore (d : Dev) (n : Nat) : Dev :=
  let c := d.core n
  let d := if c.owner < 1024 then d.endCtx c.owner 0x03 0x0D 0 0 else d
  ((d.mem.contexts.foldl (fun d p => if (d.ctx p.1).core = some n then d.setCtx p.1 { d.ctx p.1 with core := none } else d) d).setTlb (uCoreN n) []).setCore n {}

/-- Every slot and channel of unit `u` completes ABORTED with Inexact set (Table 18.3, Table 10.10). -/
def Dev.abortUnit (d : Dev) (u : Nat) : Dev :=
  let d := (d.busyChans (· = u)).foldl (fun d i =>
    let x := d.ch i
    (d.setCh i { x with desc := x.desc.map fun c => { c with flags := setBit c.flags 2 true } }).dmaFinish i stAborted) d
  (d.busySlots (· = u)).foldl (fun d i =>
    let s := d.slot i
    (d.setSlot i { s with job := s.job.map fun j => { j with flags := setBit j.flags 2 true } }).jobFinish i stAborted) d

end Sys2Proof.Machine
end

