-- ==== Sys2Proof/Machine/Nvme.lean ====
section
/-! DEFINITION. NVMe completions and asynchronous events (R260, R266), and namespaces (R259). -/
namespace Sys2Proof.Machine

/-- Status values: status code type · 256 + status code. [PRESUMED, log 14] -/
def scSuccess : Nat := 0x000
/-- Invalid Command Opcode. -/
def scOpcode : Nat := 0x001
/-- Invalid Field in Command. -/
def scField : Nat := 0x002
/-- Commands Aborted due to Power Loss Notification. -/
def scPowerLoss : Nat := 0x005
/-- Invalid Namespace or Format. -/
def scNamespace : Nat := 0x00B
/-- Namespace is Write Protected. -/
def scProtected : Nat := 0x020
/-- LBA Out of Range. -/
def scRange : Nat := 0x080
/-- Completion Queue Invalid. -/
def scCqInvalid : Nat := 0x100
/-- Invalid Queue Identifier. -/
def scQueueId : Nat := 0x101
/-- Maximum Queue Size Exceeded. -/
def scQueueSize : Nat := 0x102
/-- Abort Command Limit Exceeded is 0x103; Asynchronous Event Request Limit Exceeded. -/
def scAerLimit : Nat := 0x105
/-- Invalid Log Page. -/
def scLogPage : Nat := 0x109
/-- Invalid Queue Deletion. -/
def scQueueDelete : Nat := 0x10C
/-- Write Fault. -/
def scWriteFault : Nat := 0x280
/-- Unrecovered Read Error. -/
def scReadError : Nat := 0x281

/-- The queue pair whose completion ring serves HOST queue `q` (NVMe lets a submission queue name another completion queue). -/
def Dev.cqOf (d : Dev) (q : Nat) : Nat := (d.queueAt (qInst (d.q q)) (d.qs q).cq 1).getD q

/-- Completes command `cid` of HOST queue `q` (R266): the 16-byte entry with its phase tag. -/
def Dev.nvmeDone (d : Dev) (q cid status result : Nat) : Dev :=
  let e := d.q q
  let s := d.qs q
  let c := d.cqOf q
  let entry := leBytes 4 result ++ leBytes 4 0 ++ leBytes 2 s.sqHead ++ leBytes 2 (qSlot e) ++ leBytes 2 cid
    ++ leBytes 2 (status * 2 + (if (d.qs c).phase then 1 else 0))
  let d := if c = q then d else (d.setQs q { s with outstanding := s.outstanding - 1 }).setQs c { d.qs c with outstanding := (d.qs c).outstanding + 1 }
  d.postCq c 16 (d.instGen (qInst e)) entry (fun d _ _ _ => d) 0

/-- Controller registers and state of instance `i`. -/
def Dev.ctrl (d : Dev) (i : Nat) : Ctrl := storeGet noCtrl d.insts.ctrl i

/-- Replaces the controller of instance `i`. -/
def Dev.setCtrl (d : Dev) (i : Nat) (c : Ctrl) : Dev := { d with insts := { d.insts with ctrl := storeSet noCtrl d.insts.ctrl i c } }

/-- The admin queue pair of instance `i`: its HOST queue of slot 0. -/
def Dev.adminQueue (d : Dev) (i : Nat) : Option Nat := d.queueAt i 0 1

/-- An asynchronous event of instance `i` with completion value `dw0`: it completes an outstanding request, else waits, once. -/
def Dev.aen (d : Dev) (i dw0 : Nat) : Dev :=
  let c := d.ctrl i
  match c.aers, d.adminQueue i with
  | cid :: r, some q => (d.setCtrl i { c with aers := r }).nvmeDone q cid scSuccess dw0
  | _, _ => if c.events.any (·.2 = dw0) then d else d.setCtrl i { c with events := c.events ++ [(dw0 % 8, dw0)] }

/-- A SMART / Health Critical Warning event (R312), when Set Features 0x0B enables any critical warning bit in `mask`. -/
def Dev.smartWarn (d : Dev) (i mask : Nat) : Dev :=
  let c := d.ctrl i
  let d := d.setCtrl i { c with smart := c.smart ||| mask }
  if storeGet (fun _ => 0) c.features 0x0B &&& mask ≠ 0 then d.aen i 0x020001 else d

/-- Namespace Attribute Changed at the controller of instance `i` for `nsid` (R259, R287), when Set Features 0x0B enables it. -/
def Dev.nsChanged (d : Dev) (i nsid : Nat) : Dev :=
  let c := d.ctrl i
  let d := d.setCtrl i { c with changedNs := if c.changedNs.contains nsid then c.changedNs else c.changedNs ++ [nsid] }
  if (storeGet (fun _ => 0) c.features 0x0B).testBit 8 then d.aen i 0x040002 else d

/-- Entry `k` of the namespace table. -/
def Dev.nsEntry (d : Dev) (k : Nat) : BitVec 128 := storeGet nsDefault d.insts.ns k
/-- InstanceId of a namespace entry. -/
def nsInst (e : BitVec 128) : Nat := ent e 0 2
/-- Nsid of a namespace entry; 0 unused. -/
def nsId (e : BitVec 128) : Nat := ent e 2 4
/-- VolumeId of a namespace entry. -/
def nsVol (e : BitVec 128) : Nat := ent e 6 2
/-- LBA size in bytes. -/
def nsLba (e : BitVec 128) : Nat := if ent e 8 1 = 0 then 512 else 4096
/-- ReadOnly. -/
def nsReadOnly (e : BitVec 128) : Bool := (ent e 9 1).testBit 0

/-- The namespace `nsid` attached to instance `i`. -/
def Dev.nsFind (d : Dev) (i nsid : Nat) : Option (BitVec 128) :=
  if nsid = 0 then none else (d.insts.ns.find? fun p => nsInst p.2 = i ∧ nsId p.2 = nsid).map (·.2)

/-- Namespaces on volume `v`. -/
def Dev.nsOfVol (d : Dev) (v : Nat) : List (BitVec 128) :=
  (d.insts.ns.filter fun p => nsId p.2 ≠ 0 ∧ nsVol p.2 = v).map (·.2)

end Sys2Proof.Machine
end

