-- ==== Sys2Proof/Machine/Volumes.lean ====
section
/-! DEFINITION. Volumes, members and ports (R34 to R37, R284 to R288): descriptors, the block map, member and volume states, port
states, and commands to drives. -/
namespace Sys2Proof.Machine

/-- The descriptor of volume `v` (Table 2.1). -/
def Dev.vol (d : Dev) (v : Nat) : BitVec 16384 := storeGet volDefault d.cache.volumes v
/-- Layout: 0 UNUSED, 1 STRIPE, 2 MIRROR, 3 EC. -/
def vLayout (e : BitVec 16384) : Nat := ent e 2 1
/-- Members. -/
def vMembers (e : BitVec 16384) : Nat := ent e 3 1
/-- DataStrips. -/
def vK (e : BitVec 16384) : Nat := ent e 4 1
/-- ParityStrips. -/
def vP (e : BitVec 16384) : Nat := ent e 5 1
/-- StripShift. -/
def vShift (e : BitVec 16384) : Nat := ent e 6 1
/-- Priority. -/
def vPrio (e : BitVec 16384) : Nat := ent e 7 1
/-- CapacityBlocks. -/
def vCap (e : BitVec 16384) : Nat := ent e 8 8
/-- OwnerInstance. -/
def vOwner (e : BitVec 16384) : Nat := ent e 0x10 2
/-- VolumeState. -/
def vState (e : BitVec 16384) : Nat := ent e 0x12 1
/-- Flags. -/
def vFlags (e : BitVec 16384) : Nat := ent e 0x13 1
/-- Port of extent `i`. -/
def xPort (e : BitVec 16384) (i : Nat) : Nat := ent e (0x40 + 16 * i) 1
/-- MemberState of extent `i`: 0 ACTIVE, 1 MISSING, 2 REBUILDING. -/
def xState (e : BitVec 16384) (i : Nat) : Nat := ent e (0x41 + 16 * i) 1
/-- DriveNsid of extent `i`. -/
def xNsid (e : BitVec 16384) (i : Nat) : Nat := ent e (0x44 + 16 * i) 4
/-- StartLba of extent `i`. -/
def xLba (e : BitVec 16384) (i : Nat) : Nat := ent e (0x48 + 16 * i) 8

/-- Replaces the descriptor of volume `v`. -/
def Dev.setVol (d : Dev) (v : Nat) (e : BitVec 16384) : Dev :=
  { d with cache := { d.cache with volumes := storeSet volDefault d.cache.volumes v e } }

/-- Volumes in use. -/
def Dev.volNos (d : Dev) : List Nat := (d.cache.volumes.filter fun p => vLayout p.2 ≠ 0).map (·.1)

/-- VolumeState from the member states (Table 12.3). -/
def volStateOf (e : BitVec 16384) : Nat :=
  let m := (List.range (vMembers e)).map (xState e)
  let bad := (m.filter (· ≠ 0)).length
  let reb := m.any (· = 2)
  match vLayout e with
  | 1 => if m.any (· = 1) then 3 else 0
  | 2 => if bad = 0 then 0 else if bad = m.length then 3 else if reb then 2 else 1
  | 3 => if bad = 0 then 0 else if bad > vP e then 3 else if reb then 2 else 1
  | _ => 0

/-- Derives VolumeState anew; a change is recorded and raised on every controller with a namespace on the volume (R287). -/
def Dev.volUpdate (d : Dev) (v : Nat) : Dev :=
  let e := d.vol v
  let new := volStateOf e
  if new = vState e then d
  else
    let d := (d.setVol v (setEnt e 0x12 1 new)).record 0x300 0 uChip v (vState e) new 0
    (d.nsOfVol v).foldl (fun d n => d.nsChanged (nsInst n) (nsId n)) d

/-- Sets the state of member `i` of volume `v`. -/
def Dev.setMember (d : Dev) (v i st : Nat) : Dev :=
  (d.setVol v (setEnt (d.vol v) (0x41 + 16 * i) 1 st)).volUpdate v

/-- Members that lie on port `n`, as (volume, position). -/
def Dev.membersOn (d : Dev) (n : Nat) : List (Nat × Nat) :=
  d.volNos.flatMap fun v => ((List.range (vMembers (d.vol v))).filter fun i => xPort (d.vol v) i = n).map fun i => (v, i)

/-- Port `n`. -/
def Dev.port (d : Dev) (n : Nat) : Port := storeGet noPort d.ports.ports n

/-- Replaces port `n`; a change of PortState is recorded (Table 18.6). -/
def Dev.setPort (d : Dev) (n : Nat) (p : Port) : Dev :=
  let old := (d.port n).state
  let d := { d with ports := { d.ports with ports := storeSet noPort d.ports.ports n p } }
  if old = p.state then d else d.record 0x301 0 (uPort n) old p.state 0 0

/-- Drive namespace `nsid` bound at port `n`. -/
def Dev.driveNs (d : Dev) (n nsid : Nat) : Option DriveNs :=
  if (d.port n).state = 2 then (d.port n).ns.find? (·.nsid = nsid) else none

/-- Drive sectors per 4 KiB block of member `i` (R37). -/
def Dev.spb (d : Dev) (v i : Nat) : Nat :=
  match d.driveNs (xPort (d.vol v) i) (xNsid (d.vol v) i) with
  | some x => if x.lba = 4096 then 1 else 8
  | none => 8

/-- Member positions that hold block `b` of volume `v`: data first, then parity (R37). -/
def blockPos (e : BitVec 16384) (b : Nat) : List Nat :=
  if vLayout e = 2 then List.range (vMembers e)
  else
    let s := 2 ^ vShift e
    let k := vK e
    let n := k + vP e
    let row := b / (s * k)
    let dd := b % (s * k) / s
    (dd + row) % n :: (List.range (vP e)).map fun j => (k + j + row) % n

/-- Blocks of member `i`'s extent before volume block `b`'s (R37). -/
def blockRow (e : BitVec 16384) (b : Nat) : Nat :=
  if vLayout e = 2 then b
  else
    let s := 2 ^ vShift e
    b / (s * vK e) * s + b % (s * vK e) % s

/-- Drive LBA of block `b` on member `i` (R37). -/
def Dev.blockLba (d : Dev) (v i b : Nat) : Nat := xLba (d.vol v) i + blockRow (d.vol v) b * d.spb v i

/-- Blocks an extent of the volume covers. -/
def extentBlocks (e : BitVec 16384) : Nat := if vLayout e = 2 then vCap e else vCap e / vK e

/-- Blocks of the rebuild of member `i` that are already written (R289). [DEDUCED, log 31] -/
def Dev.rebuildPoint (d : Dev) (v i : Nat) : Nat :=
  match d.ports.rebuilds.find? fun r => r.vol = v ∧ r.pos = i with
  | some r => r.point
  | none => 0

/-- Member `i` serves reads of block `b`: ACTIVE, or REBUILDING below the rebuild point (R288, R289). -/
def Dev.readable (d : Dev) (v i b : Nat) : Bool :=
  let e := d.vol v
  xState e i = 0 ∨ (xState e i = 2 ∧ blockRow e b < d.rebuildPoint v i)

/-- The members to read for block `b` (R288): the data member, another copy, or k members of the row; none when no member can
supply it. -/
def Dev.readSet (d : Dev) (v b : Nat) : Option (List Nat) :=
  let e := d.vol v
  if vLayout e = 2 then
    match (List.range (vMembers e)).find? fun i => d.readable v i b with
    | some i => some [i]
    | none => none
  else
    let pos := blockPos e b
    match pos with
    | i :: _ =>
      if d.readable v i b then some [i]
      else if vLayout e = 3 then
        let ok := (List.range (vMembers e)).filter fun j => d.readable v j b
        if vK e ≤ ok.length then some (ok.take (vK e)) else none
      else none
    | [] => none

/-- Issues a command to the drive at a port (R284): the new command's number, and the device. -/
def Dev.driveCmd (d : Dev) (port nsid owner ref opc lba sectors flags : Nat) : Nat × Dev :=
  let id := d.ports.cmdId
  let p := d.port port
  let d := { d with ports := { d.ports with cmdId := id + 1 } }
  (id, (d.setPort port { p with cmds := p.cmds ++ [{ id := id, owner := owner, ref := ref, nsid := nsid }] }).emit .drive
    [port, nsid, opc, lba, sectors, flags])

/-- The port at which command `id` is outstanding. -/
def Dev.portOfCmd (d : Dev) (id : Nat) : Option (Nat × DriveCmd) :=
  match d.ports.ports.find? fun p => p.2.cmds.any (·.id = id) with
  | some (n, p) => (p.cmds.find? (·.id = id)).map fun c => (n, c)
  | none => none

/-- Retires command `id`. -/
def Dev.retireCmd (d : Dev) (id : Nat) : Dev :=
  match d.portOfCmd id with
  | some (n, _) => let p := d.port n; d.setPort n { p with cmds := p.cmds.filter (·.id ≠ id) }
  | none => d

/-- Port `p` without the commands of the given owner and reference. -/
def dropCmds (owner ref : Nat) (p : Port) : Port := { p with cmds := p.cmds.filter fun c => ¬ (c.owner = owner ∧ c.ref = ref) }

/-- Retires every command of the given owner and reference. -/
def Dev.retireRef (d : Dev) (owner ref : Nat) : Dev :=
  { d with ports := { d.ports with ports := storeMapV noPort (fun _ p => dropCmds owner ref p) d.ports.ports } }

end Sys2Proof.Machine
end

