-- ==== Sys2Proof/Machine/Frames.lean ====
section
/-! DEFINITION. Frames, pools and versions of the write cache (R39 to R43, R47 to R49, R54, R58, R60, R61), the dirty counts, and the
judgement of the governor (R50 to R53, R144, R463). -/
namespace Sys2Proof.Machine

/-- Channel of a frame. -/
def frameChan (f : Nat) : Nat := f / 2 ^ 28

/-- Residency-map key of a cache frame (R142). -/
def frameKey (f : Nat) : Nat := 2 ^ 40 + f

/-- DIRTY or DESTAGING. -/
def Version.dirty (v : Version) : Bool := v.st = 2 ∨ v.st = 3

/-- Check of a metadata entry: CRC-8 over bits [127:8], the highest bit first (Table 2.2). [DEDUCED, log 31] -/
def entryCheck (e : Nat) : Nat := crc8 (beBytes 15 (e / 256))

/-- A metadata entry of the fields of `v`, with a State and Mirrored (Table 2.2). The spec gives Age no rule, so that the Age of a CLEAN frame is a free value. [DESIGN CHOICE, log 90] -/
def Version.entryWith (v : Version) (st : Nat) (mirrored : Bool) : Nat :=
  let b (x : Bool) (i : Nat) : Nat := if x then 2 ^ i else 0
  let e := v.vol % 2 ^ 12 * 2 ^ 116 + v.blk % 2 ^ 40 * 2 ^ 76 + v.inst % 2 ^ 12 * 2 ^ 64 + v.dom % 256 * 2 ^ 56 + v.seq % 2 ^ 28 * 2 ^ 28 + v.valid % 256 * 2 ^ 20
    + (if st = 1 then (Config.age v.frame).toNat else 0) * 2 ^ 16 + st * 2 ^ 13 + b v.poison 12 + b mirrored 11 + b v.fence 10 + b v.superseded 9
  e + entryCheck e

/-- The metadata entry of a version's frame. -/
def Version.entry (v : Version) : Nat := v.entryWith v.st v.copy.isSome

/-- The metadata entry of its COPY's frame: State COPY (R40). -/
def Version.copyEntry (v : Version) : Nat := v.entryWith 4 false

/-- The metadata entry of frame `f` (R40): 0, FREE, where no version holds it. -/
def Dev.frameEntry (d : Dev) (f : Nat) : Nat :=
  match d.cache.versions.find? (·.frame = f) with
  | some v => v.entry
  | none => match d.cache.versions.find? (·.copy = some f) with
    | some v => v.copyEntry
    | none => 0

/-- The data of version `v` is in DRAM. -/
def Dev.verHere (d : Dev) (v : Version) : Bool := ¬ d.mem.resid.contains (frameKey v.frame)

/-- Replaces the versions. -/
def Dev.setVers (d : Dev) (l : List Version) : Dev := { d with cache := { d.cache with versions := l } }

/-- Changes the version in frame `f`. -/
def Dev.modVer (d : Dev) (f : Nat) (g : Version → Version) : Dev := d.setVers (mapIf (·.frame = f) g d.cache.versions)

/-- The version in frame `f`. -/
def Dev.verAt (d : Dev) (f : Nat) : Option Version := d.cache.versions.find? (·.frame = f)

/-- Frees frame `f` and its COPY. -/
def Dev.freeVer (d : Dev) (f : Nat) : Dev :=
  let d := d.setVers (d.cache.versions.filter (·.frame ≠ f))
  { d with mem := { d.mem with resid := d.mem.resid.filter (· ≠ frameKey f) }, cache := { d.cache with fails := d.cache.fails.filter (·.1 ≠ f) } }

/-- Versions of a block, oldest first. -/
def Dev.versOf (d : Dev) (vol blk : Nat) : List Version :=
  d.cache.versions.filter fun v => v.vol = vol ∧ v.blk = blk ∧ ¬ v.dropping

/-- What one dirty version counts in dirty_total: 2 while it belongs to a held image and is not resident. [DEDUCED, log 77] -/
def Dev.dirtyWeight (d : Dev) (v : Version) : Nat := if v.image ∧ ¬ d.verHere v then 2 else 1

/-- dirty_total: every DIRTY or DESTAGING version, a non-resident version of a held image twice (R56, R144). [DEDUCED, log 77] -/
def Dev.dirtyTotal (d : Dev) : Nat := (d.cache.versions.filter (·.dirty)).foldl (fun n v => n + d.dirtyWeight v) 0

/-- The dirty count of instance `i`. -/
def Dev.instDirty (d : Dev) (i : Nat) : Nat := (d.cache.versions.filter fun v => v.dirty ∧ v.inst = i).length

/-- The bucket of a block (R60). -/
def bucketOf (vol blk : Nat) : Nat := crc32c (leBytes 8 (vol * 2 ^ 40 + blk)) % 256

/-- The quadrant whose slice owns a bucket. -/
def Dev.bucketOwner (d : Dev) (b : Nat) : Nat := storeGet (fun i => i % 4) d.cache.bucket b

/-- The quadrant whose slice owns a block. -/
def Dev.sliceOf (d : Dev) (vol blk : Nat) : Nat := d.bucketOwner (bucketOf vol blk)

/-- Accesses to the block wait for the adopting slice (R60). -/
def Dev.adopting (d : Dev) (vol blk : Nat) : Bool := d.cache.adopting.contains (bucketOf vol blk)

/-- DRAM channels in service. -/
def Dev.chansIn (d : Dev) : List Nat := (List.range 8).filter d.inService

/-- frames_c of channel `n` (R297). -/
def Dev.framesC (d : Dev) (n : Nat) : Nat :=
  let bytes := (d.chan n).cap * 2 ^ 20
  let avail := bytes - d.fwShare - d.progBytes n
  avail * 256 / 257 / 268435456 * 65536

/-- Frames of pool `n` within CacheSizeLimit (R39). -/
def Dev.poolFrames (d : Dev) (n : Nat) : Nat :=
  if ¬ d.inService n then 0
  else if d.g oCacheSizeLimit = 0 then d.framesC n
  else min (d.framesC n) (d.g oCacheSizeLimit / d.chansIn.length)

/-- CacheCapacity (R39). -/
def Dev.cacheCapacity (d : Dev) : Nat := (d.chansIn.map d.poolFrames).sum

/-- Frames of channel `n` in use, COPY frames included. -/
def Dev.framesUsed (d : Dev) (n : Nat) : List Nat :=
  (d.cache.versions.flatMap fun v => v.frame :: v.copy.toList).filter fun f => frameChan f = n

/-- CLEAN versions in channel `n`, in Age order. -/
def Dev.cleanIn (d : Dev) (n : Nat) : List Version := d.cache.versions.filter fun v => v.st = 1 ∧ frameChan v.frame = n

/-- Free frames of pool `n`: FREE, or CLEAN and evictable (R39). -/
def Dev.poolFree (d : Dev) (n : Nat) : Nat := d.poolFrames n + (d.cleanIn n).length - (d.framesUsed n).length

/-- Physical address of frame `f` (R297): its channel's frames lie above the firmware and program reservations. -/
def Dev.frameAddr (d : Dev) (f : Nat) : Nat :=
  let n := frameChan f
  n * 2 ^ 35 + d.fwShare + d.progBytes n + f % 2 ^ 28 * 4096

/-- Physical address of the metadata entry of frame `f`: the entries lie above the frames of the channel (R297). -/
def Dev.entryAddr (d : Dev) (f : Nat) : Nat :=
  let n := frameChan f
  n * 2 ^ 35 + d.fwShare + d.progBytes n + d.framesC n * 4096 + f % 2 ^ 28 * 16

/-- The pool of `l` with the most free frames, the first on a tie; none when no pool has one. [DESIGN CHOICE, log 28] -/
def Dev.bestPool (d : Dev) (l : List Nat) : Option Nat :=
  l.foldl (fun b n => match b with
    | none => if 0 < d.poolFree n then some n else none
    | some m => if d.poolFree m < d.poolFree n then some n else some m) none

/-- The pool of a new frame of a block (R39). -/
def Dev.poolFor (d : Dev) (vol blk : Nat) : Option Nat :=
  let q := d.sliceOf vol blk
  match d.bestPool ([2 * q, 2 * q + 1].filter d.inService) with
  | some n => some n
  | none => d.bestPool d.chansIn

/-- The lowest index not in the list. [DESIGN CHOICE, log 28] -/
def lowestFree (l : List Nat) : Nat := ((List.range (l.length + 1)).find? fun i => ¬ l.contains i).getD 0

/-- Takes a frame from pool `n`, evicting its oldest CLEAN version when no frame is FREE (R54). [DESIGN CHOICE, log 28] -/
def Dev.takeFrame (d : Dev) (n : Nat) : Nat × Dev :=
  let d := if d.poolFrames n ≤ (d.framesUsed n).length then (match d.cleanIn n with | v :: _ => d.freeVer v.frame | [] => d) else d
  (n * 2 ^ 28 + lowestFree ((d.framesUsed n).map (· % 2 ^ 28)), d)

/-- Frees the oldest CLEAN frames of every pool that holds more frames than its limit (R39). -/
def Dev.trimPools (d : Dev) : Dev :=
  (List.range 8).foldl (fun d n => ((d.cleanIn n).take ((d.framesUsed n).length - d.poolFrames n)).foldl (fun d v => d.freeVer v.frame) d) d

/-- Two channels in service are attached to different quadrants (R313). -/
def Dev.mirrorPossible (d : Dev) : Bool := d.chansIn.any fun a => d.chansIn.any fun b => a / 2 ≠ b / 2

/-- New versions are placed mirrored (R48, R313). -/
def Dev.mirrorNew (d : Dev) : Bool := d.g oCacheModeRequested = 1 && d.mirrorPossible

/-- The pool of a COPY of frame `f`: most free frames among the channels attached to another quadrant (R39). -/
def Dev.copyPool (d : Dev) (f : Nat) : Option Nat := d.bestPool (d.chansIn.filter fun n => n / 2 ≠ frameChan f / 2)

/-- Gives the version in frame `f` a COPY, when a pool has a frame for it. [DESIGN CHOICE, log 28] -/
def Dev.addCopy (d : Dev) (f : Nat) : Dev :=
  match d.verAt f, d.copyPool f with
  | some v, some n => if v.copy.isSome then d else
    let (c, d) := d.takeFrame n
    d.modVer f fun v => { v with copy := some c }
  | _, _ => d

/-- Dirty versions without a COPY. -/
def Dev.unmirrored (d : Dev) : List Nat := (d.cache.versions.filter fun v => v.dirty ∧ v.copy.isNone).map (·.frame)

/-- CacheModeActive from its causes (R47 to R49, R61, R313). -/
def Dev.modeUpdate (d : Dev) : Dev :=
  d.s oCacheModeActive (if d.g oWriteThroughCause ≠ 0 then 2 else if d.mirrorNew then (if d.unmirrored.isEmpty then 1 else 3) else 0)

/-- Sets or clears a bit of WriteThroughCause (R49). -/
def Dev.wtCause (d : Dev) (i : Nat) (b : Bool) : Dev := (d.sbit oWriteThroughCause i b).modeUpdate

/-- The mode maximum (Table 2.4). -/
def Dev.modeMax (d : Dev) : Nat := match d.g oCacheModeActive with | 0 => 33554432 | 2 => 0 | _ => 16777216

/-- d_eff (R50). -/
def Dev.deff (d : Dev) : Nat := min (d.g oDirtyCeilingBlocks) d.modeMax

/-- CacheQuota of instance `i` (Table 11.3, in force). -/
def Dev.cacheQuota (d : Dev) (i : Nat) : Nat := ent (d.inst i) 0x0C 4

/-- DirtyQuota of instance `i`: of an instance that is not in being, 0. -/
def Dev.dirtyQuota (d : Dev) (i : Nat) : Nat := if d.instState i = 0 then 0 else ent (d.inst i) 0x10 4

/-- Frames charged to instance `i`, clean and dirty (R54). -/
def Dev.instFrames (d : Dev) (i : Nat) : Nat := (d.cache.versions.filter (·.inst = i)).length

/-- Blocks a write touches. -/
def HostWrite.blocks (w : HostWrite) : List Nat :=
  if w.len = 0 then [] else (List.range ((w.start + w.len - 1) / 4096 - w.start / 4096 + 1)).map (w.start / 4096 + ·)

/-- `need` of R50. -/
def HostWrite.need (w : HostWrite) : Nat := w.blocks.length

/-- Sector mask, data and Write Uncorrectable mask of block `b` of a write. -/
def HostWrite.part (w : HostWrite) (b : Nat) : Nat × Nat × Nat :=
  let lo := max w.start (b * 4096)
  let hi := min (w.start + w.len) ((b + 1) * 4096)
  let data := fieldOf w.data (lo - w.start) (hi - lo) * 256 ^ (lo - b * 4096)
  let mask := (List.range 8).foldl (fun m i => if lo ≤ b * 4096 + 512 * i ∧ b * 4096 + 512 * i + 512 ≤ hi then m + 2 ^ i else m) 0
  (mask, data, if w.kind = 2 then mask else 0)

/-- `old` with the sectors of `mask` taken from `new`. -/
def mergeSec (mask new old : Nat) : Nat :=
  (List.range 8).foldl (fun x i => if mask.testBit i then setField x (512 * i) 512 (fieldOf new (512 * i) 512) else x) old

/-- The writes still held. -/
def Dev.setWrites (d : Dev) (l : List HostWrite) : Dev := { d with cache := { d.cache with writes := l } }

/-- Changes write `id`. -/
def Dev.modWrite (d : Dev) (id : Nat) (g : HostWrite → HostWrite) : Dev := d.setWrites (mapIf (·.id = id) g d.cache.writes)

/-- Drops write `id`. -/
def Dev.dropWrite (d : Dev) (id : Nat) : Dev := d.setWrites (d.cache.writes.filter (·.id ≠ id))

/-- Write `id`. -/
def Dev.writeAt (d : Dev) (id : Nat) : Option HostWrite := d.cache.writes.find? (·.id = id)

/-- Reserved units: of every instance, or of one (R50). -/
def Dev.reserved (d : Dev) (inst : Option Nat) : Nat :=
  ((d.cache.writes.filter fun w => w.stage = 1 ∧ ¬ w.thru ∧ (inst.isNone ∨ inst = some w.inst)).map (·.need)).sum

/-- The write would take the newest version of a held image out of step (R144). -/
def Dev.touchesImage (d : Dev) (w : HostWrite) : Bool :=
  w.blocks.any fun b => match (d.versOf w.vol b).getLast? with | some v => v.image | none => false

/-- The vault is ARMED: VaultState ARMED, or FETCH with WriteThroughCause bits 1 and 2 clear (R78, Table 6.3). -/
def Dev.armed (d : Dev) : Bool := d.vst = 1 ∨ (d.vst = 0x0C ∧ ¬ bit (d.g oWriteThroughCause) 1 ∧ ¬ bit (d.g oWriteThroughCause) 2)

/-- The write can never fit and takes the write-through route (R50). -/
def Dev.goesThrough (d : Dev) (w : HostWrite) : Bool :=
  d.g oWriteThroughCause ≠ 0 ∨ d.deff < w.need ∨ d.dirtyQuota w.inst < w.need

/-- Room under d_eff and in the pools. -/
def Dev.fitsTotal (d : Dev) (w : HostWrite) : Bool :=
  ¬ d.cache.frozen ∧ d.dirtyTotal + d.reserved none + w.need ≤ d.deff ∧
    (d.reserved none + w.need) * (if d.mirrorNew then 2 else 1) ≤ (d.chansIn.map d.poolFree).sum

/-- Room under the quotas of its instance (R53, R54). -/
def Dev.fitsQuota (d : Dev) (w : HostWrite) : Bool :=
  d.instDirty w.inst + d.reserved (some w.inst) + w.need ≤ d.dirtyQuota w.inst ∧
    d.instDirty w.inst + d.reserved (some w.inst) + w.need ≤ d.cacheQuota w.inst

/-- The waiting write that is admitted next: the first in arrival order that fits, behind no write that waits for d_eff and no
write of its own instance (R51). [DEDUCED, log 29] -/
def Dev.nextAdmit (d : Dev) : List HostWrite → List Nat → Option HostWrite
  | [], _ => none
  | w :: r, held =>
    if w.r144 then d.nextAdmit r held
    else if held.contains w.inst then d.nextAdmit r held
    else if ¬ d.fitsTotal w then none
    else if d.fitsQuota w then some w
    else d.nextAdmit r (w.inst :: held)

/-- The writes that wait in the governor, in arrival order. -/
def Dev.waiters (d : Dev) : List HostWrite := d.cache.writes.filter fun w => w.waiting

/-- Counts at the slice that owns the bucket of the write's lowest block (R62). -/
def Dev.countWrite (d : Dev) (o width : Nat) (w : HostWrite) : Dev := d.incU (uSlice (d.sliceOf w.vol (w.start / 4096))) o width

/-- Records the divergence of a held image (R146). -/
def Dev.diverge (d : Dev) (w : HostWrite) : Dev :=
  match d.restore.held with
  | some s => if d.touchesImage w ∧ d.g oDivergedSeq ≠ s then d.s oDivergedSeq s else d
  | none => d

/-- Admits a write: reserves its units (R50). -/
def Dev.admitWrite (d : Dev) (w : HostWrite) : Dev :=
  (d.diverge w).modWrite w.id fun w => { w with stage := 1, waiting := false }

/-- Sends a write through (R50): it is ADMITTED to the write-through route. -/
def Dev.sendThrough (d : Dev) (w : HostWrite) : Dev :=
  ((d.diverge w).modWrite w.id fun w => { w with waiting := false, stage := 1, thru := true }).countWrite oThroughWrites 64 w

/-- The write waits under R144: a held image has the newest version of one of its blocks, and the vault is not ARMED. -/
def Dev.waits144 (d : Dev) (w : HostWrite) : Bool := d.restore.held.isSome ∧ d.touchesImage w ∧ ¬ d.armed

/-- What the governor does with a write that has reached it (R50, R51, R144): it goes through, is admitted, or waits. -/
def Dev.judge (d : Dev) (w : HostWrite) : Dev :=
  let d := d.setWrites (d.cache.writes ++ [w])
  if d.waits144 w then
    (d.modWrite w.id fun w => { w with waiting := true, r144 := true }).countWrite oGovernorWaits 32 w
  else if d.cache.frozen then d.modWrite w.id fun w => { w with waiting := true }
  else if d.goesThrough w then d.sendThrough w
  else
    let d := d.modWrite w.id fun w => { w with waiting := true }
    match d.nextAdmit d.waiters [] with
    | some x => if x.id = w.id then d.admitWrite w else d.countWrite oGovernorWaits 32 w
    | none => d.countWrite oGovernorWaits 32 w

/-- Writes that waited under R144 join the order, behind those waiting, once the vault is ARMED (R51). -/
def Dev.join144 (d : Dev) : Dev :=
  if d.armed ∨ d.restore.held.isNone then
    d.setWrites (d.cache.writes.filter (¬ ·.r144) ++ (d.cache.writes.filter (·.r144)).map fun w => { w with r144 := false })
  else d

/-- Judges the waiting writes again (R463): those that can no longer fit go through, and those that R144 now holds wait apart. -/
def Dev.rejudge (d : Dev) : Dev :=
  if d.cache.frozen then d
  else
    let d := d.join144
    (d.waiters.filter fun w => ¬ w.r144).foldl (fun d w =>
      if d.waits144 w then d.modWrite w.id fun w => { w with r144 := true }
      else if d.goesThrough w then d.sendThrough w else d) d

end Sys2Proof.Machine
end

