-- ==== Sys2Proof/Machine/BlockIo.lean ====
section
/-! DEFINITION. Blocks on the drives: reads of a block or a row, writes to the members and parity of a block, attempts to destage,
the write-through route, reads of a volume through the cache, and what a lost or abandoned port does to them (R37, R38, R43, R45,
R49, R54, R56 to R59, R286, R288, R462). -/
namespace Sys2Proof.Machine

/-- The row of a block (R37). -/
def rowOf (e : BitVec 16384) (b : Nat) : Nat := b / (2 ^ vShift e * vK e)

/-- Strip index at member position `pos` in the row of block `b`. -/
def stripIdx (e : BitVec 16384) (pos b : Nat) : Nat := let n := vK e + vP e; (pos + n - rowOf e b % n) % n

/-- Member position of strip `i` in the row of block `b`. -/
def stripPos (e : BitVec 16384) (i b : Nat) : Nat := (i + rowOf e b) % (vK e + vP e)

/-- Data strip index of block `b`. -/
def dataIdx (e : BitVec 16384) (b : Nat) : Nat := b % (2 ^ vShift e * vK e) / 2 ^ vShift e

/-- The drive namespace of member `i` is bound. -/
def Dev.memberBound (d : Dev) (v i : Nat) : Bool := (d.driveNs (xPort (d.vol v) i) (xNsid (d.vol v) i)).isSome

/-- Member `i` can be read for block `b`. -/
def Dev.memberReads (d : Dev) (v i b : Nat) (failed : List Nat) : Bool :=
  d.readable v i b ∧ d.memberBound v i ∧ ¬ failed.contains i

/-- The members to read for block `b`: one that holds it, or enough of its row; `full`: the whole row is wanted, `own`: with the
block itself. None when they cannot supply it (R288). -/
def Dev.fillSet (d : Dev) (v b : Nat) (full own : Bool) (failed : List Nat) : Option (List Nat) :=
  let e := d.vol v
  let ok := fun i => d.memberReads v i b failed
  if vLayout e = 2 then ((List.range (vMembers e)).find? ok).map ([·])
  else if vLayout e = 3 then
    let i0 := dataIdx e b
    let others := ((List.range (vK e)).filter (· ≠ i0)).map (stripPos e · b)
    if ¬ full ∧ ok (stripPos e i0 b) then some [stripPos e i0 b]
    else if full ∧ ¬ own ∧ others.all ok then some others
    else
      let l := ((List.range (vK e + vP e)).map (stripPos e · b)).filter ok
      if vK e ≤ l.length then some (l.take (vK e)) else none
  else if vLayout e = 1 then (let i := stripPos e (dataIdx e b) b; if ok i then some [i] else none)
  else none

/-- Replaces the reads under way. -/
def Dev.setFills (d : Dev) (l : List Fill) : Dev := { d with cache := { d.cache with fills := l } }

/-- Service class of destage traffic (R55): SC1 above DestageHighWater, else SC3. -/
def Dev.destageClass (d : Dev) : Nat := if d.g oDestageHighWater * d.deff < d.dirtyTotal * 100 then 1 else 3

/-- Issues the drive reads of a block, those of a destage in its service class (R55); none when no members can supply it. -/
def Dev.fillStart (d : Dev) (owner ref v b : Nat) (full own : Bool) (failed : List Nat := []) : Option Dev :=
  (d.fillSet v b full own failed).map fun l =>
    let id := d.cache.fillId
    let d := { d with cache := { d.cache with fillId := id + 1 } }
    let (want, d) := l.foldl (fun (x : List (Nat × Nat) × Dev) i =>
      let e := x.2.vol v
      let (c, d) := x.2.driveCmd (xPort e i) (xNsid e i) 3 id 0x02 (x.2.blockLba v i b) (x.2.spb v i) (if owner = 1 then 2 * d.destageClass else 0)
      (x.1 ++ [(c, i)], d)) ([], d)
    d.setFills (d.cache.fills ++ [{ id := id, owner := owner, ref := ref, vol := v, blk := b, want := want, failed := failed, full := full }])

/-- Ends a read, retiring what it still has outstanding. -/
def Dev.fillDrop (d : Dev) (id : Nat) : Dev := (d.retireRef 3 id).setFills (d.cache.fills.filter (·.id ≠ id))

/-- Ends every read of an owner. -/
def Dev.fillDropRef (d : Dev) (owner ref : Nat) : Dev :=
  (d.cache.fills.filter fun f => f.owner = owner ∧ f.ref = ref).foldl (fun d f => d.fillDrop f.id) d

/-- The data strips that a read of a row brought, the block's own zero when it was not read. -/
def fillStrips (e : BitVec 16384) (f : Fill) : List (List Byte) :=
  let have_ := f.got.map fun (i, x) => (i, leBytes 4096 x)
  let i0 := dataIdx e f.blk
  if (List.range (vK e)).all fun i => i = i0 ∨ have_.any (·.1 = i) then
    (List.range (vK e)).map fun i => ((have_.find? (·.1 = i)).map (·.2)).getD (List.replicate 4096 0)
  else rsData (vK e) have_ 4096

/-- The block that a read brought (R288). -/
def fillBlock (e : BitVec 16384) (f : Fill) : Nat :=
  if vLayout e = 3 then leNat (listGet [] (fillStrips e f) (dataIdx e f.blk)) else (f.got.map (·.2)).headD 0

/-- Runs of set bits of an 8-bit mask, as (first, length). -/
def maskRuns (m : Nat) : List (Nat × Nat) :=
  ((List.range 8).filter fun i => m.testBit i ∧ ¬ (0 < i ∧ m.testBit (i - 1))).map fun i =>
    (i, ((List.range (8 - i)).find? fun n => ¬ m.testBit (i + n)).getD (8 - i))

/-- Members a write of block `b` goes to: ACTIVE and REBUILDING ones, data then parity (R288). -/
def Dev.writeSet (d : Dev) (v b : Nat) : List Nat :=
  (blockPos (d.vol v) b).filter fun i => let s := xState (d.vol v) i; s = 0 ∨ s = 2

/-- Every member a write of block `b` goes to has its drive bound. -/
def Dev.writeReady (d : Dev) (v b : Nat) : Bool := (d.writeSet v b).all (d.memberBound v)

/-- Flags of a destage write: FUA by DestageByFlush (R56), and the service class by DestageHighWater (R55). -/
def Dev.writeFlags (d : Dev) (v : Nat) : Nat :=
  (if bit (vFlags (d.vol v)) 0 then 0 else 1) + 2 * d.destageClass

/-- Replaces the attempts to destage. -/
def Dev.setDestages (d : Dev) (l : List Destage) : Dev := { d with cache := { d.cache with destages := l } }

/-- Changes the attempt of frame `f`. -/
def Dev.modDestage (d : Dev) (f : Nat) (g : Destage → Destage) : Dev := d.setDestages (mapIf (·.frame = f) g d.cache.destages)

/-- Records at the owner of drive writes of volume `v` that they carry no FUA (R56). -/
def Dev.noteFua (d : Dev) (owner ref v : Nat) : Dev :=
  if ¬ bit (vFlags (d.vol v)) 0 then d
  else if owner = 1 then d.modDestage ref fun x => { x with noFua := true }
  else d.modWrite ref fun w => { w with noFua := true }

/-- Issues the drive writes of block `b` (R37, R38): sectors `valid` of `data`, `unc` of them as Write Uncorrectable; `strips` the
row's data strips for EC. A 4,096-byte drive has one sector to a block, and a block with any sector in `unc` is written there as Write Uncorrectable as a
whole, its other sectors with it: the spec says only that Write Uncorrectable takes the path of a write. Answers the outstanding writes. [DEDUCED, log 30; DESIGN CHOICE, log 87] -/
def Dev.writeBlock (d : Dev) (owner ref v b data valid unc : Nat) (strips : List (List Byte)) : List (Nat × Nat × Nat × Nat) × Dev :=
  let e := d.vol v
  let strips := listSet strips (dataIdx e b) (leBytes 4096 data)
  let d := d.noteFua owner ref v
  (d.writeSet v b).foldl (fun (x : List (Nat × Nat × Nat × Nat) × Dev) i =>
    let port := xPort e i
    let ns := xNsid e i
    let lba := x.2.blockLba v i b
    let one := fun (x : List (Nat × Nat × Nat × Nat) × Dev) (opc off n : Nat) (l : List Byte) =>
      let id := x.2.ports.cmdId
      let p := x.2.port port
      let d := { x.2 with ports := { x.2.ports with cmdId := id + 1 } }
      (x.1 ++ [(id, port, ns, i)], (d.setPort port { p with cmds := p.cmds ++ [{ id := id, owner := owner, ref := ref, nsid := ns }] }).emit .drive
        [port, ns, opc, lba + off, n, d.writeFlags v] l)
    let parity := vLayout e = 3 ∧ vK e ≤ stripIdx e i b
    if parity then one x 0x01 0 (x.2.spb v i) (rsMember (vK e) (stripIdx e i b) strips 4096)
    else if x.2.spb v i = 1 then (if unc ≠ 0 then one x 0x04 0 1 [] else one x 0x01 0 1 (leBytes 4096 data))
    else
      let m := if vLayout e = 3 then 0xFF else valid
      let x := (maskRuns (m &&& (0xFF - unc % 256))).foldl (fun x r => one x 0x01 r.1 r.2 (leBytes (512 * r.2) (fieldOf data (512 * r.1) (512 * r.2)))) x
      (maskRuns (m &&& unc)).foldl (fun x r => one x 0x04 r.1 r.2 []) x) ([], d)

/-- A write of block `b` with sectors `valid` first reads the volume (R38). [DEDUCED, log 30] -/
def Dev.writeReads (d : Dev) (v b valid : Nat) : Bool :=
  vLayout (d.vol v) = 3 ∨ (valid ≠ 0xFF ∧ (d.writeSet v b).any fun i => d.spb v i = 1)

/-- What a write or read of a volume gives its owner: a host completion, or the progress of its channel or slot. -/
def Dev.ioAck (d : Dev) (org ref cid status vdata : Nat) (live : Bool) : Dev :=
  match org with
  | 0 => if live then d.nvmeDone ref cid status 0 else d.inc oFencedDrops 64
  | 1 => d.setCh ref { d.ch ref with desc := (d.ch ref).desc.map fun x => { x with vst := if status = 0 then 2 else 3, vdata := vdata } }
  | 2 => d.setSlot ref { d.slot ref with job := (d.slot ref).job.map fun x => { x with vst := if status = 0 then 2 else 3, vdata := vdata } }
  | _ => d

/-- Completes a write with `status` and drops it. -/
def Dev.writeAck (d : Dev) (w : HostWrite) (status : Nat) : Dev :=
  (((d.fillDropRef 2 w.id).retireRef 2 w.id).dropWrite w.id).ioAck w.org w.ref w.cid status 0 (w.gen = d.instGen w.inst)

/-- The write-through of `w` may issue: no older version of its blocks is dirty, but for Poison versions it covers whole (R49). -/
def Dev.throughReady (d : Dev) (w : HostWrite) : Bool :=
  w.blocks.all fun b =>
    ¬ d.adopting w.vol b ∧ d.writeReady w.vol b ∧
      (d.versOf w.vol b).all fun v => ¬ v.dirty ∨ (v.poison ∧ v.st = 2 ∧ (w.part b).1 = 0xFF)

/-- Issues the drive writes of a write-through (R44 THROUGH): it supersedes Poison versions, and first reads where R38 asks it. -/
def Dev.throughStart (d : Dev) (w : HostWrite) : Dev :=
  let d := d.modWrite w.id fun w => { w with stage := 3, waiting := false, noFua := false, unflushed := [] }
  let ok := w.blocks.foldl (fun (o : Option Dev) b => o.bind fun d =>
    let (mask, data, unc) := w.part b
    let d := ((d.versOf w.vol b).filter fun v => v.dirty ∧ v.poison).foldl (fun d v => d.freeVer v.frame) d
    if d.writeReads w.vol b mask then d.fillStart 2 w.id w.vol b (vLayout (d.vol w.vol) = 3) (mask ≠ 0xFF)
    else some (d.writeBlock 2 w.id w.vol b data mask unc []).2) (some d)
  match ok with
  | some d => d
  | none => d.writeAck w scWriteFault

/-- Issues every write-through that may issue now; one to a FAILED or deleted volume completes with Write Fault (R59). -/
def Dev.throughKick (d : Dev) : Dev :=
  if d.cache.frozen then d
  else (d.cache.writes.filter fun w => w.stage = 1 ∧ w.thru).foldl (fun d w =>
    if vState (d.vol w.vol) = 3 ∨ vLayout (d.vol w.vol) = 0 then d.writeAck w scWriteFault
    else if d.throughReady w then d.throughStart w else d) d

/-- Replaces the Flushes outstanding. -/
def Dev.setFlushes (d : Dev) (l : List DriveFlush) : Dev := { d with cache := { d.cache with flushes := l } }

/-- The version in frame `f` is durable (R56): CLEAN, or FREE when Superseded; older CLEAN versions of its block go. [DEDUCED, log 29] -/
def Dev.durable (d : Dev) (f : Nat) : Dev :=
  let d := { d with cache := { d.cache with destages := d.cache.destages.filter (·.frame ≠ f), fails := d.cache.fails.filter (·.1 ≠ f) } }
  match d.verAt f with
  | none => d
  | some v =>
    let d := if v.superseded ∨ v.dropping then d.freeVer f
      else
        let rest := d.cache.versions.filter fun x => x.frame ≠ f ∧ ¬ (x.vol = v.vol ∧ x.blk = v.blk ∧ x.st = 1)
        d.setVers (rest ++ [{ v with st := 1, copy := none }])
    d.modeUpdate.throughKick

/-- The attempt to destage frame `f` ends and the version is DIRTY again, with its order and charge (R56, R60, R462). -/
def Dev.undestage (d : Dev) (f : Nat) : Dev :=
  let d := (d.fillDropRef 1 f).retireRef 1 f
  let d := { d with cache := { d.cache with destages := d.cache.destages.filter (·.frame ≠ f) } }
  match d.verAt f with
  | some v => if v.dropping then d.freeVer f else d.modVer f fun v => { v with st := 2 }
  | none => d

/-- Ends the attempt of frame `f` once nothing of it is outstanding. -/
def Dev.destageCheck (d : Dev) (f : Nat) : Dev :=
  match d.cache.destages.find? (·.frame = f), d.verAt f with
  | some x, some v =>
    if ¬ x.reading ∧ x.wait.isEmpty ∧ x.unflushed.isEmpty then
      (if vState (d.vol v.vol) = 3 ∧ ¬ v.dropping then d.undestage f else d.durable f)
    else d
  | _, _ => d

/-- Begins to destage a version (R38, R57). None when its block cannot be read. -/
def Dev.destageStart (d : Dev) (v : Version) : Option Dev :=
  let d := d.modVer v.frame fun v => { v with st := 3 }
  let at_ := d.setDestages (d.cache.destages ++ [{ frame := v.frame, quad := d.sliceOf v.vol v.blk, reading := d.writeReads v.vol v.blk v.valid }])
  if d.writeReads v.vol v.blk v.valid then at_.fillStart 1 v.frame v.vol v.blk (vLayout (d.vol v.vol) = 3) (v.valid ≠ 0xFF)
  else
    let (wait, d) := at_.writeBlock 1 v.frame v.vol v.blk v.data v.valid v.unc []
    some (d.modDestage v.frame fun x => { x with wait := wait })

/-- Frees the oldest CLEAN versions of instance `i` until `more` further frames are within its cache quota (R54). -/
def Dev.evictFor (d : Dev) (i more : Nat) : Dev :=
  let above := d.instFrames i + more - d.cacheQuota i
  ((d.cache.versions.filter fun v => v.st = 1 ∧ v.inst = i).take above).foldl (fun d v => d.freeVer v.frame) d

/-- Makes room for one more frame of instance `i` (R54). -/
def Dev.evictInst (d : Dev) (i : Nat) : Dev := d.evictFor i 1

/-- Frames of instance `i` above a lowered cache quota are evicted from its CLEAN frames in Age order (R270). -/
def Dev.trimQuota (d : Dev) (i : Nat) : Dev := if d.cache.frozen then d else d.evictFor i 0

/-- Installs a block read on a miss as CLEAN (Table 2.1 ReadAllocate, R45, R54). -/
def Dev.install (d : Dev) (inst v b data : Nat) : Dev :=
  if ¬ bit (vFlags (d.vol v)) 1 ∨ ¬ (d.versOf v b).isEmpty ∨ d.cache.frozen then d
  else
    let d := d.evictInst inst
    if d.cacheQuota inst ≤ d.instFrames inst then d
    else match d.poolFor v b with
    | none => d
    | some n =>
      let (f, d) := d.takeFrame n
      d.setVers (d.cache.versions ++ [{ frame := f, vol := v, blk := b, inst := inst, st := 1, data := data }])

/-- Replaces the reads of volumes. -/
def Dev.setCmds (d : Dev) (l : List HostCmd) : Dev := { d with insts := { d.insts with cmds := l } }

/-- Completes a read with `status`; its data go to the host, the channel or the slot. -/
def Dev.readAck (d : Dev) (c : HostCmd) (status vdata : Nat) : Dev :=
  let d := (d.fillDropRef 3 c.id).setCmds (d.insts.cmds.filter (·.id ≠ c.id))
  let d := if c.org = 0 ∧ status = 0 then d.hostPost c.inst c.gen .hostWrite [c.inst, c.dst] (leBytes c.len vdata) else d
  d.ioAck c.org c.ref c.cid status vdata (c.gen = d.instGen c.inst)

/-- Sectors of block `b` that a read wants. -/
def HostCmd.mask (c : HostCmd) (b : Nat) : Nat :=
  (List.range 8).foldl (fun m i => if c.start < b * 4096 + 512 * i + 512 ∧ b * 4096 + 512 * i < c.start + c.len then m + 2 ^ i else m) 0

/-- Blocks a read touches. -/
def HostCmd.blocks (c : HostCmd) : List Nat :=
  if c.len = 0 then [] else (List.range ((c.start + c.len - 1) / 4096 - c.start / 4096 + 1)).map (c.start / 4096 + ·)

/-- The newest version valid in sector `i` of a block (R43). [DEDUCED, log 30] -/
def Dev.secVer (d : Dev) (v b i : Nat) : Option Version := (d.versOf v b).reverse.find? (·.valid.testBit i)

/-- What the cache gives for the sectors `m` of a block: data, the sectors it does not hold, whether one is held only in known bad
data (R58), and the versions that must first be restored (R142). -/
def Dev.blockView (d : Dev) (v b m : Nat) : Nat × Nat × Bool × List Nat :=
  (List.range 8).foldl (fun (x : Nat × Nat × Bool × List Nat) i =>
    if ¬ m.testBit i then x
    else match d.secVer v b i with
    | none => (x.1, x.2.1 + 2 ^ i, x.2.2.1, x.2.2.2)
    | some r =>
      if ¬ d.verHere r then (x.1, x.2.1, x.2.2.1, x.2.2.2 ++ [r.frame])
      else (setField x.1 (512 * i) 512 (fieldOf r.data (512 * i) 512), x.2.1, x.2.2.1 || r.poison || r.unc.testBit i, x.2.2.2)) (0, 0, false, [])

/-- The data of a read from the cache and what the drives gave; none when a sector is known bad. -/
def Dev.readData (d : Dev) (c : HostCmd) : Option Nat :=
  (c.blocks.foldl (fun (o : Option Nat) b => o.bind fun x =>
    let m := c.mask b
    let (data, miss, bad, _) := d.blockView c.vol b m
    let drive := ((c.got.find? (·.1 = b)).map (·.2)).getD 0
    let blk := mergeSec miss drive data
    if bad then none else some (x + blk * 256 ^ ((b - c.start / 4096) * 4096))) (some 0)).map fun x =>
    fieldOf x (c.start % 4096) c.len

/-- Restored host work still waits for MSI-X Enable and Bus Master Enable (R149). -/
def Dev.workHeld (d : Dev) (org : Nat) : Bool := d.restore.hold ∧ org = 0

/-- Runs a read (R38, R43, R58, R59, R142, R288): from the cache, with drive reads for what neither it nor an earlier drive read of the command has brought.
Access to data that is not resident, and to an adopted bucket, waits. -/
def Dev.readRun (d : Dev) (c : HostCmd) : Dev :=
  let views := c.blocks.map fun b => (b, d.blockView c.vol b (c.mask b))
  let rest := mapIf (·.id = c.id) (fun x => { x with st := 0 }) d.insts.cmds
  if c.blocks.any (d.adopting c.vol) then d.setCmds rest
  else if views.any fun x => x.2.2.2.1 then d.readAck c scReadError 0
  else if views.any fun x => ¬ x.2.2.2.2.isEmpty then
    (views.flatMap fun x => x.2.2.2.2).foldl (fun d f => d.restoreFault (frameKey f) (2 ^ 64 + c.id)) (d.setCmds rest)
  else if vState (d.vol c.vol) = 3 ∧ views.any fun x => x.2.2.1 ≠ 0 then d.readAck c scReadError 0
  else
    let miss := (views.filter fun x => x.2.2.1 ≠ 0 ∧ ¬ c.got.any (·.1 = x.1)).map (·.1)
    let o := miss.foldl (fun (o : Option Dev) b => o.bind fun d => d.fillStart 3 c.id c.vol b false true) (some d)
    match o with
    | none => d.readAck c scReadError 0
    | some d2 =>
      if miss.isEmpty then (match d.readData c with | some x => d.readAck c 0 x | none => d.readAck c scReadError 0)
      else d2.setCmds (mapIf (·.id = c.id) (fun c => { c with st := 1 }) d2.insts.cmds)

/-- Runs every read that waits to be run. -/
def Dev.readKick (d : Dev) : Dev :=
  if d.quiet then d else (d.insts.cmds.filter fun c => c.st = 0 ∧ ¬ d.workHeld c.org).foldl Dev.readRun d

/-- A read of a block has come in whole: its owner goes on. -/
def Dev.fillDone (d : Dev) (f : Fill) : Dev :=
  let e := d.vol f.vol
  let d := d.fillDrop f.id
  match f.owner with
  | 1 =>
    match d.verAt f.ref with
    | none => d
    | some v =>
      let base := if vLayout e = 3 then leNat (listGet [] (fillStrips e f) (dataIdx e f.blk)) else fillBlock e f
      let data := mergeSec v.valid v.data base
      let (wait, d) := d.writeBlock 1 f.ref f.vol f.blk data v.valid v.unc (if vLayout e = 3 then fillStrips e f else [])
      (d.modDestage f.ref fun x => { x with wait := wait, reading := false }).destageCheck f.ref
  | 2 =>
    match d.writeAt f.ref with
    | none => d
    | some w =>
      let (mask, new, unc) := w.part f.blk
      let data := mergeSec mask new (fillBlock e f)
      (d.writeBlock 2 w.id f.vol f.blk data mask unc (if vLayout e = 3 then fillStrips e f else [])).2
  | _ =>
    match d.insts.cmds.find? (·.id = f.ref) with
    | none => d
    | some c =>
      let x := fillBlock e f
      let c := { c with got := c.got ++ [(f.blk, x)] }
      let d := (d.install c.inst f.vol f.blk x).setCmds (mapIf (·.id = c.id) (fun _ => c) d.insts.cmds)
      if d.cache.fills.any fun g => g.owner = 3 ∧ g.ref = c.id then d else d.readRun c

/-- A read of a block cannot be supplied by the members it asked: others are asked, else its owner fails (R288). -/
def Dev.fillFail (d : Dev) (f : Fill) (pos : Nat) : Dev :=
  let d := d.fillDrop f.id
  match (if f.owner = 3 ∧ vState (d.vol f.vol) = 3 then none else d.fillStart f.owner f.ref f.vol f.blk f.full true (f.failed ++ [pos])) with
  | some d => d
  | none =>
    match f.owner with
    | 1 => d.undestage f.ref
    | 2 => match d.writeAt f.ref with | some w => d.writeAck w scWriteFault | none => d
    | _ => match d.insts.cmds.find? (·.id = f.ref) with | some c => d.readAck c scReadError 0 | none => d

/-- Rebuilds of FAILED volumes stop (Table 12.4): their members are MISSING again. -/
def Dev.rebuildStop (d : Dev) : Dev :=
  let bad := d.ports.rebuilds.filter fun r => vState (d.vol r.vol) = 3
  let d := { d with ports := { d.ports with rebuilds := d.ports.rebuilds.filter fun r => vState (d.vol r.vol) ≠ 3 } }
  bad.foldl (fun d r => if xState (d.vol r.vol) r.pos = 2 then d.setMember r.vol r.pos 1 else d) d

/-- Flushes have covered namespaces of write-throughs, or their drives are lost: a write-through that waits for none is acknowledged (R45, R56). -/
def Dev.throughEnd (d : Dev) (w : HostWrite) : Dev :=
  let gone := d.cache.versions.filter fun v => v.vol = w.vol ∧ w.blocks.contains v.blk ∧ v.st = 1
  ((gone.foldl (fun d v => d.freeVer v.frame) d).writeAck w scSuccess).throughKick

/-- Takes the namespaces that `p` selects from what write-throughs wait for; those left with none end. -/
def Dev.throughFlushed (d : Dev) (p : Nat × Nat × Bool → Bool) : Dev :=
  let due := d.cache.writes.filter fun w => w.stage = 3 ∧ w.unflushed.any p
  let d := d.setWrites (mapIf (fun w => decide (w.stage = 3)) (fun w => { w with unflushed := w.unflushed.filter fun u => ¬ p u }) d.cache.writes)
  due.foldl (fun d x => match d.writeAt x.id with
    | some w => if w.unflushed.isEmpty then d.throughEnd w else d
    | none => d) d

/-- The drive at port `n` is lost (R286, R288): its commands end, the port reads DOWN and its members are MISSING. -/
def Dev.driveLost (d : Dev) (n : Nat) (st : Nat := 4) (counted : Bool := true) : Dev :=
  let p := d.port n
  let d := d.setPort n { p with state := st, ns := [], serial := 0, cmds := [], speed := 0, width := 0, again := false }
  let d := if counted then d.inc oDrivesLost else d
  let d := { d with ports := { d.ports with rebuilds := d.ports.rebuilds.filter fun r => xPort (d.vol r.vol) r.pos ≠ n } }
  let d := ((d.membersOn n).foldl (fun d m => if xState (d.vol m.1) m.2 = 1 then d else d.setMember m.1 m.2 1) d).rebuildStop
  let d := (d.setFlushes (d.cache.flushes.filter (·.port ≠ n))).setDestages (d.cache.destages.map fun x =>
    { x with wait := x.wait.filter (·.2.1 ≠ n), unflushed := x.unflushed.filter (·.1 ≠ n) })
  let d := (d.cache.fills.flatMap fun f => (f.want.filter fun w => p.cmds.any (·.id = w.1)).map fun w => (f, w.2)).foldl
    (fun d x => if d.cache.fills.any (·.id = x.1.id) then d.fillFail x.1 x.2 else d) d
  let d := (d.cache.destages.map (·.frame)).foldl Dev.destageCheck d
  let d := d.throughFlushed fun u => u.1 = n
  (d.cache.destages.filter fun x => match d.verAt x.frame with | some v => vState (d.vol v.vol) = 3 | none => true).foldl
    (fun d x => d.undestage x.frame) d

/-- Every command outstanding at port `n` is abandoned without completion to its owner (R462). [DEDUCED, log 32] -/
def Dev.portAbandon (d : Dev) (n : Nat) : Dev :=
  let cmds := (d.port n).cmds
  let d := d.setPort n { d.port n with cmds := [] }
  let d := (cmds.filter (·.owner = 1)).foldl (fun d c => d.undestage c.ref) d
  let reissue := fun (d : Dev) (id : Nat) => ((d.fillDropRef 2 id).retireRef 2 id).modWrite id fun w => { w with stage := 1 }
  let d := (cmds.filter (·.owner = 2)).foldl (fun d c => reissue d c.ref) d
  let d := (cmds.filter (·.owner = 3)).foldl (fun d c =>
    match d.cache.fills.find? (·.id = c.ref) with
    | none => d
    | some f => match f.owner with
      | 1 => d.undestage f.ref
      | 2 => reissue d f.ref
      | _ => (d.fillDropRef 3 f.ref).setCmds (mapIf (·.id = f.ref) (fun c => { c with st := 0, got := [] }) d.insts.cmds)) d
  let again (l : List (Nat × Nat × Bool)) := l.map fun u => if u.1 = n then (u.1, u.2.1, false) else u
  ((d.setFlushes (d.cache.flushes.filter (·.port ≠ n))).setDestages (d.cache.destages.map fun x => { x with unflushed := again x.unflushed })).setWrites
    (d.cache.writes.map fun w => { w with unflushed := again w.unflushed })

end Sys2Proof.Machine
end

