-- ==== Sys2Proof/Machine/KennelFmt.lean ====
section
/-! DEFINITION. The byte layouts of the Kennel (05): addresses, headers, descriptors, manifests, records and the seal block, and the writing of records
and headers. -/
namespace Sys2Proof.Machine

/-- Replaces the Kennel. -/
def Dev.setKennel (d : Dev) (k : Kennel) : Dev := { d with kennel := k }

/-- Slot `i`: 0 A, 1 B. -/
def Dev.slotK (d : Dev) (i : Nat) : Slot := if i = 0 then d.kennel.a else d.kennel.b

/-- Replaces slot `i`. -/
def Dev.setSlotK (d : Dev) (i : Nat) (s : Slot) : Dev :=
  if i = 0 then d.setKennel { d.kennel with a := s } else d.setKennel { d.kennel with b := s }

/-- LUN `n`. -/
def Dev.lunOf (d : Dev) (n : Nat) : Lun := storeGet noLun d.kennel.luns n

/-- Replaces LUN `n`. -/
def Dev.setLun (d : Dev) (n : Nat) (x : Lun) : Dev := d.setKennel { d.kennel with luns := storeSet noLun d.kennel.luns n x }

/-- SlotABase and SlotBBase (R112). -/
def Dev.slotBase (d : Dev) (i : Nat) : Nat := 2 + i * d.kennel.slotBlocks

/-- Where a block of LUN `lun` lies after remaps. -/
def Dev.remapped (d : Dev) (lun block : Nat) : Nat := (((d.lunOf lun).remap.find? (·.1 = block)).map (·.2)).getD block

/-- A Kennel address (Table 5.2). -/
def kennelAddr (lun block row : Nat) : Nat := lun * 2 ^ 56 + block * 2 ^ 32 + row * 2 ^ 16

/-- Pages of one plane that an SLC block holds. -/
def Dev.blockPages (d : Dev) : Nat := d.kennel.ppb * d.kennel.planes

/-- The address of page `p` of a run of blocks that begins at `block`, with its plane: pages of one plane fill a row before the next. [DEDUCED, log 49] -/
def Dev.pageAddr (d : Dev) (lun block p : Nat) : List Nat :=
  [kennelAddr lun (d.remapped lun (block + p / d.blockPages)) (p % d.blockPages / d.kennel.planes), p % d.kennel.planes]

/-- ASCII text as bytes. -/
def ascii (s : String) : List Byte := s.toList.map fun c => BitVec.ofNat 8 c.toNat

/-- A 4 KiB structure: its fields, zeros, and CRC-64 in the last 8 bytes (R119). -/
def page4k (l : List Byte) : List Byte :=
  let b := l ++ List.replicate (4088 - l.length) 0
  b ++ leBytes 8 (crc64 b)

/-- A structure's fields with zeros up to `n` bytes. -/
def padTo (n : Nat) (l : List Byte) : List Byte := l ++ List.replicate (n - l.length) 0

/-- Bit n is 1 for every `n` of a list without repeats. -/
def bitSet (l : List Nat) : Nat := (l.map fun n => 2 ^ n).sum

/-- The directory part of a header page (Table 5.3). -/
def Kennel.dirBytes (k : Kennel) : List Byte :=
  page4k (ascii "KNLDIRCT" ++ leBytes 2 k.fmt ++ leBytes 2 k.pageSize ++ leBytes 1 k.planes ++ leBytes 2 k.slc ++ leBytes 1 0 ++ leBytes 2 k.ppb ++ leBytes 2 k.bpl
    ++ leBytes 4 k.gen ++ leBytes 8 k.serial ++ leBytes 32 (bitSet k.map)
    ++ ([2, 2 + k.slotBlocks, k.slotBlocks, k.progress, k.scratchBase, k.scratchBlocks, k.logBase, k.logBlocks, k.reserveBase, k.reserveBlocks].flatMap (leBytes 2))
    ++ leBytes 2 k.worst ++ leBytes 2 0 ++ leBytes 8 k.keyCheck ++ leBytes 8 k.seqFloor ++ leBytes 32 (bitSet k.fmtMap))

/-- The LUN part of a header page (Table 5.3). -/
def Kennel.lunBytes (k : Kennel) (n : Nat) : List Byte :=
  let x := storeGet noLun k.luns n
  page4k (leBytes 1 n ++ leBytes 1 (if x.failed then 1 else 0) ++ leBytes 2 x.remap.length ++ leBytes 4 k.gen ++ leBytes 1024 (bitSet x.bad)
    ++ padTo 3056 (x.remap.flatMap fun p => leBytes 4 p.1 ++ leBytes 4 p.2))

/-- Writes LUN `n`'s header at the directory's generation to the next unused page of header block DirGeneration mod 2, which is erased first when it is
full (R113). -/
def Dev.headerTo (d : Dev) (n : Nat) : Dev :=
  let k := d.kennel
  let x := d.lunOf n
  let b := k.gen % 2
  let used := if b = 0 then x.hdr0 else x.hdr1
  let full : Bool := decide (d.blockPages ≤ used)
  let d := if full then d.emit .flash [kennelAddr n b 0, 0x30] else d
  let p := if full then 0 else used
  let d := d.emit .flash [kennelAddr n b (p / k.planes), 0x20, p % k.planes] (k.dirBytes ++ k.lunBytes n)
  d.setLun n (if b = 0 then { x with gen := k.gen, hdr0 := p + 1 } else { x with gen := k.gen, hdr1 := p + 1 })

/-- A rewrite of headers (R113): a new generation, written to the LUNs `ns`. -/
def Dev.rewriteHeaders (d : Dev) (ns : List Nat) : Dev :=
  ns.foldl Dev.headerTo (d.setKennel { d.kennel with gen := d.kennel.gen + 1 })

/-- Every populated LUN. -/
def Dev.allLuns (d : Dev) : List Nat := (d.kennel.luns.filter (·.2.present)).map (·.1)

/-- The item table as restore reads it: 64 entries in formats 1 and 2 (Table 5.10). -/
def Image.itemTable (m : Image) : List PlanItem := if m.fmt < 3 then m.items.take 64 else m.items

/-- The item of segment `i`. -/
def Image.item (m : Image) (i : Nat) : Option PlanItem := m.itemTable.find? fun x => x.first ≤ i ∧ i < x.first + x.segs

/-- The step of segment `i`; 0 beyond the plan. -/
def Image.stepOf (m : Image) (i : Nat) : Nat := match m.item i with | some x => x.step | none => 0

/-- Number of segments of the steps up to `s`. -/
def Image.upTo (m : Image) (s : Nat) : Nat := ((m.itemTable.filter (·.step ≤ s)).map (·.segs)).sum

/-- The durable prefix that the latest readable progress record names (R97); 0 with none. -/
def Image.recorded (m : Image) : Nat := ((m.recs.filter (·.kind = 1)).getLast?.map (·.durable)).getD 0

/-- Restripe entry 0's LunMap: that of the manifest. -/
def Image.lunMap (m : Image) : List Nat := match m.restripe with | e :: _ => e.luns | [] => []

/-- The manifest (Table 5.6), as the skeleton or with Final set in the seal. -/
def Image.manifestBytes (m : Image) (slot : Nat) (final : Bool) : List Byte :=
  page4k (ascii "KNLMANIF" ++ leBytes 2 m.fmt ++ leBytes 1 slot ++ leBytes 1 m.trigger
    ++ leBytes 2 ((if final then 1 else 0) + (if m.mayDrop then 2 else 0) + (if m.unarmed then 4 else 0)) ++ leBytes 1 m.mode ++ leBytes 1 0
    ++ leBytes 8 m.seq ++ leBytes 8 m.t0 ++ leBytes 8 m.serial ++ leBytes 4 m.plan ++ leBytes 4 m.vers.length ++ leBytes 4 m.capacity
    ++ leBytes 2 m.items.length ++ leBytes 2 0 ++ leBytes 8 m.keyCheck ++ ((List.range 6).flatMap fun s => leBytes 4 (m.upTo s))
    ++ leBytes 8 (if final then m.plan - 1 else 0) ++ leBytes 32 (bitSet m.lunMap) ++ leBytes 64 0
    ++ padTo 2048 (m.items.flatMap fun x => leBytes 4 x.id ++ leBytes 4 x.first ++ leBytes 8 x.len))

/-- The seal block (Table 5.8): SkeletonCrc ties it to the manifest as written. -/
def Image.sealBytes (m : Image) (slot : Nat) : List Byte :=
  page4k (ascii "KNLSEALD" ++ leBytes 8 m.seq ++ leBytes 4 (m.plan - 1) ++ leBytes 4 (m.recs.filter (·.kind = 1)).length ++ leBytes 8 m.evLast
    ++ leBytes 8 (leNat ((m.manifestBytes slot false).drop 4088)) ++ leBytes 8 (m.ring[0]?.getD 0) ++ leBytes 8 (m.ring[1]?.getD 0))

/-- A progress, void or release record (Table 5.7). -/
def KRec.bytes (m : Image) (slot : Nat) (r : KRec) : List Byte :=
  page4k (ascii "KNLPROGR" ++ leBytes 2 3 ++ leBytes 1 r.kind ++ leBytes 1 slot ++ leBytes 4 r.num ++ leBytes 8 m.seq ++ leBytes 4 r.durable
    ++ leBytes 2 r.reloc.length ++ leBytes 1 r.restripe.length ++ leBytes 1 0 ++ leBytes 8 r.tick ++ leBytes 6 r.evLast ++ leBytes 18 0
    ++ padTo 384 (r.restripe.flatMap fun e => leBytes 4 e.fromSeg ++ leBytes 4 e.rowBase ++ leBytes 32 (bitSet e.luns) ++ leBytes 8 0)
    ++ (r.reloc.flatMap fun p => leBytes 4 p.1 ++ leBytes 4 0 ++ leBytes 8 p.2))

/-- The descriptor on each page of segment `i` (Table 5.4); `plain` are the segment's bytes before encryption. -/
def Image.descriptor (m : Image) (slot i : Nat) (plain : List Byte) : List Byte :=
  let x := (m.item i).getD { id := 0, step := 0, first := 0, segs := 0, len := 0 }
  let mask := ((m.poison.find? (·.1 = i)).map (·.2)).getD 0
  let vs := if x.id = 4 then (m.vers.drop (16 * (i - x.first))).take 16 else []
  let b := leBytes 2 0x4453 ++ leBytes 1 3 ++ leBytes 1 x.step ++ leBytes 4 i ++ leBytes 6 m.seq ++ leBytes 1 slot
    ++ leBytes 1 ((if mask = 0 then 0 else 1) + (if m.reloc.any (·.1 = i) then 2 else 0) + (if i + 1 = x.first + x.segs then 4 else 0))
    ++ leBytes 2 mask ++ leBytes 1 vs.length ++ leBytes 1 0 ++ leBytes 4 ((vs.head?.map (·.frame)).getD (2 ^ 32 - 1)) ++ leBytes 8 ((i - x.first) * 65536)
    ++ leBytes 4 x.id ++ leBytes 4 (crc32c plain) ++ leBytes 20 0
  b ++ leBytes 4 (crc32c b)

/-- The LUNs of a record's two copies (R124): the first two of the restripe list in force that lie on different channels; one that no longer answers
takes none. -/
def Dev.recLuns (d : Dev) (m : Image) : List Nat :=
  let two := match m.restripe.getLast? with
    | some e => (match e.luns with
      | a :: r => a :: ((r.find? fun b => b / 16 ≠ a / 16).toList)
      | [] => [])
    | none => []
  two.filter d.kennel.map.contains

/-- No page of a slot's progress blocks used. -/
def noPages : Nat → Nat := fun _ => 0

/-- A page of the slot's progress blocks is free on LUN `n` (R124). -/
def Dev.recRoom (d : Dev) (m : Image) (n : Nat) : Bool := storeGet noPages m.recPages n < d.kennel.progress * d.blockPages

/-- Programs the copies of a record in the slot's progress blocks (R124). A progress record needs a free page; a void or release record for which none is
left, a case the rule does not give, takes effect all the same. [DESIGN CHOICE, log 92] -/
def Dev.writeRec (d : Dev) (slot : Nat) (m : Image) (r : KRec) : Image × Dev :=
  let luns := (d.recLuns m).filter (d.recRoom m)
  if r.kind = 1 ∧ luns.isEmpty then (m, d)
  else
    let r := { r with num := m.recNum, tick := d.now }
    let d := luns.foldl (fun d n => d.emit .flash (match d.pageAddr n (d.slotBase slot) (storeGet noPages m.recPages n) with | [a, p] => [a, 0x0F + r.kind, p] | l => l) (r.bytes m slot)) d
    ({ m with recs := m.recs ++ [r], recNum := m.recNum + 1, recPages := luns.foldl (fun l n => storeMod noPages l n (· + 1)) m.recPages }, d)

/-- The last event sequence flushed to the log; 0 with none. -/
def Dev.evFlushed (d : Dev) : Nat := d.faults.pages.foldl (fun t p => p.recs.foldl (fun t e => max t e.seq) t) 0

/-- Relocations of segments in the durable prefix that no record lists yet (R124). -/
def Image.waitRelocs (m : Image) : List (Nat × Nat) := m.reloc.filter fun r => r.1 < m.durable ∧ ¬ m.recs.any fun x => x.reloc.contains r

/-- Writes a progress record for the durable prefix (R96, R124). -/
def Dev.progress (d : Dev) (slot : Nat) (m : Image) : Image × Dev :=
  d.writeRec slot m { kind := 1, durable := m.durable, evLast := d.evFlushed, restripe := m.restripe, reloc := m.waitRelocs.take 227 }

/-- Writes the void (2) or release (3) record of the image in slot `i`, if there is one. -/
def Dev.closeImage (d : Dev) (i kind : Nat) : Dev :=
  match (d.slotK i).image with
  | none => d
  | some m =>
    let (m, d) := d.writeRec i m { kind := kind, restripe := m.restripe }
    d.setSlotK i { d.slotK i with image := some (if kind = 2 then { m with voided := true } else { m with released := true }) }

end Sys2Proof.Machine
end

