-- ==== Sys2Proof/Machine/Held.lean ====
section
/-! DEFINITION. Kennel slots and their states (R126), erases and releases (R128), the arming of the vault (R78), and the end of a
held image (R146). -/
namespace Sys2Proof.Machine

/-- SlotState of Table 5.9; of several rows that match, the highest. An image whose format restore does not accept is CORRUPT (R129). A manifest with no
record and no seal matches no row of the table, and reads CORRUPT here. [DESIGN CHOICE, log 92] -/
def slotState (s : Slot) : Nat :=
  if s.held then 8 else if s.target then 7
  else match s.image with
  | some i =>
    if i.fmt = 0 ∨ 3 < i.fmt then 2
    else if i.released then 6 else if i.voided then 5 else if i.manifest ∧ i.sealOk then 4 else if i.manifest ∧ i.recs.any (·.kind = 1) then 3 else 2
  | none => if s.corrupt then 2 else if s.erasing then 1 else 0

/-- Begins to erase a slot (R128), unless it is ERASED, ERASING or HELD. -/
def Dev.eraseSlot (d : Dev) (i : Nat) : Dev :=
  let s := d.slotK i
  if slotState s = 0 ∨ slotState s = 1 ∨ slotState s = 8 then d
  else d.setSlotK i { s with erasing := true, image := none, corrupt := false, target := false
                           , lastErased := match s.image with | some x => x.seq | none => s.lastErased }

/-- Writes the release record of the image in slot `i`, and erases the other slot (R128). -/
def Dev.releaseSlot (d : Dev) (i : Nat) : Dev :=
  ((d.setSlotK i { d.slotK i with held := false }).closeImage i 3).eraseSlot (1 - i)

/-- VaultState between outages: ARMED while bits 1 and 2 of WriteThroughCause are clear (R78). -/
def Dev.armState (d : Dev) : Nat := if bit (d.g oWriteThroughCause) 1 ∨ bit (d.g oWriteThroughCause) 2 then 0 else 1

/-- Moves between ARMED and UNARMED as R78 has it (Table 4.3), once power is good; waiting writes are judged again. -/
def Dev.armEval (d : Dev) : Dev :=
  let d := if d.vst ≤ 1 ∧ d.sup = 2 then d.setVaultState d.armState else d
  d.rejudge.throughKick

/-- The held image. -/
def Dev.heldImage (d : Dev) : Option Image :=
  match d.restore.held with
  | some _ => if d.kennel.a.held then d.kennel.a.image else if d.kennel.b.held then d.kennel.b.image else none
  | none => none

/-- The held image has the data of version `v` as the cache holds it. -/
def Dev.heldHas (d : Dev) (v : Version) : Bool :=
  v.image && match d.heldImage with
  | some m => m.vers.any fun x => x.vol = v.vol ∧ x.blk = v.blk ∧ x.inst = v.inst ∧ x.dom = v.dom ∧ x.seq = v.seq ∧ x.valid = v.valid ∧ x.data = v.data
  | none => false

/-- Ends FETCH: the held image is restored (R146), its release record is written, and its versions are like any other. -/
def Dev.heldDone (d : Dev) : Dev :=
  let i := if d.kennel.a.held then 0 else 1
  let d := d.releaseSlot i
  let d := { d with restore := { d.restore with held := none } }
  let d := d.setVers (d.cache.versions.map fun v => { v with image := false })
  (if d.vst = 0x0C then d.setVaultState d.armState else d).armEval

/-- Declares the held image restored when every item is resident, and the vault is ARMED or no dirty version of it remains (R146). -/
def Dev.heldCheck (d : Dev) : Dev :=
  if d.restore.held.isSome ∧ d.mem.resid.isEmpty ∧ (d.armed ∨ ¬ d.cache.versions.any fun v => v.image ∧ v.dirty) then d.heldDone
  else d

/-- Inserts by key into a list in the order of its keys. -/
def insKey {α : Type} (x : Nat × α) : List (Nat × α) → List (Nat × α)
  | [] => [x]
  | y :: r => if x.1 < y.1 then x :: y :: r else y :: insKey x r

/-- Executes restored writes and reads from the start, in the order of their fetch (R148): their numbers follow it. -/
def Dev.rerunAll (d : Dev) (ws : List HostWrite) (cs : List HostCmd) : Dev :=
  let l : List (Nat × (HostWrite ⊕ HostCmd)) := ws.map (fun w => (w.id, Sum.inl w)) ++ cs.map (fun c => (c.id, Sum.inr c))
  let all := l.foldr insKey []
  all.foldl (fun d x => match x.2 with
    | .inl w => d.judge w
    | .inr c => d.readRun c) d

/-- Restored host work begins, once nothing holds it (R148, R149). -/
def Dev.redoKick (d : Dev) : Dev :=
  if d.restore.hold ∨ d.quiet ∨ d.cache.frozen then d
  else
    let ws := d.restore.redo
    ({ d with restore := { d.restore with redo := [] } } : Dev).rerunAll ws (d.insts.cmds.filter fun c => c.st = 0 ∧ c.org = 0)

end Sys2Proof.Machine
end

