-- ==== Sys2Proof/Machine/Cache.lean ====
section
/-! DEFINITION. The commands of the write cache (02): admission, placement, write-through, destage and its completions, mirroring,
bucket adoption, and the NVMe I/O commands. -/
namespace Sys2Proof.Machine

/-- The unit and the tag with which a frame of version `v` is read (R29, R30, R32): the host port for the queue that reads, else the slice of its block, whose
flow `strm` is 0 for admission and 1 for destage. The unit that finds the data bad sets Poison. -/
def Dev.frameTag (d : Dev) (host : Option Nat) (strm : Nat) (v : Version) : Nat × Nat :=
  match host with
  | some q => (uHost, tagPoison (d.flowTag (qInst (d.q q)) uHost q))
  | none => let u := uSlice (d.sliceOf v.vol v.blk); (u, tagPoison (d.flowTag v.inst u strm))

/-- A frame found bad when it is read: `kind` 0, its metadata entry fails its Check or holds an unused State (R41); 1, its data reads
uncorrectable, and a COPY is readable; 2, no copy is readable (R58, R306). A COPY found bad is no copy any more. A frame that the held image has is rewritten
from its segment, once (Table 6.6). [DEDUCED, log 29] -/
def Dev.frameBad (d : Dev) (host : Option Nat) (strm : Nat) (x : Nat × Nat) : Dev :=
  let report (v : Version) : Dev :=
    let n := frameChan x.1
    let (u, tag) := d.frameTag host strm v
    if x.2 = 0 then
      let s := uSlice (d.sliceOf v.vol v.blk)
      d.raise { src := 32 + d.sliceOf v.vol v.blk, acc := 1, iUnit := s, iInst := v.inst, addr := d.entryAddr x.1, tag := tagPoison (d.flowTag v.inst s strm) }
    else (d.raise { src := 464 + n, acc := 1, iUnit := u, iInst := tagInst tag, addr := d.frameAddr x.1, tag := tag }).incU (uChan n) oUncorrectableReads
  match d.verAt x.1 with
  | none => match d.cache.versions.find? (·.copy = some x.1) with
    | some v => ((report v).modVer v.frame fun v => { v with copy := none }).modeUpdate
    | none => d
  | some v =>
    let d := report v
    if v.copy.isSome ∧ (x.2 = 1 ∨ (x.2 = 0 ∧ v.dirty)) then d
    else if x.2 ≠ 0 ∧ d.heldHas v ∧ ¬ d.restore.rewritten.contains v.frame then { d with restore := { d.restore with rewritten := d.restore.rewritten ++ [v.frame] } }
    else
      let d := if x.2 ≠ 0 ∧ v.st = 2 ∧ ¬ v.poison then d.fault 12 else d
      d.modVer v.frame fun v => { v with poison := true }

/-- GOVERNOR_ADMIT (R50, R51): the first waiting write that fits is admitted. -/
def Dev.governorAdmit (d : Dev) : Dev :=
  let d := d.join144
  match (if d.cache.frozen then none else d.nextAdmit d.waiters []) with
  | some w => (d.admitWrite w).heldCheck
  | none => d

/-- A new DIRTY version with the next DestageSeq of its domain, mirrored when the mode asks it; none when a pool has no frame for it or for its COPY. -/
def Dev.placeNew (d : Dev) (w : HostWrite) (b mask new unc seq key : Nat) : Option Dev :=
  let d := d.evictInst w.inst
  match d.poolFor w.vol b with
  | none => none
  | some n =>
    let (f, d) := d.takeFrame n
    let v : Version := { frame := f, vol := w.vol, blk := b, inst := w.inst, dom := w.dom, seq := seq, valid := mask, st := 2, fence := w.fence, data := mergeSec mask new 0, unc := unc }
    let d := { d with cache := { d.cache with versions := d.cache.versions ++ [v], nextSeq := storeSet (fun _ => 0) d.cache.nextSeq key (seq + 1) } }
    if ¬ d.mirrorNew then some d else if (d.copyPool f).isNone then none else some (d.addCopy f)

/-- The version that a block of write `w` merges into (R42): the newest one, DIRTY, of the write's instance and domain, with the highest DestageSeq issued
there. Where it is Poison, its data known bad, the model makes a new version instead: R42 says nothing of Poison. [DESIGN CHOICE, log 87] -/
def Dev.mergeInto (d : Dev) (w : HostWrite) (b : Nat) : Option Version :=
  ((d.versOf w.vol b).getLast?).filter fun v =>
    v.st = 2 ∧ ¬ v.poison ∧ v.inst = w.inst ∧ v.dom = w.dom ∧ v.seq + 1 = storeGet (fun _ => 0) d.cache.nextSeq (w.inst * 256 + w.dom)

/-- Places one block of an admitted write (R42): it merges into the newest version, or becomes a new one. -/
def Dev.placeBlock (d : Dev) (w : HostWrite) (b : Nat) : Option Dev :=
  let (mask, new, unc) := w.part b
  let key := w.inst * 256 + w.dom
  let o := match d.mergeInto w b with
    | some v => some (d.modVer v.frame fun v => { v with data := mergeSec mask new v.data, valid := v.valid ||| mask, fence := v.fence || w.fence
                                                       , unc := (v.unc &&& (0xFF - mask)) ||| unc })
    | none =>
      let d := match (d.versOf w.vol b).getLast? with
        | some v => d.modVer v.frame fun v => { v with superseded := true }
        | none => d
      d.placeNew w b mask new unc (storeGet (fun _ => 0) d.cache.nextSeq key) key
  o.map fun d =>
    if ((d.versOf w.vol b).getLast?.map (·.valid)) = some 0xFF then
      ((d.versOf w.vol b).dropLast.filter fun v => v.poison ∧ v.st ≠ 3).foldl (fun d v => d.freeVer v.frame) d
    else d

/-- Places the blocks of a write in turn: the frames of versions they merge into that are not resident (R144), and the device, none when the pools run out. -/
def Dev.placeAll (d : Dev) (w : HostWrite) : List Nat × Option Dev :=
  w.blocks.foldl (fun (x : List Nat × Option Dev) b => match x.2 with
    | none => x
    | some d => (x.1 ++ (match d.mergeInto w b with | some v => if d.verHere v then [] else [v.frame] | none => []), d.placeBlock w b)) ([], some d)

/-- PLACE_COMPLETE (R42, R44, R45): data and metadata of an admitted write are in DRAM, whole, with every COPY in MIRROR. It waits for an adopting slice (R60),
for room in the pools, and for a version it merges into to be restored (R144). -/
def Dev.placeComplete (d : Dev) (id : Nat) (bad : List (Nat × Nat)) : Dev :=
  match d.writeAt id with
  | none => d
  | some w =>
    if w.stage ≠ 1 ∨ w.thru ∨ w.blocks.any (d.adopting w.vol) then d
    else if vLayout (d.vol w.vol) = 0 then d.writeAck w scWriteFault
    else
      let d := bad.foldl (Dev.frameBad · none 0) d
      let (away, o) := d.placeAll w
      if ¬ away.isEmpty then away.foldl (fun d f => d.restoreFault (frameKey f) (2 ^ 65 + id)) d
      else match o with
      | none => d
      | some e => (e.writeAck w scSuccess).modeUpdate

/-- THROUGH_WRITE_COMPLETE (R45, R56): every drive write of a write-through has completed, or one failed. Writes without FUA to a drive with a volatile write
cache are durable once a Flush has completed, and the host is acknowledged then. [DEDUCED, log 30] -/
def Dev.throughComplete (d : Dev) (id : Nat) (ok : Bool) : Dev :=
  match d.writeAt id with
  | none => d
  | some w =>
    if w.stage ≠ 3 ∨ ¬ w.unflushed.isEmpty ∨ (d.cache.fills.any fun f => f.owner = 2 ∧ f.ref = id) then d
    else if ¬ ok ∨ vState (d.vol w.vol) = 3 then d.writeAck w scWriteFault
    else
      let spaces := (w.blocks.flatMap fun b => (d.writeSet w.vol b).map fun i => (xPort (d.vol w.vol) i, xNsid (d.vol w.vol) i, false)).eraseDups
      let due := if w.noFua then spaces.filter fun p => (d.port p.1).vwc else []
      if due.isEmpty then d.throughEnd w
      else (d.retireRef 2 id).modWrite id fun w => { w with unflushed := due }

/-- MIRRORING_COMPLETE (R48, R61): every dirty version has its COPY. -/
def Dev.mirroringComplete (d : Dev) : Dev :=
  if d.g oCacheModeActive = 3 then (d.unmirrored.foldl Dev.addCopy d).modeUpdate.rejudge else d

/-- R57's eligibility of a version, with what the drives and the other rules ask: the volume is not FAILED (R59), the version is not
Poison (R58), its slice is not adopting (R60), its drives are bound. [DEDUCED, log 29] -/
def Dev.eligible (d : Dev) (v : Version) : Bool :=
  let vs := d.cache.versions
  v.st = 2 ∧ ¬ v.poison ∧ vState (d.vol v.vol) ≠ 3 ∧ ¬ d.adopting v.vol v.blk ∧ d.writeReady v.vol v.blk ∧
    ((d.versOf v.vol v.blk).takeWhile (·.frame ≠ v.frame)).all (fun x => ¬ x.dirty) ∧
    (vs.all fun x => ¬ (x.st = 2 ∧ x.inst = v.inst ∧ x.dom = v.dom ∧ x.seq < v.seq)) ∧
    (vs.filter fun x => x.st = 3 ∧ x.inst = v.inst ∧ x.dom = v.dom).length < d.g oDestageWindow ∧
    ¬ (v.fence ∧ vs.any fun x => x.dirty ∧ x.inst = v.inst ∧ x.seq < v.seq) ∧
    ¬ (vs.any fun x => x.st = 3 ∧ x.inst = v.inst ∧ x.fence)

/-- Order of selection (R53, R55): instances over their quota first, then volume Priority, then DestageSeq. -/
def Dev.destageKey (d : Dev) (v : Version) : Nat :=
  (if d.dirtyQuota v.inst < d.instDirty v.inst then 0 else 1 + vPrio (d.vol v.vol)) * 2 ^ 64 + v.seq

/-- The best of a list by selection order, the first on a tie. -/
def Dev.destageBest (d : Dev) (l : List Version) : Option Version :=
  l.foldl (fun o v => match o with
    | none => some v
    | some x => if d.destageKey v < d.destageKey x then some v else some x) none

/-- Who waits for a frame to be destaged. -/
def destageWho (f : Nat) : Nat := 2 ^ 66 + f

/-- Issues one eligible version (R57, R58). One whose data is not resident takes a restore fault, and is issued when it has been restored (R142). -/
def Dev.destageOne (d : Dev) (bad : List (Nat × Nat)) : Dev :=
  let d := bad.foldl (Dev.frameBad · none 1) d
  let l := d.cache.versions.filter d.eligible
  match d.destageBest (l.filter fun v => (d.destageStart v).isSome ∧ (d.verHere v ∨ ¬ d.restore.asked.contains (frameKey v.frame, destageWho v.frame))) with
  | some v => if d.verHere v then (d.destageStart v).getD d else d.restoreFault (frameKey v.frame) (destageWho v.frame)
  | none => d

/-- Destage may issue: the drives are reached and no vault sequence holds the machine. -/
def Dev.destageOn (d : Dev) : Bool := ¬ d.quiet ∧ ¬ d.halted ∧ d.sup = 2

/-- DESTAGE_ISSUE (R55, R57): above DestageLowWater, or in WRITE-THROUGH or MIRRORING with dirty data. -/
def Dev.destageIssue (d : Dev) (bad : List (Nat × Nat)) : Dev :=
  let m := d.g oCacheModeActive
  if d.destageOn ∧ (d.g oDestageLowWater * d.deff < d.dirtyTotal * 100 ∨ ((m = 2 ∨ m = 3) ∧ 0 < d.dirtyTotal)) then d.destageOne bad else d

/-- DESTAGE_IDLE_TIMER (R55): the downstream ports have been idle for 1 ms. -/
def Dev.destageIdle (d : Dev) (bad : List (Nat × Nat)) : Dev :=
  if d.destageOn ∧ d.ports.ports.all fun p => p.2.cmds.isEmpty then d.destageOne bad else d

/-- An attempt failed at member `i` while it stays ACTIVE or REBUILDING: the version is DIRTY again, and a third failure in a row at
the member loses its drive (R56). [DEDUCED, log 29] -/
def Dev.destageFail (d : Dev) (f i : Nat) : Dev :=
  let n := ((d.cache.fails.find? fun x => x.1 = f ∧ x.2.1 = i).map (·.2.2)).getD 0 + 1
  let d := d.undestage f
  let d := { d with cache := { d.cache with fails := (f, i, n) :: d.cache.fails.filter fun x => ¬ (x.1 = f) } }
  match d.verAt f with
  | some v => if n ≥ 3 then d.driveLost (xPort (d.vol v.vol) i) else d
  | none => d

/-- DESTAGE_WRITE_COMPLETE (R56): a drive write of an attempt completes. -/
def Dev.destageWriteComplete (d : Dev) (cmd : Nat) (ok : Bool) : Dev :=
  match d.cache.destages.find? fun x => x.wait.any (·.1 = cmd) with
  | none => d
  | some x =>
    match x.wait.find? (·.1 = cmd), d.verAt x.frame with
    | some (_, port, ns, i), some _ =>
      let d := d.retireCmd cmd
      if ok then
        let fl := x.noFua ∧ (d.port port).vwc
        let d := d.modDestage x.frame fun x => { x with wait := x.wait.filter (·.1 ≠ cmd), unflushed := if fl then x.unflushed ++ [(port, ns, false)] else x.unflushed }
        (d.destageCheck x.frame).heldCheck
      else d.destageFail x.frame i
    | _, _ => d

/-- DESTAGE_FLUSH_ISSUE (R55, R56): a Flush to a namespace with completed, unflushed writes, at most one outstanding there. -/
def Dev.destageFlushIssue (d : Dev) (port nsid : Nat) : Dev :=
  if ((d.cache.destages.any fun x => x.unflushed.contains (port, nsid, false)) ∨ d.cache.writes.any fun w => w.unflushed.contains (port, nsid, false))
      ∧ ¬ (d.cache.flushes.any fun f => f.port = port ∧ f.nsid = nsid) ∧ (d.driveNs port nsid).isSome then
    let cover (l : List (Nat × Nat × Bool)) := l.map fun u => if u.1 = port ∧ u.2.1 = nsid then (port, nsid, true) else u
    let (c, d) := d.driveCmd port nsid 5 0 0x00 0 0 (2 * d.destageClass)
    ((d.setFlushes (d.cache.flushes ++ [{ port := port, nsid := nsid, cmd := c }])).setDestages
      (d.cache.destages.map fun x => { x with unflushed := cover x.unflushed })).setWrites (d.cache.writes.map fun w => { w with unflushed := cover w.unflushed })
  else d

/-- DESTAGE_FLUSH_COMPLETE (R45, R56): the versions the Flush covers become durable, or return to DIRTY; the write-throughs it covers are acknowledged, or
complete with Write Fault. -/
def Dev.destageFlushComplete (d : Dev) (port nsid : Nat) (ok : Bool) : Dev :=
  match d.cache.flushes.find? fun f => f.port = port ∧ f.nsid = nsid with
  | none => d
  | some f =>
    let d := (d.retireCmd f.cmd).setFlushes (d.cache.flushes.filter (·.cmd ≠ f.cmd))
    let covered := (d.cache.destages.filter fun x => x.unflushed.contains (port, nsid, true)).map (·.frame)
    if ok then
      let d := d.setDestages (d.cache.destages.map fun x => { x with unflushed := x.unflushed.filter (· ≠ (port, nsid, true)) })
      ((covered.foldl Dev.destageCheck d).throughFlushed (· = (port, nsid, true))).heldCheck
    else
      let d := (d.cache.writes.filter fun w => w.unflushed.contains (port, nsid, true)).foldl (fun d w => d.writeAck w scWriteFault) d
      covered.foldl (fun d g =>
        match d.verAt g with
        | some v => (match (List.range (vMembers (d.vol v.vol))).find? fun i => xPort (d.vol v.vol) i = port ∧ xNsid (d.vol v.vol) i = nsid with
          | some i => d.destageFail g i
          | none => d.undestage g)
        | none => d) d

/-- BUCKET_REBUILD_COMPLETE (R60): the adopting slices have rebuilt their lookup state. [DEDUCED, log 31] -/
def Dev.bucketRebuilt (d : Dev) : Dev :=
  ({ d with cache := { d.cache with adopting := [] } }).throughKick.readKick

/-- The cache slice of quadrant `q` is available. -/
def Dev.sliceOk (d : Dev) (q : Nat) : Bool := d.present (uSlice q) ∧ ¬ d.isolated (uSlice q) ∧ d.domSt (uSlice q) ≠ 2

/-- Buckets of slices that are not available pass to the others in turn (R60); destages in flight through a lost quadrant return. [DEDUCED, log 31] -/
def Dev.adoptBuckets (d : Dev) : Dev :=
  let ok := (List.range 4).filter d.sliceOk
  if ok.isEmpty then d
  else
    let lost := (List.range 256).filter fun b => ¬ ok.contains (d.bucketOwner b)
    let d := (lost.zip (List.range lost.length)).foldl (fun (d : Dev) (b, k) =>
      { d with cache := { d.cache with bucket := storeSet (fun i => i % 4) d.cache.bucket b (listGet 0 ok (k % ok.length)), adopting := d.cache.adopting ++ [b] } }) d
    (d.cache.destages.filter fun x => d.isolated (uQuad x.quad) ∨ d.domSt (uQuad x.quad) = 2).foldl (fun d x => d.undestage x.frame) d

/-- The host port serves I/O of queue `q`: it is a LIVE HOST queue other than the admin queue, of an ACTIVE instance whose controller
is ready, in an UP machine that admits host I/O (R141) and is in no vault sequence (R88). -/
def Dev.ioReady (d : Dev) (q : Nat) : Bool :=
  let e := d.q q
  qKind e = 1 ∧ qState e = 1 ∧ qSlot e ≠ 0 ∧ d.instState (qInst e) = 1 ∧ bit (d.ctrl (qInst e)).csts 0 ∧ ¬ bit (d.ctrl (qInst e)).csts 1 ∧
    d.sup = 2 ∧ ¬ d.hostHeld ∧ ¬ d.halted ∧ d.restore.hostIo ∧ ¬ d.isolated uHost

/-- A write of a volume reaches the governor. -/
def Dev.submit (d : Dev) (w : HostWrite) : Dev :=
  let id := d.cache.wid
  let d := { d with cache := { d.cache with wid := id + 1 } }
  (d.judge { w with id := id }).throughKick

/-- A host write of `kind` (R34, R44, R59): resolved to its namespace and passed to the governor, or refused. -/
def Dev.hostWrite (d : Dev) (kind q cid nsid lba nlb data : Nat) : Dev :=
  if ¬ d.ioReady q then d
  else
    let e := d.q q
    match d.nsFind (qInst e) nsid with
    | none => d.nvmeDone q cid scNamespace 0
    | some n =>
      let v := nsVol n
      let start := lba * nsLba n
      let len := (nlb + 1) * nsLba n
      if kind = 0 ∧ 2 ^ 20 < len then d.nvmeDone q cid scField 0
      else if vCap (d.vol v) * 4096 < start + len then d.nvmeDone q cid scRange 0
      else if nsReadOnly n then d.nvmeDone q cid scProtected 0
      else if vState (d.vol v) = 3 then d.nvmeDone q cid scWriteFault 0
      else d.submit { id := 0, org := 0, ref := q, cid := cid, inst := qInst e, gen := d.instGen (qInst e), dom := qDomain e, vol := v, start := start, len := len, data := data, kind := kind }

/-- NVME_WRITE (R44). -/
def Dev.nvmeWrite (d : Dev) (q cid nsid lba nlb : Nat) (data : List Byte) : Dev := d.hostWrite 0 q cid nsid lba nlb (leNat data)

/-- WRITE_ZEROES (R45). -/
def Dev.writeZeroes (d : Dev) (q cid nsid lba nlb : Nat) : Dev := d.hostWrite 1 q cid nsid lba nlb 0

/-- WRITE_UNCORRECTABLE (R45). [DEDUCED, log 30] -/
def Dev.writeUncorrectable (d : Dev) (q cid nsid lba nlb : Nat) : Dev := d.hostWrite 2 q cid nsid lba nlb 0

/-- NVME_FLUSH (R46): completes without waiting for destage. -/
def Dev.nvmeFlush (d : Dev) (q cid nsid : Nat) : Dev :=
  if ¬ d.ioReady q then d
  else if nsid = 0xFFFFFFFF ∨ (d.nsFind (qInst (d.q q)) nsid).isSome then d.nvmeDone q cid scSuccess 0
  else d.nvmeDone q cid scNamespace 0

/-- Begins a read of a volume. -/
def Dev.submitRead (d : Dev) (c : HostCmd) : Dev :=
  let id := d.cache.wid
  let c := { c with id := id }
  ({ d with cache := { d.cache with wid := id + 1 }, insts := { d.insts with cmds := d.insts.cmds ++ [c] } }).readRun c

/-- NVME_READ (R38, R43, R58, R288): `dst` is the host address; `bad` the frames found bad on the way. -/
def Dev.nvmeRead (d : Dev) (q cid nsid lba nlb dst : Nat) (bad : List (Nat × Nat)) : Dev :=
  if ¬ d.ioReady q then d
  else
    let d := bad.foldl (Dev.frameBad · (some q) 0) d
    let e := d.q q
    match d.nsFind (qInst e) nsid with
    | none => d.nvmeDone q cid scNamespace 0
    | some n =>
      let v := nsVol n
      let len := (nlb + 1) * nsLba n
      if 2 ^ 20 < len then d.nvmeDone q cid scField 0
      else if vCap (d.vol v) * 4096 < lba * nsLba n + len then d.nvmeDone q cid scRange 0
      else d.submitRead { id := 0, org := 0, ref := q, cid := cid, inst := qInst e, gen := d.instGen (qInst e), vol := v, start := lba * nsLba n, len := len, dst := dst }

/-- DRIVE_READ_COMPLETE (R38, R288): a drive read completes with its data, or with an error. -/
def Dev.driveReadComplete (d : Dev) (cmd : Nat) (ok : Bool) (data : List Byte) : Dev :=
  match d.cache.fills.find? fun f => f.want.any (·.1 = cmd) with
  | none => d
  | some f =>
    match f.want.find? (·.1 = cmd) with
    | none => d
    | some (_, i) =>
      let d := d.retireCmd cmd
      if ¬ ok then d.fillFail f i
      else
        let e := d.vol f.vol
        let idx := if vLayout e = 3 then stripIdx e i f.blk else 0
        let f := { f with want := f.want.filter (·.1 ≠ cmd), got := f.got ++ [(idx, leNat (data.take 4096))] }
        let d := d.setFills (mapIf (·.id = f.id) (fun _ => f) d.cache.fills)
        if f.want.isEmpty then d.fillDone f else d

end Sys2Proof.Machine
end

