-- ==== Sys2Proof/Machine/Access.lean ====
section
/-! DEFINITION. What a dictionary request answers (R363, R369). -/
namespace Sys2Proof.Machine

/-- The answer to a request: status of Table 16.2, RefusingUnit, the device, and the response body of a request that succeeds. -/
structure Reply where
  st : Nat
  unit : Nat
  d : Dev
  body : List Byte := []

/-- SUCCESS. -/
def okR (d : Dev) (body : List Byte := []) : Reply := { st := 0, unit := 0xFFFF, d := d, body := body }
/-- INVALID_VALUE at unit `u`. -/
def badValue (d : Dev) (u : Nat) : Reply := { st := 3, unit := u, d := d }
/-- STATE_CONFLICT at unit `u`. -/
def conflict (d : Dev) (u : Nat) : Reply := { st := 4, unit := u, d := d }
/-- NOT_PRESENT. -/
def notPresent (d : Dev) : Reply := { st := 1, unit := 0xFFFF, d := d }

end Sys2Proof.Machine
end

