-- ==== Sys2Proof/Machine/Ports.lean ====
section
/-! DEFINITION. Downstream ports (12): presence, training, binding, loss, rebuild, removal and slot power. -/
namespace Sys2Proof.Machine

/-- PortSlot of port `n` (R291). -/
def Dev.portSlot (d : Dev) (n : Nat) : Nat := fieldOf (d.g oPortSlot) (2 * n) 2

/-- Width in force of the group of port `n` (R278, R279). -/
def Dev.groupWidth (d : Dev) (n : Nat) : Nat := byteOf (d.ge oGroupWidth) (n / 16)

/-- MaxSpeed of the group of port `n`. -/
def Dev.maxSpeed (d : Dev) (n : Nat) : Nat := byteOf (d.g oMaxSpeed) (n / 16)

/-- Extent check of R284 for member `i` of volume `v`: its namespace exists and holds the extent, in the drive's own format. -/
def Dev.extentOk (d : Dev) (v i : Nat) : Bool :=
  let e := d.vol v
  match d.driveNs (xPort e i) (xNsid e i) with
  | some x => decide (xLba e i + extentBlocks e * (if x.lba = 4096 then 1 else 8) ≤ x.size)
  | none => false

/-- A slot-power request enters the master's queue (R172). -/
def Dev.slotRequest (d : Dev) (slot action : Nat) (demand : Bool) : Dev :=
  { d with pack := { d.pack with slotReqs := d.pack.slotReqs ++ [{ slot := slot, action := action, demand := demand }] } }

/-- Pack node `n`. -/
def Dev.node (d : Dev) (n : Nat) : Node := storeGet noNode d.pack.nodes n

/-- SlotState of Pack slot `s` (Table 7.11), from the master's requests and the controller's last STATUS or SLOT_ACK. [DEDUCED, log 66] -/
def Dev.packSlotState (d : Dev) (s : Nat) : Nat :=
  let n := 8 + s / 16
  let x := d.node n
  let i := s % 16
  if 127 < s ∨ ¬ bit (d.g oRoster) n ∨ x.slots ≤ i then 4
  else if d.pack.slotReqs.any fun r => r.slot = s ∧ r.action = 1 then 1
  else if bit d.pack.slotBad s ∨ bit x.slotFault i then 3
  else if bit x.slotOn i then 2
  else if bit x.slotPresent i then 0 else 4

/-- The scheduled ON requests of SlotAutoOn (R291). -/
def Dev.slotsAuto (d : Dev) : Dev :=
  ((List.range 128).filter fun s => (d.gb oSlotAutoOn (s / 8)).testBit (s % 8)).foldl (fun d s => d.slotRequest s 1 false) d

/-- DRIVE_PRESENCE_DETECT (R282, R286, R290, R292): a drive appears at port `n`, or its presence is lost. [DEDUCED, log 32] -/
def Dev.drivePresence (d : Dev) (n : Nat) (here : Bool) : Dev :=
  let p := d.port n
  if ¬ d.present (uPort n) ∨ (2 ≤ d.vst ∧ d.vst ≤ 6) ∨ p.present = here then d
  else if here then
    if d.sup ≠ 2 ∨ ¬ d.pathOn (uPort n) ∨ (d.g oPackRole ≠ 2 ∧ d.portSlot n ≠ 0xFFFF ∧ d.packSlotState (d.portSlot n) ≠ 2) then d
    else d.setPort n { p with present := true, state := 1, speed := 0, width := 0 }
  else if p.state = 2 ∨ p.again ∨ (p.state = 5 ∧ p.removing = 1) then
    let d := (d.driveLost n).throughKick.readKick
    d.setPort n { d.port n with present := false, removing := 0, offAfter := none }
  else d.setPort n { p with present := false, state := 0, removing := 0, speed := 0, width := 0, again := false }

/-- PORT_LINK_UP (R282, R283): the port reaches L0 at `speed` and `width`; the drive offers `ds` and `dw`. -/
def Dev.portLinkUp (d : Dev) (n speed width ds dw : Nat) : Dev :=
  let p := d.port n
  if p.state ≠ 1 ∨ p.speed ≠ 0 ∨ ¬ d.pathOn (uPort n) ∨ speed = 0 then d
  else
    let d := d.setPort n { p with speed := speed, width := width }
    if speed < min (d.maxSpeed n) ds ∨ width < min (d.groupWidth n) dw then d.faultLive (400 + n) else d.unlive (400 + n)

/-- PORT_TRAIN_TIMEOUT (R282). -/
def Dev.portTrainTimeout (d : Dev) (n : Nat) : Dev :=
  let p := d.port n
  if p.state = 1 ∧ p.speed = 0 ∧ p.present then (d.setPort n { p with state := 4 }).fault (336 + n) else d

/-- DRIVE_READY_TIMEOUT (R282): in L0, but not ready within CAP.TO. -/
def Dev.driveReadyTimeout (d : Dev) (n : Nat) : Dev :=
  let p := d.port n
  if p.state = 1 ∧ p.speed ≠ 0 then d.setPort n { p with state := 4, speed := 0, width := 0 } else d

/-- DRIVE_BIND (R283, R284): enumeration completes; `fits` says whether the endpoint meets R283. A member whose extent the drive
does not hold is MISSING. -/
def Dev.driveBind (d : Dev) (n : Nat) (fits : Bool) (serial : Nat) (vwc : Bool) (ns : List DriveNs) : Dev :=
  let p := d.port n
  if p.state ≠ 1 ∨ p.speed = 0 then d
  else if ¬ fits then d.setPort n { p with state := 3 }
  else
    let d := d.setPort n { p with state := 2, serial := serial % 2 ^ 160, vwc := vwc, again := false, ns := ns.filter fun x => x.lba = 512 ∨ x.lba = 4096 }
    let d := ((d.membersOn n).foldl (fun d m => if xState (d.vol m.1) m.2 ≠ 1 ∧ ¬ d.extentOk m.1 m.2 then d.setMember m.1 m.2 1 else d) d).rebuildStop
    d.throughKick.readKick

/-- DRIVE_LOST (R286). -/
def Dev.driveGone (d : Dev) (n : Nat) : Dev :=
  let p := d.port n
  if d.pathOn (uPort n) ∧ (p.state = 2 ∨ (p.state = 5 ∧ p.removing = 1)) then
    let d := (d.driveLost n).throughKick.readKick
    d.setPort n { d.port n with removing := 0, offAfter := none }
  else d

/-- PORT_READY_TIMEOUT (R286): not BOUND again after its domain woke. -/
def Dev.portReadyTimeout (d : Dev) (n : Nat) : Dev :=
  if (d.port n).again ∧ d.pathOn (uPort n) then (d.driveLost n).throughKick.readKick else d

/-- REBUILD (R289): a MISSING member becomes REBUILDING, or ACTIVE when its volume is STRIPE. -/
def Dev.rebuildMember (d : Dev) (v i : Nat) : Dev :=
  if vLayout (d.vol v) = 1 then d.setMember v i 0
  else
    let d := { d with ports := { d.ports with rebuilds := d.ports.rebuilds ++ [(⟨v, i, 0⟩ : Rebuild)] } }
    d.setMember v i 2

/-- PortCommand REBUILD at port `n` (R289, R290). -/
def Dev.cmdRebuild (d : Dev) (n : Nat) : Reply :=
  let l := (d.membersOn n).filter fun m => xState (d.vol m.1) m.2 = 1
  if (d.port n).state ≠ 2 ∨ ¬ l.all fun m => d.extentOk m.1 m.2 then conflict d uDown
  else okR ((l.foldl (fun d m => d.rebuildMember m.1 m.2) d).throughKick.readKick)

/-- REBUILD_COMPLETE (R289): the last block of the extent is written. -/
def Dev.rebuildComplete (d : Dev) (v i : Nat) : Dev :=
  if (d.ports.rebuilds.any fun r => r.vol = v ∧ r.pos = i) ∧ d.memberBound v i then
    let e := d.vol v
    let d := { d with ports := { d.ports with rebuilds := d.ports.rebuilds.filter fun r => ¬ (r.vol = v ∧ r.pos = i) } }
    (d.emit .drive [xPort e i, xNsid e i, 0x01, xLba e i, extentBlocks e * d.spb v i, 6]).setMember v i 0
  else d

/-- Some volume that is not FAILED would become FAILED without the members on port `n` (R290). -/
def Dev.wouldFail (d : Dev) (n : Nat) : Bool :=
  (d.membersOn n).any fun m =>
    let e := d.vol m.1
    let e2 := (List.range (vMembers e)).foldl (fun x i => if xPort e i = n then setEnt x (0x41 + 16 * i) 1 1 else x) e
    volStateOf e ≠ 3 ∧ volStateOf e2 = 3

/-- PREPARE_REMOVE or PREPARE_REMOVE_FORCE at port `n` (R290). [DEDUCED, log 32] -/
def Dev.cmdPrepare (d : Dev) (n : Nat) (force : Bool) : Reply :=
  let p := d.port n
  if ¬ force ∧ d.wouldFail n then conflict d uDown
  else if p.state = 0 ∨ p.state = 5 then okR d
  else okR (d.setPort n { p with state := 5, removing := 1 })

/-- PREPARE_REMOVE_DRAIN_END (R290): the members are MISSING and the link is disabled; a slot to be switched off is (R291). -/
def Dev.prepareEnd (d : Dev) (n : Nat) : Dev :=
  let p := d.port n
  if p.state = 5 ∧ p.removing = 1 ∧ ¬ d.inVault then
    let d := (d.driveLost n 5 false).throughKick.readKick
    let d := d.setPort n { d.port n with removing := 2, offAfter := none }
    match p.offAfter with
    | some s => d.slotRequest s 2 true
    | none => d
  else d

/-- PortCommand POWER_ON (R291): a demand request at the master. -/
def Dev.cmdPowerOn (d : Dev) (slot : Nat) : Reply :=
  if d.g oPackRole ≠ 1 then conflict d uDown else okR (d.slotRequest slot 1 true)

/-- PortCommand POWER_OFF (R291): a BOUND port of the slot is first prepared for removal. -/
def Dev.cmdPowerOff (d : Dev) (slot : Nat) : Reply :=
  if d.g oPackRole ≠ 1 then conflict d uDown
  else match (List.range 64).find? fun n => d.portSlot n = slot ∧ (d.port n).state = 2 ∧ d.present (uPort n) with
  | none => okR (d.slotRequest slot 2 true)
  | some n =>
    let r := d.cmdPrepare n false
    if r.st = 0 then okR (r.d.setPort n { r.d.port n with offAfter := some slot }) else r

/-- A value written to PortCommand (R290). -/
def Dev.fxPortCommand (d : Dev) (v : Nat) : Reply :=
  let n := byteOf v 0
  let act := byteOf v 1
  let slot := fieldOf v 2 2
  if act = 0 ∨ 5 < act ∨ 63 < n then badValue d uDown
  else if act ≤ 3 then
    if slot ≠ 0 then badValue d uDown
    else if ¬ d.present (uPort n) then notPresent d
    else if act = 1 then d.cmdRebuild n else d.cmdPrepare n (act = 3)
  else if n ≠ 0 ∨ 127 < slot then badValue d uDown
  else if act = 4 then d.cmdPowerOn slot else d.cmdPowerOff slot

/-- The downstream complex or port `n` leaves ON without a loss (R286, R462). -/
def Dev.portDown (d : Dev) (n : Nat) : Dev :=
  let d := d.portAbandon n
  let p := d.port n
  if p.state = 1 ∨ p.state = 2 ∨ p.state = 3 then d.setPort n { p with state := 1, speed := 0, width := 0, ns := [], again := p.again || p.state = 2 } else d

/-- An entry of PortTable (Table 12.2). [DEDUCED, log 77] -/
def Dev.portEntry (d : Dev) (n : Nat) : List Byte :=
  let p := d.port n
  leBytes 1 p.state ++ leBytes 1 p.speed ++ leBytes 1 p.width ++ leBytes 1 (if d.portSlot n ≠ 0xFFFF ∧ d.packSlotState (d.portSlot n) = 2 then 1 else 0) ++ leBytes 2 (d.portSlot n)
    ++ leBytes 2 0 ++ leBytes 20 (if p.state = 2 ∨ (p.state = 5 ∧ p.removing = 1) then p.serial else 0) ++ leBytes 4 0

end Sys2Proof.Machine
end

