-- ==== Sys2Proof/Machine/Domains.lean ====
section
/-! DEFINITION. Power domains (15): entries, wakes, locks, pads, transactions that reach a unit, and the supervisor's own RET. -/
namespace Sys2Proof.Machine

/-- Kinds with held pads (Table 15.6). -/
def hasPads (u : Nat) : Bool := match kindOf u with | 0x0F | 0x13 | 0x11 => true | _ => false

/-- The levels that the held pads of unit `u` are driven to before ISOLATE, and latch (Table 15.6): PERST of a port low; chip enables 0 to 3 of a vault
channel high, and its write protect low; the reset of a DRAM channel as it is, high. -/
def padLevels (u : Nat) : List Nat := match kindOf u with | 0x0F => [0] | 0x13 => [1, 1, 1, 1, 0] | _ => [1]

/-- Replaces the list of units whose pads are held. -/
def Dev.setPads (d : Dev) (l : List Nat) : Dev := { d with doms := { d.doms with padHeld := l } }

/-- R355's conditions for the supervisor to enter RET; AONCLK is not lost (Table 20.5). -/
def Dev.supMayRet (d : Dev) : Bool :=
  d.sup = 0 ∧ ¬ d.aon.lshEn ∧ (storeGet clockOk d.aon.clocks 21).st = 0 ∧ d.g oSupervisorIdle ≠ 0 ∧ d.doms.mgtTick + d.g oSupervisorIdle * 1000 ≤ d.now ∧
    (d.doms.i3cAddr.isNone ∨ d.g oAllowI3cRet = 1)

/-- The state a request for `s` takes unit `u` to; none when its kind has no such state (R341, R345). -/
def entryTarget (u s : Nat) : Option Nat :=
  if (domainStates u).contains s then some s else if s = 1 ∧ (domainStates u).contains 2 then some 2 else none

/-- The live contexts into which firmware has mapped the SRAM of unit `u`. Which these are is firmware's choice, a free value. [DESIGN CHOICE, log 81] -/
def Dev.sramOwners (d : Dev) (u : Nat) : List Nat :=
  ((d.mem.contexts.filter fun p => p.2.st ≠ 0 ∧ p.2.st ≠ 4 ∧ Config.sramMapped u p.1).map (·.1))

/-- Unit `u` refuses to enter `s` (Table 15.2). [DESIGN CHOICE, log 81] -/
def Dev.refusesEntry (d : Dev) (u s : Nat) : Bool :=
  let on := fun x => d.present x ∧ (d.domSt x = 0 ∨ d.domSt x = 3)
  match kindOf u with
  | 0x03 => s = 2 ∧ (d.core (coreNo u)).owner < 1024
  | 0x04 => (List.range 4).any fun k => on (u - 5 + 1 + k)
  | 0x01 => ((upOrder u).drop 1).any fun c => hasDomain c ∧ on c
  | 0x0B => s = 2 ∧ (¬ (d.busySlots fun e => quadOf e = quadOf u).isEmpty ∨ ¬ (d.sramOwners u).isEmpty)
  | 0x0A => ¬ (List.range 4).any fun q => uSlice q ≠ u ∧ d.sliceOk q ∧ d.domSt (uSlice q) = 0
  | 0x0D => true
  | 0x0E => (List.range 64).any fun n => on (uPort n)
  | 0x0F => (d.port (u - 0x2280)).state = 2
  | 0x13 => d.kennel.map.any fun l => l / 16 = u - 0x2480
  | 0x14 => ¬ d.supMayRet
  | _ => false

/-- Bound of a wake in µs, from OFF or from RET (Table 15.2). [DESIGN CHOICE, log 33] -/
def wakeTime (u from_ : Nat) : Nat :=
  if from_ = 1 then (match kindOf u with | 0x03 => 2 | 0x04 => 3 | 0x0B => 5 | 0x14 => 1500 | _ => 12)
  else match kindOf u with
  | 0x03 => 40 | 0x04 => 60 | 0x01 => 400 | 0x0B => 50 | 0x0A => 60 | 0x09 => 20 | 0x05 => 50 | 0x06 => 50 | 0x07 => 30 | 0x08 => 40
  | 0x0D => 100 | 0x0E => 50 | _ => 20

/-- ISOLATE release of a power-up has ended (R347). [DESIGN CHOICE, log 33] -/
def Dev.wakeReleased (d : Dev) (u : Nat) : Bool :=
  let x := d.dom u
  if x.wakeFrom = 1 then wakeTime u 1 ≤ d.now - x.since else wakeTime u 2 ≤ d.now - x.since + 2

/-- What a unit loses when its switch opens (R60, R202, R341, R462). [DESIGN CHOICE, log 81] -/
def Dev.loseUnit (d : Dev) (u : Nat) : Dev :=
  match kindOf u with
  | 0x03 => d.loseCore (coreNo u)
  | 0x0B => let q := u / 0x100 - 0x10
            { d with mem := { d.mem with sram := d.mem.sram.filter fun p => p.1 / 2 ^ 25 ≠ q } }
  | 0x09 => d.setTlb u []
  | 0x0D => d.hostPortReset
  | 0x0E => (List.range 64).foldl Dev.portDown d
  | 0x0F => d.portDown (u - 0x2280)
  | _ => d

/-- The domain of `u` reaches `s`: pads latch, and what is not kept is lost (R344, R353, R309). -/
def Dev.enterState (d : Dev) (u s : Nat) : Dev :=
  let d := d.setDom u { d.dom u with st := s, entry := none, arr := none, manager := false, demand := false, later := none }
  let d := if hasPads u ∧ ¬ d.doms.padHeld.contains u then (d.emit .pads (u :: padLevels u)).setPads (d.doms.padHeld ++ [u]) else d
  if kindOf u = 0x11 then
    d.selfRefreshEnter (u - 0x2380)
  else if kindOf u = 0x14 then { d with doms := { d.doms with supRet := true } }
  else if s = 2 then (let d := d.loseUnit u; if kindOf u = 0x0A ∨ kindOf u = 0x01 then d.adoptBuckets else d)
  else d

/-- STOP of an entry (R344): the domain's activities stop at their boundaries. -/
def Dev.entryStop (d : Dev) (u s : Nat) : Dev :=
  (d.stopUnit u 0x01).setDom u { (d.stopUnit u 0x01).dom u with st := 4, entry := some s, since := d.now }

/-- Units stopped by an entry, or the unit that refused it. -/
inductive Query where
  | stopped (l : List Nat) (d : Dev)
  | refused (u : Nat) (l : List Nat) (d : Dev)

/-- One unit of the query of R345: 0 skipped, 1 stopped, 2 refused; `mute` are units that give no answer within 200 µs. -/
def Dev.queryOne (d : Dev) (s : Nat) (mute : List Nat) (u : Nat) : Nat × Dev :=
  let x := d.dom u
  if ¬ d.present u ∨ ¬ hasDomain u then (0, d)
  else match entryTarget u s with
  | none => (if s = 2 then 2 else 0, d)
  | some t =>
    if x.st = t ∨ (x.st = 2 ∧ t = 1) then (0, d)
    else if x.st = 4 then (if x.entry = some t ∨ x.entry = some 2 then (0, d) else (0, d.setDom u { x with later := some t }))
    else if x.st = 3 then
      if d.wakeReleased u then (0, d.setDom u { x with later := some t }) else (0, d.enterState u 2)
    else if d.refusesEntry u t ∨ mute.contains u then (2, d)
    else (1, d.entryStop u t)

/-- The query of R345 over the down order `us`; `l` are the units stopped so far. [DEDUCED, log 34] -/
def Dev.queryEntry (d : Dev) (s : Nat) (mute : List Nat) : List Nat → List Nat → Query
  | [], l => .stopped l d
  | u :: r, l =>
    match d.queryOne s mute u with
    | (0, d) => d.queryEntry s mute r l
    | (1, d) => d.queryEntry s mute r (l ++ [u])
    | (_, d) => .refused u l d

/-- A RET or OFF request at unit `g` (R345): query, stop and commit, or roll back with the refuser recorded. [DEDUCED, log 34] -/
def Dev.enterGroup (d : Dev) (g s : Nat) (mute : List Nat) : Reply :=
  match d.queryEntry s mute (downOrder g) [] with
  | .stopped _ d => okR d
  | .refused r l d =>
    let d := l.reverse.foldl (fun d u => (d.setDom u { d.dom u with st := 0, entry := none }).resumeUnit u) d
    let d := ((d.incU g oEntryAborts).su g oLastRefuser r).record 0x110 0 r g s 0 0
    conflict d r

/-- An ON request at unit `g` (R347): every present unit not locked off, in up order. A locked one refuses (R349). [DEDUCED, log 34] -/
def Dev.wakeGroup (d : Dev) (g : Nat) : Reply :=
  let us := (upOrder g).filter fun u => d.present u ∧ hasDomain u
  match us.find? d.lockedOff with
  | some u => if us.all d.lockedOff ∨ u = g then conflict d g else
      conflict ((us.filter fun u => ¬ d.lockedOff u).foldl (fun d u => (d.requestOn 3 u).setDom u { (d.requestOn 3 u).dom u with manager := d.domSt u ≠ 0 }) d) u
  | none => if d.lockedOff g then conflict d g else
      okR (us.foldl (fun d u => (d.requestOn 3 u).setDom u { (d.requestOn 3 u).dom u with manager := d.domSt u ≠ 0 }) d)

/-- A value written to DomainRequest at unit `u` (R341, R345, R347). [DEDUCED, log 34] -/
def Dev.fxDomainRequest (d : Dev) (u v : Nat) (mute : List Nat) : Reply :=
  if ¬ isGroup u ∧ ¬ (domainStates u).contains v then badValue d u
  else
    let r := if v = 0 then d.wakeGroup u else d.enterGroup u v mute
    if r.st = 0 then { r with d := r.d.su u oDomainRequest v } else r

/-- The units whose DomainLock a write of `v` at unit `u` changes (R23): the unit and, of a group, every present member that is a group or has OFF. [DEDUCED, log 85] -/
def Dev.lockSet (d : Dev) (u v : Nat) : List Nat :=
  (upOrder u).filter fun x => d.present x ∧ (isGroup x ∨ (domainStates x).contains 2) ∧ d.gu x oDomainLock ≠ v

/-- A value written to DomainLock at unit `u` (R349): 1 performs an OFF request; accesses that waited get the domain-locked answer. -/
def Dev.fxDomainLock (d : Dev) (u v : Nat) (mute : List Nat) : Reply :=
  if v = 0 then okR ((d.lockSet u 0).foldl (fun d x => d.su x oDomainLock 0) d)
  else
    let r := if ¬ isGroup u ∧ ¬ (domainStates u).contains 2 then conflict d u else d.enterGroup u 2 mute
    if r.st ≠ 0 then r
    else
      let d := (r.d.lockSet u 1).foldl (fun d x => d.su x oDomainLock 1) r.d
      okR ((upOrder u).foldl (fun d x =>
        let k := (d.dom x).stalled
        let d := if k.isEmpty then d else (d.setDom x { d.dom x with stalled := [], arr := none }).incU x oLockedRefusals 32 k.length
        k.foldl (fun d t => d.emit .bus [x, 3, tagIf (t.acc ≠ 2) t.tag]) d) d)

/-- Units whose child domains must have settled before the switch of `u` opens. -/
def Dev.kidsSettled (d : Dev) (u : Nat) : Bool := ((upOrder u).drop 1).all fun c => ¬ (hasDomain c ∧ d.present c ∧ d.domSt c = 4)

/-- Runs what waits at the domain of `u` once it has settled (Table 15.5). -/
def Dev.runLater (d : Dev) (u : Nat) (later : Option Nat) (demand : Bool) : Dev :=
  match later with
  | some 0 => d.wakeOne (if demand then 2 else 3) u
  | some s => (d.enterGroup u s []).d
  | none => d

/-- DOMAIN_ENTRY_COMPLETE (R344, R346): SAVE to SWITCH of an entry under way. [DESIGN CHOICE, log 2] -/
def Dev.entryComplete (d : Dev) (u : Nat) : Dev :=
  let x := d.dom u
  match x.entry with
  | some s => if x.st = 4 ∧ d.kidsSettled u then (d.enterState u s).runLater u x.later x.demand else d
  | none => d

/-- The transactions that wait for the domain of `u` and carry no VaultPath are refused, each counted (R90). -/
def Dev.refuseStalls (d : Dev) (u : Nat) : Dev :=
  let x := d.dom u
  let l := x.stalled.filter fun t => ¬ t.tag.testBit 0
  let d := d.setDom u { x with stalled := x.stalled.filter fun t => t.tag.testBit 0, arr := none }
  l.foldl (fun d t => d.emit .bus [u, 2, t.tag]) (if l.isEmpty then d else d.inc oRefusedWakes 32 l.length)

/-- INRUSH_GRANT (R90, R351): the first waiting wake by class, when the bucket holds its charge. -/
def Dev.inrushGrant (d : Dev) : Dev :=
  match headWake d.doms.queue with
  | none => d
  | some r =>
    let d := d.refill
    let drop := { d with doms := { d.doms with queue := d.doms.queue.filter (·.unit ≠ r.unit) } }
    let x := d.dom r.unit
    if x.st ≠ 1 ∧ x.st ≠ 2 then drop
    else if 2 ≤ d.vst ∧ d.vst ≤ 6 ∧ r.cls ≠ 1 then
      drop.refuseStalls r.unit
    else if d.lockedOff r.unit then drop
    else
      let c := d.wakeCharge r.unit
      if d.doms.level < c ∨ ¬ d.parentsOn r.unit then d
      else
        let d := if r.arrival < d.now then drop.inc oInrushWaits else drop
        let d := { d with doms := { d.doms with level := d.doms.level - c } }
        d.setDom r.unit { x with st := 3, wakeFrom := x.st, since := d.now, later := none, demand := x.demand || r.cls ≤ 2 }

/-- A domain reaches ON (R347, R348, R354): stalled accesses proceed, its activities resume, its children's waiting wakes are issued,
and its pads are released unless the manager woke it and releases them itself. -/
def Dev.domainOn (d : Dev) (u : Nat) : Dev :=
  let x := d.dom u
  let d : Dev := match x.arr with
    | some t => d.su u oWakeStallMax (max (d.gu u oWakeStallMax) (min (2 ^ 32 - 1) (d.now - t)))
    | none => d
  let d := d.setDom u { x with st := 0, stalled := [], arr := none, later := none, demand := false }
  let d := x.stalled.foldl (fun d t => if kindOf u = 0x11 then d.dramRequest t.addr t.tag t.acc t.data else d.emit .bus [u, 0, t.tag]) d
  let d := if x.manager ∧ d.gu u oPadAutoRelease = 0 then d else d.setPads (d.doms.padHeld.filter (· ≠ u))
  let d := d.resumeUnit u
  let d : Dev := match kindOf u with
    | 0x0F => (let p := d.port (u - 0x2280); if p.present ∧ p.removing ≠ 2 then d.setPort (u - 0x2280) { p with state := 1, speed := 0, width := 0 } else d)
    | 0x14 => { d with doms := { d.doms with supRet := false, sclHold := none, mgtTick := d.now } }
    | 0x0D | 0x0E => d.throughKick
    | 0x11 => d.fwRetry
    | _ => d
  let d := ((upOrder u).drop 1).foldl (fun d c =>
    let y := d.dom c
    if (y.st = 1 ∨ y.st = 2) ∧ y.later = some 0 ∧ d.parentsOn c then (d.setDom c { y with later := none }).enqueueWake c (if y.demand then 2 else 3) else d) d
  d.runLater u x.later x.demand

/-- DOMAIN_READY (R347). A DRAM channel is ready by SELF_REFRESH_EXIT instead (R310). -/
def Dev.domainReady (d : Dev) (u : Nat) : Dev :=
  if (d.dom u).st = 3 ∧ kindOf u ≠ 0x11 then d.domainOn u else d

/-- A transaction is served at unit `u`, whose domain is ON: at a memory unit it reaches its channel (R142, R304); `hit` says that it reads poisoned data. [DEDUCED, log 35] -/
def Dev.served (d : Dev) (u tag acc addr data : Nat) (mem hit : Bool) : Dev :=
  if mem ∧ d.mem.resid.contains (resKey addr) then d.restoreFault (resKey addr) tag
  else if mem then (if hit then d.emit .bus [u, 5, tagPoison tag] else if d.serving (chanOf addr) then d.dramRequest addr tag acc data else d.emit .bus [u, 4, tagPoison tag])
  else d.emit .bus [u, if hit then 5 else 0, tagIf hit tag]

/-- A transaction waits at unit `u` for its domain (R348); where the request for ON aborted an entry, the unit is ON again and serves it (R309, R350). [DEDUCED, log 35] -/
def Dev.stallAt (d : Dev) (u tag acc addr data : Nat) (mem hit : Bool) : Dev :=
  if d.pathOn u then d.served u tag acc addr data mem hit
  else d.setDom u { d.dom u with stalled := (d.dom u).stalled ++ [{ tag := tag, at_ := d.now, acc := acc, addr := addr, data := data }] }

/-- TRANSACTION_ARRIVAL (R28, R31, R90, R142, R296, R348, R349): a transaction with tag `tag` reaches unit `u`; `addr` is its
location at a memory unit, and `data` the 64-byte line it writes there. [DEDUCED, log 35] -/
def Dev.transaction (d : Dev) (u tag acc addr data : Nat) : Dev :=
  let iu := tag / 2 ^ 16 % 2 ^ 16
  let ii := tag / 2 ^ 52
  if d.unitGone iu then d else
  let d := if tag / 2 ^ 40 % 4 = 3 then d.raise { src := 0, acc := acc, iUnit := iu, iInst := ii, addr := addr, tag := tag } else d
  let mem : Bool := decide (kindOf u = 0x10 ∨ kindOf u = 0x11)
  let u := if mem ∧ d.paOk addr then uChan (chanOf addr) else u
  let (hit, d) := d.spring (u :: (if mem then [uMem, uFabric] else [])) addr 1 acc iu ii tag
  if ¬ d.present u then d
  else if d.isolated u then d.emit .bus [u, 1, tag]
  else if mem ∧ ¬ d.paOk addr then
    (d.raise { src := 9, acc := acc, iUnit := iu, iInst := ii, addr := addr, tag := tag }).emit .bus [u, 4, tagPoison tag]
  else if d.pathOn u ∧ ¬ d.lockedOff u then d.served u tag acc addr data mem hit
  else if tag.testBit 0 then (d.requestOn 1 u).stallAt u tag acc addr data mem hit
  else match d.gate u with
  | .open_ => d.served u tag acc addr data mem hit
  | .refused e => e.emit .bus [u, if d.lockedOff u then 3 else 2, tagIf (d.lockedOff u && acc ≠ 2) tag]
  | .stall e => e.stallAt u tag acc addr data mem hit

/-- A value written to PadRelease at unit `u` (R354). -/
def Dev.fxPadRelease (d : Dev) (u v : Nat) : Reply :=
  if v = 0 then okR d
  else if d.domainState u ≠ 0 then conflict d u
  else okR (d.setPads (d.doms.padHeld.filter (· ≠ u)))

/-- SUPERVISOR_IDLE_EXPIRE (R355). -/
def Dev.supIdle (d : Dev) : Dev :=
  if d.domSt uSup = 0 ∧ d.supMayRet then d.enterState uSup 1 else d

/-- The supervisor begins to wake from RET (R355). -/
def Dev.supWake (d : Dev) : Dev :=
  if (d.dom uSup).st = 1 then d.setDom uSup { d.dom uSup with st := 3, wakeFrom := 1, since := d.now } else d

/-- ADDRESS_MATCH_WAKE (R356, R357): an address on the management bus, while the supervisor is in RET or wakes. -/
def Dev.addressMatch (d : Dev) (i3c : Bool) (addr : Nat) : Dev :=
  if ¬ d.doms.supRet then d
  else if i3c then
    if addr = d.doms.i3cAddr.getD (d.ge oI3cStaticAddress) then
      let d := d.emit .i3c [1, addr, 0]
      if (d.dom uSup).st = 1 then (d.inc oAddressWakes).supWake else d
    else d
  else if addr = d.ge oSmbusAddress then
    let d := (d.inc oAddressWakes).emit .i3c [0, addr, 1]
    ({ d with doms := { d.doms with sclHold := some d.now } }).supWake
  else d

/-- SUPERVISOR_WAKE_EVENT (R355): PWRBTN_N, MRST_N or VIN_PFAIL. -/
def Dev.supWakeEvent (d : Dev) : Dev := if d.doms.supRet then d.supWake else d

/-- STRETCH_OVERRUN (R356): the supervisor is not ready 2 ms after SCL was held. -/
def Dev.stretchOverrun (d : Dev) : Dev :=
  match d.doms.sclHold with
  | some _ => (({ d with doms := { d.doms with sclHold := none } }).inc oStretchOverruns 16).emit .i3c [0, 0, 2]
  | none => d

/-- I3C_DYNAMIC_ADDRESS_ASSIGN (R357): ENTDAA or SETDASA, seen by a supervisor that is not in RET. -/
def Dev.i3cAssign (d : Dev) (addr : Nat) : Dev :=
  if d.doms.supRet then d else { d with doms := { d.doms with i3cAddr := some (addr % 128) } }

end Sys2Proof.Machine
end

