-- ==== Sys2Proof/Machine/EngMem.lean ====
section
/-! DEFINITION. Memory accesses of DMA channels and engine jobs (R206, R211 to R214, R220): translation of a range line by line,
reads and writes through it, and the fault record of R218. -/
namespace Sys2Proof.Machine

/-- On whose behalf an engine reads and writes: its unit, the unit whose IOTLB it uses, the context (0xFFFF physical), its owner and
generation, and the transfer tag. -/
structure Who where
  iu : Nat
  cu : Nat
  ctx : Nat
  inst : Nat
  gen : Nat
  tag : Nat

/-- What an access of an engine gives: `fault` with Detail and faulting address, `poison` at a source byte, or nothing for now. -/
inductive Got (α : Type) where
  | ok (a : α) (d : Dev)
  | fault (detail addr : Nat) (d : Dev)
  | poison (d : Dev)
  | wait (d : Dev)

/-- One piece that does not cross a 64-byte line: its location, or none where an error response swallows a write. A write's tag takes the VaultClass
of its page (R211); traffic of an old generation goes no further (R206). -/
def Dev.piece (d : Dev) (w : Who) (va n need : Nat) : Got (Option Nat) :=
  let acc := if need = 2 then 2 else 1
  let finish (pa cls : Nat) (d : Dev) : Got (Option Nat) :=
    let tag := if need = 2 then tagClass w.tag cls else w.tag
    match d.path pa acc w.iu w.inst tag with
    | .wait d => .wait d
    | .bad d => if need = 1 then .poison d else .ok none d
    | .ready =>
      let (bad, d) := d.spring (locUnits pa) pa n acc w.iu w.inst tag
      if need = 1 ∧ (bad ∨ d.poisoned pa n) then .poison d else .ok (some pa) d
  if w.gen ≠ d.instGen w.inst then .wait d
  else if w.ctx = 0xFFFF then
    if va < 2 ^ 40 then finish va 0 d
    else
      let d := d.raise { src := 9, acc := acc, iUnit := w.iu, iInst := w.inst, addr := va, tag := w.tag }
      if need = 1 then .poison d else .ok none d
  else if 2 ^ 48 ≤ va ∨ (d.ctx w.ctx).inst ≠ w.inst ∨ 1024 ≤ w.ctx then .fault (faultDetail (need = 2) 3 1) va d
  else match d.xlat w.iu w.cu w.ctx va need acc w.tag with
    | .wait d => .wait d
    | .fault r l _ d => .fault (faultDetail (need = 2) l r) va d
    | .hit pa _ cls d => finish pa cls d

/-- The VaultClass that the entry of `va` in context `c` gives (R211): 0 where none can be read. -/
def Dev.leafClass (d : Dev) (iu tag c va : Nat) : Nat :=
  match d.walk iu tag va 3 (d.ctx c).root with
  | .page _ _ _ _ cls => cls
  | .fault r _ te => if r = 9 then 0 else teClass (d.peekLe te 8)
  | .wait _ => 0

/-- The tag of the request of `w` that took a translation fault with Detail `detail` at `va`: a write's names its page's class (R211, R218). -/
def Dev.faultTag (d : Dev) (w : Who) (detail va : Nat) : Nat :=
  if 0x80 ≤ detail ∧ w.ctx < 1024 then tagClass w.tag (d.leafClass w.iu w.tag w.ctx va) else w.tag

/-- The locations of `n` bytes from `va`, as (location, length) pieces; `f` bounds the pieces. -/
def Dev.pieces (d : Dev) (w : Who) (need : Nat) : Nat → Nat → Nat → Got (List (Option Nat × Nat))
  | 0, _, _ => .ok [] d
  | f + 1, va, n =>
    if n = 0 then .ok [] d
    else
      let k := min n (64 - va % 64)
      match d.piece w va k need with
      | .ok o d => match d.pieces w need f (va + k) (n - k) with
        | .ok l d => .ok ((o, k) :: l) d
        | x => x
      | .fault a b d => .fault a b d
      | .poison d => .poison d
      | .wait d => .wait d

/-- Reads `n` bytes at `va`. -/
def Dev.readVa (d : Dev) (w : Who) (va n : Nat) : Got (List Byte) :=
  match d.pieces w 1 (n / 64 + 2) va n with
  | .ok l d => .ok (l.flatMap fun p => match p.1 with | some a => d.peekN a p.2 | none => []) d
  | .fault a b d => .fault a b d
  | .poison d => .poison d
  | .wait d => .wait d

/-- Stores bytes over pieces; a piece without a location is swallowed. -/
def Dev.storePieces (d : Dev) : List (Option Nat × Nat) → List Byte → Dev
  | [], _ => d
  | (some a, k) :: r, b => ((d.pokeN a (b.take k)).cleanPoison a k).storePieces r (b.drop k)
  | (none, k) :: r, b => d.storePieces r (b.drop k)

/-- Writes bytes at `va`: all of them, or none. -/
def Dev.writeVa (d : Dev) (w : Who) (va : Nat) (b : List Byte) : Got Unit :=
  match d.pieces w 2 (b.length / 64 + 2) va b.length with
  | .ok l d => .ok () (d.storePieces l b)
  | .fault a x d => .fault a x d
  | .poison d => .poison d
  | .wait d => .wait d

/-- The fault record of R218 that follows record `f`. -/
def Dev.faultRec (d : Dev) (f : FaultRec) (kind detail addr progress tag prg : Nat) : FaultRec :=
  { kind := kind, detail := detail, seq := (f.seq + 1) % 2 ^ 32, addr := addr, progress := progress, tag := tag, tick := d.now, prg := prg }

/-- Raises the firmware message INTERRUPT Detail 0x03 on a core of quadrant `q` (R218). -/
def Dev.quadMessage (d : Dev) (q : Nat) : Dev :=
  match d.coreNos.find? fun n => n / 16 = q ∧ d.pathOn (uCoreN n) ∧ ¬ d.isolated (uCoreN n) with
  | some n => d.interrupt n 3
  | none => d

/-- Drops the entries of an address space that hold `va`, from every translation cache; `host` names the Host bit (R212). -/
def Dev.tlbInvalidate (d : Dev) (asid : Nat) (host : Bool) (va : Nat) : Dev :=
  let keep (_ : Nat) (l : List TlbEntry) : List TlbEntry := l.filter fun e =>
    ¬ (e.host = host ∧ (if host then e.asid / 1024 = asid / 1024 else e.asid = asid) ∧ e.va ≤ va ∧ va < e.va + e.size)
  { d with mem := { d.mem with tlb := storeMapV (fun _ => []) keep d.mem.tlb, iotlb := storeMapV (fun _ => []) keep d.mem.iotlb } }

/-- TLB_INVALIDATE (R212): an invalidation names the ASID, the Host bit and the address; accesses complete within their commands. -/
def Dev.opTlbInvalidate (d : Dev) (asid : Nat) (host : Bool) (va : Nat) : Dev := d.tlbInvalidate asid host va

/-- Engines and channels run: the machine is UP, not HALTED, and the whole path of unit `u` is ON and not contained. -/
def Dev.unitRuns (d : Dev) (u : Nat) : Bool := d.sup = 2 ∧ ¬ d.halted ∧ d.present u ∧ d.pathOn u ∧ ¬ d.isolated u ∧ ¬ d.lockedOff u

/-- The entry that unit `u` takes from queue `queue` (R231, R266): firmware's own, what the host returned for a fetch of a queue bound to `u`, or the next
entry that was fetched from a context's ring. -/
def Dev.takeEntry (d : Dev) (u queue raw : Nat) : Option (Nat × Dev) :=
  if queue = 0xFFFF then some (raw, d)
  else if qKind (d.q queue) ≠ 2 ∨ qBinding (d.q queue) ≠ u then none
  else if qLoc (d.q queue) = 0 then some (raw, d)
  else match (d.qs queue).got with
  | r :: l => some (r, d.setQs queue { d.qs queue with got := l })
  | [] => none

/-- The block of a volume has a Poison version, so that reading it meets Poison (R58). -/
def Dev.blockPoison (d : Dev) (v b : Nat) : Bool := (d.versOf v b).any (·.poison)

end Sys2Proof.Machine
end

