-- ==== Sys2Proof/Machine/Dma.lean ====
section
/-! DEFINITION. DMA channels (R216 to R221): taking a descriptor, running it with exact Progress, its faults, and its completion. -/
namespace Sys2Proof.Machine

/-- Where a descriptor was submitted: 0xFFFF firmware, else the queue pair, whose context or owner it takes, with the generation of either
(R216). `raw` is the 64-byte entry of Table 9.4. [DEDUCED, log 37] -/
def Dev.descOf (d : Dev) (queue : Nat) (raw : BitVec 512) : Desc :=
  let fw := queue = 0xFFFF
  let e := d.q queue
  let ctx := if fw ∨ qLoc e = 0 then ent raw 2 2 else qOwner e
  let inst := if fw then ent raw 4 2 else qInst e
  let gen := if fw then ent raw 6 1 else if qLoc e = 0 then d.instGen inst else (d.ctx ctx).gen
  { op := ent raw 0 1, flags := if fw then ent raw 1 1 else setBit (ent raw 1 1) 2 false, ctx := ctx, inst := inst, gen := gen, dom := if fw then ent raw 7 1 else qDomain e, src := ent raw 8 8, dst := ent raw 0x10 8, len := ent raw 0x18 8, progress := if fw then ent raw 0x20 8 else 0, vol := ent raw 0x28 2, cls := ent raw 0x2A 1, status := stQueued, user := ent raw 0x30 8, queue := queue, reserved := ent raw 0x2C 4 + ent raw 0x38 4 }

/-- The checks of R216; a descriptor of a program or the host that asks for physical addressing is not accepted. [DEDUCED, log 36] -/
def Desc.invalid (x : Desc) : Bool :=
  x.op = 0 ∨ 6 < x.op ∨ x.reserved ≠ 0 ∨ 8 ≤ x.flags ∨ 4 ≤ x.cls ∨ 2 ^ 12 ≤ x.inst ∨ 2 ^ 40 ≤ x.len
    ∨ (x.op ≤ 4 ∧ x.vol ≠ 0) ∨ (4 < x.op ∧ x.len % 4096 ≠ 0) ∨ (x.ctx = 0xFFFF ∧ x.queue ≠ 0xFFFF)

/-- Replaces the descriptor of channel `i`. -/
def Dev.setDesc (d : Dev) (i : Nat) (x : Desc) : Dev := d.setCh i { d.ch i with desc := some x }

/-- The context of address space `c` is at an end, or was never there: what names it completes ABORTED (R220). -/
def Dev.ctxGone (d : Dev) (c : Nat) : Bool := c < 1024 ∧ ((d.ctx c).st = 0 ∨ (d.ctx c).st = 4)

/-- A free channel takes a descriptor (R216): it completes at once when it is invalid or empty, or when the context that submitted it has ended (R220);
else it is QUEUED there. [DEDUCED, log 36] -/
def Dev.dmaTake (d : Dev) (i queue : Nat) (raw : BitVec 512) : Dev :=
  let x := d.descOf queue raw
  let d := d.setDesc i x
  if queue ≠ 0xFFFF ∧ qLoc (d.q queue) = 1 ∧ d.ctxGone x.ctx then d.dmaFinish i stAborted
  else if x.invalid then d.dmaFinish i stInvalid
  else if x.len = 0 then d.dmaFinish i stDone
  else d

/-- Channel `i`, while its engine runs, begins its QUEUED descriptor: it is RUNNING (Table 9.4). -/
def Dev.dmaStart (d : Dev) (i : Nat) : Dev :=
  match (d.ch i).desc with
  | some x => if x.status = stQueued ∧ d.unitRuns (chUnit i) then d.setDesc i { x with status := stRunning } else d
  | none => d

/-- The transfer tag of channel `i`'s requests (Table 1.8). -/
def chTag (i : Nat) (x : Desc) : Nat := mkTag x.inst x.gen x.cls 0 x.dom (chUnit i) (i % 64) (bit x.flags 1)

/-- On whose behalf channel `i` works. -/
def chWho (i : Nat) (x : Desc) : Who := { iu := chUnit i, cu := chUnit i, ctx := x.ctx, inst := x.inst, gen := x.gen, tag := chTag i x }

/-- A channel suspends on a translation fault (R218). -/
def Dev.dmaFault (d : Dev) (i detail addr : Nat) : Dev :=
  match (d.ch i).desc with
  | none => d
  | some x =>
    let f := d.faultRec (d.ch i).fault 1 detail addr x.progress (d.faultTag (chWho i x) detail addr) 0
    let d := (d.setCh i { desc := some { x with status := stSuspFault }, fault := f }).incU (chUnit i) oTranslationFaults 64
    d.quadMessage (i / 256)

/-- Page request group `r` goes to the host with its instance's PASID (R221), counted at its channel's engine. -/
def Dev.askPage (d : Dev) (r : PageReq) : Dev :=
  ((d.incU (chUnit r.chan) oHostPageRequests 64).noteRequest r.inst).emit .page [r.prg, r.inst, r.addr, d.pasid r.inst]

/-- Channel `i` suspends on a host page that grants no access, asks for it (R221) and tells firmware (R218). -/
def Dev.dmaHostFault (d : Dev) (i addr : Nat) : Dev :=
  match (d.ch i).desc with
  | none => d
  | some x =>
    let prg := d.mem.prg
    let f := d.faultRec (d.ch i).fault 2 (faultDetail (x.op = 4) 0 7) addr x.progress (chTag i x) prg
    let d := d.setCh i { desc := some { x with status := stSuspFault }, fault := f }
    let r : PageReq := ⟨prg, i, x.inst, addr, d.now⟩
    let d := { d with mem := { d.mem with prg := (prg + 1) % 512, preqs := d.mem.preqs ++ [r] } }
    (d.askPage r).quadMessage (i / 256)

/-- What one unit of a run leads to. -/
inductive Unit1 where
  | go (n : Nat) (d : Dev)          -- `n` bytes completed
  | stop (d : Dev)

/-- Ends a unit that did not complete: a fault suspends the channel, Poison at a source completes it (R220). -/
def Dev.dmaStop {α : Type} (i : Nat) : Got α → Dev
  | .ok _ d => d
  | .fault a b d => d.dmaFault i a b
  | .poison d => d.dmaFinish i stPoisoned
  | .wait d => d

/-- Source and destination overlap, so that whole 64-byte units are copied in ascending order (R217). -/
def Desc.overlaps (x : Desc) : Bool := x.src < x.dst + x.len ∧ x.dst < x.src + x.len

/-- A unit of COPY. -/
def Dev.copyUnit (d : Dev) (i : Nat) (x : Desc) : Unit1 :=
  let s := x.src + x.progress
  let t := x.dst + x.progress
  let n := if x.overlaps then min 64 (x.len - x.progress) else min (min (64 - s % 64) (64 - t % 64)) (x.len - x.progress)
  match d.readVa (chWho i x) s n with
  | .ok b d => match d.writeVa (chWho i x) t b with
    | .ok _ d => .go n d
    | g => .stop (Dev.dmaStop i g)
  | g => .stop (Dev.dmaStop i g)

/-- A unit of FILL: byte i of the destination receives byte (i mod 8) of Src. -/
def Dev.fillUnit (d : Dev) (i : Nat) (x : Desc) : Unit1 :=
  let t := x.dst + x.progress
  let n := min (64 - t % 64) (x.len - x.progress)
  match d.writeVa (chWho i x) t ((List.range n).map fun j => BitVec.ofNat 8 (byteOf x.src ((x.progress + j) % 8))) with
  | .ok _ d => .go n d
  | g => .stop (Dev.dmaStop i g)

/-- The IOTLB of the channel holds a host translation of `addr` (R221). [DEDUCED, log 82] -/
def Dev.hostHit (d : Dev) (i inst addr : Nat) : Bool :=
  (d.tlbOf (chUnit i)).any fun e => e.host ∧ e.asid / 1024 = inst ∧ e.va ≤ addr ∧ addr < e.va + e.size

/-- Host translation of one unit: cached, or granted now and cached. [DEDUCED, log 36] -/
def Dev.hostXlat (d : Dev) (i inst addr : Nat) (grant : Bool) : Option Dev :=
  if d.hostHit i inst addr then some d
  else if grant then some (d.tlbFill (chUnit i) { asid := inst * 1024, host := true, va := addr / 4096 * 4096, size := 4096, pa := addr / 4096 * 4096, perms := 3, cls := 0 })
  else none

/-- A unit of HOST_READ; `data` is what the host returns from Progress on. [DEDUCED, log 82] -/
def Dev.hostReadUnit (d : Dev) (i : Nat) (x : Desc) (grant : Bool) (data : List Byte) : Unit1 :=
  let s := x.src + x.progress
  let t := x.dst + x.progress
  let n := min (min (64 - s % 64) (64 - t % 64)) (x.len - x.progress)
  match d.hostXlat i x.inst s grant with
  | none => .stop (d.dmaHostFault i s)
  | some d =>
    let d := (d.noteRequest x.inst).emit .hostRead [x.inst, s, n, d.pasid x.inst]
    let b := (List.range n).map fun j => listGet 0 data j
    match d.writeVa (chWho i x) t b with
    | .ok _ d => .go n d
    | g => .stop (Dev.dmaStop i g)

/-- A unit of HOST_WRITE. -/
def Dev.hostWriteUnit (d : Dev) (i : Nat) (x : Desc) (grant : Bool) : Unit1 :=
  let s := x.src + x.progress
  let t := x.dst + x.progress
  let n := min (min (64 - s % 64) (64 - t % 64)) (x.len - x.progress)
  match d.readVa (chWho i x) s n with
  | .ok b d => match d.hostXlat i x.inst t grant with
    | none => .stop (d.dmaHostFault i t)
    | some d => .go n (d.hostPost x.inst x.gen .hostWrite [x.inst, t, d.pasid x.inst] b)
  | g => .stop (Dev.dmaStop i g)

/-- Marks the volume block of channel `i` as `st`. -/
def Dev.setVst (d : Dev) (i st : Nat) : Dev := d.setCh i { d.ch i with desc := (d.ch i).desc.map fun x => { x with vst := st } }

/-- The channel's volume exists and holds the block at byte `off`. -/
def Dev.volHolds (d : Dev) (v off len : Nat) : Bool := vLayout (d.vol v) ≠ 0 ∧ off % 4096 = 0 ∧ off + len ≤ vCap (d.vol v) * 4096

/-- A block of VOLUME_READ (R43): read through the cache, then stored. [DEDUCED, log 36] -/
def Dev.volReadUnit (d : Dev) (i : Nat) (x : Desc) : Unit1 :=
  let s := x.src + x.progress
  if ¬ d.volHolds x.vol s 4096 then .stop (d.dmaFinish i stVolErr)
  else
    let d := if x.vst = 0 then (d.setVst i 1).submitRead { id := 0, org := 1, ref := i, inst := x.inst, gen := x.gen, vol := x.vol, start := s, len := 4096 } else d
    match (d.ch i).desc with
    | none => .stop d
    | some y =>
      if y.vst = 2 then
        match d.writeVa (chWho i x) (x.dst + x.progress) (leBytes 4096 y.vdata) with
        | .ok _ d => .go 4096 (d.setVst i 0)
        | g => .stop (Dev.dmaStop i g)
      else if y.vst = 3 then .stop (d.dmaFinish i (if d.blockPoison x.vol (s / 4096) then stPoisoned else stVolErr))
      else .stop d

/-- A block of VOLUME_WRITE (R44, R50): admitted by the governor, complete once PLACED or durable. [DEDUCED, log 36] -/
def Dev.volWriteUnit (d : Dev) (i : Nat) (x : Desc) : Unit1 :=
  let t := x.dst + x.progress
  if ¬ d.volHolds x.vol t 4096 ∨ vState (d.vol x.vol) = 3 then .stop (d.dmaFinish i stVolErr)
  else if x.vst = 0 then
    match d.readVa (chWho i x) (x.src + x.progress) 4096 with
    | .ok b d => .stop ((d.setVst i 1).submit { id := 0, org := 1, ref := i, inst := x.inst, gen := x.gen, dom := x.dom, fence := bit x.flags 1, vol := x.vol, start := t, len := 4096, data := leNat b })
    | g => .stop (Dev.dmaStop i g)
  else if x.vst = 2 then .go 4096 (d.setVst i 0)
  else if x.vst = 3 then .stop (d.dmaFinish i stVolErr)
  else .stop d

/-- Runs at most `n` units of channel `i` (R217). `grant`: the host grants access to what the channel asks of it; `data`: host bytes
from Progress on. -/
def Dev.dmaRun (i : Nat) (grant : Bool) : Nat → List Byte → Dev → Dev
  | 0, _, d => d
  | n + 1, data, d =>
    match (d.ch i).desc with
    | none => d
    | some x =>
      if x.status ≠ stRunning ∨ ¬ d.unitRuns (chUnit i) then d
      else if x.gen ≠ d.instGen x.inst then d
      else
        let u := match x.op with
          | 1 => d.copyUnit i x
          | 2 => d.fillUnit i x
          | 3 => d.hostReadUnit i x grant data
          | 4 => d.hostWriteUnit i x grant
          | 5 => d.volReadUnit i x
          | _ => d.volWriteUnit i x
        match u with
        | .stop d => d
        | .go k d =>
          match (d.ch i).desc with
          | none => d
          | some y =>
            let y := { y with progress := x.progress + k }
            let d := d.setDesc i y
            if y.len ≤ y.progress then d else Dev.dmaRun i grant n (data.drop k) d

/-- A row of the descriptor operations: a free channel takes the descriptor when its Op is the row's or no listed one; then at most
`n` units of the channel's descriptor run, when it is of the row's Op. [DEDUCED, log 36] -/
def Dev.dmaRow (d : Dev) (op i queue : Nat) (raw : BitVec 512) (n : Nat) (grant : Bool) (data : List Byte) : Dev :=
  let d := if (d.ch i).desc.isNone ∧ i < 1024 ∧ d.unitRuns (chUnit i) ∧ ¬ d.quiet then
      match d.takeEntry (chUnit i) queue raw.toNat with
      | some (r, e) => if byteOf r 0 = op ∨ byteOf r 0 = 0 ∨ 6 < byteOf r 0 then e.dmaTake i queue (BitVec.ofNat 512 r) else d
      | none => d
    else d
  match (d.ch i).desc with
  | some x => if x.op = op ∧ 0 < n then Dev.dmaRun i grant n data (d.dmaStart i) else d
  | none => d

/-- DMA_COPY (R217). -/
def Dev.dmaCopy (d : Dev) (i queue : Nat) (raw : BitVec 512) (n : Nat) : Dev := d.dmaRow 1 i queue raw n false []
/-- DMA_FILL (R217). -/
def Dev.dmaFill (d : Dev) (i queue : Nat) (raw : BitVec 512) (n : Nat) : Dev := d.dmaRow 2 i queue raw n false []
/-- DMA_HOST_READ (R221). -/
def Dev.dmaHostRead (d : Dev) (i queue : Nat) (raw : BitVec 512) (n : Nat) (grant : Bool) (data : List Byte) : Dev := d.dmaRow 3 i queue raw n grant data
/-- DMA_HOST_WRITE (R221). -/
def Dev.dmaHostWrite (d : Dev) (i queue : Nat) (raw : BitVec 512) (n : Nat) (grant : Bool) : Dev := d.dmaRow 4 i queue raw n grant []
/-- DMA_VOLUME_READ (R216). -/
def Dev.dmaVolumeRead (d : Dev) (i queue : Nat) (raw : BitVec 512) (n : Nat) : Dev := d.dmaRow 5 i queue raw n false []
/-- DMA_VOLUME_WRITE (R216). -/
def Dev.dmaVolumeWrite (d : Dev) (i queue : Nat) (raw : BitVec 512) (n : Nat) : Dev := d.dmaRow 6 i queue raw n false []

/-- DMA_CHANNEL_RESUME (R219): firmware corrects the entry, invalidates it and writes the resume command; a resolution that fails ends
the faulting context (R226), and one that meets a restore fault goes on when the command is given again (R227). -/
def Dev.dmaResume (d : Dev) (i : Nat) : Dev :=
  match (d.ch i).desc with
  | none => d
  | some x =>
    let f := (d.ch i).fault
    if x.status ≠ stSuspFault ∨ f.kind ≠ 1 then d
    else
      let r := f.detail % 16
      let go (d : Dev) : Dev := match (d.ch i).desc with
        | some y => (d.setCh i { desc := some { y with status := stRunning }, fault := { f with kind := 0 } }).tlbInvalidate (asidOf x.inst x.ctx) false f.addr
        | none => d
      if (r = 2 ∨ r = 3) ∧ x.ctx < 1024 then
        match d.fwResolve x.ctx f.addr with
        | .done d => go d
        | .wait d => d
        | .lost d => (d.incU (chUnit i) oFatalTranslationFaults).endCtx x.ctx 0x03 0x08 f.addr 0
      else go d

/-- DMA_FAULT_END (R219): firmware ends the fault. -/
def Dev.dmaFaultEnd (d : Dev) (i : Nat) : Dev :=
  match (d.ch i).desc with
  | some x => if x.status = stSuspFault ∧ (d.ch i).fault.kind = 1 then (d.incU (chUnit i) oFatalTranslationFaults).dmaFinish i stTransErr else d
  | none => d

/-- DMA_DESCRIPTOR_COMPLETE (R267): every byte is complete, and the completion entry is posted. -/
def Dev.dmaComplete (d : Dev) (i : Nat) : Dev :=
  match (d.ch i).desc with
  | some x => if x.len ≤ x.progress ∧ x.status = stRunning then d.dmaFinish i stDone else d
  | none => d

/-- The page request group `prg` is answered or abandoned. -/
def Dev.dropReq (d : Dev) (prg : Nat) : Dev := { d with mem := { d.mem with preqs := d.mem.preqs.filter (·.prg ≠ prg) } }

/-- The descriptor of a channel that waits for the host ends with TRANSLATION_ERROR, reason HOST_DENIED (R221). -/
def Dev.hostDenied (d : Dev) (i : Nat) : Dev :=
  let c := d.ch i
  let d := d.setCh i { c with fault := { c.fault with detail := c.fault.detail / 16 * 16 + 8 } }
  (d.incU (chUnit i) oFatalTranslationFaults).dmaFinish i stTransErr

/-- PAGE_RESPONSE_RECEIVE (R221): success resumes the channel, failure ends its descriptor; the response to a request of an earlier generation is discarded
(Table 11.12). -/
def Dev.pageResponse (d : Dev) (prg : Nat) (ok : Bool) : Dev :=
  match d.mem.preqs.find? (·.prg = prg) with
  | none => d
  | some r =>
    let d := d.dropReq prg
    let c := d.ch r.chan
    match c.desc with
    | some x =>
      if x.status ≠ stSuspFault ∨ c.fault.kind ≠ 2 ∨ c.fault.prg ≠ prg ∨ x.gen ≠ d.instGen x.inst then d
      else if ok then d.setCh r.chan { desc := some { x with status := stRunning }, fault := { c.fault with kind := 0 } }
      else d.hostDenied r.chan
    | none => d

/-- HOST_PAGE_TIMEOUT (R221): no response within HostPageTimeout. -/
def Dev.pageTimeout (d : Dev) (prg : Nat) : Dev :=
  match d.mem.preqs.find? (·.prg = prg) with
  | none => d
  | some r =>
    let d := d.dropReq prg
    let c := d.ch r.chan
    match c.desc with
    | some x => if x.status = stSuspFault ∧ c.fault.kind = 2 ∧ c.fault.prg = prg ∧ x.gen = d.instGen x.inst then d.hostDenied r.chan else d
    | none => d

/-- Page requests outstanding at FREEZE are issued again, once the link is up after the resume (R221). -/
def Dev.reissuePages (d : Dev) : Dev :=
  if d.mem.reissue ∧ d.insts.link ≠ 0 ∧ ¬ d.quiet then
    let l : List PageReq := d.mem.preqs.map fun r => { r with tick := d.now }
    l.foldl Dev.askPage { d with mem := { d.mem with preqs := l, reissue := false } }
  else d

/-- Channels now SUSPENDED_FAULT at the DMA engine `u` (R228). -/
def Dev.suspendedAt (d : Dev) (u : Nat) : Nat :=
  (d.mem.chans.filter fun p => chUnit p.1 = u ∧ p.2.desc.any (·.status = stSuspFault)).length

end Sys2Proof.Machine
end

