-- ==== Sys2Proof/Machine/Inflate.lean ====
section
/-! DEFINITION. The compressed formats of Table 10.6 that are decoded block by block: raw DEFLATE (RFC 1951) and the LZ4 frame format,
with xxHash-32. A decoder answers the blocks it completed and why it ended. -/
namespace Sys2Proof.Machine

/-- What a decoder made of its input: per block the input consumed at its end (bits for DEFLATE, bytes otherwise) and the bytes it gave;
`err`: none at the end of a complete stream, 0 input ended too early, 1 malformed, 2 outside Table 10.6. -/
structure Decoded where
  blocks : List (Nat × List Byte)
  err : Option Nat

/-- A step of a decoder: a value, or an error code of `Decoded.err`. -/
abbrev Parse (α : Type) := Except Nat α

/-- The bits of a byte list, least significant first. -/
def bitsOf (l : List Byte) : List Bool := l.flatMap fun b => (List.range 8).map fun i => b.getLsbD i

/-- `n` bits, least significant first, as a number. -/
def takeBits : Nat → List Bool → Parse (Nat × List Bool)
  | 0, l => .ok (0, l)
  | _ + 1, [] => .error 0
  | n + 1, b :: r => match takeBits n r with
    | .ok (v, r) => .ok ((if b then 1 else 0) + 2 * v, r)
    | .error e => .error e

/-- Codes of a canonical Huffman code: (length, code, symbol), from the lengths (RFC 1951, 3.2.2). -/
def canonCodes (lens : List Nat) : List (Nat × Nat × Nat) :=
  let syms := lens.zip (List.range lens.length)
  let byLen := (List.range 16).drop 1
  (byLen.foldl (fun (s : Nat × List (Nat × Nat × Nat)) n =>
    let code := s.1 * 2
    let l := syms.filter (·.1 = n)
    (code + l.length, s.2 ++ (l.zip (List.range l.length)).map fun p => (n, code + p.2, p.1.2))) (0, [])).2

/-- The lengths over-subscribe the code space. -/
def overSub (lens : List Nat) : Bool :=
  32768 < (lens.map fun n => if n = 0 then 0 else 2 ^ (15 - n)).sum

/-- Decodes one symbol: `code` of `len` bits has been read. -/
def huffSym (t : List (Nat × Nat × Nat)) : Nat → Nat → Nat → List Bool → Parse (Nat × List Bool)
  | 0, _, _, _ => .error 1
  | _ + 1, _, _, [] => .error 0
  | f + 1, len, code, b :: r =>
    let code := code * 2 + (if b then 1 else 0)
    match t.find? fun x => x.1 = len + 1 ∧ x.2.1 = code with
    | some x => .ok (x.2.2, r)
    | none => huffSym t f (len + 1) code r

/-- The next symbol. -/
def huffNext (t : List (Nat × Nat × Nat)) (l : List Bool) : Parse (Nat × List Bool) := huffSym t 15 0 0 l

/-- Copies `n` bytes at distance `k` onto the newest-first history. -/
def copyBack (k : Nat) : Nat → List Byte → List Byte
  | 0, h => h
  | n + 1, h => copyBack k n (listGet 0 h (k - 1) :: h)

/-- Length base and extra bits of a length symbol (RFC 1951, 3.2.5). -/
def lenBase (s : Nat) : Nat × Nat :=
  let i := s - 257
  if i < 8 then (3 + i, 0) else if s = 285 then (258, 0) else
    let e := i / 4 - 1
    ((4 + i % 4) * 2 ^ e + 3, e)

/-- Distance base and extra bits of a distance symbol. -/
def distBase (s : Nat) : Nat × Nat := if s < 4 then (s + 1, 0) else (let e := s / 2 - 1; ((2 + s % 2) * 2 ^ e + 1, e))

/-- The compressed data of a block: until its end-of-block symbol. -/
def inflateCodes (lit dist : List (Nat × Nat × Nat)) : Nat → List Byte → List Bool → Parse (List Byte × List Bool)
  | 0, _, _ => .error 1
  | f + 1, h, l => do
    let (s, l) ← huffNext lit l
    if s < 256 then inflateCodes lit dist f (BitVec.ofNat 8 s :: h) l
    else if s = 256 then .ok (h, l)
    else if 285 < s then .error 1
    else
      let (x, l) ← takeBits (lenBase s).2 l
      let (ds, l) ← huffNext dist l
      if 29 < ds then .error 1
      else
        let (y, l) ← takeBits (distBase ds).2 l
        let k := (distBase ds).1 + y
        if h.length < k then .error 1 else inflateCodes lit dist f (copyBack k ((lenBase s).1 + x) h) l

/-- Order of the code-length code lengths (RFC 1951, 3.2.7). -/
def clOrder : List Nat := [16, 17, 18, 0, 8, 7, 9, 6, 10, 5, 11, 4, 12, 3, 13, 2, 14, 1, 15]

/-- The code lengths of a dynamic block: `n` of them, newest first in `acc`. -/
def readLens (t : List (Nat × Nat × Nat)) (n : Nat) : Nat → List Nat → List Bool → Parse (List Nat × List Bool)
  | 0, _, _ => .error 1
  | f + 1, acc, l => do
    if n ≤ acc.length then (if acc.length = n then .ok (acc.reverse, l) else .error 1)
    else
      let (s, l) ← huffNext t l
      if s < 16 then readLens t n f (s :: acc) l
      else if s = 16 then
        let (x, l) ← takeBits 2 l
        match acc with
        | [] => .error 1
        | p :: _ => readLens t n f (List.replicate (3 + x) p ++ acc) l
      else if s = 17 then
        let (x, l) ← takeBits 3 l
        readLens t n f (List.replicate (3 + x) 0 ++ acc) l
      else
        let (x, l) ← takeBits 7 l
        readLens t n f (List.replicate (11 + x) 0 ++ acc) l

/-- Reads `n` three-bit code lengths. -/
def readCl : Nat → List Bool → Parse (List Nat × List Bool)
  | 0, l => .ok ([], l)
  | n + 1, l => do
    let (x, l) ← takeBits 3 l
    let (r, l) ← readCl n l
    .ok (x :: r, l)

/-- Lengths of the fixed literal code. -/
def fixedLit : List Nat := List.replicate 144 8 ++ List.replicate 112 9 ++ List.replicate 24 7 ++ List.replicate 8 8

/-- One DEFLATE block after its three header bits; `pos` is the bit position they end at. -/
def inflateBody (typ pos : Nat) (h : List Byte) (l : List Bool) : Parse (List Byte × List Bool) :=
  match typ with
  | 0 => do
    let l := l.drop ((8 - pos % 8) % 8)
    let (n, l) ← takeBits 16 l
    let (m, l) ← takeBits 16 l
    if n + m ≠ 65535 then .error 1
    else if l.length < 8 * n then .error 0
    else
      let data := (List.range n).map fun i => BitVec.ofNat 8 (((List.range 8).map fun j => if listGet false l (8 * i + j) then 2 ^ j else 0).sum)
      .ok (data.reverse ++ h, l.drop (8 * n))
  | 1 => inflateCodes (canonCodes fixedLit) (canonCodes (List.replicate 30 5)) (l.length + 1) h l
  | 2 => do
    let (hlit, l) ← takeBits 5 l
    let (hdist, l) ← takeBits 5 l
    let (hclen, l) ← takeBits 4 l
    let (cl, l) ← readCl (hclen + 4) l
    let lens := (List.range 19).map fun s => match (clOrder.zip cl).find? (·.1 = s) with | some x => x.2 | none => 0
    if overSub lens ∨ 29 < hlit then .error 1
    else
      let (all, l) ← readLens (canonCodes lens) (hlit + 257 + hdist + 1) (hlit + hdist + 259) [] l
      let a := all.take (hlit + 257)
      let b := all.drop (hlit + 257)
      if overSub a ∨ overSub b then .error 1 else inflateCodes (canonCodes a) (canonCodes b) (l.length + 1) h l
  | _ => .error 1

/-- The blocks of a raw DEFLATE stream of `total` bits; `h` is the output so far, newest first. -/
def inflateFrom (total : Nat) : Nat → List Byte → List Bool → Decoded
  | 0, _, _ => ⟨[], some 1⟩
  | f + 1, h, l =>
    match takeBits 3 l with
    | .error e => ⟨[], some e⟩
    | .ok (x, r) =>
      match inflateBody (x / 2) (total - r.length) h r with
      | .error e => ⟨[], some e⟩
      | .ok (h2, r) =>
        let b := (total - r.length, (h2.take (h2.length - h.length)).reverse)
        if x % 2 = 1 then ⟨[b], none⟩
        else let d := inflateFrom total f h2 r
             ⟨b :: d.blocks, d.err⟩

/-- Decodes a raw DEFLATE stream (RFC 1951). [PRESUMED, log 14] -/
def inflate (src : List Byte) : Decoded := inflateFrom (8 * src.length) (8 * src.length + 1) [] (bitsOf src)

/-- Rotate left in 32 bits. -/
def rl32 (x n : Nat) : Nat := (x * 2 ^ n + x / 2 ^ (32 - n)) % 2 ^ 32

/-- xxHash-32 primes. -/
def xp32 : List Nat := [2654435761, 2246822519, 3266489917, 668265263, 374761393]

/-- One lane of xxHash-32. -/
def xx32Round (a w : Nat) : Nat := rl32 ((a + w * 2246822519) % 2 ^ 32) 13 * 2654435761 % 2 ^ 32

/-- xxHash-32 with seed 0. -/
def xxh32 (l : List Byte) : Nat :=
  let w (b : List Byte) (i : Nat) := leNat ((b.drop (4 * i)).take 4)
  let full := l.length / 16
  let acc := (chunks 16 full l).foldl (fun (a : List Nat) b => (a.zip (List.range 4)).map fun p => xx32Round p.1 (w b p.2))
    [(2654435761 + 2246822519) % 2 ^ 32, 2246822519, 0, 2 ^ 32 - 2654435761]
  let h := if full = 0 then 374761393 else (((acc.zip [1, 7, 12, 18]).map fun p => rl32 p.1 p.2).sum) % 2 ^ 32
  let h := (h + l.length) % 2 ^ 32
  let t := l.drop (16 * full)
  let h := (chunks 4 (t.length / 4) t).foldl (fun h b => rl32 ((h + leNat b * 3266489917) % 2 ^ 32) 17 * 668265263 % 2 ^ 32) h
  let h := (t.drop (t.length / 4 * 4)).foldl (fun h b => rl32 ((h + b.toNat * 374761393) % 2 ^ 32) 11 * 2654435761 % 2 ^ 32) h
  let h := (h ^^^ (h / 2 ^ 15)) * 2246822519 % 2 ^ 32
  let h := (h ^^^ (h / 2 ^ 13)) * 3266489917 % 2 ^ 32
  h ^^^ (h / 2 ^ 16)

/-- `n` bytes of the input. -/
def takeBytes (n : Nat) (l : List Byte) : Parse (List Byte × List Byte) :=
  if l.length < n then .error 0 else .ok (l.take n, l.drop n)

/-- A length field that goes on while its bytes are 255. -/
def lz4Len : List Byte → Nat → Parse (Nat × List Byte)
  | [], _ => .error 1
  | b :: r, n => if b = 255 then lz4Len r (n + 255) else .ok (n + b.toNat, r)

/-- The sequences of an LZ4 block onto the newest-first history, of which `lim` bytes at most may be referred to. -/
def lz4Seqs (lim : Nat) : Nat → List Byte → List Byte → Parse (List Byte)
  | 0, _, _ => .error 1
  | _ + 1, _, [] => .error 1
  | f + 1, h, t :: l => do
    let (n, l) ← if t.toNat / 16 = 15 then lz4Len l 15 else .ok (t.toNat / 16, l)
    if l.length < n then .error 1
    else
      let h := (l.take n).reverse ++ h
      let l := l.drop n
      match l with
      | [] => .ok h
      | [_] => .error 1
      | a :: b :: l =>
        let k := a.toNat + 256 * b.toNat
        let (m, l) ← if t.toNat % 16 = 15 then lz4Len l 15 else .ok (t.toNat % 16, l)
        if k = 0 ∨ min lim h.length < k then .error 1 else lz4Seqs lim f (copyBack k (m + 4) h) l

/-- Options of an LZ4 frame. -/
structure Lz4Opt where
  linked : Bool
  bsum : Bool
  csum : Bool
  size : Option Nat
  max : Nat

/-- The blocks of one LZ4 frame; `base` is the history a frame starts from, `h` the bytes of the frame so far before it. -/
def lz4Blocks (total : Nat) (o : Lz4Opt) (base : List Byte) : Nat → List Byte → List Byte → Parse (List (Nat × List Byte) × List Byte) × List (Nat × List Byte)
  | 0, _, _ => (.error 1, [])
  | f + 1, out, l =>
    match takeBytes 4 l with
    | .error e => (.error e, [])
    | .ok (hd, r) =>
      let n := leNat hd
      if n = 0 then
        let fin (r : List Byte) : Parse (List (Nat × List Byte) × List Byte) × List (Nat × List Byte) :=
          if o.size.any (· ≠ out.length) then (.error 1, []) else (.ok ([], r), [])
        if o.csum then
          match takeBytes 4 r with
          | .error e => (.error e, [])
          | .ok (c, r) => if leNat c ≠ xxh32 out.reverse then (.error 1, []) else fin r
        else fin r
      else
        let k := n % 2 ^ 31
        if o.max < k then (.error 1, [])
        else match takeBytes k r with
        | .error e => (.error e, [])
        | .ok (b, r) =>
          let chk := if o.bsum then (match takeBytes 4 r with
              | .error e => .error e
              | .ok (c, r) => if leNat c ≠ xxh32 b then .error 1 else .ok r : Parse (List Byte)) else .ok r
          let hist := if o.linked then out ++ base else base
          match chk, (if 2 ^ 31 ≤ n then .ok (b.reverse ++ hist) else lz4Seqs 65535 (b.length + 1) hist b : Parse (List Byte)) with
          | .error e, _ => (.error e, [])
          | _, .error e => (.error e, [])
          | .ok r, .ok h2 =>
            let fresh := h2.take (h2.length - hist.length)
            if o.max < fresh.length then (.error 1, [])
            else
              let (res, bs) := lz4Blocks total o base f (fresh ++ out) r
              (res, (total - r.length, fresh.reverse) :: bs)

/-- Concatenated LZ4 frames; `dict` is the dictionary at Aux. -/
def lz4From (total : Nat) (dict : List Byte) : Nat → List Byte → Decoded
  | 0, _ => ⟨[], some 1⟩
  | f + 1, l =>
    if l.isEmpty then ⟨[], none⟩
    else match takeBytes 4 l with
    | .error e => ⟨[], some e⟩
    | .ok (m, r) =>
      if leNat m / 16 = 0x184D2A5 then
        match takeBytes 4 r with
        | .error e => ⟨[], some e⟩
        | .ok (n, r) => if r.length < leNat n then ⟨[], some 0⟩ else
          let d := lz4From total dict f (r.drop (leNat n))
          ⟨(total - (r.length - leNat n), []) :: d.blocks, d.err⟩
      else if leNat m ≠ 0x184D2204 then ⟨[], some 1⟩
      else
        let flg := (listGet 0 r 0).toNat
        let bd := (listGet 0 r 1).toNat
        let dl := 2 + (if bit flg 3 then 8 else 0) + (if bit flg 0 then 4 else 0)
        if r.length ≤ dl then ⟨[], some 0⟩
        else if flg / 64 ≠ 1 ∨ bit flg 1 ∨ bd % 16 ≠ 0 ∨ bd / 16 < 4 ∨ 7 < bd / 16 ∨ (listGet 0 r dl).toNat ≠ xxh32 (r.take dl) / 256 % 256 then ⟨[], some 1⟩
        else
          let o : Lz4Opt := ⟨!(bit flg 5), bit flg 4, bit flg 2, if bit flg 3 then some (leNat ((r.drop 2).take 8)) else none, 2 ^ (8 + 2 * (bd / 16))⟩
          let (res, bs) := lz4Blocks total o dict.reverse (r.length + 1) [] (r.drop (dl + 1))
          match res with
          | .error e => ⟨bs, some e⟩
          | .ok (_, r2) => let d := lz4From total dict f r2
                           ⟨bs ++ d.blocks, d.err⟩

/-- Decodes concatenated LZ4 frames. [PRESUMED, log 14] -/
def lz4Decode (dict src : List Byte) : Decoded := lz4From src.length dict (src.length + 1) src

/-- A stored-block DEFLATE stream of `src`: 65,535 bytes a block. [DESIGN CHOICE, log 39] -/
def deflateStored (src : List Byte) : List Byte :=
  let cs := chunks 65535 ((src.length + 65534) / 65535) src
  let cs := if cs.isEmpty then [[]] else cs
  (cs.zip (List.range cs.length)).flatMap fun p =>
    leBytes 1 (if p.2 + 1 = cs.length then 1 else 0) ++ leBytes 2 p.1.length ++ leBytes 2 (65535 - p.1.length) ++ p.1

/-- An LZ4 frame of uncompressed blocks of at most 2^`maxLog` bytes, with the options of FrameFlags. [DESIGN CHOICE, log 39] -/
def lz4Stored (maxLog flags : Nat) (src : List Byte) : List Byte :=
  let flg := 64 + (if bit flags 3 then 0 else 32) + (if bit flags 1 then 16 else 0) + (if bit flags 2 then 8 else 0) + (if bit flags 0 then 4 else 0)
  let hd := leBytes 1 flg ++ leBytes 1 ((maxLog - 8) / 2 * 16) ++ (if bit flags 2 then leBytes 8 src.length else [])
  let n := 2 ^ maxLog
  leBytes 4 0x184D2204 ++ hd ++ leBytes 1 (xxh32 hd / 256 % 256)
    ++ (chunks n ((src.length + n - 1) / n) src).flatMap (fun b => leBytes 4 (2 ^ 31 + b.length) ++ b ++ (if bit flags 1 then leBytes 4 (xxh32 b) else []))
    ++ leBytes 4 0 ++ (if bit flags 0 then leBytes 4 (xxh32 src) else [])

end Sys2Proof.Machine
end

