-- ==== Sys2Proof/Machine/Zstd.lean ====
section
/-! DEFINITION. The Zstandard format (RFC 8878) as Table 10.6 has it, decoded block by block, with XXH64. -/
namespace Sys2Proof.Machine

/-- Rotate left in 64 bits. -/
def rl64 (x n : Nat) : Nat := (x * 2 ^ n + x / 2 ^ (64 - n)) % 2 ^ 64

/-- XXH64 primes 1 to 5. -/
def xq1 : Nat := 0x9E3779B185EBCA87
/-- Prime 2. -/
def xq2 : Nat := 0xC2B2AE3D27D4EB4F
/-- Prime 3. -/
def xq3 : Nat := 0x165667B19E3779F9
/-- Prime 4. -/
def xq4 : Nat := 0x85EBCA77C2B2AE63
/-- Prime 5. -/
def xq5 : Nat := 0x27D4EB2F165667C5

/-- One lane of XXH64. -/
def xx64Round (a w : Nat) : Nat := rl64 ((a + w * xq2) % 2 ^ 64) 31 * xq1 % 2 ^ 64

/-- XXH64 with seed 0. -/
def xxh64 (l : List Byte) : Nat :=
  let w (b : List Byte) (i : Nat) := leNat ((b.drop (8 * i)).take 8)
  let full := l.length / 32
  let acc := (chunks 32 full l).foldl (fun (a : List Nat) b => (a.zip (List.range 4)).map fun p => xx64Round p.1 (w b p.2))
    [(xq1 + xq2) % 2 ^ 64, xq2, 0, 2 ^ 64 - xq1]
  let h := if full = 0 then xq5 else
    acc.foldl (fun h a => ((h ^^^ xx64Round 0 a) * xq1 + xq4) % 2 ^ 64) ((((acc.zip [1, 7, 12, 18]).map fun p => rl64 p.1 p.2).sum) % 2 ^ 64)
  let h := (h + l.length) % 2 ^ 64
  let t := l.drop (32 * full)
  let h := (chunks 8 (t.length / 8) t).foldl (fun h b => (rl64 (h ^^^ xx64Round 0 (leNat b)) 27 * xq1 + xq4) % 2 ^ 64) h
  let t := t.drop (t.length / 8 * 8)
  let h := if 4 ≤ t.length then (rl64 (h ^^^ (leNat (t.take 4) * xq1 % 2 ^ 64)) 23 * xq2 + xq3) % 2 ^ 64 else h
  let t := if 4 ≤ t.length then t.drop 4 else t
  let h := t.foldl (fun h b => rl64 (h ^^^ (b.toNat * xq5 % 2 ^ 64)) 11 * xq1 % 2 ^ 64) h
  let h := (h ^^^ (h / 2 ^ 33)) * xq2 % 2 ^ 64
  let h := (h ^^^ (h / 2 ^ 29)) * xq3 % 2 ^ 64
  h ^^^ (h / 2 ^ 32)

/-- A bit string: its value, little-endian, and how many of its bits are left. -/
structure Bits where
  v : Nat
  n : Nat

/-- The bits of a stream that is read backwards: those below its final one (RFC 8878, 4.1). -/
def backBits (l : List Byte) : Parse Bits :=
  let v := leNat l
  if l.isEmpty ∨ v < 2 ^ (8 * (l.length - 1)) then .error 1 else .ok ⟨v, Nat.log2 v⟩

/-- The next `k` bits of a backward stream; bits beyond its start read as 0. -/
def Bits.peek (b : Bits) (k : Nat) : Nat := if k ≤ b.n then b.v / 2 ^ (b.n - k) % 2 ^ k else b.v % 2 ^ b.n * 2 ^ (k - b.n)

/-- Takes `k` bits of a backward stream. -/
def Bits.take (b : Bits) (k : Nat) : Parse (Nat × Bits) := if b.n < k then .error 1 else .ok (b.peek k, ⟨b.v, b.n - k⟩)

/-- An entry of an FSE decoding table: symbol, bits, baseline. -/
structure Fse where
  sym : Nat
  bits : Nat
  base : Nat

/-- An FSE decoding table and its accuracy. -/
structure FseTab where
  log : Nat
  tab : List Fse

/-- No entry. -/
def noFse : Fse := ⟨0, 0, 0⟩

/-- Position of the next symbol in the spread. -/
def fseStep (size p : Nat) : Nat := (p + size / 2 + size / 8 + 3) % size

/-- Skips positions of the high area. -/
def fseSkip (size high : Nat) : Nat → Nat → Nat
  | 0, p => p
  | f + 1, p => if high < p + 1 then fseSkip size high f (fseStep size p) else p

/-- Spreads `syms` (one per cell) over the table, from position `p`. -/
def fseSpread (size high : Nat) : List Nat → Nat → List (Nat × Nat)
  | [], _ => []
  | s :: r, p => (p, s) :: fseSpread size high r (fseSkip size high size (fseStep size p))

/-- The decoding table of a distribution; −1 is written as 2^16 (RFC 8878, 4.1.1). -/
def fseBuild (log : Nat) (probs : List Nat) : FseTab :=
  let size := 2 ^ log
  let ps := probs.zip (List.range probs.length)
  let low := ps.filter (·.1 = 65536)
  let high := size - low.length
  let top := (low.zip (List.range low.length)).map fun p => (size - 1 - p.2, p.1.2)
  let cells := top ++ fseSpread size high (ps.flatMap fun p => if p.1 = 65536 then [] else List.replicate p.1 p.2) 0
  let symAt := (List.range size).map fun i => match cells.find? (·.1 = i) with | some c => c.2 | none => 0
  let (_, out) := symAt.foldl (fun (s : List (Nat × Nat) × List Fse) y =>
    let p := listGet 0 probs y
    let x := storeGet (fun _ => if p = 65536 then 1 else p) s.1 y
    let nb := log - Nat.log2 x
    (storePut s.1 y (x + 1), ⟨y, nb, x * 2 ^ nb - size⟩ :: s.2)) ([], [])
  ⟨log, out.reverse⟩

/-- The probabilities of an FSE description: `rem` cells remain; `zero`: repeat flags follow (RFC 8878, 4.1.1). Bits are read forward. -/
def fseProbs : Nat → Bool → Nat → List Nat → List Bool → Parse (List Nat × List Bool)
  | 0, _, _, _, _ => .error 1
  | f + 1, true, rem, acc, l =>
    match takeBits 2 l with
    | .error _ => .error 1
    | .ok (n, l) => fseProbs f (n = 3) rem (List.replicate n 0 ++ acc) l
  | f + 1, false, rem, acc, l =>
    if rem = 0 then .ok (acc.reverse, l)
    else
      let bits := Nat.log2 (rem + 1) + 1
      match takeBits bits (l ++ List.replicate (bits - l.length) false) with
      | .error _ => .error 1
      | .ok (v, r) =>
        let half := 2 ^ (bits - 1)
        let thr := 2 ^ bits - 1 - (rem + 1)
        let short := v % half < thr
        let v := if short then v % half else if half ≤ v then v - thr else v
        let r := if short then l.drop (bits - 1) else r
        if v = 0 then fseProbs f false (rem - 1) (65536 :: acc) r
        else if rem < v - 1 then .error 1
        else if v = 1 then fseProbs f true rem (0 :: acc) r
        else fseProbs f false (rem - (v - 1)) ((v - 1) :: acc) r

/-- Reads an FSE description of accuracy at most `maxLog`: the table and the bytes after it. -/
def fseRead (maxLog maxSym : Nat) (l : List Byte) : Parse (FseTab × List Byte) := do
  let bs := bitsOf (l.take 512)
  let (a, r) ← takeBits 4 bs
  if maxLog < a + 5 then .error 1
  else
    let (ps, r) ← fseProbs 600 false (2 ^ (a + 5)) [] r
    if maxSym < ps.length then .error 1
    else .ok (fseBuild (a + 5) ps, l.drop ((bs.length - r.length + 7) / 8))

/-- The entry of a state. -/
def FseTab.at_ (t : FseTab) (s : Nat) : Fse := listGet noFse t.tab s

/-- Two interleaved FSE states, until the stream is exhausted (RFC 8878, 4.2.1.2). -/
def fsePair (t : FseTab) : Nat → Nat → Nat → Bits → Parse (List Nat)
  | 0, _, _, _ => .error 1
  | f + 1, s1, s2, b =>
    let e := t.at_ s1
    if b.n < e.bits then .ok [e.sym, (t.at_ s2).sym]
    else do
      let (x, b) ← b.take e.bits
      let r ← fsePair t f s2 (e.base + x) b
      .ok (e.sym :: r)

/-- A Huffman table of literals: (first cell, end cell, symbol, bits) over 2^`max` cells. -/
structure HufTab where
  max : Nat
  cells : List (Nat × Nat × Nat × Nat)

/-- The table of a list of weights, the last of which is implied (RFC 8878, 4.2.1). -/
def hufBuild (ws : List Nat) : Parse HufTab :=
  let sum := (ws.map fun w => if w = 0 then 0 else 2 ^ (w - 1)).sum
  if sum = 0 then .error 1
  else
    let mx := Nat.log2 sum + 1
    let left := 2 ^ mx - sum
    if 11 < mx ∨ left ≠ 2 ^ Nat.log2 left then .error 1
    else
      let ws := ws ++ [Nat.log2 left + 1]
      let ss := ws.zip (List.range ws.length)
      let order := ((List.range (mx + 1)).drop 1).flatMap fun w => ss.filter (·.1 = w)
      .ok ⟨mx, (order.foldl (fun (a : Nat × List (Nat × Nat × Nat × Nat)) p =>
        (a.1 + 2 ^ (p.1 - 1), a.2 ++ [(a.1, a.1 + 2 ^ (p.1 - 1), p.2, mx + 1 - p.1)])) (0, [])).2⟩

/-- Reads a Huffman tree description. -/
def hufRead (l : List Byte) : Parse (HufTab × List Byte) :=
  match l with
  | [] => .error 1
  | h :: l =>
    let n := h.toNat
    if 128 ≤ n then
      let k := n - 127
      if l.length < (k + 1) / 2 then .error 1
      else do
        let ws := ((l.take ((k + 1) / 2)).flatMap fun b => [b.toNat / 16, b.toNat % 16]).take k
        let t ← hufBuild ws
        .ok (t, l.drop ((k + 1) / 2))
    else if l.length < n then .error 1
    else do
      let (t, r) ← fseRead 6 12 (l.take n)
      let b ← backBits r
      let (s1, b) ← b.take t.log
      let (s2, b) ← b.take t.log
      let ws ← fsePair t 256 s1 s2 b
      let t ← hufBuild ws
      .ok (t, l.drop n)

/-- The literals of one Huffman stream; it ends exactly at its start. -/
def hufStream (t : HufTab) : Nat → Bits → Parse (List Byte)
  | 0, b => if b.n = 0 then .ok [] else .error 1
  | f + 1, b =>
    if b.n = 0 then .ok []
    else
      let c := b.peek t.max
      match t.cells.find? fun x => x.1 ≤ c ∧ c < x.2.1 with
      | none => .error 1
      | some (_, _, s, k) => do
        let (_, b) ← b.take k
        let r ← hufStream t f b
        .ok (BitVec.ofNat 8 s :: r)

/-- What a Zstandard frame carries from block to block. -/
structure ZState where
  huf : Option HufTab := none
  ll : Option FseTab := none
  off : Option FseTab := none
  ml : Option FseTab := none
  rep : List Nat := [1, 4, 8]

/-- The literals section of a compressed block (RFC 8878, 3.1.1.3.1). -/
def zLiterals (z : ZState) (l : List Byte) : Parse (List Byte × ZState × List Byte) :=
  match l with
  | [] => .error 1
  | h :: _ =>
    let typ := h.toNat % 4
    let fmt := h.toNat / 4 % 4
    if typ < 2 then
      let (hl, n) := if fmt % 2 = 0 then (1, h.toNat / 8) else if fmt = 1 then (2, leNat (l.take 2) / 16) else (3, leNat (l.take 3) / 16)
      let r := l.drop hl
      if typ = 0 then (if l.length < hl + n then .error 1 else .ok (r.take n, z, r.drop n))
      else match r with
        | [] => .error 1
        | b :: r => .ok (List.replicate n b, z, r)
    else
      let (hl, w) := if fmt < 2 then (3, 10) else if fmt = 2 then (4, 14) else (5, 18)
      let v := leNat (l.take hl) / 16
      let n := v % 2 ^ w
      let c := v / 2 ^ w % 2 ^ w
      if l.length < hl + c then .error 1
      else do
        let body := (l.drop hl).take c
        let (t, body) ← if typ = 2 then hufRead body else (match z.huf with | some t => .ok (t, body) | none => .error 1 : Parse (HufTab × List Byte))
        let one (m : Nat) (s : List Byte) : Parse (List Byte) := do
          let b ← backBits s
          let o ← hufStream t m b
          if o.length = m then .ok o else .error 1
        let out ← if fmt = 0 then one n body
          else if body.length < 6 then .error 1
          else
            let a := leNat (body.take 2)
            let b := leNat ((body.drop 2).take 2)
            let e := leNat ((body.drop 4).take 2)
            let s := body.drop 6
            let q := (n + 3) / 4
            if s.length < a + b + e ∨ n < 3 * q then .error 1
            else do
              let o1 ← one q (s.take a)
              let o2 ← one q ((s.drop a).take b)
              let o3 ← one q ((s.drop (a + b)).take e)
              let o4 ← one (n - 3 * q) (s.drop (a + b + e))
              .ok (o1 ++ o2 ++ o3 ++ o4)
        .ok (out, { z with huf := some t }, l.drop (hl + c))

/-- Default distribution of literal lengths. -/
def llDefault : FseTab := fseBuild 6 [4, 3, 2, 2, 2, 2, 2, 2, 2, 2, 2, 2, 2, 1, 1, 1, 2, 2, 2, 2, 2, 2, 2, 2, 2, 3, 2, 1, 1, 1, 1, 1, 65536, 65536, 65536, 65536]
/-- Default distribution of match lengths. -/
def mlDefault : FseTab := fseBuild 6 ([1, 4, 3, 2, 2, 2, 2, 2, 2] ++ List.replicate 37 1 ++ List.replicate 7 65536)
/-- Default distribution of offsets. -/
def offDefault : FseTab := fseBuild 5 ([1, 1, 1, 1, 1, 1, 2, 2, 2] ++ List.replicate 15 1 ++ List.replicate 5 65536)

/-- Baseline and extra bits of a literal-length code. -/
def llCode (c : Nat) : Nat × Nat :=
  if c < 16 then (c, 0) else if c < 20 then (16 + 2 * (c - 16), 1) else if c < 22 then (24 + 4 * (c - 20), 2)
  else if c < 24 then (32 + 8 * (c - 22), 3) else if c = 24 then (48, 4) else (2 ^ (c - 19), c - 19)

/-- Baseline and extra bits of a match-length code. -/
def mlCode (c : Nat) : Nat × Nat :=
  if c < 32 then (c + 3, 0) else if c < 36 then (35 + 2 * (c - 32), 1) else if c < 38 then (43 + 4 * (c - 36), 2)
  else if c < 40 then (51 + 8 * (c - 38), 3) else if c < 42 then (67 + 16 * (c - 40), 4) else if c = 42 then (99, 5)
  else (2 ^ (c - 36) + 3, c - 36)

/-- The table of a sequence field by its mode: predefined, one symbol, described, or repeated. -/
def zTable (mode : Nat) (dflt : FseTab) (old : Option FseTab) (maxLog maxSym : Nat) (l : List Byte) : Parse (FseTab × List Byte) :=
  match mode with
  | 0 => .ok (dflt, l)
  | 1 => match l with
    | [] => .error 1
    | b :: r => if maxSym ≤ b.toNat then .error 1 else .ok (⟨0, [⟨b.toNat, 0, 0⟩]⟩, r)
  | 2 => fseRead maxLog maxSym l
  | _ => match old with
    | some t => .ok (t, l)
    | none => .error 1

/-- The offset of an offset value, and the repeat offsets after it (RFC 8878, 3.1.1.5). -/
def zOffset (rep : List Nat) (v ll : Nat) : Nat × List Nat :=
  let r := listGet 0 rep
  if 3 < v then (v - 3, [v - 3, r 0, r 1])
  else
    let i := if ll = 0 then v else v - 1
    if i = 0 then (r 0, rep)
    else
      let o := if i = 3 then r 0 - 1 else r i
      (o, if i = 1 then [o, r 0, r 2] else [o, r 0, r 1])

/-- Executes `n` sequences: states, literals left, repeat offsets, newest-first history of which `win` bytes may be referred to. -/
def zSeqs (tl upto tm : FseTab) (win : Nat) : Nat → Nat → Nat → Nat → Bits → List Byte → List Nat → List Byte → Parse (List Byte × List Nat × List Byte)
  | 0, _, _, _, b, lits, rep, h => if b.n = 0 then .ok (lits, rep, h) else .error 1
  | n + 1, sl, so, sm, b, lits, rep, h => do
    let ol := tl.at_ sl
    let oo := upto.at_ so
    let om := tm.at_ sm
    if 31 < oo.sym then .error 1
    else
      let (x, b) ← b.take oo.sym
      let (y, b) ← b.take (mlCode om.sym).2
      let (w, b) ← b.take (llCode ol.sym).2
      let ll := (llCode ol.sym).1 + w
      let (k, rep) := zOffset rep (2 ^ oo.sym + x) ll
      if lits.length < ll then .error 1
      else
        let h := (lits.take ll).reverse ++ h
        if k = 0 ∨ h.length < k ∨ win < k then .error 1
        else
          let h := copyBack k ((mlCode om.sym).1 + y) h
          if n = 0 then zSeqs tl upto tm win 0 0 0 0 b (lits.drop ll) rep h
          else
            let (u, b) ← b.take ol.bits
            let (p, b) ← b.take om.bits
            let (q, b) ← b.take oo.bits
            zSeqs tl upto tm win n (ol.base + u) (oo.base + q) (om.base + p) b (lits.drop ll) rep h

/-- A compressed block (RFC 8878, 3.1.1.3). -/
def zBlock (z : ZState) (win : Nat) (h l : List Byte) : Parse (ZState × List Byte) := do
  let (lits, z, l) ← zLiterals z l
  match l with
  | [] => .error 1
  | a :: r =>
    let (n, r) ← if a.toNat < 128 then .ok (a.toNat, r)
      else if a.toNat < 255 then (match r with | b :: r => .ok ((a.toNat - 128) * 256 + b.toNat, r) | [] => .error 1)
      else (match r with | b :: c :: r => .ok (b.toNat + 256 * c.toNat + 0x7F00, r) | _ => .error 1 : Parse (Nat × List Byte))
    if n = 0 then (if r.isEmpty then .ok (z, lits.reverse ++ h) else .error 1)
    else match r with
    | [] => .error 1
    | m :: r =>
      if m.toNat % 4 ≠ 0 then .error 1
      else
        let (tl, r) ← zTable (m.toNat / 64) llDefault z.ll 9 36 r
        let (upto, r) ← zTable (m.toNat / 16 % 4) offDefault z.off 8 32 r
        let (tm, r) ← zTable (m.toNat / 4 % 4) mlDefault z.ml 9 53 r
        let b ← backBits r
        let (sl, b) ← b.take tl.log
        let (so, b) ← b.take upto.log
        let (sm, b) ← b.take tm.log
        let (lits, rep, h) ← zSeqs tl upto tm win n sl so sm b lits z.rep h
        .ok ({ z with ll := some tl, off := some upto, ml := some tm, rep := rep }, lits.reverse ++ h)

/-- A dictionary: identifier, tables and content (RFC 8878, 5); raw content when it carries no magic number. -/
def zDict (l : List Byte) : Parse (Nat × ZState × List Byte) :=
  if leNat (l.take 4) ≠ 0xEC30A437 ∨ l.length < 8 then .ok (0, {}, l)
  else do
    let (hf, r) ← hufRead (l.drop 8)
    let (upto, r) ← fseRead 8 32 r
    let (tm, r) ← fseRead 9 53 r
    let (tl, r) ← fseRead 9 36 r
    if r.length < 12 then .error 1
    else .ok (leNat ((l.drop 4).take 4), { huf := some hf, ll := some tl, off := some upto, ml := some tm, rep := [leNat (r.take 4), leNat ((r.drop 4).take 4), leNat ((r.drop 8).take 4)] }, r.drop 12)

/-- The blocks of a frame: `base` the dictionary content, newest first; `out` the frame's bytes so far, newest first. -/
def zBlocks (total win bmax : Nat) (sum : Bool) (size : Option Nat) (base : List Byte) : Nat → ZState → List Byte → List Byte → Parse (List Byte) × List (Nat × List Byte)
  | 0, _, _, _ => (.error 1, [])
  | f + 1, z, out, l =>
    match takeBytes 3 l with
    | .error e => (.error e, [])
    | .ok (hd, r) =>
      let v := leNat hd
      let n := v / 8
      let typ := v / 2 % 4
      let body := if typ = 1 then takeBytes 1 r else takeBytes n r
      match body with
      | .error e => (.error e, [])
      | .ok (b, r) =>
        if typ = 3 ∨ bmax < n then (.error 1, [])
        else
          let res : Parse (ZState × List Byte) :=
            if typ = 0 then .ok (z, b.reverse ++ out)
            else if typ = 1 then .ok (z, List.replicate n (listGet 0 b 0) ++ out)
            else match zBlock z (win + base.length) (out ++ base) b with
              | .error e => .error e
              | .ok (z, h) => .ok (z, h.take (h.length - base.length))
          match res with
          | .error _ => (.error 1, [])
          | .ok (z, o2) =>
            let fresh := (o2.take (o2.length - out.length)).reverse
            let here := (total - r.length, fresh)
            if bmax < fresh.length then (.error 1, [])
            else if v % 2 = 1 then
              if size.any (· ≠ o2.length) then (.error 1, [])
              else if sum then
                match takeBytes 4 r with
                | .error e => (.error e, [])
                | .ok (c, r) => if leNat c ≠ xxh64 o2.reverse % 2 ^ 32 then (.error 1, []) else (.ok r, [(total - r.length, fresh)])
              else (.ok r, [here])
            else
              let (res, bs) := zBlocks total win bmax sum size base f z o2 r
              (res, here :: bs)

/-- Concatenated Zstandard frames; `dictId` and `dict` of the job (Table 10.5, Table 10.6). -/
def zFrom (total dictId : Nat) (dict : List Byte) : Nat → List Byte → Decoded
  | 0, _ => ⟨[], some 1⟩
  | f + 1, l =>
    if l.isEmpty then ⟨[], none⟩
    else match takeBytes 4 l with
    | .error e => ⟨[], some e⟩
    | .ok (m, r) =>
      if leNat m / 16 = 0x184D2A5 then
        match takeBytes 4 r with
        | .error e => ⟨[], some e⟩
        | .ok (n, r) => if r.length < leNat n then ⟨[], some 0⟩ else
          let d := zFrom total dictId dict f (r.drop (leNat n))
          ⟨(total - (r.length - leNat n), []) :: d.blocks, d.err⟩
      else if leNat m ≠ 0xFD2FB528 then ⟨[], some 1⟩
      else
        let fhd := (listGet 0 r 0).toNat
        let single := bit fhd 5
        let wl := if single then 0 else 1
        let dl := [0, 1, 2, 4].getD (fhd % 4) 0
        let fl := if fhd / 64 = 0 then (if single then 1 else 0) else 2 ^ (fhd / 64)
        if r.length < 1 + wl + dl + fl then ⟨[], some 0⟩
        else
          let wd := (listGet 0 r 1).toNat
          let did := leNat ((r.drop (1 + wl)).take dl)
          let fcs := leNat ((r.drop (1 + wl + dl)).take fl) + (if fl = 2 then 256 else 0)
          let win := if single then fcs else 2 ^ (10 + wd / 8) + 2 ^ (10 + wd / 8) / 8 * (wd % 8)
          if bit fhd 3 then ⟨[], some 1⟩
          else if 8388608 < win then ⟨[], some 2⟩
          else if did ≠ 0 ∧ did ≠ dictId then ⟨[], some 1⟩
          else match zDict dict with
          | .error e => ⟨[], some e⟩
          | .ok (_, z, content) =>
            let (res, bs) := zBlocks total win (min (max win 1) 131072) (bit fhd 2) (if fl = 0 then none else some fcs) content.reverse (r.length + 1) z [] (r.drop (1 + wl + dl + fl))
            match res with
            | .error e => ⟨bs, some e⟩
            | .ok r2 => let d := zFrom total dictId dict f r2
                        ⟨bs ++ d.blocks, d.err⟩

/-- Decodes concatenated Zstandard frames. [PRESUMED, log 14] -/
def zstdDecode (dictId : Nat) (dict src : List Byte) : Decoded := zFrom src.length dictId dict (src.length + 1) src

/-- A frame of raw blocks of at most 128 KiB with the options of FrameFlags. [DESIGN CHOICE, log 39] -/
def zstdStored (windowLog flags dictId : Nat) (src : List Byte) : List Byte :=
  let n := src.length
  let single := n ≤ 2 ^ windowLog
  let fcs := bit flags 2 ∨ single
  let fhd := (if fcs then 3 * 64 else 0) + (if single then 32 else 0) + (if bit flags 0 then 4 else 0) + (if dictId = 0 then 0 else 3)
  let bmax := min (2 ^ windowLog) 131072
  let cs := chunks bmax ((n + bmax - 1) / bmax) src
  let cs := if cs.isEmpty then [[]] else cs
  leBytes 4 0xFD2FB528 ++ leBytes 1 fhd ++ (if single then [] else leBytes 1 ((windowLog - 10) * 8)) ++ (if dictId = 0 then [] else leBytes 4 dictId)
    ++ (if fcs then leBytes 8 n else [])
    ++ (cs.zip (List.range cs.length)).flatMap (fun p => leBytes 3 ((if p.2 + 1 = cs.length then 1 else 0) + 8 * p.1.length) ++ p.1)
    ++ (if bit flags 0 then leBytes 4 (xxh64 src) else [])

end Sys2Proof.Machine
end

