-- ==== Sys2Proof/Machine/Engines.lean ====
section
/-! DEFINITION. Offload engines (10): taking a job, its checks, the units of work of each operation, stream-through, faults, completion,
and key slots. -/
namespace Sys2Proof.Machine

/-- The job that an entry of queue `queue` (0xFFFF firmware) asks for (R232). `raw` is the 128-byte entry of Table 10.2. -/
def Dev.jobOf (d : Dev) (queue : Nat) (raw : BitVec 1024) : Job :=
  let fw := queue = 0xFFFF
  let e := d.q queue
  let inst := if fw then ent raw 4 2 else qInst e
  { op := ent raw 0 1, flags := setBit (ent raw 1 1) 2 false, ctx := if fw ∨ qLoc e = 0 then ent raw 2 2 else qOwner e, inst := inst, gen := if fw then ent raw 6 1 else if qLoc e = 0 then d.instGen inst else (d.ctx (qOwner e)).gen, dom := if fw then ent raw 7 1 else qDomain e, src := ent raw 8 8, srcLen := ent raw 0x10 8, dst := ent raw 0x18 8, dstCap := ent raw 0x20 8, aux := ent raw 0x28 8, auxLen := ent raw 0x30 4, vol := ent raw 0x34 2, cls := ent raw 0x36 1, user := ent raw 0x48 8, params := ent raw 0x50 40, reserved := ent raw 0x78 4, queue := queue }

/-- A field of Params, by its offset in the descriptor (Table 10.5). -/
def Job.p (x : Job) (off len : Nat) : Nat := fieldOf x.params (off - 0x50) len
/-- SrcVolume. -/
def Job.srcVol (x : Job) : Bool := bit x.flags 3
/-- DstVolume. -/
def Job.dstVol (x : Job) : Bool := bit x.flags 4

/-- The child index of the engine that runs an operation's group (Table 10.1). -/
def opEngine (op e : Nat) : Bool :=
  if 0x10 ≤ op ∧ op ≤ 0x15 then e = 4 ∨ e = 5 else if op = 0x20 ∨ op = 0x21 then e = 6 else if 0x30 ≤ op ∧ op ≤ 0x32 then e = 7
  else if 0x40 ≤ op ∧ op ≤ 0x45 then e = 8 else false

/-- Bytes of Params that Table 10.5 names for an operation, as (offset, size). -/
def paramBytes (op : Nat) : List (Nat × Nat) :=
  if op < 0x20 then [(0x50, 8)] else if op < 0x30 then [(0x50, 5), (0x58, 16)] else if op < 0x40 then [(0x50, 3), (0x54, 12)]
  else if op < 0x42 then [(0x50, 3), (0x58, 16)] else if op < 0x44 then [(0x53, 1)] else [(0x50, 2), (0x54, 8)]

/-- Some byte of Params that the table does not name is not 0. -/
def Job.badReserved (x : Job) : Bool := ((paramBytes x.op).foldl (fun n p => setField n (p.1 - 0x50) p.2 0) x.params) ≠ 0

/-- Params and lengths of a compression operation. [DEDUCED, log 38] -/
def Job.badComp (x : Job) : Bool :=
  let enc := x.op % 2 = 0
  let lz := x.op = 0x14 ∨ x.op = 0x15
  let bml := x.p 0x52 1
  let wl := x.p 0x51 1
  (if enc then 3 < x.p 0x50 1 else x.p 0x50 1 ≠ 0) ∨
    (if ¬ enc then wl ≠ 0 else if x.op = 0x10 then wl ≠ 15 else if x.op = 0x12 then wl < 10 ∨ 23 < wl else wl ≠ 0) ∨
    (if lz then ¬ (bml = 16 ∨ bml = 18 ∨ bml = 20 ∨ bml = 22) else bml ≠ 0) ∨
    (if enc then 16 ≤ x.p 0x53 1 ∨ (¬ lz ∧ (bit (x.p 0x53 1) 1 ∨ bit (x.p 0x53 1) 3)) else x.p 0x53 1 ≠ 0) ∨
    (x.auxLen = 0 ∧ x.p 0x54 4 ≠ 0) ∨ (if lz then 65536 else 1048576) < x.auxLen

/-- Params and lengths of a scan. -/
def Job.badScan (x : Job) : Bool :=
  let r := x.p 0x50 2
  let w := x.p 0x52 1
  let t := x.p 0x54 1
  (if x.op = 0x20 then r = 0 ∨ 4096 < r ∨ w ≠ 0 ∨ x.srcLen % r ≠ 0 else r ≠ 0 ∨ ¬ (w = 1 ∨ w = 2 ∨ w = 4 ∨ w = 8) ∨ x.srcLen % w ≠ 0) ∨
    2 < x.p 0x53 1 ∨ t = 0 ∨ 16 < t ∨ x.auxLen ≠ 32 * t

/-- Params and lengths of an index operation. -/
def Job.badIndex (x : Job) : Bool :=
  let kw := x.p 0x50 1
  let sl := x.p 0x51 1
  let lim := x.p 0x52 1
  let n := x.p 0x58 8
  ¬ (kw = 8 ∨ kw = 16) ∨ x.srcLen % kw ≠ 0 ∨
    (if x.op = 0x32 then sl ≠ 0 ∨ lim ≠ 0 ∨ n = 0 ∨ 2 ^ 36 < n ∨ x.auxLen ≠ n * kw
     else sl < 10 ∨ 32 < sl ∨ n ≠ 0 ∨ lim = 0 ∨
       (if x.op = 0x30 then 64 < lim ∨ x.auxLen ≠ 2 ^ sl * 4 * (if kw = 8 then 16 else 32) else 16 < lim ∨ x.auxLen ≠ 2 ^ sl / 8))

/-- Params and lengths of a crypto or erasure-code operation. -/
def Job.badCrypto (x : Job) : Bool :=
  if x.op < 0x42 then
    let l := x.p 0x52 1
    255 < x.p 0x50 2 ∨ ¬ (l = 9 ∨ l = 12 ∨ l = 16) ∨ x.srcLen % 2 ^ l ≠ 0
  else if x.op < 0x44 then
    3 < x.p 0x53 1 ∨ (¬ bit (x.p 0x53 1) 1 ∧ x.srcLen % (if x.op = 0x42 then 64 else 128) ≠ 0)
  else
    let k := x.p 0x50 1
    let p := x.p 0x51 1
    let sb := x.p 0x54 4
    let er := x.p 0x58 4
    let ones := ((List.range 32).filter fun i => bit er i).length
    k = 0 ∨ 16 < k ∨ p = 0 ∨ 4 < p ∨ sb = 0 ∨ sb % 64 ≠ 0 ∨ 1048576 < sb ∨ x.srcLen ≠ 8 * (k + p) ∨
      (if x.op = 0x44 then er ≠ 0 else ones = 0 ∨ p < ones ∨ 2 ^ (k + p) ≤ er)

/-- The checks of R234, R245 and R246 for engine child index `e`. [DEDUCED, log 38] -/
def Dev.jobInvalid (d : Dev) (i : Nat) (x : Job) : Bool :=
  let e := i / 16 % 5 + 4
  let both := (0x10 ≤ x.op ∧ x.op ≤ 0x15) ∨ x.op = 0x40 ∨ x.op = 0x41
  let srcOnly := x.op = 0x20 ∨ x.op = 0x21 ∨ x.op = 0x42 ∨ x.op = 0x43
  ¬ opEngine x.op e ∨ x.reserved ≠ 0 ∨ 32 ≤ x.flags ∨ 4 ≤ x.cls ∨ 2 ^ 12 ≤ x.inst ∨ 2 ^ 40 ≤ x.srcLen ∨ (x.ctx = 0xFFFF ∧ x.queue ≠ 0xFFFF) ∨
    (x.srcVol ∧ ¬ both ∧ ¬ srcOnly) ∨ (x.dstVol ∧ ¬ both) ∨ (¬ x.srcVol ∧ ¬ x.dstVol ∧ x.vol ≠ 0) ∨ x.badReserved ∨
    (if x.op < 0x20 then x.badComp else if x.op < 0x30 then x.badScan else if x.op < 0x40 then x.badIndex else x.badCrypto) ∨
    (x.srcVol ∧ (x.srcLen % 4096 ≠ 0 ∨ ¬ d.volHolds x.vol x.src x.srcLen)) ∨ (x.dstVol ∧ ¬ d.volHolds x.vol x.dst 0) ∨
    ((x.op = 0x40 ∨ x.op = 0x41) ∧ (let k := storeGet noKey d.eng.keys (256 * (i / 80) + x.p 0x50 2); k.owner = 0xFFFF ∨ k.owner ≠ x.inst))

/-- A free slot takes a job (R231, R234); the job of a context that has ended completes ABORTED (R220, R249). -/
def Dev.jobTake (d : Dev) (i queue : Nat) (raw : BitVec 1024) : Dev :=
  let x := d.jobOf queue raw
  let (k, d) := d.fresh
  let d := d.setSlot i { job := some { x with status := stRunning }, kind := 1, crc := 0xFFFFFFFF, pick := k }
  if queue ≠ 0xFFFF ∧ qLoc (d.q queue) = 1 ∧ d.ctxGone x.ctx then d.jobFinish i stAborted
  else if d.jobInvalid i x then d.jobFinish i stInvalid
  else if x.srcLen = 0 ∧ ¬ ((x.op = 0x42 ∨ x.op = 0x43) ∧ bit (x.p 0x53 1) 1) then d.jobFinish i stDone
  else d

/-- On whose behalf slot `i` works; the IOTLB is that of R231. -/
def slotWho (i : Nat) (x : Job) : Who :=
  { iu := slotUnit i, cu := uDma (i / 80) (9 + i / 16 % 5 % 4), ctx := x.ctx, inst := x.inst, gen := x.gen, tag := mkTag x.inst x.gen x.cls 0 x.dom (slotUnit i) (i % 16) (bit x.flags 1) }

/-- Output bytes so far: DEFLATE compression counts bits. -/
def Job.outBytes (x : Job) : Nat := if x.op = 0x10 then (x.outProg + 7) / 8 else x.outProg

/-- Reads source bytes `off` to `off + n − 1` of a job: from memory, or from staged volume blocks, the first missing one of which is
asked for (R246). -/
def Dev.srcRead (d : Dev) (i : Nat) (x : Job) (off n : Nat) : Got (List Byte) :=
  if ¬ x.srcVol then d.readVa (slotWho i x) (x.src + off) n
  else
    let s := d.slot i
    let b0 := (x.src + off) / 4096
    let bs := if n = 0 then [] else (List.range ((x.src + off + n - 1) / 4096 - b0 + 1)).map (b0 + ·)
    match bs.find? fun b => ¬ s.stage.any (·.1 = b) with
    | none =>
      let all := bs.flatMap fun b => match s.stage.find? (·.1 = b) with | some p => leBytes 4096 p.2 | none => []
      .ok ((all.drop (x.src + off - b0 * 4096)).take n) d
    | some b =>
      match d.gate (uSram (i / 80)) with
      | .refused d => .wait d
      | .stall d => .wait d
      | .open_ =>
        let d := d.setSlot i { s with job := s.job.map fun j => { j with vst := 1 }, vblk := b, wst := false }
        .wait (d.submitRead { id := 0, org := 2, ref := i, inst := x.inst, gen := x.gen, vol := x.vol, start := b * 4096, len := 4096 })

/-- What a unit of work gives: the slot and job after it, and bytes of output. -/
structure Work where
  s : JobSlot
  x : Job
  out : List Byte := []

/-- Folds bytes into a running CRC-32C. -/
def crcOn (c : Nat) (l : List Byte) : Nat := l.foldl crc32cUpdate c

/-- The stream a compression job produces for `src` (R238, Table 10.6): any conforming stream, a free choice, that decodes to the source
and is no longer than the stream of stored blocks; else that stream. [DESIGN CHOICE, log 39] -/
def compStream (x : Job) (pick : Nat) (dict src : List Byte) : List Byte :=
  let flags := x.p 0x53 1
  let stored := if x.op = 0x10 then deflateStored src else if x.op = 0x12 then zstdStored (x.p 0x51 1) flags (x.p 0x54 4) src
    else lz4Stored (x.p 0x52 1) flags src
  let c := (List.range (min (Config.compressedLen pick) stored.length)).map (Config.compressed pick)
  let r := if x.op = 0x10 then inflate c else if x.op = 0x12 then zstdDecode (x.p 0x54 4) dict c else lz4Decode dict c
  let hdr := if x.op = 0x14 then c.take 6 = stored.take 6 else if x.op = 0x12 then
      (listGet 0 c 4).getLsbD 2 = bit flags 0 ∧ (listGet 0 c 4).getLsbD 5 = decide (src.length ≤ 2 ^ x.p 0x51 1) else True
  if r.err.isNone ∧ r.blocks.flatMap (·.2) = src ∧ hdr then c else stored

/-- Decodes the stream of a job's format. [DESIGN CHOICE, log 39] -/
def jobDecode (x : Job) (dict l : List Byte) : Decoded :=
  if x.op < 0x12 then inflate l else if x.op < 0x14 then zstdDecode (x.p 0x54 4) dict l else lz4Decode dict l

/-- The dictionary at Aux. [DEDUCED, log 38] -/
def Dev.jobDict (d : Dev) (i : Nat) (x : Job) : Got (List Byte) :=
  if x.op < 0x12 ∨ x.auxLen = 0 then .ok [] d else d.readVa (slotWho i x) x.aux x.auxLen

/-- One block of a compression: it ends at an output block boundary (Table 10.8). [DESIGN CHOICE, log 39] -/
def compUnit (s : JobSlot) (x : Job) (dict src : List Byte) : Work :=
  let st := compStream x s.pick dict src
  let r := jobDecode x dict st
  let sc := if x.op = 0x10 then 8 else 1
  let at0 := (x.outProg + sc - 1) / sc
  match r.blocks.drop s.blk with
  | b :: _ :: _ => { s := { s with blk := s.blk + 1, crc := crcOn s.crc b.2 }, x := { x with inProg := x.inProg + b.2.length, outProg := b.1 }, out := (st.take ((b.1 + sc - 1) / sc)).drop at0 }
  | l => { s := { s with blk := s.blk + 1, crc := crcOn s.crc (l.flatMap (·.2)), fin := true }, x := { x with inProg := x.srcLen, outProg := st.length * sc }, out := st.drop at0 }

/-- One block of a decompression. [DEDUCED, log 38] -/
def decompUnit (s : JobSlot) (x : Job) (dict src : List Byte) : Work :=
  let r := jobDecode x dict src
  match r.blocks.drop s.blk with
  | b :: l => { s := { s with blk := s.blk + 1, crc := crcOn s.crc b.2, fin := l.isEmpty && r.err.isNone }, x := { x with inProg := b.1, outProg := x.outProg + b.2.length }, out := b.2 }
  | [] => { s := { s with fin := true, fst := match r.err with | none => stDone | some 2 => stUnsupported | some _ => stDataErr }, x := x }

/-- Comparison `c` of a term (R240). -/
def cmpHolds (c : Nat) (sg : Bool) (w v c0 c1 : Nat) : Bool :=
  let s (a n : Nat) : Int := if sg then signedOf n (a % 256 ^ n) else (a : Int)
  let x := s v w
  let a := s c0 8
  let b := s c1 8
  match c with
  | 0 => x = a | 1 => x ≠ a | 2 => x < a | 3 => x ≤ a | 4 => a < x | 5 => a ≤ x | 6 => a ≤ x ∧ x ≤ b
  | 7 => (unsignedOf 8 x) &&& c0 ≠ 0
  | _ => (unsignedOf 8 x) &&& c0 = c0

/-- The terms of a scan: 32 bytes each; none when one breaks R240. -/
def scanTerms (x : Job) (rec : Nat) (l : List Byte) : Option (List Nat) :=
  let ts := (chunks 32 (x.p 0x54 1) l).map leNat
  let ok (t : Nat) : Bool :=
    let off := fieldOf t 0 2
    let w := byteOf t 2
    (w = 1 ∨ w = 2 ∨ w = 4 ∨ w = 8) ∧ byteOf t 3 ≤ 8 ∧ byteOf t 4 ≤ 3 ∧ byteOf t 5 ≤ 1 ∧ fieldOf t 6 2 = 0 ∧ fieldOf t 24 8 = 0 ∧ off + w ≤ rec ∧
      (x.op = 0x20 ∨ (off = 0 ∧ w = rec))
  if ts.all ok then some ts else none

/-- A record passes the terms. -/
def recPasses (ts : List Nat) (r : List Byte) : Bool :=
  (List.range 4).all fun g =>
    let l := ts.filter fun t => byteOf t 4 = g
    l.isEmpty ∨ l.any fun t => cmpHolds (byteOf t 3) (byteOf t 5 = 1) (byteOf t 2) (leNat ((r.drop (fieldOf t 0 2)).take (byteOf t 2))) (fieldOf t 8 8) (fieldOf t 16 8)

/-- One record of a scan, or eight of them where a byte of bitmap is written (R240). -/
def Dev.scanUnit (d : Dev) (i : Nat) (s : JobSlot) (x : Job) : Got Work :=
  let rec_ := if x.op = 0x20 then x.p 0x50 2 else x.p 0x52 1
  let n0 := x.inProg / rec_
  let n := if x.p 0x53 1 = 0 then min 8 ((x.srcLen - x.inProg) / rec_) else 1
  match d.readVa (slotWho i x) x.aux (32 * x.p 0x54 1) with
  | .fault a b d => .fault a b d
  | .poison d => .poison d
  | .wait d => .wait d
  | .ok tl d =>
    match scanTerms x rec_ tl with
    | none => .ok { s := { s with fin := true, fst := stInvalid }, x := x } d
    | some ts =>
      match (if x.p 0x58 8 = 0 then .ok [255] d else d.readVa (slotWho i x) (x.p 0x58 8 + n0 / 8) 1 : Got (List Byte)) with
      | .fault a b d => .fault a b d
      | .poison d => .poison d
      | .wait d => .wait d
      | .ok pb d =>
        match d.srcRead i x x.inProg (n * rec_) with
        | .fault a b d => .fault a b d
        | .poison d => .poison d
        | .wait d => .wait d
        | .ok l d =>
          let recs := (chunks rec_ n l).zip (List.range n)
          let pass := recs.filter fun r => recPasses ts r.1 ∧ (listGet 0 pb 0).getLsbD (n0 % 8 + r.2)
          let out : List Byte := match x.p 0x53 1 with
            | 0 => [BitVec.ofNat 8 ((pass.map fun r => 2 ^ r.2).sum)]
            | 1 => pass.flatMap (·.1)
            | _ => pass.flatMap fun r => leBytes 8 (x.p 0x60 8 + n0 + r.2)
          let x2 := { x with inProg := x.inProg + n * rec_, outProg := x.outProg + out.length }
          .ok { s := { s with count := s.count + pass.length, result := s.count + pass.length, fin := decide (x.srcLen ≤ x2.inProg) }, x := x2, out := out } d

/-- HASH_PROBE: entries `m` of bucket `b + j` on (R241). -/
def Dev.hashProbe (d : Dev) (w : Who) (x : Job) (key b : Nat) : Nat → Nat → Got (Option Nat)
  | 0, _ => .ok none d
  | f + 1, m =>
    let esz := if x.p 0x50 1 = 8 then 16 else 32
    let kw := x.p 0x50 1
    let at_ := x.aux + (b + m / 4) % 2 ^ x.p 0x51 1 * 4 * esz + m % 4 * esz
    match d.readVa w at_ esz with
    | .fault a b d => .fault a b d
    | .poison d => .poison d
    | .wait d => .wait d
    | .ok l d =>
      let v := leNat ((l.drop kw).take 8)
      if v = 2 ^ 64 - 1 then .ok none d
      else if leNat (l.take kw) = key then .ok (some v) d
      else d.hashProbe w x key b f (m + 1)

/-- BLOOM_TEST: hash number `i` on. -/
def Dev.bloomTest (d : Dev) (w : Who) (x : Job) (h1 h2 : Nat) : Nat → Nat → Got Bool
  | 0, _ => .ok true d
  | f + 1, i =>
    let p := (h1 + i * h2) % 2 ^ x.p 0x51 1
    match d.readVa w (x.aux + p / 8) 1 with
    | .fault a b d => .fault a b d
    | .poison d => .poison d
    | .wait d => .wait d
    | .ok l d => match d.bloomTest w x h1 h2 f (i + 1) with
      | .ok r d => .ok (r && (listGet 0 l 0).getLsbD (p % 8)) d
      | g => g

/-- RUN_SEARCH: the lowest index at or above `lo`, and at most `hi`, whose entry is not below the key; the run is ascending. -/
def Dev.runSearch (d : Dev) (w : Who) (x : Job) (key : Nat) : Nat → Nat → Nat → Got Nat
  | 0, lo, _ => .ok lo d
  | f + 1, lo, hi =>
    if hi ≤ lo then .ok lo d
    else
      let m := (lo + hi) / 2
      match d.readVa w (x.aux + m * x.p 0x50 1) (x.p 0x50 1) with
      | .fault a b d => .fault a b d
      | .poison d => .poison d
      | .wait d => .wait d
      | .ok l d => if leNat l < key then d.runSearch w x key f (m + 1) hi else d.runSearch w x key f lo m

/-- One key of an index operation (R241). -/
def Dev.indexUnit (d : Dev) (i : Nat) (s : JobSlot) (x : Job) : Got Work :=
  let w := slotWho i x
  let kw := x.p 0x50 1
  match d.srcRead i x x.inProg kw with
  | .fault a b d => .fault a b d
  | .poison d => .poison d
  | .wait d => .wait d
  | .ok kb d =>
    let key := leNat kb
    let h (sd : Nat) := kb.foldl crc32cUpdate sd
    let sl := x.p 0x51 1
    let done (v : Nat) (hit : Bool) (d : Dev) : Got Work :=
      let x2 := { x with inProg := x.inProg + kw, outProg := x.outProg + 8 }
      let c := s.count + if hit then 1 else 0
      .ok { s := { s with count := c, result := c, fin := decide (x.srcLen ≤ x2.inProg) }, x := x2, out := leBytes 8 v } d
    match x.op with
    | 0x30 => match d.hashProbe w x key (h (x.p 0x54 4) % 2 ^ sl) (4 * x.p 0x52 1) 0 with
      | .fault a b d => .fault a b d
      | .poison d => .poison d
      | .wait d => .wait d
      | .ok r d => done (r.getD (2 ^ 64 - 1)) r.isSome d
    | 0x31 => match d.bloomTest w x (h (x.p 0x54 4)) (h (x.p 0x54 4 ^^^ 0x5BD1E995) ||| 1) (x.p 0x52 1) 0 with
      | .fault a b d => .fault a b d
      | .poison d => .poison d
      | .wait d => .wait d
      | .ok r d => done (if r then 1 else 0) r d
    | _ => match d.runSearch w x key 64 0 (x.p 0x58 8) with
      | .fault a b d => .fault a b d
      | .poison d => .poison d
      | .wait d => .wait d
      | .ok k d =>
        if k < x.p 0x58 8 then
          match d.readVa w (x.aux + k * kw) kw with
          | .fault a b d => .fault a b d
          | .poison d => .poison d
          | .wait d => .wait d
          | .ok l d => if leNat l = key then done (k + 2 ^ 63) true d else done k false d
        else done k false d

/-- One data unit of XTS (R242). -/
def Dev.xtsUnit (d : Dev) (i : Nat) (s : JobSlot) (x : Job) : Got Work :=
  let n := 2 ^ x.p 0x52 1
  let k := storeGet noKey d.eng.keys (256 * (i / 80) + x.p 0x50 2)
  match d.srcRead i x x.inProg n with
  | .fault a b d => .fault a b d
  | .poison d => .poison d
  | .wait d => .wait d
  | .ok l d =>
    let x2 := { x with inProg := x.inProg + n, outProg := x.outProg + n }
    .ok { s := { s with fin := decide (x.srcLen ≤ x2.inProg) }, x := x2, out := xts (x.op = 0x41) (leBytes 32 k.k1) (leBytes 32 k.k2) ((x.p 0x58 16 + x.inProg / n) % 2 ^ 128) l } d

/-- One block of a SHA job, or its end: the state from the initial value or from Aux, the digest to Dst or the state back to Aux (R243). -/
def Dev.shaUnit (d : Dev) (i : Nat) (s : JobSlot) (x : Job) : Got Work :=
  let p := if x.op = 0x42 then sha256P else sha384P
  let wb := p.w / 8
  let blk := 16 * wb
  let w := slotWho i x
  if s.hash.isEmpty then
    if bit (x.p 0x53 1) 0 then .ok { s := { s with hash := if x.op = 0x42 then iv256 else iv384 }, x := x } d
    else match d.readVa w x.aux (8 * wb + 8) with
      | .fault a b d => .fault a b d
      | .poison d => .poison d
      | .wait d => .wait d
      | .ok l d => .ok { s := { s with hash := (chunks wb 8 l).map beNat, bits := leNat (l.drop (8 * wb)) }, x := x } d
  else
    let n := min blk (x.srcLen - x.inProg)
    if n = blk then
      match d.srcRead i x x.inProg blk with
      | .fault a b d => .fault a b d
      | .poison d => .poison d
      | .wait d => .wait d
      | .ok l d => .ok { s := { s with hash := p.fold s.hash l, bits := (s.bits + 8 * blk) % 2 ^ 64 }, x := { x with inProg := x.inProg + blk } } d
    else if bit (x.p 0x53 1) 1 then
      match d.srcRead i x x.inProg n with
      | .fault a b d => .fault a b d
      | .poison d => .poison d
      | .wait d => .wait d
      | .ok l d =>
        let dg := p.out (p.fold s.hash (p.pad l (s.bits + 8 * n)))
        let dg := if x.op = 0x42 then dg else dg.take 48
        .ok { s := { s with fin := true }, x := { x with inProg := x.srcLen, outProg := dg.length }, out := dg } d
    else match d.writeVa w x.aux (s.hash.flatMap (beBytes wb) ++ leBytes 8 s.bits) with
      | .fault a b d => .fault a b d
      | .poison d => .poison d
      | .wait d => .wait d
      | .ok _ d => .ok { s := { s with fin := true }, x := x } d

/-- Reads 64 bytes at offset `o` of each strip of a list of (member, address). -/
def Dev.readStrips (d : Dev) (w : Who) (o : Nat) : List (Nat × Nat) → Got (List (Nat × List Byte))
  | [] => .ok [] d
  | (m, a) :: r => match d.readVa w (a + o) 64 with
    | .fault x b d => .fault x b d
    | .poison d => .poison d
    | .wait d => .wait d
    | .ok l d => match d.readStrips w o r with
      | .ok t d => .ok ((m, l) :: t) d
      | g => g

/-- Writes 64 bytes at offset `o` of each strip of a list of (address, bytes). -/
def Dev.writeStrips (d : Dev) (w : Who) (o : Nat) : List (Nat × List Byte) → Got Unit
  | [] => .ok () d
  | (a, b) :: r => match d.writeVa w (a + o) b with
    | .ok _ d => d.writeStrips w o r
    | g => g

/-- 64 bytes of every strip of a Reed–Solomon job (R244). -/
def Dev.rsUnit (d : Dev) (i : Nat) (s : JobSlot) (x : Job) : Got Work :=
  let w := slotWho i x
  let k := x.p 0x50 1
  let p := x.p 0x51 1
  let er := x.p 0x58 4
  match d.readVa w x.src (8 * (k + p)) with
  | .fault a b d => .fault a b d
  | .poison d => .poison d
  | .wait d => .wait d
  | .ok l d =>
    let ms := (List.range (k + p)).zip ((chunks 8 (k + p) l).map leNat)
    let ins := if x.op = 0x44 then ms.take k else (ms.filter fun m => ¬ bit er m.1).take k
    let outs := if x.op = 0x44 then ms.drop k else ms.filter fun m => bit er m.1
    match d.readStrips w x.inProg ins with
    | .fault a b d => .fault a b d
    | .poison d => .poison d
    | .wait d => .wait d
    | .ok have_ d =>
      let data := if x.op = 0x44 then have_.map (·.2) else rsData k have_ 64
      match d.writeStrips w x.inProg (outs.map fun m => (m.2, rsMember k m.1 data 64)) with
      | .fault a b d => .fault a b d
      | .poison d => .poison d
      | .wait d => .wait d
      | .ok _ d => .ok { s := { s with fin := decide (x.p 0x54 4 ≤ x.inProg + 64) }, x := { x with inProg := x.inProg + 64, outProg := x.outProg + 64 * outs.length } } d

/-- Offset of the first 4 KiB source unit in memory that carries Poison. -/
def Dev.poisonUnit (d : Dev) (i : Nat) (x : Job) : Nat :=
  4096 * ((List.range (x.srcLen / 4096 + 1)).find? fun k =>
    match d.readVa (slotWho i x) (x.src + 4096 * k) (min 4096 (x.srcLen - 4096 * k)) with | .poison _ => true | _ => false).getD 0

/-- One block of a stream. Where a source unit carries Poison, `src` ends below it: the blocks that end below it are done, and then the job meets the
Poison (Table 10.10). -/
def Dev.streamUnit (d : Dev) (s : JobSlot) (x : Job) (dict src : List Byte) : Got Work :=
  let enc := x.op % 2 = 0
  let w := if enc then compUnit s x dict src else decompUnit s x dict src
  if s.cut.isNone then .ok w d
  else
    let left := ((jobDecode x dict (if enc then compStream x s.pick dict src else src)).blocks.drop s.blk).length
    if left ≤ (if enc then 1 else 0) then .poison d else .ok { w with s := { w.s with fin := false } } d

/-- One unit of slot `i`'s job. [DEDUCED, log 38] -/
def Dev.jobUnit (d : Dev) (i : Nat) (s : JobSlot) (x : Job) : Got Work :=
  if x.op < 0x20 then
    match d.jobDict i x with
    | .fault a b d => .fault a b d
    | .poison d => .poison d
    | .wait d => .wait d
    | .ok dict d => match d.srcRead i x 0 (s.cut.getD x.srcLen) with
      | .fault a b d => .fault a b d
      | .poison e => .wait (e.setSlot i { s with cut := some (d.poisonUnit i x) })
      | .wait d => .wait d
      | .ok src d => d.streamUnit s x dict src
  else if x.op < 0x30 then d.scanUnit i s x
  else if x.op < 0x40 then d.indexUnit i s x
  else if x.op < 0x42 then d.xtsUnit i s x
  else if x.op < 0x44 then d.shaUnit i s x
  else d.rsUnit i s x

/-- The slot suspends on a translation fault (R249). -/
def Dev.jobFault (d : Dev) (i detail addr : Nat) : Dev :=
  let s := d.slot i
  match s.job with
  | none => d
  | some x =>
    let d := d.setSlot i { s with job := some { x with status := stSuspFault }, fault := d.faultRec s.fault 1 detail addr x.inProg (d.faultTag (slotWho i x) detail addr) 0 }
    (d.incU (slotUnit i) oTranslationFaults 64).quadMessage (i / 80)

/-- Counts what a unit consumed and produced. -/
def Dev.jobCount (d : Dev) (i : Nat) (x y : Job) : Dev :=
  let sc := if x.op = 0x11 then 8 else 1
  (d.incU (slotUnit i) oBytesIn 64 ((y.inProg - x.inProg) / sc)).incU (slotUnit i) oBytesOut 64 (y.outBytes - x.outBytes)

/-- Applies a unit's work: its output is written, unless it would exceed DstCapacity (R239). -/
def Dev.jobApply (d : Dev) (i : Nat) (x : Job) (w : Work) : Dev :=
  let keep := w.s.stage.filter fun p => w.x.op < 0x20 ∨ x.src + w.x.inProg < (p.1 + 1) * 4096
  let s2 := { w.s with job := some w.x, stage := keep }
  if ¬ w.out.isEmpty ∧ x.dstCap < w.x.outBytes then
    d.setSlot i { d.slot i with fin := true, fst := stOverflow }
  else if x.dstVol then (d.setSlot i { s2 with outBuf := s2.outBuf ++ w.out }).jobCount i x w.x
  else if w.out.isEmpty then (d.setSlot i s2).jobCount i x w.x
  else match d.writeVa (slotWho i x) (x.dst + x.outBytes) w.out with
    | .ok _ d => (d.setSlot i s2).jobCount i x w.x
    | .fault a b d => d.jobFault i a b
    | .poison d => d.jobFinish i stPoisoned
    | .wait d => d

/-- Takes in a volume transfer that has ended: a block read is staged, a block written leaves the output buffer. -/
def Dev.jobHarvest (d : Dev) (i : Nat) (s : JobSlot) (x : Job) : Dev :=
  let x := { x with vst := 0 }
  if s.wst then d.setSlot i { s with job := some x, wst := false, outBuf := s.outBuf.drop 4096, outBlk := s.outBlk + 1 }
  else d.setSlot i { s with job := some x, stage := s.stage ++ [(s.vblk, x.vdata)] }

/-- Writes the next block of output to the volume, its last one padded with zeros (R246). [DEDUCED, log 38] -/
def Dev.jobPut (d : Dev) (i : Nat) (s : JobSlot) (x : Job) : Dev :=
  let start := x.dst + 4096 * s.outBlk
  if ¬ d.volHolds x.vol start 4096 ∨ vState (d.vol x.vol) = 3 then d.jobFinish i stVolErr
  else
    (d.setSlot i { s with job := some { x with vst := 1 }, wst := true }).submit { id := 0, org := 2, ref := i, inst := x.inst, gen := x.gen, dom := x.dom, fence := bit x.flags 1, vol := x.vol, start := start, len := 4096, data := leNat (s.outBuf.take 4096) }

/-- Runs at most `n` units of slot `i`. -/
def Dev.jobRun (i : Nat) : Nat → Dev → Dev
  | 0, d => d
  | n + 1, d =>
    let s := d.slot i
    match s.job with
    | none => d
    | some x =>
      if x.status ≠ stRunning ∨ ¬ d.unitRuns (slotUnit i) ∨ x.gen ≠ d.instGen x.inst ∨ x.vst = 1 then d
      else if x.vst = 2 then Dev.jobRun i n (d.jobHarvest i s x)
      else if x.vst = 3 then
        if s.wst ∨ ¬ d.blockPoison x.vol s.vblk then d.jobFinish i stVolErr
        else if x.op < 0x20 ∧ s.cut.isNone then Dev.jobRun i n (d.setSlot i { s with job := some { x with vst := 0 }, cut := some (4096 * s.vblk - x.src) })
        else d.jobFinish i stPoisoned
      else if x.dstVol ∧ (4096 ≤ s.outBuf.length ∨ (s.fin ∧ ¬ s.outBuf.isEmpty)) then Dev.jobRun i n (d.jobPut i s x)
      else if s.fin then d
      else if (x.srcVol ∨ x.dstVol) ∧ vState (d.vol x.vol) = 3 then d.jobFinish i stVolErr
      else match d.jobUnit i s x with
        | .ok w d => Dev.jobRun i n (d.jobApply i x w)
        | .fault a b d => d.jobFault i a b
        | .poison d => d.jobFinish i stPoisoned
        | .wait d => Dev.jobRun i n d

/-- Slot `j` has work that it can do now. -/
def Dev.slotReady (d : Dev) (j : Nat) : Bool :=
  let s := d.slot j
  match s.job with
  | none => false
  | some x => x.status = stRunning ∧ x.gen = d.instGen x.inst ∧ x.vst ≠ 1 ∧ ¬ s.fin ∧ (match d.jobUnit j s x with | .wait _ => false | _ => true) = true

/-- No slot of a lower ServiceClass value in the engine of slot `i` has work (R236). Among slots of one class the row names the one that is served. [DEDUCED, log 38] -/
def Dev.slotTurn (d : Dev) (i cls : Nat) : Bool :=
  (List.range 16).all fun k => let j := i / 16 * 16 + k; ¬ ((d.slot j).job.any (·.cls < cls) ∧ d.slotReady j)

/-- A row of the engine operations: a free slot takes the job when its Op is the row's, or one that the engine does not have; then at
most `n` units of the slot's job run, when it is of the row's Op and it is the slot's turn. -/
def Dev.jobRow (d : Dev) (op i queue : Nat) (raw : BitVec 1024) (n : Nat) : Dev :=
  let d := if (d.slot i).job.isNone ∧ i < 320 ∧ d.unitRuns (slotUnit i) ∧ ¬ d.quiet then
      match d.takeEntry (slotUnit i) queue raw.toNat with
      | some (r, e) => if byteOf r 0 = op ∨ ¬ opEngine (byteOf r 0) (i / 16 % 5 + 4) then e.jobTake i queue (BitVec.ofNat 1024 r) else d
      | none => d
    else d
  match (d.slot i).job with
  | some x => if x.op = op ∧ d.slotTurn i x.cls then Dev.jobRun i n d else d
  | none => d

/-- DEFLATE_COMPRESS. -/
def Dev.deflateCompress (d : Dev) (i queue : Nat) (raw : BitVec 1024) (n : Nat) : Dev := d.jobRow 0x10 i queue raw n
/-- DEFLATE_DECOMPRESS. -/
def Dev.deflateDecompress (d : Dev) (i queue : Nat) (raw : BitVec 1024) (n : Nat) : Dev := d.jobRow 0x11 i queue raw n
/-- ZSTANDARD_COMPRESS. -/
def Dev.zstandardCompress (d : Dev) (i queue : Nat) (raw : BitVec 1024) (n : Nat) : Dev := d.jobRow 0x12 i queue raw n
/-- ZSTANDARD_DECOMPRESS. -/
def Dev.zstandardDecompress (d : Dev) (i queue : Nat) (raw : BitVec 1024) (n : Nat) : Dev := d.jobRow 0x13 i queue raw n
/-- LZ4_COMPRESS. -/
def Dev.lz4Compress (d : Dev) (i queue : Nat) (raw : BitVec 1024) (n : Nat) : Dev := d.jobRow 0x14 i queue raw n
/-- LZ4_DECOMPRESS. -/
def Dev.lz4Decompress (d : Dev) (i queue : Nat) (raw : BitVec 1024) (n : Nat) : Dev := d.jobRow 0x15 i queue raw n
/-- SCAN_ROW. -/
def Dev.scanRow (d : Dev) (i queue : Nat) (raw : BitVec 1024) (n : Nat) : Dev := d.jobRow 0x20 i queue raw n
/-- SCAN_COLUMN. -/
def Dev.scanColumn (d : Dev) (i queue : Nat) (raw : BitVec 1024) (n : Nat) : Dev := d.jobRow 0x21 i queue raw n
/-- HASH_PROBE. -/
def Dev.opHashProbe (d : Dev) (i queue : Nat) (raw : BitVec 1024) (n : Nat) : Dev := d.jobRow 0x30 i queue raw n
/-- BLOOM_TEST. -/
def Dev.opBloomTest (d : Dev) (i queue : Nat) (raw : BitVec 1024) (n : Nat) : Dev := d.jobRow 0x31 i queue raw n
/-- RUN_SEARCH. -/
def Dev.opRunSearch (d : Dev) (i queue : Nat) (raw : BitVec 1024) (n : Nat) : Dev := d.jobRow 0x32 i queue raw n
/-- XTS_ENCRYPT. -/
def Dev.xtsEncrypt (d : Dev) (i queue : Nat) (raw : BitVec 1024) (n : Nat) : Dev := d.jobRow 0x40 i queue raw n
/-- XTS_DECRYPT. -/
def Dev.xtsDecrypt (d : Dev) (i queue : Nat) (raw : BitVec 1024) (n : Nat) : Dev := d.jobRow 0x41 i queue raw n
/-- SHA_256. -/
def Dev.opSha256 (d : Dev) (i queue : Nat) (raw : BitVec 1024) (n : Nat) : Dev := d.jobRow 0x42 i queue raw n
/-- SHA_384. -/
def Dev.opSha384 (d : Dev) (i queue : Nat) (raw : BitVec 1024) (n : Nat) : Dev := d.jobRow 0x43 i queue raw n
/-- RS_ENCODE. -/
def Dev.rsEncode (d : Dev) (i queue : Nat) (raw : BitVec 1024) (n : Nat) : Dev := d.jobRow 0x44 i queue raw n
/-- RS_RECONSTRUCT. -/
def Dev.rsReconstruct (d : Dev) (i queue : Nat) (raw : BitVec 1024) (n : Nat) : Dev := d.jobRow 0x45 i queue raw n

/-- ENGINE_JOB_COMPLETE (R235): the work of slot `i` is done, and its record is posted; the CRC-32C of a stream is its result. -/
def Dev.engineComplete (d : Dev) (i : Nat) : Dev :=
  let s := d.slot i
  match s.job with
  | some x =>
    if s.fin ∧ x.vst = 0 ∧ s.outBuf.isEmpty ∧ x.status = stRunning ∧ d.unitRuns (slotUnit i) then
      (if x.op < 0x20 then d.setSlot i { s with result := s.crc ^^^ 0xFFFFFFFF } else d).jobFinish i s.fst
    else d
  | none => d

/-- Firmware resolves the fault of slot `i` and the slot resumes (R219, R249). -/
def Dev.jobResume (d : Dev) (i : Nat) : Dev :=
  let s := d.slot i
  match s.job with
  | none => d
  | some x =>
    let f := s.fault
    if x.status ≠ stSuspFault ∨ f.kind ≠ 1 then d
    else
      let go (d : Dev) : Dev :=
        let t := d.slot i
        if t.job.isNone then d
        else (d.setSlot i { t with job := t.job.map fun y => { y with status := stRunning }, fault := { f with kind := 0 } }).tlbInvalidate (asidOf x.inst x.ctx) false f.addr
      if (f.detail % 16 = 2 ∨ f.detail % 16 = 3) ∧ x.ctx < 1024 then
        match d.fwResolve x.ctx f.addr with
        | .done d => go d
        | .wait d => d
        | .lost d => (d.incU (slotUnit i) oFatalTranslationFaults).endCtx x.ctx 0x03 0x08 f.addr 0
      else go d

/-- Firmware ends the fault of slot `i` (R219, R249). -/
def Dev.jobFaultEnd (d : Dev) (i : Nat) : Dev :=
  match (d.slot i).job with
  | some x => if x.status = stSuspFault then (d.incU (slotUnit i) oFatalTranslationFaults).jobFinish i stTransErr else d
  | none => d

/-- DMA_CHANNEL_RESUME (R219, R249): of DMA channel `a`, or of job slot `a` − 1024. -/
def Dev.activityResume (d : Dev) (a : Nat) : Dev := if a < 1024 then d.dmaResume a else d.jobResume (a - 1024)

/-- DMA_FAULT_END (R219, R249): of DMA channel `a`, or of job slot `a` − 1024. -/
def Dev.activityFaultEnd (d : Dev) (a : Nat) : Dev := if a < 1024 then d.dmaFaultEnd a else d.jobFaultEnd (a - 1024)

/-- A value written to KeySlotLoad at crypto engine `u` (R245): refused while a job that names the slot holds a job slot. [DEDUCED, log 73] -/
def Dev.fxKeySlotLoad (d : Dev) (u v : Nat) : Reply :=
  let slot := fieldOf v 0 2
  let owner := fieldOf v 2 2
  let flags := fieldOf v 4 2
  if 255 < slot ∨ 1 < flags ∨ fieldOf v 6 2 ≠ 0 ∨ 4095 < owner then badValue d u
  else
    let busy := (List.range 16).any fun j => (d.slot (16 * engNo u + j)).job.any fun x => (x.op = 0x40 ∨ x.op = 0x41) ∧ x.p 0x50 2 = slot
    if busy then conflict d u
    else
      let k : KeySlot := if flags = 1 then {} else { owner := owner, k1 := fieldOf v 8 32, k2 := fieldOf v 40 32 }
      okR { d with eng := { d.eng with keys := storeSet noKey d.eng.keys (256 * (engNo u / 5) + slot) k } }

/-- KeySlotOwners of the crypto engine `u`. -/
def Dev.keyOwners (d : Dev) (u : Nat) : List Byte :=
  (List.range 256).flatMap fun s => leBytes 2 (storeGet noKey d.eng.keys (256 * (engNo u / 5) + s)).owner

end Sys2Proof.Machine
end

