-- ==== Sys2Proof/Machine/Loader.lean ====
section
/-! DEFINITION. Loading a program (R203, R204, R268): the checks of Table 8.14 on an ELF64 image, the tables of its address space, and
the state its context starts in; messages and kills on a program queue. -/
namespace Sys2Proof.Machine

/-- A PT_LOAD segment: virtual address, file offset, file and memory size, flags, alignment. -/
structure Seg where
  va : Nat
  off : Nat
  fsz : Nat
  msz : Nat
  flags : Nat
  align : Nat

/-- What a loader needs of an image. -/
structure Elf where
  dyn : Bool
  entry : Nat
  segs : List Seg
  scratch : Nat
  stack : Nat

/-- A little-endian field of a file. -/
def fileF (f : List Byte) (off len : Nat) : Nat := leNat ((f.drop off).take len)

/-- Flags of a segment are those of Table 8.14. -/
def segFlagsOk (fl : Nat) : Bool := fl % 2 ^ 28 < 8 ∧ ¬ (bit fl 1 ∧ bit fl 0) ∧ ¬ (bit fl 28 ∧ bit fl 29) ∧ fl / 2 ^ 30 = 0

/-- One segment meets Table 8.14. -/
def segOk (f : List Byte) (s : Seg) : Bool :=
  segFlagsOk s.flags ∧ 4096 ≤ s.align ∧ s.align = 2 ^ Nat.log2 s.align ∧ s.va % s.align = s.off % s.align ∧ s.fsz ≤ s.msz ∧ s.off + s.fsz ≤ f.length

/-- The note at `off` is the vendor's: its owner is "Lemnov" (Table 8.14). -/
def vendorNote (f : List Byte) (off len : Nat) : Bool :=
  let nsz := fileF f off 4
  18 ≤ len ∧ off + len ≤ f.length ∧ (nsz = 7 ∨ nsz = 6) ∧ (f.drop (off + 12)).take 6 = [0x4C, 0x65, 0x6D, 0x6E, 0x6F, 0x76]

/-- The vendor's note in a PT_NOTE range (Table 8.14): ScratchBytes and StackBytes. -/
def noteOf (f : List Byte) (off len : Nat) : Option (Nat × Nat) :=
  if 28 ≤ len ∧ fileF f (off + 4) 4 = 8 ∧ fileF f (off + 8) 4 = 1 then some (fileF f (off + 20) 4, fileF f (off + 24) 4) else none

/-- A dynamic section at `off` of `len` bytes names relocations: DT_PLTRELSZ, DT_RELASZ, DT_RELSZ or DT_RELRSZ is not 0. -/
def dynRelocs (f : List Byte) (off len : Nat) : Bool :=
  (List.range (len / 16)).any fun i =>
    let t := fileF f (off + 16 * i) 8
    (t = 2 ∨ t = 8 ∨ t = 18 ∨ t = 35) ∧ fileF f (off + 16 * i + 8) 8 ≠ 0

/-- The file carries relocations, which Table 8.14 allows none of: a section of type SHT_RELA, SHT_REL or SHT_RELR that is not empty, or a dynamic
segment that names some. [DEDUCED, log 84] -/
def hasRelocs (f : List Byte) (ph : List Nat) : Bool :=
  let sh := fileF f 0x28 8
  ((List.range (fileF f 0x3C 2)).any fun i =>
    let o := sh + i * fileF f 0x3A 2
    let t := fileF f (o + 4) 4
    (t = 4 ∨ t = 9 ∨ t = 19) ∧ fileF f (o + 0x20) 8 ≠ 0)
    || ph.any fun o => fileF f o 4 = 2 && dynRelocs f (fileF f (o + 8) 8) (fileF f (o + 0x20) 8)

/-- Parses and checks an image (Table 8.14): none when it breaks any row. Notes of other owners are ignored. [DEDUCED, log 84] -/
def parseElf (f : List Byte) : Option Elf :=
  let typ := fileF f 0x10 2
  let phoff := fileF f 0x20 8
  let phsz := fileF f 0x36 2
  let phn := fileF f 0x38 2
  let ph := (List.range phn).map fun i => phoff + i * phsz
  let t (o : Nat) := fileF f o 4
  let loads := (ph.filter fun o => t o = 1).map fun o => (⟨fileF f (o + 0x10) 8, fileF f (o + 8) 8, fileF f (o + 0x20) 8, fileF f (o + 0x28) 8, t (o + 4), fileF f (o + 0x30) 8⟩ : Seg)
  let notes := ph.filter fun o => t o = 4 && vendorNote f (fileF f (o + 8) 8) (fileF f (o + 0x20) 8)
  let entry := fileF f 0x18 8
  let note := match notes with
    | [] => some (0, 65536)
    | [o] => noteOf f (fileF f (o + 8) 8) (fileF f (o + 0x20) 8)
    | _ => none
  let basic := 64 ≤ f.length ∧ f.length ≤ 2 ^ 30 ∧ fileF f 0 4 = 0x464C457F ∧ fileF f 4 4 = 0x00010102 ∧ (typ = 2 ∨ typ = 3) ∧ fileF f 0x12 2 = 0xE7A1 ∧
    fileF f 0x14 4 = 1 ∧ (fileF f 0x30 4 = 0 ∨ fileF f 0x30 4 = 1) ∧ phsz = 56 ∧ phoff + phn * phsz ≤ f.length
  let disjoint := (loads.zip (List.range loads.length)).all fun a => (loads.zip (List.range loads.length)).all fun b =>
    a.2 = b.2 ∨ a.1.va + a.1.msz ≤ b.1.va ∨ b.1.va + b.1.msz ≤ a.1.va
  if ¬ basic ∨ loads.isEmpty ∨ 16 < loads.length ∨ ¬ loads.all (segOk f) ∨ ¬ disjoint ∨ entry % 4 ≠ 0 ∨ hasRelocs f ph ∨
      ¬ (loads.any fun s => bit s.flags 0 ∧ s.va ≤ entry ∧ entry < s.va + s.msz) then none
  else match note with
  | some (sc, st) => if (sc = 0 ∨ sc = 262144) ∧ st % 4096 = 0 ∧ 4096 ≤ st ∧ st ≤ 67108864 then some ⟨typ = 3, entry, loads, sc, st⟩ else none
  | none => none

/-- Adds a page to the frames a context holds. -/
def Dev.addPage (d : Dev) (p : PageEntry) : Dev := { d with mem := { d.mem with pages := d.mem.pages ++ [p] } }

/-- A new zeroed table page at level `lvl` covering `va` for context `c`. -/
def Dev.newTable (d : Dev) (c va lvl : Nat) : Option (Nat × Dev) :=
  match d.allocFrame 4096 with
  | none => none
  | some (pa, d) => some (pa, (d.zeroFrame pa 4096).addPage { ctx := c, phys := pa / 4096, va := va / 2 ^ (21 + 9 * lvl) * 2 ^ (21 + 9 * lvl), cls := 0, size := 0, table := true, level := lvl })

/-- Writes the level-0 entry of `va`, making the tables above it (R208, R209). -/
def Dev.mapLeaf (d : Dev) (c va entry : Nat) : Nat → Nat → Option Dev
  | 0, t => some (d.pokeLe (t + 8 * (va / 4096 % 512)) 8 entry)
  | l + 1, t =>
    let loc := t + 8 * (va / 2 ^ (12 + 9 * (l + 1)) % 512)
    let e := d.peekLe loc 8
    if bit e 0 then d.mapLeaf c va entry l (tePhys e)
    else match d.newTable c va l with
      | none => none
      | some (pa, d) => (d.pokeLe loc 8 (pa + 1)).mapLeaf c va entry l pa

/-- Class of a segment's pages: MUST-VAULT, MAY-DROP or NEVER-VAULT. -/
def segClass (fl : Nat) : Nat := if bit fl 28 then 1 else if bit fl 29 then 2 else 0

/-- Permission bits R, W, X as 1, 2, 4 of ELF flags (X 1, W 2, R 4). -/
def segPerms (fl : Nat) : Nat := (if bit fl 2 then 1 else 0) + (if bit fl 1 then 2 else 0) + (if bit fl 0 then 4 else 0)

/-- Maps one page of context `c` at `va` with bytes, or as a demand-zero page when it has none. -/
def Dev.loadPage (d : Dev) (c root va cls perms : Nat) (bytes : List Byte) : Option Dev :=
  if bytes.isEmpty then d.mapLeaf c va (cls * 2 ^ 60 + 0x200 + perms * 2 + 0x10) 3 root
  else match d.allocFrame 4096 with
    | none => none
    | some (pa, d) =>
      let d := (d.zeroFrame pa 4096).pokeN pa bytes
      (d.addPage { ctx := c, phys := pa / 4096, va := va, cls := cls, size := 0, table := false, level := 0 }).mapLeaf c va (cls * 2 ^ 60 + pa + perms * 2 + 0x11) 3 root

/-- The bytes of page `va` (a multiple of 4,096) of a segment loaded at `base`: the part of the file that falls in it. -/
def segPage (f : List Byte) (base : Nat) (s : Seg) (va : Nat) : List Byte :=
  let lo := base + s.va
  let hi := lo + s.fsz
  if hi ≤ va ∨ va + 4096 ≤ lo then []
  else if va < lo then List.replicate (lo - va) 0 ++ (f.drop s.off).take (min s.fsz (va + 4096 - lo))
  else (f.drop (s.off + (va - lo))).take (min (hi - va) 4096)

/-- A page of an image: its address, class, permissions and bytes. -/
structure ImgPage where
  va : Nat
  cls : Nat
  perms : Nat
  bytes : List Byte

/-- Maps pages of an image. -/
def Dev.loadPages (d : Dev) (c root : Nat) : List ImgPage → Option Dev
  | [] => some d
  | p :: r => match d.loadPage c root p.va p.cls p.perms p.bytes with
    | some d => d.loadPages c root r
    | none => none

/-- Page addresses of a range of bytes. -/
def pagesOf (va len : Nat) : List Nat := if len = 0 then [] else (List.range ((va + len - 1) / 4096 - va / 4096 + 1)).map fun i => (va / 4096 + i) * 4096

/-- Two parts of one page, which do not overlap, as one. -/
def mergeBytes (a b : List Byte) : List Byte :=
  if a.isEmpty then b else if b.isEmpty then a
  else (List.range (max a.length b.length)).map fun i => listGet 0 a i ||| listGet 0 b i

/-- Segment `s` loaded at `base` has bytes in page `va`. -/
def Seg.inPage (s : Seg) (base va : Nat) : Bool := s.msz ≠ 0 ∧ base + s.va < va + 4096 ∧ va < base + s.va + s.msz

/-- The page of an image at `va`: the bytes of every segment in it, the permissions of the last and the strictest class. [DESIGN CHOICE, log 93] -/
def imgPage (f : List Byte) (base : Nat) (segs : List Seg) (va : Nat) : ImgPage :=
  let here := segs.filter (·.inPage base va)
  { va := va, cls := ((here.map fun s => segClass s.flags).min?).getD 0, perms := here.foldl (fun _ s => segPerms s.flags) 0,
    bytes := here.foldl (fun b s => mergeBytes b (segPage f base s va)) [] }

/-- The pages of the segments, each once: those of a segment that no earlier one has (`seen`). -/
def imgVas (base : Nat) : List Seg → List Seg → List Nat
  | _, [] => []
  | seen, s :: r => ((pagesOf (base + s.va) s.msz).filter fun va => ¬ seen.any (·.inPage base va)) ++ imgVas base (s :: seen) r

/-- Pages of one class and permissions. -/
def plainPages (cls perms : Nat) (page : Nat → List Byte) (l : List Nat) : List ImgPage :=
  l.map fun va => { va := va, cls := cls, perms := perms, bytes := page va }

/-- A range of `len` bytes that meets none of `used`, from a free start; below the scratch window. [DESIGN CHOICE, log 40] -/
def freeRange (used : List (Nat × Nat)) (start len : Nat) : Nat :=
  let at_ (j : Nat) := (start / 4096 * 4096 + j * 2 ^ 27) % 2 ^ 47
  match (List.range (2 * used.length + 4)).find? fun j => used.all fun u => at_ j + len ≤ u.1 ∨ u.1 + u.2 ≤ at_ j with
  | some j => at_ j
  | none => at_ 0

/-- The initial state of R204. -/
def startCore (c base stackTop arg argLen : Nat) : Core :=
  let k : Core := { ctxid := BitVec.ofNat 64 c }
  ((((k.wb 0 (BitVec.ofNat 48 base)).wb 7 (BitVec.ofNat 48 0xFFFFFFF00000)).ww 30 (BitVec.ofNat 64 (stackTop / 64 * 64))).ww 1 (BitVec.ofNat 64 arg)).ww 2 (BitVec.ofNat 64 argLen)

/-- Firmware loads image `f` into context `c` with argument block `arg`: its tables, pages, save area and table entry. None when no
frame is left, or when a segment falls above 0xFFFF_FFF0_0000. [DESIGN CHOICE, log 40] -/
def Dev.loadImage (d : Dev) (c q core : Nat) (e : Elf) (f arg : List Byte) : Option Dev :=
  let (k, d) := d.fresh
  let base := if e.dyn then (Config.loadBase k).toNat % 2 ^ 46 / 2 ^ 20 * 2 ^ 20 else 0
  let used := e.segs.map fun s => ((base + s.va) / 4096 * 4096, s.msz + 8192)
  let stack := freeRange used (Config.argBase (2 * k)).toNat e.stack
  let argVa := freeRange ((stack, e.stack) :: used) (Config.argBase (2 * k + 1)).toNat (max arg.length 1)
  if ¬ e.segs.all fun s => base + s.va + s.msz ≤ 0xFFFFFFF00000 then none
  else match d.newTable c 0 3 with
  | none => none
  | some (root, d) =>
    let d := d.loadPages c root ((imgVas base [] e.segs).map (imgPage f base e.segs) ++ plainPages 0 3 (fun _ => []) (pagesOf stack e.stack)
      ++ plainPages 0 3 (fun va => (arg.drop (va - argVa)).take 4096) (pagesOf argVa arg.length))
    d.map fun d =>
      let inst := qInst (d.q q)
      let d := d.setCtx c { inst := inst, gen := d.instGen inst, st := 1, root := root, scratchCore := if e.scratch = 0 then 0xFFFF else uCoreN core }
      let pc := (base + e.entry) % 2 ^ 48
      let area := saveBytes (d.setCore core (startCore c base (stack + e.stack) argVa arg.length)) core 0 0 pc false
      let d := d.pokeN (saveAt c) area
      let d := if e.scratch = 0 then d else d.setCore core { d.core core with owner := c }
      (d.setInst inst 0x1E 2 (ent (d.inst inst) 0x1E 2 + 1)).sumPages

/-- A context entry that may be taken. -/
def Dev.freeContexts (d : Dev) : List Nat := (List.range 1024).filter fun c => let s := (d.ctx c).st; s = 0 ∨ s = 4

/-- Posts LOAD_REFUSED with `code`. -/
def Dev.loadRefused (d : Dev) (q code : Nat) : Dev :=
  d.postCq q 32 (d.instGen (qInst (d.q q))) (leBytes 1 5 ++ leBytes 1 code ++ leBytes 2 0xFFFF ++ List.replicate 28 0) (fun d c va l => d.fwStore c va l) 0

/-- Firmware serves program queues: the supervisor and the memory it writes are up, and no vault sequence runs. [DESIGN CHOICE, log 8] -/
def Dev.fwServes (d : Dev) (q : Nat) : Bool :=
  qKind (d.q q) = 3 ∧ qState (d.q q) = 1 ∧ d.instState (qInst (d.q q)) = 1 ∧ d.sup = 2 ∧ ¬ d.quiet ∧ ¬ d.halted

/-- PROGRAM_LOAD (R203, R204, R268): `image` and `arg` are what the host memory holds at ImageAddr and ArgAddr; `core` the core whose
scratch the context owns when its note asks for one. [DESIGN CHOICE, log 7; DESIGN CHOICE, log 8; DEDUCED, log 82] -/
def Dev.programLoad (d : Dev) (q core : Nat) (image arg : List Byte) : Dev :=
  if ¬ d.fwServes q then d
  else
    let e := d.q q
    let ie := d.inst (qInst e)
    if qBinding e ≠ 0xFFFF ∨ ¬ bit (ent ie 0x0B 1) 1 ∨ ent ie 0x1C 2 ≤ ent ie 0x1E 2 ∨ d.freeContexts.isEmpty then d.loadRefused q 2
    else match parseElf image with
    | none => d.loadRefused q 1
    | some el =>
      if 65536 < arg.length then d.loadRefused q 1
      else if el.scratch ≠ 0 ∧ (¬ d.present (uCoreN core) ∨ (d.core core).owner < 1024) then d.loadRefused q 2
      else
        let (k, d1) := d.fresh
        let l := d1.freeContexts
        let c := listGet 0 l (Config.contextNo k % l.length)
        match d1.loadImage c q core el image arg with
        | none => d.loadRefused q (if el.segs.all fun s => s.va + s.msz ≤ 0xFFFFFFF00000 then 2 else 1)
        | some d2 =>
          if pageListMax < d2.pageList.length then d.loadRefused q 2
          else (d2.setQf q 0x20 2 c).postProg q 4 0 c 0 0 0 0

/-- PROGRAM_MESSAGE (R268): the message is copied while more than the one entry kept for notices is free; WAIT then ends (R197). While the inbox header
is not resident firmware's read is a restore fault, and it is made again (R214). [DEDUCED, log 25] -/
def Dev.programMessage (d : Dev) (q : Nat) (payload : List Byte) : Dev :=
  let c := qBinding (d.q q)
  if ¬ d.fwServes q ∨ 1024 ≤ c then d
  else match d.inboxMissing q with
  | some d => d
  | none =>
    if d.inboxFree q ≤ 1 then d
    else d.inboxPut q (leBytes 1 1 ++ List.replicate 7 0 ++ (payload ++ List.replicate 56 0).take 56)

/-- PROGRAM_KILL (R268): ENDED with Code 0x00. -/
def Dev.programKill (d : Dev) (q : Nat) : Dev :=
  let c := qBinding (d.q q)
  if ¬ d.fwServes q ∨ 1024 ≤ c then d else d.endCtx c 0x03 0 0 0

end Sys2Proof.Machine
end

