-- ==== Sys2Proof/Machine/Insts.lean ====
section
/-! DEFINITION. Instances (R256 to R258, R270 to R276): creation, the reset timeline, the tables of namespaces and queues (R259, R265),
doorbells (R263, R264, R266), vectors (R269), fetching (R271), and the host link (R254). -/
namespace Sys2Proof.Machine

/-- Counts a reset of kind `k` (R414). -/
def Dev.resetKind (d : Dev) (k : Nat) : Dev :=
  let c := fieldOf (d.g oResetCounts) (2 * (k - 1)) 2
  (d.s oLastResetKind k).s oResetCounts (setField (d.g oResetCounts) (2 * (k - 1)) 2 (min 65535 (c + 1)))

/-- Instances that are not FREE. -/
def Dev.liveInsts (d : Dev) : List Nat :=
  (if d.instState 0 = 0 then [] else [0]) ++ ((d.insts.table.filter fun p => p.1 ≠ 0 ∧ ent p.2 2 1 ≠ 0).map (·.1))

/-- Recounts the queue pairs of instance `i`, and what the chip counts of instances. -/
def Dev.recount (d : Dev) (i : Nat) : Dev :=
  let d := d.setInst i 0x16 2 (d.queuesOf i).length
  (d.s oActiveInstances d.liveInsts.length).s oFreeQueuePairs (16384 - (d.insts.queues.filter fun p => qKind p.2 ≠ 0).length)

/-- FENCE of Table 11.11: the generation advances, and posted writes withheld under the old one are dropped. -/
def Dev.fence (d : Dev) (i : Nat) (remove : Bool) : Dev :=
  let d := (d.setInst i 3 1 ((d.instGen i + 1) % 256)).setInst i 2 1 (if remove then 3 else 2)
  let mine (o : Output) : Bool := match o.kind, o.args with
    | .cqe, q :: _ => qInst (d.q q) = i
    | .hostWrite, x :: _ => x = i
    | _, _ => false
  let n := (d.insts.withheld.filter mine).length
  let d := { d with insts := { d.insts with withheld := d.insts.withheld.filter fun o => ¬ mine o } }
  let d := d.inc oFencedDrops 64 n
  d.setIrun i { d.irun i with step := 2, remove := remove, start := d.now }

/-- FENCE to the next generation waits while a request of its earlier use might still complete (R274). -/
def Dev.fenceWaits (d : Dev) (i : Nat) : Bool :=
  (d.irun i).lastIssue.any fun p => p.1 = (d.instGen i + 1) % 256 ∧ d.now < p.2 + 55000

/-- The instance reset of R272: RESET joins a running reset, REMOVE turns it into a removal. [DEDUCED, log 42] -/
def Dev.instReset (d : Dev) (i : Nat) (remove : Bool) : Dev :=
  let x := d.irun i
  if x.step ≠ 0 then
    if remove then
      let d := d.setIrun i { x with remove := true }
      if x.step = 1 then d else d.setInst i 2 1 3
    else d
  else
    let d := (d.setCtrl i {}).resetKind 4
    if d.fenceWaits i then d.setIrun i { x with step := 1, remove := remove, start := d.now } else d.fence i remove

/-- A DRAIN under way at a resume counts its bound from then (R275). -/
def Dev.drainAgain (d : Dev) : Dev :=
  { d with insts := { d.insts with run := storeMapV noInstRun (fun _ x => if x.step = 3 then { x with start := d.now } else x) d.insts.run } }

/-- FENCE_WAIT_END (R274). -/
def Dev.fenceWaitEnd (d : Dev) (i : Nat) : Dev :=
  let x := d.irun i
  if x.step = 1 ∧ ¬ d.fenceWaits i then d.fence i x.remove else d

/-- Frees the descriptors and jobs of earlier generations of instance `i` (R272), with no completion. -/
def Dev.freeOld (d : Dev) (i : Nat) : Dev :=
  let old (inst gen : Nat) : Bool := inst = i ∧ gen ≠ d.instGen i
  let chs := (d.mem.chans.filter fun p => p.2.desc.any fun x => old x.inst x.gen).map (·.1)
  let d := chs.foldl (fun d c => (d.orphan 1 c).setCh c { d.ch c with desc := none, fault := { (d.ch c).fault with kind := 0 } }) d
  let sls := (d.eng.slots.filter fun p => p.2.job.any fun x => old x.inst x.gen).map (·.1)
  let d := sls.foldl (fun d c => (d.orphan 2 c).setSlot c {}) d
  { d with mem := { d.mem with preqs := d.mem.preqs.filter fun r => ¬ chs.contains r.chan } }

/-- Ends every context of earlier generations of instance `i`, with no completion (R201, R272). -/
def Dev.endOldCtx (d : Dev) (i : Nat) : Dev :=
  ((d.mem.contexts.filter fun p => p.2.inst = i ∧ p.2.gen ≠ d.instGen i ∧ p.2.st ≠ 0 ∧ p.2.st ≠ 4).map (·.1)).foldl (fun d k => d.endCtx k 0x03 0 0 0 false) d

/-- Drops the commands of earlier generations of instance `i`: reads, and writes not PLACED; a write-through under way goes on, and its
completion will be discarded. -/
def Dev.dropOldCmds (d : Dev) (i : Nat) : Dev :=
  let g := d.instGen i
  let ws := d.cache.writes.filter fun w => w.inst = i ∧ w.gen ≠ g ∧ w.org = 0 ∧ w.stage ≠ 3
  let d := ws.foldl (fun d w => (d.fillDropRef 2 w.id).dropWrite w.id) d
  let cs := d.insts.cmds.filter fun c => c.inst = i ∧ c.gen ≠ g ∧ c.org = 0
  let d := { d with restore := { d.restore with redo := d.restore.redo.filter fun w => ¬ (w.inst = i ∧ w.gen ≠ g) } }
  cs.foldl (fun d c => (d.fillDropRef 3 c.id).setCmds (d.insts.cmds.filter (·.id ≠ c.id))) d

/-- INSTANCE_HALT_COMPLETE (R272): nothing of the earlier generations runs. `outstanding`: their non-posted requests that have had no
completion. [DEDUCED, log 42] -/
def Dev.instHalt (d : Dev) (i outstanding : Nat) : Dev :=
  let x := d.irun i
  if x.step ≠ 2 then d
  else
    let d := ((d.endOldCtx i).freeOld i).dropOldCmds i
    (((d.setInst i 0x20 4 outstanding).setIrun i { x with step := 3 }).rejudge).throughKick

/-- Removes queue pair `q`. -/
def Dev.dropQueue (d : Dev) (q : Nat) : Dev := (d.setQ q (queueDefault q)).setQs q {}

/-- CLEAN and REPORT of Table 11.11, with the NOTIFY INSTANCE_RESET of R368. [DEDUCED, log 42; DEDUCED, log 74] -/
def Dev.instClean (d : Dev) (i : Nat) (timedOut : Bool) : Dev :=
  let x := d.irun i
  let d := (d.queuesOf i).foldl (fun d q =>
    if x.remove ∨ qKind (d.q q) = 1 then d.dropQueue q else (d.setQf q 3 1 0).setQs q {}) d
  let vb := ent (d.inst i) 0x18 2
  let d := (List.range (ent (d.inst i) 0x1A 2)).foldl (fun d k => d.setVec (vb + k) { d.vec (vb + k) with pending := false }) d
  let d := if x.remove then
      let nss := (d.insts.ns.filter fun p => nsInst p.2 = i ∧ nsId p.2 ≠ 0).map (·.1)
      let d := { d with insts := { d.insts with ns := storeKeep (fun k _ => ¬ nss.contains k) d.insts.ns } }
      ((d.setInst i 0x1A 2 0).setInst i 0x18 2 0).setInst i 2 1 0
    else d.setInst i 2 1 1
  let d := ((d.setIrun i { x with step := 0, remove := false }).setInst i 0x20 4 0).recount i
  ((d.tlbEmpty.record 0x600 0 uChip i (d.instGen i) (if timedOut then 1 else 0) (if x.remove then 1 else 0)).notify 0x05 i uChip).vector 0 0

/-- INSTANCE_DRAIN_END (R272): `arrived` completions of earlier generations arrive and are discarded; when none is outstanding, or 10 ms
after r0, the queues are cleaned and the reset is reported. [DEDUCED, log 42] -/
def Dev.instDrain (d : Dev) (i arrived : Nat) : Dev :=
  let x := d.irun i
  if x.step ≠ 3 then d
  else
    let n := ent (d.inst i) 0x20 4
    let k := min n arrived
    let d := (d.setInst i 0x20 4 (n - k)).inc oFencedDrops 64 k
    if n = k then d.instClean i false
    else if x.start + 10000 ≤ d.now then (d.inc oResetTimeouts).instClean i true
    else d

/-- HOST_COMPLETION_TIMEOUT (R253, R272): a request of an earlier generation is counted out of OutstandingOld. -/
def Dev.hostTimeout (d : Dev) (i : Nat) : Dev :=
  let n := ent (d.inst i) 0x20 4
  if (d.irun i).step = 3 ∧ 0 < n then d.setInst i 0x20 4 (n - 1) else d

/-- Instance `i` has dirty versions charged to it. -/
def Dev.hasDirty (d : Dev) (i : Nat) : Bool := d.cache.versions.any fun v => v.inst = i ∧ v.dirty

/-- A value written to InstanceCommand (R258). -/
def Dev.fxInstanceCommand (d : Dev) (v : Nat) : Reply :=
  let i := fieldOf v 0 2
  let act := byteOf v 2
  if 4095 < i ∨ act = 0 ∨ 3 < act ∨ byteOf v 3 ≠ 0 then badValue d uChip
  else
    let st := d.instState i
    if act = 1 then
      if st ≠ 0 ∨ d.hasDirty i then conflict d uChip else okR ((d.setInst i 2 1 1).recount i)
    else if st = 0 ∨ (act = 3 ∧ i = 0) then conflict d uChip
    else okR (d.instReset i (act = 3))

/-- Resets every ACTIVE instance, in ascending order (R272, R415). -/
def Dev.resetInsts (d : Dev) : Dev := (d.liveInsts.filter fun i => d.instState i = 1).foldl (fun d i => d.instReset i false) d

/-- FLR (R272): the function's own registers as PCI Express defines (Table 19.3), and every ACTIVE instance. -/
def Dev.flr (d : Dev) : Dev := d.functionReset.resetInsts

/-- Highest vector in use by the queues of instance `i`, plus one. -/
def Dev.vecsUsed (d : Dev) (i : Nat) : Nat :=
  ((d.queuesOf i).map fun q => let v := qVector (d.q q); if v = 0xFFFF then 0 else v + 1).foldl max 0

/-- A written instance entry meets Table 11.3 and R257. -/
def Dev.instEntryOk (d : Dev) (i : Nat) (e : BitVec 512) : Bool :=
  let old := d.inst i
  let vb := ent e 0x18 2
  let vc := ent e 0x1A 2
  let overlap := d.liveInsts.any fun j => j ≠ i ∧ 0 < vc ∧
    (let b := ent (d.inst j) 0x18 2; let c := ent (d.inst j) 0x1A 2; 0 < c ∧ vb < b + c ∧ b < vb + vc)
  ent e 0 2 = i ∧ ent e 4 4 < 2 ^ 20 ∧ 1 ≤ ent e 8 2 ∧ ent e 8 2 ≤ 1000 ∧ ent e 0x0A 1 ≤ 3 ∧ ent e 0x0B 1 ≤ 3 ∧
    1 ≤ ent e 0x14 2 ∧ ent e 0x14 2 ≤ 512 ∧ vb ≤ 8191 ∧ vc ≤ 2048 ∧ vb + vc ≤ 8192 ∧ ent e 0x1C 2 ≤ 1024 ∧ ent e 0x24 28 = 0 ∧ ¬ overlap ∧
    (ent old 2 1 = 0 ∨ (ent old 0x16 2 ≤ ent e 0x14 2 ∧ d.vecsUsed i ≤ vc ∧ ent old 0x1E 2 ≤ ent e 0x1C 2 ∧ (vb = ent old 0x18 2 ∨ ent old 0x1A 2 = 0)))

/-- Applies a written instance entry: the share of an instance in being waits for its epoch (R270). [DEDUCED, log 44] -/
def Dev.instEntryWrite (d : Dev) (i : Nat) (e : BitVec 512) : Dev :=
  let old := d.inst i
  let d := (((((d.setInst i 4 4 (ent e 4 4)).setInst i 0x0B 1 (ent e 0x0B 1)).setInst i 0x14 2 (ent e 0x14 2)).setInst i 0x18 2 (ent e 0x18 2)).setInst i 0x1A 2 (ent e 0x1A 2)).setInst i 0x1C 2 (ent e 0x1C 2)
  let share := ent e 8 12
  if ent old 2 1 = 0 then ((d.setInst i 8 3 share).setInst i 0x0C 8 (share / 2 ^ 32))
  else if setField share 3 1 0 = setField (ent old 8 12) 3 1 0 then d.setIrun i { d.irun i with pendingShare := none }
  else d.setIrun i { d.irun i with pendingShare := some (d.now, share) }

/-- Instance entry `i` as it is read: with a share change that waits for its epoch. -/
def Dev.instEntryRead (d : Dev) (i : Nat) : BitVec 512 :=
  match (d.irun i).pendingShare with
  | some (_, s) => setEnt (setEnt (d.inst i) 8 3 s) 0x0C 8 (s / 2 ^ 32)
  | none => d.inst i

/-- Splits written bytes into entries of `w` bytes, with their positions; none when offset or length is not a multiple of it. -/
def entriesOf (w off : Nat) (data : List Byte) : Option (List (Nat × Nat)) :=
  if data.isEmpty ∨ off % w ≠ 0 ∨ data.length % w ≠ 0 then none
  else some ((chunks w (data.length / w) data).zip (List.range (data.length / w)) |>.map fun p => (off / w + p.2, leNat p.1))

/-- A WRITE_BLOCK of InstanceTable (R256): every entry is checked as the ones before it leave the table; all or none apply. [DEDUCED, log 44] -/
def Dev.fxInstanceTable (d : Dev) (off : Nat) (data : List Byte) : Reply :=
  match entriesOf 64 off data with
  | none => badValue d uChip
  | some l =>
    match l.foldl (fun (o : Option Dev) p => o.bind fun d =>
      let e := BitVec.ofNat 512 p.2
      if p.1 < 4096 ∧ d.instEntryOk p.1 e then some (d.instEntryWrite p.1 e) else none) (some d) with
    | some d => okR (d.rejudge.throughKick)
    | none => badValue d uChip

/-- A written namespace entry meets R259. -/
def Dev.nsEntryOk (d : Dev) (k : Nat) (e : BitVec 128) : Bool :=
  nsId e = 0 ∨ (nsInst e < 4096 ∧ nsId e ≤ 1024 ∧ ent e 8 1 ≤ 1 ∧ ent e 9 1 ≤ 1 ∧ ent e 10 6 = 0 ∧ nsVol e < 4096 ∧ vLayout (d.vol (nsVol e)) ≠ 0 ∧
    ¬ d.insts.ns.any fun p => p.1 ≠ k ∧ nsInst p.2 = nsInst e ∧ nsId p.2 = nsId e)

/-- Writes namespace entry `k`; the controllers it touches raise Namespace Attribute Changed. -/
def Dev.nsEntryWrite (d : Dev) (k : Nat) (e : BitVec 128) : Dev :=
  let old := d.nsEntry k
  let e := if nsId e = 0 then 0 else e
  if e = old then d
  else
    let d := { d with insts := { d.insts with ns := storeSet nsDefault d.insts.ns k e } }
    let d := if nsId old = 0 then d else d.nsChanged (nsInst old) (nsId old)
    if nsId e = 0 ∨ (nsId old = nsId e ∧ nsInst old = nsInst e) then d else d.nsChanged (nsInst e) (nsId e)

/-- A WRITE_BLOCK of NamespaceTable (R259). -/
def Dev.fxNamespaceTable (d : Dev) (off : Nat) (data : List Byte) : Reply :=
  match entriesOf 16 off data with
  | none => badValue d uChip
  | some l =>
    match l.foldl (fun (o : Option Dev) p => o.bind fun d =>
      let e := BitVec.ofNat 128 p.2
      if p.1 < 16384 ∧ d.nsEntryOk p.1 e then some (d.nsEntryWrite p.1 e) else none) (some d) with
    | some d => okR d
    | none => badValue d uChip

/-- A written queue descriptor meets Table 11.6 and R265. -/
def Dev.queueEntryOk (d : Dev) (q : Nat) (e : BitVec 512) : Bool :=
  let old := d.q q
  let k := qKind e
  let i := qInst e
  let fresh := qKind old = 0
  ent e 0 2 = q ∧ (qKind old = 0 ∨ qKind old = k ∨ (k = 0 ∧ qKind old ≠ 1)) ∧
    (k = 0 ∨
      ((k = 2 ∨ k = 3) ∧ i < 4096 ∧ d.instState i = 1 ∧ (fresh → (d.queuesOf i).length < ent (d.inst i) 0x14 2) ∧ (fresh ∨ qInst old = i) ∧
        qLoc e ≤ 1 ∧ (if qLoc e = 1 then qSlot e = 0xFFFF ∧ qOwner e < 1024 else 1 ≤ qSlot e ∧ qSlot e ≤ 511 ∧ qOwner e = 0xFFFF ∧
          ¬ (d.queuesOf i).any fun p => p ≠ q ∧ qSlot (d.q p) = qSlot e) ∧
        qSqBase e % 64 = 0 ∧ qCqBase e % 64 = 0 ∧ 2 ≤ qSqEntries e ∧ qSqEntries e ≤ 65536 ∧ 2 ≤ qCqEntries e ∧ qCqEntries e ≤ 65536 ∧
        (qVector e = 0xFFFF ∨ qVector e < ent (d.inst i) 0x1A 2) ∧ ent e 0x32 14 = 0 ∧
        (if k = 2 then (let u := kindOf (qBinding e); (u = 0x05 ∨ u = 0x06 ∨ u = 0x07 ∨ u = 0x08 ∨ u = 0x09) ∧ qInboxVa e = 0 ∧ qInboxEntries e = 0)
         else (qBinding e = 0xFFFF ∨ (¬ fresh ∧ qBinding e = qBinding old)) ∧ 4 ≤ qInboxEntries e ∧ qInboxEntries e ≤ 4096)))

/-- Writes queue descriptor `q`: the queue is LIVE with its heads and tails 0. [DEDUCED, log 41] -/
def Dev.queueEntryWrite (d : Dev) (q : Nat) (e : BitVec 512) : Dev :=
  let i := if qKind e = 0 then qInst (d.q q) else qInst e
  (if qKind e = 0 then d.dropQueue q else (d.setQ q (setEnt e 3 1 1)).setQs q {}).recount i

/-- A WRITE_BLOCK of QueueTable (R265). -/
def Dev.fxQueueTable (d : Dev) (off : Nat) (data : List Byte) : Reply :=
  match entriesOf 64 off data with
  | none => badValue d uChip
  | some l =>
    match l.foldl (fun (o : Option Dev) p => o.bind fun d =>
      let e := BitVec.ofNat 512 p.2
      if p.1 < 16384 ∧ d.queueEntryOk p.1 e then some (d.queueEntryWrite p.1 e) else none) (some d) with
    | some d => okR d
    | none => badValue d uChip

/-- A queue enters ERROR (R264): its vector and a CQ entry of Kind ERROR. -/
def Dev.queueError (d : Dev) (q : Nat) : Dev :=
  (d.setQf q 3 1 2).postCq q 32 (d.instGen (qInst (d.q q))) (leBytes 1 7 ++ leBytes 1 0 ++ leBytes 2 0xFFFF ++ List.replicate 28 0) (fun d c va l => d.fwStore c va l) 1

/-- An invalid doorbell value (R264). -/
def Dev.badDoorbell (d : Dev) (q : Nat) : Dev :=
  if qKind (d.q q) = 1 then
    let i := qInst (d.q q)
    (d.setCtrl i { d.ctrl i with errors := (d.ctrl i).errors + 1 }).aen i 0x010100
  else d.queueError q

/-- Entries posted and not yet consumed lie from `head` to `tail`; `v` is a head among them. -/
def headOk (n head tail v : Nat) : Bool := (v + n - head % n) % n ≤ (tail + n - head % n) % n

/-- A doorbell of program queue `q` raises INTERRUPT Detail 0x00 (R195), for the context bound to it; from FREEZE on it is only recorded (R89). -/
def Dev.programDoorbell (d : Dev) (q : Nat) : Dev :=
  if qKind (d.q q) = 3 ∧ ¬ d.quiet then d.interruptCtx (qBinding (d.q q)) 0 else d

/-- A new SQ tail of queue `q` (R263, R264); written between FREEZE and the end of SHED it is pending (R89, R275). -/
def Dev.sqDoorbell (d : Dev) (q v : Nat) : Dev :=
  let e := d.q q
  let s := d.qs q
  if qSqEntries e ≤ v then d.badDoorbell q
  else
    let d := if qState e = 0 then d.setQf q 3 1 1 else d
    (d.setQs q { s with sqTail := v, doorbell := s.doorbell || d.quiet }).programDoorbell q

/-- A new CQ head of queue `q`. -/
def Dev.cqDoorbell (d : Dev) (q v : Nat) : Dev :=
  let e := d.q q
  let s := d.qs q
  if qCqEntries e ≤ v ∨ ¬ headOk (qCqEntries e) s.cqHead s.cqTail v then d.badDoorbell q else d.setQs q { s with cqHead := v }

/-- An ignored doorbell write (R263). -/
def Dev.doorbellIgnored (d : Dev) : Dev := d.inc oDoorbellErrors

/-- The writes a doorbell access makes: (slot, true for the CQ head, value); none when its size or alignment is wrong. -/
def doorbellParts (off len val : Nat) : Option (List (Nat × Bool × Nat)) :=
  if len = 4 ∧ off % 4 = 0 then some [(off / 8, off % 8 = 4, val % 2 ^ 32)]
  else if len = 8 ∧ off % 8 = 0 then some [(off / 8, false, val % 2 ^ 32), (off / 8, true, val / 2 ^ 32 % 2 ^ 32)]
  else none

/-- A write of one doorbell of slot `s` of instance `i`. -/
def Dev.doorbell1 (d : Dev) (i : Nat) (p : Nat × Bool × Nat) (control : Bool) : Dev :=
  let (s, cq, v) := p
  if d.instState i ≠ 1 ∨ (d.irun i).step ≠ 0 then d.doorbellIgnored
  else if s = 0 ∧ i ≠ 0 ∧ ¬ control then
    let c := d.ctrl i
    (d.setCtrl i (if cq then { c with gCq := v } else { c with gSq := v })).vector 0 1
  else match d.queueAt i s 0 with
  | none => d.doorbellIgnored
  | some q =>
    if qState (d.q q) = 2 then d.doorbellIgnored
    else if cq then d.cqDoorbell q v else d.sqDoorbell q v

/-- DOORBELL_WRITE (R262 to R264): `len` bytes at offset `off` of the doorbell page of instance `i`, or, with `control`, of the admin
doorbells at 0x800 of its control page. The host port takes it until SHED ends. -/
def Dev.doorbellWrite (d : Dev) (i : Nat) (control : Bool) (off len val : Nat) : Dev :=
  if d.sup ≠ 2 ∨ d.halted ∨ (5 ≤ d.vst ∧ d.vst ≤ 7) ∨ d.isolated uHost ∨ 4096 ≤ i then d
  else
    let o := if control then off - 0x800 else off
    match (if (control ∧ (off < 0x800 ∨ 0x808 ≤ off)) ∨ 4096 ≤ off then none else doorbellParts o len val) with
    | none => if control then d else d.doorbellIgnored
    | some l => l.foldl (fun d p => d.doorbell1 i p control) d

/-- CONTEXT_QUEUE_WATCH (R266): the front end of queue `q` reads SqTail and CqHead from the line below SqBase; while that line is not resident the
access is a restore fault, and it is made again (R214). -/
def Dev.contextWatch (d : Dev) (q : Nat) : Dev :=
  let e := d.q q
  if qKind e < 2 ∨ qLoc e ≠ 1 ∨ qState e = 2 ∨ d.instState (qInst e) ≠ 1 ∨ (d.irun (qInst e)).step ≠ 0 then d
  else match d.fwMissing (qOwner e) (qSqBase e - 64) with
  | some d => d
  | none =>
    let t := leNat (d.fwLoad (qOwner e) (qSqBase e - 64) 4)
    let h := leNat (d.fwLoad (qOwner e) (qSqBase e - 60) 4)
    let s := d.qs q
    if qSqEntries e ≤ t ∨ qCqEntries e ≤ h ∨ ¬ headOk (qCqEntries e) s.cqHead s.cqTail h then d.queueError q
    else
      let d := if qState e = 0 then d.setQf q 3 1 1 else d
      (d.setQs q { s with sqTail := t, cqHead := h, doorbell := s.doorbell || d.quiet }).programDoorbell q

/-- ARBITRATION_EPOCH (R270, R271): at a tick that is a multiple of 10, share changes at least 1 µs old take effect and fetch credits are
refreshed. -/
def Dev.epoch (d : Dev) : Dev :=
  if d.now % 10 ≠ 0 then d
  else
    let d := d.inc oEpochCount 64
    let d := d.liveInsts.foldl (fun d i =>
      let x := d.irun i
      let d := match x.pendingShare with
        | some (t, s) => if t + 1 ≤ d.now then (((d.setInst i 8 3 s).setInst i 0x0C 8 (s / 2 ^ 32)).setIrun i { x with pendingShare := none }).trimQuota i else d
        | none => d
      d.setIrun i { d.irun i with credits := ent (d.inst i) 8 2 }) d
    d.rejudge.throughKick

/-- Queue `q` has an entry to fetch. -/
def Dev.sqPending (d : Dev) (q : Nat) : Bool :=
  let e := d.q q
  let i := qInst e
  qState e = 1 ∧ d.instState i = 1 ∧ (d.irun i).step = 0 ∧ (d.qs q).sqHead ≠ (d.qs q).sqTail ∧ qSqEntries e ≠ 0

/-- Host queues of instance `i` with an entry to fetch. -/
def Dev.hostPending (d : Dev) (i : Nat) : List Nat := (d.queuesOf i).filter fun q => qKind (d.q q) = 1 ∧ d.sqPending q

/-- Strict ServiceClass order (R271): no instance of a lower class number has an entry and a credit. [DEDUCED, log 12] -/
def Dev.classTurn (d : Dev) (i : Nat) : Bool :=
  d.liveInsts.all fun j => ¬ (ent (d.inst j) 0x0A 1 < ent (d.inst i) 0x0A 1 ∧ 0 < (d.irun j).credits ∧ ¬ (d.hostPending j).isEmpty)

/-- The queues of an instance take turns (R271): the first with an entry above the one that fetched last, else the first; or that one again, while it has
fetched fewer entries in its turn than the Arbitration Burst of feature 0x01 allows (Table 11.4). [DEDUCED, log 12] -/
def Dev.queueTurn (d : Dev) (i q : Nat) : Bool :=
  let l := d.hostPending i
  let x := d.irun i
  let ab := storeGet (fun _ => 0) (d.ctrl i).features 0x01 % 8
  (match l.find? (x.lastQ < ·) with | some p => p | none => l.headD q) = q ∨ (q = x.lastQ ∧ (ab = 7 ∨ x.burst < 2 ^ ab))

/-- SQ_ENTRY_FETCH (R149, R266, R271): the next entry of queue `q` is fetched by what fetches its kind: from the host, which returns it, or from the ring
of a context. [DEDUCED, log 12; DEDUCED, log 82] -/
def Dev.sqFetch (d : Dev) (q : Nat) : Dev :=
  let e := d.q q
  let i := qInst e
  let x := d.irun i
  let host := qKind e = 1
  if ¬ d.sqPending q ∨ d.quiet ∨ (d.restore.hold ∧ qLoc e = 0) ∨ d.halted ∨ d.sup ≠ 2 ∨ (host ∧ (x.credits = 0 ∨ ¬ d.classTurn i ∨ ¬ d.queueTurn i q ∨ d.isolated uHost)) then d
  else
    let s := d.qs q
    let size := if qKind e = 2 ∧ kindOf (qBinding e) ≠ 0x09 then 128 else 64
    let at_ := qSqBase e + size * s.sqHead
    match (if qLoc e = 0 then none else d.fwMissing (qOwner e) at_) with
    | some d => d
    | none =>
      let got := if qLoc e = 1 ∧ qKind e = 2 then s.got ++ [leNat (d.fwLoad (qOwner e) at_ size)] else s.got
      let d := if qLoc e = 0 then (d.noteRequest i).emit .hostRead [i, at_, size, d.pasid i] else d
      let h := if s.sqHead + 1 = qSqEntries e then 0 else s.sqHead + 1
      let d := d.setQs q { s with sqHead := h, outstanding := s.outstanding + 1, doorbell := false, got := got }
      if host then d.setIrun i { d.irun i with credits := x.credits - 1, lastQ := q, burst := if q = x.lastQ then x.burst + 1 else 1 } else d

/-- The instance whose range holds vector `n`. -/
def Dev.vecOwner (d : Dev) (n : Nat) : Option Nat :=
  d.liveInsts.find? fun i => ent (d.inst i) 0x18 2 ≤ n ∧ n < ent (d.inst i) 0x18 2 + ent (d.inst i) 0x1A 2

/-- Delivers the pending message of an unmasked vector, once (R269). -/
def Dev.vecKick (d : Dev) (n : Nat) : Dev :=
  let x := d.vec n
  if ¬ x.pending ∨ x.mask ∨ (n < 2048 ∧ ¬ d.insts.msix) ∨ d.hostHeld then d
  else
    let d := d.setVec n { x with pending := false }
    match d.vecOwner n with
    | some i => d.emit .vector [n, x.addr, x.data, if x.pasid then d.pasid i else 2 ^ 32 - 1]
    | none => d

/-- VECTOR_UNMASK (R269): vector `n` is written with its message, unmasked; a pending message is delivered. -/
def Dev.vectorUnmask (d : Dev) (n addr data : Nat) (pasid : Bool) : Dev :=
  if 8192 ≤ n then d
  else (d.setVec n { d.vec n with addr := addr % 2 ^ 64, data := data % 2 ^ 32, mask := false, pasid := pasid && decide (2048 ≤ n) }).vecKick n

/-- Releases what the host port withheld: posted writes in order, then the pending vectors (R149). -/
def Dev.releaseHost (d : Dev) : Dev :=
  if d.hostHeld then d
  else
    let l := d.insts.withheld
    let d := l.foldl (fun d o => d.emit o.kind o.args o.data) { d with insts := { d.insts with withheld := [] } }
    (d.insts.vecs.map (·.1)).foldl Dev.vecKick d

/-- BUS_MASTER_ENABLE_SET (R149): MSI-X Enable and Bus Master Enable. -/
def Dev.busMasterSet (d : Dev) : Dev :=
  let d := { d with insts := { d.insts with msix := true, busMaster := true }, restore := { d.restore with hold := false } }
  d.releaseHost.redoKick.readKick

/-- HOST_LINK_TRAINED (R253, R254): the link reaches `gen` (PCIe generation) and `width`; page requests that wait for it are issued (R221). -/
def Dev.hostTrained (d : Dev) (gen width : Nat) : Dev :=
  if ¬ d.aon.perstN ∨ d.sup ≠ 2 ∨ ¬ d.pathOn uHost ∨ d.insts.detectHeld ∨ d.isolated uHost ∨ d.halted then d
  else if gen < 3 ∨ width < 4 then ({ d with insts := { d.insts with link := 0, linkGen := 0, linkWidth := 0, detectHeld := true } }).fault 13
  else
    let d := { d with insts := { d.insts with link := 1, linkGen := gen, linkWidth := width, detectHeld := false } }
    (if gen < 6 ∨ width < 16 then d.faultLive 14 else d.unlive 14).reissuePages

/-- Host readiness (R415): the instant at which host I/O is first accepted. -/
def Dev.hostReady (d : Dev) : Dev :=
  if d.restore.hostIo ∧ d.aon.perstN ∧ d.restore.readyTick.isNone then { d with restore := { d.restore with readyTick := some d.now } } else d

/-- PERST_N_RELEASE (R140, R141): its rising edge starts link training and the two clocks. -/
def Dev.perstRelease (d : Dev) : Dev :=
  if d.aon.perstN then d
  else
    ({ d with aon := { d.aon with perstN := true }, restore := { d.restore with configRetryOver := false }, insts := { d.insts with detectHeld := false } }).hostReady

end Sys2Proof.Machine
end

