-- ==== Sys2Proof/Machine/Admin.lean ====
section
/-! DEFINITION. NVMe controllers (R260 to R262): enabling and disabling, the admin commands, log pages and Identify data. -/
namespace Sys2Proof.Machine

/-- A free queue pair of the pool. -/
def Dev.freePair (d : Dev) : Option Nat :=
  let used := (d.insts.queues.filter fun p => qKind p.2 ≠ 0).map (·.1)
  (List.range 16384).find? fun q => ¬ used.contains q

/-- The controller of instance `i` may report RDY: no restore stands before RESUME (R140). -/
def Dev.mayReady (d : Dev) : Bool := d.sup = 2 ∧ d.vst ≠ 0x0A ∧ d.vst ≠ 0x0B ∧ (d.vst ≠ 0x0C ∨ d.restore.hostIo)

/-- While RESTORE runs, the host port answers configuration requests with RRS, until ConfigRetryLimit has passed since PERST_N release (R140). -/
def Dev.rrs (d : Dev) : Bool := d.vst = 0x0B ∧ ¬ d.restore.configRetryOver

/-- r_read of R138, in MB/s: at most 48,000, 3,000 for each populated vault channel, and 900 for each usable LUN. -/
def Dev.rRead (d : Dev) : Nat :=
  min 48000 (min (3000 * ((List.range 16).filter fun c => d.kennel.luns.any fun p => p.2.present ∧ p.1 / 16 = c).length) (900 * d.kennel.map.length))

/-- The bound of a full restore after power-good, in µs (Table 6.2). -/
def Dev.restoreBound (d : Dev) : Nat := 150000 + (d.g oImageBytes + d.rRead - 1) / d.rRead + 50000 + 10000

/-- CAP.TO in units of 500 ms: while RESTORE runs its bound less the time spent, plus 2, at most 255 (R140), otherwise 30 (Table 11.4). -/
def Dev.capTo (d : Dev) : Nat :=
  if d.vst = 0x0B then min 255 ((d.restoreBound - (d.now - d.g oPowerGoodTick) + 499999) / 500000 + 2) else 30

/-- Controller Capabilities as a control page reads it (Table 11.4, Table 11.5): MQES 65,535, CQR, TO, the NVM command set, and MPSMAX 64 KiB. -/
def Dev.capReg (d : Dev) : Nat := 65535 + 2 ^ 16 + d.capTo * 2 ^ 24 + 2 ^ 37 + 4 * 2 ^ 52

/-- CSTS.RDY of a controller that is enabled. -/
def Dev.readyCtrl (d : Dev) (i : Nat) : Dev :=
  let c := d.ctrl i
  if bit c.cc 0 ∧ d.mayReady then d.setCtrl i { c with csts := setBit c.csts 0 true } else d

/-- The Outage Report is due to a controller: it has entries, or data loss is unknown (R151). -/
def Dev.outageDue (d : Dev) (i : Nat) : Bool :=
  d.g oLostUnknown = 1 ∨ d.restore.lost.any fun r => d.insts.ns.any fun p => nsId p.2 ≠ 0 ∧ nsInst p.2 = i ∧ nsVol p.2 = r.vol

/-- Raises the Outage Report event at the controller of instance `i`, once the host has enabled it (R151): Vendor Specific, page 0xC0. -/
def Dev.outageEvent (d : Dev) (i : Nat) : Dev :=
  if bit (d.ctrl i).csts 0 ∧ d.outageDue i then d.aen i 0xC00007 else d

/-- CC_EN_SET (R262): CC.EN goes from 0 to 1 with the admin queues of AQA, ASQ and ACQ; RDY follows unless a restore is under way. -/
def Dev.ccSet (d : Dev) (i cc aqa asq acq : Nat) : Dev :=
  let c := d.ctrl i
  if d.instState i ≠ 1 ∨ (d.irun i).step ≠ 0 ∨ bit c.cc 0 ∨ ¬ bit cc 0 ∨ d.sup ≠ 2 then d
  else match (match d.adminQueue i with | some q => some q | none => d.freePair) with
  | none => d
  | some q =>
    let e := setEnt (setEnt (setEnt (setEnt (setEnt (setEnt (setEnt (setEnt (queueDefault q) 2 1 1) 3 1 1) 4 2 i) 8 8 asq) 0x10 8 acq) 0x18 4 (aqa % 4096 + 1)) 0x1C 4 (aqa / 65536 % 4096 + 1)) 0x26 2 0xFFFF
    let d := ((d.setQ q e).setQs q {}).setCtrl i { c with cc := cc % 2 ^ 32, csts := 0, aqa := aqa % 2 ^ 32, asq := asq % 2 ^ 64, acq := acq % 2 ^ 64, kaTick := d.now }
    ((d.recount i).readyCtrl i).outageEvent i

/-- CC_EN_CLEAR (R149, R262): CC.EN goes from 1 to 0 and performs the instance reset; restored work is aborted with it. -/
def Dev.ccClear (d : Dev) (i : Nat) : Dev :=
  if bit (d.ctrl i).cc 0 ∧ d.instState i = 1 ∧ ¬ d.inVault then d.instReset i false else d

/-- The admin queue of instance `i` is served. -/
def Dev.adminUp (d : Dev) (i : Nat) : Option Nat :=
  let c := d.ctrl i
  if d.instState i = 1 ∧ (d.irun i).step = 0 ∧ bit c.csts 0 ∧ ¬ bit c.csts 1 ∧ d.sup = 2 ∧ ¬ d.hostHeld ∧ ¬ d.halted ∧ ¬ d.isolated uHost then d.adminQueue i else none

/-- The admin queue of instance `i` is served, and no command fetched before an outage is to be aborted first (R148). -/
def Dev.adminReady (d : Dev) (i : Nat) : Option Nat := if (d.ctrl i).abortDue = 0 then d.adminUp i else none

/-- An admin command fetched before the outage, whose effect was not taken, is aborted (R148). -/
def Dev.adminAbort (d : Dev) (i cid : Nat) : Dev :=
  let c := d.ctrl i
  match d.adminUp i with
  | some q => if c.abortDue = 0 then d else (d.setCtrl i { c with abortDue := c.abortDue - 1 }).nvmeDone q cid scPowerLoss 0
  | none => d

/-- The HOST queue pair of instance `i` with identifier `qid`. -/
def Dev.hostQ (d : Dev) (i qid : Nat) : Option Nat := d.queueAt i qid 1

/-- The completion queue `qid` of instance `i` exists. -/
def Dev.cqExists (d : Dev) (i qid : Nat) : Bool := match d.hostQ i qid with | some q => decide (qCqEntries (d.q q) ≠ 0) | none => false

/-- The submission queue `qid` of instance `i` exists. -/
def Dev.sqExists (d : Dev) (i qid : Nat) : Bool := match d.hostQ i qid with | some q => decide (qSqEntries (d.q q) ≠ 0) | none => false

/-- A pair for queue identifier `qid`: the one that holds its other half, or a new one; else the status (R261). [DEDUCED, log 41] -/
def Dev.takePair (d : Dev) (i qid : Nat) : Except Nat (Nat × Dev) :=
  match d.hostQ i qid with
  | some q => .ok (q, d)
  | none =>
    if ent (d.inst i) 0x14 2 ≤ (d.queuesOf i).length ∨ (d.queueAt i qid 0).isSome then .error scQueueId
    else match d.freePair with
    | none => .error scQueueSize
    | some q =>
      let e := setEnt (setEnt (setEnt (setEnt (setEnt (setEnt (queueDefault q) 2 1 1) 3 1 1) 4 2 i) 6 2 qid) 0x22 2 0xFFFF) 0x26 2 0xFFFF
      .ok (q, ((d.setQ q e).setQs q {}).recount i)

/-- CREATE_IO_CQ (R261): `size` counts from 0; `vec` is the vector when interrupts are enabled. [DEDUCED, log 41] -/
def Dev.createCq (d : Dev) (i cid qid size prp : Nat) (contig : Bool) (vec : Option Nat) : Dev :=
  match d.adminReady i with
  | none => d.adminAbort i cid
  | some a =>
    if qid = 0 ∨ 511 < qid ∨ d.cqExists i qid then d.nvmeDone a cid scQueueId 0
    else if size = 0 ∨ 65535 < size then d.nvmeDone a cid scQueueSize 0
    else if ¬ contig then d.nvmeDone a cid scField 0
    else if vec.any fun v => ent (d.inst i) 0x1A 2 ≤ v then d.nvmeDone a cid 0x108 0
    else match d.takePair i qid with
    | .error s => d.nvmeDone a cid s 0
    | .ok (q, d) =>
      let e := setEnt (setEnt (setEnt (d.q q) 0x10 8 prp) 0x1C 4 (size + 1)) 0x22 2 (vec.getD 0xFFFF)
      ((d.setQ q e).setQs q { d.qs q with cqTail := 0, cqHead := 0, phase := true }).nvmeDone a cid scSuccess 0

/-- CREATE_IO_SQ (R261): the submission queue completes on the completion queue `cqid`. [DEDUCED, log 41] -/
def Dev.createSq (d : Dev) (i cid qid size prp : Nat) (contig : Bool) (cqid : Nat) : Dev :=
  match d.adminReady i with
  | none => d.adminAbort i cid
  | some a =>
    if qid = 0 ∨ 511 < qid ∨ d.sqExists i qid then d.nvmeDone a cid scQueueId 0
    else if size = 0 ∨ 65535 < size then d.nvmeDone a cid scQueueSize 0
    else if ¬ contig then d.nvmeDone a cid scField 0
    else if cqid = 0 ∨ ¬ d.cqExists i cqid then d.nvmeDone a cid scCqInvalid 0
    else match d.takePair i qid with
    | .error s => d.nvmeDone a cid s 0
    | .ok (q, d) =>
      let e := setEnt (setEnt (d.q q) 8 8 prp) 0x18 4 (size + 1)
      ((d.setQ q e).setQs q { d.qs q with sqHead := 0, sqTail := 0, cq := cqid }).nvmeDone a cid scSuccess 0

/-- Frees a pair of which neither half is left. -/
def Dev.pairCheck (d : Dev) (i q : Nat) : Dev :=
  if qSqEntries (d.q q) = 0 ∧ qCqEntries (d.q q) = 0 then (d.dropQueue q).recount i else d

/-- Aborts the commands of submission queue `q` with `status`. [DEDUCED, log 41] -/
def Dev.abortQueue (d : Dev) (q status : Nat) : Dev :=
  let d := (d.insts.cmds.filter fun c => c.org = 0 ∧ c.ref = q).foldl (fun d c => d.readAck c status 0) d
  (d.cache.writes.filter fun w => w.org = 0 ∧ w.ref = q).foldl (fun d w => d.writeAck w status) d

/-- DELETE_IO_SQ: its outstanding commands are aborted (Command Aborted due to SQ Deletion). -/
def Dev.deleteSq (d : Dev) (i cid qid : Nat) : Dev :=
  match d.adminReady i with
  | none => d.adminAbort i cid
  | some a =>
    match (if qid = 0 then none else d.hostQ i qid) with
    | none => d.nvmeDone a cid scQueueId 0
    | some q =>
      if qSqEntries (d.q q) = 0 then d.nvmeDone a cid scQueueId 0
      else
        let d := (d.abortQueue q 0x008).setQf q 0x18 4 0
        ((d.setQf q 8 8 0).pairCheck i q).nvmeDone a cid scSuccess 0

/-- DELETE_IO_CQ: refused while a submission queue completes on it. -/
def Dev.deleteCq (d : Dev) (i cid qid : Nat) : Dev :=
  match d.adminReady i with
  | none => d.adminAbort i cid
  | some a =>
    match (if qid = 0 then none else d.hostQ i qid) with
    | none => d.nvmeDone a cid scQueueId 0
    | some q =>
      if qCqEntries (d.q q) = 0 then d.nvmeDone a cid scQueueId 0
      else if (d.queuesOf i).any fun p => qKind (d.q p) = 1 ∧ qSlot (d.q p) ≠ 0 ∧ qSqEntries (d.q p) ≠ 0 ∧ (d.qs p).cq = qid then d.nvmeDone a cid scQueueDelete 0
      else
        let d := ((d.setQf q 0x1C 4 0).setQf q 0x10 8 0).setQf q 0x22 2 0xFFFF
        (d.pairCheck i q).nvmeDone a cid scSuccess 0

/-- Entries of the Outage Report for the namespaces of instance `i`: NSID, kind, start and count in LBAs. -/
def Dev.outageEntries (d : Dev) (i : Nat) : List (Nat × Nat × Nat × Nat) :=
  d.restore.lost.flatMap fun r =>
    (d.insts.ns.filter fun p => nsId p.2 ≠ 0 ∧ nsInst p.2 = i ∧ nsVol p.2 = r.vol).map fun p =>
      let k := 4096 / nsLba p.2
      (nsId p.2, r.kind, r.start * k, r.count * k)

/-- Source of the Outage Report (Table 6.5): 0 none, 1 DRAM, 2 RESTORE, 3 FETCH. -/
def Dev.outageSource (d : Dev) : Nat := if d.g oRestoreSource ≤ 1 then d.g oRestoreSource else if d.restore.fetch then 3 else 2

/-- The Outage Report log page (Table 6.5). -/
def Dev.outageReport (d : Dev) (i : Nat) : List Byte :=
  let lo := d.g oLastOutage
  let es := (d.outageEntries i).take 65536
  let n (k : Nat) := (((d.restore.lost.filter fun r => r.kind = k ∧ (d.insts.ns.any fun p => nsId p.2 ≠ 0 ∧ nsInst p.2 = i ∧ nsVol p.2 = r.vol))).map (·.count)).sum
  leBytes 1 1 ++ leBytes 1 d.outageSource ++ leBytes 1 (byteOf lo 2)
    ++ leBytes 1 ((if d.g oLostUnknown = 1 then 1 else 0) + (if d.restore.truncated ∨ 65536 < (d.outageEntries i).length then 2 else 0) + (if d.mem.msState then 4 else 0))
    ++ leBytes 4 es.length ++ leBytes 8 d.restore.seq ++ leBytes 8 (fieldOf lo 0x10 8) ++ leBytes 4 (fieldOf lo 4 4) ++ leBytes 4 (n 1) ++ leBytes 4 (n 2)
    ++ List.replicate 28 0 ++ es.flatMap fun e => leBytes 4 e.1 ++ leBytes 1 e.2.1 ++ List.replicate 3 0 ++ leBytes 8 e.2.2.1 ++ leBytes 8 e.2.2.2

/-- Admin opcodes of Table 11.4. -/
def adminOps : List Nat := [0x00, 0x01, 0x02, 0x04, 0x05, 0x06, 0x08, 0x09, 0x0A, 0x0C, 0x18]
/-- I/O opcodes of Table 11.4. -/
def ioOps : List Nat := [0x00, 0x01, 0x02, 0x04, 0x08]

/-- Commands Supported and Effects: CSUPP of each supported opcode, LBCC of those that write. -/
def effectsLog : List Byte :=
  (List.range 256).flatMap (fun o => leBytes 4 (if adminOps.contains o then 1 else 0)) ++
    (List.range 256).flatMap (fun o => leBytes 4 (if ioOps.contains o then (if o = 1 ∨ o = 4 ∨ o = 8 then 3 else 1) else 0)) ++ List.replicate 2048 0

/-- `n` bytes the spec does not fix: free values. [DESIGN CHOICE, log 43] -/
def freeBytes (k n : Nat) : List Byte := (List.range n).map (Config.identify k)

/-- A supported log page (Table 11.4); `k` is a free value's number. -/
def Dev.logPage (d : Dev) (i lid k : Nat) : Option (List Byte) :=
  match lid with
  | 0x01 => some (freeBytes k 16384)
  | 0x02 => some (leBytes 1 (d.ctrl i).smart ++ freeBytes k 511)
  | 0x04 => some (((d.ctrl i).changedNs.flatMap fun n => leBytes 4 n) ++ List.replicate (4096 - 4 * (d.ctrl i).changedNs.length) 0)
  | 0x05 => some effectsLog
  | 0xC0 => some (d.outageReport i)
  | _ => none

/-- A posted write of data to host memory under the current generation of instance `i`. -/
def Dev.hostData (d : Dev) (i addr : Nat) (data : List Byte) : Dev := d.hostPost i (d.instGen i) .hostWrite [i, addr] data

/-- GET_LOG_PAGE (R151, R260): `len` bytes from offset `off` of log `lid` to host address `dst`; reading page 0x04 clears it. -/
def Dev.getLogPage (d : Dev) (i cid lid off len dst : Nat) : Dev :=
  match d.adminReady i with
  | none => d.adminAbort i cid
  | some a =>
    let (k, d) := d.fresh
    match d.logPage i lid k with
    | none => d.nvmeDone a cid scLogPage 0
    | some l =>
      if l.length < off then d.nvmeDone a cid scField 0
      else
        let d := d.hostData i dst (((l.drop off) ++ List.replicate len 0).take len)
        let d := if lid = 4 then d.setCtrl i { d.ctrl i with changedNs := [] } else d
        d.nvmeDone a cid scSuccess 0

/-- Replaces bytes of a page from an offset. -/
def patch (l : List Byte) (off : Nat) (b : List Byte) : List Byte := l.take off ++ b ++ l.drop (off + b.length)

/-- Writes fields over a page. -/
def patchAll (l : List Byte) (fs : List (Nat × List Byte)) : List Byte := fs.foldl (fun l f => patch l f.1 f.2) l

/-- Identify Namespace: sizes, one LBA format, and the atomic write units of one 4 KiB block (R46, R259), which NSFEAT bit 1 says are given. Protection
information, metadata, sharing, reservations and deallocation are not advertised (R13). [DESIGN CHOICE, log 43] -/
def Dev.identNs (d : Dev) (e : BitVec 128) (k : Nat) : List Byte :=
  let n := vCap (d.vol (nsVol e)) * (4096 / nsLba e)
  let unit := 4096 / nsLba e - 1
  patchAll (freeBytes k 4096) [(0, leBytes 8 n ++ leBytes 8 n), (24, leBytes 1 2), (25, leBytes 9 0), (34, leBytes 2 unit ++ leBytes 2 unit),
    (0x80, leBytes 4 (if nsLba e = 512 then 9 * 65536 else 12 * 65536))]

/-- Identify Controller (R13, R46, Table 11.4): vendor, MDTS 8, version 2.0, namespace-attribute events, the effects log and log offsets, 64-byte and 16-byte
queue entries, 1,024 namespaces, Write Uncorrectable and Write Zeroes, no volatile write cache, an atomic write unit of one logical block (a namespace says
its 4 KiB), no SGL. What Table 11.4 does not list reads as not supported: multi-path, optional admin commands, power states, host memory buffer, RPMB,
self-test, thermal management, sanitize, fused operations, format. [DESIGN CHOICE, log 43] -/
def Dev.identCtrl (d : Dev) (k : Nat) : List Byte :=
  patchAll (freeBytes k 4096) [(0, leBytes 2 (d.g oPciVendorId)), (76, leBytes 1 0), (77, leBytes 1 8), (80, leBytes 4 0x00020000), (92, leBytes 4 0x100),
    (96, leBytes 4 0), (256, leBytes 2 0), (261, leBytes 1 6), (263, leBytes 1 0), (265, leBytes 1 0), (272, leBytes 8 0), (312, leBytes 8 0),
    (322, leBytes 2 0), (328, leBytes 4 0), (343, leBytes 1 0), (512, leBytes 1 0x66 ++ leBytes 1 0x44), (516, leBytes 4 1024), (520, leBytes 2 0x000A),
    (522, leBytes 2 0 ++ leBytes 1 0 ++ leBytes 1 0), (526, leBytes 2 0 ++ leBytes 2 0), (531, leBytes 1 0), (536, leBytes 4 0)]

/-- The active namespace list above `nsid`. -/
def Dev.identList (d : Dev) (i nsid : Nat) : List Byte :=
  let l := ((List.range 1025).filter fun n => nsid < n ∧ (d.nsFind i n).isSome).take 1024
  (l.flatMap fun n => leBytes 4 n) ++ List.replicate (4096 - 4 * l.length) 0

/-- IDENTIFY (R260): CNS 0 a namespace, 1 the controller, 2 the active namespaces. -/
def Dev.identify (d : Dev) (i cid cns nsid dst : Nat) : Dev :=
  match d.adminReady i with
  | none => d.adminAbort i cid
  | some a =>
    let (k, d) := d.fresh
    match cns with
    | 0 => match d.nsFind i nsid with
      | some e => (d.hostData i dst (d.identNs e k)).nvmeDone a cid scSuccess 0
      | none => if nsid = 0 ∨ 1024 < nsid then d.nvmeDone a cid scNamespace 0 else (d.hostData i dst (List.replicate 4096 0)).nvmeDone a cid scSuccess 0
    | 1 => (d.hostData i dst (d.identCtrl k)).nvmeDone a cid scSuccess 0
    | 2 => (d.hostData i dst (d.identList i nsid)).nvmeDone a cid scSuccess 0
    | _ => d.nvmeDone a cid scField 0

/-- ABORT (R260): a read, or a write that waits in the governor, is aborted; bit 0 of the result says that nothing was. -/
def Dev.abortCmd (d : Dev) (i cid sqid tgt : Nat) : Dev :=
  match d.adminReady i with
  | none => d.adminAbort i cid
  | some a =>
    match d.hostQ i sqid with
    | none => d.nvmeDone a cid scSuccess 1
    | some q =>
      match d.insts.cmds.find? fun c => c.org = 0 ∧ c.ref = q ∧ c.cid = tgt with
      | some c => (d.readAck c 0x007 0).nvmeDone a cid scSuccess 0
      | none => match d.cache.writes.find? fun w => w.org = 0 ∧ w.ref = q ∧ w.cid = tgt ∧ w.stage = 0 ∧ w.waiting with
        | some w => (d.writeAck w 0x007).nvmeDone a cid scSuccess 0
        | none => d.nvmeDone a cid scSuccess 1

/-- Features of Table 11.4. -/
def featureOk (f : Nat) : Bool := f = 0x01 ∨ f = 0x07 ∨ f = 0x08 ∨ f = 0x0B ∨ f = 0x0F

/-- A stored feature of instance `i`. -/
def Dev.feature (d : Dev) (i f : Nat) : Nat := storeGet (fun _ => 0) (d.ctrl i).features f

/-- Number of Queues allocated: I/O queues that MaxQueuePairs allows beside the admin queue, counted from 0 in both halves. [DEDUCED, log 41] -/
def Dev.numQueues (d : Dev) (i : Nat) : Nat := let n := ent (d.inst i) 0x14 2 - 2; n + n * 65536

/-- SET_FEATURES (R260): Number of Queues answers what is allocated; the Keep Alive Timer restarts. -/
def Dev.setFeatures (d : Dev) (i cid fid v : Nat) : Dev :=
  match d.adminReady i with
  | none => d.adminAbort i cid
  | some a =>
    if ¬ featureOk fid then d.nvmeDone a cid scField 0
    else if fid = 7 then d.nvmeDone a cid scSuccess (d.numQueues i)
    else
      let c := d.ctrl i
      let c := { c with features := storeSet (fun _ => 0) c.features fid (v % 2 ^ 32), kaTick := if fid = 0x0F then d.now else c.kaTick }
      (d.setCtrl i c).nvmeDone a cid scSuccess 0

/-- GET_FEATURES (R260). -/
def Dev.getFeatures (d : Dev) (i cid fid : Nat) : Dev :=
  match d.adminReady i with
  | none => d.adminAbort i cid
  | some a =>
    if ¬ featureOk fid then d.nvmeDone a cid scField 0
    else d.nvmeDone a cid scSuccess (if fid = 7 then d.numQueues i else d.feature i fid)

/-- ASYNCHRONOUS_EVENT_REQUEST (R260): held until an event completes it. -/
def Dev.asyncRequest (d : Dev) (i cid : Nat) : Dev :=
  match d.adminReady i with
  | none => d.adminAbort i cid
  | some a =>
    let c := d.ctrl i
    match c.events with
    | (_, dw0) :: r => (d.setCtrl i { c with events := r }).nvmeDone a cid scSuccess dw0
    | [] => d.setCtrl i { c with aers := c.aers ++ [cid] }

/-- KEEP_ALIVE (R260). -/
def Dev.keepAlive (d : Dev) (i cid : Nat) : Dev :=
  match d.adminReady i with
  | none => d.adminAbort i cid
  | some a => (d.setCtrl i { d.ctrl i with kaTick := d.now }).nvmeDone a cid scSuccess 0

/-- KEEP_ALIVE_TIMEOUT (R260): the controller stops with CSTS.CFS, as NVMe defines. [DESIGN CHOICE, log 43] -/
def Dev.keepAliveTimeout (d : Dev) (i : Nat) : Dev :=
  let c := d.ctrl i
  if bit c.csts 0 ∧ ¬ bit c.csts 1 ∧ d.feature i 0x0F ≠ 0 ∧ c.kaTick + d.feature i 0x0F * 1000 ≤ d.now then
    d.setCtrl i { c with csts := setBit c.csts 1 true, errors := c.errors + 1 }
  else d

/-- INVALID_COMMAND_OPCODE (R260): a command outside the subset, on an admin or an I/O queue. -/
def Dev.invalidOpcode (d : Dev) (q cid opc : Nat) : Dev :=
  let e := d.q q
  if qKind e = 1 ∧ qSlot e = 0 then
    (if ¬ adminOps.contains opc then (if d.adminReady (qInst e) = some q then d.nvmeDone q cid scOpcode 0 else d.adminAbort (qInst e) cid) else d)
  else if d.ioReady q ∧ ¬ ioOps.contains opc then d.nvmeDone q cid scOpcode 0 else d

/-- BUS_MASTER_ENABLE_SET (R140, R149): a configuration request that is answered RRS sets nothing. -/
def Dev.hostEnables (d : Dev) : Dev := if d.rrs then d else d.busMasterSet

end Sys2Proof.Machine
end

