-- ==== Sys2Proof/Machine/Power.lean ====
section
/-! DEFINITION. Power supervision (14): rails and their states, the power-up and power-down sequences, regulator buses, margining, core
voltage scaling, and the power button. -/
namespace Sys2Proof.Machine

/-- Rail `r`. -/
def Dev.rail (d : Dev) (r : Nat) : Rail := storeGet noRail d.power.rails r

/-- Replaces rail `r`. -/
def Dev.setRail (d : Dev) (r : Nat) (x : Rail) : Dev := { d with power := { d.power with rails := storeSet noRail d.power.rails r x } }

/-- A rail object in force: levels and debounce act at COMMIT, every other since the last power-up sequence (R318); the Nominal of an
AVSBus rail follows its operating point (R332). -/
def Dev.ra (d : Dev) (o r : Nat) : Nat :=
  if 0x200003 ≤ o ∧ o ≤ 0x200007 ∨ (o = oNominal ∧ r < 4) then d.gr o r else storeGet dictD d.power.applied (dkey uSup (oRail o r))

/-- RailState of rail `r` (Table 14.3). -/
def Dev.rst (d : Dev) (r : Nat) : Nat := d.gr oRailState r

/-- Flag bit `i` of rail `r` in force. -/
def Dev.railFlag (d : Dev) (r i : Nat) : Bool := bit (d.ra oFlags r) i

/-- The commanded rails. -/
def cmdRails : List Nat := List.range 16

/-- Enabled commanded rails. -/
def Dev.enRails (d : Dev) : List Nat := cmdRails.filter fun r => d.railFlag r 0

/-- Parents of rail `r`. -/
def Dev.parentsR (d : Dev) (r : Nat) : List Nat := (List.range 24).filter fun p => bit (d.ra oParents r) p

/-- Rails `l` with their ancestors, `n` steps up. -/
def Dev.railUp (d : Dev) : Nat → List Nat → List Nat
  | 0, l => l
  | n + 1, l => d.railUp n (l ++ (l.flatMap d.parentsR).filter fun p => ¬ l.contains p).eraseDups

/-- Proper ancestors of rail `r`. -/
def Dev.railAnc (d : Dev) (r : Nat) : List Nat := d.railUp 24 (d.parentsR r)

/-- Enabled commanded descendants of rail `r`. -/
def Dev.railDesc (d : Dev) (r : Nat) : List Nat := d.enRails.filter fun c => (d.railAnc c).contains r

/-- Depth of rail `r` in the graph: the number of its ancestors orders a rail after each of them. -/
def Dev.railDepth (d : Dev) (r : Nat) : Nat := (d.railAnc r).length

/-- OperatingPoints entry `i` (R332): frequency in MHz and voltage in mV. -/
def Dev.opPoint (d : Dev) (i : Nat) : Nat × Nat := (fieldOf (d.g oOperatingPoints) (4 * i) 2, fieldOf (d.g oOperatingPoints) (4 * i + 2) 2)

/-- The scaling state of quadrant `q`. -/
def Dev.avsOf (d : Dev) (q : Nat) : Avs := storeGet avs0 d.power.avs q

/-- Replaces the scaling state of quadrant `q`. -/
def Dev.setAvs (d : Dev) (q : Nat) (a : Avs) : Dev := { d with power := { d.power with avs := storeSet avs0 d.power.avs q a } }

/-- A signed object value of `n` bytes. -/
def Dev.sgr (d : Dev) (o r n : Nat) : Int := signedOf n (d.gr o r)

/-- A level at a deviation of `dev` (R319). -/
def levelAt (target : Nat) (dev : Int) : Nat := (target * (1000 + dev).toNat) / 1000

/-- A target at a margin step (R331). -/
def marginAt (nominal : Nat) (step : Int) : Nat := (nominal * (1000 + 5 * step).toNat) / 1000

/-- The target of rail `r` (R319, R331). -/
def Dev.target (d : Dev) (r : Nat) : Nat :=
  if d.g oMarginMode = 1 then marginAt (d.ra oNominal r) (d.sgr oMarginStep r 1) else d.ra oNominal r

/-- The targets that the high and the low levels refer to: the higher and the lower voltage while an AVSBus write is unacknowledged (R333). -/
def Dev.targets (d : Dev) (r : Nat) : Nat × Nat :=
  let t := d.target r
  let a := d.avsOf r
  if r < 4 ∧ a.step = 1 then (let v := (d.opPoint a.target).2; (max t v, min t v)) else (t, t)

/-- The state a sample of `v` mV supports (R319): 2 GOOD, 3 WARN, 4 FAULT; GOOD when level checks are off. -/
def Dev.band (d : Dev) (r v : Nat) : Nat :=
  let (hi, lo) := d.targets r
  if d.ra oNominal r = 0 then 2
  else if v < levelAt lo (d.sgr oFaultLow r 2) ∨ levelAt hi (d.sgr oFaultHigh r 2) < v then 4
  else if v < levelAt lo (d.sgr oWarnLow r 2) ∨ levelAt hi (d.sgr oWarnHigh r 2) < v then 3 else 2

/-- A parent counts as good for its children (R324). -/
def Dev.parentGood (d : Dev) (p : Nat) : Bool :=
  let s := d.rst p
  if p < 16 then s = 2 ∨ s = 3 else d.ra oNominal p = 0 ∨ d.band p (d.gr oRailVoltage p) = 2

/-- Moves rail `r` to state `t`, with its RAIL_STATE record; leaving WARN or FAULT ends that condition. -/
def Dev.setRst (d : Dev) (r t : Nat) : Dev :=
  let o := d.rst r
  if o = t then d
  else
    let d := ((d.sr oRailState r t).setRail r { d.rail r with cnt := 0 }).record 0x100 0 uSup r o t (d.gr oRailVoltage r)
    let d := if o = 3 then d.unlive (528 + r) else if o = 4 then d.unlive (552 + r) else d
    if t = 0 ∧ r < 16 ∧ d.ra oRailKind r = 1 then d.emit .pmbus [d.ra oBusAddress r, 0x03, 0] else d

/-- Releases the enable of rail `r`. -/
def Dev.releaseRail (d : Dev) (r : Nat) : Dev := d.setRail r { d.rail r with en := false }

/-- Blocks the rails that wait below `r` (R324). -/
def Dev.blockBelow (d : Dev) (r : Nat) : Dev :=
  (d.railDesc r).foldl (fun d c => if d.rst c = 0 then d.setRst c 6 else d) d

/-- Order of a power-down (R327): deepest first, ties by descending number. -/
def Dev.downBefore (d : Dev) (a b : Nat) : Bool := d.railDepth b < d.railDepth a ∨ (d.railDepth a = d.railDepth b ∧ b < a)

/-- Inserts a rail into the order of a power-down, behind one whose release is under way. -/
def Dev.downInsert (d : Dev) (x : Nat × Nat) : List (Nat × Nat) → List (Nat × Nat)
  | [] => [x]
  | y :: l => if d.rst y.1 ≠ 7 ∧ d.downBefore x.1 y.1 then x :: y :: l else y :: d.downInsert x l

/-- Every enable is released at once, in no order (R329). -/
def Dev.dropRails (d : Dev) : Dev :=
  let d := { d with power := { d.power with seqUp := false, down := [], full := false } }
  cmdRails.foldl (fun d r => (d.releaseRail r).setRst r 0) d

/-- The part reaches DARK (R103): LastOutage names it, HOLD_EN and LSH_SYNC_N are released and every rail falls. What it held is gone
until the next power-on (R421). -/
def Dev.dark (d : Dev) : Dev :=
  let d := (d.furthest 8).dropRails
  let d := { d with aon := { d.aon with holdEn := false, lshSyncDrive := false, powered := false } }
  (d.s oVaultState 0).s oSupervisorState 0

/-- Ends a power-down that has run: a full one ends in STANDBY (R327), or in DARK after a vault (Table 4.3). -/
def Dev.downDone (d : Dev) : Dev :=
  if d.power.full then
    let d := ({ d with power := { d.power with full := false, endedStandby := true, shortPress := false } }).s oSupervisorState 0
    if d.vst = 6 then d.dark else d
  else d

/-- Goes on with a power-down: releases the next rail whose turn it is. [DEDUCED, log 45] -/
def Dev.downStep : Nat → Dev → Dev
  | 0, d => d
  | n + 1, d =>
    match d.power.down with
    | [] => d.downDone
    | (r, t) :: l =>
      let d0 : Dev := { d with power := { d.power with down := l } }
      if d.rst r = 7 then d
      else if t = 4 then Dev.downStep n (d0.releaseRail r)
      else if (d.rail r).en then (d.releaseRail r).setRst r 7
      else Dev.downStep n (d0.setRst r t)

/-- Starts a power-down of the rails `l`, which are to read `t` (R327). [DEDUCED, log 45] -/
def Dev.powerDown (d : Dev) (l : List Nat) (t : Nat) : Dev :=
  let l := l.filter fun r => ¬ d.power.down.any (·.1 = r)
  let d := l.foldl (fun d r => { d with power := { d.power with down := d.downInsert (r, t) d.power.down } }) d
  d.downStep 64

/-- A full power-down (R327). -/
def Dev.fullDown (d : Dev) : Dev :=
  let l : List (Nat × Nat) := d.power.down.map fun x => (x.1, 0)
  let d : Dev := { d with power := { d.power with seqUp := false, full := true, down := l } }
  (d.s oSupervisorState 4).powerDown cmdRails 0

/-- Rail `r` is OFF at the end of its discharge; the next rail follows. -/
def Dev.discharged (d : Dev) (r : Nat) : Dev :=
  match d.power.down with
  | (x, t) :: l => if x = r then (({ d with power := { d.power with down := l } }).setRst r t).downStep 64 else d.setRst r 0
  | [] => d.setRst r 0

/-- The power-up sequence settles (R325): power-good, or INCOMPLETE. After a power-on, power-good begins WAKE (Table 4.3). -/
def Dev.settleUp (d : Dev) : Dev :=
  if d.power.seqUp ∧ ¬ d.enRails.any fun r => d.rst r = 0 ∨ d.rst r = 1 then
    let d := { d with power := { d.power with seqUp := false } }
    if d.sup = 2 then d
    else if (d.enRails.filter fun r => d.railFlag r 1).all fun r => d.rst r = 2 ∨ d.rst r = 3 then
      let d := (d.s oSupervisorState 2).s oPowerGoodTick d.now
      if d.vst = 0 then d.setVaultState 0x0A else d
    else d.s oSupervisorState 3
  else d

/-- Begins the power-up of R324: every enabled commanded rail that is not up reads OFF. -/
def Dev.beginUp (d : Dev) : Dev :=
  let d := { d with power := { d.power with s0 := d.now, seqUp := true } }
  d.enRails.foldl (fun d r => if d.rst r = 2 ∨ d.rst r = 3 then d else (d.releaseRail r).setRst r 0) d

/-- Rail objects of the dictionary store: those the sequence applies when it begins (R318). -/
def Dev.railObjects (d : Dev) : List (Nat × Nat) :=
  storeKeep (fun k _ => dkey uSup 0x200000 ≤ k ∧ k < dkey uSup 0x201800) d.dict

/-- POWER_UP_START (R323): the start conditions hold at s0. [DEDUCED, log 76] -/
def Dev.powerUpStart (d : Dev) : Dev :=
  if d.sup = 0 ∧ d.aon.auxUp ∧ ¬ d.doms.supRet ∧ ((d.g oAutoPowerOn = 1 ∧ ¬ d.power.endedStandby) ∨ d.power.shortPress) then
    let new := d.railObjects
    let moved := cmdRails.filter fun r => storeGet dictD new (dkey uSup (oRail oBusAddress r)) ≠ d.ra oBusAddress r
    let d := { d with power := { d.power with applied := new, shortPress := false, cfgDue := (d.power.cfgDue ++ moved).eraseDups } }
    (d.s oSupervisorState 1).beginUp.settleUp
  else d

/-- Writes the target of rail `r` to its regulator (R320, R321, R331); VOUT_MODE is read before the first VOUT_COMMAND (Table 14.4). -/
def Dev.writeTarget (d : Dev) (r : Nat) : Dev :=
  if d.ra oRailKind r = 1 then
    let d : Dev := if d.power.scaled.contains r then d
      else { d.emit .pmbus [d.ra oBusAddress r, 0x20, 0] with power := { d.power with scaled := d.power.scaled ++ [r] } }
    d.emit .pmbus [d.ra oBusAddress r, 0x21, d.target r]
  else if d.ra oRailKind r = 2 then d.emit .avs [d.ra oBusAddress r, d.target r] else d

/-- RAIL_ENABLE (R324): StartDelay has passed since the parents of rail `r` became good. -/
def Dev.railEnable (d : Dev) (r : Nat) : Dev :=
  if d.power.seqUp ∧ d.enRails.contains r ∧ d.rst r = 0 ∧ (d.parentsR r).all d.parentGood then
    let d : Dev := if d.power.cfgDue.contains r ∧ d.ra oRailKind r = 1 then
        { d.emit .pmbus [d.ra oBusAddress r, 0x02, 0x16] with power := { d.power with cfgDue := d.power.cfgDue.filter (· ≠ r) } }
      else d
    let d := if d.ra oRailKind r = 1 then d.writeTarget r else d
    (d.setRst r 1).setRail r { (d.setRst r 1).rail r with en := true, cnt := 0 }
  else d

/-- RAIL_START_FAIL (R324): PgDeadline expires for a RAMPING rail. [DEDUCED, log 46] -/
def Dev.railStartFail (d : Dev) (r : Nat) : Dev :=
  if r < 16 ∧ d.rst r = 1 then
    let d := (d.releaseRail r).setRst r 5
    let d := (d.sr oStartFailures r (min 65535 (d.gr oStartFailures r + 1))).raise { src := 576 + r, quiet := d.power.full }
    (d.blockBelow r).settleUp
  else d

/-- Rail `r` enters FAULT with a sample of `v` mV (R326): its descendants and then its own enable go, unless it is a VaultKeep
under-voltage within a vault sequence. -/
def Dev.railFault (d : Dev) (r v : Nat) : Dev :=
  let d := d.sr oFaults r (min 65535 (d.gr oFaults r + 1))
  let keep := d.inVault ∧ d.railFlag r 2 ∧ v < (d.targets r).2
  let d := d.raise { src := 552 + r, live := true, quiet := keep ∨ d.power.full }
  if 16 ≤ r ∨ keep then d
  else (((d.railDesc r).foldl (fun d c => if d.rst c = 0 then d.setRst c 6 else d) d).powerDown (d.railDesc r) 6).powerDown [r] 4

/-- One debounced change of rail `r` to state `t` (R319, R324, R327). [DEDUCED, log 45] -/
def Dev.railChange (d : Dev) (r t v : Nat) : Dev :=
  let o := d.rst r
  let d := d.setRst r t
  if t = 2 then (if o = 1 then d.settleUp else d)
  else if t = 3 then
    (d.sr oWarnings r (min 65535 (d.gr oWarnings r + 1))).raise { src := 528 + r, live := true, quiet := d.power.full }
  else if t = 4 then (d.railFault r v).settleUp
  else d

/-- The state a sample supports, given the state the rail reads; its own state when it supports no change. [DEDUCED, log 45] -/
def Dev.supports (d : Dev) (r v : Nat) : Nat :=
  let s := d.rst r
  if s = 7 then (if v < d.ra oNominal r * d.ra oDischargeLevel r / 1000 then 0 else 7)
  else if s = 1 then (if d.band r v = 2 then 2 else 1)
  else if 16 ≤ r then (if d.railFlag r 0 ∧ d.ra oNominal r ≠ 0 then d.band r v else s)
  else if s = 2 ∨ s = 3 ∨ (s = 4 ∧ (d.rail r).en) then d.band r v
  else s

/-- A capacitance test holds the ADC (R68): only the bank's inputs are sampled. -/
def Dev.adcHeld (d : Dev) (r : Nat) : Bool :=
  d.energy.cap.step = 3 ∧ r ≠ 16 + d.gb oSenseInputs 0 ∧ r ≠ 16 + d.gb oSenseInputs 1

/-- ADC_SAMPLE (R317, R319, R324 to R327). [DEDUCED, log 45; DEDUCED, log 47] -/
def Dev.adcSample (d : Dev) (r code : Nat) : Dev :=
  if 24 ≤ r ∨ 4095 < code ∨ d.adcHeld r then d
  else
    let v := code * d.ra oSenseScale r / 4095
    let d := d.sr oRailVoltage r (min 65535 v)
    let x := d.rail r
    let t := d.supports r v
    if t = d.rst r then d.setRail r { x with cnt := 0 }
    else
      let n := if x.cand = t then x.cnt + 1 else 1
      let d := d.setRail r { x with cand := t, cnt := n }
      if n < d.gr oDebounce r then d
      else if d.rst r = 7 then d.discharged r
      else d.railChange r t v

/-- RAIL_DISCHARGE_TIMEOUT (R327). -/
def Dev.dischargeTimeout (d : Dev) (r : Nat) : Dev :=
  if r < 16 ∧ d.rst r = 7 then
    (d.sr oDischargeTimeouts r (min 65535 (d.gr oDischargeTimeouts r + 1))).discharged r
  else d

/-- REGULATOR_POLL (R320): the STATUS_WORD poll of a PMBus rail is answered or not, with a fault bit set or not. [DEDUCED, log 46] -/
def Dev.regulatorPoll (d : Dev) (r : Nat) (answered bad : Bool) : Dev :=
  if 16 ≤ r ∨ ¬ d.railFlag r 0 ∨ d.ra oRailKind r ≠ 1 then d
  else
    let d := d.emit .pmbus [d.ra oBusAddress r, 0x79, 0]
    let setMissed (d : Dev) (n : Nat) : Dev := { d with power := { d.power with missed := storeSet (fun _ => 0) d.power.missed r n } }
    if ¬ answered then
      let n := storeGet (fun _ => 0) d.power.missed r + 1
      let d := setMissed d n
      if n = 3 then d.faultLive (624 + r) else d
    else
      let d := (setMissed d 0).unlive (624 + r)
      if bad then
        if d.power.statusBad.contains r then d
        else ({ d with power := { d.power with statusBad := d.power.statusBad ++ [r] } }).faultLive (600 + r)
      else ({ d with power := { d.power with statusBad := d.power.statusBad.filter (· ≠ r) } }).unlive (600 + r)

/-- The Thozu may begin a change of operating point: none under way, and the machine not quiesced (R333). -/
def Dev.opMayStart (d : Dev) : Bool := ¬ (3 ≤ d.vst ∧ d.vst ≤ 7) ∧ d.vst ≠ 9

/-- Issues the AVSBus write of the change under way in quadrant `q`. -/
def Dev.avsWrite (d : Dev) (q : Nat) (a : Avs) : Dev :=
  (d.setAvs q { a with step := 1, retried := false }).emit .avs [d.ra oBusAddress q, (d.opPoint a.target).2]

/-- Begins a change of quadrant `q` to point `b` (R333): the voltage first when it rises, the clock first when it falls. A quadrant with a
thermal warning live stays at point 0 (R454). -/
def Dev.opStart (d : Dev) (q b : Nat) : Dev :=
  let b := if d.faults.live.testBit (44 + q) then 0 else b
  let a := { d.avsOf q with target := b, want := none }
  if b = a.point ∧ (a.freq, a.vack) = d.opPoint b then d.setAvs q a
  else if a.vack < (d.opPoint b).2 then d.avsWrite q a
  else d.setAvs q { a with step := 2, freq := (d.opPoint b).1 }

/-- A request for point `b` (R333): applied after a change under way, or after the resume. -/
def Dev.opRequest (d : Dev) (q b : Nat) : Dev :=
  if (d.avsOf q).step = 0 ∧ d.opMayStart then d.opStart q b else d.setAvs q { d.avsOf q with want := some b }

/-- A change has ended; the request that waited follows. -/
def Dev.opNext (d : Dev) (q : Nat) : Dev :=
  match (d.avsOf q).want with
  | some b => if d.opMayStart then d.opStart q b else d
  | none => d

/-- The change of quadrant `q` is complete: the point is in force, and the rail's Nominal follows (R332). -/
def Dev.opDone (d : Dev) (q : Nat) : Dev :=
  let a := d.avsOf q
  ((d.setAvs q { a with step := 0, point := a.target }).sr oNominal q (d.opPoint a.target).2).opNext q

/-- A value written to CoreOperatingPoint (R332): a used entry for every quadrant. -/
def Dev.fxCoreOperatingPoint (d : Dev) (v : Nat) : Reply :=
  if (List.range 4).all fun q => byteOf v q < 8 ∧ (d.opPoint (byteOf v q)).1 ≠ 0 then
    okR ((List.range 4).foldl (fun (d : Dev) q => d.opRequest q (byteOf v q)) (d.s oCoreOperatingPoint v))
  else badValue d uSup

/-- AVS_ACK_RECEIVE (R321, R333). -/
def Dev.avsAck (d : Dev) (q : Nat) : Dev :=
  let a := d.avsOf q
  if q < 4 ∧ a.step = 1 then
    let (f, v) := d.opPoint a.target
    let a := { a with vack := v }
    if a.freq = f then (d.setAvs q a).opDone q else d.setAvs q { a with step := 2, freq := f }
  else d

/-- AVS_ACK_TIMEOUT (R334): one more write, then the AVSBus-timeout source; frequency and v_ack stay. [DEDUCED, log 46] -/
def Dev.avsTimeout (d : Dev) (q : Nat) : Dev :=
  let a := d.avsOf q
  if q < 4 ∧ a.step = 1 then
    if ¬ a.retried then (d.setAvs q { a with retried := true }).emit .avs [d.ra oBusAddress q, (d.opPoint a.target).2]
    else ((d.setAvs q { a with step := 0 }).fault (40 + q)).opNext q
  else d

/-- QCLK_SLEW_COMPLETE (R333, R433). [DESIGN CHOICE, log 2] -/
def Dev.slewComplete (d : Dev) (q : Nat) : Dev :=
  let a := d.avsOf q
  if q < 4 ∧ a.step = 2 then
    if a.vack = (d.opPoint a.target).2 then d.opDone q else d.avsWrite q a
  else d

/-- Absolute maximum of the balls rail `r` feeds, in mV (Table 21.1); none where the Thozu has no such ball. -/
def absMax (r : Nat) : Option Nat :=
  if r < 8 ∨ r = 15 then some 1050 else if r = 8 ∨ r = 9 ∨ r = 10 ∨ r = 13 then some 1450 else if r = 14 then some 2100 else none

/-- A nominal level with its margin and its high fault level stays within the absolute maximum (R331). -/
def marginOk (r nominal : Nat) (step fh : Int) : Bool :=
  match absMax r with
  | none => true
  | some m => let t := marginAt nominal step; t ≤ m ∧ levelAt t fh ≤ m

/-- The highest VoltageMv of an OperatingPoints value. -/
def topVoltage (v : Nat) : Nat := (List.range 8).foldl (fun m i => max m (fieldOf v (4 * i + 2) 2)) 0

/-- R331's check of rail `r` with these settings; a VCORE rail is checked at its highest point. -/
def Dev.railMarginOk (d : Dev) (r nominal : Nat) (step fh : Int) : Bool :=
  marginOk r (if r < 4 then topVoltage (d.g oOperatingPoints) else nominal) step fh

/-- Writes the targets of rails whose margin is not 0: the AVSBus rails first, then the others in ascending order (R331). -/
def Dev.restoreTargets (d : Dev) : Dev :=
  let l := d.enRails.filter fun r => d.gr oMarginStep r ≠ 0
  ((l.filter fun r => d.ra oRailKind r = 2) ++ l.filter fun r => d.ra oRailKind r ≠ 2).foldl Dev.writeTarget d

/-- Counts the rails whose target leaves Nominal (R331). -/
def Dev.marginCycle (d : Dev) (r : Nat) : Dev := d.sr oMarginCycles r (min 65535 (d.gr oMarginCycles r + 1))

/-- A vault, restore, drill or capacitance test runs. A deferred test does not; WAKE counts as part of a running restore, which the rules leave open, and
FETCH does not (R72 names it beside a restore). [DESIGN CHOICE, log 86] -/
def Dev.seqBusy (d : Dev) : Bool :=
  d.inVault ∨ d.vst = 0x0A ∨ d.vst = 0x0B ∨ 2 ≤ d.energy.cap.step ∨ d.energy.drill.step ≠ 0

/-- A value written to MarginMode (R330, R331). [DEDUCED, log 46] -/
def Dev.fxMarginMode (d : Dev) (v : Nat) : Reply :=
  if v = 0 then
    if d.g oMarginMode = 0 then okR d else okR (d.s oMarginMode 0).restoreTargets
  else if d.g oMarginMode = 1 then okR d
  else if ¬ bit (d.g oWriteThroughCause) 0 ∨ d.dirtyTotal ≠ 0 ∨ d.seqBusy then conflict d uSup
  else
    let d := d.s oMarginMode 1
    okR ((d.enRails.filter fun r => d.target r ≠ d.ra oNominal r).foldl Dev.marginCycle d).restoreTargets

/-- A value written to MarginStep of rail `r` (R331); `v` is the byte written. -/
def Dev.fxMarginStep (d : Dev) (r v : Nat) : Reply :=
  let step := signedOf 1 v
  if step < -20 ∨ 20 < step ∨ ¬ d.railMarginOk r (d.gr oNominal r) step (d.sgr oFaultHigh r 2) then badValue d uSup
  else
    let was := d.target r
    let d := d.sr oMarginStep r v
    if d.g oMarginMode = 1 ∧ d.target r ≠ was then
      let d := if was = d.ra oNominal r then d.marginCycle r else d
      okR (d.writeTarget r)
    else okR d

/-- Sets the counters of rail `r` to 0 (R337). -/
def Dev.clearRail (d : Dev) (r : Nat) : Dev :=
  ((((d.sr oWarnings r 0).sr oFaults r 0).sr oStartFailures r 0).sr oDischargeTimeouts r 0).sr oMarginCycles r 0

/-- Action RESTART (R339): a failed rail and its BLOCKED descendants return to OFF and the sequence runs for them. [DEDUCED, log 46] -/
def Dev.railRestart (d : Dev) (r : Nat) : Dev :=
  if d.rst r = 5 ∨ d.rst r = 4 then
    let d := (d.releaseRail r).setRst r 0
    let d := (d.railDesc r).foldl (fun d c => if d.rst c = 6 then d.setRst c 0 else d) d
    let d := if d.sup = 3 then d.s oSupervisorState 1 else d
    { d with power := { d.power with seqUp := true, s0 := d.now } }
  else d

/-- A value written to RailCommand (R339): Rail, Action and two reserved bytes. -/
def Dev.fxRailCommand (d : Dev) (v : Nat) : Reply :=
  let r := byteOf v 0
  let a := byteOf v 1
  if a = 1 ∧ r < 16 ∧ v < 65536 then okR (d.railRestart r)
  else if a = 2 ∧ (r < 24 ∨ r = 0xFF) ∧ v < 65536 then
    okR (if r = 0xFF then (List.range 24).foldl Dev.clearRail d else d.clearRail r)
  else badValue d uSup

/-- PWRBTN_SHORT_PRESS (R336), `len` in ms. [DEDUCED, log 76] -/
def Dev.shortPress (d : Dev) (len : Nat) : Dev :=
  if d.inVault then d.record 0x103 0 uSup 2 len 0 0
  else if d.sup = 0 then { d with power := { d.power with shortPress := true } }
  else ((d.s oShutdownRequest 1).record 0x103 0 uSup 2 len 0 0).notify 0x01 0 uSup

/-- PWRBTN_IGNORED_PRESS (R336). -/
def Dev.ignoredPress (d : Dev) (len : Nat) : Dev := if 4000 ≤ len then d.record 0x103 0 uSup 3 len 0 0 else d

/-- A value written to ShutdownRequest: only 0 may be written (R336). -/
def Dev.fxShutdownRequest (d : Dev) (v : Nat) : Reply := if v = 0 then okR (d.s oShutdownRequest 0) else badValue d uSup

end Sys2Proof.Machine
end

