-- ==== Sys2Proof/Machine/Energy.lean ====
section
/-! DEFINITION. The energy reserve (03): the charger, usable energy, capacitance tests, fixed_bytes (R93) and the dirty ceiling (R75, R77, R79). -/
namespace Sys2Proof.Machine

/-- The monitor input of sense role `i` (R63): 0 VHOLD, 1 IHOLD, 2 VIN, 3 IIN; none when unassigned. -/
def Dev.sense (d : Dev) (i : Nat) : Option Nat :=
  let m := d.gb oSenseInputs i
  if m < 8 then some (16 + m) else none

/-- This Thozu drives the charger and the test sink: outside a Pack, or as its master (R79, R156). -/
def Dev.mayCharge (d : Dev) : Bool := !d.aon.lshEn || d.g oPackRole == 1

/-- Sends the charger OPERATION (Table 3.2). -/
def Dev.charger (d : Dev) (op : Nat) : Dev :=
  let d := { d with energy := { d.energy with charging := decide (op = 0x80) && d.mayCharge } }
  if d.g oChargerAddress = 0 ∨ ¬ d.mayCharge then d else d.emit .pmbus [d.g oChargerAddress, 0x01, op]

/-- Charging is wanted: a voltage is set and the bank is not over-voltage (R66). -/
def Dev.chargeWanted (d : Dev) : Bool := d.g oChargeVoltage ≠ 0 ∧ ¬ bit (d.g oEnergyShortfall) 3

/-- Programs the charger and lets it charge (R65); VOUT_MODE is read once after each charger reset. [DEDUCED, log 94] -/
def Dev.chargeStart (d : Dev) : Dev :=
  let a := d.g oChargerAddress
  let d : Dev := if a = 0 ∨ ¬ d.mayCharge then d
    else
      let d := if d.energy.scaled then d else d.emit .pmbus [a, 0x20, 0]
      let d : Dev := { d with energy := { d.energy with scaled := true } }
      (d.emit .pmbus [a, 0x21, d.g oChargeVoltage]).emit .pmbus [a, 0x46, d.g oChargeCurrent]
  d.charger 0x80

/-- The bank's voltage limits (R66): pauses the charger above them, and resumes below. -/
def Dev.overVoltage (d : Dev) : Dev :=
  let v := d.energy.vhold
  let cv := d.g oChargeVoltage
  if 36000 < v ∨ (cv ≠ 0 ∧ cv + 1000 < v) then
    if bit (d.g oEnergyShortfall) 3 then d
    else ((d.charger 0x00).sbit oEnergyShortfall 3 true).faultLive 19
  else if bit (d.g oEnergyShortfall) 3 ∧ v < (if cv = 0 then 36000 else cv) then
    let d := (d.sbit oEnergyShortfall 3 false).unlive 19
    if cv ≠ 0 ∧ ¬ d.inVault ∧ d.energy.cap.step < 2 then d.chargeStart else d
  else d

/-- CHARGER_POLL (R65, R66). A charger that answers again after it was lost has been reset. [DEDUCED, log 94] -/
def Dev.chargerPoll (d : Dev) (answered : Bool) : Dev :=
  let a := d.g oChargerAddress
  if a = 0 ∨ ¬ d.mayCharge then d
  else
    let d := ((d.emit .pmbus [a, 0x79, 0]).emit .pmbus [a, 0x8B, 0]).emit .pmbus [a, 0x8C, 0]
    if answered then
      let d : Dev := { d with energy := { d.energy with missed := 0, scaled := d.energy.scaled && decide (d.energy.missed < 3) } }
      let d := (d.sbit oEnergyShortfall 2 false).unlive 18
      let d := d.overVoltage
      if d.chargeWanted ∧ ¬ d.energy.charging ∧ d.energy.cap.step < 2 ∧ ¬ d.inVault then d.chargeStart else d
    else
      let n := d.energy.missed + 1
      let d := { d with energy := { d.energy with missed := n } }
      if n = 3 then (d.sbit oEnergyShortfall 2 true).faultLive 18 else d

/-- Entries of DerateTable in use: temperature in 0.1 °C and factor in ‰ (R70). -/
def Dev.derates (d : Dev) : List (Int × Nat) :=
  ((List.range 8).map fun i => (signedOf 2 (fieldOf (d.g oDerateTable) (4 * i) 2), fieldOf (d.g oDerateTable) (4 * i + 2) 2)).filter fun e => e.2 ≠ 0

/-- k at temperature `t`: linear between entries, constant beyond the ends (R70); an interpolated k is rounded down to a whole ‰, a rounding that
the rule leaves open. [DESIGN CHOICE, log 86] -/
def derateAt (t : Int) : List (Int × Nat) → Nat
  | [] => 1
  | [(_, k)] => k
  | (a, k) :: (b, m) :: r =>
    if t ≤ a then k
    else if t < b then (((k : Int) * (b - t) + (m : Int) * (t - a)) / (b - a)).toNat
    else derateAt t ((b, m) :: r)

/-- The bank temperature in 0.1 °C, when an input gives it (R70). -/
def Dev.bankTemp (d : Dev) : Option Int :=
  let m := d.g oBankTempInput
  if m < 8 then some ((d.gr oRailVoltage (16 + m) : Int) - 500) else none

/-- Numerator and denominator of the derating ratio (R70). -/
def Dev.derateRatio (d : Dev) : Nat × Nat :=
  let l := d.derates
  if l.isEmpty then (1, 1)
  else match d.bankTemp with
  | some t => (derateAt t l, derateAt d.energy.cap.tTest l)
  | none => (l.foldl (fun m e => min m e.2) 65535, l.foldl (fun m e => max m e.2) 0)

/-- c_used in µF (R70), or the one taken over from the last master (R165). -/
def Dev.capUsed (d : Dev) : Nat :=
  let (n, m) := d.derateRatio
  match d.energy.cap.adopted with
  | some c => c
  | none => d.g oCapMeasured * n * (1000 - d.g oAgeMargin) / (m * 1000)

/-- Usable vault LUNs, l. -/
def Dev.usableLuns (d : Dev) : Nat := d.kennel.map.length

/-- In a Pack, the master's grant rules this Thozu's energy (R79, R155). -/
def Dev.granted (d : Dev) : Bool := d.aon.lshEn

/-- The grant in force carries caps (R170). -/
def Dev.capped (d : Dev) : Bool := d.granted && d.pack.hasGrant && decide (2 ≤ d.g oOpVersion)

/-- The vault rate b_used of R73 in MB/s. -/
def Dev.bOwn (d : Dev) : Nat := if d.g oDrillValid = 1 then min (d.g oDrillRate) 48000 else min (d.g oBVaultDefault) (375 * d.usableLuns / 2)

/-- The vault power p_used of R73 in mW. -/
def Dev.pOwn (d : Dev) : Nat := if d.g oDrillValid = 1 then max (d.g oDrillPower) (d.g oPVaultFloor) else d.g oPVaultDefault

/-- b_used in force: R73's, or the Pack rate cap (R170). -/
def Dev.bUsed (d : Dev) : Nat := if d.capped then d.g oGrantCap else d.bOwn

/-- p_used in force: R73's, or the Pack power cap (R170). -/
def Dev.pUsed (d : Dev) : Nat := if d.capped then d.g oGrantPower else d.pOwn

/-- pe of R75, in mW × ‰. -/
def Dev.pe (d : Dev) : Nat := d.pUsed * (1000 + d.g oMargin)

/-- E_avail in µJ of the bank at `v` mV with the floor at `floor` (R75, R168). -/
def Dev.bankEnergy (d : Dev) (c v floor : Nat) : Nat :=
  if v ≤ floor then 0 else c * d.g oEfficiency * (v * v - floor * floor) / 2000000000

/-- v_floor of R75. -/
def Dev.vFloor (d : Dev) : Nat :=
  let vmin := d.g oVMin
  vmin + (d.g oEsrMeasured * ((d.pe + vmin - 1) / vmin) + 999999) / 1000000

/-- e_avail in µJ at a mean bank voltage of `v` mV (R75, R64, R79). -/
def Dev.eAvail (d : Dev) (v : Nat) : Nat :=
  if d.granted then (if d.pack.hasGrant then d.g oGrantEnergy * 1000 else 0)
  else if (d.sense 0).isNone then 0
  else d.bankEnergy d.capUsed v d.vFloor

/-- Quadrants whose SRAM is ON or RET. -/
def Dev.heldQuads (d : Dev) : List Nat := (List.range 4).filter fun q => d.domSt (uSram q) ≠ 2

/-- rnd of R93. -/
def rnd (x : Nat) : Nat := roundUp x 65536

/-- fixed_bytes (R93). -/
def Dev.fixedBytes (d : Dev) : Nat :=
  65536 + 8388608 + rnd (d.cacheCapacity * 16) + 33554432 + d.coreNos.length * 262144 + d.heldQuads.length * 33554432
    + rnd (d.g oMustPageBytes) + 131072 + 8519680 + 65536

/-- t_total in µs (R75); negative when the bank cannot keep E_retain_min. -/
def Dev.tTotal (d : Dev) (v : Nat) : Int :=
  (((d.eAvail v : Int) - (d.g oERetainMin : Int) * 1000) * 1000000) / (d.pe : Int)

/-- t_fixed_eff in µs (R75). -/
def Dev.tFixedEff (d : Dev) : Nat := max (d.g oTFixed * 1000) ((d.g oFixedBytes + d.bUsed - 1) / d.bUsed + 10000)

/-- dirty_ceiling_blocks at a bank voltage of `v` mV (R75); 0 while b_used is 0. -/
def Dev.ceilingAt (d : Dev) (v : Nat) : Nat :=
  if d.bUsed = 0 ∨ d.pe = 0 then 0
  else
    let t := d.tTotal v - (d.tFixedEff : Int)
    if t ≤ 0 then 0 else d.bUsed * t.toNat / 4096

/-- A capacitance test is current (R69); in a Pack, a member goes by the master's, which the BEACON carries (R79, R161). [DEDUCED, log 48] -/
def Dev.testCurrent (d : Dev) : Bool := if d.mayCharge then d.energy.cap.current else d.pack.capAge != 0xFFFFFFFF

/-- Bit 1 of WriteThroughCause, and the arming that follows (R77, R78). -/
def Dev.armEvaluate (d : Dev) : Dev :=
  let c := d.g oDirtyCeilingBlocks
  let d := d.sbit oEnergyShortfall 0 (!d.testCurrent)
  let d := d.sbit oEnergyShortfall 1 (c == 0)
  let since := if c < 262144 then none else if d.energy.ceilSince.isSome then d.energy.ceilSince else some d.now
  let d := { d with energy := { d.energy with ceilSince := since } }
  let was := bit (d.g oWriteThroughCause) 1
  let d : Dev :=
    if ¬ d.testCurrent ∨ c = 0 then (if was then d else (d.wtCause 1 true).faultLive 22)
    else match since with
      | some t => if was ∧ t + 100000 ≤ d.now then (d.wtCause 1 false).unlive 22 else d
      | none => d
  d.armEval

/-- The ceiling computed again from the voltage last measured (R75, R76), in every state; fixed_bytes (R93) with it outside a vault sequence. [DEDUCED, log 48] -/
def Dev.recompute (d : Dev) : Dev :=
  let v := d.energy.vhold
  let d := if d.inVault then d else d.s oFixedBytes d.fixedBytes
  let d := ((d.s oCapUsed (min (2 ^ 32 - 1) d.capUsed)).s oEnergyAvailable (min (2 ^ 32 - 1) (d.eAvail v / 1000)))
  let at_ := if d.energy.cap.predicted ∧ d.g oCapMeasured ≠ 0 then v - 2000000000 / d.g oCapMeasured else v
  (d.s oDirtyCeilingBlocks (min (2 ^ 32 - 1) (d.ceilingAt at_))).armEvaluate

/-- CEILING_COMPUTE (R65, R66, R75 to R77, R93): `mean` is the mean of VHOLD_SENSE over the last 1 ms, in mV. -/
def Dev.ceilingCompute (d : Dev) (mean : Nat) : Dev :=
  let v := if (d.sense 0).isSome then min mean (2 ^ 32 - 1) else 0
  let d := ({ d with energy := { d.energy with vhold := v } }).s oBankVoltage v
  d.overVoltage.recompute

/-- Replaces the capacitance test's state. -/
def Dev.setCap (d : Dev) (c : CapTest) : Dev := { d with energy := { d.energy with cap := c } }

/-- VHOLD has reached 90 % of ChargeVoltage (R67, R68), which any voltage does while ChargeVoltage is 0. -/
def Dev.bankCharged (d : Dev) : Bool := d.g oChargeVoltage * 9 ≤ d.energy.vhold * 10

/-- The bank voltage predicted after a test (R67): 2 A for 1 s from the measured capacitance, a drop that is rounded down to a whole mV, a
rounding that the rule leaves open. [DESIGN CHOICE, log 86] -/
def Dev.postTest (d : Dev) : Nat := d.energy.vhold - 2000000000 / d.g oCapMeasured

/-- The ceiling at the predicted voltage still covers what is dirty and reserved (R67). -/
def Dev.capCovered (d : Dev) : Bool := d.g oCapMeasured = 0 ∨ d.dirtyTotal + d.reserved none ≤ d.ceilingAt d.postTest

/-- A test ends without results: the sink is released, and the end is recorded. CapTestsAbandoned counts what PRECHECK (R68) or t0 (R71) ends. -/
def Dev.capAbandon (d : Dev) (counted : Bool := true) : Dev :=
  let d := ({ d with aon := { d.aon with bankLoad := false } }).setCap { d.energy.cap with step := 0, predicted := false }
  (if counted then d.inc oCapTestsAbandoned 16 else d).record 0x400 0 uChip (d.g oCapMeasured) (d.g oEsrMeasured) 2 0

/-- A test is due (R67, R68): it is deferred, is abandoned at PRECHECK, or pauses the charger. -/
def Dev.capBegin (d : Dev) : Dev :=
  let c := d.energy.cap
  if ¬ d.capCovered then d.setCap { c with step := 1, auto := false, deferSince := if c.step = 1 then c.deferSince else d.now }
  else
    let d := d.setCap { c with step := 0, auto := false, predicted := false }
    if ¬ d.bankCharged ∨ d.seqBusy then d.capAbandon
    else (d.charger 0x00).setCap { d.energy.cap with step := 2 }

/-- A value written to CapTestStart (R67, R71). At a Pack member that is not the master, which alone tests the bank (R79), the rules name no status
for a start: STATE_CONFLICT. [DESIGN CHOICE, log 86] -/
def Dev.fxCapTestStart (d : Dev) (v : Nat) : Reply :=
  if d.seqBusy then conflict d uChip
  else if v = 0 then okR d else if ¬ d.mayCharge then conflict d uChip else okR d.capBegin

/-- CAP_TEST_AUTO_START (R67): the first test of this power-on, once the bank has charged to 90 %. -/
def Dev.capAuto (d : Dev) : Dev :=
  if d.energy.cap.auto ∧ d.energy.cap.step = 0 ∧ d.bankCharged ∧ d.mayCharge then d.capBegin else d

/-- CAP_TEST_INTERVAL_EXPIRE (R67): in a vault, restore or drill the test is abandoned at PRECHECK (R68). -/
def Dev.capInterval (d : Dev) : Dev := if d.energy.cap.step = 0 ∧ d.mayCharge then d.capBegin else d

/-- CAP_TEST_DEFER_RETRY (R67): after 1 h the predicted ceiling is delivered to the governor. -/
def Dev.capRetry (d : Dev) : Dev :=
  if d.energy.cap.step ≠ 1 ∨ ¬ d.mayCharge then d
  else if d.capCovered then d.capBegin.recompute
  else if d.energy.cap.deferSince + 3600000000 ≤ d.now then (d.setCap { d.energy.cap with predicted := true }).recompute
  else d

/-- CAP_TEST_PAUSE_END (R68): `v0` in mV; the load is enabled. -/
def Dev.capPauseEnd (d : Dev) (v0 : Nat) : Dev :=
  if d.energy.cap.step ≠ 2 ∨ ¬ d.mayCharge then d
  else ({ d with aon := { d.aon with bankLoad := true } }).setCap { d.energy.cap with step := 3, v0 := v0 }

/-- CAP_TEST_STEP_SAMPLE (R68): `v1` in mV, `i1` in mA. -/
def Dev.capStep (d : Dev) (v1 i1 : Nat) : Dev :=
  if d.energy.cap.step ≠ 3 then d else d.setCap { d.energy.cap with step := 4, v1 := v1, i1 := i1 }

/-- The stop condition of DISCHARGE (Table 3.3): 100 ms with a drop of 100 mV, or 1,000 ms. -/
def CapTest.mayStop (c : CapTest) (v2 t : Nat) : Bool := decide ((100000 ≤ t ∧ 100 ≤ c.v1 - v2) ∨ 1000000 ≤ t)

/-- CAP_TEST_DISCHARGE_STOP (R68, R69): `v2` in mV at stop, charge `q` in µC drawn over `t` µs. T_test is the temperature that BankTempInput's input
gives; with no such input the rule gives none, and the T_test of the test before stays (25.0 °C before the first). [DESIGN CHOICE, log 86] -/
def Dev.capStop (d : Dev) (v2 q t : Nat) : Dev :=
  let c := d.energy.cap
  if c.step ≠ 4 ∨ ¬ c.mayStop v2 t then d
  else
    let d := { d with aon := { d.aon with bankLoad := false } }
    let d := d.setCap { c with step := 0 }
    let d := if d.chargeWanted then d.chargeStart else d
    if (d.sense 1).isNone ∨ q * 1000 < 1800 * t ∨ 2200 * t < q * 1000 then
      (d.fault 20).record 0x400 0 uChip (d.g oCapMeasured) (d.g oEsrMeasured) 0 0
    else
      let (n, d) := if c.i1 = 0 then (let (k, d) := d.fresh; (Config.openEsr k, d)) else ((c.v0 - c.v1) * 1000000 / c.i1, d)
      let esr := min (2 ^ 32 - 1) n
      let cap := min (2 ^ 32 - 1) (q * 1000 / max (c.v1 - v2) 100)
      let d := (d.s oCapMeasured cap).s oEsrMeasured esr
      let d := d.setCap { d.energy.cap with current := true, tested := true, adopted := none, ageBase := 0, doneTick := d.now, tTest := d.bankTemp.getD c.tTest }
      let d := if d.g oEsrLimit < esr then d.fault 21 else d
      (d.record 0x400 0 uChip cap esr 1 0).recompute

/-- CAP_TEST_EXPIRE (R69): no test is current. [DEDUCED, log 48] -/
def Dev.capExpire (d : Dev) : Dev :=
  if d.energy.cap.current then (d.setCap { d.energy.cap with current := false }).armEvaluate else d

/-- CapTestAge (R80, R165): seconds since the last valid test in this power-on; all ones if none. -/
def Dev.capAge (d : Dev) : Nat :=
  if d.energy.cap.tested then min (2 ^ 32 - 1) (d.energy.cap.ageBase + (d.now - d.energy.cap.doneTick) / 1000000) else 2 ^ 32 - 1

end Sys2Proof.Machine
end

