-- ==== Sys2Proof/Machine/Kennel.lean ====
section
/-! DEFINITION. The Kennel (05): key check, bands, formats, blocks and LUNs that fail, erases, and slot usability. -/
namespace Sys2Proof.Machine

/-- K1 of a vault key: its first 32 bytes, the key being 64 bytes little-endian, an order that the rule does not give (R120). [DESIGN CHOICE, log 92] -/
def vaultK1 (k : BitVec 512) : List Byte := leBytes 32 k.toNat

/-- K2 of a vault key: its last 32 bytes. [DESIGN CHOICE, log 92] -/
def vaultK2 (k : BitVec 512) : List Byte := leBytes 32 (k.toNat / 2 ^ 256)

/-- KeyCheck of a vault key (R120): the first 8 bytes of the all-zero block under K1. -/
def keyCheckOf (k : BitVec 512) : Nat := leNat ((aesEnc (vaultK1 k) (List.replicate 16 0)).take 8)

/-- The keep store's key matches the directory (R120). -/
def Dev.keyOk (d : Dev) : Bool :=
  match d.kennel.key with
  | some k => keyCheckOf k = d.kennel.keyCheck
  | none => false

/-- At least two LUNs on different channels. -/
def twoChannels (l : List Nat) : Bool := l.any fun a => l.any fun b => a / 16 ≠ b / 16

/-- slot_rows (R112). -/
def Dev.slotRows (d : Dev) : Nat := (d.kennel.slotBlocks - d.kennel.progress) * d.kennel.ppb

/-- KennelState (R131). -/
def Dev.kennelState (d : Dev) : Nat :=
  if d.kennel.formatting then 1 else if ¬ d.kennel.valid then 0
  else if ¬ twoChannels d.kennel.map then 4 else if d.kennel.luns.any fun p => p.2.failed then 3 else 2

/-- FailedLuns (R131). -/
def Dev.failedLuns (d : Dev) : Nat := ((d.kennel.luns.filter fun p => p.2.failed).map fun p => 2 ^ p.1).sum

/-- The bands of R112 for `l` usable LUNs. -/
def bands (k : Kennel) (l scratchMib : Nat) : Kennel :=
  let band := l * k.ppb * 65536
  let reserve := (k.bpl * 3 + 99) / 100
  let scratch := (scratchMib * 1048576 + band - 1) / band
  let logb := max 1 ((67108864 + band - 1) / band)
  let progress := (1040 + k.ppb * k.planes - 1) / (k.ppb * k.planes)
  let slot := (k.bpl - 2 - reserve - scratch - logb) / 2
  { k with slotBlocks := slot, progress := progress, scratchBase := 2 + 2 * slot, scratchBlocks := scratch
         , logBase := 2 + 2 * slot + scratch, logBlocks := logb, reserveBase := k.bpl - reserve, reserveBlocks := reserve }

/-- A LUN's geometry and spare area are supported (R107, R108). -/
def LunInfo.ok (x : LunInfo) : Bool :=
  ((x.pageSize = 16384 ∧ x.planes = 4) ∨ (x.pageSize = 32768 ∧ x.planes = 2)) ∧ x.bpl ≤ 8192 ∧ 0 < x.bpl ∧ 0 < x.ppb ∧ 1984 * x.pageSize ≤ x.spare * 16384

/-- Two LUNs have one geometry. -/
def LunInfo.same (x y : LunInfo) : Bool := x.pageSize = y.pageSize ∧ x.planes = y.planes ∧ x.ppb = y.ppb ∧ x.bpl = y.bpl

/-- LUN 0 of the lowest populated channel, whose geometry rules (R108). -/
def refLun (l : List LunInfo) : Option LunInfo :=
  l.foldl (fun o x => match o with
    | none => some x
    | some y => if x.lun < y.lun then some x else some y) none

/-- Versions of the held image that are not resident are lost with it, and so is all that was still to come from it. [DEDUCED, log 49] -/
def Dev.discardHeld (d : Dev) : Dev :=
  match d.restore.held with
  | none => d
  | some _ =>
    let d := d.setVers (d.cache.versions.map fun v => if d.verHere v then { v with image := false } else { v with image := false, poison := true })
    let d := { d with mem := { d.mem with resid := [] }, restore := { d.restore with held := none, asked := [] } }
    (if d.vst = 0x0C then d.setVaultState d.armState else d).armEval

/-- A format begins (R115, R123): both images go, every band is erased, and no slot is usable while it runs. [DEDUCED, log 49] -/
def Dev.formatBegin (d : Dev) : Dev :=
  let top := d.seqTop
  let d := d.discardHeld
  let gone (s : Slot) : Slot := { erasing := true, lastErased := match s.image with | some i => i.seq | none => s.lastErased }
  (d.setKennel { d.kennel with formatting := true, seqFloor := top, a := gone d.kennel.a, b := gone d.kennel.b }).s oDrillValid 0

/-- A value written to KennelFormat or, with `force`, KennelFormatForce (R115, R424). While a format runs, a case the rule does not give, it is refused with
STATE_CONFLICT. [DESIGN CHOICE, log 92] -/
def Dev.fxKennelFormat (d : Dev) (force : Bool) (v : Nat) : Reply :=
  let busy (s : Slot) : Bool := slotState s = 3 ∨ slotState s = 4 ∨ slotState s = 8
  if v = 0 then okR d
  else if d.seqBusy ∨ d.kennel.formatting then conflict d uVault
  else if ¬ force ∧ (busy d.kennel.a ∨ busy d.kennel.b) ∧ ¬ (d.kennel.valid ∧ ¬ d.keyOk) then conflict d uVault
  else okR d.formatBegin

/-- The remaps of a LUN's factory-bad blocks to its lowest reserve blocks (R114, R115); none where no unused reserve block would be left. -/
def remapBad (base count : Nat) (bad : List Nat) : Option (List (Nat × Nat)) :=
  let free := ((List.range count).map (base + ·)).filter fun b => ¬ bad.contains b
  let need := bad.filter (· < base)
  if free.length ≤ need.length then none else some (need.zip free)

/-- A LUN as a format leaves it: its remaps, and FAILED when its erase exceeds 10 ms (R111) or its reserve does not suffice. -/
def Kennel.formatLun (k : Kennel) (x : LunInfo) : Lun :=
  let r := remapBad k.reserveBase k.reserveBlocks x.bad
  { present := true, failed := decide (10 < x.eraseMs) || r.isNone, bad := x.bad, remap := r.getD [] }

/-- The initialisation of a LUN (Table 5.1): RESET, READ ID and READ PARAMETER PAGE, then SET FEATURES at SlcFeature's address with its value. -/
def Dev.onfiInit (d : Dev) (slc : Nat) (x : LunInfo) : Dev :=
  (d.emit .flash [kennelAddr x.lun 0 0, 0x40]).emit .flash [kennelAddr x.lun 0 0, 0x41, slc % 256, slc / 256]

/-- KENNEL_FORMAT_COMPLETE (R107, R108, R110 to R115, R120, R123): `found` is what the populated LUNs report. [DEDUCED, log 49] -/
def Dev.formatComplete (d : Dev) (found : List LunInfo) : Dev :=
  match (if d.kennel.formatting ∧ ¬ d.inVault ∧ d.sup = 2 ∧ d.vst ≠ 0x0A then refLun found else none) with
  | none => d
  | some ref =>
    let fits := found.filter fun x => x.ok ∧ x.same ref
    let use := fits.filter fun x => x.eraseMs ≤ 10
    let map := (List.range 256).filter fun n => use.any fun x => x.lun = n
    let slc := d.g oSlcFeature
    let d := found.foldl (Dev.onfiInit · slc) d
    let (c, d) := d.fresh
    let key := Config.vaultKey c
    let k := { d.kennel with valid := true, fmt := 3, slc := slc, serial := d.fuse.serial.getD 0, pageSize := ref.pageSize, planes := ref.planes, ppb := ref.ppb, bpl := ref.bpl }
    let k := if map.isEmpty then k else bands k map.length (d.g oScratchMiB)
    let luns : List (Nat × Lun) := found.foldl (fun m x => if x.lun < 256 then storeSet noLun m x.lun (k.formatLun x) else m) []
    let left := map.filter fun n => ¬ (storeGet noLun luns n).failed
    let worst := use.foldl (fun m x => max m x.progUs) 0
    let rateOk : Bool := use.all fun x => x.progUs ≤ 330 ∧ 3600 ≤ x.rate
    let d := d.setKennel { k with map := left, fmtMap := map, keyCheck := keyCheckOf key, luns := luns, a := {}, b := {}, formatting := false, scratchErase := false
                                , rateOk := rateOk, worst := min 65535 worst }
    let d := d.rewriteHeaders d.allLuns
    let d := (d.setKennel { d.kennel with key := some key }).nextImage
    let d := { d with faults := { d.faults with pages := [], wpA := 0, wpB := 0, eraseA := false, eraseB := false, blkA := 0, blkB := 0, step5Pages := false, flushing := [] } }
    let d := ((d.s oWorstProgramTime (min 65535 worst)).s oRateQualified (if rateOk then 1 else 0)).s oDrillValid 0
    let d := if fits.length < found.length then d.fault 24 else d
    if left.length < fits.length then d.fault 26 else d

/-- LUN `n` is treated as failed: it leaves LunMap, and DrillValid is cleared (R73, R114). -/
def Dev.lunFail (d : Dev) (n : Nat) : Dev :=
  let d := d.setLun n { d.lunOf n with failed := true }
  (d.setKennel { d.kennel with map := d.kennel.map.filter (· ≠ n) }).s oDrillValid 0

/-- LUN `n` becomes FAILED outside a vault (R114): every header is rewritten, and the Kennel-LUN source is raised. -/
def Dev.lunLost (d : Dev) (n : Nat) : Dev := ((d.lunFail n).rewriteHeaders d.allLuns).fault 26

/-- The lowest unused reserve block of LUN `n`. -/
def Dev.reserveFree (d : Dev) (n : Nat) : Option Nat :=
  let x := d.lunOf n
  let taken := x.remap.map (·.2) ++ x.relUsed ++ x.bad
  ((List.range d.kennel.reserveBlocks).map (d.kennel.reserveBase + ·)).find? fun b => ¬ taken.contains b

/-- The LUNs as WAKE finds them (R107, R108, R114): one that does not respond is lost, and one whose spare area or geometry does not serve leaves LunMap. -/
def Dev.lunsWake (d : Dev) (found : List LunInfo) : Dev :=
  let d := found.foldl (Dev.onfiInit · d.kennel.slc) d
  let fits (x : LunInfo) : Bool := x.ok && match refLun found with | some r => x.same r | none => false
  let dead := d.kennel.map.filter fun n => ¬ (found.any (·.lun = n)) ∨ (d.reserveFree n).isNone
  let d := dead.foldl Dev.lunLost d
  let misfit := found.filter fun x => ¬ fits x
  let out := d.kennel.map.filter fun n => misfit.any (·.lun = n)
  let d := if out.isEmpty then d else (d.setKennel { d.kennel with map := d.kennel.map.filter fun n => ¬ out.contains n }).rewriteHeaders d.allLuns
  if misfit.isEmpty then d else d.fault 24

/-- FLASH_BLOCK_FAIL (R114): outside a vault, an erase or program of a block fails, or the LUN gives no answer (`dead`). A reserve block that stands in for
another gives its part to the next. -/
def Dev.flashBlockFail (d : Dev) (n block : Nat) (dead : Bool) : Dev :=
  if ¬ d.kennel.map.contains n ∨ d.inVault then d
  else
    let d := d.fault (496 + n / 16)
    let x := d.lunOf n
    let d := d.setLun n { x with bad := if x.bad.contains block then x.bad else x.bad ++ [block] }
    let origin := ((x.remap.find? (·.2 = block)).map (·.1)).getD block
    let d : Dev := match (if d.kennel.reserveBase ≤ origin then none else d.reserveFree n) with
      | some b => d.setLun n { d.lunOf n with remap := (origin, b) :: (d.lunOf n).remap.filter (·.1 ≠ origin) }
      | none => d
    if dead ∨ (d.reserveFree n).isNone then d.lunLost n else d.rewriteHeaders [n]

/-- SLOT_ERASE_COMPLETE (R128). [DEDUCED, log 49] -/
def Dev.slotErased (d : Dev) (i : Nat) : Dev :=
  if 1 < i ∨ d.inVault ∨ d.kennel.formatting ∨ ¬ (d.slotK i).erasing then d else d.setSlotK i { d.slotK i with erasing := false, corrupt := false }

/-- Bytes the cache may come to hold dirty in the mode it runs in once bit 2 is clear (R127, Table 2.4). -/
def Dev.modeBytes (d : Dev) : Nat :=
  (if d.g oCacheModeRequested = 2 then 0 else if d.mirrorNew then 16777216 else 33554432) * 4096

/-- Slot `i` is usable (R127). -/
def Dev.slotUsable (d : Dev) (i : Nat) : Bool :=
  let l := d.usableLuns
  slotState (d.slotK i) = 0 ∧ d.kennel.valid ∧ ¬ d.kennel.formatting ∧ d.keyOk ∧ twoChannels d.kennel.map ∧
    (((d.g oFixedBytes + d.modeBytes + 65536 * l - 1) / (65536 * l)) * 103 + 99) / 100 ≤ d.slotRows

/-- The slot a vault targets (R127): the usable one; of two, the one whose last erased image is older, or A. -/
def Dev.vaultTarget (d : Dev) : Option Nat :=
  match d.slotUsable 0, d.slotUsable 1 with
  | true, true => if d.kennel.b.lastErased < d.kennel.a.lastErased then some 1 else some 0
  | true, false => some 0
  | false, true => some 1
  | false, false => none

/-- SLOT_USABILITY_CHECK (R127): bit 2 of WriteThroughCause is set while no slot is usable. -/
def Dev.usabilityCheck (d : Dev) : Dev :=
  let bad := d.vaultTarget.isNone
  if bit (d.g oWriteThroughCause) 2 = bad then d else (d.wtCause 2 bad).armEval

end Sys2Proof.Machine
end

