-- ==== Sys2Proof/Machine/Region.lean ====
section
/-! DEFINITION. The bytes of the machine-state region (R225): context table (R207), channel state (R216, R218), engine checkpoints (R250), queue
state (R275) and page list (R226). -/
namespace Sys2Proof.Machine

/-- A structure's fields with zeros up to `n - 4` bytes, then their CRC-32C (R119). -/
def sealed32 (n : Nat) (l : List Byte) : List Byte :=
  let b := padTo (n - 4) l
  b ++ leBytes 4 (crc32c b)

/-- Bytes of the pages of context `c` in class `cls`. -/
def Dev.ctxBytes (d : Dev) (c cls : Nat) : Nat := ((d.mem.pages.filter fun p => p.ctx = c ∧ p.cls = cls).map fun p => pageSz p.size).sum

/-- Entry `c` of the context table (Table 9.1). -/
def Dev.ctxEntry (d : Dev) (c : Nat) : List Byte :=
  let x := d.ctx c
  sealed32 64 (leBytes 2 c ++ leBytes 2 x.inst ++ leBytes 1 x.gen ++ leBytes 1 x.st ++ leBytes 2 x.scratchCore ++ leBytes 8 x.root
    ++ leBytes 8 (d.ctxBytes c 0) ++ leBytes 8 (d.ctxBytes c 1))

/-- A DMA descriptor as the Thozu keeps it (Table 9.4). -/
def Desc.bytes (x : Desc) : List Byte :=
  sealed32 64 (leBytes 1 x.op ++ leBytes 1 x.flags ++ leBytes 2 x.ctx ++ leBytes 2 x.inst ++ leBytes 1 x.gen ++ leBytes 1 x.dom ++ leBytes 8 x.src ++ leBytes 8 x.dst
    ++ leBytes 8 x.len ++ leBytes 8 x.progress ++ leBytes 2 x.vol ++ leBytes 1 x.cls ++ leBytes 1 x.status ++ leBytes 4 x.reserved ++ leBytes 8 x.user ++ leBytes 4 0)

/-- A fault record (Table 9.5). -/
def FaultRec.bytes (x : FaultRec) : List Byte :=
  sealed32 64 (leBytes 1 x.kind ++ leBytes 1 x.detail ++ leBytes 2 0 ++ leBytes 4 x.seq ++ leBytes 8 x.addr ++ leBytes 8 x.progress ++ leBytes 8 x.tag ++ leBytes 8 x.tick
    ++ leBytes 2 x.prg)

/-- The state of channel `i` (Table 9.7): its descriptor, zeros without one, and its fault record. -/
def Dev.chanBytes (d : Dev) (i : Nat) : List Byte :=
  (match (d.ch i).desc with | some x => x.bytes | none => List.replicate 64 0) ++ (d.ch i).fault.bytes

/-- A job descriptor as the Thozu keeps it (Table 10.2). -/
def Job.bytes (x : Job) : List Byte :=
  sealed32 128 (leBytes 1 x.op ++ leBytes 1 x.flags ++ leBytes 2 x.ctx ++ leBytes 2 x.inst ++ leBytes 1 x.gen ++ leBytes 1 x.dom ++ leBytes 8 x.src ++ leBytes 8 x.srcLen
    ++ leBytes 8 x.dst ++ leBytes 8 x.dstCap ++ leBytes 8 x.aux ++ leBytes 4 x.auxLen ++ leBytes 2 x.vol ++ leBytes 1 x.cls ++ leBytes 1 x.status ++ leBytes 8 x.inProg
    ++ leBytes 8 x.outProg ++ leBytes 8 x.user ++ leBytes 40 x.params ++ leBytes 4 x.reserved)

/-- The checkpoint of job slot `i` (Table 10.9). What a compression engine keeps of its own choices is free. [DESIGN CHOICE, log 91] -/
def Dev.slotBytes (d : Dev) (i : Nat) : List Byte :=
  let s := d.slot i
  let free (a n : Nat) : List Byte := (List.range n).map fun k => Config.engineState i (a + k)
  page4k ((match s.job with | some x => x.bytes | none => List.replicate 128 0) ++ leBytes 1 s.kind
    ++ leBytes 1 ((if s.inexact then 1 else 0) + (if s.pendingDone then 2 else 0)) ++ leBytes 2 0 ++ leBytes 4 s.ckptSeq ++ leBytes 8 s.count
    ++ leBytes 4 s.crc ++ free 0x94 16 ++ leBytes 4 0 ++ free 0xA8 32 ++ padTo 64 (s.hash.flatMap (beBytes 8)) ++ leBytes 8 s.bits ++ s.fault.bytes)

/-- Entry `k` of a quadrant's key-slot table (R250). -/
def Dev.keyBytes (d : Dev) (q k : Nat) : List Byte :=
  let x := storeGet noKey d.eng.keys (256 * q + k)
  sealed32 128 (leBytes 2 x.owner ++ leBytes 2 (if x.owner = 0xFFFF then 0 else 1) ++ leBytes 12 0 ++ leBytes 32 x.k1 ++ leBytes 32 x.k2)

/-- The queue-state record of queue pair `i` (R275). ResetStep is 0 while the instance's reset has not passed FENCE, and counts the steps of Table 11.11 from
FENCE, 0, on. [DEDUCED, log 44] -/
def Dev.queueBytes (d : Dev) (i : Nat) : List Byte :=
  let s := d.qs i
  let r := (d.irun (qInst (d.q i))).step
  sealed32 128 (leBytes 64 (d.q i).toNat ++ leBytes 4 s.sqHead ++ leBytes 4 s.sqTail ++ leBytes 4 s.cqTail ++ leBytes 4 s.cqHead ++ leBytes 1 (if s.phase then 1 else 0)
    ++ leBytes 1 ((if s.doorbell then 1 else 0) + (if r = 0 then 0 else 2)) ++ leBytes 1 (if r ≤ 1 then 0 else r) ++ leBytes 1 0
    ++ leBytes 4 s.outstanding)

/-- A page-list entry (Table 9.8). -/
def PageEntry.bytes (p : PageEntry) : List Byte :=
  leBytes 16 (p.phys * 2 ^ 76 + p.va % 2 ^ 48 * 2 ^ 16 + p.cls * 2 ^ 14 + p.size * 2 ^ 12 + (if p.table then 2 ^ 11 else 0) + p.level * 2 ^ 9)

/-- Segment `j` of the machine-state region (Table 9.7), with the page list's entries `pages`, of which `must` are MUST-VAULT. -/
def Dev.regionSeg (d : Dev) (must : Nat) (pages : List PageEntry) (j : Nat) : List Byte :=
  let run (first n : Nat) (f : Nat → List Byte) : List Byte := (List.range n).flatMap fun k => f (first + k)
  if j < 64 then run (65536 * j) 65536 fun k => [d.peek (msBase + k)]
  else if j = 64 then run 0 1024 d.ctxEntry
  else if j < 67 then run (512 * (j - 65)) 512 d.chanBytes
  else if j < 131 then
    let e := (j - 67) / 2
    if 20 ≤ e then List.replicate 65536 0
    else if (j - 67) % 2 = 0 then run (16 * e) 16 d.slotBytes
    else if e % 5 = 4 then padTo 65536 (run 0 256 (d.keyBytes (e / 5)))
    else List.replicate 65536 0
  else if j < 163 then run (512 * (j - 131)) 512 d.queueBytes
  else if j < 192 ∨ 448 ≤ j then List.replicate 65536 0
  else padTo 65536 (if j = 192 then leBytes 4 must ++ leBytes 4 (pages.length - must) ++ leBytes 8 0 ++ (pages.take 4095).flatMap PageEntry.bytes
    else ((pages.drop (4096 * (j - 192) - 1)).take 4096).flatMap PageEntry.bytes)

end Sys2Proof.Machine
end

