-- ==== Sys2Proof/Machine/Plan.lean ====
section
/-! DEFINITION. The vault plan and its image (R92, R94, R116 to R118, R122 to R125), and the layout of the event log (R409). -/
namespace Sys2Proof.Machine

/-- The order of step 3 (R94). -/
def Dev.planBefore (d : Dev) (a b : Version) : Bool :=
  let k (v : Version) := [vPrio (d.vol v.vol), v.vol, v.blk, v.seq]
  decide (k a < k b)

/-- Inserts a version into the order of step 3. -/
def Dev.planInsert (d : Dev) (v : Version) : List Version → List Version
  | [] => [v]
  | x :: r => if d.planBefore v x then v :: x :: r else x :: d.planInsert v r

/-- The dirty versions in the order of step 3. -/
def Dev.planDirty (d : Dev) : List Version := (d.cache.versions.filter (·.dirty)).foldr d.planInsert []

/-- The order of the page list (R226). -/
def pageBefore (a b : PageEntry) : Bool := decide ([a.ctx, if a.table then 0 else 1, a.va] < [b.ctx, if b.table then 0 else 1, b.va])

/-- Inserts a page into the order of the page list. -/
def pageInsert (p : PageEntry) : List PageEntry → List PageEntry
  | [] => [p]
  | x :: r => if pageBefore p x then p :: x :: r else x :: pageInsert p r

/-- The pages of a class in the order of the page list. -/
def Dev.planPages (d : Dev) (cls : Nat) : List PageEntry := (d.pageList.filter (·.cls = cls)).foldr pageInsert []

/-- Lays items out from segment `n` on; an item of no bytes is left out (R92). -/
def layItems : Nat → List (Nat × Nat × Nat) → List PlanItem
  | _, [] => []
  | n, (id, step, len) :: r =>
    if len = 0 then layItems n r
    else { id := id, step := step, first := n, segs := rnd len / 65536, len := len } :: layItems (n + rnd len / 65536) r

/-- The items of a plan (Table 4.6, Table 5.5). -/
def Dev.planItems (d : Dev) (dirty : Nat) (may : Bool) : List PlanItem :=
  layItems 0 ([(0x01, 1, 65536), (0x02, 2, 8388608), (0x03, 2, d.cacheCapacity * 16), (0x04, 3, dirty * 4096), (0x05, 4, 33554432)]
    ++ (d.coreNos.map fun n => (0x06 + 65536 * uCoreN n, 4, 262144)) ++ (d.heldQuads.map fun q => (0x07 + 65536 * uSram q, 4, 33554432))
    ++ [(0x08, 4, d.g oMustPageBytes), (0x09, 4, if may then d.g oMayDropBytes else 0), (0x0A, 5, 131072), (0x0B, 6, 65536)])

/-- rows_needed of R94. -/
def rowsNeeded (x l : Nat) : Nat := (((x + 65536 * l - 1) / (65536 * l)) * 103 + 99) / 100

/-- MAY-DROP pages are part of the plan (R94). -/
def Dev.mayFits (d : Dev) (dirty : Nat) : Bool :=
  let b := dirty * 4096
  let may := rnd (d.g oMayDropBytes)
  d.g oMayDropPolicy = 1 ∧ 0 < d.bUsed ∧ 0 < d.usableLuns ∧
    (((b + may + d.bUsed - 1) / d.bUsed : Nat) : Int) ≤ d.tTotal d.energy.vhold - (d.tFixedEff : Int) ∧
    rowsNeeded (d.g oFixedBytes + b + may) d.usableLuns ≤ d.slotRows

/-- What the vault saves of the machine. [DEDUCED, log 49; DESIGN CHOICE, log 79] -/
def Dev.snap (d : Dev) : Snap :=
  { cores := d.cores, mem := d.mem, eng := d.eng, insts := d.insts, volumes := d.cache.volumes, nextSeq := d.cache.nextSeq, writes := d.cache.writes ++ d.restore.redo }

/-- The image of a vault that begins now (R94, R122). -/
def Dev.newImage (d : Dev) : Image :=
  let dirty := d.planDirty
  let may := d.mayFits dirty.length
  let items := d.planItems dirty.length may
  { seq := d.g oImageSeqHigh, trigger := d.vault.trigger, t0 := d.vault.t0, serial := d.fuse.serial.getD 0, unarmed := d.vault.unarmed, mayDrop := may, mode := d.g oCacheModeActive
    capacity := d.cacheCapacity, keyCheck := d.kennel.keyCheck, plan := (items.map (·.segs)).sum, items := items, vers := dirty
    must := d.planPages 0, may := if may then d.planPages 1 else [], snap := d.snap, restripe := [{ fromSeg := 0, rowBase := 0, luns := d.kennel.map }] }

/-- The restripe table of an image; format 1 has none beyond the manifest's LunMap (Table 5.10). -/
def Image.stripes (m : Image) : List Restripe := if m.fmt < 2 then m.restripe.take 1 else m.restripe

/-- Row and LUN of segment `i` (R116). -/
def Image.place (m : Image) (i : Nat) : Option (Nat × Nat) :=
  match (m.stripes.filter (·.fromSeg ≤ i)).getLast? with
  | some e => if e.luns.isEmpty then none else
      let j := i - e.fromSeg
      some (listGet 0 e.luns (j % e.luns.length), e.rowBase + j / e.luns.length)
  | none => none

/-- per_copy of R409: the log blocks of each copy. -/
def Dev.logBlocksEach (d : Dev) : Nat :=
  let k := d.kennel
  min (k.logBlocks * k.fmtMap.length / 2) ((1048576 + 2048 * k.ppb - 1) / (2048 * k.ppb) + 2)

/-- LogRetainedPages (R409). -/
def Dev.logRetained (d : Dev) : Nat := (d.logBlocksEach - 1) * d.kennel.ppb - 2

/-- LUN and address of log page `k` of copy `c` (R409). -/
def Dev.logPlace (d : Dev) (c k : Nat) : Nat × Nat :=
  let l := d.kennel.fmtMap.length
  let u := 2 * ((k / d.kennel.ppb) % d.logBlocksEach) + c
  let lun := listGet 0 d.kennel.fmtMap (u % l)
  (lun, kennelAddr lun (d.remapped lun (d.kennel.logBase + u / l)) (k % d.kennel.ppb))

/-- The position of log page `k` of copy `c` is usable (R410). -/
def Dev.logUsable (d : Dev) (c k : Nat) : Bool := d.kennel.map.contains (d.logPlace c k).1

/-- The next usable page number of copy `c` from `k` on; none when none of its positions is usable (R410). -/
def Dev.logNext (d : Dev) (c k : Nat) : Option Nat :=
  if d.logBlocksEach = 0 ∨ d.kennel.ppb = 0 then none
  else if d.logUsable c k then some k
  else
    let b := k / d.kennel.ppb
    ((List.range d.logBlocksEach).find? fun j => d.logUsable c ((b + 1 + j) * d.kennel.ppb)).map fun j => (b + 1 + j) * d.kennel.ppb

/-- Where a vault writes its two step-5 segments (R410): the next two usable positions of copy A, or else of copy B. -/
def Dev.step5At (d : Dev) : Option (Nat × Nat × Nat) :=
  let two (c k : Nat) : Option (Nat × Nat × Nat) := (d.logNext c k).bind fun k => (d.logNext c (k + 1)).map fun j => (c, k, j)
  match two 0 d.faults.wpA with
  | some x => some x
  | none => two 1 d.faults.wpB

/-- The address of segment `i` of slot `slot` (R116): a step-5 segment lies in the event-log band; none when no row is left. -/
def Dev.segAddr (d : Dev) (m : Image) (slot i : Nat) : Option Nat :=
  match m.reloc.find? (·.1 = i) with
  | some r => some r.2
  | none => match (if m.stepOf i = 5 then d.step5At else none) with
    | some (c, k, j) => some (d.logPlace c (if i = m.upTo 4 then k else j)).2
    | none => match m.place i with
      | some (lun, row) =>
        if d.slotRows ≤ row then none
        else some (kennelAddr lun (d.remapped lun (d.slotBase slot + d.kennel.progress + row / d.kennel.ppb)) (row % d.kennel.ppb))
      | none => none

/-- The unflushed records of the ring, in sequence order. -/
def Dev.unflushed (d : Dev) : List EvRec :=
  ((d.faults.ring.filter fun s => ¬ s.flushed).map (·.ev)).foldr (fun e l => (l.takeWhile fun x => x.seq < e.seq) ++ e :: l.dropWhile fun x => x.seq < e.seq) []

/-- Step 5 of a vault is durable (R410): the records are flushed. -/
def Dev.step5Durable (d : Dev) : Dev :=
  let recs := d.unflushed
  match d.step5At with
  | none => d
  | some (c, k, j) =>
    let p : LogPage := { recs := recs, inA := if c = 0 then some k else none, inB := if c = 1 then some k else none, step5 := true }
    let ring : List RingSlot := d.faults.ring.map fun s => { s with flushed := true }
    let f := { d.faults with pages := d.faults.pages ++ [p], ring := ring, step5Pages := true }
    { d with faults := if c = 0 then { f with wpA := j + 1 } else { f with wpB := j + 1 } }

end Sys2Proof.Machine
end

