-- ==== Sys2Proof/Machine/Segments.lean ====
section
/-! DEFINITION. The bytes of an image's segments (Table 4.6, Table 5.5), their encryption (R121), and what is programmed. -/
namespace Sys2Proof.Machine

/-- A record as stored (Table 18.5). -/
def EvRec.bytes (r : EvRec) : List Byte :=
  let b := leBytes 6 r.seq ++ leBytes 2 (r.code + r.sev * 4096) ++ leBytes 2 r.unit ++ leBytes 2 r.drop ++ leBytes 4 r.p0 ++ leBytes 4 r.p1 ++ leBytes 4 r.p2 ++ leBytes 4 r.p3
  b ++ leBytes 4 (crc32c b)

/-- Frame `k` of a list of pages. -/
def frameAt : List PageEntry → Nat → Option (PageEntry × Nat)
  | [], _ => none
  | p :: r, k => let n := pageSz p.size / 4096; if k < n then some (p, k) else frameAt r (k - n)

/-- The pages of a pages item. -/
def Image.pagesOf (m : Image) (id : Nat) : List PageEntry := if id = 8 then m.must else m.may

/-- The frame whose metadata entry is the `n`-th: the frames of the pools in ascending channel order (R39). [DEDUCED, log 31] -/
def Dev.metaFrame (d : Dev) (n : Nat) : Option Nat :=
  (d.chansIn.foldl (fun (s : Nat × Option Nat) c =>
    let k := d.poolFrames c
    (s.1 - k, if s.2.isSome then s.2 else if s.1 < k then some (c * 2 ^ 28 + s.1) else none)) (n, none)).2

/-- A page of the event log: 2,048 record slots, those not filled all ones (R410). -/
def logPageBytes (l : List EvRec) : List Byte :=
  let b := (l.take 2048).flatMap EvRec.bytes
  b ++ List.replicate (65536 - b.length) 0xFF

/-- The bytes of segment `i` of the image in slot `slot`, before encryption. -/
def Dev.segPlain (d : Dev) (m : Image) (slot i : Nat) : List Byte :=
  match m.item i with
  | none => List.replicate 65536 0
  | some x =>
    let j := i - x.first
    let run (n : Nat) (f : Nat → List Byte) : List Byte := padTo 65536 ((List.range n).flatMap fun k => f (n * j + k))
    let u := x.id / 65536
    match x.id % 65536 with
    | 1 => padTo 65536 (m.manifestBytes slot false)
    | 2 => run 32 fun k => leBytes 2048 (d.vol k).toNat
    | 3 => run 4096 fun k => leBytes 16 (((d.metaFrame k).map d.frameEntry).getD 0)
    | 4 => run 16 fun k => leBytes 4096 (((m.vers[k]?).map (·.data)).getD 0)
    | 5 => d.regionSeg (d.planPages 0).length (d.planPages 0 ++ d.planPages 1) j
    | 6 => run 65536 fun k => [storeGet zeroByte (storeGet coreReset m.snap.cores (coreNo u)).scratch k]
    | 7 => run 65536 fun k => [storeGet zeroByte m.snap.mem.sram ((u / 0x100 - 0x10) * 2 ^ 25 + k)]
    | 8 | 9 => run 16 fun k => (match frameAt (m.pagesOf (x.id % 65536)) k with
        | some (p, n) => d.peekN ((p.phys + n) * 4096) 4096
        | none => [])
    | 10 => logPageBytes (d.unflushed.drop (2048 * j))
    | 11 => padTo 65536 (m.manifestBytes slot true ++ m.sealBytes slot)
    | _ => List.replicate 65536 0

/-- The tweak of a segment (R121). -/
def segTweak (seq i : Nat) : Nat := seq * 2 ^ 32 + i

/-- A 64 KiB segment encrypted under the vault key, or with `dec` decrypted (R121). -/
def segCrypt (dec : Bool) (key : BitVec 512) (seq i : Nat) (l : List Byte) : List Byte := xts dec (vaultK1 key) (vaultK2 key) (segTweak seq i) l

/-- What is programmed for segment `i`: its descriptor, for the spare area of each page, and its 65,536 bytes, encrypted in steps 2 to 4 (R117, R121). -/
def Dev.segData (d : Dev) (m : Image) (slot i : Nat) : List Byte :=
  let plain := d.segPlain m slot i
  let s := m.stepOf i
  m.descriptor slot i plain ++ (match (if 2 ≤ s ∧ s ≤ 4 then d.kennel.key else none) with
    | some key => segCrypt false key m.seq i plain
    | none => plain)

end Sys2Proof.Machine
end

