-- ==== Sys2Proof/Machine/Vault.lean ====
section
/-! DEFINITION. The vault sequence (04): triggers, FREEZE to RETAIN, failures on the way, power that returns, and DARK. -/
namespace Sys2Proof.Machine

/-- Replaces the vault's run. -/
def Dev.setRun (d : Dev) (v : VaultRun) : Dev := { d with vault := v }

/-- Every unit that runs activity. -/
def Dev.runners (d : Dev) : List Nat :=
  (upOrder uChip).filter fun u => d.present u ∧ ((kindOf u = 0x03) ∨ (5 ≤ kindOf u ∧ kindOf u ≤ 9))

/-- Stops every core, DMA channel and engine job at its boundary (R88, R224), with PREEMPT Detail QUIESCE. -/
def Dev.stopAll (d : Dev) : Dev := d.runners.foldl (fun d u => d.stopUnit u 0x02) d

/-- The plan of a sequence that starts now is empty (R104, R105). -/
def Dev.emptyPlan (d : Dev) : Bool :=
  bit (d.g oWriteThroughCause) 2 ∨ (d.restore.held.isSome ∧ (d.vst = 0x0A ∨ d.vst = 0x0B ∨ ¬ d.armed)) ∨ d.vst = 0x0A ∨ d.vst = 0x0B

/-- The slot of the held image; 0xFF none. -/
def Dev.heldSlot (d : Dev) : Nat := if d.kennel.a.held then 0 else if d.kennel.b.held then 1 else 0xFF

/-- A Pack member drives LSH_SYNC_N at its own PFAIL t0 (R84, R171). -/
def Dev.driveSync (d : Dev) : Dev :=
  if d.aon.lshEn then { d with aon := { d.aon with lshSyncDrive := true } } else d

/-- Releases LSH_SYNC_N (R171). -/
def Dev.releaseSync (d : Dev) : Dev := { d with aon := { d.aon with lshSyncDrive := false } }

/-- HOLD of Table 4.5: the bank feeds the protected rail, and the charger pauses. -/
def Dev.holdOn (d : Dev) : Dev := ({ d with aon := { d.aon with holdEn := true } }).charger 0x00

/-- e_bank of R170 in µJ at `v` mV, with VFloor, Efficiency and CapUsed of the last BEACON. -/
def Dev.packEnergy (d : Dev) (v : Nat) : Nat :=
  let f := d.pack.vFloor
  if v ≤ f then 0 else d.pack.capUsed * d.pack.effP * (v * v - f * f) / 2000000000

/-- What every t0 ends: a capacitance test, and the bank load with it (R71), a drill, whose scratch band is then to be erased (R74, R128), and the slot
power-ups that wait (R172). Page requests outstanding are to be issued again (R221). -/
def Dev.lossCuts (d : Dev) : Dev :=
  let d := if 2 ≤ d.energy.cap.step then d.capAbandon else d
  let d := if d.energy.drill.step = 0 then d else d.setKennel { d.kennel with scratchErase := true }
  { d with aon := { d.aon with bankLoad := false }, energy := { d.energy with drill := {} }, mem := { d.mem with reissue := d.mem.reissue || !d.mem.preqs.isEmpty }
         , pack := { d.pack with slotReqs := d.pack.slotReqs.filter (·.sends ≠ 0) } }

/-- The image being written. -/
def Dev.target_ (d : Dev) : Option Image := if d.vault.slot ≤ 1 then (d.slotK d.vault.slot).image else none

/-- No slot is the target of a running vault. -/
def Dev.noTarget (d : Dev) : Dev := (d.setSlotK 0 { d.slotK 0 with target := false }).setSlotK 1 { d.slotK 1 with target := false }

/-- The target slot is voided (R101, R102). -/
def Dev.voidTarget (d : Dev) : Dev := (if d.vault.slot ≤ 1 then d.closeImage d.vault.slot 2 else d).noTarget

/-- Begins the sequence (Table 4.5): FREEZE, HOLD for a power trigger, and QUIESCE once the supervisor runs (R74, R88, R123, R419). A t0 in RESCIND finds the
void record of the target slot written. [DEDUCED, log 50] -/
def Dev.vaultStart (d : Dev) (trig : Nat) : Dev :=
  let v := d.vst
  let drill := d.energy.drill
  let empty := d.emptyPlan
  let dirty := d.dirtyTotal
  let d := if v = 9 ∧ d.vault.ending = 2 then d.voidTarget else d.noTarget
  let d := d.record 0x500 0 uChip trig v 1 0
  let d := d.s oLastOutage (withCheck (trig + 2 * 256 + (if empty ∧ d.restore.held.isSome then d.heldSlot else 0xFF) * 256 ^ 3 + min (2 ^ 32 - 1) dirty * 256 ^ 4
    + d.now * 256 ^ 0x10 + 0xFFFF * 256 ^ 0x18))
  let d := d.lossCuts
  let d := if d.g oMarginMode = 1 then (d.s oMarginMode 0).restoreTargets else d
  let d := d.useSeq
  let e0 := d.packEnergy d.energy.vhold
  let d := { d with cache := { d.cache with frozen := true }, pack := { d.pack with ebank0 := e0 } }
  let d := d.setRun { trigger := trig, t0 := d.now, held := d.aon.wdRestart, guard := decide (trig ≤ 2), empty := empty, unarmed := decide (v = 0)
                    , prior := if v = 9 then d.vault.prior else v, shed := if v = 9 then d.vault.shed else drill.shed, spilled := if v = 9 then d.vault.spilled else [] }
  let d := if trig ≤ 2 then d.holdOn else d
  let d := { d with faults := { d.faults with haltDone := false } }
  let d := d.setVaultState 2
  if d.aon.wdRestart then d
  else
    let d := (d.setVaultState 3).furthest 3
    if drill.step = 3 then (d.setVaultState 4).furthest 4 else d

/-- The channels in service enter self-refresh (R88, R102, R309). -/
def Dev.selfRefresh (d : Dev) : Dev :=
  (List.range 8).foldl (fun d n =>
    if (d.chan n).st = 2 then (d.selfRefreshEnter n).setDom (uChan n) { st := 1 } else d) d

/-- WAKE begins (R132): rails return, and the outage ends. -/
def Dev.wakeFromRetain (d : Dev) : Dev :=
  let d := if d.aon.holdEn then { d with aon := { d.aon with holdEn := false } } else d
  let d := { d with restore := { d.restore with fromRetain := true, hostIo := false, readyTick := none, wasIo := if d.restore.fromRetain then d.restore.wasIo else d.restore.hostIo }, faults := { d.faults with haltDone := false } }
  (((d.setVaultState 0x0A).releaseSync).s oSupervisorState 1).beginUp.settleUp

/-- The sequence reaches RETAIN (R102, R103, R328), and WAKE at once where power returned after the final check of the rescind condition (R101). -/
def Dev.retain (d : Dev) : Dev :=
  let d := d.noTarget.selfRefresh
  let d := ((d.setVaultState 7).furthest 7).s oSupervisorState 5
  let d := d.powerDown (d.enRails.filter fun r => ¬ d.railFlag r 3) 8
  if d.vault.wakeDue then d.wakeFromRetain else d

/-- A t0 while a vault-path S3 holds the chip halted (R438): HOLD_EN and self-refresh by the supervisor's sideband, and RETAIN with nothing
saved. [DEDUCED, log 58] -/
def Dev.sidebandRetain (d : Dev) (trig : Nat) : Dev :=
  let d := d.record 0x500 0 uChip trig d.vst 1 0
  let d := d.s oLastOutage (withCheck (trig + 7 * 256 + 4 * 256 ^ 2 + 0xFF * 256 ^ 3 + min (2 ^ 32 - 1) d.dirtyTotal * 256 ^ 4 + d.now * 256 ^ 0x10 + 0xFFFF * 256 ^ 0x18))
  let d := d.lossCuts.setRun { trigger := trig, t0 := d.now, empty := true, prior := d.vst, shedDone := true, spill := true }
  (if trig ≤ 2 then d.holdOn else d).retain

/-- A t0 in WAKE entered from RETAIN (Table 6.3, Table 14.5): RETAIN again, with the outage as it was. -/
def Dev.retainAgain (d : Dev) (trig : Nat) : Dev :=
  let d := (d.record 0x500 0 uChip trig d.vst 1 0).lossCuts
  let d := if trig ≤ 2 then d.holdOn else d
  let d := (d.setVaultState 7).s oSupervisorState 5
  let d := { d with power := { d.power with seqUp := false } }
  d.powerDown (d.enRails.filter fun r => ¬ d.railFlag r 3) 8

/-- t0 of a trigger (R83 to R86, R147). Before power-good it is recorded, and the power-up that runs gives way to a power-down (Table 14.5). [DEDUCED, log 50; DEDUCED, log 51] -/
def Dev.t0 (d : Dev) (trig : Nat) : Dev :=
  let v := d.vst
  let d := if trig = 1 then d.driveSync else d
  if d.faults.haltDone ∧ d.faults.haltPath ∧ v ≠ 7 ∧ d.sup = 2 then d.sidebandRetain trig
  else if (2 ≤ v ∧ v ≤ 7) then
    let d := d.record 0x500 0 uChip trig v 0 0
    if trig ≤ 2 ∧ ¬ d.aon.holdEn then d.holdOn.setRun { d.vault with guard := true } else d
  else if v = 0 ∧ (d.sup ≠ 2 ∨ d.power.full) then
    let d := (d.record 0x500 0 uChip trig v 0 0).lossCuts
    if d.sup = 1 ∨ d.sup = 3 then d.fullDown else d
  else if v = 0x0A ∧ d.restore.fromRetain then d.retainAgain trig
  else d.vaultStart trig

/-- PFAIL_T0 (R81). -/
def Dev.pfailT0 (d : Dev) : Dev := d.t0 1

/-- LSH_SYNC_TRIGGER (R171): a filtered falling edge at a Pack member. [DEDUCED, log 50] -/
def Dev.syncTrigger (d : Dev) : Dev := if d.aon.lshEn then ({ d with aon := { d.aon with lshSyncN := false } }).t0 2 else d

/-- LSH_SYNC_STUCK (R171): low for 1 s while no roster node, this one among them, reports LocalPfail. -/
def Dev.syncStuck (d : Dev) : Dev :=
  if d.aon.lshEn ∧ ¬ d.aon.lshSyncDrive ∧ ¬ d.pack.nodes.any fun p => bit (d.g oRoster) p.1 ∧ bit p.2.flags 0 then d.faultLive 30 else d

/-- PWRBTN_LONG_PRESS (R336): trigger 0x03 at this instant. -/
def Dev.longPress (d : Dev) (len : Nat) : Dev := (d.record 0x103 0 uSup 4 len 0 0).t0 3

/-- A value written to VaultCommand (R83): trigger 0x05 or 0x06, refused while UNARMED. -/
def Dev.fxVaultCommand (d : Dev) (v : Nat) : Reply :=
  if v ≠ 1 ∧ v ≠ 2 then badValue d uChip
  else if ¬ d.armed ∨ d.inVault ∨ d.halted then conflict d uChip
  else okR (d.t0 (4 + v))

/-- QUIESCE_OVERRUN (R89): an activity misses its bound and is forced to stop. `kind`: 0 core, 1 DMA channel, 2 job slot. -/
def Dev.quiesceOverrun (d : Dev) (kind n : Nat) : Dev :=
  if d.vst ≠ 3 then d
  else match kind with
  | 0 => if d.coreNos.contains n ∧ ¬ (d.core n).stopped then d.stopCore n 0x02 true else d
  | 1 => if n < 1024 then d.stopChan n true else d
  | 2 => if n < 320 then d.stopSlot n true else d
  | _ => d

/-- QUIESCE_COMPLETE (R88). -/
def Dev.quiesceComplete (d : Dev) : Dev :=
  if d.vst = 3 then (d.stopAll.setVaultState 4).furthest 4 else d

/-- A vault channel with no LUN. -/
def Dev.chanEmpty (d : Dev) (n : Nat) : Bool := ¬ d.kennel.luns.any fun p => p.2.present ∧ p.1 / 16 = n

/-- SHED takes a domain of this unit to OFF (Table 4.5); a drill keeps the host port and the downstream complex (Table 3.4). -/
def Dev.shedsOff (d : Dev) (drill : Bool) (u : Nat) : Bool :=
  match kindOf u with
  | 0x0D | 0x0E | 0x0F => !drill
  | 0x13 => d.chanEmpty (u - 0x2480)
  | 0x01 | 0x04 | 0x05 | 0x06 | 0x07 | 0x08 | 0x09 | 0x0A => true
  | _ => false

/-- The domains SHED takes to OFF, in up order. -/
def Dev.shedOff (d : Dev) (drill : Bool) : List Nat :=
  (upOrder uChip).filter fun u => hasDomain u ∧ d.present u ∧ d.shedsOff drill u

/-- The domains SHED takes to RET. -/
def Dev.shedRet (d : Dev) : List Nat := (upOrder uChip).filter fun u => d.present u ∧ (kindOf u = 0x03 ∨ kindOf u = 0x0B)

/-- One domain is shed to state `s`, whatever it was doing: in a vault what waits for it is refused (R90); its commands are abandoned at the drives (R462),
its pads hold (R353). -/
def Dev.shedOne (d : Dev) (s u : Nat) : Dev :=
  let x := d.dom u
  if x.st = s ∨ x.st = 2 then d
  else
    let d := if d.inVault then d.refuseStalls u else d
    let d := d.setDom u { st := s, stalled := (d.dom u).stalled, arr := (d.dom u).arr }
    let d := if hasPads u ∧ ¬ d.doms.padHeld.contains u then d.setPads (d.doms.padHeld ++ [u]) else d
    if kindOf u = 0x0F then d.portDown (u - 0x2280)
    else if kindOf u = 0x0D then d.hostPortReset else d

/-- The state a domain is to return to: a transition counts as where it was going. -/
def Dev.homeSt (d : Dev) (u : Nat) : Nat :=
  let x := d.dom u
  if x.st = 3 then 0 else if x.st = 4 then x.entry.getD 0 else x.st

/-- Sheds, and notes what each domain is to return to; what is already noted stays. -/
def Dev.shedAll (d : Dev) (drill : Bool) (noted : List (Nat × Nat)) : List (Nat × Nat) × Dev :=
  let off := (d.shedOff drill).reverse
  let ret := d.shedRet.reverse
  let l := ((off ++ ret).filter fun u => ¬ noted.any (·.1 = u)).map fun u => (u, d.homeSt u)
  (noted ++ l, ret.foldl (Dev.shedOne · 1) (off.foldl (Dev.shedOne · 2) d))

/-- SHED_COMPLETE (R88, R328): the shed list is OFF and the ShedAtVault rails are released. -/
def Dev.shedComplete (d : Dev) : Dev :=
  if d.vst ≠ 4 ∨ d.vault.shedDone then d
  else
    let (l, d) := d.shedAll false d.vault.shed
    let d := d.setRun { d.vault with shed := l, shedDone := true }
    (d.s oSupervisorState 5).powerDown (d.enRails.filter fun r => d.railFlag r 4) 8

/-- No BEACON has arrived for 5 ms (R170); the master sends its own. -/
def Dev.beaconSilent (d : Dev) : Bool :=
  if d.g oPackRole = 1 then false else match d.pack.beaconTick with
  | some t => t + 5000 ≤ d.now
  | none => true

/-- R170: the start offset has passed, and in version 2 the waves before this one are done, or the master is silent. -/
def Dev.offsetPassed (d : Dev) : Bool :=
  ¬ d.granted ∨ (d.vault.t0 + d.g oGrantOffset ≤ d.now ∧
    (d.g oOpVersion < 2 ∨ d.pack.grantWave = 0 ∨ d.pack.grantWave = 0xFF ∨ (d.pack.waveDone ≠ 0xFF ∧ d.pack.grantWave ≤ d.pack.waveDone + 1) ∨ d.beaconSilent))

/-- VAULT_BEGIN (R92, R94, R104, R105, R122): the plan is built in the target slot; with none usable it is empty. -/
def Dev.vaultBegin (d : Dev) : Dev :=
  if d.vst ≠ 4 ∨ ¬ d.vault.shedDone ∨ ¬ d.offsetPassed then d
  else
    let d := (d.setVaultState 5).furthest 5
    match (if d.vault.empty then none else d.vaultTarget) with
    | none => d.setRun { d.vault with empty := true }
    | some t =>
      let m := d.newImage
      let d := d.setSlotK t { d.slotK t with image := some m, target := true }
      (d.setRun { d.vault with slot := t }).outage 3 1 t

/-- Replaces the image being written. -/
def Dev.setTarget (d : Dev) (m : Image) : Dev :=
  if d.vault.slot ≤ 1 then d.setSlotK d.vault.slot { d.slotK d.vault.slot with image := some m } else d

/-- RETAIN with no seal: result `res` (R98, R104), counted. -/
def Dev.retainBare (d : Dev) (res : Nat) : Dev := ((d.outage 2 1 res).inc oVaultsPartial 32).retain

/-- Where the spill area begins in DRAM (R95). [DESIGN CHOICE, log 79] -/
def spillBase : Nat := Config.spillFrame.toNat * 2 ^ 12

/-- Where the contents of a spilled unit lie in the spill area, and their length: core scratches, then quadrant SRAM. [DESIGN CHOICE, log 79] -/
def spillPlace (u : Nat) : Nat × Nat :=
  if kindOf u = 0x03 then (spillBase + coreNo u * 2 ^ 18, 2 ^ 18) else (spillBase + 2 ^ 24 + (u / 0x100 - 0x10) * 2 ^ 25, 2 ^ 25)

/-- The contents of a core's scratch or a quadrant's SRAM, from offset 0. -/
def Dev.retBytes (d : Dev) (u : Nat) : List (Nat × Byte) :=
  let q := u / 0x100 - 0x10
  if kindOf u = 0x03 then (d.core (coreNo u)).scratch else (d.mem.sram.filter fun p => p.1 / 2 ^ 25 = q).map fun p => (p.1 % 2 ^ 25, p.2)

/-- Replaces the contents of a core's scratch or a quadrant's SRAM. -/
def Dev.setRetBytes (d : Dev) (u : Nat) (l : List (Nat × Byte)) : Dev :=
  let q := u / 0x100 - 0x10
  if kindOf u = 0x03 then d.setCore (coreNo u) { d.core (coreNo u) with scratch := l }
  else { d with mem := { d.mem with sram := l.foldl (fun m p => storeSet zeroByte m (q * 2 ^ 25 + p.1) p.2) (d.mem.sram.filter fun p => p.1 / 2 ^ 25 ≠ q) } }

/-- One RET domain is spilled (R95): it wakes with VaultPath, is copied to the spill area of DRAM and goes OFF. -/
def Dev.spillOne (d : Dev) (u : Nat) : Dev :=
  if d.domSt u ≠ 1 then d
  else
    let d := d.refill
    let d := { d with doms := { d.doms with level := d.doms.level - d.wakeCharge u } }
    let (base, n) := spillPlace u
    let dram := (d.retBytes u).foldl (fun m p => storeSet zeroByte m (base + p.1) p.2) (d.mem.dram.filter fun p => ¬ (base ≤ p.1 ∧ p.1 < base + n))
    let d := ({ d with mem := { d.mem with dram := dram } } : Dev).setRetBytes u []
    (d.setDom u { st := 2 }).setRun { d.vault with spilled := d.vault.spilled ++ [u] }

/-- Copies spilled contents back (R101). -/
def Dev.unspill (d : Dev) : Dev :=
  let d := d.vault.spilled.foldl (fun (d : Dev) u =>
    let (base, n) := spillPlace u
    d.setRetBytes u ((d.mem.dram.filter fun p => base ≤ p.1 ∧ p.1 < base + n).map fun p => (p.1 - base, p.2))) d
  d.setRun { d.vault with spilled := [] }

/-- SPILL_COMPLETE (R95): scratch and SRAM are in DRAM and their domains OFF; an empty plan ends here (R104, R105). -/
def Dev.spillComplete (d : Dev) : Dev :=
  if d.vst ≠ 5 ∨ d.vault.spill then d
  else
    let d := d.shedRet.foldl Dev.spillOne d
    let d := d.setRun { d.vault with spill := true }
    if d.vault.empty then d.retainBare 4 else d

/-- The durable prefix with the programmed segments that join it (R96). -/
def prefixOf (done : List Nat) : Nat → Nat → Nat
  | 0, n => n
  | f + 1, n => if done.contains n then prefixOf done f (n + 1) else n

/-- Every segment of steps 1 to 5 is durable: SEAL, and the seal's program command is issued (R86, R97, R125). -/
def Dev.sealIssue (d : Dev) (m : Image) : Dev :=
  let slot := d.vault.slot
  let ring := (List.range 2).map fun k => (d.segAddr m slot (m.upTo 4 + k)).getD 0
  let m := { m with evLast := d.g oEventSeqHead, ring := ring }
  let d := (d.setTarget m).step5Durable
  let d := (d.setVaultState 6).furthest 6
  (d.setRun { d.vault with commit := true }).emit .flash [(d.segAddr m slot (m.plan - 1)).getD 0, 6] (d.segData m slot (m.plan - 1))

/-- Segments issued and neither durable nor failed. -/
def Dev.inFlight (d : Dev) (m : Image) : Nat := d.vault.issued - m.durable - m.done.length - d.vault.cut.length

/-- Rescind from its second action on (R101): the target slot is voided, HOLD_EN is released, the charger resumes, and the SHED rails come up. -/
def Dev.rescindGo (d : Dev) : Dev :=
  let d := d.voidTarget
  let d := ({ d with aon := { d.aon with holdEn := false } }).setRun { d.vault with ending := 0 }
  let d := if d.chargeWanted then d.chargeStart else d
  (d.s oSupervisorState 1).beginUp.settleUp

/-- The end that waited for the segments in flight (R98, R101): a final progress record and RETAIN, or the rescind. -/
def Dev.endFlight (d : Dev) : Dev :=
  let n := match d.target_ with | some m => d.inFlight m | none => 0
  if d.vault.ending = 0 ∨ 0 < n then d
  else if d.vault.ending = 2 then d.rescindGo
  else
    let d := d.setRun { d.vault with ending := 0 }
    match d.target_ with
    | some m => let (m, d) := d.progress d.vault.slot m; (d.setTarget m).retainBare 2
    | none => d.retainBare 2

/-- Segments of the image being written are in flight: VAULT, or RESCIND until they have ended. -/
def Dev.writes (d : Dev) : Bool := d.vst = 5 ∨ (d.vst = 9 ∧ d.vault.ending = 2)

/-- The units of segment `i` that carry a poison marker (R100): the unreadable ones of `mask`, but not of a version that has a COPY, and every version that is
Poison already. -/
def Image.markers (m : Image) (i mask : Nat) : Nat :=
  match m.item i with
  | some x =>
    if x.id = 4 then (List.range 16).foldl (fun n k => match m.vers[16 * (i - x.first) + k]? with
      | some v => if v.poison ∨ (mask.testBit k ∧ v.copy.isNone) then n + 2 ^ k else n
      | none => n) 0
    else mask % 65536
  | none => 0

/-- A progress record is due for the durable prefix `n` (R96). -/
def Dev.recordDue (d : Dev) (m : Image) (n : Nat) : Bool :=
  d.vault.mark ≤ n * 65536 ∨ ((n = m.upTo 1 ∨ n = m.upTo 2 ∨ n = m.upTo 4) ∧ m.recorded ≠ n)

/-- SEGMENT_PROGRAM_DONE (R95 to R98, R101, R116, R121, R124): segment `i` reports success; `mask` are its 4 KiB units that DRAM did not give. `issued`
segments have been issued by then, of step 4 none before the spill has ended, and none at all once the sequence ends. -/
def Dev.segDone (d : Dev) (i issued mask : Nat) : Dev :=
  match (if d.writes then d.target_ else none) with
  | none => d
  | some m =>
    let top := if d.vault.stop then d.vault.issued else min (if d.vault.spill then m.plan - 1 else m.upTo 3) (max d.vault.issued issued)
    let d := d.setRun { d.vault with issued := top }
    if top ≤ i ∨ i < m.durable ∨ m.done.contains i ∨ d.vault.cut.contains i then d
    else match d.segAddr m d.vault.slot i with
    | none => d.retainBare 2
    | some a =>
      let marks := m.markers i mask
      let m := { m with poison := if marks = 0 then m.poison else m.poison ++ [(i, marks)] }
      let d := d.emit .flash [a, m.stepOf i] (d.segData m d.vault.slot i)
      let m := { m with done := m.done ++ [i], manifest := m.manifest || decide (i = 0) }
      let n := prefixOf m.done m.done.length m.durable
      let m := { m with durable := n, done := m.done.filter fun j => n ≤ j }
      let due := d.recordDue m n
      let (m, d) := if due ∨ 227 < m.waitRelocs.length then d.progress d.vault.slot m else (m, d)
      let d := if due then d.setRun { d.vault with mark := (n * 65536 / 268435456 + 1) * 268435456 } else d
      let d := (d.setTarget m).outage 8 8 (n * 65536)
      if n = m.plan - 1 ∧ d.vault.ending = 0 then d.sealIssue m else d.endFlight

/-- The sequence ends in RETAIN, or in the power-down of triggers 0x03 and 0x05 (Table 4.3). -/
def Dev.afterSeal (d : Dev) : Dev :=
  if d.vault.trigger = 3 ∨ d.vault.trigger = 5 then d.noTarget.fullDown else d.retain

/-- SEAL_DURABLE (R86, R97, R125). [DESIGN CHOICE, log 80] -/
def Dev.sealDurable (d : Dev) : Dev :=
  match (if d.vst = 6 ∧ d.vault.commit ∧ ¬ d.power.full then d.target_ else none) with
  | none => d
  | some m =>
    let d := d.setTarget { m with sealOk := true, durable := m.plan - 1 }
    (((d.inc oVaultsSealed).outage 2 1 1).outage 8 8 (m.plan * 65536)).afterSeal

/-- The next free row for a relocation on LUN `n` (R116): of the reserve block that relocations fill, or of the lowest unused one, with the LUN after it.
Reserve rows that relocations took become free at the next format alone, which the rules leave open. [DESIGN CHOICE, log 92] -/
def Dev.relocRow (d : Dev) (n : Nat) : Option (Nat × Nat × Lun) :=
  let x := d.lunOf n
  let fresh : Option (Nat × Nat × Lun) := (d.reserveFree n).map fun b => (b, 0, { x with relUsed := b :: x.relUsed, relocRows := 1 })
  match x.relUsed with
  | b :: _ => if x.relocRows < d.kennel.ppb ∧ ¬ x.bad.contains b then some (b, x.relocRows, { x with relocRows := x.relocRows + 1 }) else fresh
  | [] => fresh

/-- A segment goes to the reserve block of a surviving LUN, the lowest-numbered with room, and its address becomes a relocation (R116). [DEDUCED, log 49] -/
def Dev.relocate (d : Dev) (m : Image) (i : Nat) : Option (Image × Dev) :=
  (d.kennel.map.find? fun n => (d.relocRow n).isSome).bind fun n => (d.relocRow n).map fun (b, row, x) =>
    ({ m with reloc := m.reloc.filter (·.1 ≠ i) ++ [(i, kennelAddr n b row)] }, d.setLun n x)

/-- Relocates segments in turn; none when no room is left for one. -/
def Dev.relocateAll (d : Dev) (m : Image) (l : List Nat) : Option (Image × Dev) :=
  l.foldl (fun o i => o.bind fun (m, d) => d.relocate m i) (some (m, d))

/-- Every vault channel is lost (Table 4.8). -/
def Dev.vaultLost (d : Dev) : Dev := d.retainBare 2

/-- The LUN on which segment `i` is written. -/
def Dev.segLun (d : Dev) (m : Image) (i : Nat) : Nat := ((d.segAddr m d.vault.slot i).getD 0) / 2 ^ 56

/-- LUN `lun` leaves the plan (R100, R116): its segments in flight are reissued on other LUNs, and the rest of the plan is striped anew, or with eight restripe
entries goes on by relocation alone. Once the sequence ends, nothing is reissued. -/
def Dev.lunOut (d : Dev) (m : Image) (lun : Nat) : Dev :=
  let flight := ((List.range (d.vault.issued - m.durable)).map (m.durable + ·)).filter fun i => ¬ m.done.contains i ∧ ¬ d.vault.cut.contains i ∧ d.segLun m i = lun
  let d := d.lunFail lun
  if d.kennel.map.isEmpty then d.vaultLost
  else if d.vault.ending ≠ 0 then (d.setRun { d.vault with cut := d.vault.cut ++ flight }).endFlight
  else match d.relocateAll m flight with
  | none => d.vaultLost
  | some (m, d) =>
    let top := (List.range d.vault.issued).foldl (fun t i => match m.place i with | some p => max t (p.2 + 1) | none => t) 0
    d.setTarget (if d.vst = 5 ∧ m.restripe.length < 8 then { m with restripe := m.restripe ++ [{ fromSeg := d.vault.issued, rowBase := top, luns := d.kennel.map }] } else m)

/-- Both copies of the latest progress record are lost, each after one rewrite on the next page of its block (R124). -/
def Dev.recordLost (d : Dev) (m : Image) : Dev :=
  match (m.recs.filter (·.kind = 1)).getLast? with
  | none => d
  | some r => d.setTarget { m with recs := m.recs.filter (· ≠ r), recPages := ((d.recLuns m).filter (d.recRoom m)).foldl (fun l n => storeMod noPages l n (· + 1)) m.recPages }

/-- FLASH_PROGRAM_FAIL (R100, R124): the program of segment `i` fails, or with `rec` both copies of the latest progress record. -/
def Dev.programFail (d : Dev) (i : Nat) (rec : Bool) : Dev :=
  match (if d.writes ∨ (d.vst = 6 ∧ d.vault.commit) then d.target_ else none) with
  | none => d
  | some m =>
    let lun := d.segLun m i
    if rec then d.recordLost m
    else if d.vst = 6 then
      let d := d.fault (496 + d.segLun m (m.plan - 1) / 16)
      if d.vault.sealTry then d.vaultLost
      else match d.relocate m (m.plan - 1) with
      | some (m, d) => ((d.setTarget m).setRun { d.vault with sealTry := true }).emit .flash [(d.segAddr m d.vault.slot (m.plan - 1)).getD 0, 6] (d.segData m d.vault.slot (m.plan - 1))
      | none => d.vaultLost
    else if m.durable ≤ i ∧ i < m.plan - 1 ∧ ¬ m.done.contains i ∧ ¬ d.vault.cut.contains i then
      let d := d.fault (496 + lun / 16)
      let d := d.setRun { d.vault with issued := if d.vault.stop then d.vault.issued else max d.vault.issued (i + 1) }
      if d.vault.issued ≤ i then d
      else if (d.reserveFree lun).isNone then d.lunOut m lun
      else if d.vault.ending ≠ 0 then (d.setRun { d.vault with cut := d.vault.cut ++ [i] }).endFlight
      else match d.relocate m i with
      | some (m, d) => d.setTarget m
      | none => d.vaultLost
    else d

/-- LUN_FAIL_DURING_VAULT (R100, R116). -/
def Dev.lunFailVault (d : Dev) (lun : Nat) : Dev :=
  if ¬ d.kennel.map.contains lun ∨ ¬ ((2 ≤ d.vst ∧ d.vst ≤ 6) ∨ d.writes) then d
  else
    let d := d.fault (496 + lun / 16)
    match (if d.writes ∨ d.vst = 6 then d.target_ else none) with
    | some m => d.lunOut m lun
    | none => d.lunFail lun

/-- An S3 in the vault path aborts the vault (R100): no further segment is issued, and RETAIN follows with the unit named. -/
def Dev.vaultAbort (d : Dev) (u : Nat) : Dev :=
  if 2 ≤ d.vst ∧ d.vst ≤ 6 then (d.outage 0x18 2 u).retainBare 2 else d

/-- e_avail of the energy guard at `v` mV (R98, R170); with e_bank(t0) = 0 the spec states no quotient, and the value is free. -/
def Dev.guardEnergy (d : Dev) (v : Nat) : Nat :=
  if ¬ d.granted then d.eAvail v
  else if d.pack.ebank0 = 0 then Config.ebank d.free else d.g oGrantEnergy * 1000 * d.packEnergy v / d.pack.ebank0

/-- ENERGY_GUARD_CHECK (R98): `v` is the bank voltage in mV. Once it finds too little, no further segment is issued. [DEDUCED, log 50] -/
def Dev.energyGuard (d : Dev) (v : Nat) : Dev :=
  let low : Bool := decide (d.guardEnergy v < d.g oERetainMin * 1000)
  let d := { d with free := d.free + 1 }
  if d.vault.guard ∧ (d.vst = 5 ∨ (d.vst = 6 ∧ ¬ d.vault.commit)) ∧ ¬ d.vault.empty ∧ d.vault.ending = 0 ∧ low then
    (d.setRun { d.vault with stop := true, ending := 1 }).endFlight
  else d

/-- Rescind (R101): no further segment is issued, and what follows waits for those in flight. -/
def Dev.rescind (d : Dev) : Dev := ((d.setVaultState 9).setRun { d.vault with stop := true, ending := 2 }).endFlight

/-- RESCIND_TIMER_EXPIRE (R81, R101, R102, R171): VIN has been good for RescindInterval. [DEDUCED, log 50] -/
def Dev.rescindTimer (d : Dev) : Dev :=
  let d := d.releaseSync
  let d := ({ d with aon := { d.aon with lshSyncN := true } }).unlive 30
  let v := d.vst
  if 2 < d.vault.trigger ∨ d.vault.trigger = 0 then d
  else if (2 ≤ v ∧ v ≤ 5) ∨ (v = 6 ∧ ¬ d.vault.commit) then d.rescind
  else if v = 6 then d.setRun { d.vault with wakeDue := true }
  else if v = 7 then d.wakeFromRetain
  else d

/-- The shed domains return (R101 action 4), and what ran in each unit that is ON resumes (action 5). -/
def Dev.unshed (d : Dev) (shed : List (Nat × Nat)) : Dev :=
  let back := (upOrder uChip).filter fun u => shed.any (·.1 = u)
  let was (u : Nat) : Nat := ((shed.find? (·.1 = u)).map (·.2)).getD 0
  let d := back.foldl (fun d u => if was u = 0 then (if d.domSt u = 0 then d else d.domainOn u) else d.setDom u { d.dom u with st := was u }) d
  ((d.runners.filter fun u => d.domSt u = 0 ∧ ¬ (shed.any (·.1 = u))).foldl Dev.resumeUnit d)

/-- FREEZE is released: admission and the commands that waited go on (R101 action 6, Table 6.4, R148). -/
def Dev.unfreeze (d : Dev) : Dev :=
  let d := { d with cache := { d.cache with frozen := false } }
  let d := (List.range 4).foldl (fun d q => if (d.avsOf q).step = 0 then d.opNext q else d) d
  d.throughKick.redoKick.readKick.releaseHost

/-- The state an outage that lost nothing returns to: the RESTORE or FETCH it interrupted (R137), else ARMED or UNARMED (R78). -/
def Dev.afterOutage (d : Dev) : Nat :=
  if d.restore.held.isSome ∧ (d.vault.prior = 0x0A ∨ d.vault.prior = 0x0B ∨ d.vault.prior = 0x0C) then d.vault.prior else d.armState

/-- RESCIND_RESUME_COMPLETE (R101): actions 4 to 6 have ended. [DEDUCED, log 50] -/
def Dev.rescindResume (d : Dev) : Dev :=
  if d.vst ≠ 9 ∨ d.power.seqUp ∨ d.vault.ending ≠ 0 then d
  else
    let next := d.afterOutage
    let d := d.tlbEmpty.unspill.unshed d.vault.shed
    let d := ((d.inc oVaultsRescinded).outage 2 1 3).setRun { d.vault with shed := [] }
    let slot := d.vault.slot
    let d := (d.setVaultState next).unfreeze.reissuePages.drainAgain
    let d := if slot ≤ 1 then d.eraseSlot slot else d
    d.armEval

/-- RETAIN_TO_DARK (R103): the bank falls below VMin, or a RetainKeep rail faults. -/
def Dev.retainToDark (d : Dev) : Dev := if d.vst = 7 then d.dark else d

/-- SUPERVISOR_RESTART_COMPLETE (R419): the supervisor runs again, and a vault that hardware held goes on. -/
def Dev.supRestarted (d : Dev) : Dev :=
  let d := { d with aon := { d.aon with wdRestart := false } }
  if d.vault.held ∧ d.vst = 2 then ((d.setRun { d.vault with held := false }).setVaultState 3).furthest 3 else d

end Sys2Proof.Machine
end

