-- ==== Sys2Proof/Machine/Drill.lean ====
section
/-! DEFINITION. Vault drills (R72 to R74, R128). -/
namespace Sys2Proof.Machine

/-- Replaces the drill's state. -/
def Dev.setDrill (d : Dev) (x : Drill) : Dev := { d with energy := { d.energy with drill := x } }

/-- FREEZE, QUIESCE and SHED of a drill (Table 3.4): the shed list but the host port and the downstream complex. -/
def Dev.drillBegin (d : Dev) : Dev :=
  let d := d.useSeq
  let d := { d with cache := { d.cache with frozen := true } }
  let d := (d.setDrill { step := 3 }).stopAll
  let (l, d) := d.shedAll true []
  d.setDrill { step := 3, shed := l }

/-- A drill may start (R72): power is good, and no test, vault, restore, Fetch or other drill runs; a slot is usable. -/
def Dev.drillMay (d : Dev) : Bool :=
  d.sup = 2 ∧ ¬ d.halted ∧ ¬ d.seqBusy ∧ d.vst ≠ 0x0C ∧ ¬ d.energy.drill.due ∧ d.vaultTarget.isSome

/-- Starts a drill, or lets it wait for the erase of the scratch band (R128). [DEDUCED, log 51] -/
def Dev.drillGo (d : Dev) : Dev :=
  if d.kennel.scratchErase then d.setDrill { d.energy.drill with due := true } else d.drillBegin

/-- A value written to DrillStart (R72). -/
def Dev.fxDrillStart (d : Dev) (v : Nat) : Reply :=
  if v = 0 then okR d else if d.drillMay then okR d.drillGo else conflict d uChip

/-- DRILL_INTERVAL_EXPIRE (R72). -/
def Dev.drillInterval (d : Dev) : Dev := if d.g oDrillInterval ≠ 0 ∧ d.drillMay then d.drillGo else d

/-- Bytes a drill writes: DrillBytes, at most the scratch region's capacity (R72). -/
def Dev.drillBytes (d : Dev) : Nat :=
  min (d.g oDrillBytes * 1048576) (d.kennel.scratchBlocks * d.kennel.ppb * 65536 * d.usableLuns)

/-- Segment `n` of a drill (R72, R121): the segments of steps 2 to 4 in the vault order, from its start again when it is exhausted, each with its descriptor and
encrypted with the drill's sequence and its own index. [DEDUCED, log 49] -/
def Dev.drillSeg (d : Dev) (m : Image) (n : Nat) : List Byte :=
  let i := m.upTo 1 + n % (max 1 (m.upTo 4 - m.upTo 1))
  let plain := d.segPlain m 2 i
  m.descriptor 2 i plain ++ (match d.kennel.key with | some key => segCrypt false key m.seq n plain | none => plain)

/-- The program of a drill's segments in the scratch band. -/
def Dev.drillWrite (d : Dev) (bytes : Nat) : Dev :=
  let m := { d.newImage with seq := d.g oImageSeqHigh }
  d.emit .flash [kennelAddr (listGet 0 d.kennel.map 0) d.kennel.scratchBase 0, 0x07, bytes] ((List.range ((bytes + 65535) / 65536)).flatMap (d.drillSeg m))

/-- DRILL_WRITE_END (R72): VAULT of a drill ends with `bytes` written in `dur` µs, at an averaged input power of `power` mW. -/
def Dev.drillWriteEnd (d : Dev) (bytes dur power : Nat) : Dev :=
  let x := d.energy.drill
  if x.step = 3 ∧ 0 < dur ∧ (d.drillBytes ≤ bytes ∨ 1000000 ≤ dur) then
    (d.drillWrite (min bytes d.drillBytes)).setDrill { x with step := 4, bytes := min bytes d.drillBytes, power := power, dur := dur }
  else d

/-- DRILL_RESUME_COMPLETE (R72, R73, R128): the machine resumes, the results of a valid drill are stored, and the scratch band is erased. -/
def Dev.drillResume (d : Dev) : Dev :=
  let x := d.energy.drill
  if x.step ≠ 4 then d
  else
    let ok := ¬ x.faulted
    let d := ((d.setDrill {}).unshed x.shed).unfreeze
    let d := if ok then ((d.s oDrillRate (min (2 ^ 32 - 1) (x.bytes / x.dur))).s oDrillPower (min (2 ^ 32 - 1) x.power)).s oDrillValid 1 else d
    let d := d.record 0x401 0 uChip (x.bytes / x.dur) x.power (if ok then 1 else 0) 0
    (d.setKennel { d.kennel with scratchErase := true }).recompute

/-- SCRATCH_ERASE_COMPLETE (R128): a drill that waited for it starts. -/
def Dev.scratchErased (d : Dev) : Dev :=
  if ¬ d.kennel.scratchErase ∨ d.inVault then d
  else
    let due := d.energy.drill.due
    let d := (d.setKennel { d.kennel with scratchErase := false }).setDrill { d.energy.drill with due := false }
    if due ∧ d.drillMay then d.drillBegin else d

end Sys2Proof.Machine
end

