-- ==== Sys2Proof/Machine/Pages.lean ====
section
/-! DEFINITION. Pages of programs that are moved or dropped (R215, R312): their table entries and the page list. -/
namespace Sys2Proof.Machine

/-- Location of the entry for `va` in the table at level `target`, from level `lvl` on; none when no table stands there. -/
def Dev.entryLoc (d : Dev) (va target : Nat) : Nat → Nat → Option Nat
  | lvl, t =>
    let loc := t + 8 * (va / 2 ^ (12 + 9 * lvl) % 512)
    if lvl = target then some loc
    else match lvl with
      | 0 => none
      | n + 1 => let e := d.peekLe loc 8
                 if bit e 0 ∧ ¬ bit e 4 then d.entryLoc va target n (tePhys e) else none

/-- Level of the leaf of a page size. -/
def pageLvl (size : Nat) : Nat := if size = 3 then 2 else if size = 2 then 1 else 0

/-- Locations of the entries that map page `p`: 16 of a 64 KiB page, none of a table page. -/
def Dev.pageEntries (d : Dev) (p : PageEntry) : List Nat :=
  if p.table then []
  else match d.entryLoc p.va (pageLvl p.size) 3 (d.ctx p.ctx).root with
    | some loc => if p.size = 1 then (List.range 16).map fun j => loc / 128 * 128 + 8 * j else [loc]
    | none => []

/-- A table entry with V = 0 and Kind DROPPED, its class and permissions kept (R215). -/
def teDropped (e : Nat) : Nat := e - e % 2 - teKind e * 2 ^ 9 + 2 * 2 ^ 9

/-- Removes page `p` from the list of pages, with the residency bits of its frames. -/
def Dev.unlistPage (d : Dev) (p : PageEntry) : Dev :=
  let mine (k : Nat) : Bool := p.phys ≤ k ∧ k < p.phys + pageSz p.size / 4096
  { d with mem := { d.mem with pages := d.mem.pages.filter (· ≠ p), resid := d.mem.resid.filter fun k => ¬ mine k } }.sumPages

/-- Presents page `p` as dropped (R215); the lines of a table page that is lost carry Poison. -/
def Dev.dropPage (d : Dev) (p : PageEntry) : Dev :=
  if p.table then
    let own := (List.range 64).map fun i => p.phys * 64 + i
    { d with mem := { d.mem with poison := d.mem.poison.filter (fun l => ¬ own.contains l) ++ own, resid := d.mem.resid.filter (· ≠ p.phys) } }
  else ((d.pageEntries p).foldl (fun d loc => d.pokeLe loc 8 (teDropped (d.peekLe loc 8))) d).unlistPage p

/-- An entry with another frame, at byte `off` within the page. -/
def teMoved (e pa : Nat) : Nat := e - tePhys e + pa

/-- Firmware moves page `p` to another frame (R312): its bytes, and the entry or the root that names it. A page for which no frame is left
is dropped. -/
def Dev.movePage (d : Dev) (p : PageEntry) : Dev :=
  let size := pageSz p.size
  match d.allocFrame size with
  | none => d.dropPage p
  | some (pa, d) =>
    let src := p.phys * 4096
    let moved := (d.mem.dram.filter fun x => src ≤ x.1 ∧ x.1 < src + size).map fun x => (x.1 - src + pa, x.2)
    let d := moved.foldl (fun d x => d.poke x.1 x.2) (d.zeroFrame pa size)
    let bad := (d.mem.poison.filter fun l => src ≤ l * 64 ∧ l * 64 < src + size).map fun l => l + pa / 64 - src / 64
    let d := { d with mem := { d.mem with poison := d.mem.poison ++ bad, pages := d.mem.pages.map fun x => if x = p then { p with phys := pa / 4096 } else x } }
    let q := { p with phys := pa / 4096 }
    if p.table then
      if p.level = 3 then d.setCtx p.ctx { d.ctx p.ctx with root := pa }
      else match d.entryLoc p.va (p.level + 1) 3 (d.ctx p.ctx).root with
        | some loc => d.pokeLe loc 8 (teMoved (d.peekLe loc 8) pa)
        | none => d
    else
      let l := d.pageEntries q
      (l.zip (List.range l.length)).foldl (fun d x => d.pokeLe x.1 8 (teMoved (d.peekLe x.1 8) (pa + 4096 * x.2))) d

end Sys2Proof.Machine
end

