-- ==== Sys2Proof/Machine/Dram.lean ====
section
/-! DEFINITION. The DRAM controller (13): the command at an opportunity (R301, R303 to R308), alerts, temperatures, self-refresh exit,
retraining, quarantine and rescue, and the population at power-on (R461). -/
namespace Sys2Proof.Machine

/-- Predictor counters start at 0b10 (R301). -/
def ctrD : Nat → Nat := fun _ => 2

/-- Key of a request's bank. -/
def DramReq.key (q : DramReq) : Nat := q.rank * 32 + q.bank

/-- Bank `k` of a subchannel. -/
def SubChan.bank (x : SubChan) (k : Nat) : Bank := storeGet noBank x.banks k

/-- Replaces bank `k`. -/
def SubChan.setBank (x : SubChan) (k : Nat) (b : Bank) : SubChan := { x with banks := storeSet noBank x.banks k b }

/-- The predictor at an activate or column command to bank `k` for row `row` (R301). -/
def SubChan.touch (x : SubChan) (k row : Nat) : SubChan :=
  let b := x.bank k
  let hit := b.lastRow = some row
  let c := storeGet ctrD x.ctr b.idx
  let x := if b.pend then { x with ctr := storeSet ctrD x.ctr b.idx (if hit then min 3 (c + 1) else c - 1) } else x
  let b := if b.pend then { b with hist := (b.hist * 2 + if hit then 1 else 0) % 256, pend := false } else b
  x.setBank k { b with lastRow := some row }

/-- The row stays open after a column command to bank `k` (R301), and the predictor's note of it. -/
def SubChan.keepOpen (x : SubChan) (policy k : Nat) : Bool × SubChan :=
  if policy ≠ 0 then (decide (policy = 1), x)
  else match ((x.reads ++ x.writes).filter fun q => q.key = k).foldl (fun (o : Option DramReq) q => match o with
      | none => some q
      | some p => if q.id < p.id then some q else some p) none with
    | some q => (decide ((x.bank k).lastRow = some q.row), x)
    | none =>
      let b := x.bank k
      (decide (2 ≤ storeGet ctrD x.ctr b.hist), x.setBank k { b with idx := b.hist, pend := true })

/-- The entry with the least count, lowest index on a tie: its index. -/
def leastAct (l : List ActCount) : Nat :=
  ((l.zip (List.range l.length)).foldl (fun (o : Option (ActCount × Nat)) p => match o with
    | none => some p
    | some b => if p.1.count < b.1.count then some p else some b) none).elim 0 (·.2)

/-- Counts an activate (R308): `rows` rows a bank has; the neighbours of a row that reaches the threshold fall due. -/
def SubChan.countAct (x : SubChan) (t br rows rank bank row : Nat) : SubChan :=
  let i := ((List.range x.acts.length).find? fun i => match x.acts[i]? with | some a => a.rank = rank ∧ a.bank = bank ∧ a.row = row | none => false)
  let new : ActCount := { rank := rank, bank := bank, row := row, count := 0 }
  let least := leastAct x.acts
  let slot : Nat × List ActCount := match i with
    | some i => (i, x.acts)
    | none => if x.acts.length < 1024 then (x.acts.length, x.acts ++ [new])
              else (least, listSet x.acts least { new with count := (listGet new x.acts least).count })
  let (i, acts) := slot
  let a : ActCount := listGet new acts i
  if a.count + 1 < t then { x with acts := listSet acts i { a with count := a.count + 1 } }
  else
    let near : List NeighbourDue := (List.range br).flatMap fun d =>
      (if d + 1 ≤ row then [⟨rank, bank, row - (d + 1)⟩] else []) ++ (if row + (d + 1) < rows then [⟨rank, bank, row + (d + 1)⟩] else [])
    { x with acts := listSet acts i { a with count := 0 }, due := x.due ++ near }

/-- The next command of a request: 0 activate, 1 column, 2 precharge. -/
def SubChan.next (x : SubChan) (q : DramReq) : Nat :=
  match (x.bank q.key).openRow with
  | none => 0
  | some r => if r = q.row then 1 else 2

/-- The order of R305 does not hold back the next command of a request. -/
def SubChan.free (x : SubChan) (q : DramReq) : Bool :=
  x.next q ≠ 1 ∨ ¬ (x.reads ++ x.writes).any fun p => p.line = q.line ∧ p.id < q.id

/-- Precedence of a request (Table 13.5). -/
def Dev.dramRow (d : Dev) (q : DramReq) : Nat :=
  if q.tag.testBit 0 then 2 else if d.g oAgeLimit ≤ d.now - q.at_ then 3 else 4

/-- Urgency of a request (R303). -/
def Dev.urgency (d : Dev) (q : DramReq) : Nat :=
  let t := fieldOf (d.g oPortLatencyTarget) (4 * q.port) 4
  let a := (d.now - q.at_) * 100000
  if a < 50 * t then 0 else if a < 75 * t then 1 else if a < 90 * t then 2 else 3

/-- Selection order of a request (Table 13.5). -/
def Dev.dramKey (d : Dev) (x : SubChan) (q : DramReq) : List Nat :=
  let r := d.dramRow q
  if r = 4 then [4, q.tag / 2 ^ 42 % 4, 3 - d.urgency q, if x.next q = 1 then 0 else 1, q.at_, q.id] else [r, q.at_, q.id]

/-- The request that the opportunity goes to: `held` are the banks that device timing holds back. -/
def Dev.dramPick (d : Dev) (i : Nat) (held : List Nat) : Option DramReq :=
  let x := d.subch i
  let cut := d.isolated (uChan (i / 2))
  let ok := fun (q : DramReq) => ¬ held.contains q.key ∧ x.free q
  let reads := x.reads.filter ok
  let writes := (if cut then [] else x.writes).filter fun q => ok q ∧ (d.dramRow q ≤ 3 ∨ x.draining ∨ reads.isEmpty)
  (reads ++ writes).foldl (fun (o : Option DramReq) q => match o with
    | none => some q
    | some p => if d.dramKey x q < d.dramKey x p then some q else some p) none

/-- A column command (R301, R304, R306): the request leaves its queue; `res` is what the read found: 0 good, 1 corrected,
and then written back (12), 2 uncorrectable. -/
def Dev.dramColumn (d : Dev) (i : Nat) (q : DramReq) (res : Nat) : Dev :=
  let n := i / 2
  let x := if d.g oPagePolicy = 0 then (d.subch i).touch q.key q.row else d.subch i
  let x := { x with reads := x.reads.filter (·.id ≠ q.id), writes := x.writes.filter (·.id ≠ q.id), retry := x.retry ++ [(⟨q, 0⟩ : Retry)] }
  let (keep, x) := x.keepOpen (d.g oPagePolicy) q.key
  let x := if keep then x else x.setBank q.key { x.bank q.key with openRow := none }
  let x := { x with draining := x.draining && decide (16 < x.writes.length) }
  let d := (d.setSub i x).emit .dram [n, i % 2, (if q.write then 2 else 1) + (if keep then 0 else 2), q.key, q.row, q.col]
  let d := if q.write then d
    else if res = 1 then ((d.incU (uChan n) oCorrectedReads 64).emit .dram [n, i % 2, 12, q.key, q.row, q.col]).dramDone q.id false
    else if res = 2 then
      let d := (d.incU (uChan n) oUncorrectableReads).raise { src := 464 + n, acc := 1, iUnit := q.tag / 2 ^ 16 % 2 ^ 16, iInst := q.tag / 2 ^ 52, addr := q.line * 64, tag := tagPoison q.tag }
      d.dramDone q.id true
    else d.dramDone q.id false
  d.dramAdmit i

/-- Issues the next command of the request that is chosen. -/
def Dev.dramIssue (d : Dev) (i : Nat) (q : DramReq) (res : Nat) : Dev :=
  let x := d.subch i
  match x.next q with
  | 0 =>
    let y := (if d.g oPagePolicy = 0 then x.touch q.key q.row else x).countAct (d.g oRowHammerThreshold) (d.g oBlastRadius) (2 ^ (d.chan (i / 2)).r) q.rank q.bank q.row
    (d.setSub i (y.setBank q.key { y.bank q.key with openRow := some q.row })).emit .dram [i / 2, i % 2, 0, q.key, q.row, 0]
  | 1 => d.dramColumn i q res
  | _ => (d.setSub i (x.setBank q.key { x.bank q.key with openRow := none })).emit .dram [i / 2, i % 2, 5, q.key, 0, 0]

/-- A neighbour refresh that is due (R308), in a bank that is not held; an open row is closed first. [DEDUCED, log 54] -/
def Dev.dramNeighbour (d : Dev) (i : Nat) (held : List Nat) : Option Dev :=
  let x := d.subch i
  match x.due.find? fun r => ¬ held.contains (r.rank * 32 + r.bank) with
  | none => none
  | some r =>
    let k := r.rank * 32 + r.bank
    if (x.bank k).openRow.isSome then some ((d.setSub i (x.setBank k { x.bank k with openRow := none })).emit .dram [i / 2, i % 2, 5, k, 0, 0])
    else some (((d.setSub i { x with due := x.due.erase r }).emit .dram [i / 2, i % 2, 8, k, r.row, 0]).incU (uChan (i / 2)) oNeighbourRefreshes 64)

/-- A refresh at its deadline or an RFM of a bank address of a rank (R295, R304): rows of that bank open in any group close first. [DEDUCED, log 54] -/
def Dev.dramDeadline (d : Dev) (i kind rank bank : Nat) : Dev :=
  let x := d.subch i
  let ks := (List.range 8).map fun g => rank * 32 + g * 4 + bank % 4
  if ks.any fun k => (x.bank k).openRow.isSome then
    (d.setSub i (ks.foldl (fun x k => x.setBank k { x.bank k with openRow := none }) x)).emit .dram [i / 2, i % 2, 5, rank * 32 + bank % 4, 0, 0]
  else d.emit .dram [i / 2, i % 2, kind, rank * 32 + bank % 4, 0, 0]

/-- DRAM_COMMAND_ISSUE (R301, R303 to R308): one command opportunity of subchannel `i`. `held`: banks (32 · rank + bank) that device timing
holds back; `passed`: oldest entries of the retry buffer whose alert window has passed; `must`: a refresh at its deadline (6) or an RFM (7)
with rank and bank; `res`: what a read finds. [DEDUCED, log 54] -/
def Dev.dramCommand (d : Dev) (i : Nat) (held : List Nat) (passed : Nat) (must : Option (Nat × Nat × Nat)) (res : Nat) : Dev :=
  let n := i / 2
  let s := (d.chan n).st
  if 16 ≤ i ∨ ¬ (s = 2 ∨ s = 4) ∨ d.domSt (uChan n) = 1 ∨ (d.subch i).stopped then d
  else
    let x := d.subch i
    let d := d.setSub i { x with retry := x.retry.drop passed }
    if 64 ≤ (d.subch i).retry.length then d
    else
      let rest := fun (_ : Unit) => match d.dramPick i held with
        | some q => d.dramIssue i q res
        | none => d
      match must with
      | some (6, r, b) => d.dramDeadline i 6 r b
      | some (7, r, b) => (d.dramNeighbour i held).getD (d.dramDeadline i 7 r b)
      | _ => match d.dramNeighbour i held with
        | some d => d
        | none => rest ()

/-- ACTIVATE_TABLE_CLEAR (R308). -/
def Dev.actsClear (d : Dev) : Dev :=
  { d with dram := { d.dram with subs := storeMapV noSub (fun _ x => { x with acts := [] }) d.dram.subs } }

/-- MR4_READ (R295, R310, R311): the devices of channel `n` read `t` in 0.1 °C; a retraining falls due by the drift since the last one, or over a
self-refresh that has ended. -/
def Dev.mr4Read (d : Dev) (n : Nat) (t : Int) : Dev :=
  let c := d.chan n
  if 8 ≤ n ∨ ¬ d.serving n ∨ c.st = 3 then d
  else
    let far (s : Int) : Bool := (d.g oRetrainDrift : Int) * 10 ≤ t - s ∨ (d.g oRetrainDrift : Int) * 10 ≤ s - t
    d.setChan n { c with temp := t, srTemp := none, retrain := c.retrain || far c.trainTemp || c.srTemp.any far }

/-- Replays the retry buffer, oldest first (R307). [DEDUCED, log 54] -/
def Dev.replay (d : Dev) (i : Nat) : List Retry → List Retry → Dev
  | l, [] => d.setSub i { d.subch i with retry := l }
  | l, c :: r =>
    let c := { c with replays := c.replays + 1 }
    if 3 < c.replays then ((d.setSub i { d.subch i with retry := l ++ c :: r, stopped := true }).fault (472 + i / 2))
    else (d.emit .dram [i / 2, i % 2, 11, c.req.key, c.req.row, c.req.col]).replay i (l ++ [c]) r

/-- DRAM_ALERT (R307): ALERT_n at subchannel `i` for rank `rank`. -/
def Dev.dramAlert (d : Dev) (i rank : Nat) : Dev :=
  if 16 ≤ i ∨ ¬ d.serving (i / 2) ∨ (d.subch i).stopped then d
  else
    let x := d.subch i
    let x := { x with banks := storeMapV noBank (fun k b => if k / 32 = rank then { b with openRow := none } else b) x.banks }
    ((d.setSub i x).incU (uChan (i / 2)) oReplays).replay i [] x.retry

/-- SELF_REFRESH_EXIT (R310): the channel serves again, and its domain is ON. -/
def Dev.refreshExit (d : Dev) (n : Nat) : Dev :=
  let c := d.chan n
  if 8 ≤ n ∨ c.st ≠ 3 ∨ d.domSt (uChan n) ≠ 3 then d
  else
    let long := match c.srSince with | some t => decide (t + 32000 ≤ d.now) | none => false
    let d := if long then (d.setSub (2 * n) { d.subch (2 * n) with acts := [] }).setSub (2 * n + 1) { d.subch (2 * n + 1) with acts := [] } else d
    ((d.setChan n { c with st := 2, srSince := none, srTemp := some c.temp }).emit .dram [n, 0, 10, 0, 0, 0]).domainOn (uChan n)

/-- The mirror-lost source follows R313. -/
def Dev.mirrorCheck (d : Dev) : Dev :=
  let lost := d.g oCacheModeRequested = 1 ∧ ¬ d.mirrorPossible
  let d := d.modeUpdate
  if lost then (if d.faults.live.testBit 11 then d else d.faultLive 11) else d.unlive 11

/-- A channel is out of service for R298. -/
def Dev.chanOut (d : Dev) (n : Nat) : Bool := let s := (d.chan n).st; (d.chan n).populated ∧ (s = 4 ∨ s = 5)

/-- Renames frame `f` to `g` wherever the cache refers to it. [DEDUCED, log 55] -/
def Dev.reframe (d : Dev) (f g : Nat) : Dev :=
  let d := d.modVer f fun v => { v with frame := g }
  let moved (x : DriveCmd) : DriveCmd := if x.owner = 1 ∧ x.ref = f then { x with ref := g } else x
  let c := d.cache
  { d with cache := { c with destages := mapIf (·.frame = f) (fun x => { x with frame := g }) c.destages, fills := mapIf (fun x => x.owner = 1 ∧ x.ref = f) (fun x => { x with ref := g }) c.fills, fails := c.fails.map fun x => if x.1 = f then (g, x.2) else x }, ports := { d.ports with ports := storeMapV noPort (fun _ p => { p with cmds := p.cmds.map moved }) d.ports.ports }, mem := { d.mem with resid := d.mem.resid.map fun k => if k = frameKey f then frameKey g else k } }

/-- Of a version with a copy in channel `n`, the other copy alone is left (R61). -/
def Dev.splitCopy (d : Dev) (n : Nat) (v : Version) : Dev :=
  match v.copy with
  | some c =>
    if frameChan v.frame = n then (d.modVer v.frame fun v => { v with copy := none }).reframe v.frame c
    else if frameChan c = n then d.modVer v.frame fun v => { v with copy := none }
    else d
  | none => d

/-- Begins the quarantine of channel `n` (R61, R312 step 1): its CLEAN frames and its copies leave at once, or lets it wait for the end of a vault sequence. [DEDUCED, log 55] -/
def Dev.quarantine (d : Dev) (n : Nat) : Dev :=
  let c := d.chan n
  if ¬ c.populated ∨ c.st = 4 ∨ c.st = 5 then d
  else if d.inVault then d.setChan n { c with quarDue := true }
  else
    let d := ((d.setChan n { c with st := 4, quarDue := false }).fault (488 + n))
    let d := d.setVers (d.cache.versions.filter fun v => ¬ (v.st = 1 ∧ frameChan v.frame = n))
    let d := (d.cache.versions.foldl (fun d v => d.splitCopy n v) d).trimPools.mirrorCheck
    if d.chanOut ((n + 4) % 8) then d.fault 8 else d

/-- RETRAIN_DUE (R311): channel `n` retrains at `t` 0.1 °C. `outcome`: 0 a setting passes, 1 only the last good one, 2 neither. [DEDUCED, log 54] -/
def Dev.retrainDue (d : Dev) (n outcome : Nat) (t : Int) : Dev :=
  let c := d.chan n
  if 8 ≤ n ∨ c.st ≠ 2 ∨ d.inVault ∨ d.domSt (uChan n) ≠ 0 ∨ ¬ (c.retrain ∨ c.trained + d.g oRetrainInterval * 1000000 ≤ d.now) then d
  else
    let d := d.incU (uChan n) oRetrains
    if 2 ≤ outcome then d.quarantine n
    else
      let d := (d.setChan n { c with retrain := false, trained := d.now, temp := t, trainTemp := t }).su (uChan n) oTrainTemperature (unsignedOf 2 t)
      if outcome = 1 then d.fault (480 + n) else d

/-- A value written to ChannelCommand (R315): Channel, Action and two reserved bytes. -/
def Dev.fxChannelCommand (d : Dev) (v : Nat) : Reply :=
  let n := byteOf v 0
  let a := byteOf v 1
  if 8 ≤ n ∨ a = 0 ∨ 2 < a ∨ 65536 ≤ v then badValue d uMem
  else
    let s := (d.chan n).st
    if s = 0 ∨ s = 4 ∨ s = 5 ∨ d.inVault ∨ (a = 1 ∧ d.chansIn = [n]) then conflict d uMem
    else if a = 1 then okR (d.quarantine n) else okR (d.setChan n { d.chan n with retrain := true })

/-- Rescues one version from channel `n` (R312 step 2); `bad` are the frames that read uncorrectable. [DEDUCED, log 55] -/
def Dev.rescueOne (d : Dev) (n : Nat) (bad : List Nat) (v : Version) : Dev :=
  match v.copy with
  | some _ => d.splitCopy n v
  | none =>
    match d.bestPool d.chansIn with
    | none => d
    | some m =>
      let (g, d) := d.takeFrame m
      let d := d.reframe v.frame g
      if bad.contains v.frame then (d.modVer g fun v => { v with poison := true }).fault 12 else d

/-- Versions with a frame or a COPY in channel `n`. -/
def Dev.versIn (d : Dev) (n : Nat) : List Version :=
  d.cache.versions.filter fun v => frameChan v.frame = n ∨ v.copy.any fun c => frameChan c = n

/-- QUARANTINE_RESCUE_COMPLETE (R312 steps 2 to 5): `bad` are frames, and `badPages` frame numbers of pages, that read uncorrectable. It waits
while the other pools have no room. [DEDUCED, log 55] -/
def Dev.rescueComplete (d : Dev) (n : Nat) (bad badPages : List Nat) : Dev :=
  let move := (d.versIn n).filter fun v => frameChan v.frame = n ∧ v.copy.isNone
  if 8 ≤ n ∨ (d.chan n).st ≠ 4 ∨ d.inVault ∨ (d.chansIn.map d.poolFree).sum < move.length then d
  else
    let d := (d.versIn n).foldl (fun d v => d.rescueOne n bad v) d
    let pages := d.mem.pages.filter fun p => chanOf (p.phys * 4096) = n
    let d := pages.foldl (fun d p => if badPages.contains p.phys then d.dropPage p else d.movePage p) d
    let d := (d.setChan n { d.chan n with st := 5 }).tlbEmpty
    let d := d.mirrorCheck.recompute
    let d := (d.liveInsts.filter fun i => d.instState i = 1).foldl (fun d i => d.smartWarn i 4) d
    d.rejudge.throughKick

/-- Quarantines that waited for the end of a vault sequence (R312). -/
def Dev.quarResume (d : Dev) : Dev :=
  (List.range 8).foldl (fun d n => if (d.chan n).quarDue then d.quarantine n else d) d

/-- Capacity of a channel in GiB: two subchannels of 32 data bits. -/
def chanGiB (ranks width gbit : Nat) : Nat := 2 * ranks * (32 / width) * gbit / 8

/-- A configuration of Table 13.1. -/
def foundOk : FoundChan → Bool
  | (ranks, width, gbit, _) => (ranks = 1 ∨ ranks = 2) ∧ (width = 4 ∨ width = 8 ∨ width = 16) ∧ (gbit = 16 ∨ gbit = 24 ∨ gbit = 32) ∧
      [8, 12, 16, 24, 32].contains (chanGiB ranks width gbit)

/-- Two channels hold the same. -/
def foundSame (a b : FoundChan) : Bool := a.1 = b.1 ∧ a.2.1 = b.2.1 ∧ a.2.2.1 = b.2.2.1

/-- An unpopulated channel. -/
def foundNone : FoundChan := (0, 8, 16, 0)

/-- The largest populated set that qualifies (R461). -/
def popSet (l : List FoundChan) : List Nat :=
  let z := listGet foundNone l 0
  let all (s : List Nat) : Bool := foundOk z ∧ s.all fun n => foundSame (listGet foundNone l n) z
  if all [0, 1, 2, 3, 4, 5, 6, 7] then [0, 1, 2, 3, 4, 5, 6, 7] else if all [0, 2, 4, 6] then [0, 2, 4, 6] else if all [0, 4] then [0, 4] else []

/-- DRAM at power-on (R132, R311, R461): the population, its training at `speed` MT/s; `failed` channels do not train. -/
def Dev.dramBringUp (d : Dev) (l : List FoundChan) (speed : Nat) (failed : List Nat) : Dev :=
  let set := popSet l
  let d := { d with dram := {} }
  let d := set.foldl (fun d n =>
    let f := listGet foundNone l n
    let x : Chan := { populated := true, ranks := f.1, width := f.2.1, gbit := f.2.2.1, cap := chanGiB f.1 f.2.1 f.2.2.1 * 1024, st := 1, temp := f.2.2.2, trainTemp := f.2.2.2, trained := d.now }
    let d := (d.setChan n x).su (uChan n) oTrainTemperature (unsignedOf 2 f.2.2.2)
    if failed.contains n then (d.setChan n { x with st := 5 }).fault (488 + n) else d.setChan n { x with st := 2 }) d
  let d := d.s oDramSpeed (min speed (d.ge oMaxDramSpeed))
  let d := if set.isEmpty then d.fault 8
    else if (List.range 8).any fun n => (listGet foundNone l n).1 ≠ 0 ∧ ¬ set.contains n then d.faultLive 31 else d
  let d := if set.any fun n => d.chanOut n ∧ d.chanOut ((n + 4) % 8) then d.fault 8 else d
  d.mirrorCheck

end Sys2Proof.Machine
end

