-- ==== Sys2Proof/Machine/Restore.lean ====
section
/-! DEFINITION. Restore and Fetch (06): the choice of the source, resume from DRAM, full restore, Fetch, command fates, and lost ranges. -/
namespace Sys2Proof.Machine

/-- Replaces the state of restore. -/
def Dev.setRestore (d : Dev) (r : Restore) : Dev := { d with restore := r }

/-- The durable prefix of an image (R133). -/
def Image.pfx (m : Image) : Nat := if m.sealOk then m.plan - 1 else m.recorded

/-- The key of the keep store decrypts the image (R120). -/
def Dev.imageKey (d : Dev) (m : Image) : Bool := match d.kennel.key with | some k => keyCheckOf k = m.keyCheck | none => false

/-- The image in slot `i` is usable (R133): `read`, none where its manifest is not readable, else the segments found unreadable. [DEDUCED, log 53; DESIGN CHOICE, log 80] -/
def Dev.imageUsable (d : Dev) (i : Nat) (read : Option (List Nat)) : Bool :=
  match (d.slotK i).image, read with
  | some m, some l => d.imageKey m ∧ m.upTo 2 ≤ m.pfx ∧ ¬ ((m.lost ++ l).any fun s => s < m.upTo 2)
  | _, _ => false

/-- The image in slot `i` is tried (R133): each of its segments of steps 1 and 2 found unreadable raises the restore-segment source (R153). -/
def Dev.tryImage (d : Dev) (i : Nat) (read : Option (List Nat)) : Dev :=
  match (d.slotK i).image, read with
  | some m, some l => (l.eraseDups.filter fun s => s < m.upTo 2 ∧ s < m.pfx).foldl (fun d _ => d.fault 28) d
  | _, _ => d

/-- Sequence of the image in slot `i`. -/
def Dev.slotSeq (d : Dev) (i : Nat) : Nat := match (d.slotK i).image with | some m => m.seq | none => 0

/-- The candidates of R133: SEALED or PROGRESS-ONLY slots whose format is accepted (R129), the highest sequence first. -/
def Dev.candidates (d : Dev) : List Nat :=
  let ok (i : Nat) : Bool :=
    let s := slotState (d.slotK i)
    decide (s = 3 ∨ s = 4) && match (d.slotK i).image with | some m => decide (1 ≤ m.fmt ∧ m.fmt ≤ 3) | none => false
  (if d.slotSeq 0 < d.slotSeq 1 then [1, 0] else [0, 1]).filter ok

/-- The loop of R133. -/
def Dev.pickSource (d : Dev) (read : Nat → Option (List Nat)) : List Nat → Option Nat × Dev
  | [] => (none, d)
  | [i] => let d := d.tryImage i (read i); if d.imageUsable i (read i) then (some i, d) else (none, d.fault 27)
  | i :: j :: r =>
    let d := d.tryImage i (read i)
    if d.imageUsable i (read i) then (some i, d)
    else if d.slotSeq j = d.g oDivergedSeq then (none, d.fault 27)
    else (d.fault 27).pickSource read (j :: r)

/-- lost_unknown of R133 for a source slot; also with the vault key gone (R424). -/
def Dev.lostUnknown (d : Dev) (src : Option Nat) : Bool :=
  (0 < fieldOf (d.g oLastOutage) 4 4 ∧ src ≠ some (byteOf (d.g oLastOutage) 3)) ∨
    (d.aon.keepLost ∧ ((slotState d.kennel.a ≠ 0) ∨ (slotState d.kennel.b ≠ 0)))

/-- The machine loses what DRAM and the units held (R134): nothing is cached, resident or running. [DEDUCED, log 51] -/
def Dev.loseMachine (d : Dev) : Dev :=
  let onOrLocked (k : Nat) (x : Domain) : Domain := if kindOf k = 0x14 then x else if d.lockedOff k then { st := 2 } else { st := 0 }
  let doms := storeMapV domOn onOrLocked d.doms.doms
  let cores : List (Nat × Core) := []
  let d := { d with cache := { nextSeq := [] }, mem := {}, cores := cores, eng := {}, insts := { link := d.insts.link, linkGen := d.insts.linkGen, linkWidth := d.insts.linkWidth }, doms := { d.doms with doms := doms, queue := [] } }
  d.sumPages

/-- Queues what the bring-up of a machine asks for: drives to switch on (R285), arming (R78), and quarantines that waited (R312). -/
def Dev.afterRestore (d : Dev) : Dev := d.quarResume.mirrorCheck.recompute

/-- An admin command that was fetched, and whose effect was not taken, is aborted after the outage (R148): outstanding Asynchronous Event Requests at once,
the others as the controller comes to them. [DEDUCED, log 52] -/
def Dev.adminFates (d : Dev) : Dev :=
  (d.insts.ctrl.map (·.1)).foldl (fun d i =>
    let c := d.ctrl i
    match d.adminQueue i with
    | none => d
    | some q => c.aers.foldl (fun d cid => d.nvmeDone q cid scPowerLoss 0) (d.setCtrl i { c with aers := [], abortDue := (d.qs q).outstanding - c.aers.length })) d

/-- Host I/O is accepted from now on; controllers that are enabled become ready, and report the outage (R140, R151). -/
def Dev.admitHost (d : Dev) : Dev :=
  let d := (d.setRestore { d.restore with hostIo := true }).hostReady
  d.liveInsts.foldl (fun d i => (d.readyCtrl i).outageEvent i) d

/-- LostBlocks: lost and poisoned blocks held (Table 6.7). -/
def Dev.lostBlocks (d : Dev) : Nat := (d.restore.lost.map (·.count)).sum

/-- RESTORE_DONE (Table 18.6). [DEDUCED, log 52] -/
def Dev.restoreDone (d : Dev) : Dev := d.record 0x502 0 uChip (d.g oRestoreSource) d.lostBlocks (d.g oLostUnknown) 0

/-- Starts from a slot or from nothing (R134). [DEDUCED, log 53] -/
def Dev.startFrom (d : Dev) (src : Option Nat) : Dev :=
  let d := d.s oLostUnknown (if d.lostUnknown src then 1 else 0)
  match src with
  | none =>
    let d := ((d.setRestore { configRetryOver := d.restore.configRetryOver }).s oRestoreSource 0).s oResidentBytes 0
    let d := (d.setVaultState d.armState).afterRestore
    (({ d with cache := { d.cache with frozen := false } }).admitHost).armEval
  | some i =>
    let m := ((d.slotK i).image).getD { seq := 0 }
    let d := (d.setSlotK i { d.slotK i with held := true }).eraseSlot (1 - i)
    let d := d.setRestore { src := 2 + i, seq := m.seq, held := some m.seq, configRetryOver := d.restore.configRetryOver, fetch := decide (d.g oRestoreMode ≠ 0) }
    let d := ((d.s oRestoreSource (2 + i)).s oImageBytes (min m.pfx (m.upTo 4) * 65536)).s oResidentBytes 0
    let d := { d with cache := { d.cache with frozen := true } }
    (d.resetKind 2).setVaultState (if d.g oRestoreMode = 0 then 0x0B else 0x0C)

/-- The source is chosen among the slots (R133). -/
def Dev.chooseSlot (d : Dev) (readA readB : Option (List Nat)) : Dev :=
  let d := (d.setSlotK 0 { d.slotK 0 with held := false }).setSlotK 1 { d.slotK 1 with held := false }
  let (src, d) := d.pickSource (fun i => if i = 0 then readA else readB) d.candidates
  d.startFrom src

/-- Two ranges of one volume and kind meet or touch. -/
def LostRange.meets (x : LostRange) (vol kind blk : Nat) : Bool := x.vol = vol ∧ x.kind = kind ∧ x.start ≤ blk + 1 ∧ blk ≤ x.start + x.count

/-- Inserts a range in the order of volume and start. -/
def lostInsert (x : LostRange) : List LostRange → List LostRange
  | [] => [x]
  | y :: r => if x.vol < y.vol ∨ (x.vol = y.vol ∧ x.start < y.start) then x :: y :: r else y :: lostInsert x r

/-- Adds a lost (kind 1) or poisoned (kind 2) block to the list (R150 to R152): contiguous blocks of one kind form one entry. -/
def Dev.addLost (d : Dev) (vol kind blk : Nat) : Dev :=
  let l := d.restore.lost
  let near := l.filter fun x => x.meets vol kind blk
  let lo := near.foldl (fun m x => min m x.start) blk
  let hi := near.foldl (fun m x => max m (x.start + x.count)) (blk + 1)
  let all := lostInsert { vol := vol, kind := kind, count := hi - lo, start := lo } (l.filter fun x => ¬ x.meets vol kind blk)
  d.setRestore { d.restore with lost := all.take 65536, truncated := d.restore.truncated || decide (65536 < all.length) }

/-- The version is known bad data. One that a newer version of its block supersedes is no loss of the block (R150), and goes where the newer one is valid in
every sector (R58); any other is reported with `kind`. -/
def Dev.loseVersion (d : Dev) (v : Version) (kind : Nat) : Dev :=
  if v.superseded then
    if ((d.versOf v.vol v.blk).getLast?.map (·.valid)) = some 0xFF then d.freeVer v.frame else d.modVer v.frame fun v => { v with poison := true }
  else (d.modVer v.frame fun v => { v with poison := true }).addLost v.vol kind v.blk

/-- The image of the outage holds version `v` in its durable prefix (R136). -/
def Dev.imageHolds (d : Dev) (v : Version) : Bool :=
  match (if d.vault.slot ≤ 1 then (d.slotK d.vault.slot).image else none) with
  | some m =>
    let i := (m.vers.takeWhile fun x => x.frame ≠ v.frame).length
    let first := m.upTo 2
    i < m.vers.length ∧ first + i / 16 < m.durable ∧ ¬ m.poison.any fun p => p.1 = first + i / 16 ∧ p.2.testBit (i % 16)
  | none => false

/-- A frame reads uncorrectable at a resume from DRAM (R136): rewritten from the outage image, or lost. -/
def Dev.repairFrame (d : Dev) (f : Nat) : Dev :=
  let d := { d with cache := { d.cache with versions := mapIf (fun v => v.copy = some f) (fun v => { v with copy := none }) d.cache.versions } }
  match d.verAt f with
  | none => d
  | some v =>
    if v.st = 1 then d.freeVer f
    else if d.imageHolds v then d
    else (d.loseVersion v 1).fault 12

/-- The channels leave self-refresh after RETAIN (R132, R310, R311): `failed` pass neither setting, `marginal` only the last good one. [DESIGN CHOICE, log 2] -/
def Dev.dramWake (d : Dev) (failed marginal : List Nat) : Dev :=
  (List.range 8).foldl (fun d n =>
    let c := d.chan n
    if c.st ≠ 3 then d
    else
      let d := (d.emit .dram [n, 0, 10, 0, 0, 0]).setDom (uChan n) {}
      let d := d.incU (uChan n) oRetrains
      if failed.contains n then (d.setChan n { c with st := 5, srSince := none }).fault (488 + n)
      else
        let d := d.setChan n { c with st := 2, srSince := none, trained := d.now }
        if marginal.contains n then d.fault (480 + n) else d) d

/-- Resume from DRAM (R136, R137): actions 4 to 6 of R101, and the release of the outage image. [DEDUCED, log 53] -/
def Dev.dramResume (d : Dev) (bad : List Nat) : Dev :=
  let d := bad.foldl Dev.repairFrame d
  let next := d.afterOutage
  let held := d.restore.held.isSome
  let d := d.setRestore { d.restore with fromRetain := false, src := if held then d.restore.src else 1, seq := if held then d.restore.seq else 0 }
  let d := if held then d else { d.s oRestoreSource 1 with mem := { d.mem with msState := true } }
  let d := ((d.s oLostUnknown 0).resetKind 2)
  let d := d.tlbEmpty.unspill.unshed d.vault.shed
  let slot := d.vault.slot
  let d := d.setRun { d.vault with shed := [], wakeDue := false, slot := 0xFF }
  let d := d.setVaultState next
  let d := if next = 0x0A ∨ next = 0x0B ∨ (next = 0x0C ∧ ¬ d.restore.wasIo) then d else d.adminFates.admitHost.unfreeze.reissuePages.drainAgain
  let done := match (if slot ≤ 1 then (d.slotK slot).image else none) with | some m => m.manifest && !m.voided | none => false
  let d := if done then d.releaseSlot slot else d
  (d.restoreDone.afterRestore).armEval

/-- The Kennel as WAKE finds it (R110, R115): what the directory says of the last format, and a format where nothing is valid. [DEDUCED, log 49] -/
def Dev.kennelWake (d : Dev) : Dev :=
  let k := d.kennel
  let has (s : Slot) : Bool := match s.image with | some m => m.manifest | none => false
  if ¬ k.valid then (if k.formatting ∨ has k.a ∨ has k.b then d else d.formatBegin)
  else
    let d := (d.s oRateQualified (if k.rateOk then 1 else 0)).s oWorstProgramTime k.worst
    if ¬ k.rateOk ∧ d.g oDrillValid = 0 then d.fault 25 else d

/-- WAKE_COMPLETE (R132 to R137, R461). `found` and `speed`: what the channels hold, read after a power-on, and the LUNs that respond; `failed`, `marginal`: channels that
fail training, or keep their last good setting; `meta`: cache metadata and the machine-state region read without error; `bad`: frames that
read uncorrectable; `readA`, `readB`: the segments found unreadable in each slot, none where its manifest is. In a Pack
it waits for mastership (Table 19.2), and the master then queues the scheduled slot commands (R291). -/
def Dev.wakeComplete (d : Dev) (found : WakeFound) (speed : Nat) (failed marginal : List Nat) (metaOk : Bool) (bad : List Nat) (readA readB : Option (List Nat)) : Dev :=
  if d.vst ≠ 0x0A ∨ d.sup ≠ 2 ∨ d.power.seqUp ∨ (d.aon.lshEn ∧ d.g oPackRole = 0) then d
  else
  let d := if d.g oPackRole = 1 then d.slotsAuto else d
  if d.restore.fromRetain then
    let out := (List.range 8).any fun n => (d.chan n).st = 3 ∧ failed.contains n
    let d := (d.dramWake failed marginal).lunsWake found.luns
    if metaOk ∧ ¬ out then d.dramResume bad
    else ((d.loseMachine).setRun {}).chooseSlot readA readB
  else (((d.dramBringUp found.chans speed failed).lunsWake found.luns).kennelWake).chooseSlot readA readB


/-- Segments found unreadable. -/
def Image.addLost (m : Image) (l : List Nat) : Image := { m with lost := m.lost ++ l }

/-- Changes the held image. -/
def Dev.modHeld (d : Dev) (f : Image → Image) : Dev :=
  let i := d.heldSlot
  if i ≤ 1 then d.setSlotK i { d.slotK i with image := (d.slotK i).image.map f } else d

/-- The version of the cache that came from version `x` of the image. -/
def Dev.fromImage (d : Dev) (x : Version) : Option Version :=
  d.cache.versions.find? fun v => v.image ∧ v.vol = x.vol ∧ v.blk = x.blk ∧ v.inst = x.inst ∧ v.dom = x.dom ∧ v.seq = x.seq

/-- Residency keys that segment `i` covers. -/
def Dev.segKeys (d : Dev) (m : Image) (i : Nat) : List Nat :=
  match m.item i with
  | none => []
  | some x =>
    let j := i - x.first
    let u := x.id / 65536
    match x.id % 65536 with
    | 4 => (((m.vers.drop (16 * j)).take 16).filterMap d.fromImage).map fun v => frameKey v.frame
    | 6 => [2 ^ 28 + 4 * coreNo u + j]
    | 7 => [2 ^ 28 + 2 ^ 24 + 512 * (u / 0x100 - 0x10) + j]
    | 8 | 9 => (List.range 16).filterMap fun k => (frameAt (m.pagesOf (x.id % 65536)) (16 * j + k)).map fun p => p.1.phys + p.2
    | _ => []

/-- The contexts that own what a lost segment of core scratch held end, as for an inexact context (Table 6.6, R89). [DEDUCED, log 51] -/
def Dev.scratchLost (d : Dev) (u : Nat) : Dev :=
  let n := coreNo u
  let o := (d.core n).owner
  let d := if o < 1024 then d.endCtx o 0x03 0x0E 0 0 else d
  d.setCore n { d.core n with owner := 0xFFFF, scratch := [] }

/-- Segment `i` of the held image is unreadable (Table 6.6), or, in the units of `mask` alone, known bad. [DEDUCED, log 51] -/
def Dev.segLost (d : Dev) (m : Image) (i mask : Nat) (kind : Nat) : Dev :=
  match m.item i with
  | none => d
  | some x =>
    let j := i - x.first
    let units := (List.range 16).filter mask.testBit
    match x.id % 65536 with
    | 4 => (units.filterMap fun k => (m.vers[16 * j + k]?).bind d.fromImage).foldl (fun d v => d.loseVersion v kind) d
    | 6 => if units.isEmpty then d else d.scratchLost (x.id / 65536)
    | 7 => if units.isEmpty then d else (d.sramOwners (x.id / 65536)).foldl (fun d k => d.endCtx k 0x03 0x0E 0 0) d
    | 8 | 9 =>
      let ps := (units.filterMap fun k => (frameAt (m.pagesOf (x.id % 65536)) (16 * j + k)).map (·.1)).eraseDups
      ps.foldl (fun d p => if d.mem.pages.contains p then d.dropPage p else d) d
    | _ => d

/-- A version for which no frame was left gets one (Table 6.6); none while there is none. [DEDUCED, log 52] -/
def Dev.giveFrame (d : Dev) (v : Version) : Option Dev :=
  if frameChan v.frame < 8 then some d
  else (d.poolFor v.vol v.blk).map fun n => let (f, d) := d.takeFrame n; d.reframe v.frame f

/-- Versions of segment `i`. -/
def Dev.segVers (d : Dev) (m : Image) (i : Nat) : List Version :=
  match m.item i with
  | some x => if x.id = 4 then ((m.vers.drop (16 * (i - x.first))).take 16).filterMap d.fromImage else []
  | none => []

/-- Installs segment `i` of the held image (R142): its residency bits clear, whether it was read or is lost. None while a frame is wanting. -/
def Dev.segInstall (d : Dev) (i : Nat) (ok : Bool) : Option Dev :=
  match d.heldImage with
  | none => none
  | some m =>
    match (d.segVers m i).foldl (fun (o : Option Dev) v => o.bind fun d => match d.fromImage v with | some v => d.giveFrame v | none => some d) (some d) with
    | none => none
    | some d =>
      let mask := ((m.poison.find? (·.1 = i)).map (·.2)).getD 0
      let keys := d.segKeys m i
      let d := if ok then d.segLost m i mask 2 else ((d.segLost m i 65535 1).fault 28).modHeld fun m => { m with lost := m.lost ++ [i] }
      let d := d.modHeld fun m => { m with got := m.got ++ [i] }
      let d := { d with mem := { d.mem with resid := d.mem.resid.filter fun k => ¬ keys.contains k }, restore := { d.restore with asked := d.restore.asked.filter fun k => ¬ keys.contains k.1 } }
      some (if ok then d.s oResidentBytes (d.g oResidentBytes + 65536) else d)

/-- Every step-4 item but MAY-DROP pages lies in the durable prefix, and the machine-state region is readable and good (R135, Table 6.6). -/
def Image.resumes (m : Image) : Bool :=
  (m.itemTable.all fun x => x.step ≠ 4 ∨ x.id % 65536 = 9 ∨ x.first + x.segs ≤ m.pfx) ∧
    (m.itemTable.all fun x => x.id ≠ 5 ∨ ¬ ((m.lost.any fun s => x.first ≤ s ∧ s < x.first + x.segs) ∨ m.poison.any fun p => x.first ≤ p.1 ∧ p.1 < x.first + x.segs))

/-- The versions of an image (R117, R150): those in the prefix come back dirty, a newest version outside it is lost, older ones outside it
are free. [DEDUCED, log 52] -/
def Dev.installVersions (d : Dev) (m : Image) : Dev :=
  let first := m.upTo 2
  let l := m.vers.zip (List.range m.vers.length)
  let keep := l.filter fun x => first + x.2 / 16 < m.pfx ∨ ¬ x.1.superseded
  let ord := (keep.filter fun x => x.1.superseded) ++ keep.filter fun x => ¬ x.1.superseded
  ord.foldl (fun d x =>
    let v := x.1
    let here := first + x.2 / 16 < m.pfx
    let (f, d) := if d.inService (frameChan v.frame) ∧ v.frame % 2 ^ 28 < d.poolFrames (frameChan v.frame) then (v.frame, d)
      else match d.poolFor v.vol v.blk with
      | some n => d.takeFrame n
      | none => (8 * 2 ^ 28 + x.2, d)
    let v : Version := { v with frame := f, st := 2, copy := none, image := true, fence := v.fence }
    let d := d.setVers (d.cache.versions ++ [v])
    if here then { d with mem := { d.mem with resid := d.mem.resid ++ [frameKey f] } } else d.loseVersion v 1) d

/-- DRAM bytes that an image holds: the machine-state region and the saved pages (R226). -/
def imageBytes (m : Image) : List (Nat × Byte) :=
  m.snap.mem.dram.filter fun x => (msBase ≤ x.1 ∧ x.1 < msBase + 2 ^ 25) ∨ (m.must ++ m.may).any fun p => p.phys * 4096 ≤ x.1 ∧ x.1 < p.phys * 4096 + pageSz p.size

/-- A host command as an image restore takes it up again. [DEDUCED, log 52] -/
def HostCmd.rerun (c : HostCmd) : HostCmd := { c with st := 0, got := [] }

/-- The machine state of an image (R135): contexts, channels, engines, controllers and queues; cores keep their scratch alone, and CSTS.RDY is 0 until
RESUME (R140). -/
def Dev.installMachine (d : Dev) (m : Image) : Dev :=
  let s := m.snap
  let core (_ : Nat) (c : Core) : Core := { scratch := c.scratch, owner := c.owner, stopped := true }
  let keys := (List.range m.plan).flatMap fun i => match m.item i with | some x => if x.step = 4 ∧ i < m.pfx then d.segKeys m i else [] | none => []
  let mem := { s.mem with dram := imageBytes m, poison := s.mem.poison.filter (fun l => m.must.any fun p => p.phys * 64 ≤ l ∧ l < p.phys * 64 + pageSz p.size / 64), tlb := [], iotlb := [], resid := d.mem.resid ++ keys, msState := true, reissue := !s.mem.preqs.isEmpty }
  let insts := { s.insts with link := d.insts.link, linkGen := d.insts.linkGen, linkWidth := d.insts.linkWidth, detectHeld := d.insts.detectHeld, msix := false, busMaster := false, cmds := s.insts.cmds.map HostCmd.rerun, ctrl := storeMapV noCtrl (fun _ c => { c with csts := setBit c.csts 0 false }) s.insts.ctrl }
  let vec (n : Nat) (x : IntVec) : IntVec := if n < 2048 then { pending := x.pending } else x
  let d := { d with mem := mem, eng := s.eng, insts := { insts with vecs := storeMapV noVec vec insts.vecs }, cores := storeMapV coreReset core s.cores }
  (d.sumPages).setRestore { d.restore with hold := true }

/-- RESTORE_READ_COMPLETE (R139, R141): steps 1 to 4 are resident, or in Fetch steps 1 and 2 and the machine-state region; `lost` are the
segments found unreadable so far. [DEDUCED, log 52] -/
def Dev.restoreRead (d : Dev) (lost : List Nat) : Dev :=
  match (if (d.vst = 0x0B ∨ d.vst = 0x0C) ∧ ¬ d.restore.readDone then d.heldImage else none) with
  | none => d
  | some m =>
    let early := (lost.filter fun i => decide (i < m.pfx) && (match m.item i with | some x => decide (x.step ≤ 2 ∨ x.id = 5) | none => false)).eraseDups
    let d := (early.foldl (fun d _ => d.fault 28) d).modHeld (Image.addLost · early)
    let m := m.addLost early
    if early.any fun i => i < m.upTo 2 then (d.setVaultState 0x0A).chooseSlot (some []) (some [])
    else
      let d := d.setRestore { d.restore with readDone := true }
      let d := { d with cache := { d.cache with volumes := m.snap.volumes, nextSeq := m.snap.nextSeq, versions := [] } }
      let d := d.installVersions m
      let d := if m.resumes then d.installMachine m else d
      let fixed := ((List.range (min m.pfx (m.upTo 4))).filter fun i => match m.item i with | some x => decide (x.step ≤ 2 ∨ x.id = 5) | none => false).length
      let d := d.s oResidentBytes (fixed * 65536)
      if d.vst = 0x0C then d
      else
        let rest := (List.range (min m.pfx (m.upTo 4))).filter fun i => match m.item i with | some x => decide (3 ≤ x.step ∧ x.id ≠ 5) | none => false
        rest.foldl (fun d i => (d.segInstall i (!lost.contains i)).getD d) d

/-- Pages of the page list that the image does not hold are presented as dropped (R215). [DEDUCED, log 53] -/
def Dev.dropMissing (d : Dev) (m : Image) : Dev :=
  let out (l : List PageEntry) (id : Nat) : List PageEntry :=
    match m.itemTable.find? fun x => x.id = id with
    | none => l
    | some x => l.filter fun p => ¬ (List.range (pageSz p.size / 4096)).all fun k =>
        let before := ((l.takeWhile fun q => q ≠ p).map fun q => pageSz q.size / 4096).sum
        x.first + (before + k) / 16 < m.pfx
  let may := d.mem.pages.filter fun p => p.cls = 1 ∧ ¬ m.may.contains p
  let l := out m.must 8 ++ (if m.may.isEmpty then may else out m.may 9)
  l.foldl (fun d p => if d.mem.pages.contains p then d.dropPage p else d) d

/-- The fates of writes outstanding at FREEZE after an image restore (Table 6.4): a host write that went through is aborted, every other is
executed from the start, those of the host once the host lets restored work run (R149). [DEDUCED, log 52] -/
def Dev.writeFates (d : Dev) (l : List HostWrite) : Dev :=
  let d := { d with cache := { d.cache with wid := max d.cache.wid (((l.map (·.id)) ++ d.insts.cmds.map (·.id)).foldl (fun n i => max n (i + 1)) 0) } }
  l.foldl (fun d w =>
    let again : HostWrite := { w with stage := 0, waiting := false, r144 := false, thru := false, noFua := false, unflushed := [] }
    if w.stage = 3 ∧ w.org = 0 then (d.setWrites (d.cache.writes ++ [w])).writeAck w scPowerLoss
    else if w.org = 0 then d.setRestore { d.restore with redo := d.restore.redo ++ [again] }
    else d.judge again) d

/-- RESUME (R135, R148, R149, R215): dropped pages are marked, machine state resumes, FREEZE is released and host I/O is accepted. -/
def Dev.restoreResume (d : Dev) (m : Image) : Dev :=
  let d := if d.mem.msState then d.dropMissing m else d
  let d := { d with cache := { d.cache with frozen := false } }
  let d := if d.mem.msState then (d.writeFates m.snap.writes).adminFates else d
  let d := d.runners.foldl Dev.resumeUnit d
  let d := (d.unfreeze).restoreDone
  d.admitHost.afterRestore.readKick.reissuePages.drainAgain

/-- RESTORE_REBUILD_COMPLETE (R139): the end of a full restore. -/
def Dev.restoreRebuilt (d : Dev) : Dev :=
  match (if d.vst = 0x0B ∧ d.restore.readDone then d.heldImage else none) with
  | some m => (((d.setVaultState d.armState).restoreResume m).armEval).heldCheck
  | none => d

/-- FETCH_HOST_ADMIT (R141): the fetch prefix is resident, lookup is rebuilt, and PERST_N is released. -/
def Dev.fetchAdmit (d : Dev) : Dev :=
  match (if d.vst = 0x0C ∧ d.restore.readDone ∧ ¬ d.restore.hostIo ∧ d.aon.perstN then d.heldImage else none) with
  | some m => ((d.restoreResume m).armEval).heldCheck
  | none => d

/-- Segment `i` is in the durable prefix of the held image and holds data that is not resident. -/
def Dev.segWanted (d : Dev) (m : Image) (i : Nat) : Bool := i < m.pfx ∧ (d.segKeys m i).any d.mem.resid.contains

/-- What waited for a segment goes on, firmware's stores first (R142, R214). -/
def Dev.segKick (d : Dev) : Dev := d.fwRetry.throughKick.readKick.heldCheck

/-- RESTORE_SEGMENT_INSTALLED (R142, R153, R214): the demand read of segment `i` ends; `latency` in µs is its longest miss. [DESIGN CHOICE, log 80] -/
def Dev.segInstalled (d : Dev) (i : Nat) (ok : Bool) (latency : Nat) : Dev :=
  match (if d.inVault then none else d.heldImage) with
  | some m =>
    if d.segWanted m i then
      match d.segInstall i ok with
      | some d => (d.s oFetchMissMax (min (2 ^ 32 - 1) (max (d.g oFetchMissMax) latency))).segKick
      | none => d
    else d
  | none => d

/-- BACKGROUND_SEGMENT_RESTORED (R141, R146): the next segment in plan order is installed. -/
def Dev.segBackground (d : Dev) (ok : Bool) : Dev :=
  match (if d.vst = 0x0C ∧ d.restore.hostIo then d.heldImage else none) with
  | some m =>
    match (List.range m.pfx).find? fun i => d.segWanted m i with
    | some i => (match d.segInstall i ok with | some d => d.segKick | none => d)
    | none => d.heldCheck
  | none => d

/-- CONFIG_RETRY_LIMIT_EXPIRE (R140). -/
def Dev.configRetry (d : Dev) : Dev := d.setRestore { d.restore with configRetryOver := true }

/-- A value written to LostRangeRelease (R152). -/
def Dev.fxLostRangeRelease (d : Dev) (v : Nat) : Reply :=
  if 4096 ≤ v then badValue d uChip
  else
    let bad := d.cache.versions.filter fun x => x.vol = v ∧ x.poison
    let d := bad.foldl (fun d x => d.freeVer x.frame) d
    okR ((d.setRestore { d.restore with lost := d.restore.lost.filter (·.vol ≠ v) }).segKick)

end Sys2Proof.Machine
end

