-- ==== Sys2Proof/Machine/Faults.lean ====
section
/-! DEFINITION. The fault collector (18): sources with their home and contained units, classing, reactions, containment, captures,
acknowledgement, exits, quarantine, injection and the fault pins; and unit reset (R418), which exits use. -/
namespace Sys2Proof.Machine

/-- The clusters of quadrant `q`. -/
def clustersOf (q : Nat) : List Nat := (List.range 4).map (uCluster q)

/-- Units contained by a fault of rail `r` (Table 18.1A). -/
def railContains (r : Nat) : List Nat :=
  let ports := (List.range 64).map uPort
  let chans := (List.range 8).map uChan
  if r < 4 then clustersOf r
  else match r with
  | 5 => (List.range 4).flatMap fun q => clustersOf q ++ [uSram q]
  | 6 => [uHost]
  | 7 => ports
  | 8 => uHost :: ports
  | 9 => chans.take 4
  | 10 => chans.drop 4
  | 11 => chans
  | 12 | 13 => (List.range 16).map uVchan
  | _ => []

/-- Units an S2 of source `s` contains (Tables 18.1, 18.1A and 18.1B). -/
def containsOf (s : Nat) : List Nat :=
  let home := [homeUnit s]
  if s = 1 ∨ s = 10 ∨ s = 13 ∨ s = 15 ∨ s = 16 ∨ s = 17 then home
  else if 36 ≤ s ∧ s < 40 then home
  else if 40 ≤ s ∧ s < 44 then clustersOf (s - 40)
  else if (52 ≤ s ∧ s < 56) ∨ (72 ≤ s ∧ s < 200) ∨ (300 ≤ s ∧ s < 336) ∨ (472 ≤ s ∧ s < 480) ∨ (512 ≤ s ∧ s < 528) then home
  else if 552 ≤ s ∧ s < 576 then railContains (s - 552)
  else if 576 ≤ s ∧ s < 592 then railContains (s - 576)
  else if s = 648 then home
  else if 649 ≤ s ∧ s < 653 then (List.range 16).map fun k => uPort (16 * (s - 649) + k)
  else if 653 ≤ s ∧ s < 657 then clustersOf (s - 653)
  else if 658 ≤ s ∧ s < 666 then home
  else if s = 666 then (List.range 16).map uVchan
  else []

/-- Unit `u` has a safe state of Table 18.3 other than the S3 halt. -/
def hasSafe (u : Nat) : Bool :=
  let k := kindOf u
  hasDomain u && !(k == 0x0C || k == 0x10 || k == 0x14 || k == 0x15)

/-- Units whose outputs a reaction to source `s` at class `e` places in their safe state (R392, R393): an S3 source that contains no unit places its home
unit's. -/
def reactSet (s e : Nat) : List Nat := if e = 3 ∧ containsOf s = [] then [homeUnit s].filter hasSafe else containsOf s

/-- SourceClass of source `s` (R391). -/
def Dev.classOf (d : Dev) (s : Nat) : Nat := d.gb oSourceClass (s / 4) / 4 ^ (s % 4) % 4

/-- A unit of the vault path (R99). -/
def inVaultPath (u : Nat) : Bool := match kindOf u with | 0x0C | 0x10 | 0x11 | 0x12 | 0x13 | 0x14 | 0x15 => true | _ => false

/-- The capture of source `s`. -/
def Dev.capture (d : Dev) (s : Nat) : Capture := storeGet noCapture d.faults.caps s

/-- Replaces the state of the fault collector. -/
def Dev.setFaults (d : Dev) (f : Faults) : Dev := { d with faults := f }

/-- Replaces the capture of source `s`. -/
def Dev.setCapture (d : Dev) (s : Nat) (c : Capture) : Dev := d.setFaults { d.faults with caps := storeSet noCapture d.faults.caps s c }

/-- FaultStatus as read (R21, R22): the worst of the unit and its present descendants, one in RET or OFF as it was when it last left ON. -/
def Dev.faultStatus (d : Dev) (u : Nat) : Nat :=
  ((upOrder u).filter d.present).foldl (fun m x => max m (if x ≠ u ∧ d.readsHeld x then d.heldVal x oFaultStatus else d.ownStatus x)) 0

/-- FAULT_RAISED (Table 18.6) for the occurrence that capture `c` of source `s` holds last, at effective class `e`. `first`: its sequence goes to the
capture. -/
def Dev.recordRaised (d : Dev) (s : Nat) (c : Capture) (e : Nat) (esc inj first : Bool) (count : Nat) : Dev :=
  d.record (0xC00 + s) (e + 1 + (if inj then 8 else 0)) (homeUnit s)
    (s + c.cls * 1024 + e * 4096 + (if esc then 16384 else 0) + (if inj then 32768 else 0) + c.liUnit * 65536)
    (c.liInst % 4096 + c.lacc % 16 * 4096 + count * 65536) d.now (c.laddr / 256) (if first then some s else none)

/-- Answers every stalled transaction of `u` with the unit-isolated response (R348, R441). -/
def Dev.isolateStalls (d : Dev) (u : Nat) : Dev :=
  let l := (d.dom u).stalled
  l.foldl (fun d t => d.emit .bus [u, 1, t.tag]) (if l.isEmpty then d else d.setDom u { d.dom u with stalled := [], arr := none })

/-- A core is lost to a fault reaction (R202): its running context ends with CORE_LOST, and so does one that owns its scratch. -/
def Dev.coreLost (d : Dev) (n : Nat) : Dev :=
  let k := (d.core n).ctxid.toNat
  let d := if k < 1024 then d.endCtx k 0x03 0x0D 0 0 else d
  let o := (d.core n).owner
  let d := if o < 1024 then d.endCtx o 0x03 0x0D 0 0 else d
  let d := d.mem.contexts.foldl (fun d p => if (d.ctx p.1).core = some n then d.setCtx p.1 { d.ctx p.1 with core := none } else d) d
  d.setCore n { d.core n with preempt := none, inStr := false, wfi := false }

/-- Every LUN of vault channel `n` is treated as failed (Table 18.3, Table 4.8). -/
def Dev.vchanLost (d : Dev) (n : Nat) : Dev :=
  (d.kennel.map.filter fun l => l / 16 = n).foldl (fun d l =>
    if d.writes ∨ d.vst = 6 then d.lunFailVault l else if d.inVault then d.lunFail l else d.lunLost l) d

/-- The host port takes its safe state (Table 18.3): the LTSSM is held in Detect. -/
def Dev.holdDetect (d : Dev) : Dev :=
  { d with insts := { d.insts with link := 0, linkGen := 0, linkWidth := 0, detectHeld := true } }

/-- The outputs of unit `u` take their safe state (Table 18.3). A channel whose MCLK is lost is quarantined after its PLL (Table 20.5). -/
def Dev.safeState (d : Dev) (u : Nat) : Dev :=
  let d := d.isolateStalls u
  let x := d.dom u
  let d := if x.st = 4 then d.setDom u { x with st := 0, entry := none, later := none } else d
  match kindOf u with
  | 0x03 => d.coreLost (coreNo u)
  | 0x05 | 0x06 | 0x07 | 0x08 | 0x09 => d.abortUnit u
  | 0x0A => d.adoptBuckets
  | 0x0D => d.holdDetect
  | 0x0F => let n := u - 0x2280
            let p := d.port n
            if p.state = 0 then d.emit .driveReset [n] else ((d.driveLost n).emit .driveReset [n]).throughKick.readKick
  | 0x11 => if (storeGet clockOk d.aon.clocks (10 + (u - 0x2380))).st = 2 then d else d.quarantine (u - 0x2380)
  | 0x13 => d.vchanLost (u - 0x2480)
  | _ => d

/-- Containment of `us` (R392, R393): they and every present descendant take their safe states. [DEDUCED, log 57] -/
def Dev.containUnits (d : Dev) (us : List Nat) : Dev :=
  let l := ((us.flatMap upOrder).filter d.present).eraseDups
  let d := { d with contained := (d.contained ++ us.filter d.present).eraseDups }
  l.reverse.foldl Dev.safeState d

/-- Units contained by a reaction in force. [DEDUCED, log 57] -/
def Dev.recontain (d : Dev) : Dev := { d with contained := (d.faults.inforce.flatMap (·.contains)).eraseDups }

/-- Object `o` is of class V (R421). -/
def isV (o : Nat) : Bool := match objRow o with | some r => r.pers == 0 | none => false

/-- The unit `u` returns to its V defaults (R418), with what its groups hold of it. -/
def Dev.vDefaults (d : Dev) (u : Nat) : Dev :=
  let drop (p : Nat × Nat) : Bool := p.1 / 0x1000000 == u && isV (p.1 % 0x1000000)
  { d with dict := d.dict.filter fun p => !drop p, doms := { d.doms with heldVals := d.doms.heldVals.filter fun p => !drop p } }

/-- OFF and ON of one unit's domain (R418): a forced stop, and everything its switch loses. -/
def Dev.cycleUnit (d : Dev) (u : Nat) : Dev :=
  let d := if (d.dom u).st = 4 then d.entryAbort u else d
  let d := d.isolateStalls u
  let d : Dev := match kindOf u with
    | 0x03 => (d.coreLost (coreNo u)).loseCore (coreNo u)
    | 0x05 | 0x06 | 0x07 | 0x08 => d.abortUnit u
    | 0x09 => (d.abortUnit u).setTlb u []
    | 0x0A => (d.setDom u { st := 2 }).adoptBuckets
    | _ => d.loseUnit u
  (d.setDom u { st := 2 }).vDefaults u

/-- Unit `u` comes back up (R418): ON, unless it is locked off or lies under a domain that is not ON. -/
def Dev.upUnit (d : Dev) (u : Nat) : Dev :=
  if d.lockedOff u ∨ ¬ d.parentsOn u then d
  else
    let d := d.setDom u {}
    let d := d.setPads (d.doms.padHeld.filter (· ≠ u))
    match kindOf u with
    | 0x0D => { d with insts := { d.insts with detectHeld := false } }
    | 0x0F => let n := u - 0x2280
              let p := d.port n
              if p.present ∧ p.removing ≠ 2 then (d.setPort n { p with state := 1, speed := 0, width := 0 }) else d
    | _ => d

/-- A unit reset (R418): the unit and its descendants in down order, then up again; its reactions end. -/
def Dev.unitReset (d : Dev) (u : Nat) : Dev :=
  let us := (upOrder u).filter d.present
  let d := us.reverse.foldl (fun d x => if hasDomain x then d.cycleUnit x else d.vDefaults x) d
  let d := (d.setFaults { d.faults with inforce := d.faults.inforce.filter fun x => x.cls = 3 ∨ ¬ us.contains x.unit }).recontain
  (us.filter hasDomain).foldl Dev.upUnit (d.resetKind 6)

/-- A reset that ends an S3 (R394): reactions leave force, and the losses of FCLK and SUPCLK end (R440). -/
def Dev.haltEnds (d : Dev) : Dev :=
  let d := (d.setFaults { d.faults with inforce := [], s3 := none, haltDone := false, haltPath := false }).recontain
  let d := { d with aon := { d.aon with clocks := storeSet clockOk (storeSet clockOk d.aon.clocks 9 {}) 19 {} } }
  (d.unlive 657).unlive 667

/-- The chip halts (R394): admission frozen, the host port safe, everything stopped at its boundary, domains OFF. [DEDUCED, log 58] -/
def Dev.haltNow (d : Dev) : Dev :=
  let d := { d with cache := { d.cache with frozen := true } }
  let d := (d.holdDetect).stopAll
  let off := (downOrder uChip).filter fun u => d.present u ∧ (domainStates u).contains 2
  let d := off.foldl (fun d u => if d.domSt u = 2 then d else
    let d := (d.isolateStalls u).setDom u { st := 2 }
    (if hasPads u ∧ ¬ d.doms.padHeld.contains u then d.setPads (d.doms.padHeld ++ [u]) else d).loseUnit u) d
  d.setFaults { d.faults with haltDone := true }

/-- A halt that waited for the end of a vault sequence or of a restore takes effect (R99, R394). [DEDUCED, log 57] -/
def Dev.haltDue (d : Dev) : Dev :=
  if d.faults.s3.isSome ∧ ¬ d.faults.haltDone ∧ ¬ d.inVault ∧ ¬ (0x0A ≤ d.vst ∧ d.vst ≤ 0x0C) then d.haltNow else d

/-- S3 (R394): trigger 0x04, or, with no vault to run, a halt at once. In a sequence it is recorded, and the vault is aborted or the halt waits (R84, R99, R100);
in RESCIND it is a new t0 (Table 4.3), or waits where no vault can run. [DEDUCED, log 57] -/
def Dev.reactHalt (d : Dev) (s : Nat) : Dev :=
  let u := homeUnit s
  let path := inVaultPath u
  let first := d.faults.s3.isNone
  let d := d.setFaults { d.faults with s3 := some (d.faults.s3.getD s), haltPath := d.faults.haltPath || path }
  let v := d.vst
  if 2 ≤ v ∧ v ≤ 7 then
    let d := d.record 0x500 0 uChip 4 v 0 0
    if path then d.vaultAbort u else d
  else if v = 9 then (if path ∨ (d.armState = 0 ∧ d.restore.held.isNone) then d else d.t0 4)
  else if ¬ first then d
  else if ¬ path ∧ (d.armed ∨ d.restore.held.isSome ∨ (v = 0x0A ∧ d.restore.fromRetain)) then d.t0 4
  else d.haltNow

/-- A flush of the ring is wanted (R408): it begins in the recorder, outside a vault and with a formatted Kennel. -/
def Dev.flushWanted (d : Dev) : Dev := d.setFaults { d.faults with flushDue := d.faults.flushDue || decide (2 ≤ d.kennelState) }

/-- A halt is in effect (R394): the machine has stopped, or waits in RETAIN. Until then a fault takes its normal reaction (R99). -/
def Dev.haltedNow (d : Dev) : Bool := d.halted && (d.faults.haltDone || decide (d.vst = 7))

/-- The reaction to an occurrence of source `s` at effective class `e` (Table 18.2). -/
def Dev.react (d : Dev) (s e : Nat) : Dev :=
  let u := homeUnit s
  let d := if e < 1 ∨ d.haltedNow then d else ((d.vector 0 2).notify 0x02 s u).fwMessage [s, u, e]
  let d := if e < 2 ∨ d.haltedNow then d else (d.containUnits (reactSet s e)).flushWanted
  if e < 3 ∨ d.haltedNow then d else d.reactHalt s

/-- Puts a reaction of home unit `u` and class `e` in force (R399); an S3 until the resets of R394. -/
def Dev.inForce (d : Dev) (u e : Nat) (contains : List Nat) : Dev :=
  let old := d.faults.inforce.find? fun x => x.unit = u ∧ x.cls = e
  let was := match old with | some x => x.contains | none => []
  let x : InForce := { unit := u, cls := e, last := d.now, contains := (was ++ contains).eraseDups }
  d.setFaults { d.faults with inforce := (d.faults.inforce.filter fun x => ¬ (x.unit = u ∧ x.cls = e)) ++ [x] }

/-- One occurrence (R396, R399, R401). -/
def Dev.occur (d : Dev) (o : Occ) : Dev :=
  let s := o.src
  let u := homeUnit s
  if 670 ≤ s ∨ ¬ d.present u then d
  else
    let c := d.classOf s
    let esc : Bool := decide (c < 3) && !o.quiet && d.faults.caps.any fun p => homeUnit p.1 = u ∧ p.2.latched ∧ p.2.inj = o.inj ∧ p.2.eff = c
    let e := if esc then c + 1 else c
    let k := d.capture s
    let open_ := ¬ k.latched ∨ (k.inj ∧ ¬ o.inj)
    let d := if k.latched ∧ k.inj ∧ ¬ o.inj then d.inc oInjectedDisplaced else d
    let k : Capture :=
      if open_ then { cls := c, eff := e, inj := o.inj, esc := esc, acc := o.acc, iUnit := o.iUnit, iInst := o.iInst, count := 1, addr := o.addr, tag := o.tag
                    , tick := d.now, last := d.now, seq := 2 ^ 48 - 1, latched := true, lacc := o.acc, liUnit := o.iUnit, liInst := o.iInst, laddr := o.addr, ltag := o.tag }
      else if k.inj = o.inj then { k with count := min 65535 (k.count + 1), eff := max k.eff e, last := d.now, esc := k.esc || esc, lacc := o.acc, liUnit := o.iUnit, liInst := o.iInst, laddr := o.addr, ltag := o.tag }
      else { k with esc := k.esc || esc }
    let d := d.setCapture s k
    let d := if o.live then d.setFaults { d.faults with live := setBit d.faults.live s true } else d
    let d := if esc then d.incU u oEscalations else d
    let seen : Capture := { k with cls := c, lacc := o.acc, liUnit := o.iUnit, liInst := o.iInst, laddr := o.addr }
    let d := d.recordRaised s seen e esc o.inj open_ k.count
    let d := if (d.energy.drill.step ≠ 0) ∧ inVaultPath u then { d with energy := { d.energy with drill := { d.energy.drill with faulted := true } } } else d
    if o.quiet then d
    else
      let d := if e = 1 ∨ e = 2 ∨ (e = 3 ∧ ¬ d.haltedNow) then d.inForce u e (if e = 1 then [] else (reactSet s e).filter d.present) else d
      d.react s e

/-- FAULT_OCCURRENCE (R399): a unit raises one of its sources; an absent unit is no initiator (R2). -/
def Dev.faultOccurrence (d : Dev) (s acc iu ii addr tag : Nat) : Dev :=
  if d.unitGone (iu % 65536) then d
  else d.raise { src := s, acc := acc % 7, iUnit := iu % 65536, iInst := ii % 65536, addr := addr % 2 ^ 64, tag := tag % 2 ^ 64 }

/-- The levels of FAULT_T and FAULT_C while the auxiliary input is present (R395): true is high. -/
def Dev.pinsDriven (d : Dev) : Bool × Bool :=
  let c := d.g oPinClass
  let bad := d.faults.caps.any fun p => (p.2.latched ∨ d.faults.live.testBit p.1) ∧ c ≤ p.2.eff
  if (d.sup = 2 ∨ d.sup = 5) ∧ ¬ bad then (true, false) else (false, true)

/-- FAULT_T and FAULT_C as the always-on block drives them (R395): none while the auxiliary input is lost. -/
def Dev.pinsNow (d : Dev) : Option (Bool × Bool) := if d.aon.auxUp then some d.pinsDriven else none

/-- The pins follow the machine. -/
def Dev.drivePins (d : Dev) : Dev := { d with aon := { d.aon with pins := d.pinsNow } }

/-- FAULT_PIN_SAMPLE (R395): the levels read back. -/
def Dev.pinSample (d : Dev) (t c : Bool) : Dev :=
  let (x, y) := d.pinsDriven
  let d := d.s oFaultPinState ((if t then 1 else 0) + (if c then 2 else 0))
  if t = x ∧ c = y then (d.setFaults { d.faults with pinBad := 0 }).unlive 5
  else
    let n := min 3 (d.faults.pinBad + 1)
    let was := d.faults.pinBad
    let d := d.setFaults { d.faults with pinBad := n }
    if n = 3 ∧ was < 3 then d.faultLive 5 else d

/-- Acknowledges the capture of source `s` for session `sid` (R397). [DEDUCED, log 56] -/
def Dev.ackOne (d : Dev) (sid s : Nat) : Dev :=
  let k := d.capture s
  if ¬ k.latched then d
  else
    let d := (d.setCapture s { k with latched := false }).record 0x010 0 (homeUnit s) s sid 0 0
    if ¬ d.faults.live.testBit s then d
    else
      let k : Capture := { k with cls := d.classOf s, acc := k.lacc, iUnit := k.liUnit, iInst := k.liInst, count := 1, addr := k.laddr, tag := k.ltag, tick := d.now, last := d.now, seq := 2 ^ 48 - 1, latched := true }
      (d.setCapture s k).recordRaised s k k.eff k.esc k.inj true 1

/-- A value written to FaultAck (R397). [DEDUCED, log 56] -/
def Dev.fxFaultAck (d : Dev) (sid v : Nat) : Reply :=
  if v = 0xFFFF then okR ((d.faults.caps.map (·.1)).foldl (Dev.ackOne · sid) d)
  else if 1024 ≤ v then badValue d uChip
  else okR (d.ackOne sid v)

/-- One reaction in force reaches its exit test (R400). [DEDUCED, log 57] -/
def Dev.exitOne (d : Dev) (x : InForce) : Dev :=
  let live := d.faults.caps.any fun p => homeUnit p.1 = x.unit ∧ p.2.eff = x.cls ∧ d.faults.live.testBit p.1
  if x.cls = 3 ∨ live ∨ d.now < x.last + d.g oQuietPeriod * 1000 ∨ (x.cls = 2 ∧ (d.inVault ∨ d.halted)) then d
  else
    let d := (d.setFaults { d.faults with inforce := d.faults.inforce.filter fun y => ¬ (y.unit = x.unit ∧ y.cls = x.cls) }).recontain
    let free := x.contains.filter fun v => d.gu v oUnitQuarantine = 0 ∧ kindOf v ≠ 0x11 ∧ ¬ d.contained.contains v
    let d := free.foldl Dev.unitReset d
    let d := d.incU x.unit oRecoveries
    d.record 0x011 0 x.unit x.cls (d.gu x.unit oRecoveries) 0 0

/-- FORCE_EXIT_CHECK (R400). -/
def Dev.forceExit (d : Dev) : Dev := d.faults.inforce.foldl Dev.exitOne d

/-- Unit `u` may be quarantined by command (R398). -/
def canQuarantine (u : Nat) : Bool := hasSafe u && kindOf u != 0x11

/-- A value written to UnitQuarantine at unit `u` (R23, R398): it acts on the unit and, of a group, on every present member that can be quarantined, where it
changes something. [DEDUCED, log 85] -/
def Dev.fxUnitQuarantine (d : Dev) (u v : Nat) : Reply :=
  if ¬ canQuarantine u then conflict d u
  else
    let us := (upOrder u).filter fun x => d.present x ∧ canQuarantine x ∧ d.gu x oUnitQuarantine ≠ v
    let d := us.foldl (fun d x => d.su x oUnitQuarantine v) d
    if v = 1 then okR ((((us.flatMap upOrder).filter d.present).eraseDups.reverse).foldl Dev.safeState d)
    else okR ((us.filter fun x => ¬ (ancestors x).any us.contains).reverse.foldl Dev.unitReset d)

/-- A value written to InjectFault (R401): Source, AccessType, Flags and Address. -/
def Dev.fxInjectFault (d : Dev) (v : Nat) : Reply :=
  let s := fieldOf v 0 2
  let a := byteOf v 2
  let f := byteOf v 3
  let addr := fieldOf v 4 8
  if ¬ d.aon.testMode then conflict d uChip
  else if 670 ≤ s ∨ 6 < a ∨ 1 < f then badValue d uChip
  else if ¬ d.present (homeUnit s) then notPresent d
  else
    let o : Occ := { src := s, inj := true, acc := a, addr := addr }
    if f = 1 then okR (d.setFaults { d.faults with armed := d.faults.armed ++ [(o, homeUnit s)] }) else okR (d.raise o)

/-- The link of a port or of the host is down: a source live while it was degraded is live no more (R390). -/
def Dev.linkLives (d : Dev) : Dev :=
  let l := (List.range 64).filter fun n => d.faults.live.testBit (400 + n) ∧ (d.port n).speed = 0
  let d := l.foldl (fun d n => d.unlive (400 + n)) d
  if d.faults.live.testBit 14 ∧ d.insts.link = 0 then d.unlive 14 else d

end Sys2Proof.Machine
end

