-- ==== Sys2Proof/Machine/Recorder.lean ====
section
/-! DEFINITION. The event recorder (R402 to R411): the intake, the limiters, the ring, flushes to the two copies of the log, and reads. -/
namespace Sys2Proof.Machine

/-- Rank of a severity (R403). -/
def rankOf (sev : Nat) : Nat := sev % 8

/-- Removes the first slot that `p` selects. -/
def dropFirst (p : RingSlot → Bool) : List RingSlot → List RingSlot
  | [] => []
  | x :: r => if p x then r else x :: dropFirst p r

/-- Where a record of rank `r` goes (R407): the ring with a slot freed and the overwrites it costs; none when it is suppressed. Slots stand in the
order of their records. [DEDUCED, log 56] -/
def ringRoom (ring : List RingSlot) (r : Nat) : Option (List RingSlot × Nat) :=
  let free (x : RingSlot) : Bool := x.flushed && !x.pinned
  let lower (x : RingSlot) : Bool := !x.flushed && !x.pinned && decide (rankOf x.ev.sev < r)
  let equal (x : RingSlot) : Bool := !x.flushed && !x.pinned && decide (rankOf x.ev.sev = r)
  if ring.length < 4096 then some (ring, 0)
  else if ring.any free then some (dropFirst free ring, 0)
  else if ring.any lower then some (dropFirst lower ring, 1)
  else if ring.any equal then some (dropFirst equal ring, 1)
  else none

/-- Unpins the oldest of more than 64 pinned records (R407). -/
def repin (ring : List RingSlot) : List RingSlot :=
  let go (acc : List RingSlot × Nat) (x : RingSlot) : List RingSlot × Nat :=
    if x.pinned ∧ 0 < acc.2 then (acc.1 ++ [{ x with pinned := false }], acc.2 - 1) else (acc.1 ++ [x], acc.2)
  let n := (ring.filter (·.pinned)).length
  if n ≤ 64 then ring else (ring.foldl go ([], n - 64)).1

/-- The capture that was to take a record's sequence (R396). -/
def Dev.capSeq (d : Dev) (cap : Option Nat) (q : Nat) : Dev :=
  match cap with
  | some s => d.setCapture s { d.capture s with seq := q }
  | none => d

/-- Raises SeqReserve ahead of the next sequence (R404). -/
def Dev.seqReserve (d : Dev) : Dev :=
  let r := d.g oSeqReserve
  if r ≤ d.faults.nextSeq + 4096 then d.s oSeqReserve ((r + 65536) % 2 ^ 48) else d

/-- Writes one record into the ring (R404, R407); suppressed when no slot may take it. [DEDUCED, log 56] -/
def Dev.ringWrite (d : Dev) (r : EvRec) : Dev :=
  match ringRoom d.faults.ring (rankOf r.sev) with
  | none => (d.setFaults { d.faults with limits := storeMod noLimit d.faults.limits r.code fun l => { l with drop := min 65535 (l.drop + 1) } }).capSeq r.cap (2 ^ 48 - 1)
  | some (ring, above) =>
    let l := storeGet noLimit d.faults.limits r.code
    let q := d.faults.nextSeq
    let x : RingSlot := { ev := { r with seq := q, drop := l.drop }, pinned := decide (r.sev = 4) }
    let d := d.setFaults { d.faults with ring := repin (ring ++ [x]), nextSeq := q + 1, limits := if l.drop = 0 then d.faults.limits else storeSet noLimit d.faults.limits r.code { l with drop := 0 } }
    let d := (d.s oEventSeqHead (q % 2 ^ 48)).capSeq r.cap q
    (if above = 0 then d else d.inc oRingOverwrites).seqReserve

/-- Tokens of a code's bucket now, in millionths (R406). -/
def Dev.tokens (d : Dev) (l : Limit) : Nat :=
  let top := d.g oLimiterBurst * 1000000
  if l.fresh then top else min top (l.tokens + (d.now - l.tick) * d.g oLimiterRate)

/-- The TICK record (R405). -/
def Dev.tickRecord (d : Dev) : Dev :=
  (d.setFaults { d.faults with tickRec := some d.now }).ringWrite { code := 0x002, sev := 0, unit := uChip, p0 := d.now % 2 ^ 32, p1 := d.now / 2 ^ 32 % 2 ^ 32 }

/-- SEQ_RESTART, when the sequence starts at 0 (R404). -/
def Dev.restartRecord (d : Dev) : Dev :=
  if d.faults.seqRestart then
    (d.setFaults { d.faults with seqRestart := false }).ringWrite { code := 0x003, sev := 2, unit := uAon, p0 := 2 ^ 32 - 1, p1 := 65535 }
  else d

/-- Unflushed records of the ring. -/
def Dev.unflushedCount (d : Dev) : Nat := (d.faults.ring.filter fun x => ¬ x.flushed).length

/-- Write point of copy `c`. -/
def Dev.logWp (d : Dev) (c : Nat) : Nat := if c = 0 then d.faults.wpA else d.faults.wpB
/-- An erase of copy `c` runs ahead of its write point. -/
def Dev.logErasing (d : Dev) (c : Nat) : Bool := if c = 0 then d.faults.eraseA else d.faults.eraseB
/-- The block of copy `c` erased last, counted without wrapping. -/
def Dev.logBlk (d : Dev) (c : Nat) : Nat := if c = 0 then d.faults.blkA else d.faults.blkB

/-- A page leaves copy `c` when its block is erased. -/
def LogPage.erase (p : LogPage) (c lo hi : Nat) : LogPage :=
  let out (k : Option Nat) : Option Nat := match k with | some k => if lo ≤ k ∧ k < hi then none else some k | none => none
  if c = 0 then { p with inA := out p.inA } else { p with inB := out p.inB }

/-- Copy `c` erases its next block when its write point reaches the last two pages of one (R409). -/
def Dev.logEraseAhead (d : Dev) (c : Nat) : Dev :=
  let ppb := d.kennel.ppb
  let n := d.logBlocksEach
  if ppb = 0 ∨ n = 0 then d
  else
    let b := (d.logWp c + 2) / ppb
    if b ≤ d.logBlk c then d
    else
      let pages := if b < n then d.faults.pages else (d.faults.pages.map fun p => p.erase c ((b - n) * ppb) ((b - n + 1) * ppb)).filter fun p => p.inA.isSome ∨ p.inB.isSome
      let f := { d.faults with pages := pages }
      (d.setFaults (if c = 0 then { f with eraseA := true, blkA := b } else { f with eraseB := true, blkB := b })).emit .flash [(d.logPlace c (b * ppb)).2, 7]

/-- The next position of copy `c` waits for its erase (R409). -/
def Dev.logWaits (d : Dev) (c : Nat) : Bool := d.logErasing c ∧ d.kennel.ppb ≠ 0 ∧ (d.logWp c + 2) / d.kennel.ppb = d.logBlk c

/-- The flush that is due begins (R408): the records are read, and both copies' programs are issued; a vault channel that is not ON is woken. [DEDUCED, log 56] -/
def Dev.flushStart (d : Dev) : Dev :=
  let f := d.faults
  if ¬ f.flushDue ∨ ¬ f.flushing.isEmpty ∨ d.kennelState < 2 ∨ d.inVault ∨ d.sup ≠ 2 ∨ d.vst = 0x0A then d
  else
    let l := d.unflushed
    let d := d.setFaults { f with flushDue := false }
    if l.isEmpty ∧ ¬ f.step5Pages then d
    else
      let d := (d.logEraseAhead 0).logEraseAhead 1
      let d := d.setFaults { d.faults with flushing := if l.isEmpty then [2 ^ 48] else l.map (·.seq) }
      [0, 1].foldl (fun d c => match d.logNext c (d.logWp c) with
        | some k => let p := d.logPlace c k
                    ((if d.pathOn (uVchan (p.1 / 16)) then d else d.demandWake (uVchan (p.1 / 16)))).emit .flash [p.2, 5]
        | none => d) d

/-- EVENT_RECORD_WRITE (R405, R406): the oldest record of the intake is written, with a TICK before it when one is due. [DEDUCED, log 56] -/
def Dev.eventWrite (d : Dev) : Dev :=
  match d.faults.intake with
  | [] => d
  | r :: rest =>
    let d := (d.setFaults { d.faults with intake := rest }).restartRecord
    let due : Bool := match d.faults.tickRec with | some t => decide (t + 1000000 ≤ d.now) | none => true
    let d := if due then d.tickRecord else d
    let l := storeGet noLimit d.faults.limits r.code
    let t := d.tokens l
    let d : Dev :=
      if codeExempt r.code then d.ringWrite r
      else if t < 1000000 then
        (d.setFaults { d.faults with limits := storeSet noLimit d.faults.limits r.code { l with tokens := t, tick := d.now, fresh := false, drop := min 65535 (l.drop + 1) } }).capSeq r.cap (2 ^ 48 - 1)
      else (d.setFaults { d.faults with limits := storeSet noLimit d.faults.limits r.code { l with tokens := t - 1000000, tick := d.now, fresh := false } }).ringWrite r
    let d := if 3072 ≤ d.unflushedCount then d.flushWanted else d
    d.flushStart

/-- A value written to TimeAnchor (R405). -/
def Dev.fxTimeAnchor (d : Dev) (v : Nat) : Reply :=
  okR (d.record 0x001 0 uChip (v % 2 ^ 32) (v / 2 ^ 32 % 2 ^ 32) (d.now % 2 ^ 32) (d.now / 2 ^ 32))

/-- A value written to LogFlush (R408). -/
def Dev.fxLogFlush (d : Dev) (v : Nat) : Reply :=
  if v = 0 then okR d
  else if d.kennelState < 2 then conflict d uChip
  else okR (d.flushWanted.flushStart)

/-- Cuts records into pages of 2,048 slots. -/
def cutPages : Nat → List EvRec → List (List EvRec)
  | 0, _ => []
  | n + 1, l => if l.isEmpty then [] else l.take 2048 :: cutPages n (l.drop 2048)

/-- `n` page positions of copy `c` from its write point on; none when it is not usable. -/
def Dev.logTake (d : Dev) (c : Nat) : Nat → Nat → Option (List Nat)
  | 0, _ => some []
  | n + 1, k => match d.logNext c k with
    | some k => (d.logTake c n (k + 1)).map (k :: ·)
    | none => none

/-- The write point of copy `c` moves past the pages `l`. -/
def Dev.logAdvance (d : Dev) (c : Nat) (l : List Nat) : Dev :=
  match l.getLast? with
  | none => d
  | some k => (d.setFaults (if c = 0 then { d.faults with wpA := k + 1 } else { d.faults with wpB := k + 1 })).logEraseAhead c

/-- The two pages of a vault's step 5 are copied to the other copy (R410). -/
def Dev.step5Copy (d : Dev) (okA okB : Bool) : Dev :=
  if ¬ d.faults.step5Pages then d
  else
    let one (d : Dev) (p : LogPage) : Dev :=
      let c := if p.inA.isNone then 0 else 1
      let ks := if p.step5 ∧ (if c = 0 then okA else okB) then d.logTake c 2 (d.logWp c) else none
      let q : LogPage := match ks with
        | some (k :: _) => if c = 0 then { p with inA := some k, step5 := false } else { p with inB := some k, step5 := false }
        | _ => { p with step5 := false }
      let d := d.setFaults { d.faults with pages := d.faults.pages ++ [q] }
      match ks with | some l => d.logAdvance c l | none => d
    let old := d.faults.pages
    old.foldl one (d.setFaults { d.faults with pages := [], step5Pages := false })

/-- LOG_FLUSH_COMPLETE (R410): `okA` and `okB` say which copy's pages are durable. -/
def Dev.flushComplete (d : Dev) (okA okB : Bool) : Dev :=
  if d.faults.flushing.isEmpty ∨ d.logWaits 0 ∨ d.logWaits 1 then d
  else
    let seqs := d.faults.flushing
    let d := (d.setFaults { d.faults with flushing := [] }).step5Copy okA okB
    let recs := d.unflushed.filter fun r => seqs.contains r.seq
    let pages := cutPages 4 recs
    let a := if okA then d.logTake 0 pages.length d.faults.wpA else none
    let b := if okB then d.logTake 1 pages.length d.faults.wpB else none
    if a.isNone ∧ b.isNone then d.fault 7
    else
      let new : List LogPage := (pages.zip (List.range pages.length)).map fun x => { recs := x.1, inA := a.bind fun l => l[x.2]?, inB := b.bind fun l => l[x.2]? }
      let ring : List RingSlot := d.faults.ring.map fun x => if seqs.contains x.ev.seq then { x with flushed := true } else x
      let d := (d.setFaults { d.faults with pages := d.faults.pages ++ new, ring := ring }).inc oLogFlushes
      let d := (d.logAdvance 0 (a.getD [])).logAdvance 1 (b.getD [])
      let d := if a.isNone ∨ b.isNone then d.fault 7 else d
      d.flushStart

/-- LOG_ERASE_COMPLETE (R409): the block ahead of copy `c` is erased. -/
def Dev.logErased (d : Dev) (c : Nat) : Dev :=
  d.setFaults (if c = 0 then { d.faults with eraseA := false } else { d.faults with eraseB := false })

/-- Inserts a record by sequence, once. -/
def seqInsert (r : EvRec) : List EvRec → List EvRec
  | [] => [r]
  | x :: l => if r.seq < x.seq then r :: x :: l else if r.seq = x.seq then x :: l else x :: seqInsert r l

/-- The records of the log that a copy still gives (R410). [DESIGN CHOICE, log 80] -/
def Dev.logRecords (d : Dev) : List EvRec :=
  (d.faults.pages.filter fun p => (match p.inA with | some k => d.logUsable 0 k | none => false) || (match p.inB with | some k => d.logUsable 1 k | none => false)).flatMap (·.recs)

/-- Up to 128 records at or above `cursor`, in ascending sequence (R411). -/
def Dev.eventsFrom (d : Dev) (cursor : Nat) : List EvRec :=
  (((d.logRecords ++ d.faults.ring.map (·.ev)).filter fun r => cursor ≤ r.seq).foldl (fun l r => seqInsert r l) []).take 128

/-- The event cursor of a requester (R411): a session number, or 0xFF without a session. -/
def Dev.cursor (d : Dev) (sid : Nat) : Nat := storeGet (fun _ => 0) d.faults.cursors sid

/-- Sets a requester's cursor. -/
def Dev.setCursor (d : Dev) (sid q : Nat) : Dev := d.setFaults { d.faults with cursors := storeSet (fun _ => 0) d.faults.cursors sid q }

/-- The 4,096-byte window of EventRecords (R411). -/
def Dev.eventWindow (d : Dev) (sid : Nat) : List Byte :=
  let l := (d.eventsFrom (d.cursor sid)).flatMap EvRec.bytes
  l ++ List.replicate (4096 - l.length) 0xFF

/-- A READ of EventRecords (R411): the window, and the cursor moved past it. -/
def Dev.eventRead (d : Dev) (sid : Nat) : List Byte × Dev :=
  let l := d.eventsFrom (d.cursor sid)
  (d.eventWindow sid, match l.getLast? with | some r => d.setCursor sid (r.seq + 1) | none => d)

/-- Highest sequence in either copy of the log; none when it holds no record. -/
def Dev.logTop (d : Dev) : Option Nat := d.logRecords.foldl (fun m r => some (max (m.getD 0) r.seq)) none

/-- EventSeqLast of the seals of the slots (R404). -/
def Dev.sealTop (d : Dev) : Option Nat :=
  [d.kennel.a, d.kennel.b].foldl (fun m s => match s.image with | some i => if i.sealOk then some (max (m.getD 0) i.evLast) else m | none => m) none

/-- The recorder starts at a power-on (R404, R405): `lost` with the keep store gone. -/
def Dev.recorderStart (d : Dev) (lost : Bool) : Dev :=
  let l := ((d.logTop.toList ++ d.sealTop.toList).map (· + 1)) ++ (if lost then [] else [d.g oSeqReserve])
  let start := l.foldl max 0
  let f := { d.faults with ring := [], intake := [], limits := [], flushing := [], flushDue := false, nextSeq := start, tickRec := none, seqRestart := l.isEmpty }
  (d.setFaults f).s oSeqReserve ((start + 65536) % 2 ^ 48)

end Sys2Proof.Machine
end

