-- ==== Sys2Proof/Machine/Resets.lean ====
section
/-! DEFINITION. Resets and start-up (19): power-on, PERST_N, the chip soft reset, unit resets, the watchdog, and the firmware slots. -/
namespace Sys2Proof.Machine

/-- Replaces the always-on block. -/
def Dev.setAon (d : Dev) (a : Aon) : Dev := { d with aon := a }

/-- A byte of FirmwareStatus (Table 19.5): 0 ConfirmedSlot, 1 NextSlot, 2 Trial, 3 TrialBoots, 4 SlotValid. -/
def Dev.fwb (d : Dev) (i : Nat) : Nat := d.gb oFirmwareStatus i

/-- A firmware slot; slot A of a new part holds a valid image. -/
def fwSlot0 : Nat → FwSlot := fun i => { valid := decide (i = 0) }

/-- Firmware slot `i`. -/
def Dev.fwSlotOf (d : Dev) (i : Nat) : FwSlot := storeGet fwSlot0 d.aon.fw i

/-- Replaces firmware slot `i`; SlotValid follows. -/
def Dev.setFw (d : Dev) (i : Nat) (x : FwSlot) : Dev :=
  let d := d.setAon { d.aon with fw := storeSet fwSlot0 d.aon.fw i x }
  d.sb oFirmwareStatus 4 ((if (d.fwSlotOf 0).valid then 1 else 0) + (if (d.fwSlotOf 1).valid then 2 else 0))

/-- The boot ROM selects and loads a slot (R426). [DESIGN CHOICE, log 3] -/
def Dev.bootSelect (d : Dev) : Dev :=
  let d : Dev :=
    if d.fwb 2 = 1 then
      let n := min 255 (d.fwb 3 + 1)
      let d := d.sb oFirmwareStatus 3 n
      if 3 < n then (d.sb oFirmwareStatus 2 0).sb oFirmwareStatus 1 (d.fwb 0) else d
    else d
  let want := d.fwb 1 % 2
  let slot := if (d.fwSlotOf want).valid then want else 1 - want
  if (d.fwSlotOf slot).valid then
    ((d.setAon { d.aon with fwSlot := slot, fwHalt := false }).s oFirmwareSlot slot).s oFirmwareVersion (d.fwSlotOf slot).version
  else d.setAon { d.aon with fwHalt := true }

/-- The running trial becomes confirmed (R426). [DESIGN CHOICE, log 60] -/
def Dev.fwConfirm (d : Dev) : Dev := ((d.sb oFirmwareStatus 0 d.aon.fwSlot).sb oFirmwareStatus 2 0).sb oFirmwareStatus 3 0

/-- The part's ports at the widths in force (R278). -/
def portsOfWidths (w : Nat) : Nat :=
  ((List.range 64).filter fun n => byteOf w (n / 16) ≠ 0 ∧ n % 16 % byteOf w (n / 16) = 0).foldl (fun m n => m + 2 ^ n) 0

/-- Values whose tables apply them at a chip soft reset take effect (R279, R281, R300), and the page predictor's counters are reset (R301). [DEDUCED, log 76] -/
def Dev.applySoft (d : Dev) : Dev :=
  let eff := [oGroupWidth, oRefClockMode, oHashMasks].foldl (fun e o => storeSet dictD e (dkey (homeOf o) o) (d.g o)) d.eff
  let d := { d with eff := eff, dram := { d.dram with subs := storeMapV noSub (fun _ x => { x with ctr := [] }) d.dram.subs } }
  { d with presPorts := portsOfWidths (d.ge oGroupWidth) }

/-- FENCE of instance `i` in a chip soft reset (R416 step 2): its contexts, descriptors and jobs are freed without completion, its HOST queues
deleted, the others IDLE. [DEDUCED, log 59] -/
def Dev.softInst (d : Dev) (i : Nat) : Dev :=
  let gone := d.instState i = 3
  let d := ((((d.setCtrl i {}).fence i gone).endOldCtx i).freeOld i).dropOldCmds i
  if gone then d.instClean i false
  else
    let d := (d.queuesOf i).foldl (fun d q => if qKind (d.q q) = 1 then d.dropQueue q else (d.setQf q 3 1 0).setQs q {}) d
    let vb := ent (d.inst i) 0x18 2
    let d := (List.range (ent (d.inst i) 0x1A 2)).foldl (fun d k => d.setVec (vb + k) { d.vec (vb + k) with pending := false }) d
    (((d.setInst i 2 1 1).setIrun i { d.irun i with step := 0, remove := false }).setInst i 0x20 4 0).recount i

/-- Units a chip soft reset resets (R416 step 3). -/
def Dev.softUnits (d : Dev) : List Nat :=
  ((List.range 4).flatMap (fun q => upOrder (uQuad q)) ++ upOrder uDown ++ [uHost]).filter d.present

/-- Every session closes with SESSION_CLOSING, and its staged set goes (R373, R416). -/
def Dev.closeSessions (d : Dev) (code : Nat) : Dev :=
  let d := d.notify 0x04 code noUnit
  { d with sess := { d.sess with slots := [] }, faults := { d.faults with cursors := d.faults.cursors.filter (·.1 = 0xFF) } }

/-- Steps 4 to 6 of a chip soft reset (R416): reactions end, the slices rebuild, domains return to ON, FREEZE is released. [DEDUCED, log 76] -/
def Dev.softFinish (d : Dev) : Dev :=
  let d := d.setAon { d.aon with softDue := false }
  let d := d.haltEnds.applySoft.tlbEmpty
  let d := { d with cache := { d.cache with bucket := [], adopting := List.range 256 } }
  let up := (upOrder uChip).filter fun u => hasDomain u ∧ d.present u ∧ (domainStates u).contains 2
  let d := up.foldl Dev.upUnit d
  let d := d.setRestore { d.restore with hostIo := decide (d.sup = 2), readyTick := none }
  let d := if d.sup = 2 then d.hostReady.unfreeze else { d with cache := { d.cache with frozen := false } }
  d.recompute

/-- A chip soft reset of kind `k` (R416). `restart`: the supervisor restarts between steps 3 and 4.
A capacitance test that runs is abandoned, and not counted, which the rules leave open. A drill that runs ends with no result, and
its scratch band is erased (R128). [DEDUCED, log 58; DESIGN CHOICE, log 86] -/
def Dev.softReset (d : Dev) (k : Nat) (restart : Bool := false) : Dev :=
  let d := { d with cache := { d.cache with frozen := true } }
  let d : Dev := if d.energy.drill.step ≠ 0 then { d with energy := { d.energy with drill := {} }, kennel := { d.kennel with scratchErase := true } } else d
  let d := if 2 ≤ d.energy.cap.step then d.capAbandon false else d
  let d := (d.stopAll).resetKind k
  let d := d.liveInsts.foldl Dev.softInst d
  let us := d.softUnits
  let d := us.reverse.foldl (fun (d : Dev) u => if hasDomain u then d.cycleUnit u else d.vDefaults u) d
  let d := (d.closeSessions 0x04).setRestore { d.restore with hostIo := false, readyTick := none }
  let staged : Bool := decide (d.fwb 2 = 1 ∧ d.fwb 1 ≠ d.aon.fwSlot ∧ d.dirtyTotal = 0)
  if restart ∨ staged then (d.bootSelect).setAon { d.bootSelect.aon with wdRestart := true, softDue := true } else d.softFinish

/-- A soft reset, or a restored MRST_N, that waited ends now (R416, R417, Table 19.4). -/
def Dev.softPending (d : Dev) : Dev :=
  let busy := d.inVault ∨ (0x0A ≤ d.vst ∧ d.vst ≤ 0x0C)
  let d := if d.aon.softDue ∧ ¬ d.aon.wdRestart ∧ ¬ busy then d.softFinish else d
  if d.aon.mrstDefer ∧ ¬ busy ∧ d.restore.held.isNone then (d.setAon { d.aon with mrstDefer := false }).softReset 5 else d

/-- RETAIN leads to WAKE on any reset: triggers 0x03 to 0x06 (Table 4.3). -/
def Dev.retainResets (d : Dev) : Bool := d.vst = 7 ∧ 3 ≤ d.vault.trigger

/-- A reset of kind `k` in RETAIN (Table 4.3): the S3 ends with it (R394). -/
def Dev.retainReset (d : Dev) (k : Nat) : Dev :=
  let d := d.resetKind k
  let d := if d.halted then d.haltEnds else d
  d.wakeFromRetain

/-- A value written to ResetCommand (R417). -/
def Dev.fxResetCommand (d : Dev) (v : Nat) : Reply :=
  if v ≠ 1 then badValue d uChip
  else if d.inVault ∨ (0x0A ≤ d.vst ∧ d.vst ≤ 0x0C) then conflict d uChip
  else okR (d.softReset 5)

/-- MRST_N (R335, R417): low for the 1 ms filter, `len` ms in all. [DEDUCED, log 58; DEDUCED, log 59] -/
def Dev.mrst (d : Dev) (len : Nat) : Dev :=
  let note := d.record 0x103 0 uSup 1 len 0 0
  if d.retainResets then d.retainReset 5
  else if d.inVault then note
  else if 0x0A ≤ d.vst ∧ d.vst ≤ 0x0C then note.setAon { note.aon with mrstDefer := true }
  else d.softReset 5

/-- PERST_N, or with `pin` false a Hot Reset or the link going down (R394, R415). [DEDUCED, log 59] -/
def Dev.perst (d : Dev) (pin : Bool) : Dev :=
  let d := if pin then d.setAon { d.aon with perstN := false } else d
  if d.retainResets then d.retainReset 3
  else if d.halted ∧ ¬ d.inVault ∧ ¬ (0x0A ≤ d.vst ∧ d.vst ≤ 0x0C) then d.softReset 5
  else
    let d := (d.hostPortReset.resetKind 3).tlbEmpty
    if d.restore.readyTick.isSome ∧ d.domSt uHost = 0 then d.resetInsts else d

/-- A RESET frame of the current master (R175, R417). [DEDUCED, log 59] -/
def Dev.packReset (d : Dev) : Dev :=
  if d.retainResets then d.retainReset 8
  else if d.inVault ∨ (0x0A ≤ d.vst ∧ d.vst ≤ 0x0C) then d
  else d.softReset 8

/-- WATCHDOG_EXPIRE (R419). [DEDUCED, log 59] -/
def Dev.watchdog (d : Dev) : Dev :=
  if (2 ≤ d.vst ∧ d.vst ≤ 6) ∨ d.vst = 9 then d.fault 2
  else
    let d := d.setAon { d.aon with wdSince := true }
    if d.retainResets then d.bootSelect.retainReset 7
    else if d.inVault ∨ (0x0A ≤ d.vst ∧ d.vst ≤ 0x0C) then (d.bootSelect.resetKind 7).setAon { d.bootSelect.aon with wdRestart := true }
    else d.softReset 7 true

/-- A value written to UnitReset at unit `u` (R418). [DEDUCED, log 59] -/
def Dev.fxUnitReset (d : Dev) (u v : Nat) : Reply :=
  if v = 0 then okR d
  else if [0x00, 0x0C, 0x10, 0x11, 0x12, 0x14, 0x15].contains (kindOf u) ∨ (2 ≤ d.vst ∧ d.vst ≤ 7) then conflict d u
  else okR (d.unitReset u)

/-- Bytes written to FirmwareImage (R425): they go to the slot that does not run. -/
def Dev.fxFirmwareImage (d : Dev) (off : Nat) (data : List Byte) : Reply :=
  let i := 1 - d.aon.fwSlot
  let x := d.fwSlotOf i
  let bytes := (data.zip (List.range data.length)).foldl (fun m b => storeSet zeroByte m (off + b.2) b.1) x.bytes
  okR (d.setFw i { x with bytes := bytes, valid := false })

/-- FIRMWARE_STAGE (R425): `ok` says whether the image passes its checks, `version` what its header carries. [DESIGN CHOICE, log 60] -/
def Dev.fwStage (d : Dev) (ok : Bool) (version : Nat) : Reply :=
  let i := 1 - d.aon.fwSlot
  if ¬ ok then badValue (d.setFw i { d.fwSlotOf i with valid := false }) uChip
  else
    let d := d.setFw i { d.fwSlotOf i with valid := true, version := version % 2 ^ 32 }
    okR (((d.sb oFirmwareStatus 1 i).sb oFirmwareStatus 2 1).sb oFirmwareStatus 3 0)

/-- A value written to FirmwareCommand (R425, R426, R428). [DESIGN CHOICE, log 60] -/
def Dev.fxFirmwareCommand (d : Dev) (v : Nat) (ok : Bool) (version : Nat) : Reply :=
  match v with
  | 1 => d.fwStage ok version
  | 2 => if d.fwb 2 = 1 ∧ d.fwb 1 = d.aon.fwSlot then okR d.fwConfirm else conflict d uChip
  | 3 => okR (d.sb oFirmwareStatus 1 (d.fwb 0))
  | _ => badValue d uChip

/-- TRIAL_CONFIRM_TIMEOUT (R426). [DESIGN CHOICE, log 60] -/
def Dev.trialTimeout (d : Dev) : Dev :=
  if d.fwb 2 = 1 ∧ d.fwb 1 = d.aon.fwSlot ∧ d.restore.readyTick.isSome ∧ ¬ d.aon.wdSince then d.fwConfirm else d

/-- Objects that a power-on keeps: F always, K while the keep store holds (Table 19.3). -/
def keptObject (lost : Bool) (o : Nat) : Bool := match objRow o with | some r => r.pers == 2 || (r.pers == 1 && !lost) | none => false

/-- A slot of the Kennel as a power-on finds it (R126): marks of what ran are gone, and an erase that was cut off stays ERASING (R130). -/
def Slot.found (s : Slot) : Slot := { s with held := false, target := false }

/-- Everything by the Power-on column of Table 19.3. -/
def Dev.powerOn (d : Dev) (lost : Bool) : Dev :=
  let dict := storeKeep (fun k _ => keptObject lost (k % 0x1000000)) d.dict
  let k := d.kennel
  let kennel := { k with a := k.a.found, b := k.b.found, key := if lost then none else k.key }
  let f : Faults := { pages := d.faults.pages, wpA := d.faults.wpA, wpB := d.faults.wpB, eraseA := d.faults.eraseA, eraseB := d.faults.eraseB
                    , blkA := d.faults.blkA, blkB := d.faults.blkB, step5Pages := d.faults.step5Pages }
  let a : Aon := { d.aon with auxUp := true, vbatLow := false, collapse := none, keepLost := lost, mrstDefer := false, holdEn := false, bankLoad := false, lshSyncDrive := false, wdRestart := false, softDue := false, wdSince := false, xclkHold := none, clocks := [], thermal := [], powered := true }
  let sess : Sess := { lock := if lost then [] else d.sess.lock }
  let d0 : Dev := { aon := a, dict := dict, eff := dict, faults := f, kennel := kennel, sess := sess, fuse := d.fuse, part48 := decide (d.fuse.partNumber = some 2), out := d.out, free := d.free }
  let d1 := { d0 with presPorts := portsOfWidths (d0.ge oGroupWidth) }
  let locks := (dict.filter fun p => p.1 % 0x1000000 = oDomainLock ∧ p.2 = 1).map fun p => p.1 / 0x1000000
  let off := if locks.isEmpty then [] else (upOrder uChip).filter fun u => hasDomain u ∧ d1.present u ∧ (domainStates u).contains 2 ∧ d1.lockedOff u
  let d2 := off.foldl (fun d u => d.setDom u { st := 2 }) d1
  let d3 := ((d2.recorderStart lost).resetKind 1).nextImage
  let d4 : Dev := match d.aon.collapse with
    | some t => d3.record 0x102 2 uAon (t % 2 ^ 32) 0 0 0
    | none => d3
  if lost then d4.fault 6 else d4

/-- POWER_ON_RESET (R420, R424): the auxiliary input rises. `keepOk`: the keep store's Magic, Format and CRC hold; the straps follow. [DESIGN CHOICE, log 4; DEDUCED, log 75] -/
def Dev.powerOnReset (d : Dev) (keepOk lshEn : Bool) (lshAddr : Nat) (lshMstr testMode : Bool) : Dev :=
  let lost : Bool := !keepOk || d.aon.vbatLow
  let d := if lost then d.setAon { d.aon with tick := 0 } else d
  let d := d.powerOn lost
  let d := d.setAon { d.aon with lshEn := lshEn, lshAddr := lshAddr % 8, lshMstr := lshMstr, testMode := testMode, lshSyncN := true }
  let d := (d.s oPackAddress (lshAddr % 8)).s oTestMode (if testMode then 1 else 0)
  d.bootSelect

/-- POWER_UP_START (R323): out of DARK, the power-on of Table 4.3 comes first. -/
def Dev.powerUp (d : Dev) : Dev :=
  if d.aon.fwHalt ∨ d.aon.wdRestart then d
  else if d.aon.powered then d.powerUpStart
  else
    let e := d.powerOn false
    let e := { e with power := { e.power with endedStandby := d.power.endedStandby, shortPress := d.power.shortPress } }
    if (e.g oAutoPowerOn = 1 ∧ ¬ e.power.endedStandby) ∨ e.power.shortPress then
      ((e.s oPackAddress d.aon.lshAddr).s oTestMode (if d.aon.testMode then 1 else 0)).bootSelect.powerUpStart
    else d

/-- AUX_BROWNOUT (R103, R106, R329): the always-on block writes DARK as FurthestState of an outage, every enable is released at once and the collapse is latched; only a power-on goes on from here. [DEDUCED, log 75] -/
def Dev.auxBrownout (d : Dev) : Dev :=
  let d := if 2 ≤ d.vst ∧ d.vst ≤ 7 then d.dropRails.furthest 8 else d.dropRails
  d.setAon { d.aon with auxUp := false, collapse := some d.now, powered := false, holdEn := false, bankLoad := false, lshSyncDrive := false, vbatLow := false }

/-- VBAT_LOW_LATCH (R424). -/
def Dev.vbatLow (d : Dev) : Dev := if d.aon.auxUp then d else d.setAon { d.aon with vbatLow := true }

end Sys2Proof.Machine
end

