-- ==== Sys2Proof/Machine/Clocks.lean ====
section
/-! DEFINITION. Clocks (20), the Tj sensors (R454) and the test port (R453). -/
namespace Sys2Proof.Machine

/-- Clock `i` of Table 20.2; 22 is XCLK. -/
def Dev.clk (d : Dev) (i : Nat) : Clock := storeGet clockOk d.aon.clocks i

/-- Replaces clock `i`. -/
def Dev.setClk (d : Dev) (i : Nat) (x : Clock) : Dev := d.setAon { d.aon with clocks := storeSet clockOk d.aon.clocks i x }

/-- Unit `u` is present with its domain ON. -/
def Dev.unitOn (d : Dev) (u : Nat) : Bool := d.present u && d.domSt u == 0

/-- Clock `i` is stopped on purpose, and its detector masked (R437). [DEDUCED, log 61] -/
def Dev.clockMasked (d : Dev) (i : Nat) : Bool :=
  if 20 ≤ i then false
  else if i = 19 then d.doms.supRet
  else if d.sup ≠ 2 ∧ d.sup ≠ 5 then true
  else if i = 0 then !d.aon.perstN || d.domSt uHost != 0
  else if i < 5 then !(List.range 16).any fun k => d.unitOn (uPort (16 * (i - 1) + k))
  else if i < 9 then !(List.range 4).any fun c => (uL2 (i - 5) c :: (List.range 4).map (uCore (i - 5) c)).any d.unitOn
  else if i = 9 then false
  else if i < 18 then (d.chan (i - 10)).st == 3 || !d.unitOn (uChan (i - 10))
  else !(List.range 16).any fun n => d.unitOn (uVchan n)

/-- Requests of channel `n` held in crossings of its clock complete with the unit-isolated response; write data is discarded (R439). -/
def Dev.chanFlush (d : Dev) (n : Nat) : Dev :=
  let a := d.subch (2 * n)
  let b := d.subch (2 * n + 1)
  let gone := (a.waiting ++ b.waiting).map (·.tag) ++ (d.dram.ans.filter (·.chan = n)).map (·.tag)
  let d := (d.setSub (2 * n) { a with waiting := [], reads := [], retry := [] }).setSub (2 * n + 1) { b with waiting := [], reads := [], retry := [] }
  let d := { d with dram := { d.dram with ans := d.dram.ans.filter (·.chan ≠ n) } }
  gone.foldl (fun d t => d.emit .bus [uChan n, 1, t]) d

/-- CLOCK_LOSS (R436 to R439): the detector of clock `i` finds it stopped or off frequency, at `freq` kHz. [DEDUCED, log 61] -/
def Dev.clockLoss (d : Dev) (i freq : Nat) : Dev :=
  if 22 < i ∨ (d.clk i).st ≠ 0 ∨ d.clockMasked i ∨ (i = 19 ∧ (d.clk 20).st ≠ 0) then d
  else
    let d := d.setClk i { st := if i = 19 ∨ i = 20 then 3 else 2, freq := freq % 2 ^ 32 }
    if i = 22 then d.setAon { d.aon with xclkHold := some d.now }
    else
      let d := d.s oClockLosses (setField (d.g oClockLosses) (2 * i) 2 (min 65535 (fieldOf (d.g oClockLosses) (2 * i) 2 + 1)))
      let d := if 5 ≤ i ∧ i < 9 ∧ d.vst = 3 then (List.range 16).foldl (fun d k => d.stopCore (16 * (i - 5) + k) 3 true) d else d
      let d := if 10 ≤ i ∧ i < 18 then d.chanFlush (i - 10) else d
      d.faultLive (648 + i)

/-- CLOCK_RECOVERED (R440): clock `i` has passed its check for 1 ms. FCLK, SUPCLK and MCLK losses end only as R394 and R312 state. -/
def Dev.clockRecovered (d : Dev) (i : Nat) : Dev :=
  if 22 < i ∨ (d.clk i).st = 0 ∨ i = 9 ∨ i = 19 ∨ (10 ≤ i ∧ i < 18) then d
  else
    let d := d.setClk i {}
    if i = 22 then d.setAon { d.aon with xclkHold := none } else d.unlive (648 + i)

/-- XCLK_HOLDOVER_END (R438): SUPCLK is then lost. -/
def Dev.holdoverEnd (d : Dev) : Dev :=
  match d.aon.xclkHold with
  | none => d
  | some _ =>
    let d := d.setAon { d.aon with xclkHold := none }
    if (d.clk 19).st ≠ 0 then d
    else
      let d := d.s oClockLosses (setField (d.g oClockLosses) 38 2 (min 65535 (fieldOf (d.g oClockLosses) 38 2 + 1)))
      (d.setClk 19 { st := 3 }).faultLive 667

/-- A dirty version that has no COPY and lies in channel `n` becomes Poison (R58, R438). -/
def Dev.mclkPoison (d : Dev) (n : Nat) : Dev :=
  (d.versIn n).foldl (fun d v => if v.dirty ∧ v.copy.isNone ∧ ¬ v.poison then (d.modVer v.frame fun v => { v with poison := true }).fault 12 else d) d

/-- MCLK_PLL_RESTART (R438): a restart of the PLL of a lost MCLK ends, locked or not; quarantine follows a lock or the third failure. [DEDUCED, log 61] -/
def Dev.pllRestart (d : Dev) (n : Nat) (locked : Bool) : Dev :=
  let x := d.clk (10 + n)
  if 8 ≤ n ∨ x.st = 0 ∨ 3 ≤ x.attempts then d
  else if locked then ((d.setClk (10 + n) {}).quarantine n).unlive (658 + n)
  else
    let d := d.setClk (10 + n) { x with attempts := x.attempts + 1 }
    if x.attempts + 1 < 3 then d else (d.mclkPoison n).quarantine n

/-- Byte `i` of ClockState (Table 20.7). [DEDUCED, log 61] -/
def Dev.clockState (d : Dev) (i : Nat) : Nat :=
  if (d.clk i).st ≠ 0 then (d.clk i).st else if d.clockMasked i then 1 else if 5 ≤ i ∧ i < 20 ∧ d.aon.xclkHold.isSome then 3 else 0

/-- ClockFrequency of clock `i`, in kHz (Tables 20.2 and 20.7): that of a lost clock is what its detector measured. [DEDUCED, log 61] -/
def Dev.clockFreq (d : Dev) (i : Nat) : Nat :=
  if (d.clk i).st ≠ 0 then (d.clk i).freq
  else if d.clockMasked i then 0
  else if i < 5 then 1000000
  else if i < 9 then (d.avsOf (i - 5)).freq * 1000
  else if i = 9 then 1600000
  else if i < 18 then d.g oDramSpeed * 500
  else if i = 18 then 1800000 else if i = 19 then 100000 else if i = 20 then 48000 else 33

/-- THERMAL_SAMPLE (R454): sensor `i` (0 to 3 the quadrants, 4 the fabric) reads `t` °C. [DEDUCED, log 62] -/
def Dev.thermalSample (d : Dev) (i : Nat) (t : Int) : Dev :=
  if 5 ≤ i then d
  else
    let was := storeGet (fun _ => (0 : Int)) d.aon.thermal i
    let d := d.setAon { d.aon with thermal := storeSet (fun _ => (0 : Int)) d.aon.thermal i t }
    let d := if 130 ≤ t ∧ was < 130 then d.fault 4 else d
    if i = 4 then d
    else
      let live := d.faults.live.testBit (44 + i)
      if 120 ≤ t ∧ ¬ live then (d.faultLive (44 + i)).opRequest i 0
      else if t < 115 ∧ live then (d.unlive (44 + i)).opRequest i (d.gb oCoreOperatingPoint i)
      else d

/-- Bits leaving a register of the test port (R453): `reg` with the bit next to TDO first, as many bits as `tdi` brings in; and what stays. [PRESUMED, log 14] -/
def shiftOut (reg tdi : List Bool) : List Bool × List Bool := ((reg ++ tdi).take tdi.length, (reg ++ tdi).drop tdi.length)

/-- An output of test-port bits. -/
def Dev.tdo (d : Dev) (l : List Bool) : Dev := d.emit .tdo (l.map fun b => if b then 1 else 0)

/-- BYPASS (R453): one bit, which captures 0. -/
def Dev.jtagBypass (d : Dev) (tdi : List Bool) : Dev :=
  let (o, r) := shiftOut [false] tdi
  (d.setAon { d.aon with ir := 0, drive := 0, bypass := listGet false r 0 }).tdo o

/-- IDCODE (R453): version, part number, Lemnov's fused identity, and the mandatory low 1. [DEDUCED, log 62] -/
def Dev.idcode (d : Dev) : Nat := 0xB * 2 ^ 28 + (if d.part48 then 0x6448 else 0x6464) * 2 ^ 12 + Config.jep106.toNat * 2 + 1

/-- The IDCODE instruction (R453). -/
def Dev.jtagIdcode (d : Dev) (tdi : List Bool) : Dev :=
  (d.setAon { d.aon with ir := 1, drive := 0 }).tdo (shiftOut ((List.range 32).map d.idcode.testBit) tdi).1

/-- An instruction that selects the boundary chain: `pins` are captured, and the chain shifts. [DEDUCED, log 62] -/
def Dev.jtagChain (d : Dev) (ir drive : Nat) (pins tdi : List Bool) : Dev :=
  let (o, r) := shiftOut pins tdi
  (d.setAon { d.aon with ir := ir, drive := drive, cells := r }).tdo o

/-- SAMPLE/PRELOAD (R453). -/
def Dev.jtagSample (d : Dev) (pins tdi : List Bool) : Dev := if d.aon.testMode then d.jtagChain 2 0 pins tdi else d.jtagBypass tdi

/-- EXTEST (R453): the balls are driven from the chain. -/
def Dev.jtagExtest (d : Dev) (pins tdi : List Bool) : Dev := if d.aon.testMode then d.jtagChain 3 1 pins tdi else d.jtagBypass tdi

/-- CLAMP and HIGHZ (R453): the balls held by the chain, or released, with the bypass register selected. -/
def Dev.jtagHold (d : Dev) (ir drive : Nat) (tdi : List Bool) : Dev :=
  let d := d.jtagBypass tdi
  if d.aon.testMode then d.setAon { d.aon with ir := ir, drive := drive } else d

end Sys2Proof.Machine
end

