-- ==== Sys2Proof/Machine/Pack.lean ====
section
/-! DEFINITION. The Pack and the Leash (07): frames, the polling cycle, mastership, versions, the vault energy budget, grants and drive-slot
power. -/
namespace Sys2Proof.Machine

/-- Replaces the Pack's state. -/
def Dev.setPack (d : Dev) (p : Pack) : Dev := { d with pack := p }

/-- Replaces node `n`. -/
def Dev.setNode (d : Dev) (n : Nat) (x : Node) : Dev := d.setPack { d.pack with nodes := storeSet noNode d.pack.nodes n x }

/-- This Thozu is the master. -/
def Dev.isMaster (d : Dev) : Bool := d.aon.lshEn && d.g oPackRole == 1

/-- Its Leash address. -/
def Dev.own (d : Dev) : Nat := d.g oPackAddress

/-- A frame (Table 7.1). -/
def frameBytes (ver typ dest src seq : Nat) (payload : List Byte) : List Byte :=
  let h := leBytes 1 ver ++ leBytes 1 typ ++ leBytes 1 dest ++ leBytes 1 src ++ leBytes 1 seq ++ leBytes 1 payload.length ++ payload
  h ++ leBytes 2 (crc16 h)

/-- Payload lengths that a frame type admits (Table 7.2). -/
def frameLen (typ len : Nat) : Bool :=
  match typ with
  | 1 | 3 => len == 32
  | 2 => len == 0
  | 4 => len == 24
  | 5 | 6 | 7 => len == 4
  | 8 | 9 => decide (2 ≤ len ∧ len ≤ 64)
  | _ => false

/-- Byte `i` of a frame. -/
def frameAtByte (f : List Byte) (i : Nat) : Nat := (listGet 0 f i).toNat

/-- `len` bytes of a frame's payload from `off`. -/
def framePay (f : List Byte) (off len : Nat) : Nat := leNat ((f.drop (6 + off)).take len)

/-- The version, type, length and CRC of a received frame are right, and it is addressed here (R158, R159). -/
def Dev.frameOk (d : Dev) (typ : Nat) (f : List Byte) (cast : Bool) : Bool :=
  let len := frameAtByte f 5
  decide (8 ≤ f.length) && decide (len ≤ 64) && f.length == 8 + len && leNat (f.drop (6 + len)) == crc16 (f.take (6 + len)) &&
    decide (frameAtByte f 0 ≤ d.g oMaxVersion) && frameAtByte f 1 == typ && (frameAtByte f 2 == (if cast then 0xFF else d.own)) && frameLen typ len

/-- A frame of type `typ` arrives: `k` takes it, or it is discarded and counted (R159). While LSH_EN is low the Leash is idle (R155). -/
def Dev.onFrame (d : Dev) (typ : Nat) (f : List Byte) (cast : Bool) (k : Dev → Dev) : Dev :=
  if ¬ d.aon.lshEn then d else if d.frameOk typ f cast then k d else d.inc oLeashErrors

/-- The master sends a frame of its own (R158, R167). -/
def Dev.sendFrame (d : Dev) (typ dest : Nat) (payload : List Byte) : Dev :=
  let s := d.pack.seq % 256
  (d.setPack { d.pack with seq := (s + 1) % 256 }).emit .leash [typ, dest, s] (frameBytes (d.g oOpVersion) typ dest d.own s payload)

/-- Sets the roster, and records a change (Table 18.6). -/
def Dev.setRoster (d : Dev) (r : Nat) : Dev :=
  let o := d.g oRoster
  if o = r then d else (d.s oRoster r).record 0x200 0 uChip o r 0 0

/-- Sets the master's address; each change is recorded and counted (R164). [DEDUCED, log 63] -/
def Dev.setMaster (d : Dev) (m : Nat) : Dev :=
  let o := d.g oMasterAddress
  if o = m then d else ((d.s oMasterAddress m).inc oTakeovers 16).record 0x201 0 uChip o m 0 0

/-- Addresses in the roster. -/
def Dev.rosterNodes (d : Dev) : List Nat := (List.range 16).filter fun n => bit (d.g oRoster) n

/-- TNeed (R163); with b_used 0 the spec states no value, and it is free. [DEDUCED, log 64] -/
def Dev.tNeed (d : Dev) : Nat :=
  if d.bOwn = 0 then (Config.needTime d.free).toNat
  else min (2 ^ 32 - 1) (max (d.g oTFixed * 1000) ((d.g oFixedBytes + d.bOwn - 1) / d.bOwn + 10000) + (d.modeMax * 4096 + d.bOwn - 1) / d.bOwn)

/-- The STATUS payload of this Thozu (Table 7.5). [DEDUCED, log 64] -/
def Dev.statusPayload (d : Dev) : List Byte :=
  let p := d.pOwn
  let need := min (2 ^ 32 - 1) (p * (1000 + d.g oMargin) / 1000 * d.tNeed / 1000000 + d.g oERetainMin)
  leBytes 1 (d.g oMaxVersion) ++ leBytes 1 1 ++ leBytes 1 d.vst
    ++ leBytes 1 ((if d.aon.lshSyncDrive then 3 else 0) + (if d.pack.hasGrant then 4 else 0))
    ++ leBytes 2 (d.g oGrantSeq) ++ leBytes 1 (d.faultStatus uChip) ++ leBytes 1 0 ++ leBytes 4 p ++ leBytes 2 d.bOwn ++ leBytes 2 0
    ++ leBytes 4 d.tNeed ++ leBytes 4 (d.g oERetainMin) ++ leBytes 4 (d.g oHoldPower) ++ leBytes 4 need

/-- The counter of free values advances when a STATUS has used one. -/
def Dev.spent (d : Dev) : Dev := if d.bOwn = 0 then { d with free := d.free + 1 } else d

/-- A node as its STATUS payload reports it (Tables 7.5 and 7.8). -/
def Node.report (x : Node) (p : List Byte) : Node :=
  let f := fun off len => leNat ((p.drop off).take len)
  let v := f 2 1
  if f 1 1 = 1 then
    { x with seen := true, maxVersion := f 0 1, kind := 1, vaultState := v, flags := f 3 1, faultStatus := f 6 1, pused := f 8 4, bused := f 12 2, tneed := f 16 4, eretain := f 20 4, phold := f 24 4, left := if 2 ≤ v ∧ v ≤ 6 then false else x.left || decide (v = 7 ∨ v = 9 ∨ 10 ≤ v) }
  else
    { x with seen := true, maxVersion := f 0 1, kind := 2, slots := f 2 1, flags := f 3 1, slotOn := f 4 2, slotPresent := f 6 2, slotFault := f 8 2, phold := f 12 4, thold := f 16 4 }

/-- Some Thozu is in FREEZE to RETAIN, WAKE, RESTORE or FETCH (Table 7.4). -/
def Dev.packBusy (d : Dev) : Bool :=
  d.rosterNodes.any fun n => let x := d.node n; x.kind = 1 ∧ ((2 ≤ x.vaultState ∧ x.vaultState ≤ 7) ∨ (10 ≤ x.vaultState ∧ x.vaultState ≤ 12))

/-- A share of the budget (R168): a Thozu's inputs, and what the pseudocode gives it. -/
structure Share where
  addr : Nat
  b : Nat
  ret : Nat
  ph : Nat
  f : Nat
  pa : Nat
  dur : Nat
  ok : Bool
  wave : Nat := 0xFF
  tau : Nat := 0
  need : Nat := 0
  g : Nat := 0

/-- pa(t, f) of R168. -/
def Dev.pa (d : Dev) (p f : Nat) : Nat := p * (d.g oStaticShare + (1000 - d.g oStaticShare) * f / 1000) / 1000

/-- The largest rate f, in steps of 10 from `f` down to `floor`, at which `over` does not hold (R168). -/
def rateFit (above : Nat → Bool) (floor : Nat) : Nat → Nat → Nat
  | 0, f => f
  | n + 1, f => if floor < f ∧ above f then rateFit above floor n (f - 10) else f

/-- The inputs of one Thozu with its rate, power and duration (R168). -/
def Dev.share (d : Dev) (base plim floor n : Nat) : Share :=
  let x := d.node n
  let load := fun f => base + d.pa x.pused f - x.phold
  let f := rateFit (fun f => decide (plim < load f)) floor 100 1000
  let ok : Bool := decide (load f ≤ plim)
  { addr := n, b := x.bused, ret := x.eretain, ph := x.phold, f := f, pa := d.pa x.pused f, ok := ok, dur := if ok then (x.tneed * 1000 + f - 1) / f else 0 }

/-- The running values of the wave loop: wave, start, load, longest, and the shares placed. -/
structure Waves where
  wave : Nat := 0
  start : Nat := 0
  load : Nat
  longest : Nat := 0
  done : List Share := []

/-- One Thozu is placed (R168). -/
def Waves.place (base plim : Nat) (w : Waves) (t : Share) : Waves :=
  let w := if plim < w.load + t.pa - t.ph then { w with wave := w.wave + 1, start := w.start + w.longest, load := base, longest := 0 } else w
  { w with load := w.load + t.pa - t.ph, longest := max w.longest t.dur, done := w.done ++ [{ t with wave := w.wave, tau := w.start }] }

/-- need(t) of R168 in µJ. -/
def Dev.needOf (d : Dev) (t : Share) : Share := { t with need := t.pa * (1000 + d.g oMargin) / 1000 * t.dur / 1000 + t.ret * 1000 }

/-- The budget of R168: v_floor, surplus in µJ, and every Thozu's share. -/
def Dev.budgetPlan (d : Dev) : Nat × Int × List Share :=
  let ilim := d.g oBankCurrentLimit
  let vf := d.g oVMin + (d.g oEsrMeasured * ilim + 999999) / 1000000
  let plim := ilim * vf / 1000
  let v := d.energy.vhold
  let bank := if v ≤ vf then 0 else d.capUsed * d.g oEfficiency * (v * v - vf * vf) / 2000000000
  let nodes := d.rosterNodes
  let base := (nodes.map fun n => (d.node n).phold).sum
  let m := 1000 + d.g oMargin
  let floor := if d.g oOpVersion < 2 then 1000 else d.g oMinRate
  let ts := (nodes.filter fun n => (d.node n).kind = 1).map (d.share base plim floor)
  let w := (ts.filter (·.ok)).foldl (Waves.place base plim) { load := base }
  let tEnd := w.start + w.longest
  let ctl := (nodes.filter fun n => (d.node n).kind = 2).map fun n => (d.node n).phold * m / 1000 * max (d.node n).thold tEnd / 1000
  let hold := ts.map fun t => t.ph * m / 1000 * (tEnd - t.dur) / 1000
  let above := ctl.sum + hold.sum + (d.pack.absents.map fun a => 1000 * a.grant).sum
  let fed := w.done.map d.needOf
  let needs := (fed.map (·.need)).sum
  let full := fed.map fun t => { t with g := (t.need + 999) / 1000 }
  let sum := (full.map (·.g)).sum
  let room : Int := (bank : Int) - (above : Int)
  let fed := if room < 1000 * (sum : Int) then fed.map fun t => { t with g := room.toNat * t.need / needs / 1000 } else full
  (vf, room - 1000 * ((fed.map (·.g)).sum : Int), fed ++ ts.filter fun t => !t.ok)

/-- The fields of a share's GRANT (Table 7.7) but for BudgetSeq: Wave, Flags, EGrant, Tau, Cap, PCap. -/
def Share.key (t : Share) (v : Nat) : List Nat :=
  [if t.ok then t.wave else 0xFF, if t.f < 1000 then 1 else 0, min (2 ^ 32 - 1) t.g, min (2 ^ 32 - 1) t.tau, if t.ok ∧ 2 ≤ v then t.b * t.f / 1000 else 0
  , if t.ok ∧ 2 ≤ v then min (2 ^ 32 - 1) t.pa else 0]

/-- The GRANT payload of a key. -/
def grantBytes (seq : Nat) (k : List Nat) : List Byte :=
  let f := listGet 0 k
  leBytes 2 seq ++ leBytes 1 (f 0) ++ leBytes 1 (f 1) ++ leBytes 4 (f 2) ++ leBytes 4 (f 3) ++ leBytes 2 (f 4) ++ leBytes 2 0 ++ leBytes 4 (f 5) ++ leBytes 4 0

/-- A grant comes into force at this Thozu (R170). -/
def Dev.takeGrant (d : Dev) (seq : Nat) (k : List Nat) : Dev :=
  let f := listGet 0 k
  let d := ((((d.s oGrantSeq seq).s oGrantEnergy (f 2)).s oGrantOffset (f 3)).s oGrantCap (f 4)).s oGrantPower (f 5)
  (d.setPack { d.pack with hasGrant := true, grantWave := f 0 }).recompute

/-- A share's GRANT becomes due, or comes into force at the master itself; nothing goes to a Thozu that joined while PackVault was set. -/
def Dev.dueGrant (d : Dev) (t : Share) : Dev :=
  let x := d.node t.addr
  let k := t.key (d.g oOpVersion)
  if x.held ∨ x.key = k then d
  else
    let own : Bool := decide (t.addr = d.own)
    let d := d.setNode t.addr { x with key := k, grant := listGet 0 k 2, due := !own }
    if own then d.takeGrant d.pack.budgetSeq k else d

/-- The master knows enough for a budget: every roster node has answered it, or it is in its third cycle, in which its first grants are due (R165). -/
def Dev.budgetDue (d : Dev) : Bool := d.isMaster ∧ (3 ≤ d.pack.cycles ∨ d.rosterNodes.all fun n => (d.node n).seen)

/-- BUDGET_COMPUTE (R165, R168, R169): the master divides the bank among the nodes it has heard. [DEDUCED, log 63; DEDUCED, log 64] -/
def Dev.budget (d : Dev) : Dev :=
  if ¬ d.budgetDue then d
  else
    let (vf, surplus, l) := d.budgetPlan
    let d := d.setPack { d.pack with budgetValid := true, vFloor := min 65535 vf, effP := d.g oEfficiency, capUsed := min (2 ^ 32 - 1) d.capUsed }
    let d := d.s oPackSurplus (min (2 ^ 32 - 1) (surplus.toNat / 1000))
    let new := l.any fun t => !(d.node t.addr).held && (d.node t.addr).key != t.key (d.g oOpVersion)
    let d := if new then d.setPack { d.pack with budgetSeq := (d.pack.budgetSeq + 1) % 65536 } else d
    let d := l.foldl Dev.dueGrant d
    if l.any fun t => !t.ok then (if d.faults.live.testBit 29 then d else d.faultLive 29) else d.unlive 29

/-- A STATUS payload of node `n` is taken in: the node joins the roster (R160), and a changed field or roster recomputes the budget (R168). [DEDUCED, log 64] -/
def Dev.takeStatus (d : Dev) (n : Nat) (p : List Byte) : Dev :=
  let x := d.node n
  let joins := ¬ bit (d.g oRoster) n
  let y := ({ x with polled := none, missed := 0 } : Node).report p
  let y := if joins ∨ ¬ x.seen then { y with held := (joins && d.pack.packVault && decide (n ≠ d.own)) } else y
  let d := d.setNode n y
  let d := if joins then (d.setPack { d.pack with absents := d.pack.absents.filter (·.node ≠ n) }).setRoster (setBit (d.g oRoster) n true) else d
  if joins ∨ { y with polled := none, missed := 0 } ≠ ({ x with polled := none, missed := 0 } : Node) then d.budget else d

/-- OpVersion is the lowest MaxVersion in the roster (R167). A roster node that has not answered this master holds it at what it was. [DEDUCED, log 63] -/
def Dev.setOpVersion (d : Dev) : Dev :=
  let l := d.rosterNodes.map d.node
  let top := if (l.all (·.seen)) ∨ d.g oOpVersion = 0 then d.g oMaxVersion else min (d.g oMaxVersion) (d.g oOpVersion)
  let v := (l.filter (·.seen)).foldl (fun m x => min m x.maxVersion) top
  if v = d.g oOpVersion then d else (d.s oOpVersion v).budget

/-- WaveDone (Table 7.4): the highest wave whose every member has left VAULT and SEAL. [DEDUCED, log 66] -/
def Dev.waveDone (d : Dev) : Nat :=
  let t := (d.rosterNodes.map d.node).filter fun x => x.kind = 1 ∧ x.key ≠ [] ∧ listGet 0 x.key 0 ≠ 0xFF
  ((List.range 8).filter fun w => (t.any fun x => listGet 0 x.key 0 = w) && t.all fun x => !(listGet 0 x.key 0 == w) || x.left).foldl (fun _ w => w) 0xFF

/-- The BEACON payload (Table 7.4). -/
def Dev.beaconPayload (d : Dev) : List Byte :=
  let p := d.pack
  leBytes 1 (d.g oOpVersion) ++ leBytes 1 ((if d.aon.lshMstr then 1 else 0) + (if p.packVault then 2 else 0) + (if p.budgetValid then 4 else 0))
    ++ leBytes 2 (d.g oRoster) ++ leBytes 4 p.cycle ++ leBytes 2 p.budgetSeq ++ leBytes 1 p.waveDone ++ leBytes 1 0 ++ leBytes 2 p.vFloor ++ leBytes 2 p.effP
    ++ leBytes 4 p.capUsed ++ leBytes 4 (d.g oEsrMeasured) ++ leBytes 4 (if d.energy.cap.current then d.capAge else 0xFFFFFFFF) ++ leBytes 2 d.energy.vhold ++ leBytes 2 0

/-- The next address to probe after the last one: the addresses outside the roster in rotation (R160). -/
def Dev.nextProbe (d : Dev) : Option Nat :=
  ((List.range 16).map fun k => (d.pack.probe + 1 + k) % 16).find? fun n => ¬ bit (d.g oRoster) n

/-- Polls node `n`. -/
def Dev.poll (d : Dev) (n : Nat) : Dev := (d.setNode n { d.node n with polled := some (d.pack.seq % 256) }).sendFrame 2 n []

/-- Sends the SLOT_CMD of a request (Table 7.9). -/
def Dev.sendSlot (d : Dev) (r : SlotReq) : Dev :=
  d.sendFrame 5 (8 + r.slot / 16) (leBytes 1 (r.slot % 16) ++ leBytes 1 r.action ++ leBytes 2 r.token)

/-- One slot command in the WINDOW (R172): a command other than a waiting ON is sent, or sent again in each of the next 3 cycles; then its slot reads FAULT.
`t` is the time left, in 0.1 µs. [DESIGN CHOICE, log 65] -/
def Dev.windowSlot (x : Dev × Nat × List SlotReq) (r : SlotReq) : Dev × Nat × List SlotReq :=
  let (d, t, l) := x
  if r.sends = 0 ∧ r.action = 1 then (d, t, l ++ [r])
  else if 4 ≤ r.sends then (d.setPack { d.pack with slotBad := setBit d.pack.slotBad r.slot true }, t, l)
  else if t < 304 then (d, t, l ++ [r])
  else
    let tok := if r.sends = 0 then (d.pack.token + 1) % 65536 else r.token
    let d := if r.sends = 0 then d.setPack { d.pack with token := tok } else d
    let r := { r with sends := r.sends + 1, token := tok }
    (d.sendSlot r, t - 304, l ++ [r])

/-- One GRANT in the WINDOW (R160, R169). [DESIGN CHOICE, log 65] -/
def Dev.windowGrant (x : Dev × Nat) (n : Nat) : Dev × Nat :=
  let (d, t) := x
  if ¬ (d.node n).due ∨ t < 312 then (d, t)
  else ((d.setNode n { d.node n with due := false }).sendFrame 4 n (grantBytes d.pack.budgetSeq (d.node n).key), t - 312)

/-- RESET frames in the WINDOW (R175). [DESIGN CHOICE, log 65] -/
def Dev.windowReset : Nat → Nat → Dev → Dev × Nat
  | 0, t, d => (d, t)
  | k + 1, t, d =>
    match d.pack.resets with
    | [] => (d, t)
    | n :: r =>
      if t < 152 then (d, t)
      else
        let tok := (d.pack.token + 1) % 65536
        ((d.setPack { d.pack with resets := r, token := tok }).sendFrame 7 n (leBytes 1 1 ++ leBytes 1 0 ++ leBytes 2 tok)).windowReset k (t - 152)

/-- One DICT_REQ of a forwarded message in the WINDOW (R175): its next fragment, or an empty one that pulls the response. [DESIGN CHOICE, log 65] -/
def Dev.windowDict (d : Dev) (t : Nat) : Dev :=
  match d.pack.fwd with
  | [] => d
  | x :: r =>
    if t < 1264 then d
    else if x.lastTick.isSome then
      d.sendFrame 8 x.node (leBytes 1 x.msgId ++ leBytes 1 0)
    else
      let part := (x.req.drop x.sent).take 62
      let last : Bool := decide (x.req.length ≤ x.sent + 62)
      let y := { x with sent := x.sent + part.length, frag := x.frag + 1, lastTick := if last then some d.now else none }
      (d.setPack { d.pack with fwd := y :: r }).sendFrame 8 x.node (leBytes 1 x.msgId ++ leBytes 1 (x.frag % 128 + if last then 128 else 0) ++ part)

/-- The budget at the start of a cycle (R165, R168, R176): every 100 ms, when there is none yet, and when PackVault has cleared for nodes that joined while it
was set. [DEDUCED, log 63] -/
def Dev.cycleBudget (d : Dev) (busy : Bool) : Dev :=
  let freed := ¬ busy ∧ d.rosterNodes.any fun n => (d.node n).held
  let d := if busy then d else d.rosterNodes.foldl (fun d n => d.setNode n { d.node n with left := false, held := false }) (d.setPack { d.pack with packVault := false })
  if freed ∨ ¬ d.pack.budgetValid ∨ d.pack.cycle % 100 = 0 then d.budget else d

/-- LEASH_CYCLE (R160, R161, R167): the master's cycle, with the WINDOW in the time that BEACON and POLLS leave. [DESIGN CHOICE, log 65] -/
def Dev.leashCycle (d : Dev) : Dev :=
  if ¬ d.isMaster then d
  else
    let d := d.setPack { d.pack with cycles := d.pack.cycles + 1 }
    let d := (d.takeStatus d.own d.statusPayload).spent
    let d := d.setOpVersion
    let busy := d.packBusy
    let d := d.cycleBudget busy
    let d := d.setPack { d.pack with packVault := busy, waveDone := d.waveDone, cycle := (d.pack.cycle + 1) % 2 ^ 32, beaconTick := some d.now, capUsed := min (2 ^ 32 - 1) d.capUsed }
    let d := d.sendFrame 1 0xFF d.beaconPayload
    let ns := d.rosterNodes.filter (· ≠ d.own)
    let d := ns.foldl Dev.poll d
    let (d, polls) := match d.nextProbe with
      | some n => ((d.setPack { d.pack with probe := n }).poll n, ns.length + 1)
      | none => (d, ns.length)
    let left := 10000 - (376 + 496 * polls)
    let (d, left, l) := d.pack.slotReqs.foldl Dev.windowSlot (d, left, [])
    let d := d.setPack { d.pack with slotReqs := l }
    let (d, left) := (List.range 8).foldl Dev.windowGrant (d, left)
    let (d, left) := d.windowReset d.pack.resets.length left
    d.windowDict left

/-- What stays reserved for Thozu `n` when it leaves (R168, R176): its last grant. A master that took over and has not granted it anything does not know the grant its
predecessor gave, a value the spec gives it no way to learn, and it is free. [DESIGN CHOICE, log 88] -/
def Dev.lastGrant (d : Dev) (n : Nat) : Nat := if d.pack.heir ∧ (d.node n).key = [] then (Config.lastGrant d.free).toNat else (d.node n).grant

/-- POLL_MISSED (R160): no reply of node `n` starts within 10 µs; after 3 in a row it leaves, and a Thozu's last grant stays reserved (R176). -/
def Dev.pollMissed (d : Dev) (n : Nat) : Dev :=
  let x := d.node n
  if ¬ d.isMaster ∨ x.polled.isNone then d
  else
    let d := d.setNode n { x with polled := none, missed := x.missed + 1 }
    if ¬ bit (d.g oRoster) n ∨ x.missed + 1 < 3 then d
    else
      let grant := d.lastGrant n
      let d := (d.setRoster (setBit (d.g oRoster) n false)).setNode n {}
      let d : Dev := if n < 8 then { (d.setPack { d.pack with absents := d.pack.absents ++ [{ node := n, grant := grant, since := d.now }] }) with free := d.free + 1 } else d
      d.budget

/-- STATUS (R160): a reply to the POLL that is outstanding. [DEDUCED, log 63] -/
def Dev.rxStatus (d : Dev) (f : List Byte) : Dev :=
  d.onFrame 3 f false fun d =>
    let n := frameAtByte f 3
    let kind := framePay f 1 1
    if ¬ d.isMaster ∨ 15 < n ∨ (d.node n).polled ≠ some (frameAtByte f 4) then d
    else if kind ≠ (if n < 8 then 1 else 2) then d.inc oLeashErrors
    else d.takeStatus n ((f.drop 6).take 32)

/-- POLL (R159, R162, R167): this Thozu answers, under the version and Seq of the frame it answers. -/
def Dev.rxPoll (d : Dev) (f : List Byte) : Dev :=
  d.onFrame 2 f false fun d =>
    let b := frameAtByte f
    (d.emit .leash [3, b 3, b 4] (frameBytes (b 0) 3 (b 3) d.own (b 4) d.statusPayload)).spent

/-- The master answers a forwarded request itself, unprotected, with status `st` (R365, R370). -/
def Dev.forwardFail (d : Dev) (x : Forward) (st : Nat) : Dev :=
  let b := frameAtByte x.req
  let id := b 6 + 256 * b 7
  d.emit .response [x.transport, x.eid, b 1, st, b 4, id, x.mtag] (msgBytes (b 1) st false (b 4) id 0 (leBytes 4 0xFFFF))

/-- A BEACON of another master is taken (R161, R164): this Thozu is a member. -/
def Dev.takeBeacon (d : Dev) (f : List Byte) : Dev :=
  let src := frameAtByte f 3
  let p := framePay f
  let was := d.isMaster
  let d := if was ∧ 2 ≤ d.energy.cap.step then d.capAbandon false else if was then d.setCap { d.energy.cap with step := 0, predicted := false } else d
  let d := if was then d.s oPackSurplus 0 else d
  let d := if was then (d.pack.fwd.foldl (Dev.forwardFail · · 0x0C) d).setPack { d.pack with fwd := [] } else d
  let d := if was then (d.setPack { d.pack with nodes := [], slotReqs := [], resets := [], absents := [], budgetValid := false }).unlive 29 else d
  let d := if was then { d with energy := { d.energy with charging := false } } else d
  let d := ((((d.s oPackRole 2).setMaster src).setRoster (p 2 2)).s oOpVersion (p 0 1))
  let d := d.setPack { d.pack with beaconTick := some d.now, cycle := p 4 4, budgetSeq := p 8 2, waveDone := p 10 1, packVault := bit (p 1 1) 1, vFloor := p 12 2, effP := p 14 2, capUsed := p 16 4, esr := p 20 4, capAge := p 24 4 }
  d.recompute

/-- BEACON (R161, R164): a master yields only to a lower address. -/
def Dev.rxBeacon (d : Dev) (f : List Byte) : Dev :=
  d.onFrame 1 f true fun d =>
    let src := frameAtByte f 3
    if 7 < src ∨ src = d.own ∨ (d.isMaster ∧ d.own < src) then d else d.takeBeacon f

/-- GRANT (R166, R170): a newer BudgetSeq of the current master. -/
def Dev.rxGrant (d : Dev) (f : List Byte) : Dev :=
  d.onFrame 4 f false fun d =>
    let p := framePay f
    let step := (p 0 2 + 65536 - d.g oGrantSeq) % 65536
    if frameAtByte f 3 ≠ d.g oMasterAddress ∨ d.isMaster ∨ (d.pack.hasGrant ∧ ¬ (0 < step ∧ step < 32768)) then d
    else d.takeGrant (p 0 2) [p 2 1, p 3 1, p 4 4, p 8 4, p 12 2, p 16 4]

/-- GRANT_EXPIRE (R166): outside FREEZE to the end of WAKE the grant becomes 0. [DEDUCED, log 66] -/
def Dev.grantExpire (d : Dev) : Dev :=
  if ¬ d.pack.hasGrant ∨ d.isMaster ∨ d.inVault ∨ d.vst = 0x0A then d
  else
    let d := (((d.s oGrantEnergy 0).s oGrantCap 0).s oGrantPower 0).s oGrantOffset 0
    (d.setPack { d.pack with hasGrant := false, grantWave := 0xFF }).recompute

/-- MASTERSHIP_TAKEOVER (R164, R165): no BEACON has come for this Thozu's timeout. [DEDUCED, log 63] -/
def Dev.takeover (d : Dev) : Dev :=
  if ¬ d.aon.lshEn ∨ d.isMaster then d
  else
    let first := d.g oPackRole = 0
    let p := d.pack
    let d := d.setPack { p with nodes := [], slotReqs := [], resets := [], budgetValid := false, waveDone := 0xFF, cycles := 0, heir := !first }
    let d := ((d.s oPackRole 1).setMaster d.own).setRoster (setBit (d.g oRoster) d.own true)
    let d := if first ∧ d.g oOpVersion = 0 then d.s oOpVersion (d.g oMaxVersion) else d
    let d := if first then d
      else
        let known : Bool := decide (p.capAge ≠ 0xFFFFFFFF)
        let d := d.s oEsrMeasured p.esr
        d.setCap { d.energy.cap with adopted := some p.capUsed, tested := known, current := known, ageBase := p.capAge, doneTick := d.now }
    d.recompute

/-- ABSENT_HOLD_EXPIRE (R168, R176). -/
def Dev.absentExpire (d : Dev) (n : Nat) : Dev :=
  if d.pack.absents.any (·.node = n) then (d.setPack { d.pack with absents := d.pack.absents.filter (·.node ≠ n) }).budget else d

/-- WAVE_START (R170). [DEDUCED, log 66] -/
def Dev.waveStart (d : Dev) : Dev := if d.granted ∧ d.pack.hasGrant ∧ 0 < d.pack.grantWave then d.vaultBegin else d

/-- What has been drawn from the slot bucket and not yet refilled, in µC (R172). -/
def Dev.slotDrawn (d : Dev) : Nat := d.pack.bucketUsed - (d.now - d.pack.bucketTick) * d.g oSlotBucketRefill

/-- The ON request that goes next (R172): demand first, then arrival. -/
def Dev.slotNext (d : Dev) : Option SlotReq :=
  let l := d.pack.slotReqs.filter fun r => r.action = 1 ∧ r.sends = 0
  match l.find? (·.demand) with
  | some r => some r
  | none => l.head?

/-- Replaces the first element equal to `a`. -/
def listSwap {V : Type} [DecidableEq V] (a b : V) : List V → List V
  | [] => []
  | x :: r => if x = a then b :: r else x :: listSwap a b r

/-- SLOT_CMD_SEND (R172). -/
def Dev.slotSend (d : Dev) : Dev :=
  match (if d.isMaster then d.slotNext else none) with
  | none => d
  | some r =>
    let c := d.gb oSlotInrush r.slot * 1000
    if d.g oSlotBucketCapacity * 1000 < d.slotDrawn + c then d
    else
      let tok := (d.pack.token + 1) % 65536
      let y := { r with token := tok, sends := 1 }
      let d := d.setPack { d.pack with bucketUsed := d.slotDrawn + c, bucketTick := d.now, token := tok, slotReqs := listSwap r y d.pack.slotReqs }
      d.sendSlot y

/-- SLOT_ACK (R172, R173): the answer to a command that was sent. -/
def Dev.rxSlotAck (d : Dev) (f : List Byte) : Dev :=
  d.onFrame 6 f false fun d =>
    let n := frameAtByte f 3
    let i := framePay f 0 1
    match (if d.isMaster ∧ 8 ≤ n ∧ i < 16 then d.pack.slotReqs.find? fun r => r.sends ≠ 0 ∧ r.slot = 16 * (n - 8) + i ∧ r.token = framePay f 2 2 else none) with
    | none => d
    | some r =>
      let res := framePay f 1 1
      let x := d.node n
      let x := match res with
        | 0 => (match r.action with
          | 1 => { x with slotOn := setBit x.slotOn i true }
          | 2 => { x with slotOn := setBit x.slotOn i false }
          | _ => { x with slotFault := setBit x.slotFault i false })
        | 1 => { x with slotPresent := setBit x.slotPresent i false }
        | 2 => { x with slotFault := setBit x.slotFault i true }
        | _ => x
      (d.setNode n x).setPack { d.pack with nodes := storeSet noNode d.pack.nodes n x, slotReqs := d.pack.slotReqs.erase r, slotBad := setBit d.pack.slotBad r.slot false }

/-- LEASH_RESET (R175): Kind 0x01 from the current master. -/
def Dev.rxReset (d : Dev) (f : List Byte) : Dev :=
  d.onFrame 7 f false fun d => if frameAtByte f 3 = d.g oMasterAddress ∧ framePay f 0 1 = 1 then d.packReset else d

/-- A value written to PackResetMember (R175): the master sends RESET, or resets itself. [DEDUCED, log 66] -/
def Dev.fxPackReset (d : Dev) (v : Nat) : Reply :=
  if ¬ d.isMaster then conflict d uChip
  else if 7 < v then badValue d uChip
  else if v = d.own then okR d.packReset
  else okR (d.setPack { d.pack with resets := d.pack.resets ++ [v] })

end Sys2Proof.Machine
end

