-- ==== Sys2Proof/Machine/VolTable.lean ====
section
/-! DEFINITION. Writes of the volume table (R35, R36): the constraints of Table 2.1, creation, changes and deletion. -/
namespace Sys2Proof.Machine

/-- A descriptor with the bytes that are read-only taken from `cur`: VolumeId, VolumeState and every MemberState (R36). [DEDUCED, log 44] -/
def volMerge (cur e : BitVec 16384) : BitVec 16384 :=
  let e := setEnt (setEnt e 0 2 (ent cur 0 2)) 0x12 1 (vState cur)
  (List.range 64).foldl (fun e i => setEnt e (0x41 + 16 * i) 1 (xState cur i)) e

/-- A descriptor with its read-only bytes 0. -/
def volBare (e : BitVec 16384) : BitVec 16384 := volMerge 0 e

/-- Members, DataStrips, ParityStrips, StripShift and CapacityBlocks fit the layout (Table 2.1). -/
def volShapeOk (e : BitVec 16384) : Bool :=
  let n := vMembers e
  let k := vK e
  let p := vP e
  let whole : Bool := decide (vShift e ≤ 8) && decide (0 < vCap e) && vCap e % (k * 2 ^ vShift e) == 0
  match vLayout e with
  | 1 => decide (1 ≤ n ∧ n ≤ 64) && k == n && p == 0 && whole
  | 2 => decide (2 ≤ n ∧ n ≤ 3) && k == 1 && p == 0 && decide (0 < vCap e)
  | 3 => decide (2 ≤ k ∧ k ≤ 16) && decide (1 ≤ p ∧ p ≤ 4) && n == k + p && whole
  | _ => false

/-- Every extent in use names a present port and has reserved bytes 0; every other entry is 0. -/
def Dev.extentsOk (d : Dev) (e : BitVec 16384) : Bool :=
  (List.range 64).all fun i =>
    if i < vMembers e then decide (xPort e i < 64) && d.present (uPort (xPort e i)) && ent e (0x42 + 16 * i) 2 == 0
    else ent (volBare e) (0x40 + 16 * i) 16 == 0

/-- A used descriptor meets Table 2.1. -/
def Dev.volOk (d : Dev) (e : BitVec 16384) : Bool :=
  volShapeOk e && decide (vPrio e ≤ 7) && decide (vOwner e ≤ 4095) && decide (vFlags e < 4) && ent e 0x14 44 == 0 && ent e 0x440 960 == 0 && d.extentsOk e

/-- The deletion of volume `v` is accepted (R36): no namespace is attached, and, unless it is FAILED, the cache holds no block of it. [DEDUCED, log 44] -/
def Dev.volDeletable (d : Dev) (v : Nat) : Bool :=
  (d.nsOfVol v).isEmpty && (vState (d.vol v) == 3 || !d.cache.versions.any fun x => x.vol == v)

/-- Deletes volume `v` (R36): its versions are dropped, a DESTAGING one once its drive writes have ended, and its lost ranges go. -/
def Dev.volDelete (d : Dev) (v : Nat) : Dev :=
  let l := d.cache.versions.filter fun x => x.vol = v ∧ x.st ≠ 3
  let d := l.foldl (fun d x => d.freeVer x.frame) d
  let d := d.setVers (mapIf (fun x => x.vol = v) (fun x => { x with dropping := true }) d.cache.versions)
  let d := d.setRestore { d.restore with lost := d.restore.lost.filter (·.vol ≠ v) }
  let d := { d with ports := { d.ports with rebuilds := d.ports.rebuilds.filter (·.vol ≠ v) } }
  d.setVol v (volDefault v)

/-- Creates volume `v`: a member is ACTIVE when a bound drive holds its extent, else MISSING (R37, R284). -/
def Dev.volCreate (d : Dev) (v : Nat) (e : BitVec 16384) : Dev :=
  let d := d.setVol v e
  (List.range (vMembers e)).foldl (fun d i => d.setMember v i (if (d.port (xPort e i)).state = 2 ∧ d.extentOk v i then 0 else 1)) (d.volUpdate v)

/-- One written descriptor (R36): the device with it, or none when it is refused. [DEDUCED, log 44] -/
def Dev.volWrite (d : Dev) (v : Nat) (e : BitVec 16384) : Option Dev :=
  let cur := d.vol v
  let e := volMerge cur e
  if vLayout e = 0 then
    if volBare e ≠ 0 then none
    else if vLayout cur = 0 then some d
    else if d.volDeletable v then some (d.volDelete v) else none
  else if vLayout cur = 0 then (if d.volOk (volBare e) then some (d.volCreate v (setEnt (volBare e) 0 2 v)) else none)
  else if setEnt (setEnt e 7 1 0) 0x13 1 0 = setEnt (setEnt cur 7 1 0) 0x13 1 0 ∧ vPrio e ≤ 7 ∧ vFlags e < 4 then some (d.setVol v e)
  else none

/-- A WRITE_BLOCK of VolumeTable (R36): whole descriptors, all accepted or none. [DEDUCED, log 44] -/
def Dev.fxVolumeTable (d : Dev) (off : Nat) (data : List Byte) : Reply :=
  match entriesOf 2048 off data with
  | none => badValue d uChip
  | some l =>
    match l.foldl (fun (o : Option Dev) p => o.bind fun d => if p.1 < 4096 then d.volWrite p.1 (BitVec.ofNat 16384 p.2) else none) (some d) with
    | some d => okR (d.rejudge.throughKick.readKick)
    | none => badValue d uChip

end Sys2Proof.Machine
end

