-- ==== Sys2Proof/Machine/ObjRules.lean ====
section
/-! DEFINITION. What a value written to an object must satisfy (R10, R360): its own fixed range, the rules that refer to other objects, and the apply
preconditions of its table; and what a COMMIT of it sets off. -/
namespace Sys2Proof.Machine

/-- The 16-bit fields of a value, from the lowest. -/
def halves (n v : Nat) : List Nat := (List.range n).map fun i => fieldOf v (2 * i) 2

/-- The bytes of a value, from the lowest. -/
def octets (n v : Nat) : List Nat := (List.range n).map (byteOf v)

/-- OperatingPoints (R332): used entries first, both fields strictly ascending, unused entries all zero. -/
def pointsOk (v : Nat) : Bool :=
  let l := (List.range 8).map fun i => (fieldOf v (4 * i) 2, fieldOf v (4 * i + 2) 2)
  let used := l.takeWhile fun p => p.1 ≠ 0 ∨ p.2 ≠ 0
  !used.isEmpty && (l.drop used.length).all (fun p => p.1 == 0 && p.2 == 0) && (used.zip (used.drop 1)).all (fun p => decide (p.1.1 < p.2.1 ∧ p.1.2 < p.2.2)) &&
    used.all fun p => decide (0 < p.1 ∧ 0 < p.2)

/-- DerateTable (R70): used entries in ascending temperature. [DEDUCED, log 68] -/
def derateOk (v : Nat) : Bool :=
  let l := ((List.range 8).map fun i => (signedOf 2 (fieldOf v (4 * i) 2), fieldOf v (4 * i + 2) 2)).filter fun e => e.2 ≠ 0
  (l.zip (l.drop 1)).all fun p => decide (p.1.1 < p.2.1)

/-- The fixed range of an object laid out by its table, and the steps and gaps of the others (R360). [DEDUCED, log 68] -/
def fixedRule (b v : Nat) : Bool :=
  if b = oGroupWidth then (octets 4 v).all fun x => [1, 2, 4, 8, 16].contains x
  else if b = oRefClockMode then (octets 4 v).all (· ≤ 2)
  else if b = oMaxSpeed then (octets 4 v).all fun x => decide (3 ≤ x ∧ x ≤ 6)
  else if b = oPortSlot then (halves 64 v).all fun x => decide (x ≤ 127) || x == 0xFFFF
  else if b = oSlotInrush then (octets 128 v).all (1 ≤ ·)
  else if b = oSupervisorIdle then v == 0 || decide (10 ≤ v ∧ v ≤ 60000)
  else if b = oMaxDramSpeed then [4800, 5600, 6400, 7200, 8000, 8800].contains v
  else if b = oPortLatencyTarget then (List.range 16).all fun i => let x := fieldOf v (4 * i) 4; decide (50 ≤ x ∧ x ≤ 100000)
  else if b = oDerateTable then derateOk v
  else if b = oBankTempInput then decide (v < 8) || v == 0xFF
  else if b = oSenseInputs then (octets 4 v).all fun x => decide (x < 8) || x == 0xFF
  else if b = oChargeVoltage then v == 0 || decide (12000 ≤ v ∧ v ≤ 36000)
  else if b = oMinRate then v % 10 == 0
  else if b = oPfailThreshold then v % 50 == 0
  else if b = oPfailFilter then v % 10 == 0
  else if b = oOperatingPoints then pointsOk v
  else if b = oHashMasks then fieldOf v 48 16 == 0
  else true

/-- The type and the range of a row (Table 16.1, R360). -/
def rowOk (r : ObjRow) (v : Nat) : Bool :=
  let s : Int := if r.typ = 6 ∨ r.typ = 7 ∨ r.typ = 13 ∨ r.typ = 14 then signedOf r.size v else v
  (if r.typ = 1 then decide (v ≤ 1) else true) && (match r.range with | some (lo, hi) => decide (lo ≤ s ∧ s ≤ hi) | none => true) && fixedRule r.oid v

/-- Parents of rail `r` as they are set. -/
def Dev.parentsSet (d : Dev) (r : Nat) : List Nat := (List.range 24).filter fun p => bit (d.gr oParents r) p

/-- Rails `l` with their ancestors as they are set, `n` steps up. -/
def Dev.upSet (d : Dev) : Nat → List Nat → List Nat
  | 0, l => l
  | n + 1, l => d.upSet n (l ++ (l.flatMap d.parentsSet).filter fun p => ¬ l.contains p).eraseDups

/-- Units whose wakes R352 bounds: those that SHED and the spill power off. -/
def Dev.shedUnits (d : Dev) : List Nat :=
  ((List.range 4).flatMap (fun q => upOrder (uQuad q)) ++ uHost :: upOrder uDown).filter fun u => hasDomain u && d.present u

/-- R352. -/
def Dev.inrushOk (d : Dev) : Bool :=
  let cap := d.g oInrushCapacity
  let us := (upOrder uChip).filter fun u => hasDomain u && d.present u
  us.all (fun u => decide (d.gu u oInrushCharge ≤ cap ∧ d.gu u oInrushChargeRet ≤ cap)) &&
    decide ((d.shedUnits.map fun u => d.gu u oInrushCharge).sum ≤ cap + 10 * d.g oInrushRefill)

/-- HashMasks are valid for every populated channel (R300). -/
def Dev.masksValid (d : Dev) (v : Nat) : Bool :=
  v == 0 || (List.range 8).all fun n => !(d.chan n).populated || (d.chan n).masksOk v

/-- The rules of R360 that refer to other objects or to the machine, with the value already in place in `d`: false is INVALID_VALUE. [DEDUCED, log 68] -/
def Dev.crossRule (d : Dev) (o : Nat) : Bool :=
  let (b, r) := baseOid o
  let k := d.gr oRailKind r
  if b = oFaultHigh then decide (d.sgr oWarnHigh r 2 ≤ d.sgr oFaultHigh r 2) && d.railMarginOk r (d.gr oNominal r) (d.sgr oMarginStep r 1) (d.sgr oFaultHigh r 2)
  else if b = oWarnHigh then decide (d.sgr oWarnHigh r 2 ≤ d.sgr oFaultHigh r 2)
  else if b = oFaultLow ∨ b = oWarnLow then decide (d.sgr oFaultLow r 2 ≤ d.sgr oWarnLow r 2)
  else if b = oNominal then d.railMarginOk r (d.gr oNominal r) (d.sgr oMarginStep r 1) (d.sgr oFaultHigh r 2)
  else if b = oOperatingPoints then (List.range 4).all fun r => d.railMarginOk r 0 (d.sgr oMarginStep r 1) (d.sgr oFaultHigh r 2)
  else if b = oFlags then k != 3 || decide (d.gr oFlags r ≤ 1)
  else if b = oParents then (d.parentsSet r).all (fun p => bit (d.gr oFlags p) 0) && !(d.upSet 24 (d.parentsSet r)).contains r
  else if b = oInrushCharge ∨ b = oInrushChargeRet ∨ b = oInrushCapacity ∨ b = oInrushRefill then d.inrushOk
  else if b = oPVaultFloor ∨ b = oPVaultDefault then decide (d.g oPVaultFloor ≤ d.g oPVaultDefault)
  else if b = oDestageLowWater ∨ b = oDestageHighWater then decide (d.g oDestageLowWater ≤ d.g oDestageHighWater)
  else if b = oHashMasks then d.masksValid (d.g oHashMasks)
  else if b = oSourceClass then (List.range 1024).all fun s => if classFixed s then d.classOf s == classDefault s else decide (s < 670) || d.classOf s == 0
  else true

/-- The apply preconditions of an object's table against the present machine: false is STATE_CONFLICT. [DEDUCED, log 68] -/
def Dev.precond (d : Dev) (o v : Nat) : Bool :=
  let (b, _) := baseOid o
  if b = oRailKind ∨ b = oBusAddress ∨ b = oNominal ∨ b = oParents ∨ b = oFlags then d.sup ≠ 1 ∧ d.sup ≠ 4
  else if b = oGroupWidth then
    d.volNos.all fun x => (List.range (vMembers (d.vol x))).all fun i => (portsOfWidths v).testBit (xPort (d.vol x) i)
  else if b = oCacheSizeLimit then v = d.g oCacheSizeLimit ∨ d.dirtyTotal = 0
  else if 0xF00000 ≤ b ∧ b < 0xF00A00 then d.aon.testMode && !d.fuse.locked &&
    (if b = oAdcTrim then decide (d.fuse.adcTrim.length < 4) else if b = oPfailTrim then decide (d.fuse.pfailTrim.length < 4)
     else if b = oMonclkTrim then decide (d.fuse.monclkTrim.length < 4) else true)
  else if 0xF01000 ≤ b then d.aon.testMode
  else true

/-- The Nominal of an AVSBus rail is read-only (Table 14.2). -/
def Dev.readOnly (d : Dev) (o : Nat) : Bool := (baseOid o).1 == oNominal && d.gr oRailKind (baseOid o).2 == 2

/-- CacheModeRequested has changed (R48). [DEDUCED, log 68] -/
def Dev.modeCommit (d : Dev) : Dev :=
  let v := d.g oCacheModeRequested
  let d := if v = 0 then d.setVers (d.cache.versions.map fun x => { x with copy := none }) else d
  ((d.wtCause 0 (v == 2)).mirrorCheck).rejudge.throughKick

/-- What a COMMIT of an object sets off at once. -/
def Dev.commitEffect (d : Dev) (o : Nat) : Dev :=
  if o = oCacheModeRequested then d.modeCommit
  else if o = oCacheSizeLimit then d.trimPools.recompute.rejudge
  else if o = oChargeVoltage ∨ o = oChargeCurrent ∨ o = oChargerAddress then
    let d : Dev := if o = oChargerAddress then { d with energy := { d.energy with scaled := false } } else d
    (if d.inVault ∨ 2 ≤ d.energy.cap.step then d else if d.chargeWanted then d.chargeStart else d.charger 0x00).recompute
  else if 0x580800 ≤ o ∧ o < 0x581900 then d.recompute
  else d

end Sys2Proof.Machine
end

