-- ==== Sys2Proof/Machine/ObjRead.lean ====
section
/-! DEFINITION. Reads of the dictionary (R20 to R22, R25, R361, R362, R411) and the HEEL summary (R378). -/
namespace Sys2Proof.Machine

/-- A row's location code covers unit `u` itself, or descendants of a group (R362). [DEDUCED, log 67] -/
def Dev.holds (d : Dev) (r : ObjRow) (u : Nat) : Bool :=
  locAt r.loc u || (isGroup u && (upOrder u).any fun x => d.present x && locAt r.loc x)

/-- `n` zero bytes. -/
def zeros (n : Nat) : List Byte := List.replicate n 0

/-- Bits of a predicate over 0 to n − 1. -/
def maskOf (n : Nat) (p : Nat → Bool) : Nat := ((List.range n).filter p).foldl (fun m i => m + 2 ^ i) 0

/-- LockoutState (R375): Fails, Run and RemainingS of OPERATOR, MANAGER and FACTORY. -/
def Dev.lockState (d : Dev) : List Byte :=
  [1, 2, 3].flatMap fun r => let l := storeGet noLockout d.sess.lock r
    leBytes 1 l.fails ++ leBytes 1 l.run ++ leBytes 2 (min 65535 ((l.until_ - d.now + 999999) / 1000000))

/-- A capture as CaptureTable gives it (Table 18.4); of a source never raised, all 0. -/
def Dev.captureBytes (d : Dev) (s : Nat) : List Byte :=
  let c := d.capture s
  if c.count = 0 then zeros 64
  else
    let f := (if d.faults.live.testBit s then 1 else 0) + (if c.latched then 2 else 0) + (if c.inj then 4 else 0) + (if c.esc then 8 else 0) + (if c.count = 65535 then 16 else 0)
    let b := leBytes 2 s ++ leBytes 1 c.cls ++ leBytes 1 c.eff ++ leBytes 1 f ++ leBytes 1 c.acc ++ leBytes 2 (homeUnit s) ++ leBytes 2 c.iUnit ++ leBytes 2 c.iInst
      ++ leBytes 2 c.count ++ leBytes 2 0 ++ leBytes 8 c.addr ++ leBytes 8 c.tag ++ leBytes 8 c.tick ++ leBytes 8 c.last ++ leBytes 6 c.seq ++ leBytes 6 0
    b ++ leBytes 4 (crc32c b)

/-- Identity, unit description, sessions, power and domains: objects whose value is computed. [DESIGN CHOICE, log 4] -/
def Dev.valA (d : Dev) (u o : Nat) : Option Nat :=
  let f := d.fuse
  if o = oPartNumber then some (f.partNumber.getD 0)
  else if o = oDeviceSerial then some (f.serial.getD 0)
  else if o = oPciVendorId then some (f.vendorId.getD 0)
  else if o = oPciDeviceId then some (f.deviceId.getD 0)
  else if o = oEndpointUuid then some (f.uuid.getD 0)
  else if o = oOperatorKey ∨ o = oManagerKey ∨ o = oFactoryKey ∨ o = oFuseProgram ∨ o = oKeySlotLoad ∨ o = oTimeAnchor ∨ o = oInjectFault then some 0
  else if o = oFuseLock then some (if f.locked then 1 else 0)
  else if o = oFuseFieldState then
    some (maskOf 6 fun i => (listGet none [f.serial, f.uuid, f.factoryKey, f.vendorId, f.deviceId, f.partNumber] i).isSome)
  else if o = oAdcTrim then some (f.adcTrim.getLast?.getD 0)
  else if o = oPfailTrim then some (f.pfailTrim.getLast?.getD 0)
  else if o = oMonclkTrim then some (f.monclkTrim.getLast?.getD 0)
  else if o = oChildCount then some (d.kids u).length
  else if o = oChildPresent then some (maskOf 64 fun i => (upIdx u).contains i && d.present (childOf u i))
  else if o = oFaultStatus then some (d.faultStatus u)
  else if o = oSessionCount then some ((List.range 16).filter fun i => (d.session i).state = 2).length
  else if o = oLockoutState then some (leNat d.lockState)
  else if o = oInrushLevel then some (d.refill.doms.level / 1000)
  else if o = oPadHeld then some (if d.doms.padHeld.contains u then 1 else 0)
  else if o = oDomainState then some (d.domainState u)
  else if 0x204002 ≤ o ∧ o < 0x205800 ∧ 2 ≤ o % 0x100 then some (min 65535 ((List.range 24).map fun r => d.gr (0x204000 + o % 0x100) r).sum)
  else none

/-- DRAM, cache, energy, Kennel and restore: objects whose value is computed. -/
def Dev.valB (d : Dev) (u o : Nat) : Option Nat :=
  if o = oDramCapacity then some (d.chansIn.map fun n => (d.chan n).cap).sum
  else if o = oChannelsInService then some (maskOf 8 d.inService)
  else if o = oChannelState then some (d.chan (u - 0x2380)).st
  else if o = oCacheCapacity then some d.cacheCapacity
  else if o = oDirtyBlocks then some ((d.cache.versions.filter fun v => v.dirty && uSlice (d.sliceOf v.vol v.blk) == u).map d.dirtyWeight).sum
  else if o = oEffectiveCeiling then some d.deff
  else if o = oPoisonedBlocks then some (d.cache.versions.filter fun v => v.poison && uSlice (d.sliceOf v.vol v.blk) == u).length
  else if o = oCapTestAge then some d.capAge
  else if o = oKennelState then some d.kennelState
  else if o = oUsableLuns then some d.usableLuns
  else if o = oSlotStateA then some (slotState d.kennel.a)
  else if o = oSlotStateB then some (slotState d.kennel.b)
  else if o = oSlotRows then some d.slotRows
  else if o = oFailedLuns then some d.failedLuns
  else if o = oLostRangeCount then some d.restore.lost.length
  else if o = oLostBlocks then some (min (2 ^ 32 - 1) d.lostBlocks)
  else if o = oPortTable then some (leNat ((List.range 64).flatMap d.portEntry))
  else none

/-- Engines, faults, events, the Pack and clocks: objects whose value is computed. -/
def Dev.valC (d : Dev) (sid u o : Nat) : Option Nat :=
  if o = oSlotsBusy then some (d.busySlots (· = u)).length
  else if o = oDmaSuspended then some ((d.busyChans (· = u)).filter fun i => (d.ch i).desc.any fun x => x.status = stSuspFault).length
  else if o = oKeySlotOwners then some (leNat (d.keyOwners u))
  else if o = oLiveBits then some d.faults.live
  else if o = oLatchedBits then some (d.faults.caps.foldl (fun m p => if p.2.latched then m + 2 ^ p.1 else m) 0)
  else if o = oLatchedCount then some (d.faults.caps.filter fun p => p.2.latched).length
  else if o = oRingUnflushed then some d.unflushedCount
  else if o = oLogRetainedPages then some d.logRetained
  else if o = oEventCursor then some (d.cursor sid)
  else if o = oEventRecords then some (leNat (d.eventWindow sid))
  else if o = oPackResetMember ∧ d.g oPackRole = 2 then some 0
  else if o = oSlotState then some (leNat ((List.range 128).map fun s => BitVec.ofNat 8 (d.packSlotState s)))
  else if o = oClockState then some (leNat ((List.range 22).map fun i => BitVec.ofNat 8 (d.clockState i)))
  else if o = oClockFrequency then some (leNat ((List.range 22).flatMap fun i => leBytes 4 (d.clockFreq i)))
  else none

/-- Value of object `o` at unit `u` itself, as requester `sid` reads it. -/
def Dev.valAt (d : Dev) (sid u o : Nat) : Nat :=
  match d.valA u o with
  | some v => v
  | none => match d.valB u o with
    | some v => v
    | none => (d.valC sid u o).getD (d.gu u o)

/-- What unit `x` contributes to a group's counter `o` (R21): while it is RET or OFF what it held when it last left ON; the blocks of a slice's buckets, which
other slices then own (R60), are counted as they are. [DEDUCED, log 67] -/
def Dev.contributes (d : Dev) (sid u o x : Nat) : Nat :=
  if x ≠ u ∧ d.readsHeld x ∧ o ≠ oDirtyBlocks ∧ o ≠ oPoisonedBlocks then d.heldVal x o else d.valAt sid x o

/-- Value read at unit `u`, and the device with a free value taken when the spec states none: a counter of a group is the sum over the units
that hold it, saturating (R20, R21); any other object that a group does not itself hold has no stated value there. [DEDUCED, log 67] -/
def Dev.readVal (d : Dev) (r : ObjRow) (sid u o : Nat) : Nat × Dev :=
  if r.counter ∧ isGroup u then
    (min (256 ^ r.size - 1) (((upOrder u).filter fun x => d.present x && locAt r.loc x).map (d.contributes sid u o)).sum, d)
  else if locAt r.loc u then (d.valAt sid u o % 256 ^ r.size, d)
  else let (k, d) := d.fresh
       (Config.groupValue k % 256 ^ r.size, d)

/-- Bytes `off` to `off + len − 1` of a table of `w`-byte entries. -/
def tableBytes (w : Nat) (entry : Nat → Nat) (off len : Nat) : List Byte :=
  (List.range len).map fun i => BitVec.ofNat 8 (byteOf (entry ((off + i) / w)) ((off + i) % w))

/-- Bytes of the tables that READ_BLOCK alone serves; FirmwareImage reads 0. -/
def Dev.bigBytes (d : Dev) (o off len : Nat) : Option (List Byte) :=
  if o = oVolumeTable then some (tableBytes 2048 (fun i => (d.vol i).toNat) off len)
  else if o = oInstanceTable then some (tableBytes 64 (fun i => (d.instEntryRead i).toNat) off len)
  else if o = oNamespaceTable then some (tableBytes 16 (fun i => (d.nsEntry i).toNat) off len)
  else if o = oQueueTable then some (tableBytes 64 (fun i => (d.q i).toNat) off len)
  else if o = oCaptureTable then some (tableBytes 64 (fun i => leNat (d.captureBytes i)) off len)
  else if o = oLostRangeList then
    let zero : LostRange := { vol := 0, kind := 0, count := 0, start := 0 }
    let x := listGet zero d.restore.lost
    some (tableBytes 16 (fun i => (x i).vol + (x i).kind * 2 ^ 16 + (x i).count * 2 ^ 32 + (x i).start * 2 ^ 64) off len)
  else if o = oFirmwareImage then some (zeros len)
  else none

/-- One used entry of Domains in HEEL. -/
def Dev.heelDomains (d : Dev) : List Byte :=
  let us := (List.range 0x2700).filter fun u => decide (0x1000 ≤ u) && hasDomain u && d.present u
  (us.flatMap fun u => leBytes 2 u ++ leBytes 1 (d.domainState u) ++ leBytes 1 (d.faultStatus u)) ++ (List.replicate (256 - us.length) (leBytes 2 0xFFFF ++ leBytes 2 0)).flatten

/-- One session's entry in HEEL. -/
def Dev.heelSession (d : Dev) (i : Nat) : List Byte :=
  let s := d.session i
  if s.state = 0 then zeros 32
  else leBytes 1 s.role ++ leBytes 1 s.transport ++ leBytes 1 s.state ++ leBytes 1 s.eid ++ leBytes 1 s.staged.length ++ leBytes 1 0
    ++ leBytes 2 (s.staged.map (·.len)).sum ++ leBytes 6 s.lastCounter ++ leBytes 2 0 ++ leBytes 8 s.openTick
    ++ leBytes 4 (min (2 ^ 32 - 1) ((d.now - s.lastTick) / 1000)) ++ leBytes 4 0

/-- The 13 bytes of Table 16.5 from Member to Subindex, and Length, of a staged entry. -/
def stagedBytes (sid : Nat) (e : Staged) : List Byte :=
  leBytes 1 sid ++ leBytes 1 e.member ++ leBytes 1 e.path.length ++ e.path.map (BitVec.ofNat 8 ·) ++ zeros (8 - e.path.length)
    ++ leBytes 2 (e.oid / 256) ++ leBytes 1 (e.oid % 256) ++ leBytes 2 e.len

/-- The unused entries' and used entries' bytes of Staged in HEEL, and whether some did not fit. -/
def Dev.heelStaged (d : Dev) : List Byte × Bool :=
  let l := (List.range 16).flatMap fun i => if (d.session i).state = 2 then (d.session i).staged.map (stagedBytes i) else []
  ((l.take 135).flatten ++ (List.replicate (135 - l.length) ((0xFF : Byte) :: zeros 15)).flatten, decide (135 < l.length))

/-- The oldest unacknowledged capture. -/
def Dev.firstCapture (d : Dev) : Option (Nat × Capture) :=
  (d.faults.caps.filter fun p => p.2.latched).foldl (fun (o : Option (Nat × Capture)) p => match o with
    | none => some p
    | some b => if p.2.tick < b.2.tick then some p else some b) none

/-- The identity, state, cache and energy part of HEEL, 0x000 to 0x0BF (Table 16.8). -/
def Dev.heelHead (d : Dev) (sid : Nat) : List Byte :=
  let flags := (if d.heelStaged.2 then 1 else 0) + (if d.g oManagerKey = 0 then 2 else 0) + (if d.aon.keepLost then 4 else 0) + (if d.aon.testMode then 8 else 0)
  let v := fun o => d.valAt sid (homeOf o) o
  let states : List Byte := [d.vst, d.sup, d.g oCacheModeActive, d.kennelState, slotState d.kennel.a, slotState d.kennel.b, d.g oRestoreSource, d.g oRestoreMode].map (BitVec.ofNat 8 ·)
  leBytes 4 0x4C454548 ++ leBytes 2 1 ++ leBytes 1 (v oPartNumber) ++ leBytes 1 0xB0 ++ leBytes 8 d.now ++ leBytes 6 (d.g oDictChangeCounter) ++ leBytes 6 (d.g oEventSeqHead)
    ++ leBytes 2 flags ++ leBytes 1 (v oSessionCount) ++ leBytes 1 sid ++ zeros 32
    ++ states
    ++ leBytes 4 (d.g oWriteThroughCause) ++ leBytes 4 (d.g oEnergyShortfall) ++ leBytes 4 (d.g oBankVoltage) ++ leBytes 4 (d.g oEnergyAvailable)
    ++ leBytes 4 (d.g oDirtyCeilingBlocks) ++ leBytes 4 d.deff ++ leBytes 4 d.dirtyTotal ++ leBytes 4 d.cacheCapacity ++ leBytes 8 (d.g oFixedBytes)
    ++ leBytes 32 (d.g oLastOutage) ++ leBytes 8 (d.g oResidentBytes) ++ leBytes 4 (v oLostBlocks) ++ leBytes 1 (d.g oLostUnknown) ++ zeros 35

/-- The fault, instance and Pack part of HEEL, 0x0C0 to 0x17F. -/
def Dev.heelMid (d : Dev) (sid : Nat) : List Byte :=
  let c := d.firstCapture
  let insts := (List.range 4096).flatMap fun i => [BitVec.ofNat 8 (d.instState i), BitVec.ofNat 8 (d.instGen i)]
  let member := fun (g : Node → Nat) => (List.range 16).map fun n => let x := d.node n
    BitVec.ofNat 8 (if x.seen ∧ x.kind = 1 then g x else 0xFF)
  leBytes 1 (d.faultStatus uChip) ++ leBytes 1 (d.g oFaultPinState) ++ leBytes 2 (d.valAt sid uChip oLatchedCount)
    ++ leBytes 2 (match c with | some p => p.1 | none => 0xFFFF) ++ leBytes 2 (match c with | some p => homeUnit p.1 | none => 0xFFFF)
    ++ leBytes 1 (match c with | some p => p.2.cls | none => 0xFF) ++ zeros 7
    ++ leBytes 8 (match c with | some p => p.2.tick | none => 2 ^ 64 - 1) ++ zeros 40
    ++ leBytes 2 (d.g oActiveInstances) ++ leBytes 2 ((List.range 4096).filter fun i => 2 ≤ d.instState i).length ++ zeros 12 ++ (sha256 insts).take 16
    ++ leBytes 1 (d.g oPackRole) ++ leBytes 1 (d.g oPackAddress) ++ leBytes 1 (d.g oMasterAddress) ++ leBytes 1 (d.g oOpVersion)
    ++ leBytes 2 (d.g oRoster) ++ leBytes 2 (d.g oGrantSeq) ++ leBytes 4 (d.g oGrantEnergy) ++ leBytes 4 (d.g oGrantOffset)
    ++ member (·.vaultState) ++ member (·.faultStatus) ++ zeros 48

/-- The HEEL summary for requester `sid` (Table 16.8). -/
def Dev.heel (d : Dev) (sid : Nat) : List Byte :=
  let b := d.heelHead sid ++ d.heelMid sid ++ d.heelDomains ++ (List.range 16).flatMap d.heelSession ++ d.heelStaged.1 ++ zeros 8
  b ++ leBytes 8 (crc64 b)

end Sys2Proof.Machine
end

