-- ==== Sys2Proof/Machine/ObjWrite.lean ====
section
/-! DEFINITION. Writes of the dictionary that take effect at once (R360, R362, R368, R377): the command objects, the tables, the fuses, a group's
descendants, and the row of the command table that states one such write. -/
namespace Sys2Proof.Machine

/-- Replaces the one-time programmable store. -/
def Dev.setFuse (d : Dev) (f : Fuse) : Dev := { d with fuse := f }

/-- Sizes of the fused fields by FieldId − 1 (R386). -/
def fuseSizes : List Nat := [8, 16, 32, 2, 2, 1]

/-- Fused field `i` (FieldId − 1). -/
def Fuse.field (f : Fuse) (i : Nat) : Option Nat := listGet none [f.serial, f.uuid, f.factoryKey, f.vendorId, f.deviceId, f.partNumber] i

/-- Fused field `i` programmed with `v`. -/
def Fuse.program (f : Fuse) (i v : Nat) : Fuse :=
  match i with
  | 0 => { f with serial := some v }
  | 1 => { f with uuid := some v }
  | 2 => { f with factoryKey := some v }
  | 3 => { f with vendorId := some v }
  | 4 => { f with deviceId := some v }
  | _ => { f with partNumber := some v }

/-- A value written to FuseProgram (R386, R388). `cut`: the auxiliary input collapses before the field's check is written. [DEDUCED, log 68] -/
def Dev.fxFuseProgram (d : Dev) (v : Nat) (cut : Bool) : Reply :=
  let id := fieldOf v 0 2
  if id = 0 ∨ 6 < id ∨ fieldOf v 2 2 ≠ 0 ∨ fieldOf v 4 2 ≠ listGet 0 fuseSizes (id - 1) ∨ fieldOf v 6 2 ≠ 0 then badValue d uChip
  else if (d.fuse.field (id - 1)).isSome ∨ 2 ≤ (d.fuse.cut.filter (· = id)).length then conflict d uChip
  else if cut then okR (d.setFuse { d.fuse with cut := d.fuse.cut ++ [id] }).auxBrownout
  else okR (d.setFuse (d.fuse.program (id - 1) (fieldOf v 8 (listGet 0 fuseSizes (id - 1)))))

/-- A value written to FuseLock (R385, R388): a lock fuse partly blown reads as 1. -/
def Dev.fxFuseLock (d : Dev) (v : Nat) (cut : Bool) : Reply :=
  let d := if v = 1 then d.setFuse { d.fuse with locked := true } else d
  okR (if cut then d.auxBrownout else d)

/-- A request that must reach the logic of unit `u` (R348, R349, R362): it wakes the unit's domain. [DEDUCED, log 73] -/
def Dev.reach (d : Dev) (u : Nat) (f : Dev → Reply) : Reply :=
  if d.isolated u ∨ d.halted then { st := 0x0D, unit := u, d := d }
  else if d.lockedOff u then conflict (d.incU u oLockedRefusals) u
  else if d.pathOn u then f d
  else f (d.demandWake u)

/-- STAGE with no outcome stated: whether the image passes its checks is a free value. -/
def Dev.fxFirmwareAny (d : Dev) (v : Nat) : Reply :=
  let (k, e) := d.fresh
  if v = 1 then e.fxFirmwareCommand v (Config.imageOk k) (Config.imageVersion k).toNat else d.fxFirmwareCommand v true 0

/-- A plain IMMEDIATE value, held to the rules that refer to other objects (R360). -/
def Dev.storeNow (d : Dev) (u o v : Nat) : Reply :=
  let e := d.su u o v
  if e.crossRule o then okR e else badValue d u

/-- Writes of supervisor, port, domain and memory commands at one unit. -/
def Dev.applyA (d : Dev) (u o v : Nat) : Option Reply :=
  let (b, r) := baseOid o
  if b = oResetCommand then some (d.fxResetCommand v)
  else if b = oUnitReset then some (d.fxUnitReset u v)
  else if b = oFirmwareCommand then some (d.fxFirmwareAny v)
  else if b = oMarginStep then some (d.fxMarginStep r v)
  else if b = oMarginMode then some (d.fxMarginMode v)
  else if b = oShutdownRequest then some (d.fxShutdownRequest v)
  else if b = oRailCommand then some (d.fxRailCommand v)
  else if b = oCoreOperatingPoint then some (d.fxCoreOperatingPoint v)
  else if b = oPortCommand then some (d.fxPortCommand v)
  else if b = oDomainRequest then some (d.fxDomainRequest u v [])
  else if b = oDomainLock then some (d.fxDomainLock u v [])
  else if b = oPadRelease then some (d.fxPadRelease u v)
  else if b = oChannelCommand then some (d.fxChannelCommand v)
  else none

/-- Writes of energy, vault, Kennel, instance, engine, fault, event, Pack and factory commands at one unit. -/
def Dev.applyB (d : Dev) (sid u o v : Nat) : Option Reply :=
  if o = oCapTestStart then some (d.fxCapTestStart v)
  else if o = oDrillStart then some (d.fxDrillStart v)
  else if o = oVaultCommand then some (d.fxVaultCommand v)
  else if o = oKennelFormat then some (d.fxKennelFormat false v)
  else if o = oKennelFormatForce then some (d.fxKennelFormat true v)
  else if o = oLostRangeRelease then some (d.fxLostRangeRelease v)
  else if o = oInstanceCommand then some (d.fxInstanceCommand v)
  else if o = oKeySlotLoad then some (d.reach u (Dev.fxKeySlotLoad · u v))
  else if o = oFaultAck then some (d.fxFaultAck sid v)
  else if o = oUnitQuarantine then some (d.fxUnitQuarantine u v)
  else if o = oTimeAnchor then some (d.fxTimeAnchor v)
  else if o = oLogFlush then some (d.fxLogFlush v)
  else if o = oEventCursor then some (okR (d.setCursor sid v))
  else if o = oPackResetMember then some (d.fxPackReset v)
  else if o = oFuseLock then some (d.fxFuseLock v false)
  else if o = oFuseProgram then some (d.fxFuseProgram v false)
  else if o = oInjectFault then some (d.fxInjectFault v)
  else none

/-- An IMMEDIATE write of object `o` at one unit. -/
def Dev.applyOne (d : Dev) (sid u o v : Nat) : Reply :=
  match d.applyA u o v with
  | some r => r
  | none => (d.applyB sid u o v).getD (d.storeNow u o v)

/-- Objects whose write at a group is one command to the group (R345, R349, R398, R418). -/
def wholeGroup (o : Nat) : Bool := o == oDomainRequest || o == oDomainLock || o == oUnitReset || o == oUnitQuarantine

/-- The units that a write of a row's object at unit `u` names (R362): at a group, every present descendant that holds it, in up order. -/
def Dev.namedUnits (d : Dev) (row : ObjRow) (u o : Nat) : List Nat :=
  if isGroup u ∧ ¬ wholeGroup o then (upOrder u).filter fun x => d.present x && locAt row.loc x else [u]

/-- One more descendant of a group write (R24): the first refusal decides the status. -/
def writeNext (sid o v : Nat) (a : Reply) (x : Nat) : Reply :=
  let r := a.d.applyOne sid x o v
  if a.st = 0 then r else { a with d := r.d }

/-- An IMMEDIATE write at unit `u` (R24, R362). -/
def Dev.applyWrite (d : Dev) (row : ObjRow) (sid u o v : Nat) : Reply := (d.namedUnits row u o).foldl (writeNext sid o v) (okR d)

/-- The last-change number of an object (R359, R376). [DEDUCED, log 70] -/
def Dev.changeOf (d : Dev) (o : Nat) : Nat := storeGet (fun _ => 0) d.sess.lastChange o

/-- A change of object `o` took effect (R377): DictChangeCounter rises, and the object's last-change number follows. [DEDUCED, log 70] -/
def Dev.noteChange (d : Dev) (o : Nat) : Dev :=
  let d := d.inc oDictChangeCounter 48
  { d with sess := { d.sess with lastChange := storeSet (fun _ => 0) d.sess.lastChange o (d.g oDictChangeCounter) } }

/-- Bytes written to the tables and to FirmwareImage (R36, R256, R259, R265, R425). -/
def Dev.applyBig (d : Dev) (o off : Nat) (data : List Byte) : Option Reply :=
  if o = oVolumeTable then some (d.fxVolumeTable off data)
  else if o = oInstanceTable then some (d.fxInstanceTable off data)
  else if o = oNamespaceTable then some (d.fxNamespaceTable off data)
  else if o = oQueueTable then some (d.fxQueueTable off data)
  else if o = oFirmwareImage then some (d.fxFirmwareImage off data)
  else none

/-- While the machine is in a vault sequence or HALTED, no write is taken (R91, R394). -/
def Dev.writesClosed (d : Dev) : Bool := d.inVault || d.halted

/-- The supervisor serves no request: in RET, restarting after a watchdog reset, or without firmware (R355, R419, R426). [DEDUCED, log 71] -/
def Dev.supAway (d : Dev) : Bool := d.doms.supRet || d.aon.wdRestart || d.aon.fwHalt

/-- The unit at which a refusal of a request that names unit `u` is reported (R369). -/
def refuse (st : Nat) (d : Dev) (u : Nat) : Reply := { st := st, unit := u, d := d }

/-- Checks and applies a write of `v`, of the object's type and length, by `f` (R360, R387, R91). [DEDUCED, log 69] -/
def Dev.writeChecked (d : Dev) (row : ObjRow) (u o v : Nat) (f : Dev → Reply) : Reply :=
  if d.writesClosed then conflict d u
  else if ¬ rowOk row v then badValue d u
  else if ¬ d.precond o v then conflict d u
  else
    let r := f d
    if r.st = 0 ∧ o ≠ oEventCursor then { r with d := r.d.noteChange o } else r

/-- A command row that is one write of object `o` at unit `u`, made by `f` when its checks pass. Its answer is the response; none leaves a device whose
auxiliary input has collapsed. [DEDUCED, log 73] -/
def Dev.mgrRun (d : Dev) (u o v : Nat) (f : Dev → Reply) : Dev :=
  match objRow o with
  | none => d
  | some row =>
    if d.supAway then d
    else
      let r := if ¬ d.present u then notPresent d
        else if ¬ d.holds row u then refuse 5 d u
        else d.writeChecked row u o v f
      if r.d.aon.auxUp then r.d.emit .response [0, 0, 4, r.st, 0xFF, 0, 0] (leBytes 2 r.unit) else r.d

/-- A command row that is one write of object `o` at unit `u`. [DEDUCED, log 73] -/
def Dev.mgrWrite (d : Dev) (u o v : Nat) : Dev :=
  match objRow o with
  | none => d
  | some row => d.mgrRun u o v (Dev.applyWrite · row 0xFF u o v)

/-- A command row that is a WRITE_BLOCK of a table: bytes `data` at `off`. [DEDUCED, log 73] -/
def Dev.mgrBlock (d : Dev) (o off : Nat) (data : List Byte) : Dev :=
  match objRow o with
  | none => d
  | some row =>
    if d.supAway then d
    else
      let r := if d.writesClosed then conflict d uChip
        else if data.length = 0 ∨ 4096 < data.length ∨ row.size < off + data.length then badValue d uChip
        else match d.applyBig o off data with
          | some r => if r.st = 0 then { r with d := r.d.noteChange o } else r
          | none => refuse 5 d uChip
      r.d.emit .response [0, 0, 6, r.st, 0xFF, 0, 0] (leBytes 2 r.unit)

end Sys2Proof.Machine
end

