-- ==== Sys2Proof/Machine/Sessions.lean ====
section
/-! DEFINITION. Dictionary messages (16): headers, sessions, proofs, staged sets, and the commands of Table 16.6. -/
namespace Sys2Proof.Machine

/-- What a request is answered with: the status, body and session of its response, and what follows it. `close`: 1 the session closes silently. -/
structure Answer where
  d : Dev
  st : Nat
  body : List Byte
  sid : Nat
  mac : Option Session := none
  close : Bool := false

/-- The answer that a `Reply` gives (R369). -/
def Reply.answer (r : Reply) (sid : Nat) : Answer :=
  { d := r.d, st := r.st, body := if r.st = 0 ∨ r.body ≠ [] then r.body else leBytes 2 r.unit ++ leBytes 2 0, sid := sid }

/-- A refusal that belongs to no unit. -/
def deny (d : Dev) (st : Nat) : Reply := { st := st, unit := noUnit, d := d }

/-- The header of a request (Table 16.3). -/
def reqHeader (r : Req) (cmd len : Nat) : List Byte :=
  leBytes 4 (1 + cmd * 0x100 + (if r.prot then 2 else 0) * 0x1000000) ++ leBytes 2 r.sid ++ leBytes 2 r.reqId ++ leBytes 2 len ++ leBytes 6 r.counter

/-- K_role (R372). [DEDUCED, log 70] -/
def Dev.roleKey (d : Dev) (role : Nat) : Nat :=
  if role = 1 then d.g oOperatorKey else if role = 2 then d.g oManagerKey else if role = 3 then d.fuse.factoryKey.getD 0 else 0

/-- The proof over nonces `a` and `b` (R372). -/
def proofOf (s : Session) (a b : Nat) : List Byte :=
  hmac384 (leBytes 32 s.key) (leBytes 32 a ++ leBytes 32 b ++ leBytes 1 s.role ++ leBytes 1 s.transport)

/-- Sets the lockout of a role. -/
def Dev.setLock (d : Dev) (role : Nat) (l : Lockout) : Dev := { d with sess := { d.sess with lock := storeSet noLockout d.sess.lock role l } }

/-- An authentication failure of a role (R375). -/
def Dev.authFail (d : Dev) (role : Nat) : Dev :=
  let d := d.inc oAuthFailures
  let l := storeGet noLockout d.sess.lock role
  if 8 ≤ l.fails + 1 then
    let run := min (l.run + 1) 9
    d.setLock role { fails := 0, run := run, until_ := d.now + 60000000 * 2 ^ (run - 1) }
  else d.setLock role { l with fails := l.fails + 1 }

/-- Seconds of lockout left to a role (R375). -/
def Dev.lockLeft (d : Dev) (role : Nat) : Nat := ((storeGet noLockout d.sess.lock role).until_ - d.now + 999999) / 1000000

/-- Closes session `i`: its staged set goes, and its event cursor (R373). -/
def Dev.closeSession (d : Dev) (i : Nat) : Dev :=
  let d := d.setSession i {}
  { d with faults := { d.faults with cursors := d.faults.cursors.filter (·.1 ≠ i) } }

/-- Closes session `i` after a SESSION_CLOSING notice with Code `code`, sent while it is open (R373). [DEDUCED, log 74] -/
def Dev.closeNotice (d : Dev) (i code : Nat) : Dev :=
  let d := if (d.session i).state = 2 then d.notifyTo i 0x04 code noUnit else d
  d.closeSession i

/-- A request's session: refused with a status, or admitted. -/
inductive Auth where
  | refused (st : Nat) (d : Dev)
  | passed (role : Nat) (mac : Option Session) (d : Dev)

/-- Checks a request's session (R371 to R374). [DEDUCED, log 69] -/
def Dev.auth (d : Dev) (r : Req) (cmd : Nat) (body : List Byte) : Auth :=
  if r.sid = 0xFF then (if r.prot then .refused 0x0B d else .passed 0 none d)
  else
    let s := d.session r.sid
    if s.state = 0 ∨ s.transport ≠ r.tr ∨ s.eid ≠ r.eid then .refused 0x0A d
    else if s.state = 1 then (if cmd ≠ 2 then .refused 0x0A d else if r.prot then .refused 0x0B d else .passed s.role none d)
    else if s.role = 0 then (if r.prot then .refused 0x0B d else .passed 0 none (d.setSession r.sid { s with lastTick := d.now }))
    else if ¬ r.prot ∨ r.counter ≤ s.lastCounter ∨ r.mac ≠ sessionMac s 0 r.sid r.counter (reqHeader r cmd body.length ++ body) then .refused 7 (d.authFail s.role)
    else .passed s.role (some s) (d.setSession r.sid { s with lastCounter := r.counter, lastTick := d.now })

/-- OPEN (R371, R372, R375). [DEDUCED, log 69] -/
def Dev.cmdOpen (d : Dev) (r : Req) (body : List Byte) : Answer :=
  let f := fun off len => leNat ((body.drop off).take len)
  let role := f 0 1
  let key := d.roleKey role
  if r.sid ≠ 0xFF then (deny d 6).answer r.sid
  else if body.length ≠ 36 ∨ f 1 3 ≠ 0 then (deny d 0x0B).answer r.sid
  else if 3 < role then (deny d 3).answer r.sid
  else if d.lockLeft role ≠ 0 ∧ role ≠ 0 then { d := d, st := 8, body := zeros 32 ++ leBytes 4 (d.lockLeft role), sid := r.sid }
  else if (role = 1 ∧ key = 0) ∨ ((role = 3 ∨ (role = 2 ∧ key = 0)) ∧ r.tr ≠ 2 ∧ r.tr ≠ 3) then (deny d 6).answer r.sid
  else
    match (List.range 16).find? fun i => (d.session i).state = 0 with
    | none => (deny d 9).answer r.sid
    | some i =>
      let (k, d) := d.fresh
      let s : Session := { role := role, transport := r.tr, state := if role = 0 then 2 else 1, eid := r.eid, devNonce := (Config.nonce k).toNat, reqNonce := f 4 32, openTick := d.now, lastTick := d.now, key := key }
      { d := d.setSession i s, st := 0, body := leBytes 32 s.devNonce ++ leBytes 4 0, sid := i }

/-- PROVE (R372, R375). -/
def Dev.cmdProve (d : Dev) (r : Req) (body : List Byte) : Reply :=
  let s := d.session r.sid
  if r.sid = 0xFF ∨ s.state ≠ 1 then deny d 6
  else if body.length ≠ 48 then deny d 0x0B
  else if body ≠ proofOf s s.devNonce s.reqNonce then deny (d.authFail s.role) 7
  else okR ((d.setLock s.role { storeGet noLockout d.sess.lock s.role with fails := 0, run := 0 }).setSession r.sid { s with state := 2, lastTick := d.now }) (proofOf s s.reqNonce s.devNonce)

/-- A request's address (Table 16.5). -/
structure Addr where
  member : Nat
  depth : Nat
  path : List Nat
  oid : Nat

/-- The address in the first 16 bytes of a body. -/
def addrOf (body : List Byte) : Addr :=
  let b := fun i => (listGet 0 body i).toNat
  { member := b 0, depth := b 1, path := (List.range (min 8 (b 1))).map fun i => b (2 + i), oid := (b 10 + 256 * b 11) * 256 + b 12 }

/-- The address of chip object `o` at this Thozu. -/
def localAddr (o : Nat) : List Byte := leBytes 1 0xFF ++ zeros 9 ++ leBytes 2 (o / 256) ++ leBytes 1 (o % 256) ++ zeros 3

/-- A Value of Table 16.6. -/
def valueBytes (typ len v : Nat) : List Byte := leBytes 1 typ ++ leBytes 1 0 ++ leBytes 2 len ++ leBytes len v

/-- The status of an address that breaks Table 16.5 or R18; 0 when it does not. [DEDUCED, log 69] -/
def addrStatus (body : List Byte) : Nat :=
  let a := addrOf body
  let b := fun i => (listGet 0 body i).toNat
  if b 13 ≠ 0 ∨ b 14 ≠ 0 ∨ b 15 ≠ 0 then 0x0B
  else if 8 < a.depth ∨ (16 ≤ a.member ∧ a.member ≠ 0xFF) then 2
  else if (List.range (8 - a.depth)).any fun i => b (2 + a.depth + i) ≠ 0 then 0x0B
  else 0

/-- The rights of a role over an object: 0 none, 1 read, 2 read and write (R361). -/
def ObjRow.rights (o : ObjRow) (role : Nat) : Nat := if role = 0 then o.obs else if role = 1 then o.opr else if role = 2 then o.mgr else o.fac

/-- Resolves an address, and hands its unit, row and object to `f` (R2, R18, R362). -/
def Dev.atObject (d : Dev) (body : List Byte) (f : Nat → ObjRow → Nat → Reply) : Reply :=
  let a := addrOf body
  if addrStatus body ≠ 0 then deny d (addrStatus body)
  else match unitOfPath a.path with
    | none => notPresent d
    | some u =>
      if ¬ d.present u then notPresent d
      else match objRow a.oid with
        | none => refuse 5 d u
        | some row => if d.holds row u then f u row a.oid else refuse 5 d u

/-- READ (R361, R362, R366, R411). -/
def Dev.cmdRead (d : Dev) (sid role : Nat) (body : List Byte) : Reply :=
  if body.length ≠ 16 then deny d 0x0B
  else d.atObject body fun u row o =>
    let head := leBytes 1 row.typ ++ leBytes 1 0 ++ leBytes 2 row.size
    if row.rights role = 0 then deny d 6
    else if 4096 < row.size then refuse 0x0E d u
    else if o = oEventRecords then okR (d.eventRead sid).2 (head ++ (d.eventRead sid).1)
    else okR (d.readVal row sid u o).2 (head ++ leBytes row.size (d.readVal row sid u o).1)

/-- READ_BLOCK (R368, R411). -/
def Dev.cmdReadBlock (d : Dev) (sid role : Nat) (body : List Byte) : Reply :=
  let off := leNat ((body.drop 16).take 4)
  let len := leNat ((body.drop 20).take 2)
  if body.length ≠ 24 ∨ leNat (body.drop 22) ≠ 0 then deny d 0x0B
  else d.atObject body fun u row o =>
    let head := leBytes 2 len ++ leBytes 2 0
    if row.rights role = 0 then deny d 6
    else if len = 0 ∨ 4096 < len ∨ row.size < off + len then badValue d u
    else match d.bigBytes o off len with
      | some l => okR d (head ++ l)
      | none => okR (d.readVal row sid u o).2 (head ++ ((leBytes row.size (d.readVal row sid u o).1).drop off).take len)

/-- Stages a write (R376). -/
def Dev.stage (d : Dev) (sid : Nat) (a : Addr) (row : ObjRow) (v : Nat) : Reply :=
  let s := d.session sid
  let same := fun (e : Staged) => decide (e.member = a.member ∧ e.path = a.path ∧ e.oid = a.oid)
  if s.staged.any same then okR (d.setSession sid { s with staged := mapIf same (fun e => { e with value := v }) s.staged })
  else if 64 ≤ s.staged.length ∨ 4096 < (s.staged.map (·.len)).sum + row.size then deny d 9
  else
    let e : Staged := { member := a.member, path := a.path, oid := a.oid, typ := row.typ, len := row.size, value := v, lastChange := d.changeOf a.oid }
    okR (d.setSession sid { s with staged := s.staged ++ [e] })

/-- WRITE (R360 to R362, R366, R376). -/
def Dev.cmdWrite (d : Dev) (sid role : Nat) (body : List Byte) : Reply :=
  let len := leNat ((body.drop 18).take 2)
  let data := body.drop 20
  if body.length ≠ 20 + len ∨ (listGet 0 body 17).toNat ≠ 0 ∨ body.length < 20 then deny d 0x0B
  else d.atObject body fun u row o =>
    let v := leNat data
    if row.rights role ≠ 2 ∨ d.readOnly o then deny d 6
    else if 4096 < row.size then refuse 0x0E d u
    else if d.writesClosed then conflict d u
    else if (listGet 0 body 16).toNat ≠ row.typ ∨ len ≠ row.size ∨ ¬ rowOk row v then badValue d u
    else if row.staged then d.stage sid (addrOf body) row v
    else d.writeChecked row u o v (Dev.applyWrite · row sid u o v)

/-- WRITE_BLOCK (R360, R368). -/
def Dev.cmdWriteBlock (d : Dev) (sid role : Nat) (body : List Byte) : Reply :=
  let off := leNat ((body.drop 16).take 4)
  let len := leNat ((body.drop 20).take 2)
  let data := body.drop 24
  if sid = 0xFF ∨ role = 0 then deny d 6
  else if body.length ≠ 24 + len ∨ leNat ((body.drop 22).take 2) ≠ 0 ∨ body.length < 24 then deny d 0x0B
  else d.atObject body fun u row o =>
    if row.staged ∨ row.rights role ≠ 2 ∨ d.readOnly o then deny d 6
    else if d.writesClosed then conflict d u
    else if len = 0 ∨ 4096 < len ∨ row.size < off + len then badValue d u
    else match d.applyBig o off data with
      | some r => if r.st = 0 then { r with d := r.d.noteChange o } else r
      | none =>
        let v := setField (d.valAt sid u o) off len (leNat data)
        d.writeChecked row u o v (Dev.applyWrite · row sid u o v)

/-- The unit that a staged entry names. -/
def Staged.unit (e : Staged) : Nat := (unitOfPath e.path).getD noUnit

/-- Objects whose COMMIT must reach the logic of the unit (R362). -/
def reaches (o : Nat) : Bool := o == oSliceCycles || o == oHostPageTimeout

/-- One staged entry's value placed at every unit it names. -/
def Dev.place (d : Dev) (e : Staged) : Dev :=
  match objRow e.oid with
  | some row => (d.namedUnits row e.unit e.oid).foldl (fun d x => d.su x e.oid e.value) d
  | none => d

/-- Checks one staged entry (R360, R377) against the present machine, with `all` the machine that the whole set would leave: the status and the unit that
refuses, or 0. -/
def Dev.checkEntry (d all : Dev) (e : Staged) : Nat × Nat :=
  match objRow e.oid with
  | none => (5, e.unit)
  | some row =>
    let us := d.namedUnits row e.unit e.oid
    let far := if reaches e.oid then us.find? fun x => d.isolated x || d.lockedOff x else none
    if ¬ d.present e.unit then (1, noUnit)
    else if d.changeOf e.oid ≠ e.lastChange then (4, e.unit)
    else if ¬ rowOk row e.value ∨ ¬ all.crossRule e.oid then (3, e.unit)
    else if ¬ d.precond e.oid e.value then (4, e.unit)
    else match far with
      | some x => (if d.isolated x then 0x0D else 4, x)
      | none => (0, noUnit)

/-- The first staged entry that fails, with its number. -/
def Dev.firstFail (d all : Dev) : Nat → List Staged → Option (Nat × Nat × Nat)
  | _, [] => none
  | i, e :: r => match d.checkEntry all e with
    | (0, _) => d.firstFail all (i + 1) r
    | (st, u) => some (i, st, u)

/-- One staged entry is applied (R377, R387): a trim programs the next fused bank; an object of a sleeping unit wakes it (R348). -/
def Dev.applyEntry (d : Dev) (e : Staged) : Dev :=
  let f := d.fuse
  let d := if e.oid = oAdcTrim then d.setFuse { f with adcTrim := f.adcTrim ++ [e.value] }
    else if e.oid = oPfailTrim then d.setFuse { f with pfailTrim := f.pfailTrim ++ [e.value] }
    else if e.oid = oMonclkTrim then d.setFuse { f with monclkTrim := f.monclkTrim ++ [e.value] }
    else d.place e
  let us := match objRow e.oid with | some row => if reaches e.oid then d.namedUnits row e.unit e.oid else [] | none => []
  let d := us.foldl (fun d x => if d.pathOn x then d else d.demandWake x) d
  d.noteChange e.oid

/-- The body of a COMMIT's response. -/
def Dev.commitBody (d : Dev) (applied fail unit : Nat) : List Byte :=
  leBytes 6 (d.g oDictChangeCounter) ++ leBytes 2 applied ++ leBytes 2 fail ++ leBytes 2 unit

/-- COMMIT (R377, R379). [DEDUCED, log 70] -/
def Dev.cmdCommit (d : Dev) (sid role : Nat) (body : List Byte) : Reply :=
  if sid = 0xFF ∨ role = 0 then deny d 6
  else if body ≠ [] then deny d 0x0B
  else if d.writesClosed then { st := 4, unit := noUnit, d := d, body := d.commitBody 0 0xFFFF noUnit }
  else
    let l := (d.session sid).staged
    let d := d.setSession sid { d.session sid with staged := [] }
    match d.firstFail (l.foldl Dev.place d) 0 l with
    | some (i, st, u) => { st := st, unit := u, d := d, body := d.commitBody 0 i u }
    | none =>
      let d := l.foldl Dev.applyEntry d
      let d := l.foldl (fun d e => d.commitEffect e.oid) d
      okR d (d.commitBody l.length 0xFFFF noUnit)

/-- DISCARD (R377). -/
def Dev.cmdDiscard (d : Dev) (sid role : Nat) (body : List Byte) : Reply :=
  let s := d.session sid
  if sid = 0xFF ∨ role = 0 then deny d 6
  else if body ≠ [] then deny d 0x0B
  else if d.halted then deny d 4
  else okR (d.setSession sid { s with staged := [] }) (leBytes 2 s.staged.length)

/-- HEEL (R378). -/
def Dev.cmdHeel (d : Dev) (sid : Nat) (body : List Byte) : Reply :=
  if body ≠ [] then deny d 0x0B else okR (d.inc oHeelRequests) (d.heel sid)

/-- CLOSE (R368, R373): the requester's own session closes after its response. -/
def Dev.cmdClose (d : Dev) (sid role : Nat) (body : List Byte) : Answer :=
  let t := (listGet 0 body 0).toNat
  if sid = 0xFF then (deny d 6).answer sid
  else if body.length ≠ 4 ∨ leNat (body.drop 1) ≠ 0 then (deny d 0x0B).answer sid
  else if d.halted then (deny d 4).answer sid
  else if t = 0xFF ∨ t = sid then { (okR d).answer sid with close := true }
  else if role ≠ 2 then (deny d 6).answer sid
  else if 16 ≤ t ∨ (d.session t).state = 0 then (deny d 3).answer sid
  else (okR (d.closeNotice t 2)).answer sid

/-- The commands of Table 16.6, once the request's session is admitted. [DEDUCED, log 71] -/
def Dev.runCmd (d : Dev) (r : Req) (role cmd : Nat) (body : List Byte) : Answer :=
  match cmd with
  | 1 => if d.halted then (deny d 4).answer r.sid else d.cmdOpen r body
  | 2 => if d.halted then (deny d 4).answer r.sid else (d.cmdProve r body).answer r.sid
  | 3 => (d.cmdRead r.sid role body).answer r.sid
  | 4 => (d.cmdWrite r.sid role body).answer r.sid
  | 5 => (d.cmdReadBlock r.sid role body).answer r.sid
  | 6 => (d.cmdWriteBlock r.sid role body).answer r.sid
  | 7 => (d.cmdCommit r.sid role body).answer r.sid
  | 8 => (d.cmdDiscard r.sid role body).answer r.sid
  | 9 => (d.cmdHeel r.sid body).answer r.sid
  | 0x0A => (deny d 6).answer r.sid
  | _ => d.cmdClose r.sid role body

/-- The header breaks Table 16.3: an unlisted command, a SessionId that no slot has, a body that is too long, or a Counter without Protected. [DEDUCED, log 69] -/
def badHeader (r : Req) (cmd len : Nat) : Bool :=
  decide (cmd = 0 ∨ 0x0B < cmd) || decide (16 ≤ r.sid ∧ r.sid ≠ 0xFF) || decide (4120 < len) || (!r.prot && r.counter != 0) || (r.prot && r.mac.length != 16)

/-- A request is served (R366 to R374): the device and the bytes of its response. MALFORMED and AUTH_FAILED go out unprotected. [DEDUCED, log 69] -/
def Dev.serve (d : Dev) (r : Req) (cmd : Nat) (body : List Byte) : Answer × List Byte :=
  let a : Answer :=
    if badHeader r cmd body.length then (deny d 0x0B).answer r.sid
    else match d.auth r cmd body with
      | .refused st d => (deny d st).answer r.sid
      | .passed role mac d =>
        let a := d.runCmd r role cmd body
        { a with mac := if a.st = 0x0B then none else mac }
  let bytes := match a.mac with
    | some s => let hb := msgBytes cmd a.st true a.sid r.reqId r.counter a.body
                hb ++ sessionMac s 1 a.sid r.counter hb
    | none => msgBytes cmd a.st false a.sid r.reqId 0 a.body
  (a, bytes)

/-- What follows the response: the requester's own close, and the closing of a session whose Counter is exhausted (R373). -/
def Answer.after (a : Answer) (r : Req) : Dev :=
  if a.close then a.d.closeSession r.sid
  else if r.sid ≠ 0xFF ∧ (a.d.session r.sid).state = 2 ∧ (a.d.session r.sid).lastCounter = 2 ^ 48 - 1 then a.d.closeNotice r.sid 3
  else a.d

/-- The address of a request names another node (R367, R370). [DEDUCED, log 66] -/
def Dev.elsewhere (d : Dev) (cmd : Nat) (body : List Byte) : Bool :=
  let m := (addrOf body).member
  decide (3 ≤ cmd ∧ cmd ≤ 6) && decide (16 ≤ body.length) && decide (addrStatus body = 0) && decide (m ≠ 0xFF) && !(d.aon.lshEn && m == d.own)

/-- The master takes a request for another Thozu (R370, R175); otherwise it is refused with NOT_PRESENT. [DEDUCED, log 72] -/
def Dev.forward (d : Dev) (r : Req) (cmd : Nat) (body : List Byte) : Dev :=
  let m := (addrOf body).member
  let x : Forward := { msgId := d.pack.msgId % 256, node := m, transport := r.tr, eid := r.eid, mtag := r.tag, req := reqHeader r cmd body.length ++ body ++ r.mac }
  if d.isMaster ∧ bit (d.g oRoster) m ∧ m < 8 then d.setPack { d.pack with msgId := (d.pack.msgId + 1) % 256, fwd := d.pack.fwd ++ [x] }
  else d.forwardFail x 1

/-- Messages of transport `tr` are taken (R364, R379). [DEDUCED, log 71; DEDUCED, log 72] -/
def Dev.linkServes (d : Dev) (tr : Nat) : Bool :=
  !d.supAway && (if tr = 1 then d.vdmUp && !d.inVault else if tr = 4 then d.aon.lshEn else tr == 2 || tr == 3)

/-- The management port has carried a transaction (R355). -/
def Dev.mgtSeen (d : Dev) (tr : Nat) : Dev := if tr = 2 ∨ tr = 3 then { d with doms := { d.doms with mgtTick := d.now } } else d

/-- A request that arrives over transport 1 to 3 (rows OPEN to CLOSE, and whole MCTP messages). -/
def Dev.request (d : Dev) (r : Req) (cmd : Nat) (body : List Byte) : Dev :=
  if ¬ d.linkServes r.tr ∨ r.tr = 4 then d
  else
    let d := d.mgtSeen r.tr
    if ¬ badHeader r cmd body.length ∧ d.elsewhere cmd body then d.forward r cmd body
    else
      let (a, bytes) := d.serve r cmd body
      if a.d.aon.auxUp then ({ a with d := a.d.emit .response [r.tr, r.eid, cmd, a.st, a.sid, r.reqId, r.tag] bytes }).after r else a.d

/-- A whole dictionary message as bytes (R365): discarded, answered for its header, or a request. `none`: discarded. -/
def parseMessage (tr eid tag : Nat) (m : List Byte) : Option (Nat × Req × Nat × List Byte) :=
  let b := fun i => (listGet 0 m i).toNat
  let len := b 8 + 256 * b 9
  let prot := bit (b 3) 1
  let body := (m.drop 16).take len
  let r : Req := { tr := tr, eid := eid, tag := tag, sid := b 4, reqId := b 6 + 256 * b 7, prot := prot, counter := leNat ((m.drop 10).take 6), mac := if prot then m.drop (16 + len) else [] }
  if m.length < 16 ∨ 4168 < m.length then none
  else if b 0 ≠ 1 then some (0x0F, r, b 1, [])
  else if b 2 ≠ 0 ∨ b 3 &&& 0xFD ≠ 0 ∨ b 5 ≠ 0 ∨ m.length ≠ 16 + len + (if prot then 16 else 0) then some (0x0B, r, b 1, [])
  else some (0, r, b 1, body)

/-- A whole message over transport 1 to 3. -/
def Dev.message (d : Dev) (tr eid tag : Nat) (m : List Byte) : Dev :=
  match parseMessage tr eid tag m with
  | none => d
  | some (0, r, cmd, body) => d.request r cmd body
  | some (st, r, cmd, _) => if d.linkServes tr then (d.mgtSeen tr).emit .response [tr, eid, cmd, st, r.sid, r.reqId, tag] (msgBytes cmd st false r.sid r.reqId 0 (leBytes 4 0xFFFF)) else d

/-- Replaces the messages being reassembled. -/
def Dev.setAsm (d : Dev) (l : List Assembly) : Dev := { d with sess := { d.sess with asm := l } }

/-- The dictionary message inside an MCTP message (R364): type 0x7E, the PCI vendor identifier, command set 0x01. [DEDUCED, log 72] -/
def Dev.dictPart (d : Dev) (m : List Byte) : Option (List Byte) :=
  if beNat (m.take 4) = 0x7E000001 + (d.fuse.vendorId.getD 0) * 256 ∧ 4 ≤ m.length then some (m.drop 4) else none

/-- MCTP_PACKET_RECEIVE (R365): a packet from endpoint `eid` with message tag `tag`, its start and end marks, its sequence number and its bytes. [DEDUCED, log 72] -/
def Dev.packet (d : Dev) (tr eid tag : Nat) (som eom : Bool) (seq : Nat) (data : List Byte) : Dev :=
  let mine := fun (x : Assembly) => decide (x.transport = tr ∧ x.eid = eid ∧ x.mtag = tag)
  if ¬ d.linkServes tr ∨ tr = 4 then d
  else
    let d := d.mgtSeen tr
    let old := d.sess.asm.find? mine
    let rest := d.sess.asm.filter fun x => !mine x
    let follows : Bool := match old with | some x => x.nextSeq == seq % 4 | none => false
    let d := d.setAsm rest
    if 256 < data.length ∨ (data.length < 64 ∧ ¬ eom) then d
    else if ¬ som ∧ ¬ follows then d
    else if som ∧ ¬ eom ∧ 4 ≤ (rest.filter fun x => decide (x.transport = tr)).length then d
    else
      let bytes := if som then data else (match old with | some x => x.bytes | none => []) ++ data
      let tick := if som then d.now else (match old with | some x => x.tick | none => d.now)
      if 4172 < bytes.length then d
      else if eom then (match d.dictPart bytes with | some m => d.message tr eid tag m | none => d)
      else d.setAsm (rest ++ [⟨tr, eid, tag, bytes, (seq + 1) % 4, tick⟩])

/-- REASSEMBLY_TIMEOUT (R365). -/
def Dev.asmTimeout (d : Dev) (tr eid tag : Nat) : Dev :=
  d.setAsm (d.sess.asm.filter fun x => ¬ (x.transport = tr ∧ x.eid = eid ∧ x.mtag = tag))

/-- LOCKOUT_EXPIRE (R375). -/
def Dev.lockExpire (d : Dev) (role : Nat) : Dev :=
  let l := storeGet noLockout d.sess.lock role
  if l.until_ = 0 then d else d.setLock role { l with until_ := 0 }

/-- PROVE_TIMEOUT (R371). -/
def Dev.proveTimeout (d : Dev) (i : Nat) : Dev := if (d.session i).state = 1 then d.closeSession i else d

/-- SESSION_IDLE_EXPIRE (R373). -/
def Dev.idleExpire (d : Dev) (i : Nat) : Dev := if (d.session i).state = 2 then d.closeNotice i 1 else d

/-- An MCTP control response (R364): completion code and data to endpoint `eid`. -/
def Dev.control (d : Dev) (tr eid cmd cc : Nat) (data : List Byte) : Dev :=
  if ¬ d.linkServes tr ∨ tr = 4 then d else (d.mgtSeen tr).emit .mctp [tr, eid, cmd, cc] (leBytes 1 cc ++ data)

/-- The endpoint identifier at transport `tr`; 0 while none is set. -/
def Dev.eidAt (d : Dev) (tr : Nat) : Nat := storeGet (fun _ => 0) d.sess.eids tr

/-- SET_ENDPOINT_ID: operation 0 or 1 sets the identifier; others, and the reserved identifiers, are invalid data. [PRESUMED, log 23] -/
def Dev.setEid (d : Dev) (tr eid op new : Nat) : Dev :=
  if ¬ d.linkServes tr ∨ tr = 4 then d
  else if 1 < op ∨ new < 8 ∨ 0xFF ≤ new then d.control tr eid 0x01 0x02 []
  else ({ d with sess := { d.sess with eids := storeSet (fun _ => 0) d.sess.eids tr new } }).control tr eid 0x01 0 (leBytes 1 0 ++ leBytes 1 new ++ leBytes 1 0)

/-- GET_ENDPOINT_ID. [PRESUMED, log 23] -/
def Dev.getEid (d : Dev) (tr eid : Nat) : Dev := d.control tr eid 0x02 0 (leBytes 1 (d.eidAt tr) ++ zeros 2)

/-- GET_ENDPOINT_UUID. [PRESUMED, log 23] -/
def Dev.getUuid (d : Dev) (tr eid : Nat) : Dev := d.control tr eid 0x03 0 (leBytes 16 (d.fuse.uuid.getD 0))

/-- GET_MCTP_VERSION_SUPPORT: version 1.3 of the base specification and of the control protocol. [PRESUMED, log 23] -/
def Dev.getVersions (d : Dev) (tr eid typ : Nat) : Dev :=
  if typ = 0xFF ∨ typ = 0 then d.control tr eid 0x04 0 (leBytes 1 1 ++ beBytes 4 0xF1F3FF00) else d.control tr eid 0x04 0x80 []

/-- GET_MESSAGE_TYPE_SUPPORT: Vendor Defined – PCI. [PRESUMED, log 23] -/
def Dev.getTypes (d : Dev) (tr eid : Nat) : Dev := d.control tr eid 0x05 0 (leBytes 1 1 ++ leBytes 1 0x7E)

/-- GET_VENDOR_DEFINED_MESSAGE_SUPPORT: one set, the PCI vendor identifier with command set 0x01. [PRESUMED, log 23] -/
def Dev.getVdm (d : Dev) (tr eid sel : Nat) : Dev :=
  if sel = 0 then d.control tr eid 0x06 0 (leBytes 1 0xFF ++ leBytes 1 0 ++ beBytes 2 (d.fuse.vendorId.getD 0) ++ beBytes 2 1) else d.control tr eid 0x06 0x02 []

/-- UNSUPPORTED_CONTROL_COMMAND. [PRESUMED, log 23] -/
def Dev.badControl (d : Dev) (tr eid cmd : Nat) : Dev := d.control tr eid cmd 0x05 []

end Sys2Proof.Machine
end

