-- ==== Sys2Proof/Machine/Forward.lean ====
section
/-! DEFINITION. Dictionary messages over the Leash (R175, R370): fragments at the member and at the master. -/
namespace Sys2Proof.Machine

/-- A member answers a DICT_REQ frame with a DICT_RSP under its version and Seq (R159). -/
def Dev.dictReply (d : Dev) (f payload : List Byte) : Dev :=
  let b := frameAtByte f
  d.emit .leash [9, b 3, b 4] (frameBytes (b 0) 9 (b 3) d.own (b 4) payload)

/-- A whole message forwarded to this member is served (R370): its transport there is the Leash. [DEDUCED, log 71] -/
def Dev.serveForwarded (d : Dev) (src : Nat) (m : List Byte) : Dev :=
  match parseMessage 4 src 0 m with
  | none => d.setPack { d.pack with memRsp := none }
  | some (0, r, cmd, body) =>
    if ¬ badHeader r cmd body.length ∧ d.elsewhere cmd body then
      d.setPack { d.pack with memRsp := some (msgBytes cmd 1 false r.sid r.reqId 0 (leBytes 4 0xFFFF)) }
    else
      let (a, bytes) := d.serve r cmd body
      let d := a.after r
      d.setPack { d.pack with memRsp := some bytes }
  | some (st, r, cmd, _) => d.setPack { d.pack with memRsp := some (msgBytes cmd st false r.sid r.reqId 0 (leBytes 4 0xFFFF)) }

/-- A data-bearing fragment at the member: message `id`, fragment `n`, its Last mark and its bytes. [DEDUCED, log 72] -/
def Dev.takeFragment (d : Dev) (src id n : Nat) (last : Bool) (data : List Byte) : Dev :=
  let p := d.pack
  let d := if n = 0 then d.setPack { p with memMsg := some id, memFrags := data, memNext := 1, memRsp := none, rspFrag := 0 }
    else if p.memMsg = some id ∧ p.memNext = n ∧ p.memFrags.length + data.length ≤ 4168 then d.setPack { p with memFrags := p.memFrags ++ data, memNext := n + 1 }
    else d.setPack { p with memMsg := none, memFrags := [], memNext := 0, memRsp := none, rspFrag := 0 }
  if last ∧ d.pack.memMsg.isSome then
    let m := d.pack.memFrags
    (d.setPack { d.pack with memFrags := [], memNext := 0 }).serveForwarded src m
  else d

/-- An empty DICT_REQ pulls the next response fragment (R175). -/
def Dev.pullFragment (d : Dev) (f : List Byte) (id : Nat) : Dev :=
  let p := d.pack
  match (if p.memMsg = some id then p.memRsp else none) with
  | none => d.dictReply f (leBytes 1 id ++ leBytes 1 0)
  | some l =>
    let part := l.take 62
    let last : Bool := decide (l.length ≤ 62)
    let d := d.dictReply f (leBytes 1 id ++ leBytes 1 (p.rspFrag % 128 + if last then 128 else 0) ++ part)
    if last then d.setPack { p with memMsg := none, memRsp := none, rspFrag := 0 } else d.setPack { p with memRsp := some (l.drop 62), rspFrag := p.rspFrag + 1 }

/-- DICT_REQ (R175): from the current master. -/
def Dev.rxDictReq (d : Dev) (f : List Byte) : Dev :=
  d.onFrame 8 f false fun d =>
    let id := framePay f 0 1
    let n := framePay f 1 1
    let data := ((f.drop 6).take (frameAtByte f 5)).drop 2
    if frameAtByte f 3 ≠ d.g oMasterAddress ∨ d.isMaster ∨ d.supAway then d
    else if data = [] then d.pullFragment f id
    else (d.takeFragment (frameAtByte f 3) id (n % 128) (bit n 7) data).dictReply f (leBytes 1 id ++ leBytes 1 0)

/-- DICT_RSP (R175, R370): at Last the member's response goes to the requester unchanged. -/
def Dev.rxDictRsp (d : Dev) (f : List Byte) : Dev :=
  d.onFrame 9 f false fun d =>
    let n := framePay f 1 1
    let data := ((f.drop 6).take (frameAtByte f 5)).drop 2
    match (if d.isMaster then d.pack.fwd else []) with
    | [] => d
    | x :: rest =>
      if x.node ≠ frameAtByte f 3 ∨ x.msgId ≠ framePay f 0 1 ∨ x.lastTick.isNone ∨ data = [] ∨ x.rspFrag % 128 ≠ n % 128 then d
      else if bit n 7 then
        let l := x.rsp ++ data
        let b := frameAtByte l
        (d.setPack { d.pack with fwd := rest }).emit .response [x.transport, x.eid, b 1, b 2, b 4, b 6 + 256 * b 7, x.mtag] l
      else d.setPack { d.pack with fwd := { x with rsp := x.rsp ++ data, rspFrag := x.rspFrag + 1 } :: rest }

/-- FORWARD_TIMEOUT (R175, R370): message `id` has got no Last response fragment in 600 ms. [DEDUCED, log 72] -/
def Dev.forwardTimeout (d : Dev) (id : Nat) : Dev :=
  match d.pack.fwd.find? fun x => x.msgId = id ∧ x.lastTick.isSome with
  | none => d
  | some x => (d.setPack { d.pack with fwd := d.pack.fwd.filter fun y => y.msgId ≠ id }).forwardFail x 0x0C

end Sys2Proof.Machine
end

