-- ==== Sys2Proof/Machine/Settle.lean ====
section
/-! DEFINITION. What ends every command: the fault occurrences it raised are handled in order, activities of aborted entries resume, and what waited
for the machine's state begins. -/
namespace Sys2Proof.Machine

/-- Handles occurrences and resumes until none is left, at most `n` of them. [DEDUCED, log 13] -/
def Dev.drain : Nat → Dev → Dev
  | 0, d => d
  | n + 1, d => match d.faultQ with
    | o :: r => (({ d with faultQ := r }).occur o).drain n
    | [] => match d.doms.resumes with
      | u :: r => (({ d with doms := { d.doms with resumes := r } }).resumeUnit u).drain n
      | [] => d

/-- What waited for the state that a command leaves: sources of links that are down, a halt, a soft reset, a flush. [DEDUCED, log 13] -/
def Dev.followUp (d : Dev) : Dev := (((d.drain 4096).linkLives.haltDue).drain 4096).softPending.flushStart

/-- The device at the end of a command: every occurrence is handled, what waited begins, and the fault pins follow. [DEDUCED, log 13] -/
def Dev.settle (d : Dev) : Dev := (d.followUp.drain 4096).drivePins

end Sys2Proof.Machine
end

