-- ==== Sys2Proof/Machine/State.lean ====
section
/-! DEFINITION. The state of the block: the commands that wait, and the device. The device's parts are in DevBase.lean and DevMore.lean. -/
namespace Sys2Proof.Machine
open Sys2Proof

/-- The block: its queue of commands, first in, first out, and the Thozu itself. -/
structure State where
  pending : List Instr := []
  dev : Dev := {}
  deriving DecidableEq, Repr

/-- No command stops the machine: the spec gives each of them an effect, or its event finds nothing to change. -/
inductive Fault where
  deriving DecidableEq, Repr

/-- Why a command has no meaning. -/
inductive Refusal where
  | notModelled (mnemonic : String) -- the command has no meaning yet; safe: nothing can be proved of what follows it
  deriving DecidableEq, Repr

/-- The machine right after reset (Table 19.3): the always-on block has left its power-on reset and the boot ROM has loaded firmware slot A, so that the supervisor
stands in STANDBY. One power-on has been counted, and the recorder has reserved its first sequence numbers (R404). [DESIGN CHOICE, log 3; DESIGN CHOICE, log 4; DESIGN CHOICE, log 5] -/
def State.reset : State :=
  { pending := [], dev := { dict := [(oResetCounts, 1), (oSeqReserve, 65536)], fuse := { partNumber := some 1 } } }

end Sys2Proof.Machine
end

