-- ==== Sys2Proof/Machine/Act.lean ====
section
/-! DEFINITION. How a command acts: on a well-formed command, with the auxiliary input present, its effect and then what the effect sets off. -/
namespace Sys2Proof.Machine
open Sys2Proof

/-- A command of effect `f`; `ok` says that its operands are in range (WellFormed.lean). While the auxiliary input is absent the device does nothing (R329, R424); an ill-formed command changes nothing. [DESIGN CHOICE, log 2; DEDUCED, log 75] -/
def act (ok : Bool) (s : State) (f : Dev → Dev) : Host.Outcome State Fault Refusal :=
  .next { s with dev := if ok && s.dev.aon.auxUp then (f s.dev).settle else s.dev }

/-- A command that acts with the auxiliary input absent too: its return, and the watch over VBAT (R420, R424). [DEDUCED, log 75] -/
def actDark (ok : Bool) (s : State) (f : Dev → Dev) : Host.Outcome State Fault Refusal :=
  .next { s with dev := if ok then (f s.dev).settle else s.dev }

end Sys2Proof.Machine
end

