-- ==== Sys2Proof/Machine/CmdCache.lean ====
section
/-! DEFINITION. The meanings of the commands. The write cache, volumes and the NVMe commands (01, 02, 11). Each is the effect that its rule gives, on the device alone. -/
namespace Sys2Proof.Machine

/-- GOVERNOR_ADMIT (R50). -/
def execGovernorAdmit (s : State) : Host.Outcome State Fault Refusal := act true s fun d => d.governorAdmit

/-- PLACE_COMPLETE (R44). -/
def execPlaceComplete (id : Nat) (bad : List (Nat × Nat)) (s : State) : Host.Outcome State Fault Refusal := act true s fun d => d.placeComplete id bad

/-- THROUGH_WRITE_COMPLETE (R45). -/
def execThroughWriteComplete (id : Nat) (ok : Bool) (s : State) : Host.Outcome State Fault Refusal := act true s fun d => d.throughComplete id ok

/-- MIRRORING_COMPLETE (R48). -/
def execMirroringComplete (s : State) : Host.Outcome State Fault Refusal := act true s fun d => d.mirroringComplete

/-- DESTAGE_IDLE_TIMER (R55). -/
def execDestageIdleTimer (bad : List (Nat × Nat)) (s : State) : Host.Outcome State Fault Refusal := act true s fun d => d.destageIdle bad

/-- DESTAGE_ISSUE (R57). -/
def execDestageIssue (bad : List (Nat × Nat)) (s : State) : Host.Outcome State Fault Refusal := act true s fun d => d.destageIssue bad

/-- DESTAGE_WRITE_COMPLETE (R56). -/
def execDestageWriteComplete (cmd : Nat) (ok : Bool) (s : State) : Host.Outcome State Fault Refusal := act true s fun d => d.destageWriteComplete cmd ok

/-- DESTAGE_FLUSH_ISSUE (R56). -/
def execDestageFlushIssue (port : Nat) (nsid : Nat) (s : State) : Host.Outcome State Fault Refusal := act (decide (port < 64)) s fun d => d.destageFlushIssue port nsid

/-- DESTAGE_FLUSH_COMPLETE (R56). -/
def execDestageFlushComplete (port : Nat) (nsid : Nat) (ok : Bool) (s : State) : Host.Outcome State Fault Refusal := act (decide (port < 64)) s fun d => d.destageFlushComplete port nsid ok

/-- BUCKET_REBUILD_COMPLETE (R60). -/
def execBucketRebuildComplete (s : State) : Host.Outcome State Fault Refusal := act true s fun d => d.bucketRebuilt

/-- VOLUME_TABLE_WRITE (R36). -/
def execVolumeTableWrite (off : Nat) (data : List Byte) (s : State) : Host.Outcome State Fault Refusal := act true s fun d => d.mgrBlock oVolumeTable off data

/-- NVME_WRITE (R44). -/
def execNvmeWrite (q : Nat) (cid : Nat) (nsid : Nat) (lba : Nat) (nlb : Nat) (data : List Byte) (s : State) : Host.Outcome State Fault Refusal := act (decide (q < 16384 ∧ cid < 65536 ∧ nlb < 65536)) s fun d => d.nvmeWrite q cid nsid lba nlb data

/-- NVME_READ (R43). -/
def execNvmeRead (q : Nat) (cid : Nat) (nsid : Nat) (lba : Nat) (nlb : Nat) (dst : Nat) (bad : List (Nat × Nat)) (s : State) : Host.Outcome State Fault Refusal := act (decide (q < 16384 ∧ cid < 65536 ∧ nlb < 65536)) s fun d => d.nvmeRead q cid nsid lba nlb dst bad

/-- NVME_FLUSH (R46). -/
def execNvmeFlush (q : Nat) (cid : Nat) (nsid : Nat) (s : State) : Host.Outcome State Fault Refusal := act (decide (q < 16384 ∧ cid < 65536)) s fun d => d.nvmeFlush q cid nsid

/-- WRITE_ZEROES (R45). -/
def execWriteZeroes (q : Nat) (cid : Nat) (nsid : Nat) (lba : Nat) (nlb : Nat) (s : State) : Host.Outcome State Fault Refusal := act (decide (q < 16384 ∧ cid < 65536 ∧ nlb < 65536)) s fun d => d.writeZeroes q cid nsid lba nlb

/-- WRITE_UNCORRECTABLE (R45). -/
def execWriteUncorrectable (q : Nat) (cid : Nat) (nsid : Nat) (lba : Nat) (nlb : Nat) (s : State) : Host.Outcome State Fault Refusal := act (decide (q < 16384 ∧ cid < 65536 ∧ nlb < 65536)) s fun d => d.writeUncorrectable q cid nsid lba nlb

/-- CREATE_IO_SQ (R261). -/
def execCreateIoSq (i : Nat) (cid : Nat) (qid : Nat) (size : Nat) (prp : Nat) (contig : Bool) (cqid : Nat) (s : State) : Host.Outcome State Fault Refusal := act (decide (i < 4096 ∧ cid < 65536 ∧ qid < 65536 ∧ size < 65536 ∧ cqid < 65536)) s fun d => d.createSq i cid qid size prp contig cqid

/-- CREATE_IO_CQ (R261). -/
def execCreateIoCq (i : Nat) (cid : Nat) (qid : Nat) (size : Nat) (prp : Nat) (contig : Bool) (vec : Option Nat) (s : State) : Host.Outcome State Fault Refusal := act (decide (i < 4096 ∧ cid < 65536 ∧ qid < 65536 ∧ size < 65536)) s fun d => d.createCq i cid qid size prp contig vec

/-- DELETE_IO_SQ (R260). -/
def execDeleteIoSq (i : Nat) (cid : Nat) (qid : Nat) (s : State) : Host.Outcome State Fault Refusal := act (decide (i < 4096 ∧ cid < 65536 ∧ qid < 65536)) s fun d => d.deleteSq i cid qid

/-- DELETE_IO_CQ (R260). -/
def execDeleteIoCq (i : Nat) (cid : Nat) (qid : Nat) (s : State) : Host.Outcome State Fault Refusal := act (decide (i < 4096 ∧ cid < 65536 ∧ qid < 65536)) s fun d => d.deleteCq i cid qid

/-- GET_LOG_PAGE (R151). -/
def execGetLogPage (i : Nat) (cid : Nat) (lid : Nat) (off : Nat) (len : Nat) (dst : Nat) (s : State) : Host.Outcome State Fault Refusal := act (decide (i < 4096 ∧ cid < 65536 ∧ lid < 256)) s fun d => d.getLogPage i cid lid off len dst

/-- IDENTIFY (R260). -/
def execIdentify (i : Nat) (cid : Nat) (cns : Nat) (nsid : Nat) (dst : Nat) (s : State) : Host.Outcome State Fault Refusal := act (decide (i < 4096 ∧ cid < 65536 ∧ cns < 256)) s fun d => d.identify i cid cns nsid dst

/-- ABORT (R260). -/
def execAbort (i : Nat) (cid : Nat) (sqid : Nat) (tgt : Nat) (s : State) : Host.Outcome State Fault Refusal := act (decide (i < 4096 ∧ cid < 65536 ∧ sqid < 65536 ∧ tgt < 65536)) s fun d => d.abortCmd i cid sqid tgt

/-- SET_FEATURES (R260). -/
def execSetFeatures (i : Nat) (cid : Nat) (fid : Nat) (v : Nat) (s : State) : Host.Outcome State Fault Refusal := act (decide (i < 4096 ∧ cid < 65536 ∧ fid < 256)) s fun d => d.setFeatures i cid fid v

/-- GET_FEATURES (R260). -/
def execGetFeatures (i : Nat) (cid : Nat) (fid : Nat) (s : State) : Host.Outcome State Fault Refusal := act (decide (i < 4096 ∧ cid < 65536 ∧ fid < 256)) s fun d => d.getFeatures i cid fid

/-- ASYNCHRONOUS_EVENT_REQUEST (R260). -/
def execAsynchronousEventRequest (i : Nat) (cid : Nat) (s : State) : Host.Outcome State Fault Refusal := act (decide (i < 4096 ∧ cid < 65536)) s fun d => d.asyncRequest i cid

/-- KEEP_ALIVE (R260). -/
def execKeepAlive (i : Nat) (cid : Nat) (s : State) : Host.Outcome State Fault Refusal := act (decide (i < 4096 ∧ cid < 65536)) s fun d => d.keepAlive i cid

/-- INVALID_COMMAND_OPCODE (R260). -/
def execInvalidCommandOpcode (q : Nat) (cid : Nat) (opc : Nat) (s : State) : Host.Outcome State Fault Refusal := act (decide (q < 16384 ∧ cid < 65536 ∧ opc < 256)) s fun d => d.invalidOpcode q cid opc

end Sys2Proof.Machine
end

