-- ==== Sys2Proof/Machine/CmdDict.lean ====
section
/-! DEFINITION. The meanings of the commands. The dictionary (16, 17). Each is the effect that its rule gives, on the device alone. -/
namespace Sys2Proof.Machine

/-- MCTP_PACKET_RECEIVE (R365). -/
def execMctpPacketReceive (tr : Nat) (eid : Nat) (tag : BitVec 3) (som : Bool) (eom : Bool) (seq : BitVec 2) (data : List Byte) (s : State) : Host.Outcome State Fault Refusal := act (decide (tr < 256 ∧ eid < 256)) s fun d => d.packet tr eid tag.toNat som eom seq.toNat data

/-- REASSEMBLY_TIMEOUT (R365). -/
def execReassemblyTimeout (tr : Nat) (eid : Nat) (tag : BitVec 3) (s : State) : Host.Outcome State Fault Refusal := act (decide (tr < 256 ∧ eid < 256)) s fun d => d.asmTimeout tr eid tag.toNat

/-- OPEN (R371). -/
def execOpenSession (r : Req) (body : List Byte) (s : State) : Host.Outcome State Fault Refusal := act (decide (r.tr < 256 ∧ r.eid < 256 ∧ r.tag < 8 ∧ r.sid < 256 ∧ r.reqId < 65536 ∧ r.counter < 2 ^ 48)) s fun d => d.request r 0x01 body

/-- PROVE (R372). -/
def execProve (r : Req) (body : List Byte) (s : State) : Host.Outcome State Fault Refusal := act (decide (r.tr < 256 ∧ r.eid < 256 ∧ r.tag < 8 ∧ r.sid < 256 ∧ r.reqId < 65536 ∧ r.counter < 2 ^ 48)) s fun d => d.request r 0x02 body

/-- READ (R361). -/
def execRead (r : Req) (body : List Byte) (s : State) : Host.Outcome State Fault Refusal := act (decide (r.tr < 256 ∧ r.eid < 256 ∧ r.tag < 8 ∧ r.sid < 256 ∧ r.reqId < 65536 ∧ r.counter < 2 ^ 48)) s fun d => d.request r 0x03 body

/-- WRITE (R360). -/
def execWrite (r : Req) (body : List Byte) (s : State) : Host.Outcome State Fault Refusal := act (decide (r.tr < 256 ∧ r.eid < 256 ∧ r.tag < 8 ∧ r.sid < 256 ∧ r.reqId < 65536 ∧ r.counter < 2 ^ 48)) s fun d => d.request r 0x04 body

/-- READ_BLOCK (R368). -/
def execReadBlock (r : Req) (body : List Byte) (s : State) : Host.Outcome State Fault Refusal := act (decide (r.tr < 256 ∧ r.eid < 256 ∧ r.tag < 8 ∧ r.sid < 256 ∧ r.reqId < 65536 ∧ r.counter < 2 ^ 48)) s fun d => d.request r 0x05 body

/-- WRITE_BLOCK (R368). -/
def execWriteBlock (r : Req) (body : List Byte) (s : State) : Host.Outcome State Fault Refusal := act (decide (r.tr < 256 ∧ r.eid < 256 ∧ r.tag < 8 ∧ r.sid < 256 ∧ r.reqId < 65536 ∧ r.counter < 2 ^ 48)) s fun d => d.request r 0x06 body

/-- COMMIT (R377). -/
def execCommit (r : Req) (body : List Byte) (s : State) : Host.Outcome State Fault Refusal := act (decide (r.tr < 256 ∧ r.eid < 256 ∧ r.tag < 8 ∧ r.sid < 256 ∧ r.reqId < 65536 ∧ r.counter < 2 ^ 48)) s fun d => d.request r 0x07 body

/-- DISCARD (R377). -/
def execDiscard (r : Req) (body : List Byte) (s : State) : Host.Outcome State Fault Refusal := act (decide (r.tr < 256 ∧ r.eid < 256 ∧ r.tag < 8 ∧ r.sid < 256 ∧ r.reqId < 65536 ∧ r.counter < 2 ^ 48)) s fun d => d.request r 0x08 body

/-- HEEL (R378). -/
def execHeel (r : Req) (body : List Byte) (s : State) : Host.Outcome State Fault Refusal := act (decide (r.tr < 256 ∧ r.eid < 256 ∧ r.tag < 8 ∧ r.sid < 256 ∧ r.reqId < 65536 ∧ r.counter < 2 ^ 48)) s fun d => d.request r 0x09 body

/-- CLOSE (R368). -/
def execClose (r : Req) (body : List Byte) (s : State) : Host.Outcome State Fault Refusal := act (decide (r.tr < 256 ∧ r.eid < 256 ∧ r.tag < 8 ∧ r.sid < 256 ∧ r.reqId < 65536 ∧ r.counter < 2 ^ 48)) s fun d => d.request r 0x0B body

/-- LOCKOUT_EXPIRE (R375). -/
def execLockoutExpire (role : Nat) (s : State) : Host.Outcome State Fault Refusal := act (decide (1 ≤ role ∧ role ≤ 3)) s fun d => d.lockExpire role

/-- PROVE_TIMEOUT (R371). -/
def execProveTimeout (i : Nat) (s : State) : Host.Outcome State Fault Refusal := act (decide (i < 16)) s fun d => d.proveTimeout i

/-- SESSION_IDLE_EXPIRE (R373). -/
def execSessionIdleExpire (i : Nat) (s : State) : Host.Outcome State Fault Refusal := act (decide (i < 16)) s fun d => d.idleExpire i

/-- SET_ENDPOINT_ID (R364). -/
def execSetEndpointId (tr : Nat) (eid : Nat) (op : Nat) (new : Nat) (s : State) : Host.Outcome State Fault Refusal := act (decide (tr < 256 ∧ eid < 256 ∧ op < 256 ∧ new < 256)) s fun d => d.setEid tr eid op new

/-- GET_ENDPOINT_ID (R364). -/
def execGetEndpointId (tr : Nat) (eid : Nat) (s : State) : Host.Outcome State Fault Refusal := act (decide (tr < 256 ∧ eid < 256)) s fun d => d.getEid tr eid

/-- GET_ENDPOINT_UUID (R364). -/
def execGetEndpointUuid (tr : Nat) (eid : Nat) (s : State) : Host.Outcome State Fault Refusal := act (decide (tr < 256 ∧ eid < 256)) s fun d => d.getUuid tr eid

/-- GET_MCTP_VERSION_SUPPORT (R364). -/
def execGetMctpVersionSupport (tr : Nat) (eid : Nat) (typ : Nat) (s : State) : Host.Outcome State Fault Refusal := act (decide (tr < 256 ∧ eid < 256 ∧ typ < 256)) s fun d => d.getVersions tr eid typ

/-- GET_MESSAGE_TYPE_SUPPORT (R364). -/
def execGetMessageTypeSupport (tr : Nat) (eid : Nat) (s : State) : Host.Outcome State Fault Refusal := act (decide (tr < 256 ∧ eid < 256)) s fun d => d.getTypes tr eid

/-- GET_VENDOR_DEFINED_MESSAGE_SUPPORT (R364). -/
def execGetVendorDefinedMessageSupport (tr : Nat) (eid : Nat) (sel : Nat) (s : State) : Host.Outcome State Fault Refusal := act (decide (tr < 256 ∧ eid < 256 ∧ sel < 256)) s fun d => d.getVdm tr eid sel

/-- UNSUPPORTED_CONTROL_COMMAND (R364). -/
def execUnsupportedControlCommand (tr : Nat) (eid : Nat) (cmd : Nat) (s : State) : Host.Outcome State Fault Refusal := act (decide (tr < 256 ∧ eid < 256 ∧ cmd < 256)) s fun d => d.badControl tr eid cmd

/-- FUSE_PROGRAM (R386). -/
def execFuseProgram (v : BitVec 384) (cut : Bool) (s : State) : Host.Outcome State Fault Refusal := act true s fun d => d.mgrRun uChip oFuseProgram v.toNat (Dev.fxFuseProgram · v.toNat cut)

/-- FUSE_LOCK (R385). -/
def execFuseLock (cut : Bool) (s : State) : Host.Outcome State Fault Refusal := act true s fun d => d.mgrRun uChip oFuseLock 1 (Dev.fxFuseLock · 1 cut)

end Sys2Proof.Machine
end

