-- ==== Sys2Proof/Machine/CmdDomains.lean ====
section
/-! DEFINITION. The meanings of the commands. Power domains (15). Each is the effect that its rule gives, on the device alone. -/
namespace Sys2Proof.Machine

/-- DOMAIN_REQUEST_ON (R347). -/
def execDomainRequestOn (u : Nat) (s : State) : Host.Outcome State Fault Refusal := act (decide (u < 65536)) s fun d => d.mgrWrite u oDomainRequest 0

/-- DOMAIN_REQUEST_RET (R345). -/
def execDomainRequestRet (u : Nat) (mute : List Nat) (s : State) : Host.Outcome State Fault Refusal := act (decide (u < 65536)) s fun d => d.mgrRun u oDomainRequest 1 (Dev.fxDomainRequest · u 1 mute)

/-- DOMAIN_REQUEST_OFF (R345). -/
def execDomainRequestOff (u : Nat) (mute : List Nat) (s : State) : Host.Outcome State Fault Refusal := act (decide (u < 65536)) s fun d => d.mgrRun u oDomainRequest 2 (Dev.fxDomainRequest · u 2 mute)

/-- DOMAIN_ENTRY_COMPLETE (R344). -/
def execDomainEntryComplete (u : Nat) (s : State) : Host.Outcome State Fault Refusal := act (decide (u < 65536)) s fun d => d.entryComplete u

/-- INRUSH_GRANT (R351). -/
def execInrushGrant (s : State) : Host.Outcome State Fault Refusal := act true s fun d => d.inrushGrant

/-- DOMAIN_READY (R347). -/
def execDomainReady (u : Nat) (s : State) : Host.Outcome State Fault Refusal := act (decide (u < 65536)) s fun d => d.domainReady u

/-- TRANSACTION_ARRIVAL (R348). -/
def execTransactionArrival (u : Nat) (tag : Nat) (acc : Nat) (addr : Nat) (data : Nat) (s : State) : Host.Outcome State Fault Refusal := act (decide (u < 65536)) s fun d => d.transaction u tag acc addr data

/-- DOMAIN_LOCK (R349). -/
def execDomainLock (u : Nat) (mute : List Nat) (s : State) : Host.Outcome State Fault Refusal := act (decide (u < 65536)) s fun d => d.mgrRun u oDomainLock 1 (Dev.fxDomainLock · u 1 mute)

/-- PAD_RELEASE (R354). -/
def execPadRelease (u : Nat) (s : State) : Host.Outcome State Fault Refusal := act (decide (u < 65536)) s fun d => d.mgrWrite u oPadRelease 1

/-- SUPERVISOR_IDLE_EXPIRE (R355). -/
def execSupervisorIdleExpire (s : State) : Host.Outcome State Fault Refusal := act true s fun d => d.supIdle

/-- ADDRESS_MATCH_WAKE (R356). -/
def execAddressMatchWake (i3c : Bool) (addr : BitVec 7) (s : State) : Host.Outcome State Fault Refusal := act true s fun d => d.addressMatch i3c addr.toNat

/-- SUPERVISOR_WAKE_EVENT (R355). -/
def execSupervisorWakeEvent (s : State) : Host.Outcome State Fault Refusal := act true s fun d => d.supWakeEvent

/-- STRETCH_OVERRUN (R356). -/
def execStretchOverrun (s : State) : Host.Outcome State Fault Refusal := act true s fun d => d.stretchOverrun

end Sys2Proof.Machine
end

