-- ==== Sys2Proof/Machine/CmdEngines.lean ====
section
/-! DEFINITION. The meanings of the commands. DMA and the offload engines (09, 10). Each is the effect that its rule gives, on the device alone. -/
namespace Sys2Proof.Machine

/-- DMA_COPY (R217). -/
def execDmaCopy (i : Nat) (queue : Nat) (raw : BitVec 512) (n : Nat) (s : State) : Host.Outcome State Fault Refusal := act (decide (i < 1024 ∧ queue < 65536)) s fun d => d.dmaCopy i queue raw n

/-- DMA_FILL (R217). -/
def execDmaFill (i : Nat) (queue : Nat) (raw : BitVec 512) (n : Nat) (s : State) : Host.Outcome State Fault Refusal := act (decide (i < 1024 ∧ queue < 65536)) s fun d => d.dmaFill i queue raw n

/-- DMA_HOST_READ (R221). -/
def execDmaHostRead (i : Nat) (queue : Nat) (raw : BitVec 512) (n : Nat) (grant : Bool) (data : List Byte) (s : State) : Host.Outcome State Fault Refusal := act (decide (i < 1024 ∧ queue < 65536)) s fun d => d.dmaHostRead i queue raw n grant data

/-- DMA_HOST_WRITE (R221). -/
def execDmaHostWrite (i : Nat) (queue : Nat) (raw : BitVec 512) (n : Nat) (grant : Bool) (s : State) : Host.Outcome State Fault Refusal := act (decide (i < 1024 ∧ queue < 65536)) s fun d => d.dmaHostWrite i queue raw n grant

/-- DMA_VOLUME_READ (R216). -/
def execDmaVolumeRead (i : Nat) (queue : Nat) (raw : BitVec 512) (n : Nat) (s : State) : Host.Outcome State Fault Refusal := act (decide (i < 1024 ∧ queue < 65536)) s fun d => d.dmaVolumeRead i queue raw n

/-- DMA_VOLUME_WRITE (R216). -/
def execDmaVolumeWrite (i : Nat) (queue : Nat) (raw : BitVec 512) (n : Nat) (s : State) : Host.Outcome State Fault Refusal := act (decide (i < 1024 ∧ queue < 65536)) s fun d => d.dmaVolumeWrite i queue raw n

/-- DMA_CHANNEL_RESUME (R219). -/
def execDmaChannelResume (a : Nat) (s : State) : Host.Outcome State Fault Refusal := act (decide (a < 1344)) s fun d => d.activityResume a

/-- DMA_FAULT_END (R219). -/
def execDmaFaultEnd (a : Nat) (s : State) : Host.Outcome State Fault Refusal := act (decide (a < 1344)) s fun d => d.activityFaultEnd a

/-- DMA_DESCRIPTOR_COMPLETE (R267). -/
def execDmaDescriptorComplete (i : Nat) (s : State) : Host.Outcome State Fault Refusal := act (decide (i < 1024)) s fun d => d.dmaComplete i

/-- PAGE_RESPONSE_RECEIVE (R221). -/
def execPageResponseReceive (prg : Nat) (ok : Bool) (s : State) : Host.Outcome State Fault Refusal := act true s fun d => d.pageResponse prg ok

/-- HOST_PAGE_TIMEOUT (R221). -/
def execHostPageTimeout (prg : Nat) (s : State) : Host.Outcome State Fault Refusal := act true s fun d => d.pageTimeout prg

/-- TLB_INVALIDATE (R212). -/
def execTlbInvalidate (asid : Nat) (host : Bool) (va : Nat) (s : State) : Host.Outcome State Fault Refusal := act true s fun d => d.opTlbInvalidate asid host va

/-- DEFLATE_COMPRESS (R238). -/
def execDeflateCompress (i : Nat) (queue : Nat) (raw : BitVec 1024) (n : Nat) (s : State) : Host.Outcome State Fault Refusal := act (decide (i < 320 ∧ queue < 65536)) s fun d => d.deflateCompress i queue raw n

/-- DEFLATE_DECOMPRESS (R238). -/
def execDeflateDecompress (i : Nat) (queue : Nat) (raw : BitVec 1024) (n : Nat) (s : State) : Host.Outcome State Fault Refusal := act (decide (i < 320 ∧ queue < 65536)) s fun d => d.deflateDecompress i queue raw n

/-- ZSTANDARD_COMPRESS (R238). -/
def execZstandardCompress (i : Nat) (queue : Nat) (raw : BitVec 1024) (n : Nat) (s : State) : Host.Outcome State Fault Refusal := act (decide (i < 320 ∧ queue < 65536)) s fun d => d.zstandardCompress i queue raw n

/-- ZSTANDARD_DECOMPRESS (R238). -/
def execZstandardDecompress (i : Nat) (queue : Nat) (raw : BitVec 1024) (n : Nat) (s : State) : Host.Outcome State Fault Refusal := act (decide (i < 320 ∧ queue < 65536)) s fun d => d.zstandardDecompress i queue raw n

/-- LZ4_COMPRESS (R238). -/
def execLz4Compress (i : Nat) (queue : Nat) (raw : BitVec 1024) (n : Nat) (s : State) : Host.Outcome State Fault Refusal := act (decide (i < 320 ∧ queue < 65536)) s fun d => d.lz4Compress i queue raw n

/-- LZ4_DECOMPRESS (R238). -/
def execLz4Decompress (i : Nat) (queue : Nat) (raw : BitVec 1024) (n : Nat) (s : State) : Host.Outcome State Fault Refusal := act (decide (i < 320 ∧ queue < 65536)) s fun d => d.lz4Decompress i queue raw n

/-- SCAN_ROW (R240). -/
def execScanRow (i : Nat) (queue : Nat) (raw : BitVec 1024) (n : Nat) (s : State) : Host.Outcome State Fault Refusal := act (decide (i < 320 ∧ queue < 65536)) s fun d => d.scanRow i queue raw n

/-- SCAN_COLUMN (R240). -/
def execScanColumn (i : Nat) (queue : Nat) (raw : BitVec 1024) (n : Nat) (s : State) : Host.Outcome State Fault Refusal := act (decide (i < 320 ∧ queue < 65536)) s fun d => d.scanColumn i queue raw n

/-- HASH_PROBE (R241). -/
def execHashProbe (i : Nat) (queue : Nat) (raw : BitVec 1024) (n : Nat) (s : State) : Host.Outcome State Fault Refusal := act (decide (i < 320 ∧ queue < 65536)) s fun d => d.opHashProbe i queue raw n

/-- BLOOM_TEST (R241). -/
def execBloomTest (i : Nat) (queue : Nat) (raw : BitVec 1024) (n : Nat) (s : State) : Host.Outcome State Fault Refusal := act (decide (i < 320 ∧ queue < 65536)) s fun d => d.opBloomTest i queue raw n

/-- RUN_SEARCH (R241). -/
def execRunSearch (i : Nat) (queue : Nat) (raw : BitVec 1024) (n : Nat) (s : State) : Host.Outcome State Fault Refusal := act (decide (i < 320 ∧ queue < 65536)) s fun d => d.opRunSearch i queue raw n

/-- XTS_ENCRYPT (R242). -/
def execXtsEncrypt (i : Nat) (queue : Nat) (raw : BitVec 1024) (n : Nat) (s : State) : Host.Outcome State Fault Refusal := act (decide (i < 320 ∧ queue < 65536)) s fun d => d.xtsEncrypt i queue raw n

/-- XTS_DECRYPT (R242). -/
def execXtsDecrypt (i : Nat) (queue : Nat) (raw : BitVec 1024) (n : Nat) (s : State) : Host.Outcome State Fault Refusal := act (decide (i < 320 ∧ queue < 65536)) s fun d => d.xtsDecrypt i queue raw n

/-- SHA_256 (R243). -/
def execSha256 (i : Nat) (queue : Nat) (raw : BitVec 1024) (n : Nat) (s : State) : Host.Outcome State Fault Refusal := act (decide (i < 320 ∧ queue < 65536)) s fun d => d.opSha256 i queue raw n

/-- SHA_384 (R243). -/
def execSha384 (i : Nat) (queue : Nat) (raw : BitVec 1024) (n : Nat) (s : State) : Host.Outcome State Fault Refusal := act (decide (i < 320 ∧ queue < 65536)) s fun d => d.opSha384 i queue raw n

/-- RS_ENCODE (R244). -/
def execRsEncode (i : Nat) (queue : Nat) (raw : BitVec 1024) (n : Nat) (s : State) : Host.Outcome State Fault Refusal := act (decide (i < 320 ∧ queue < 65536)) s fun d => d.rsEncode i queue raw n

/-- RS_RECONSTRUCT (R244). -/
def execRsReconstruct (i : Nat) (queue : Nat) (raw : BitVec 1024) (n : Nat) (s : State) : Host.Outcome State Fault Refusal := act (decide (i < 320 ∧ queue < 65536)) s fun d => d.rsReconstruct i queue raw n

/-- ENGINE_JOB_COMPLETE (R235). -/
def execEngineJobComplete (i : Nat) (s : State) : Host.Outcome State Fault Refusal := act (decide (i < 320)) s fun d => d.engineComplete i

/-- KEY_SLOT_LOAD (R245). -/
def execKeySlotLoad (u : Nat) (v : BitVec 576) (s : State) : Host.Outcome State Fault Refusal := act (decide (u < 65536)) s fun d => d.mgrWrite u oKeySlotLoad v.toNat

end Sys2Proof.Machine
end

