-- ==== Sys2Proof/Machine/CmdErril.lean ====
section
/-! DEFINITION. The meanings of the commands. Erril: traps, system and register instructions (08, 09). Each is the effect that its rule gives, on the device alone. -/
namespace Sys2Proof.Machine

/-- SLICE_EXPIRE (R222). -/
def execSliceExpire (core : BitVec 6) (s : State) : Host.Outcome State Fault Refusal := act true s fun d => d.sliceExpire core.toNat

/-- ASYNC_TRAP_TAKE (R195). -/
def execAsyncTrapTake (core : BitVec 6) (s : State) : Host.Outcome State Fault Refusal := act true s fun d => d.asyncTrapTake core.toNat

/-- ILLEGAL_INSTRUCTION (R186). -/
def execIllegalInstruction (core : BitVec 6) (w : BitVec 32) (s : State) : Host.Outcome State Fault Refusal := act true s fun d => d.opIllegal core.toNat w

/-- NOP (R186). -/
def execNop (core : BitVec 6) (s : State) : Host.Outcome State Fault Refusal := act true s fun d => d.opNop core.toNat

/-- TRAP (R197). -/
def execTrap (core : BitVec 6) (code : BitVec 10) (s : State) : Host.Outcome State Fault Refusal := act true s fun d => d.opTrap core.toNat code.toNat

/-- URET (R196). -/
def execUret (core : BitVec 6) (s : State) : Host.Outcome State Fault Refusal := act true s fun d => d.opUret core.toNat

/-- SRET (R196). -/
def execSret (core : BitVec 6) (s : State) : Host.Outcome State Fault Refusal := act true s fun d => d.opSret core.toNat

/-- FENCE (R179). -/
def execFence (core : BitVec 6) (s : State) : Host.Outcome State Fault Refusal := act true s fun d => d.opFence core.toNat

/-- IFENCE (R179). -/
def execIfence (core : BitVec 6) (s : State) : Host.Outcome State Fault Refusal := act true s fun d => d.opIfence core.toNat

/-- WFI (R186). -/
def execWfi (core : BitVec 6) (s : State) : Host.Outcome State Fault Refusal := act true s fun d => d.opWfi core.toNat

/-- MFC (R181). -/
def execMfc (core : BitVec 6) (rd : BitVec 5) (cr : BitVec 5) (s : State) : Host.Outcome State Fault Refusal := act true s fun d => d.opMfc core.toNat rd.toNat cr.toNat

/-- MTC (R181). -/
def execMtc (core : BitVec 6) (cr : BitVec 5) (ra : BitVec 5) (s : State) : Host.Outcome State Fault Refusal := act true s fun d => d.opMtc core.toNat cr.toNat ra.toNat

/-- LCLR (R190). -/
def execLclr (core : BitVec 6) (rc : BitVec 5) (s : State) : Host.Outcome State Fault Refusal := act true s fun d => d.opLclr core.toNat rc.toNat

/-- YIELD (R197). -/
def execYield (core : BitVec 6) (s : State) : Host.Outcome State Fault Refusal := act true s fun d => d.opYield core.toNat

/-- ADD (R187). -/
def execAdd (core : BitVec 6) (rd : BitVec 5) (ra : BitVec 5) (rb : BitVec 5) (s : State) : Host.Outcome State Fault Refusal := act true s fun d => d.opAdd core.toNat rd.toNat ra.toNat rb.toNat

/-- ADDC (R187). -/
def execAddc (core : BitVec 6) (rd : BitVec 5) (ra : BitVec 5) (rb : BitVec 5) (s : State) : Host.Outcome State Fault Refusal := act true s fun d => d.opAddc core.toNat rd.toNat ra.toNat rb.toNat

/-- SUB (R187). -/
def execSub (core : BitVec 6) (rd : BitVec 5) (ra : BitVec 5) (rb : BitVec 5) (s : State) : Host.Outcome State Fault Refusal := act true s fun d => d.opSub core.toNat rd.toNat ra.toNat rb.toNat

/-- SUBB (R187). -/
def execSubb (core : BitVec 6) (rd : BitVec 5) (ra : BitVec 5) (rb : BitVec 5) (s : State) : Host.Outcome State Fault Refusal := act true s fun d => d.opSubb core.toNat rd.toNat ra.toNat rb.toNat

/-- NEG (R188). -/
def execNeg (core : BitVec 6) (rd : BitVec 5) (ra : BitVec 5) (s : State) : Host.Outcome State Fault Refusal := act true s fun d => d.opNeg core.toNat rd.toNat ra.toNat

/-- CMP (R187). -/
def execCmp (core : BitVec 6) (ra : BitVec 5) (rb : BitVec 5) (s : State) : Host.Outcome State Fault Refusal := act true s fun d => d.opCmp core.toNat ra.toNat rb.toNat

/-- AND (R187). -/
def execAnd (core : BitVec 6) (rd : BitVec 5) (ra : BitVec 5) (rb : BitVec 5) (s : State) : Host.Outcome State Fault Refusal := act true s fun d => d.opAnd core.toNat rd.toNat ra.toNat rb.toNat

/-- OR (R187). -/
def execOr (core : BitVec 6) (rd : BitVec 5) (ra : BitVec 5) (rb : BitVec 5) (s : State) : Host.Outcome State Fault Refusal := act true s fun d => d.opOr core.toNat rd.toNat ra.toNat rb.toNat

/-- XOR (R187). -/
def execXor (core : BitVec 6) (rd : BitVec 5) (ra : BitVec 5) (rb : BitVec 5) (s : State) : Host.Outcome State Fault Refusal := act true s fun d => d.opXor core.toNat rd.toNat ra.toNat rb.toNat

/-- ANDN (R187). -/
def execAndn (core : BitVec 6) (rd : BitVec 5) (ra : BitVec 5) (rb : BitVec 5) (s : State) : Host.Outcome State Fault Refusal := act true s fun d => d.opAndn core.toNat rd.toNat ra.toNat rb.toNat

/-- SLL (R188). -/
def execSll (core : BitVec 6) (rd : BitVec 5) (ra : BitVec 5) (rb : BitVec 5) (s : State) : Host.Outcome State Fault Refusal := act true s fun d => d.opSll core.toNat rd.toNat ra.toNat rb.toNat

/-- SRL (R188). -/
def execSrl (core : BitVec 6) (rd : BitVec 5) (ra : BitVec 5) (rb : BitVec 5) (s : State) : Host.Outcome State Fault Refusal := act true s fun d => d.opSrl core.toNat rd.toNat ra.toNat rb.toNat

/-- SRA (R188). -/
def execSra (core : BitVec 6) (rd : BitVec 5) (ra : BitVec 5) (rb : BitVec 5) (s : State) : Host.Outcome State Fault Refusal := act true s fun d => d.opSra core.toNat rd.toNat ra.toNat rb.toNat

/-- ROL (R188). -/
def execRol (core : BitVec 6) (rd : BitVec 5) (ra : BitVec 5) (rb : BitVec 5) (s : State) : Host.Outcome State Fault Refusal := act true s fun d => d.opRol core.toNat rd.toNat ra.toNat rb.toNat

/-- ROR (R188). -/
def execRor (core : BitVec 6) (rd : BitVec 5) (ra : BitVec 5) (rb : BitVec 5) (s : State) : Host.Outcome State Fault Refusal := act true s fun d => d.opRor core.toNat rd.toNat ra.toNat rb.toNat

/-- MIN (R187). -/
def execMin (core : BitVec 6) (rd : BitVec 5) (ra : BitVec 5) (rb : BitVec 5) (s : State) : Host.Outcome State Fault Refusal := act true s fun d => d.opMin core.toNat rd.toNat ra.toNat rb.toNat

/-- MAX (R187). -/
def execMax (core : BitVec 6) (rd : BitVec 5) (ra : BitVec 5) (rb : BitVec 5) (s : State) : Host.Outcome State Fault Refusal := act true s fun d => d.opMax core.toNat rd.toNat ra.toNat rb.toNat

/-- MINU (R187). -/
def execMinu (core : BitVec 6) (rd : BitVec 5) (ra : BitVec 5) (rb : BitVec 5) (s : State) : Host.Outcome State Fault Refusal := act true s fun d => d.opMinu core.toNat rd.toNat ra.toNat rb.toNat

/-- MAXU (R187). -/
def execMaxu (core : BitVec 6) (rd : BitVec 5) (ra : BitVec 5) (rb : BitVec 5) (s : State) : Host.Outcome State Fault Refusal := act true s fun d => d.opMaxu core.toNat rd.toNat ra.toNat rb.toNat

/-- SLT (R187). -/
def execSlt (core : BitVec 6) (rd : BitVec 5) (ra : BitVec 5) (rb : BitVec 5) (s : State) : Host.Outcome State Fault Refusal := act true s fun d => d.opSlt core.toNat rd.toNat ra.toNat rb.toNat

/-- SLTU (R187). -/
def execSltu (core : BitVec 6) (rd : BitVec 5) (ra : BitVec 5) (rb : BitVec 5) (s : State) : Host.Outcome State Fault Refusal := act true s fun d => d.opSltu core.toNat rd.toNat ra.toNat rb.toNat

/-- CLZ (R188). -/
def execClz (core : BitVec 6) (rd : BitVec 5) (ra : BitVec 5) (s : State) : Host.Outcome State Fault Refusal := act true s fun d => d.opClz core.toNat rd.toNat ra.toNat

/-- CTZ (R188). -/
def execCtz (core : BitVec 6) (rd : BitVec 5) (ra : BitVec 5) (s : State) : Host.Outcome State Fault Refusal := act true s fun d => d.opCtz core.toNat rd.toNat ra.toNat

/-- POPC (R187). -/
def execPopc (core : BitVec 6) (rd : BitVec 5) (ra : BitVec 5) (s : State) : Host.Outcome State Fault Refusal := act true s fun d => d.opPopc core.toNat rd.toNat ra.toNat

/-- BSWAP (R187). -/
def execBswap (core : BitVec 6) (rd : BitVec 5) (ra : BitVec 5) (s : State) : Host.Outcome State Fault Refusal := act true s fun d => d.opBswap core.toNat rd.toNat ra.toNat

/-- CSEL (R186). -/
def execCsel (core : BitVec 6) (rd : BitVec 5) (ra : BitVec 5) (rb : BitVec 5) (cc : BitVec 5) (s : State) : Host.Outcome State Fault Refusal := act true s fun d => d.opCsel core.toNat rd.toNat ra.toNat rb.toNat cc.toNat

/-- MUL (R187). -/
def execMul (core : BitVec 6) (rd : BitVec 5) (ra : BitVec 5) (rb : BitVec 5) (s : State) : Host.Outcome State Fault Refusal := act true s fun d => d.opMul core.toNat rd.toNat ra.toNat rb.toNat

/-- MULH (R187). -/
def execMulh (core : BitVec 6) (rd : BitVec 5) (ra : BitVec 5) (rb : BitVec 5) (s : State) : Host.Outcome State Fault Refusal := act true s fun d => d.opMulh core.toNat rd.toNat ra.toNat rb.toNat

/-- MULHU (R187). -/
def execMulhu (core : BitVec 6) (rd : BitVec 5) (ra : BitVec 5) (rb : BitVec 5) (s : State) : Host.Outcome State Fault Refusal := act true s fun d => d.opMulhu core.toNat rd.toNat ra.toNat rb.toNat

/-- DIV (R189). -/
def execDiv (core : BitVec 6) (rd : BitVec 5) (ra : BitVec 5) (rb : BitVec 5) (rc : BitVec 5) (s : State) : Host.Outcome State Fault Refusal := act true s fun d => d.opDiv core.toNat rd.toNat ra.toNat rb.toNat rc.toNat

/-- DIVU (R189). -/
def execDivu (core : BitVec 6) (rd : BitVec 5) (ra : BitVec 5) (rb : BitVec 5) (rc : BitVec 5) (s : State) : Host.Outcome State Fault Refusal := act true s fun d => d.opDivu core.toNat rd.toNat ra.toNat rb.toNat rc.toNat

end Sys2Proof.Machine
end

