-- ==== Sys2Proof/Machine/CmdErrilMem.lean ====
section
/-! DEFINITION. The meanings of the commands. Erril: immediates, memory, control flow and strings (08). Each is the effect that its rule gives, on the device alone. -/
namespace Sys2Proof.Machine

/-- ADDI (R187). -/
def execAddi (core : BitVec 6) (rd : BitVec 5) (ra : BitVec 5) (imm : BitVec 16) (s : State) : Host.Outcome State Fault Refusal := act true s fun d => d.opAddi core.toNat rd.toNat ra.toNat imm

/-- ANDI (R187). -/
def execAndi (core : BitVec 6) (rd : BitVec 5) (ra : BitVec 5) (imm : BitVec 16) (s : State) : Host.Outcome State Fault Refusal := act true s fun d => d.opAndi core.toNat rd.toNat ra.toNat imm

/-- ORI (R187). -/
def execOri (core : BitVec 6) (rd : BitVec 5) (ra : BitVec 5) (imm : BitVec 16) (s : State) : Host.Outcome State Fault Refusal := act true s fun d => d.opOri core.toNat rd.toNat ra.toNat imm

/-- XORI (R187). -/
def execXori (core : BitVec 6) (rd : BitVec 5) (ra : BitVec 5) (imm : BitVec 16) (s : State) : Host.Outcome State Fault Refusal := act true s fun d => d.opXori core.toNat rd.toNat ra.toNat imm

/-- CMPI (R187). -/
def execCmpi (core : BitVec 6) (ra : BitVec 5) (imm : BitVec 16) (s : State) : Host.Outcome State Fault Refusal := act true s fun d => d.opCmpi core.toNat ra.toNat imm

/-- MOVZ (R186). -/
def execMovz (core : BitVec 6) (rd : BitVec 5) (h : BitVec 5) (imm : BitVec 16) (s : State) : Host.Outcome State Fault Refusal := act true s fun d => d.opMovz core.toNat rd.toNat h.toNat imm

/-- MOVK (R186). -/
def execMovk (core : BitVec 6) (rd : BitVec 5) (h : BitVec 5) (imm : BitVec 16) (s : State) : Host.Outcome State Fault Refusal := act true s fun d => d.opMovk core.toNat rd.toNat h.toNat imm

/-- SLLI (R188). -/
def execSlli (core : BitVec 6) (rd : BitVec 5) (ra : BitVec 5) (imm : BitVec 16) (s : State) : Host.Outcome State Fault Refusal := act true s fun d => d.opSlli core.toNat rd.toNat ra.toNat imm

/-- SRLI (R188). -/
def execSrli (core : BitVec 6) (rd : BitVec 5) (ra : BitVec 5) (imm : BitVec 16) (s : State) : Host.Outcome State Fault Refusal := act true s fun d => d.opSrli core.toNat rd.toNat ra.toNat imm

/-- SRAI (R188). -/
def execSrai (core : BitVec 6) (rd : BitVec 5) (ra : BitVec 5) (imm : BitVec 16) (s : State) : Host.Outcome State Fault Refusal := act true s fun d => d.opSrai core.toNat rd.toNat ra.toNat imm

/-- RORI (R188). -/
def execRori (core : BitVec 6) (rd : BitVec 5) (ra : BitVec 5) (imm : BitVec 16) (s : State) : Host.Outcome State Fault Refusal := act true s fun d => d.opRori core.toNat rd.toNat ra.toNat imm

/-- LD (R182). -/
def execLd (core : BitVec 6) (rt : BitVec 5) (base : BitVec 5) (k : BitVec 3) (d12 : BitVec 12) (s : State) : Host.Outcome State Fault Refusal := act true s fun d => d.opLd core.toNat rt.toNat base.toNat k.toNat d12

/-- LW (R182). -/
def execLw (core : BitVec 6) (rt : BitVec 5) (base : BitVec 5) (k : BitVec 3) (d12 : BitVec 12) (s : State) : Host.Outcome State Fault Refusal := act true s fun d => d.opLw core.toNat rt.toNat base.toNat k.toNat d12

/-- LWS (R182). -/
def execLws (core : BitVec 6) (rt : BitVec 5) (base : BitVec 5) (k : BitVec 3) (d12 : BitVec 12) (s : State) : Host.Outcome State Fault Refusal := act true s fun d => d.opLws core.toNat rt.toNat base.toNat k.toNat d12

/-- LH (R182). -/
def execLh (core : BitVec 6) (rt : BitVec 5) (base : BitVec 5) (k : BitVec 3) (d12 : BitVec 12) (s : State) : Host.Outcome State Fault Refusal := act true s fun d => d.opLh core.toNat rt.toNat base.toNat k.toNat d12

/-- LHS (R182). -/
def execLhs (core : BitVec 6) (rt : BitVec 5) (base : BitVec 5) (k : BitVec 3) (d12 : BitVec 12) (s : State) : Host.Outcome State Fault Refusal := act true s fun d => d.opLhs core.toNat rt.toNat base.toNat k.toNat d12

/-- LB (R182). -/
def execLb (core : BitVec 6) (rt : BitVec 5) (base : BitVec 5) (k : BitVec 3) (d12 : BitVec 12) (s : State) : Host.Outcome State Fault Refusal := act true s fun d => d.opLb core.toNat rt.toNat base.toNat k.toNat d12

/-- LBS (R182). -/
def execLbs (core : BitVec 6) (rt : BitVec 5) (base : BitVec 5) (k : BitVec 3) (d12 : BitVec 12) (s : State) : Host.Outcome State Fault Refusal := act true s fun d => d.opLbs core.toNat rt.toNat base.toNat k.toNat d12

/-- ST (R182). -/
def execSt (core : BitVec 6) (rt : BitVec 5) (base : BitVec 5) (k : BitVec 3) (d12 : BitVec 12) (s : State) : Host.Outcome State Fault Refusal := act true s fun d => d.opSt core.toNat rt.toNat base.toNat k.toNat d12

/-- SW (R182). -/
def execSw (core : BitVec 6) (rt : BitVec 5) (base : BitVec 5) (k : BitVec 3) (d12 : BitVec 12) (s : State) : Host.Outcome State Fault Refusal := act true s fun d => d.opSw core.toNat rt.toNat base.toNat k.toNat d12

/-- SH (R182). -/
def execSh (core : BitVec 6) (rt : BitVec 5) (base : BitVec 5) (k : BitVec 3) (d12 : BitVec 12) (s : State) : Host.Outcome State Fault Refusal := act true s fun d => d.opSh core.toNat rt.toNat base.toNat k.toNat d12

/-- SB (R182). -/
def execSb (core : BitVec 6) (rt : BitVec 5) (base : BitVec 5) (k : BitVec 3) (d12 : BitVec 12) (s : State) : Host.Outcome State Fault Refusal := act true s fun d => d.opSb core.toNat rt.toNat base.toNat k.toNat d12

/-- LD_SHORT (R182). -/
def execLdShort (core : BitVec 6) (rt : BitVec 5) (k : BitVec 3) (a20 : BitVec 20) (s : State) : Host.Outcome State Fault Refusal := act true s fun d => d.opLdShort core.toNat rt.toNat k.toNat a20

/-- LW_SHORT (R182). -/
def execLwShort (core : BitVec 6) (rt : BitVec 5) (k : BitVec 3) (a20 : BitVec 20) (s : State) : Host.Outcome State Fault Refusal := act true s fun d => d.opLwShort core.toNat rt.toNat k.toNat a20

/-- ST_SHORT (R182). -/
def execStShort (core : BitVec 6) (rt : BitVec 5) (k : BitVec 3) (a20 : BitVec 20) (s : State) : Host.Outcome State Fault Refusal := act true s fun d => d.opStShort core.toNat rt.toNat k.toNat a20

/-- SW_SHORT (R182). -/
def execSwShort (core : BitVec 6) (rt : BitVec 5) (k : BitVec 3) (a20 : BitVec 20) (s : State) : Host.Outcome State Fault Refusal := act true s fun d => d.opSwShort core.toNat rt.toNat k.toNat a20

/-- VLD (R193). -/
def execVld (core : BitVec 6) (vt : BitVec 5) (base : BitVec 5) (k : BitVec 3) (d12 : BitVec 12) (s : State) : Host.Outcome State Fault Refusal := act true s fun d => d.opVld core.toNat vt.toNat base.toNat k.toNat d12

/-- VST (R193). -/
def execVst (core : BitVec 6) (vt : BitVec 5) (base : BitVec 5) (k : BitVec 3) (d12 : BitVec 12) (s : State) : Host.Outcome State Fault Refusal := act true s fun d => d.opVst core.toNat vt.toNat base.toNat k.toNat d12

/-- AMO_SWAP (R194). -/
def execAmoSwap (core : BitVec 6) (rd : BitVec 5) (base : BitVec 5) (k : BitVec 3) (rb : BitVec 5) (s : State) : Host.Outcome State Fault Refusal := act true s fun d => d.opAmoSwap core.toNat rd.toNat base.toNat k.toNat rb.toNat

/-- AMO_ADD (R194). -/
def execAmoAdd (core : BitVec 6) (rd : BitVec 5) (base : BitVec 5) (k : BitVec 3) (rb : BitVec 5) (s : State) : Host.Outcome State Fault Refusal := act true s fun d => d.opAmoAdd core.toNat rd.toNat base.toNat k.toNat rb.toNat

/-- AMO_AND (R194). -/
def execAmoAnd (core : BitVec 6) (rd : BitVec 5) (base : BitVec 5) (k : BitVec 3) (rb : BitVec 5) (s : State) : Host.Outcome State Fault Refusal := act true s fun d => d.opAmoAnd core.toNat rd.toNat base.toNat k.toNat rb.toNat

/-- AMO_OR (R194). -/
def execAmoOr (core : BitVec 6) (rd : BitVec 5) (base : BitVec 5) (k : BitVec 3) (rb : BitVec 5) (s : State) : Host.Outcome State Fault Refusal := act true s fun d => d.opAmoOr core.toNat rd.toNat base.toNat k.toNat rb.toNat

/-- AMO_XOR (R194). -/
def execAmoXor (core : BitVec 6) (rd : BitVec 5) (base : BitVec 5) (k : BitVec 3) (rb : BitVec 5) (s : State) : Host.Outcome State Fault Refusal := act true s fun d => d.opAmoXor core.toNat rd.toNat base.toNat k.toNat rb.toNat

/-- AMO_MIN (R194). -/
def execAmoMin (core : BitVec 6) (rd : BitVec 5) (base : BitVec 5) (k : BitVec 3) (rb : BitVec 5) (s : State) : Host.Outcome State Fault Refusal := act true s fun d => d.opAmoMin core.toNat rd.toNat base.toNat k.toNat rb.toNat

/-- AMO_MAX (R194). -/
def execAmoMax (core : BitVec 6) (rd : BitVec 5) (base : BitVec 5) (k : BitVec 3) (rb : BitVec 5) (s : State) : Host.Outcome State Fault Refusal := act true s fun d => d.opAmoMax core.toNat rd.toNat base.toNat k.toNat rb.toNat

/-- AMO_MINU (R194). -/
def execAmoMinu (core : BitVec 6) (rd : BitVec 5) (base : BitVec 5) (k : BitVec 3) (rb : BitVec 5) (s : State) : Host.Outcome State Fault Refusal := act true s fun d => d.opAmoMinu core.toNat rd.toNat base.toNat k.toNat rb.toNat

/-- AMO_MAXU (R194). -/
def execAmoMaxu (core : BitVec 6) (rd : BitVec 5) (base : BitVec 5) (k : BitVec 3) (rb : BitVec 5) (s : State) : Host.Outcome State Fault Refusal := act true s fun d => d.opAmoMaxu core.toNat rd.toNat base.toNat k.toNat rb.toNat

/-- AMO_CAS (R194). -/
def execAmoCas (core : BitVec 6) (rd : BitVec 5) (base : BitVec 5) (k : BitVec 3) (rb : BitVec 5) (s : State) : Host.Outcome State Fault Refusal := act true s fun d => d.opAmoCas core.toNat rd.toNat base.toNat k.toNat rb.toNat

/-- PREF (R186). -/
def execPref (core : BitVec 6) (base : BitVec 5) (k : BitVec 3) (d12 : BitVec 12) (s : State) : Host.Outcome State Fault Refusal := act true s fun d => d.opPref core.toNat base.toNat k.toNat d12

/-- BEQ (R186). -/
def execBeq (core : BitVec 6) (ra : BitVec 5) (rb : BitVec 5) (d16 : BitVec 16) (s : State) : Host.Outcome State Fault Refusal := act true s fun d => d.opBeq core.toNat ra.toNat rb.toNat d16

/-- BNE (R186). -/
def execBne (core : BitVec 6) (ra : BitVec 5) (rb : BitVec 5) (d16 : BitVec 16) (s : State) : Host.Outcome State Fault Refusal := act true s fun d => d.opBne core.toNat ra.toNat rb.toNat d16

/-- BLT (R186). -/
def execBlt (core : BitVec 6) (ra : BitVec 5) (rb : BitVec 5) (d16 : BitVec 16) (s : State) : Host.Outcome State Fault Refusal := act true s fun d => d.opBlt core.toNat ra.toNat rb.toNat d16

/-- BGE (R186). -/
def execBge (core : BitVec 6) (ra : BitVec 5) (rb : BitVec 5) (d16 : BitVec 16) (s : State) : Host.Outcome State Fault Refusal := act true s fun d => d.opBge core.toNat ra.toNat rb.toNat d16

/-- BLTU (R186). -/
def execBltu (core : BitVec 6) (ra : BitVec 5) (rb : BitVec 5) (d16 : BitVec 16) (s : State) : Host.Outcome State Fault Refusal := act true s fun d => d.opBltu core.toNat ra.toNat rb.toNat d16

/-- BGEU (R186). -/
def execBgeu (core : BitVec 6) (ra : BitVec 5) (rb : BitVec 5) (d16 : BitVec 16) (s : State) : Host.Outcome State Fault Refusal := act true s fun d => d.opBgeu core.toNat ra.toNat rb.toNat d16

/-- BF (R186). -/
def execBf (core : BitVec 6) (cc : BitVec 5) (d16 : BitVec 16) (s : State) : Host.Outcome State Fault Refusal := act true s fun d => d.opBf core.toNat cc.toNat d16

/-- J (R186). -/
def execJ (core : BitVec 6) (d26 : BitVec 26) (s : State) : Host.Outcome State Fault Refusal := act true s fun d => d.opJ core.toNat d26

/-- JAL (R186). -/
def execJal (core : BitVec 6) (d26 : BitVec 26) (s : State) : Host.Outcome State Fault Refusal := act true s fun d => d.opJal core.toNat d26

/-- JR (R186). -/
def execJr (core : BitVec 6) (rd : BitVec 5) (ra : BitVec 5) (s : State) : Host.Outcome State Fault Refusal := act true s fun d => d.opJr core.toNat rd.toNat ra.toNat

/-- LOOP (R190). -/
def execLoop (core : BitVec 6) (lvl : BitVec 1) (rc : BitVec 5) (n16 : BitVec 16) (s : State) : Host.Outcome State Fault Refusal := act true s fun d => d.opLoop core.toNat lvl.toNat rc.toNat n16

/-- MOVS (R191). -/
def execMovs (core : BitVec 6) (es : BitVec 2) (lim : Nat) (s : State) : Host.Outcome State Fault Refusal := act true s fun d => d.opMovs core.toNat es.toNat lim

/-- CMPS (R191). -/
def execCmps (core : BitVec 6) (es : BitVec 2) (lim : Nat) (s : State) : Host.Outcome State Fault Refusal := act true s fun d => d.opCmps core.toNat es.toNat lim

/-- SCANS (R191). -/
def execScans (core : BitVec 6) (es : BitVec 2) (lim : Nat) (s : State) : Host.Outcome State Fault Refusal := act true s fun d => d.opScans core.toNat es.toNat lim

/-- FILLS (R191). -/
def execFills (core : BitVec 6) (es : BitVec 2) (lim : Nat) (s : State) : Host.Outcome State Fault Refusal := act true s fun d => d.opFills core.toNat es.toNat lim

/-- HASHS (R191). -/
def execHashs (core : BitVec 6) (lim : Nat) (s : State) : Host.Outcome State Fault Refusal := act true s fun d => d.opHashs core.toNat lim

/-- SETB (R186). -/
def execSetb (core : BitVec 6) (rd : BitVec 5) (ra : BitVec 5) (s : State) : Host.Outcome State Fault Refusal := act true s fun d => d.opSetb core.toNat rd.toNat ra.toNat

/-- GETB (R186). -/
def execGetb (core : BitVec 6) (rd : BitVec 5) (ra : BitVec 5) (s : State) : Host.Outcome State Fault Refusal := act true s fun d => d.opGetb core.toNat rd.toNat ra.toNat

/-- SETL (R186). -/
def execSetl (core : BitVec 6) (rc : BitVec 5) (ra : BitVec 5) (s : State) : Host.Outcome State Fault Refusal := act true s fun d => d.opSetl core.toNat rc.toNat ra.toNat

/-- GETL (R186). -/
def execGetl (core : BitVec 6) (rd : BitVec 5) (rc : BitVec 5) (s : State) : Host.Outcome State Fault Refusal := act true s fun d => d.opGetl core.toNat rd.toNat rc.toNat

/-- SETS (R186). -/
def execSets (core : BitVec 6) (rc : BitVec 5) (ra : BitVec 5) (s : State) : Host.Outcome State Fault Refusal := act true s fun d => d.opSets core.toNat rc.toNat ra.toNat

/-- GETS (R186). -/
def execGets (core : BitVec 6) (rd : BitVec 5) (rc : BitVec 5) (s : State) : Host.Outcome State Fault Refusal := act true s fun d => d.opGets core.toNat rd.toNat rc.toNat

end Sys2Proof.Machine
end

