-- ==== Sys2Proof/Machine/CmdErrilVec.lean ====
section
/-! DEFINITION. The meanings of the commands. Erril: vectors (08). Each is the effect that its rule gives, on the device alone. -/
namespace Sys2Proof.Machine

/-- VADD (R193). -/
def execVadd (core : BitVec 6) (es : BitVec 2) (vd : BitVec 5) (va : BitVec 5) (vb : BitVec 5) (s : State) : Host.Outcome State Fault Refusal := act true s fun d => d.opVadd core.toNat es.toNat vd.toNat va.toNat vb.toNat

/-- VSUB (R193). -/
def execVsub (core : BitVec 6) (es : BitVec 2) (vd : BitVec 5) (va : BitVec 5) (vb : BitVec 5) (s : State) : Host.Outcome State Fault Refusal := act true s fun d => d.opVsub core.toNat es.toNat vd.toNat va.toNat vb.toNat

/-- VMUL (R193). -/
def execVmul (core : BitVec 6) (es : BitVec 2) (vd : BitVec 5) (va : BitVec 5) (vb : BitVec 5) (s : State) : Host.Outcome State Fault Refusal := act true s fun d => d.opVmul core.toNat es.toNat vd.toNat va.toNat vb.toNat

/-- VAND (R193). -/
def execVand (core : BitVec 6) (vd : BitVec 5) (va : BitVec 5) (vb : BitVec 5) (s : State) : Host.Outcome State Fault Refusal := act true s fun d => d.opVand core.toNat vd.toNat va.toNat vb.toNat

/-- VOR (R193). -/
def execVor (core : BitVec 6) (vd : BitVec 5) (va : BitVec 5) (vb : BitVec 5) (s : State) : Host.Outcome State Fault Refusal := act true s fun d => d.opVor core.toNat vd.toNat va.toNat vb.toNat

/-- VXOR (R193). -/
def execVxor (core : BitVec 6) (vd : BitVec 5) (va : BitVec 5) (vb : BitVec 5) (s : State) : Host.Outcome State Fault Refusal := act true s fun d => d.opVxor core.toNat vd.toNat va.toNat vb.toNat

/-- VANDN (R193). -/
def execVandn (core : BitVec 6) (vd : BitVec 5) (va : BitVec 5) (vb : BitVec 5) (s : State) : Host.Outcome State Fault Refusal := act true s fun d => d.opVandn core.toNat vd.toNat va.toNat vb.toNat

/-- VMIN (R193). -/
def execVmin (core : BitVec 6) (es : BitVec 2) (vd : BitVec 5) (va : BitVec 5) (vb : BitVec 5) (s : State) : Host.Outcome State Fault Refusal := act true s fun d => d.opVmin core.toNat es.toNat vd.toNat va.toNat vb.toNat

/-- VMAX (R193). -/
def execVmax (core : BitVec 6) (es : BitVec 2) (vd : BitVec 5) (va : BitVec 5) (vb : BitVec 5) (s : State) : Host.Outcome State Fault Refusal := act true s fun d => d.opVmax core.toNat es.toNat vd.toNat va.toNat vb.toNat

/-- VMINU (R193). -/
def execVminu (core : BitVec 6) (es : BitVec 2) (vd : BitVec 5) (va : BitVec 5) (vb : BitVec 5) (s : State) : Host.Outcome State Fault Refusal := act true s fun d => d.opVminu core.toNat es.toNat vd.toNat va.toNat vb.toNat

/-- VMAXU (R193). -/
def execVmaxu (core : BitVec 6) (es : BitVec 2) (vd : BitVec 5) (va : BitVec 5) (vb : BitVec 5) (s : State) : Host.Outcome State Fault Refusal := act true s fun d => d.opVmaxu core.toNat es.toNat vd.toNat va.toNat vb.toNat

/-- VCMPEQ (R193). -/
def execVcmpeq (core : BitVec 6) (es : BitVec 2) (vd : BitVec 5) (va : BitVec 5) (vb : BitVec 5) (s : State) : Host.Outcome State Fault Refusal := act true s fun d => d.opVcmpeq core.toNat es.toNat vd.toNat va.toNat vb.toNat

/-- VCMPGT (R193). -/
def execVcmpgt (core : BitVec 6) (es : BitVec 2) (vd : BitVec 5) (va : BitVec 5) (vb : BitVec 5) (s : State) : Host.Outcome State Fault Refusal := act true s fun d => d.opVcmpgt core.toNat es.toNat vd.toNat va.toNat vb.toNat

/-- VCMPGTU (R193). -/
def execVcmpgtu (core : BitVec 6) (es : BitVec 2) (vd : BitVec 5) (va : BitVec 5) (vb : BitVec 5) (s : State) : Host.Outcome State Fault Refusal := act true s fun d => d.opVcmpgtu core.toNat es.toNat vd.toNat va.toNat vb.toNat

/-- VSLL (R193). -/
def execVsll (core : BitVec 6) (es : BitVec 2) (vd : BitVec 5) (va : BitVec 5) (vb : BitVec 5) (s : State) : Host.Outcome State Fault Refusal := act true s fun d => d.opVsll core.toNat es.toNat vd.toNat va.toNat vb.toNat

/-- VSRL (R193). -/
def execVsrl (core : BitVec 6) (es : BitVec 2) (vd : BitVec 5) (va : BitVec 5) (vb : BitVec 5) (s : State) : Host.Outcome State Fault Refusal := act true s fun d => d.opVsrl core.toNat es.toNat vd.toNat va.toNat vb.toNat

/-- VSRA (R193). -/
def execVsra (core : BitVec 6) (es : BitVec 2) (vd : BitVec 5) (va : BitVec 5) (vb : BitVec 5) (s : State) : Host.Outcome State Fault Refusal := act true s fun d => d.opVsra core.toNat es.toNat vd.toNat va.toNat vb.toNat

/-- VBSL (R193). -/
def execVbsl (core : BitVec 6) (vd : BitVec 5) (va : BitVec 5) (vb : BitVec 5) (s : State) : Host.Outcome State Fault Refusal := act true s fun d => d.opVbsl core.toNat vd.toNat va.toNat vb.toNat

/-- VBCAST (R193). -/
def execVbcast (core : BitVec 6) (es : BitVec 2) (vd : BitVec 5) (va : BitVec 5) (s : State) : Host.Outcome State Fault Refusal := act true s fun d => d.opVbcast core.toNat es.toNat vd.toNat va.toNat

/-- VEXT (R193). -/
def execVext (core : BitVec 6) (es : BitVec 2) (vd : BitVec 5) (va : BitVec 5) (l : BitVec 6) (s : State) : Host.Outcome State Fault Refusal := act true s fun d => d.opVext core.toNat es.toNat vd.toNat va.toNat l.toNat

/-- VINS (R193). -/
def execVins (core : BitVec 6) (es : BitVec 2) (vd : BitVec 5) (va : BitVec 5) (l : BitVec 6) (s : State) : Host.Outcome State Fault Refusal := act true s fun d => d.opVins core.toNat es.toNat vd.toNat va.toNat l.toNat

/-- VRSUM (R193). -/
def execVrsum (core : BitVec 6) (es : BitVec 2) (vd : BitVec 5) (va : BitVec 5) (s : State) : Host.Outcome State Fault Refusal := act true s fun d => d.opVrsum core.toNat es.toNat vd.toNat va.toNat

/-- VRMIN (R193). -/
def execVrmin (core : BitVec 6) (es : BitVec 2) (vd : BitVec 5) (va : BitVec 5) (s : State) : Host.Outcome State Fault Refusal := act true s fun d => d.opVrmin core.toNat es.toNat vd.toNat va.toNat

/-- VRMAX (R193). -/
def execVrmax (core : BitVec 6) (es : BitVec 2) (vd : BitVec 5) (va : BitVec 5) (s : State) : Host.Outcome State Fault Refusal := act true s fun d => d.opVrmax core.toNat es.toNat vd.toNat va.toNat

/-- VMSK (R193). -/
def execVmsk (core : BitVec 6) (es : BitVec 2) (vd : BitVec 5) (va : BitVec 5) (s : State) : Host.Outcome State Fault Refusal := act true s fun d => d.opVmsk core.toNat es.toNat vd.toNat va.toNat

/-- VMOV (R193). -/
def execVmov (core : BitVec 6) (vd : BitVec 5) (va : BitVec 5) (s : State) : Host.Outcome State Fault Refusal := act true s fun d => d.opVmov core.toNat vd.toNat va.toNat

end Sys2Proof.Machine
end

