-- ==== Sys2Proof/Machine/CmdFaults.lean ====
section
/-! DEFINITION. The meanings of the commands. Faults, events, resets, clocks and sensors (18, 19, 20). Each is the effect that its rule gives, on the device alone. -/
namespace Sys2Proof.Machine

/-- FAULT_OCCURRENCE (R399). -/
def execFaultOccurrence (src : Nat) (acc : Nat) (iu : Nat) (ii : Nat) (addr : Nat) (tag : Nat) (s : State) : Host.Outcome State Fault Refusal := act true s fun d => d.faultOccurrence src acc iu ii addr tag

/-- FAULT_PIN_SAMPLE (R395). -/
def execFaultPinSample (t : Bool) (c : Bool) (s : State) : Host.Outcome State Fault Refusal := act true s fun d => d.pinSample t c

/-- FAULT_ACK (R397). -/
def execFaultAck (sid : Nat) (v : Nat) (s : State) : Host.Outcome State Fault Refusal := act (decide (sid < 256 ∧ v < 65536)) s fun d => d.mgrRun uChip oFaultAck v (Dev.fxFaultAck · sid v)

/-- FORCE_EXIT_CHECK (R400). -/
def execForceExitCheck (s : State) : Host.Outcome State Fault Refusal := act true s fun d => d.forceExit

/-- UNIT_QUARANTINE (R398). -/
def execUnitQuarantine (u : Nat) (v : Bool) (s : State) : Host.Outcome State Fault Refusal := act (decide (u < 65536)) s fun d => d.mgrWrite u oUnitQuarantine v.toNat

/-- INJECT_FAULT (R401). -/
def execInjectFault (v : BitVec 96) (s : State) : Host.Outcome State Fault Refusal := act true s fun d => d.mgrWrite uChip oInjectFault v.toNat

/-- EVENT_RECORD_WRITE (R406). -/
def execEventRecordWrite (s : State) : Host.Outcome State Fault Refusal := act true s fun d => d.eventWrite

/-- TIME_ANCHOR (R405). -/
def execTimeAnchor (v : BitVec 64) (s : State) : Host.Outcome State Fault Refusal := act true s fun d => d.mgrWrite uChip oTimeAnchor v.toNat

/-- LOG_FLUSH (R408). -/
def execLogFlush (s : State) : Host.Outcome State Fault Refusal := act true s fun d => d.mgrWrite uChip oLogFlush 1

/-- LOG_FLUSH_COMPLETE (R410). -/
def execLogFlushComplete (okA : Bool) (okB : Bool) (s : State) : Host.Outcome State Fault Refusal := act true s fun d => d.flushComplete okA okB

/-- LOG_ERASE_COMPLETE (R409). -/
def execLogEraseComplete (c : Nat) (s : State) : Host.Outcome State Fault Refusal := act (decide (c < 2)) s fun d => d.logErased c

/-- EVENT_RECORDS_READ (R411). -/
def execEventRecordsRead (r : Req) (s : State) : Host.Outcome State Fault Refusal := act (decide (r.tr < 256 ∧ r.eid < 256 ∧ r.tag < 8 ∧ r.sid < 256 ∧ r.reqId < 65536 ∧ r.counter < 2 ^ 48)) s fun d => d.request r 0x03 (localAddr oEventRecords)

/-- EVENT_CURSOR (R411). -/
def execEventCursor (r : Req) (v : BitVec 48) (s : State) : Host.Outcome State Fault Refusal := act (decide (r.tr < 256 ∧ r.eid < 256 ∧ r.tag < 8 ∧ r.sid < 256 ∧ r.reqId < 65536 ∧ r.counter < 2 ^ 48)) s fun d => d.request r 0x04 (localAddr oEventCursor ++ valueBytes 0x0C 6 v.toNat)

/-- PERST_N (R415). -/
def execPerstN (pin : Bool) (s : State) : Host.Outcome State Fault Refusal := act true s fun d => d.perst pin

/-- CHIP_SOFT_RESET (R416). -/
def execChipSoftReset (s : State) : Host.Outcome State Fault Refusal := act true s fun d => d.mgrWrite uChip oResetCommand 1

/-- UNIT_RESET (R418). -/
def execUnitReset (u : Nat) (s : State) : Host.Outcome State Fault Refusal := act (decide (u < 65536)) s fun d => d.mgrWrite u oUnitReset 1

/-- WATCHDOG_EXPIRE (R419). -/
def execWatchdogExpire (s : State) : Host.Outcome State Fault Refusal := act true s fun d => d.watchdog

/-- FIRMWARE_IMAGE (R425). -/
def execFirmwareImage (off : Nat) (data : List Byte) (s : State) : Host.Outcome State Fault Refusal := act true s fun d => d.mgrBlock oFirmwareImage off data

/-- FIRMWARE_STAGE (R425). -/
def execFirmwareStage (ok : Bool) (version : BitVec 32) (s : State) : Host.Outcome State Fault Refusal := act true s fun d => d.mgrRun uChip oFirmwareCommand 1 (Dev.fxFirmwareCommand · 1 ok version.toNat)

/-- FIRMWARE_CONFIRM (R426). -/
def execFirmwareConfirm (s : State) : Host.Outcome State Fault Refusal := act true s fun d => d.mgrWrite uChip oFirmwareCommand 2

/-- FIRMWARE_CANCEL (R428). -/
def execFirmwareCancel (s : State) : Host.Outcome State Fault Refusal := act true s fun d => d.mgrWrite uChip oFirmwareCommand 3

/-- TRIAL_CONFIRM_TIMEOUT (R426). -/
def execTrialConfirmTimeout (s : State) : Host.Outcome State Fault Refusal := act true s fun d => d.trialTimeout

/-- CLOCK_LOSS (R438). -/
def execClockLoss (i : Nat) (freq : Nat) (s : State) : Host.Outcome State Fault Refusal := act (decide (i ≤ 22)) s fun d => d.clockLoss i freq

/-- CLOCK_RECOVERED (R440). -/
def execClockRecovered (i : Nat) (s : State) : Host.Outcome State Fault Refusal := act (decide (i ≤ 22)) s fun d => d.clockRecovered i

/-- XCLK_HOLDOVER_END (R438). -/
def execXclkHoldoverEnd (s : State) : Host.Outcome State Fault Refusal := act true s fun d => d.holdoverEnd

/-- MCLK_PLL_RESTART (R438). -/
def execMclkPllRestart (n : Nat) (locked : Bool) (s : State) : Host.Outcome State Fault Refusal := act (decide (n < 8)) s fun d => d.pllRestart n locked

/-- THERMAL_SAMPLE (R454). -/
def execThermalSample (i : Nat) (t : Int) (s : State) : Host.Outcome State Fault Refusal := act (decide (i < 5)) s fun d => d.thermalSample i t

end Sys2Proof.Machine
end

