-- ==== Sys2Proof/Machine/CmdInsts.lean ====
section
/-! DEFINITION. The meanings of the commands. The host view: instances, queues and programs (11). Each is the effect that its rule gives, on the device alone. -/
namespace Sys2Proof.Machine

/-- HOST_LINK_TRAINED (R254). -/
def execHostLinkTrained (gen : Nat) (width : Nat) (s : State) : Host.Outcome State Fault Refusal := act (decide (gen < 256 ∧ width < 256)) s fun d => d.hostTrained gen width

/-- INSTANCE_CREATE (R258). -/
def execInstanceCreate (i : Nat) (s : State) : Host.Outcome State Fault Refusal := act (decide (i < 65536)) s fun d => d.mgrWrite uChip oInstanceCommand (i + 0x10000)

/-- INSTANCE_RESET (R272). -/
def execInstanceReset (i : Nat) (s : State) : Host.Outcome State Fault Refusal := act (decide (i < 65536)) s fun d => d.mgrWrite uChip oInstanceCommand (i + 0x20000)

/-- INSTANCE_REMOVE (R272). -/
def execInstanceRemove (i : Nat) (s : State) : Host.Outcome State Fault Refusal := act (decide (i < 65536)) s fun d => d.mgrWrite uChip oInstanceCommand (i + 0x30000)

/-- FENCE_WAIT_END (R274). -/
def execFenceWaitEnd (i : Nat) (s : State) : Host.Outcome State Fault Refusal := act (decide (i < 4096)) s fun d => d.fenceWaitEnd i

/-- INSTANCE_HALT_COMPLETE (R272). -/
def execInstanceHaltComplete (i : Nat) (outstanding : Nat) (s : State) : Host.Outcome State Fault Refusal := act (decide (i < 4096)) s fun d => d.instHalt i outstanding

/-- INSTANCE_DRAIN_END (R272). -/
def execInstanceDrainEnd (i : Nat) (arrived : Nat) (s : State) : Host.Outcome State Fault Refusal := act (decide (i < 4096)) s fun d => d.instDrain i arrived

/-- CC_EN_CLEAR (R262). -/
def execCcEnClear (i : Nat) (s : State) : Host.Outcome State Fault Refusal := act (decide (i < 4096)) s fun d => d.ccClear i

/-- FLR (R272). -/
def execFlr (s : State) : Host.Outcome State Fault Refusal := act true s fun d => d.flr

/-- INSTANCE_TABLE_WRITE (R256). -/
def execInstanceTableWrite (off : Nat) (data : List Byte) (s : State) : Host.Outcome State Fault Refusal := act true s fun d => d.mgrBlock oInstanceTable off data

/-- NAMESPACE_TABLE_WRITE (R259). -/
def execNamespaceTableWrite (off : Nat) (data : List Byte) (s : State) : Host.Outcome State Fault Refusal := act true s fun d => d.mgrBlock oNamespaceTable off data

/-- QUEUE_TABLE_WRITE (R265). -/
def execQueueTableWrite (off : Nat) (data : List Byte) (s : State) : Host.Outcome State Fault Refusal := act true s fun d => d.mgrBlock oQueueTable off data

/-- DOORBELL_WRITE (R263). -/
def execDoorbellWrite (i : Nat) (control : Bool) (off : Nat) (len : Nat) (val : Nat) (s : State) : Host.Outcome State Fault Refusal := act (decide (i < 4096)) s fun d => d.doorbellWrite i control off len val

/-- CONTEXT_QUEUE_WATCH (R266). -/
def execContextQueueWatch (q : Nat) (s : State) : Host.Outcome State Fault Refusal := act (decide (q < 16384)) s fun d => d.contextWatch q

/-- ARBITRATION_EPOCH (R270). -/
def execArbitrationEpoch (s : State) : Host.Outcome State Fault Refusal := act true s fun d => d.epoch

/-- SQ_ENTRY_FETCH (R271). -/
def execSqEntryFetch (q : Nat) (s : State) : Host.Outcome State Fault Refusal := act (decide (q < 16384)) s fun d => d.sqFetch q

/-- VECTOR_UNMASK (R269). -/
def execVectorUnmask (n : Nat) (addr : Nat) (data : Nat) (pasid : Bool) (s : State) : Host.Outcome State Fault Refusal := act true s fun d => d.vectorUnmask n addr data pasid

/-- PROGRAM_LOAD (R268). -/
def execProgramLoad (q : Nat) (core : BitVec 6) (image : List Byte) (arg : List Byte) (s : State) : Host.Outcome State Fault Refusal := act (decide (q < 16384)) s fun d => d.programLoad q core.toNat image arg

/-- PROGRAM_MESSAGE (R268). -/
def execProgramMessage (q : Nat) (payload : List Byte) (s : State) : Host.Outcome State Fault Refusal := act (decide (q < 16384)) s fun d => d.programMessage q payload

/-- PROGRAM_KILL (R268). -/
def execProgramKill (q : Nat) (s : State) : Host.Outcome State Fault Refusal := act (decide (q < 16384)) s fun d => d.programKill q

end Sys2Proof.Machine
end

