-- ==== Sys2Proof/Machine/CmdPack.lean ====
section
/-! DEFINITION. The meanings of the commands. The Pack and the Leash (07). Each is the effect that its rule gives, on the device alone. -/
namespace Sys2Proof.Machine

/-- LEASH_CYCLE (R160). -/
def execLeashCycle (s : State) : Host.Outcome State Fault Refusal := act true s fun d => d.leashCycle

/-- POLL_MISSED (R160). -/
def execPollMissed (n : Nat) (s : State) : Host.Outcome State Fault Refusal := act (decide (n < 16)) s fun d => d.pollMissed n

/-- BEACON (R161). -/
def execBeacon (f : List Byte) (s : State) : Host.Outcome State Fault Refusal := act (decide (f.length ≤ 263)) s fun d => d.rxBeacon f

/-- POLL (R162). -/
def execPoll (f : List Byte) (s : State) : Host.Outcome State Fault Refusal := act (decide (f.length ≤ 263)) s fun d => d.rxPoll f

/-- STATUS (R160). -/
def execStatus (f : List Byte) (s : State) : Host.Outcome State Fault Refusal := act (decide (f.length ≤ 263)) s fun d => d.rxStatus f

/-- GRANT (R170). -/
def execGrant (f : List Byte) (s : State) : Host.Outcome State Fault Refusal := act (decide (f.length ≤ 263)) s fun d => d.rxGrant f

/-- SLOT_ACK (R172). -/
def execSlotAck (f : List Byte) (s : State) : Host.Outcome State Fault Refusal := act (decide (f.length ≤ 263)) s fun d => d.rxSlotAck f

/-- LEASH_RESET (R175). -/
def execLeashReset (f : List Byte) (s : State) : Host.Outcome State Fault Refusal := act (decide (f.length ≤ 263)) s fun d => d.rxReset f

/-- DICT_REQ (R175). -/
def execDictReq (f : List Byte) (s : State) : Host.Outcome State Fault Refusal := act (decide (f.length ≤ 263)) s fun d => d.rxDictReq f

/-- DICT_RSP (R175). -/
def execDictRsp (f : List Byte) (s : State) : Host.Outcome State Fault Refusal := act (decide (f.length ≤ 263)) s fun d => d.rxDictRsp f

/-- FORWARD_TIMEOUT (R175). -/
def execForwardTimeout (id : Nat) (s : State) : Host.Outcome State Fault Refusal := act (decide (id < 256)) s fun d => d.forwardTimeout id

/-- MASTERSHIP_TAKEOVER (R164). -/
def execMastershipTakeover (s : State) : Host.Outcome State Fault Refusal := act true s fun d => d.takeover

/-- GRANT_EXPIRE (R166). -/
def execGrantExpire (s : State) : Host.Outcome State Fault Refusal := act true s fun d => d.grantExpire

/-- BUDGET_COMPUTE (R168). -/
def execBudgetCompute (s : State) : Host.Outcome State Fault Refusal := act true s fun d => d.budget

/-- ABSENT_HOLD_EXPIRE (R176). -/
def execAbsentHoldExpire (n : Nat) (s : State) : Host.Outcome State Fault Refusal := act (decide (n < 16)) s fun d => d.absentExpire n

/-- WAVE_START (R170). -/
def execWaveStart (s : State) : Host.Outcome State Fault Refusal := act true s fun d => d.waveStart

/-- SLOT_CMD_SEND (R172). -/
def execSlotCmdSend (s : State) : Host.Outcome State Fault Refusal := act true s fun d => d.slotSend

/-- PACK_RESET_MEMBER (R175). -/
def execPackResetMember (v : Nat) (s : State) : Host.Outcome State Fault Refusal := act (decide (v < 256)) s fun d => d.mgrWrite uChip oPackResetMember v

end Sys2Proof.Machine
end

