-- ==== Sys2Proof/Machine/CmdPins.lean ====
section
/-! DEFINITION. The meanings of the commands. The test port, and events at the host, drives and supplies (11, 12, 19, 21). Each is the effect that its rule gives, on the device alone. -/
namespace Sys2Proof.Machine

/-- BYPASS (R453). -/
def execBypass (tdi : List Bool) (s : State) : Host.Outcome State Fault Refusal := act true s fun d => d.jtagBypass tdi

/-- IDCODE (R453). -/
def execIdcode (tdi : List Bool) (s : State) : Host.Outcome State Fault Refusal := act true s fun d => d.jtagIdcode tdi

/-- SAMPLE_PRELOAD (R453). -/
def execSamplePreload (pins : List Bool) (tdi : List Bool) (s : State) : Host.Outcome State Fault Refusal := act true s fun d => d.jtagSample pins tdi

/-- EXTEST (R453). -/
def execExtest (pins : List Bool) (tdi : List Bool) (s : State) : Host.Outcome State Fault Refusal := act true s fun d => d.jtagExtest pins tdi

/-- CLAMP (R453). -/
def execClamp (tdi : List Bool) (s : State) : Host.Outcome State Fault Refusal := act true s fun d => d.jtagHold 4 1 tdi

/-- HIGHZ (R453). -/
def execHighz (tdi : List Bool) (s : State) : Host.Outcome State Fault Refusal := act true s fun d => d.jtagHold 5 2 tdi

/-- PERST_N_RELEASE (R140). -/
def execPerstNRelease (s : State) : Host.Outcome State Fault Refusal := act true s fun d => d.perstRelease

/-- CC_EN_SET (R262). -/
def execCcEnSet (i : Nat) (cc : Nat) (aqa : Nat) (asq : Nat) (acq : Nat) (s : State) : Host.Outcome State Fault Refusal := act (decide (i < 4096)) s fun d => d.ccSet i cc aqa asq acq

/-- BUS_MASTER_ENABLE_SET (R149). -/
def execBusMasterEnableSet (s : State) : Host.Outcome State Fault Refusal := act true s fun d => d.hostEnables

/-- KEEP_ALIVE_TIMEOUT (R260). -/
def execKeepAliveTimeout (i : Nat) (s : State) : Host.Outcome State Fault Refusal := act (decide (i < 4096)) s fun d => d.keepAliveTimeout i

/-- DRIVE_READY_TIMEOUT (R282). -/
def execDriveReadyTimeout (n : Nat) (s : State) : Host.Outcome State Fault Refusal := act (decide (n < 64)) s fun d => d.driveReadyTimeout n

/-- DRIVE_READ_COMPLETE (R38). -/
def execDriveReadComplete (cmd : Nat) (ok : Bool) (data : List Byte) (s : State) : Host.Outcome State Fault Refusal := act true s fun d => d.driveReadComplete cmd ok data

/-- I3C_DYNAMIC_ADDRESS_ASSIGN (R357). -/
def execI3cDynamicAddressAssign (addr : BitVec 7) (s : State) : Host.Outcome State Fault Refusal := act true s fun d => d.i3cAssign addr.toNat

/-- VBAT_LOW_LATCH (R424). -/
def execVbatLowLatch (s : State) : Host.Outcome State Fault Refusal := actDark true s fun d => d.vbatLow

/-- SUPERVISOR_RESTART_COMPLETE (R419). -/
def execSupervisorRestartComplete (s : State) : Host.Outcome State Fault Refusal := act true s fun d => d.supRestarted

/-- HOST_COMPLETION_TIMEOUT (R253). -/
def execHostCompletionTimeout (i : Nat) (s : State) : Host.Outcome State Fault Refusal := act (decide (i < 4096)) s fun d => d.hostTimeout i

end Sys2Proof.Machine
end

