-- ==== Sys2Proof/Machine/CmdPorts.lean ====
section
/-! DEFINITION. The meanings of the commands. Downstream ports and DRAM (12, 13). Each is the effect that its rule gives, on the device alone. -/
namespace Sys2Proof.Machine

/-- DRIVE_PRESENCE_DETECT (R282). -/
def execDrivePresenceDetect (n : Nat) (here : Bool) (s : State) : Host.Outcome State Fault Refusal := act (decide (n < 64)) s fun d => d.drivePresence n here

/-- PORT_LINK_UP (R283). -/
def execPortLinkUp (n : Nat) (speed : Nat) (width : Nat) (ds : Nat) (dw : Nat) (s : State) : Host.Outcome State Fault Refusal := act (decide (n < 64 ∧ speed < 256 ∧ width < 256 ∧ ds < 256 ∧ dw < 256)) s fun d => d.portLinkUp n speed width ds dw

/-- PORT_TRAIN_TIMEOUT (R282). -/
def execPortTrainTimeout (n : Nat) (s : State) : Host.Outcome State Fault Refusal := act (decide (n < 64)) s fun d => d.portTrainTimeout n

/-- DRIVE_BIND (R284). -/
def execDriveBind (n : Nat) (fits : Bool) (serial : Nat) (vwc : Bool) (ns : List DriveNs) (s : State) : Host.Outcome State Fault Refusal := act (decide (n < 64)) s fun d => d.driveBind n fits serial vwc ns

/-- DRIVE_LOST (R286). -/
def execDriveLost (n : Nat) (s : State) : Host.Outcome State Fault Refusal := act (decide (n < 64)) s fun d => d.driveGone n

/-- PORT_READY_TIMEOUT (R286). -/
def execPortReadyTimeout (n : Nat) (s : State) : Host.Outcome State Fault Refusal := act (decide (n < 64)) s fun d => d.portReadyTimeout n

/-- REBUILD (R289). -/
def execRebuild (n : Nat) (s : State) : Host.Outcome State Fault Refusal := act (decide (n < 64)) s fun d => d.mgrWrite uDown oPortCommand (n + 0x100)

/-- REBUILD_COMPLETE (R289). -/
def execRebuildComplete (v : Nat) (i : Nat) (s : State) : Host.Outcome State Fault Refusal := act (decide (v < 4096 ∧ i < 64)) s fun d => d.rebuildComplete v i

/-- PREPARE_REMOVE (R290). -/
def execPrepareRemove (n : Nat) (s : State) : Host.Outcome State Fault Refusal := act (decide (n < 64)) s fun d => d.mgrWrite uDown oPortCommand (n + 0x200)

/-- PREPARE_REMOVE_FORCE (R290). -/
def execPrepareRemoveForce (n : Nat) (s : State) : Host.Outcome State Fault Refusal := act (decide (n < 64)) s fun d => d.mgrWrite uDown oPortCommand (n + 0x300)

/-- PREPARE_REMOVE_DRAIN_END (R290). -/
def execPrepareRemoveDrainEnd (n : Nat) (s : State) : Host.Outcome State Fault Refusal := act (decide (n < 64)) s fun d => d.prepareEnd n

/-- POWER_ON (R291). -/
def execPowerOn (slot : Nat) (s : State) : Host.Outcome State Fault Refusal := act (decide (slot < 128)) s fun d => d.mgrWrite uDown oPortCommand (0x400 + slot * 0x10000)

/-- POWER_OFF (R291). -/
def execPowerOff (slot : Nat) (s : State) : Host.Outcome State Fault Refusal := act (decide (slot < 128)) s fun d => d.mgrWrite uDown oPortCommand (0x500 + slot * 0x10000)

/-- DRAM_COMMAND_ISSUE (R304). -/
def execDramCommandIssue (i : Nat) (held : List Nat) (passed : Nat) (must : Option (Nat × Nat × Nat)) (res : Nat) (s : State) : Host.Outcome State Fault Refusal := act (decide (i < 16)) s fun d => d.dramCommand i held passed must res

/-- ACTIVATE_TABLE_CLEAR (R308). -/
def execActivateTableClear (s : State) : Host.Outcome State Fault Refusal := act true s fun d => d.actsClear

/-- MR4_READ (R295). -/
def execMr4Read (n : Nat) (t : Int) (s : State) : Host.Outcome State Fault Refusal := act (decide (n < 8)) s fun d => d.mr4Read n t

/-- DRAM_ALERT (R307). -/
def execDramAlert (i : Nat) (rank : Nat) (s : State) : Host.Outcome State Fault Refusal := act (decide (i < 16)) s fun d => d.dramAlert i rank

/-- SELF_REFRESH_EXIT (R310). -/
def execSelfRefreshExit (n : Nat) (s : State) : Host.Outcome State Fault Refusal := act (decide (n < 8)) s fun d => d.refreshExit n

/-- RETRAIN_DUE (R311). -/
def execRetrainDue (n : Nat) (outcome : Nat) (t : Int) (s : State) : Host.Outcome State Fault Refusal := act (decide (n < 8)) s fun d => d.retrainDue n outcome t

/-- CHANNEL_QUARANTINE (R312). -/
def execChannelQuarantine (n : Nat) (s : State) : Host.Outcome State Fault Refusal := act (decide (n < 8)) s fun d => d.mgrWrite uMem oChannelCommand (n + 0x100)

/-- CHANNEL_RETRAIN (R315). -/
def execChannelRetrain (n : Nat) (s : State) : Host.Outcome State Fault Refusal := act (decide (n < 8)) s fun d => d.mgrWrite uMem oChannelCommand (n + 0x200)

/-- QUARANTINE_RESCUE_COMPLETE (R312). -/
def execQuarantineRescueComplete (n : Nat) (bad : List Nat) (badPages : List Nat) (s : State) : Host.Outcome State Fault Refusal := act (decide (n < 8)) s fun d => d.rescueComplete n bad badPages

end Sys2Proof.Machine
end

