-- ==== Sys2Proof/Machine/CmdPower.lean ====
section
/-! DEFINITION. The meanings of the commands. Supplies, buttons and margining (14). Each is the effect that its rule gives, on the device alone. -/
namespace Sys2Proof.Machine

/-- POWER_ON_RESET (R420). -/
def execPowerOnReset (keepOk : Bool) (lshEn : Bool) (lshAddr : BitVec 3) (lshMstr : Bool) (testMode : Bool) (s : State) : Host.Outcome State Fault Refusal := actDark true s fun d => d.powerOnReset keepOk lshEn lshAddr.toNat lshMstr testMode

/-- POWER_UP_START (R323). -/
def execPowerUpStart (s : State) : Host.Outcome State Fault Refusal := act true s fun d => d.powerUp

/-- RAIL_ENABLE (R324). -/
def execRailEnable (r : Nat) (s : State) : Host.Outcome State Fault Refusal := act (decide (r < 16)) s fun d => d.railEnable r

/-- RAIL_START_FAIL (R324). -/
def execRailStartFail (r : Nat) (s : State) : Host.Outcome State Fault Refusal := act (decide (r < 16)) s fun d => d.railStartFail r

/-- ADC_SAMPLE (R317). -/
def execAdcSample (r : Nat) (code : Nat) (s : State) : Host.Outcome State Fault Refusal := act (decide (r < 24 ∧ code < 4096)) s fun d => d.adcSample r code

/-- RAIL_DISCHARGE_TIMEOUT (R327). -/
def execRailDischargeTimeout (r : Nat) (s : State) : Host.Outcome State Fault Refusal := act (decide (r < 16)) s fun d => d.dischargeTimeout r

/-- REGULATOR_POLL (R320). -/
def execRegulatorPoll (r : Nat) (answered : Bool) (bad : Bool) (s : State) : Host.Outcome State Fault Refusal := act (decide (r < 16)) s fun d => d.regulatorPoll r answered bad

/-- AVS_ACK_RECEIVE (R333). -/
def execAvsAckReceive (q : Nat) (s : State) : Host.Outcome State Fault Refusal := act (decide (q < 4)) s fun d => d.avsAck q

/-- AVS_ACK_TIMEOUT (R334). -/
def execAvsAckTimeout (q : Nat) (s : State) : Host.Outcome State Fault Refusal := act (decide (q < 4)) s fun d => d.avsTimeout q

/-- QCLK_SLEW_COMPLETE (R433). -/
def execQclkSlewComplete (q : Nat) (s : State) : Host.Outcome State Fault Refusal := act (decide (q < 4)) s fun d => d.slewComplete q

/-- AUX_BROWNOUT (R329). -/
def execAuxBrownout (s : State) : Host.Outcome State Fault Refusal := act true s fun d => d.auxBrownout

/-- MRST_N (R335). -/
def execMrstN (len : Nat) (s : State) : Host.Outcome State Fault Refusal := act true s fun d => d.mrst len

/-- PWRBTN_SHORT_PRESS (R336). -/
def execPwrbtnShortPress (len : Nat) (s : State) : Host.Outcome State Fault Refusal := act true s fun d => d.shortPress len

/-- PWRBTN_LONG_PRESS (R336). -/
def execPwrbtnLongPress (len : Nat) (s : State) : Host.Outcome State Fault Refusal := act true s fun d => d.longPress len

/-- PWRBTN_IGNORED_PRESS (R336). -/
def execPwrbtnIgnoredPress (len : Nat) (s : State) : Host.Outcome State Fault Refusal := act true s fun d => d.ignoredPress len

/-- MARGIN_MODE (R330). -/
def execMarginMode (on : Bool) (s : State) : Host.Outcome State Fault Refusal := act true s fun d => d.mgrWrite uSup oMarginMode on.toNat

/-- MARGIN_STEP (R331). -/
def execMarginStep (r : Nat) (v : Int) (s : State) : Host.Outcome State Fault Refusal := act (decide (r < 24 ∧ (-128 ≤ v ∧ v < 128))) s fun d => d.mgrWrite uSup (oRail oMarginStep r) (unsignedOf 1 v)

/-- OPERATING_POINT_CHANGE (R333). -/
def execOperatingPointChange (points : BitVec 32) (s : State) : Host.Outcome State Fault Refusal := act true s fun d => d.mgrWrite uSup oCoreOperatingPoint points.toNat

/-- RAIL_RESTART (R339). -/
def execRailRestart (r : Nat) (s : State) : Host.Outcome State Fault Refusal := act (decide (r < 16)) s fun d => d.mgrWrite uSup oRailCommand (r + 0x100)

/-- CLEAR_COUNTERS (R339). -/
def execClearCounters (r : Nat) (s : State) : Host.Outcome State Fault Refusal := act (decide (r < 256)) s fun d => d.mgrWrite uSup oRailCommand (r + 0x200)

/-- SHUTDOWN_REQUEST_CLEAR (R336). -/
def execShutdownRequestClear (s : State) : Host.Outcome State Fault Refusal := act true s fun d => d.mgrWrite uSup oShutdownRequest 0

end Sys2Proof.Machine
end

