-- ==== Sys2Proof/Machine/CmdRestore.lean ====
section
/-! DEFINITION. The meanings of the commands. Restore, fetch and the Kennel (05, 06). Each is the effect that its rule gives, on the device alone. -/
namespace Sys2Proof.Machine

/-- WAKE_COMPLETE (R133). -/
def execWakeComplete (found : WakeFound) (speed : Nat) (failed : List Nat) (marginal : List Nat) (metaOk : Bool) (bad : List Nat) (readA : Option (List Nat)) (readB : Option (List Nat)) (s : State) : Host.Outcome State Fault Refusal := act true s fun d => d.wakeComplete found speed failed marginal metaOk bad readA readB

/-- RESTORE_READ_COMPLETE (R139). -/
def execRestoreReadComplete (lost : List Nat) (s : State) : Host.Outcome State Fault Refusal := act true s fun d => d.restoreRead lost

/-- RESTORE_REBUILD_COMPLETE (R139). -/
def execRestoreRebuildComplete (s : State) : Host.Outcome State Fault Refusal := act true s fun d => d.restoreRebuilt

/-- FETCH_HOST_ADMIT (R141). -/
def execFetchHostAdmit (s : State) : Host.Outcome State Fault Refusal := act true s fun d => d.fetchAdmit

/-- RESTORE_SEGMENT_INSTALLED (R214). -/
def execRestoreSegmentInstalled (i : Nat) (ok : Bool) (latency : Nat) (s : State) : Host.Outcome State Fault Refusal := act true s fun d => d.segInstalled i ok latency

/-- BACKGROUND_SEGMENT_RESTORED (R141). -/
def execBackgroundSegmentRestored (ok : Bool) (s : State) : Host.Outcome State Fault Refusal := act true s fun d => d.segBackground ok

/-- CONFIG_RETRY_LIMIT_EXPIRE (R140). -/
def execConfigRetryLimitExpire (s : State) : Host.Outcome State Fault Refusal := act true s fun d => d.configRetry

/-- LOST_RANGE_RELEASE (R152). -/
def execLostRangeRelease (v : Nat) (s : State) : Host.Outcome State Fault Refusal := act (decide (v < 65536)) s fun d => d.mgrWrite uChip oLostRangeRelease v

/-- KENNEL_FORMAT (R115). -/
def execKennelFormat (s : State) : Host.Outcome State Fault Refusal := act true s fun d => d.mgrWrite uVault oKennelFormat 1

/-- KENNEL_FORMAT_FORCE (R115). -/
def execKennelFormatForce (s : State) : Host.Outcome State Fault Refusal := act true s fun d => d.mgrWrite uVault oKennelFormatForce 1

/-- KENNEL_FORMAT_COMPLETE (R115). -/
def execKennelFormatComplete (found : List LunInfo) (s : State) : Host.Outcome State Fault Refusal := act true s fun d => d.formatComplete found

/-- FLASH_BLOCK_FAIL (R114). -/
def execFlashBlockFail (n : Nat) (block : Nat) (dead : Bool) (s : State) : Host.Outcome State Fault Refusal := act (decide (n < 256)) s fun d => d.flashBlockFail n block dead

/-- SLOT_ERASE_COMPLETE (R128). -/
def execSlotEraseComplete (i : Nat) (s : State) : Host.Outcome State Fault Refusal := act (decide (i < 2)) s fun d => d.slotErased i

/-- SCRATCH_ERASE_COMPLETE (R128). -/
def execScratchEraseComplete (s : State) : Host.Outcome State Fault Refusal := act true s fun d => d.scratchErased

/-- SLOT_USABILITY_CHECK (R127). -/
def execSlotUsabilityCheck (s : State) : Host.Outcome State Fault Refusal := act true s fun d => d.usabilityCheck

end Sys2Proof.Machine
end

