-- ==== Sys2Proof/Machine/CmdVault.lean ====
section
/-! DEFINITION. The meanings of the commands. The vault sequence, the energy reserve, capacitance tests and drills (03, 04). Each is the effect that its rule gives, on the device alone. -/
namespace Sys2Proof.Machine

/-- PFAIL_T0 (R81). -/
def execPfailT0 (s : State) : Host.Outcome State Fault Refusal := act true s fun d => d.pfailT0

/-- LSH_SYNC_TRIGGER (R171). -/
def execLshSyncTrigger (s : State) : Host.Outcome State Fault Refusal := act true s fun d => d.syncTrigger

/-- LSH_SYNC_STUCK (R171). -/
def execLshSyncStuck (s : State) : Host.Outcome State Fault Refusal := act true s fun d => d.syncStuck

/-- VAULT_THEN_OFF (R83). -/
def execVaultThenOff (s : State) : Host.Outcome State Fault Refusal := act true s fun d => d.mgrWrite uChip oVaultCommand 1

/-- VAULT_THEN_HOLD (R83). -/
def execVaultThenHold (s : State) : Host.Outcome State Fault Refusal := act true s fun d => d.mgrWrite uChip oVaultCommand 2

/-- QUIESCE_COMPLETE (R88). -/
def execQuiesceComplete (s : State) : Host.Outcome State Fault Refusal := act true s fun d => d.quiesceComplete

/-- QUIESCE_OVERRUN (R89). -/
def execQuiesceOverrun (kind : Nat) (n : Nat) (s : State) : Host.Outcome State Fault Refusal := act true s fun d => d.quiesceOverrun kind n

/-- SHED_COMPLETE (R88). -/
def execShedComplete (s : State) : Host.Outcome State Fault Refusal := act true s fun d => d.shedComplete

/-- VAULT_BEGIN (R94). -/
def execVaultBegin (s : State) : Host.Outcome State Fault Refusal := act true s fun d => d.vaultBegin

/-- SPILL_COMPLETE (R95). -/
def execSpillComplete (s : State) : Host.Outcome State Fault Refusal := act true s fun d => d.spillComplete

/-- SEGMENT_PROGRAM_DONE (R96). -/
def execSegmentProgramDone (i : Nat) (issued : Nat) (mask : Nat) (s : State) : Host.Outcome State Fault Refusal := act true s fun d => d.segDone i issued mask

/-- SEAL_DURABLE (R86). -/
def execSealDurable (s : State) : Host.Outcome State Fault Refusal := act true s fun d => d.sealDurable

/-- FLASH_PROGRAM_FAIL (R100). -/
def execFlashProgramFail (i : Nat) (rec : Bool) (s : State) : Host.Outcome State Fault Refusal := act true s fun d => d.programFail i rec

/-- LUN_FAIL_DURING_VAULT (R116). -/
def execLunFailDuringVault (lun : Nat) (s : State) : Host.Outcome State Fault Refusal := act (decide (lun < 256)) s fun d => d.lunFailVault lun

/-- ENERGY_GUARD_CHECK (R98). -/
def execEnergyGuardCheck (v : Nat) (s : State) : Host.Outcome State Fault Refusal := act (decide (v < 65536)) s fun d => d.energyGuard v

/-- RESCIND_TIMER_EXPIRE (R101). -/
def execRescindTimerExpire (s : State) : Host.Outcome State Fault Refusal := act true s fun d => d.rescindTimer

/-- RESCIND_RESUME_COMPLETE (R101). -/
def execRescindResumeComplete (s : State) : Host.Outcome State Fault Refusal := act true s fun d => d.rescindResume

/-- RETAIN_TO_DARK (R103). -/
def execRetainToDark (s : State) : Host.Outcome State Fault Refusal := act true s fun d => d.retainToDark

/-- CEILING_COMPUTE (R75). -/
def execCeilingCompute (mean : Nat) (s : State) : Host.Outcome State Fault Refusal := act (decide (mean < 65536)) s fun d => d.ceilingCompute mean

/-- CHARGER_POLL (R66). -/
def execChargerPoll (answered : Bool) (s : State) : Host.Outcome State Fault Refusal := act true s fun d => d.chargerPoll answered

/-- CAP_TEST_START (R67). -/
def execCapTestStart (s : State) : Host.Outcome State Fault Refusal := act true s fun d => d.mgrWrite uChip oCapTestStart 1

/-- CAP_TEST_AUTO_START (R67). -/
def execCapTestAutoStart (s : State) : Host.Outcome State Fault Refusal := act true s fun d => d.capAuto

/-- CAP_TEST_INTERVAL_EXPIRE (R67). -/
def execCapTestIntervalExpire (s : State) : Host.Outcome State Fault Refusal := act true s fun d => d.capInterval

/-- CAP_TEST_DEFER_RETRY (R67). -/
def execCapTestDeferRetry (s : State) : Host.Outcome State Fault Refusal := act true s fun d => d.capRetry

/-- CAP_TEST_PAUSE_END (R68). -/
def execCapTestPauseEnd (v0 : Nat) (s : State) : Host.Outcome State Fault Refusal := act (decide (v0 < 65536)) s fun d => d.capPauseEnd v0

/-- CAP_TEST_STEP_SAMPLE (R68). -/
def execCapTestStepSample (v1 : Nat) (i1 : Nat) (s : State) : Host.Outcome State Fault Refusal := act (decide (v1 < 65536 ∧ i1 < 65536)) s fun d => d.capStep v1 i1

/-- CAP_TEST_DISCHARGE_STOP (R69). -/
def execCapTestDischargeStop (v2 : Nat) (q : Nat) (t : Nat) (s : State) : Host.Outcome State Fault Refusal := act (decide (v2 < 65536)) s fun d => d.capStop v2 q t

/-- CAP_TEST_EXPIRE (R69). -/
def execCapTestExpire (s : State) : Host.Outcome State Fault Refusal := act true s fun d => d.capExpire

/-- DRILL_START (R72). -/
def execDrillStart (s : State) : Host.Outcome State Fault Refusal := act true s fun d => d.mgrWrite uChip oDrillStart 1

/-- DRILL_INTERVAL_EXPIRE (R72). -/
def execDrillIntervalExpire (s : State) : Host.Outcome State Fault Refusal := act true s fun d => d.drillInterval

/-- DRILL_WRITE_END (R72). -/
def execDrillWriteEnd (bytes : Nat) (dur : Nat) (power : Nat) (s : State) : Host.Outcome State Fault Refusal := act true s fun d => d.drillWriteEnd bytes dur power

/-- DRILL_RESUME_COMPLETE (R73). -/
def execDrillResumeComplete (s : State) : Host.Outcome State Fault Refusal := act true s fun d => d.drillResume

end Sys2Proof.Machine
end

