-- ==== Sys2Proof/Machine/Dispatch.lean ====
section
/-! DEFINITION. One arm for each constructor of Instr: a direct call of its meaning. -/
namespace Sys2Proof.Machine
open Sys2Proof

def exec (i : Instr) (s : State) : Host.Outcome State Fault Refusal :=
  match i with
  | .powerOnReset keepOk lshEn lshAddr lshMstr testMode => Sys2Proof.Machine.execPowerOnReset keepOk lshEn lshAddr lshMstr testMode s
  | .powerUpStart => Sys2Proof.Machine.execPowerUpStart s
  | .railEnable r => Sys2Proof.Machine.execRailEnable r s
  | .railStartFail r => Sys2Proof.Machine.execRailStartFail r s
  | .adcSample r code => Sys2Proof.Machine.execAdcSample r code s
  | .railDischargeTimeout r => Sys2Proof.Machine.execRailDischargeTimeout r s
  | .regulatorPoll r answered bad => Sys2Proof.Machine.execRegulatorPoll r answered bad s
  | .avsAckReceive q => Sys2Proof.Machine.execAvsAckReceive q s
  | .avsAckTimeout q => Sys2Proof.Machine.execAvsAckTimeout q s
  | .qclkSlewComplete q => Sys2Proof.Machine.execQclkSlewComplete q s
  | .auxBrownout => Sys2Proof.Machine.execAuxBrownout s
  | .mrstN len => Sys2Proof.Machine.execMrstN len s
  | .pwrbtnShortPress len => Sys2Proof.Machine.execPwrbtnShortPress len s
  | .pwrbtnLongPress len => Sys2Proof.Machine.execPwrbtnLongPress len s
  | .pwrbtnIgnoredPress len => Sys2Proof.Machine.execPwrbtnIgnoredPress len s
  | .marginMode on => Sys2Proof.Machine.execMarginMode on s
  | .marginStep r v => Sys2Proof.Machine.execMarginStep r v s
  | .operatingPointChange points => Sys2Proof.Machine.execOperatingPointChange points s
  | .railRestart r => Sys2Proof.Machine.execRailRestart r s
  | .clearCounters r => Sys2Proof.Machine.execClearCounters r s
  | .shutdownRequestClear => Sys2Proof.Machine.execShutdownRequestClear s
  | .pfailT0 => Sys2Proof.Machine.execPfailT0 s
  | .lshSyncTrigger => Sys2Proof.Machine.execLshSyncTrigger s
  | .lshSyncStuck => Sys2Proof.Machine.execLshSyncStuck s
  | .vaultThenOff => Sys2Proof.Machine.execVaultThenOff s
  | .vaultThenHold => Sys2Proof.Machine.execVaultThenHold s
  | .quiesceComplete => Sys2Proof.Machine.execQuiesceComplete s
  | .quiesceOverrun kind n => Sys2Proof.Machine.execQuiesceOverrun kind n s
  | .shedComplete => Sys2Proof.Machine.execShedComplete s
  | .vaultBegin => Sys2Proof.Machine.execVaultBegin s
  | .spillComplete => Sys2Proof.Machine.execSpillComplete s
  | .segmentProgramDone idx issued mask => Sys2Proof.Machine.execSegmentProgramDone idx issued mask s
  | .sealDurable => Sys2Proof.Machine.execSealDurable s
  | .flashProgramFail idx rec => Sys2Proof.Machine.execFlashProgramFail idx rec s
  | .lunFailDuringVault lun => Sys2Proof.Machine.execLunFailDuringVault lun s
  | .energyGuardCheck v => Sys2Proof.Machine.execEnergyGuardCheck v s
  | .rescindTimerExpire => Sys2Proof.Machine.execRescindTimerExpire s
  | .rescindResumeComplete => Sys2Proof.Machine.execRescindResumeComplete s
  | .retainToDark => Sys2Proof.Machine.execRetainToDark s
  | .ceilingCompute mean => Sys2Proof.Machine.execCeilingCompute mean s
  | .chargerPoll answered => Sys2Proof.Machine.execChargerPoll answered s
  | .capTestStart => Sys2Proof.Machine.execCapTestStart s
  | .capTestAutoStart => Sys2Proof.Machine.execCapTestAutoStart s
  | .capTestIntervalExpire => Sys2Proof.Machine.execCapTestIntervalExpire s
  | .capTestDeferRetry => Sys2Proof.Machine.execCapTestDeferRetry s
  | .capTestPauseEnd v0 => Sys2Proof.Machine.execCapTestPauseEnd v0 s
  | .capTestStepSample v1 i1 => Sys2Proof.Machine.execCapTestStepSample v1 i1 s
  | .capTestDischargeStop v2 q t => Sys2Proof.Machine.execCapTestDischargeStop v2 q t s
  | .capTestExpire => Sys2Proof.Machine.execCapTestExpire s
  | .drillStart => Sys2Proof.Machine.execDrillStart s
  | .drillIntervalExpire => Sys2Proof.Machine.execDrillIntervalExpire s
  | .drillWriteEnd bytes dur power => Sys2Proof.Machine.execDrillWriteEnd bytes dur power s
  | .drillResumeComplete => Sys2Proof.Machine.execDrillResumeComplete s
  | .governorAdmit => Sys2Proof.Machine.execGovernorAdmit s
  | .placeComplete id bad => Sys2Proof.Machine.execPlaceComplete id bad s
  | .throughWriteComplete id ok => Sys2Proof.Machine.execThroughWriteComplete id ok s
  | .mirroringComplete => Sys2Proof.Machine.execMirroringComplete s
  | .destageIdleTimer bad => Sys2Proof.Machine.execDestageIdleTimer bad s
  | .destageIssue bad => Sys2Proof.Machine.execDestageIssue bad s
  | .destageWriteComplete cmd ok => Sys2Proof.Machine.execDestageWriteComplete cmd ok s
  | .destageFlushIssue port nsid => Sys2Proof.Machine.execDestageFlushIssue port nsid s
  | .destageFlushComplete port nsid ok => Sys2Proof.Machine.execDestageFlushComplete port nsid ok s
  | .bucketRebuildComplete => Sys2Proof.Machine.execBucketRebuildComplete s
  | .volumeTableWrite off data => Sys2Proof.Machine.execVolumeTableWrite off data s
  | .nvmeWrite q cid nsid lba nlb data => Sys2Proof.Machine.execNvmeWrite q cid nsid lba nlb data s
  | .nvmeRead q cid nsid lba nlb dst bad => Sys2Proof.Machine.execNvmeRead q cid nsid lba nlb dst bad s
  | .nvmeFlush q cid nsid => Sys2Proof.Machine.execNvmeFlush q cid nsid s
  | .writeZeroes q cid nsid lba nlb => Sys2Proof.Machine.execWriteZeroes q cid nsid lba nlb s
  | .writeUncorrectable q cid nsid lba nlb => Sys2Proof.Machine.execWriteUncorrectable q cid nsid lba nlb s
  | .createIoSq idx cid qid size prp contig cqid => Sys2Proof.Machine.execCreateIoSq idx cid qid size prp contig cqid s
  | .createIoCq idx cid qid size prp contig vec => Sys2Proof.Machine.execCreateIoCq idx cid qid size prp contig vec s
  | .deleteIoSq idx cid qid => Sys2Proof.Machine.execDeleteIoSq idx cid qid s
  | .deleteIoCq idx cid qid => Sys2Proof.Machine.execDeleteIoCq idx cid qid s
  | .getLogPage idx cid lid off len dst => Sys2Proof.Machine.execGetLogPage idx cid lid off len dst s
  | .identify idx cid cns nsid dst => Sys2Proof.Machine.execIdentify idx cid cns nsid dst s
  | .abort idx cid sqid tgt => Sys2Proof.Machine.execAbort idx cid sqid tgt s
  | .setFeatures idx cid fid v => Sys2Proof.Machine.execSetFeatures idx cid fid v s
  | .getFeatures idx cid fid => Sys2Proof.Machine.execGetFeatures idx cid fid s
  | .asynchronousEventRequest idx cid => Sys2Proof.Machine.execAsynchronousEventRequest idx cid s
  | .keepAlive idx cid => Sys2Proof.Machine.execKeepAlive idx cid s
  | .invalidCommandOpcode q cid opc => Sys2Proof.Machine.execInvalidCommandOpcode q cid opc s
  | .wakeComplete found speed failed marginal metaOk bad readA readB => Sys2Proof.Machine.execWakeComplete found speed failed marginal metaOk bad readA readB s
  | .restoreReadComplete lost => Sys2Proof.Machine.execRestoreReadComplete lost s
  | .restoreRebuildComplete => Sys2Proof.Machine.execRestoreRebuildComplete s
  | .fetchHostAdmit => Sys2Proof.Machine.execFetchHostAdmit s
  | .restoreSegmentInstalled idx ok latency => Sys2Proof.Machine.execRestoreSegmentInstalled idx ok latency s
  | .backgroundSegmentRestored ok => Sys2Proof.Machine.execBackgroundSegmentRestored ok s
  | .configRetryLimitExpire => Sys2Proof.Machine.execConfigRetryLimitExpire s
  | .lostRangeRelease v => Sys2Proof.Machine.execLostRangeRelease v s
  | .kennelFormat => Sys2Proof.Machine.execKennelFormat s
  | .kennelFormatForce => Sys2Proof.Machine.execKennelFormatForce s
  | .kennelFormatComplete found => Sys2Proof.Machine.execKennelFormatComplete found s
  | .flashBlockFail n block dead => Sys2Proof.Machine.execFlashBlockFail n block dead s
  | .slotEraseComplete idx => Sys2Proof.Machine.execSlotEraseComplete idx s
  | .scratchEraseComplete => Sys2Proof.Machine.execScratchEraseComplete s
  | .slotUsabilityCheck => Sys2Proof.Machine.execSlotUsabilityCheck s
  | .leashCycle => Sys2Proof.Machine.execLeashCycle s
  | .pollMissed n => Sys2Proof.Machine.execPollMissed n s
  | .beacon f => Sys2Proof.Machine.execBeacon f s
  | .poll f => Sys2Proof.Machine.execPoll f s
  | .status f => Sys2Proof.Machine.execStatus f s
  | .grant f => Sys2Proof.Machine.execGrant f s
  | .slotAck f => Sys2Proof.Machine.execSlotAck f s
  | .leashReset f => Sys2Proof.Machine.execLeashReset f s
  | .dictReq f => Sys2Proof.Machine.execDictReq f s
  | .dictRsp f => Sys2Proof.Machine.execDictRsp f s
  | .forwardTimeout id => Sys2Proof.Machine.execForwardTimeout id s
  | .mastershipTakeover => Sys2Proof.Machine.execMastershipTakeover s
  | .grantExpire => Sys2Proof.Machine.execGrantExpire s
  | .budgetCompute => Sys2Proof.Machine.execBudgetCompute s
  | .absentHoldExpire n => Sys2Proof.Machine.execAbsentHoldExpire n s
  | .waveStart => Sys2Proof.Machine.execWaveStart s
  | .slotCmdSend => Sys2Proof.Machine.execSlotCmdSend s
  | .packResetMember v => Sys2Proof.Machine.execPackResetMember v s
  | .drivePresenceDetect n here => Sys2Proof.Machine.execDrivePresenceDetect n here s
  | .portLinkUp n speed width ds dw => Sys2Proof.Machine.execPortLinkUp n speed width ds dw s
  | .portTrainTimeout n => Sys2Proof.Machine.execPortTrainTimeout n s
  | .driveBind n fits serial vwc ns => Sys2Proof.Machine.execDriveBind n fits serial vwc ns s
  | .driveLost n => Sys2Proof.Machine.execDriveLost n s
  | .portReadyTimeout n => Sys2Proof.Machine.execPortReadyTimeout n s
  | .rebuild n => Sys2Proof.Machine.execRebuild n s
  | .rebuildComplete v idx => Sys2Proof.Machine.execRebuildComplete v idx s
  | .prepareRemove n => Sys2Proof.Machine.execPrepareRemove n s
  | .prepareRemoveForce n => Sys2Proof.Machine.execPrepareRemoveForce n s
  | .prepareRemoveDrainEnd n => Sys2Proof.Machine.execPrepareRemoveDrainEnd n s
  | .powerOn slot => Sys2Proof.Machine.execPowerOn slot s
  | .powerOff slot => Sys2Proof.Machine.execPowerOff slot s
  | .dramCommandIssue idx held passed must res => Sys2Proof.Machine.execDramCommandIssue idx held passed must res s
  | .activateTableClear => Sys2Proof.Machine.execActivateTableClear s
  | .mr4Read n t => Sys2Proof.Machine.execMr4Read n t s
  | .dramAlert idx rank => Sys2Proof.Machine.execDramAlert idx rank s
  | .selfRefreshExit n => Sys2Proof.Machine.execSelfRefreshExit n s
  | .retrainDue n outcome t => Sys2Proof.Machine.execRetrainDue n outcome t s
  | .channelQuarantine n => Sys2Proof.Machine.execChannelQuarantine n s
  | .channelRetrain n => Sys2Proof.Machine.execChannelRetrain n s
  | .quarantineRescueComplete n bad badPages => Sys2Proof.Machine.execQuarantineRescueComplete n bad badPages s
  | .domainRequestOn u => Sys2Proof.Machine.execDomainRequestOn u s
  | .domainRequestRet u mute => Sys2Proof.Machine.execDomainRequestRet u mute s
  | .domainRequestOff u mute => Sys2Proof.Machine.execDomainRequestOff u mute s
  | .domainEntryComplete u => Sys2Proof.Machine.execDomainEntryComplete u s
  | .inrushGrant => Sys2Proof.Machine.execInrushGrant s
  | .domainReady u => Sys2Proof.Machine.execDomainReady u s
  | .transactionArrival u tag acc addr data => Sys2Proof.Machine.execTransactionArrival u tag acc addr data s
  | .domainLock u mute => Sys2Proof.Machine.execDomainLock u mute s
  | .padRelease u => Sys2Proof.Machine.execPadRelease u s
  | .supervisorIdleExpire => Sys2Proof.Machine.execSupervisorIdleExpire s
  | .addressMatchWake i3c addr => Sys2Proof.Machine.execAddressMatchWake i3c addr s
  | .supervisorWakeEvent => Sys2Proof.Machine.execSupervisorWakeEvent s
  | .stretchOverrun => Sys2Proof.Machine.execStretchOverrun s
  | .mctpPacketReceive tr eid tag som eom seq data => Sys2Proof.Machine.execMctpPacketReceive tr eid tag som eom seq data s
  | .reassemblyTimeout tr eid tag => Sys2Proof.Machine.execReassemblyTimeout tr eid tag s
  | .openSession r body => Sys2Proof.Machine.execOpenSession r body s
  | .prove r body => Sys2Proof.Machine.execProve r body s
  | .read r body => Sys2Proof.Machine.execRead r body s
  | .write r body => Sys2Proof.Machine.execWrite r body s
  | .readBlock r body => Sys2Proof.Machine.execReadBlock r body s
  | .writeBlock r body => Sys2Proof.Machine.execWriteBlock r body s
  | .commit r body => Sys2Proof.Machine.execCommit r body s
  | .discard r body => Sys2Proof.Machine.execDiscard r body s
  | .heel r body => Sys2Proof.Machine.execHeel r body s
  | .close r body => Sys2Proof.Machine.execClose r body s
  | .lockoutExpire role => Sys2Proof.Machine.execLockoutExpire role s
  | .proveTimeout idx => Sys2Proof.Machine.execProveTimeout idx s
  | .sessionIdleExpire idx => Sys2Proof.Machine.execSessionIdleExpire idx s
  | .setEndpointId tr eid op new => Sys2Proof.Machine.execSetEndpointId tr eid op new s
  | .getEndpointId tr eid => Sys2Proof.Machine.execGetEndpointId tr eid s
  | .getEndpointUuid tr eid => Sys2Proof.Machine.execGetEndpointUuid tr eid s
  | .getMctpVersionSupport tr eid typ => Sys2Proof.Machine.execGetMctpVersionSupport tr eid typ s
  | .getMessageTypeSupport tr eid => Sys2Proof.Machine.execGetMessageTypeSupport tr eid s
  | .getVendorDefinedMessageSupport tr eid sel => Sys2Proof.Machine.execGetVendorDefinedMessageSupport tr eid sel s
  | .unsupportedControlCommand tr eid cmd => Sys2Proof.Machine.execUnsupportedControlCommand tr eid cmd s
  | .fuseProgram v cut => Sys2Proof.Machine.execFuseProgram v cut s
  | .fuseLock cut => Sys2Proof.Machine.execFuseLock cut s
  | .faultOccurrence src acc iu ii addr tag => Sys2Proof.Machine.execFaultOccurrence src acc iu ii addr tag s
  | .faultPinSample t c => Sys2Proof.Machine.execFaultPinSample t c s
  | .faultAck sid v => Sys2Proof.Machine.execFaultAck sid v s
  | .forceExitCheck => Sys2Proof.Machine.execForceExitCheck s
  | .unitQuarantine u v => Sys2Proof.Machine.execUnitQuarantine u v s
  | .injectFault v => Sys2Proof.Machine.execInjectFault v s
  | .eventRecordWrite => Sys2Proof.Machine.execEventRecordWrite s
  | .timeAnchor v => Sys2Proof.Machine.execTimeAnchor v s
  | .logFlush => Sys2Proof.Machine.execLogFlush s
  | .logFlushComplete okA okB => Sys2Proof.Machine.execLogFlushComplete okA okB s
  | .logEraseComplete c => Sys2Proof.Machine.execLogEraseComplete c s
  | .eventRecordsRead r => Sys2Proof.Machine.execEventRecordsRead r s
  | .eventCursor r v => Sys2Proof.Machine.execEventCursor r v s
  | .perstN pin => Sys2Proof.Machine.execPerstN pin s
  | .chipSoftReset => Sys2Proof.Machine.execChipSoftReset s
  | .unitReset u => Sys2Proof.Machine.execUnitReset u s
  | .watchdogExpire => Sys2Proof.Machine.execWatchdogExpire s
  | .firmwareImage off data => Sys2Proof.Machine.execFirmwareImage off data s
  | .firmwareStage ok version => Sys2Proof.Machine.execFirmwareStage ok version s
  | .firmwareConfirm => Sys2Proof.Machine.execFirmwareConfirm s
  | .firmwareCancel => Sys2Proof.Machine.execFirmwareCancel s
  | .trialConfirmTimeout => Sys2Proof.Machine.execTrialConfirmTimeout s
  | .clockLoss idx freq => Sys2Proof.Machine.execClockLoss idx freq s
  | .clockRecovered idx => Sys2Proof.Machine.execClockRecovered idx s
  | .xclkHoldoverEnd => Sys2Proof.Machine.execXclkHoldoverEnd s
  | .mclkPllRestart n locked => Sys2Proof.Machine.execMclkPllRestart n locked s
  | .thermalSample idx t => Sys2Proof.Machine.execThermalSample idx t s
  | .hostLinkTrained gen width => Sys2Proof.Machine.execHostLinkTrained gen width s
  | .instanceCreate idx => Sys2Proof.Machine.execInstanceCreate idx s
  | .instanceReset idx => Sys2Proof.Machine.execInstanceReset idx s
  | .instanceRemove idx => Sys2Proof.Machine.execInstanceRemove idx s
  | .fenceWaitEnd idx => Sys2Proof.Machine.execFenceWaitEnd idx s
  | .instanceHaltComplete idx outstanding => Sys2Proof.Machine.execInstanceHaltComplete idx outstanding s
  | .instanceDrainEnd idx arrived => Sys2Proof.Machine.execInstanceDrainEnd idx arrived s
  | .ccEnClear idx => Sys2Proof.Machine.execCcEnClear idx s
  | .flr => Sys2Proof.Machine.execFlr s
  | .instanceTableWrite off data => Sys2Proof.Machine.execInstanceTableWrite off data s
  | .namespaceTableWrite off data => Sys2Proof.Machine.execNamespaceTableWrite off data s
  | .queueTableWrite off data => Sys2Proof.Machine.execQueueTableWrite off data s
  | .doorbellWrite idx control off len val => Sys2Proof.Machine.execDoorbellWrite idx control off len val s
  | .contextQueueWatch q => Sys2Proof.Machine.execContextQueueWatch q s
  | .arbitrationEpoch => Sys2Proof.Machine.execArbitrationEpoch s
  | .sqEntryFetch q => Sys2Proof.Machine.execSqEntryFetch q s
  | .vectorUnmask n addr data pasid => Sys2Proof.Machine.execVectorUnmask n addr data pasid s
  | .programLoad q core image arg => Sys2Proof.Machine.execProgramLoad q core image arg s
  | .programMessage q payload => Sys2Proof.Machine.execProgramMessage q payload s
  | .programKill q => Sys2Proof.Machine.execProgramKill q s
  | .dmaCopy idx queue raw n => Sys2Proof.Machine.execDmaCopy idx queue raw n s
  | .dmaFill idx queue raw n => Sys2Proof.Machine.execDmaFill idx queue raw n s
  | .dmaHostRead idx queue raw n grant data => Sys2Proof.Machine.execDmaHostRead idx queue raw n grant data s
  | .dmaHostWrite idx queue raw n grant => Sys2Proof.Machine.execDmaHostWrite idx queue raw n grant s
  | .dmaVolumeRead idx queue raw n => Sys2Proof.Machine.execDmaVolumeRead idx queue raw n s
  | .dmaVolumeWrite idx queue raw n => Sys2Proof.Machine.execDmaVolumeWrite idx queue raw n s
  | .dmaChannelResume a => Sys2Proof.Machine.execDmaChannelResume a s
  | .dmaFaultEnd a => Sys2Proof.Machine.execDmaFaultEnd a s
  | .dmaDescriptorComplete idx => Sys2Proof.Machine.execDmaDescriptorComplete idx s
  | .pageResponseReceive prg ok => Sys2Proof.Machine.execPageResponseReceive prg ok s
  | .hostPageTimeout prg => Sys2Proof.Machine.execHostPageTimeout prg s
  | .tlbInvalidate asid host va => Sys2Proof.Machine.execTlbInvalidate asid host va s
  | .deflateCompress idx queue raw n => Sys2Proof.Machine.execDeflateCompress idx queue raw n s
  | .deflateDecompress idx queue raw n => Sys2Proof.Machine.execDeflateDecompress idx queue raw n s
  | .zstandardCompress idx queue raw n => Sys2Proof.Machine.execZstandardCompress idx queue raw n s
  | .zstandardDecompress idx queue raw n => Sys2Proof.Machine.execZstandardDecompress idx queue raw n s
  | .lz4Compress idx queue raw n => Sys2Proof.Machine.execLz4Compress idx queue raw n s
  | .lz4Decompress idx queue raw n => Sys2Proof.Machine.execLz4Decompress idx queue raw n s
  | .scanRow idx queue raw n => Sys2Proof.Machine.execScanRow idx queue raw n s
  | .scanColumn idx queue raw n => Sys2Proof.Machine.execScanColumn idx queue raw n s
  | .hashProbe idx queue raw n => Sys2Proof.Machine.execHashProbe idx queue raw n s
  | .bloomTest idx queue raw n => Sys2Proof.Machine.execBloomTest idx queue raw n s
  | .runSearch idx queue raw n => Sys2Proof.Machine.execRunSearch idx queue raw n s
  | .xtsEncrypt idx queue raw n => Sys2Proof.Machine.execXtsEncrypt idx queue raw n s
  | .xtsDecrypt idx queue raw n => Sys2Proof.Machine.execXtsDecrypt idx queue raw n s
  | .sha256 idx queue raw n => Sys2Proof.Machine.execSha256 idx queue raw n s
  | .sha384 idx queue raw n => Sys2Proof.Machine.execSha384 idx queue raw n s
  | .rsEncode idx queue raw n => Sys2Proof.Machine.execRsEncode idx queue raw n s
  | .rsReconstruct idx queue raw n => Sys2Proof.Machine.execRsReconstruct idx queue raw n s
  | .engineJobComplete idx => Sys2Proof.Machine.execEngineJobComplete idx s
  | .keySlotLoad u v => Sys2Proof.Machine.execKeySlotLoad u v s
  | .sliceExpire core => Sys2Proof.Machine.execSliceExpire core s
  | .asyncTrapTake core => Sys2Proof.Machine.execAsyncTrapTake core s
  | .illegalInstruction core w => Sys2Proof.Machine.execIllegalInstruction core w s
  | .nop core => Sys2Proof.Machine.execNop core s
  | .trap core code => Sys2Proof.Machine.execTrap core code s
  | .uret core => Sys2Proof.Machine.execUret core s
  | .sret core => Sys2Proof.Machine.execSret core s
  | .fence core => Sys2Proof.Machine.execFence core s
  | .ifence core => Sys2Proof.Machine.execIfence core s
  | .wfi core => Sys2Proof.Machine.execWfi core s
  | .mfc core rd cr => Sys2Proof.Machine.execMfc core rd cr s
  | .mtc core cr ra => Sys2Proof.Machine.execMtc core cr ra s
  | .lclr core rc => Sys2Proof.Machine.execLclr core rc s
  | .yield core => Sys2Proof.Machine.execYield core s
  | .add core rd ra rb => Sys2Proof.Machine.execAdd core rd ra rb s
  | .addc core rd ra rb => Sys2Proof.Machine.execAddc core rd ra rb s
  | .sub core rd ra rb => Sys2Proof.Machine.execSub core rd ra rb s
  | .subb core rd ra rb => Sys2Proof.Machine.execSubb core rd ra rb s
  | .neg core rd ra => Sys2Proof.Machine.execNeg core rd ra s
  | .cmp core ra rb => Sys2Proof.Machine.execCmp core ra rb s
  | .and core rd ra rb => Sys2Proof.Machine.execAnd core rd ra rb s
  | .or core rd ra rb => Sys2Proof.Machine.execOr core rd ra rb s
  | .xor core rd ra rb => Sys2Proof.Machine.execXor core rd ra rb s
  | .andn core rd ra rb => Sys2Proof.Machine.execAndn core rd ra rb s
  | .sll core rd ra rb => Sys2Proof.Machine.execSll core rd ra rb s
  | .srl core rd ra rb => Sys2Proof.Machine.execSrl core rd ra rb s
  | .sra core rd ra rb => Sys2Proof.Machine.execSra core rd ra rb s
  | .rol core rd ra rb => Sys2Proof.Machine.execRol core rd ra rb s
  | .ror core rd ra rb => Sys2Proof.Machine.execRor core rd ra rb s
  | .min core rd ra rb => Sys2Proof.Machine.execMin core rd ra rb s
  | .max core rd ra rb => Sys2Proof.Machine.execMax core rd ra rb s
  | .minu core rd ra rb => Sys2Proof.Machine.execMinu core rd ra rb s
  | .maxu core rd ra rb => Sys2Proof.Machine.execMaxu core rd ra rb s
  | .slt core rd ra rb => Sys2Proof.Machine.execSlt core rd ra rb s
  | .sltu core rd ra rb => Sys2Proof.Machine.execSltu core rd ra rb s
  | .clz core rd ra => Sys2Proof.Machine.execClz core rd ra s
  | .ctz core rd ra => Sys2Proof.Machine.execCtz core rd ra s
  | .popc core rd ra => Sys2Proof.Machine.execPopc core rd ra s
  | .bswap core rd ra => Sys2Proof.Machine.execBswap core rd ra s
  | .csel core rd ra rb cc => Sys2Proof.Machine.execCsel core rd ra rb cc s
  | .mul core rd ra rb => Sys2Proof.Machine.execMul core rd ra rb s
  | .mulh core rd ra rb => Sys2Proof.Machine.execMulh core rd ra rb s
  | .mulhu core rd ra rb => Sys2Proof.Machine.execMulhu core rd ra rb s
  | .div core rd ra rb rc => Sys2Proof.Machine.execDiv core rd ra rb rc s
  | .divu core rd ra rb rc => Sys2Proof.Machine.execDivu core rd ra rb rc s
  | .addi core rd ra imm => Sys2Proof.Machine.execAddi core rd ra imm s
  | .andi core rd ra imm => Sys2Proof.Machine.execAndi core rd ra imm s
  | .ori core rd ra imm => Sys2Proof.Machine.execOri core rd ra imm s
  | .xori core rd ra imm => Sys2Proof.Machine.execXori core rd ra imm s
  | .cmpi core ra imm => Sys2Proof.Machine.execCmpi core ra imm s
  | .movz core rd h imm => Sys2Proof.Machine.execMovz core rd h imm s
  | .movk core rd h imm => Sys2Proof.Machine.execMovk core rd h imm s
  | .slli core rd ra imm => Sys2Proof.Machine.execSlli core rd ra imm s
  | .srli core rd ra imm => Sys2Proof.Machine.execSrli core rd ra imm s
  | .srai core rd ra imm => Sys2Proof.Machine.execSrai core rd ra imm s
  | .rori core rd ra imm => Sys2Proof.Machine.execRori core rd ra imm s
  | .ld core rt base k d12 => Sys2Proof.Machine.execLd core rt base k d12 s
  | .lw core rt base k d12 => Sys2Proof.Machine.execLw core rt base k d12 s
  | .lws core rt base k d12 => Sys2Proof.Machine.execLws core rt base k d12 s
  | .lh core rt base k d12 => Sys2Proof.Machine.execLh core rt base k d12 s
  | .lhs core rt base k d12 => Sys2Proof.Machine.execLhs core rt base k d12 s
  | .lb core rt base k d12 => Sys2Proof.Machine.execLb core rt base k d12 s
  | .lbs core rt base k d12 => Sys2Proof.Machine.execLbs core rt base k d12 s
  | .st core rt base k d12 => Sys2Proof.Machine.execSt core rt base k d12 s
  | .sw core rt base k d12 => Sys2Proof.Machine.execSw core rt base k d12 s
  | .sh core rt base k d12 => Sys2Proof.Machine.execSh core rt base k d12 s
  | .sb core rt base k d12 => Sys2Proof.Machine.execSb core rt base k d12 s
  | .ldShort core rt k a20 => Sys2Proof.Machine.execLdShort core rt k a20 s
  | .lwShort core rt k a20 => Sys2Proof.Machine.execLwShort core rt k a20 s
  | .stShort core rt k a20 => Sys2Proof.Machine.execStShort core rt k a20 s
  | .swShort core rt k a20 => Sys2Proof.Machine.execSwShort core rt k a20 s
  | .vld core vt base k d12 => Sys2Proof.Machine.execVld core vt base k d12 s
  | .vst core vt base k d12 => Sys2Proof.Machine.execVst core vt base k d12 s
  | .amoSwap core rd base k rb => Sys2Proof.Machine.execAmoSwap core rd base k rb s
  | .amoAdd core rd base k rb => Sys2Proof.Machine.execAmoAdd core rd base k rb s
  | .amoAnd core rd base k rb => Sys2Proof.Machine.execAmoAnd core rd base k rb s
  | .amoOr core rd base k rb => Sys2Proof.Machine.execAmoOr core rd base k rb s
  | .amoXor core rd base k rb => Sys2Proof.Machine.execAmoXor core rd base k rb s
  | .amoMin core rd base k rb => Sys2Proof.Machine.execAmoMin core rd base k rb s
  | .amoMax core rd base k rb => Sys2Proof.Machine.execAmoMax core rd base k rb s
  | .amoMinu core rd base k rb => Sys2Proof.Machine.execAmoMinu core rd base k rb s
  | .amoMaxu core rd base k rb => Sys2Proof.Machine.execAmoMaxu core rd base k rb s
  | .amoCas core rd base k rb => Sys2Proof.Machine.execAmoCas core rd base k rb s
  | .pref core base k d12 => Sys2Proof.Machine.execPref core base k d12 s
  | .beq core ra rb d16 => Sys2Proof.Machine.execBeq core ra rb d16 s
  | .bne core ra rb d16 => Sys2Proof.Machine.execBne core ra rb d16 s
  | .blt core ra rb d16 => Sys2Proof.Machine.execBlt core ra rb d16 s
  | .bge core ra rb d16 => Sys2Proof.Machine.execBge core ra rb d16 s
  | .bltu core ra rb d16 => Sys2Proof.Machine.execBltu core ra rb d16 s
  | .bgeu core ra rb d16 => Sys2Proof.Machine.execBgeu core ra rb d16 s
  | .bf core cc d16 => Sys2Proof.Machine.execBf core cc d16 s
  | .j core d26 => Sys2Proof.Machine.execJ core d26 s
  | .jal core d26 => Sys2Proof.Machine.execJal core d26 s
  | .jr core rd ra => Sys2Proof.Machine.execJr core rd ra s
  | .loop core lvl rc n16 => Sys2Proof.Machine.execLoop core lvl rc n16 s
  | .movs core es lim => Sys2Proof.Machine.execMovs core es lim s
  | .cmps core es lim => Sys2Proof.Machine.execCmps core es lim s
  | .scans core es lim => Sys2Proof.Machine.execScans core es lim s
  | .fills core es lim => Sys2Proof.Machine.execFills core es lim s
  | .hashs core lim => Sys2Proof.Machine.execHashs core lim s
  | .setb core rd ra => Sys2Proof.Machine.execSetb core rd ra s
  | .getb core rd ra => Sys2Proof.Machine.execGetb core rd ra s
  | .setl core rc ra => Sys2Proof.Machine.execSetl core rc ra s
  | .getl core rd rc => Sys2Proof.Machine.execGetl core rd rc s
  | .sets core rc ra => Sys2Proof.Machine.execSets core rc ra s
  | .gets core rd rc => Sys2Proof.Machine.execGets core rd rc s
  | .vadd core es vd va vb => Sys2Proof.Machine.execVadd core es vd va vb s
  | .vsub core es vd va vb => Sys2Proof.Machine.execVsub core es vd va vb s
  | .vmul core es vd va vb => Sys2Proof.Machine.execVmul core es vd va vb s
  | .vand core vd va vb => Sys2Proof.Machine.execVand core vd va vb s
  | .vor core vd va vb => Sys2Proof.Machine.execVor core vd va vb s
  | .vxor core vd va vb => Sys2Proof.Machine.execVxor core vd va vb s
  | .vandn core vd va vb => Sys2Proof.Machine.execVandn core vd va vb s
  | .vmin core es vd va vb => Sys2Proof.Machine.execVmin core es vd va vb s
  | .vmax core es vd va vb => Sys2Proof.Machine.execVmax core es vd va vb s
  | .vminu core es vd va vb => Sys2Proof.Machine.execVminu core es vd va vb s
  | .vmaxu core es vd va vb => Sys2Proof.Machine.execVmaxu core es vd va vb s
  | .vcmpeq core es vd va vb => Sys2Proof.Machine.execVcmpeq core es vd va vb s
  | .vcmpgt core es vd va vb => Sys2Proof.Machine.execVcmpgt core es vd va vb s
  | .vcmpgtu core es vd va vb => Sys2Proof.Machine.execVcmpgtu core es vd va vb s
  | .vsll core es vd va vb => Sys2Proof.Machine.execVsll core es vd va vb s
  | .vsrl core es vd va vb => Sys2Proof.Machine.execVsrl core es vd va vb s
  | .vsra core es vd va vb => Sys2Proof.Machine.execVsra core es vd va vb s
  | .vbsl core vd va vb => Sys2Proof.Machine.execVbsl core vd va vb s
  | .vbcast core es vd va => Sys2Proof.Machine.execVbcast core es vd va s
  | .vext core es vd va l => Sys2Proof.Machine.execVext core es vd va l s
  | .vins core es vd va l => Sys2Proof.Machine.execVins core es vd va l s
  | .vrsum core es vd va => Sys2Proof.Machine.execVrsum core es vd va s
  | .vrmin core es vd va => Sys2Proof.Machine.execVrmin core es vd va s
  | .vrmax core es vd va => Sys2Proof.Machine.execVrmax core es vd va s
  | .vmsk core es vd va => Sys2Proof.Machine.execVmsk core es vd va s
  | .vmov core vd va => Sys2Proof.Machine.execVmov core vd va s
  | .bypass tdi => Sys2Proof.Machine.execBypass tdi s
  | .idcode tdi => Sys2Proof.Machine.execIdcode tdi s
  | .samplePreload pins tdi => Sys2Proof.Machine.execSamplePreload pins tdi s
  | .extest pins tdi => Sys2Proof.Machine.execExtest pins tdi s
  | .clamp tdi => Sys2Proof.Machine.execClamp tdi s
  | .highz tdi => Sys2Proof.Machine.execHighz tdi s
  | .perstNRelease => Sys2Proof.Machine.execPerstNRelease s
  | .ccEnSet idx cc aqa asq acq => Sys2Proof.Machine.execCcEnSet idx cc aqa asq acq s
  | .busMasterEnableSet => Sys2Proof.Machine.execBusMasterEnableSet s
  | .keepAliveTimeout idx => Sys2Proof.Machine.execKeepAliveTimeout idx s
  | .driveReadyTimeout n => Sys2Proof.Machine.execDriveReadyTimeout n s
  | .driveReadComplete cmd ok data => Sys2Proof.Machine.execDriveReadComplete cmd ok data s
  | .i3cDynamicAddressAssign addr => Sys2Proof.Machine.execI3cDynamicAddressAssign addr s
  | .vbatLowLatch => Sys2Proof.Machine.execVbatLowLatch s
  | .supervisorRestartComplete => Sys2Proof.Machine.execSupervisorRestartComplete s
  | .hostCompletionTimeout idx => Sys2Proof.Machine.execHostCompletionTimeout idx s

end Sys2Proof.Machine
end

