-- ==== Sys2Proof/Machine/Step.lean ====
section
/-! DEFINITION. One step: the command at the front of the queue, or, with none waiting, one tick of the 1 MHz clock. -/
namespace Sys2Proof.Machine
open Sys2Proof

/-- The 1 MHz tick advances (R432). -/
def Dev.tick (d : Dev) : Dev := { d with aon := { d.aon with tick := d.aon.tick + 1 } }

/-- One step. DESIGN CHOICE (log 1): with no command waiting, time passes. [DESIGN CHOICE, log 1] -/
def step (s : State) : Host.Outcome State Fault Refusal :=
  match s.pending with
  | [] => .next { s with dev := s.dev.tick }
  | c :: r => exec c { s with pending := r }

/-- No row of the command table gives bits, so no word spells a command, and the queue stays as it is. -/
def State.withFetchWord (s : State) (nbits w : Nat) : State :=
  match decodeTableWord nbits w with
  | some c => { s with pending := c :: s.pending }
  | none => s

end Sys2Proof.Machine
end

