-- ==== Sys2Proof/WellFormed.lean ====
section
/-! DEFINITION. What a command's operands must satisfy to name something that the spec gives the machine. -/
namespace Sys2Proof
open Sys2Proof.Machine

/-- The operands of a command are in range: rails, quadrants, ports, channels, instances, queues and the other numbered things exist, and bytes, words and
request fields fit. An ill-formed command is no command of the table, and changes nothing. -/
def Instr.wf : Instr → Bool
  | .powerOnReset _ _ _ _ _ => true
  | .powerUpStart => true
  | .railEnable r => decide (r < 16)
  | .railStartFail r => decide (r < 16)
  | .adcSample r code => decide (r < 24 ∧ code < 4096)
  | .railDischargeTimeout r => decide (r < 16)
  | .regulatorPoll r _ _ => decide (r < 16)
  | .avsAckReceive q => decide (q < 4)
  | .avsAckTimeout q => decide (q < 4)
  | .qclkSlewComplete q => decide (q < 4)
  | .auxBrownout => true
  | .mrstN _ => true
  | .pwrbtnShortPress _ => true
  | .pwrbtnLongPress _ => true
  | .pwrbtnIgnoredPress _ => true
  | .marginMode _ => true
  | .marginStep r v => decide (r < 24 ∧ (-128 ≤ v ∧ v < 128))
  | .operatingPointChange _ => true
  | .railRestart r => decide (r < 16)
  | .clearCounters r => decide (r < 256)
  | .shutdownRequestClear => true
  | .pfailT0 => true
  | .lshSyncTrigger => true
  | .lshSyncStuck => true
  | .vaultThenOff => true
  | .vaultThenHold => true
  | .quiesceComplete => true
  | .quiesceOverrun _ _ => true
  | .shedComplete => true
  | .vaultBegin => true
  | .spillComplete => true
  | .segmentProgramDone _ _ _ => true
  | .sealDurable => true
  | .flashProgramFail _ _ => true
  | .lunFailDuringVault lun => decide (lun < 256)
  | .energyGuardCheck v => decide (v < 65536)
  | .rescindTimerExpire => true
  | .rescindResumeComplete => true
  | .retainToDark => true
  | .ceilingCompute mean => decide (mean < 65536)
  | .chargerPoll _ => true
  | .capTestStart => true
  | .capTestAutoStart => true
  | .capTestIntervalExpire => true
  | .capTestDeferRetry => true
  | .capTestPauseEnd v0 => decide (v0 < 65536)
  | .capTestStepSample v1 i1 => decide (v1 < 65536 ∧ i1 < 65536)
  | .capTestDischargeStop v2 _ _ => decide (v2 < 65536)
  | .capTestExpire => true
  | .drillStart => true
  | .drillIntervalExpire => true
  | .drillWriteEnd _ _ _ => true
  | .drillResumeComplete => true
  | .governorAdmit => true
  | .placeComplete _ _ => true
  | .throughWriteComplete _ _ => true
  | .mirroringComplete => true
  | .destageIdleTimer _ => true
  | .destageIssue _ => true
  | .destageWriteComplete _ _ => true
  | .destageFlushIssue port _ => decide (port < 64)
  | .destageFlushComplete port _ _ => decide (port < 64)
  | .bucketRebuildComplete => true
  | .volumeTableWrite _ _ => true
  | .nvmeWrite q cid _ _ nlb _ => decide (q < 16384 ∧ cid < 65536 ∧ nlb < 65536)
  | .nvmeRead q cid _ _ nlb _ _ => decide (q < 16384 ∧ cid < 65536 ∧ nlb < 65536)
  | .nvmeFlush q cid _ => decide (q < 16384 ∧ cid < 65536)
  | .writeZeroes q cid _ _ nlb => decide (q < 16384 ∧ cid < 65536 ∧ nlb < 65536)
  | .writeUncorrectable q cid _ _ nlb => decide (q < 16384 ∧ cid < 65536 ∧ nlb < 65536)
  | .createIoSq i cid qid size _ _ cqid => decide (i < 4096 ∧ cid < 65536 ∧ qid < 65536 ∧ size < 65536 ∧ cqid < 65536)
  | .createIoCq i cid qid size _ _ _ => decide (i < 4096 ∧ cid < 65536 ∧ qid < 65536 ∧ size < 65536)
  | .deleteIoSq i cid qid => decide (i < 4096 ∧ cid < 65536 ∧ qid < 65536)
  | .deleteIoCq i cid qid => decide (i < 4096 ∧ cid < 65536 ∧ qid < 65536)
  | .getLogPage i cid lid _ _ _ => decide (i < 4096 ∧ cid < 65536 ∧ lid < 256)
  | .identify i cid cns _ _ => decide (i < 4096 ∧ cid < 65536 ∧ cns < 256)
  | .abort i cid sqid tgt => decide (i < 4096 ∧ cid < 65536 ∧ sqid < 65536 ∧ tgt < 65536)
  | .setFeatures i cid fid _ => decide (i < 4096 ∧ cid < 65536 ∧ fid < 256)
  | .getFeatures i cid fid => decide (i < 4096 ∧ cid < 65536 ∧ fid < 256)
  | .asynchronousEventRequest i cid => decide (i < 4096 ∧ cid < 65536)
  | .keepAlive i cid => decide (i < 4096 ∧ cid < 65536)
  | .invalidCommandOpcode q cid opc => decide (q < 16384 ∧ cid < 65536 ∧ opc < 256)
  | .wakeComplete _ _ _ _ _ _ _ _ => true
  | .restoreReadComplete _ => true
  | .restoreRebuildComplete => true
  | .fetchHostAdmit => true
  | .restoreSegmentInstalled _ _ _ => true
  | .backgroundSegmentRestored _ => true
  | .configRetryLimitExpire => true
  | .lostRangeRelease v => decide (v < 65536)
  | .kennelFormat => true
  | .kennelFormatForce => true
  | .kennelFormatComplete _ => true
  | .flashBlockFail n _ _ => decide (n < 256)
  | .slotEraseComplete i => decide (i < 2)
  | .scratchEraseComplete => true
  | .slotUsabilityCheck => true
  | .leashCycle => true
  | .pollMissed n => decide (n < 16)
  | .beacon f => decide (f.length ≤ 263)
  | .poll f => decide (f.length ≤ 263)
  | .status f => decide (f.length ≤ 263)
  | .grant f => decide (f.length ≤ 263)
  | .slotAck f => decide (f.length ≤ 263)
  | .leashReset f => decide (f.length ≤ 263)
  | .dictReq f => decide (f.length ≤ 263)
  | .dictRsp f => decide (f.length ≤ 263)
  | .forwardTimeout id => decide (id < 256)
  | .mastershipTakeover => true
  | .grantExpire => true
  | .budgetCompute => true
  | .absentHoldExpire n => decide (n < 16)
  | .waveStart => true
  | .slotCmdSend => true
  | .packResetMember v => decide (v < 256)
  | .drivePresenceDetect n _ => decide (n < 64)
  | .portLinkUp n speed width ds dw => decide (n < 64 ∧ speed < 256 ∧ width < 256 ∧ ds < 256 ∧ dw < 256)
  | .portTrainTimeout n => decide (n < 64)
  | .driveBind n _ _ _ _ => decide (n < 64)
  | .driveLost n => decide (n < 64)
  | .portReadyTimeout n => decide (n < 64)
  | .rebuild n => decide (n < 64)
  | .rebuildComplete v i => decide (v < 4096 ∧ i < 64)
  | .prepareRemove n => decide (n < 64)
  | .prepareRemoveForce n => decide (n < 64)
  | .prepareRemoveDrainEnd n => decide (n < 64)
  | .powerOn slot => decide (slot < 128)
  | .powerOff slot => decide (slot < 128)
  | .dramCommandIssue i _ _ _ _ => decide (i < 16)
  | .activateTableClear => true
  | .mr4Read n _ => decide (n < 8)
  | .dramAlert i _ => decide (i < 16)
  | .selfRefreshExit n => decide (n < 8)
  | .retrainDue n _ _ => decide (n < 8)
  | .channelQuarantine n => decide (n < 8)
  | .channelRetrain n => decide (n < 8)
  | .quarantineRescueComplete n _ _ => decide (n < 8)
  | .domainRequestOn u => decide (u < 65536)
  | .domainRequestRet u _ => decide (u < 65536)
  | .domainRequestOff u _ => decide (u < 65536)
  | .domainEntryComplete u => decide (u < 65536)
  | .inrushGrant => true
  | .domainReady u => decide (u < 65536)
  | .transactionArrival u _ _ _ _ => decide (u < 65536)
  | .domainLock u _ => decide (u < 65536)
  | .padRelease u => decide (u < 65536)
  | .supervisorIdleExpire => true
  | .addressMatchWake _ _ => true
  | .supervisorWakeEvent => true
  | .stretchOverrun => true
  | .mctpPacketReceive tr eid _ _ _ _ _ => decide (tr < 256 ∧ eid < 256)
  | .reassemblyTimeout tr eid _ => decide (tr < 256 ∧ eid < 256)
  | .openSession r _ => decide ((r.tr < 256 ∧ r.eid < 256 ∧ r.tag < 8 ∧ r.sid < 256 ∧ r.reqId < 65536 ∧ r.counter < 2 ^ 48))
  | .prove r _ => decide ((r.tr < 256 ∧ r.eid < 256 ∧ r.tag < 8 ∧ r.sid < 256 ∧ r.reqId < 65536 ∧ r.counter < 2 ^ 48))
  | .read r _ => decide ((r.tr < 256 ∧ r.eid < 256 ∧ r.tag < 8 ∧ r.sid < 256 ∧ r.reqId < 65536 ∧ r.counter < 2 ^ 48))
  | .write r _ => decide ((r.tr < 256 ∧ r.eid < 256 ∧ r.tag < 8 ∧ r.sid < 256 ∧ r.reqId < 65536 ∧ r.counter < 2 ^ 48))
  | .readBlock r _ => decide ((r.tr < 256 ∧ r.eid < 256 ∧ r.tag < 8 ∧ r.sid < 256 ∧ r.reqId < 65536 ∧ r.counter < 2 ^ 48))
  | .writeBlock r _ => decide ((r.tr < 256 ∧ r.eid < 256 ∧ r.tag < 8 ∧ r.sid < 256 ∧ r.reqId < 65536 ∧ r.counter < 2 ^ 48))
  | .commit r _ => decide ((r.tr < 256 ∧ r.eid < 256 ∧ r.tag < 8 ∧ r.sid < 256 ∧ r.reqId < 65536 ∧ r.counter < 2 ^ 48))
  | .discard r _ => decide ((r.tr < 256 ∧ r.eid < 256 ∧ r.tag < 8 ∧ r.sid < 256 ∧ r.reqId < 65536 ∧ r.counter < 2 ^ 48))
  | .heel r _ => decide ((r.tr < 256 ∧ r.eid < 256 ∧ r.tag < 8 ∧ r.sid < 256 ∧ r.reqId < 65536 ∧ r.counter < 2 ^ 48))
  | .close r _ => decide ((r.tr < 256 ∧ r.eid < 256 ∧ r.tag < 8 ∧ r.sid < 256 ∧ r.reqId < 65536 ∧ r.counter < 2 ^ 48))
  | .lockoutExpire role => decide ((1 ≤ role ∧ role ≤ 3))
  | .proveTimeout i => decide (i < 16)
  | .sessionIdleExpire i => decide (i < 16)
  | .setEndpointId tr eid op new => decide (tr < 256 ∧ eid < 256 ∧ op < 256 ∧ new < 256)
  | .getEndpointId tr eid => decide (tr < 256 ∧ eid < 256)
  | .getEndpointUuid tr eid => decide (tr < 256 ∧ eid < 256)
  | .getMctpVersionSupport tr eid typ => decide (tr < 256 ∧ eid < 256 ∧ typ < 256)
  | .getMessageTypeSupport tr eid => decide (tr < 256 ∧ eid < 256)
  | .getVendorDefinedMessageSupport tr eid sel => decide (tr < 256 ∧ eid < 256 ∧ sel < 256)
  | .unsupportedControlCommand tr eid cmd => decide (tr < 256 ∧ eid < 256 ∧ cmd < 256)
  | .fuseProgram _ _ => true
  | .fuseLock _ => true
  | .faultOccurrence _ _ _ _ _ _ => true
  | .faultPinSample _ _ => true
  | .faultAck sid v => decide (sid < 256 ∧ v < 65536)
  | .forceExitCheck => true
  | .unitQuarantine u _ => decide (u < 65536)
  | .injectFault _ => true
  | .eventRecordWrite => true
  | .timeAnchor _ => true
  | .logFlush => true
  | .logFlushComplete _ _ => true
  | .logEraseComplete c => decide (c < 2)
  | .eventRecordsRead r => decide ((r.tr < 256 ∧ r.eid < 256 ∧ r.tag < 8 ∧ r.sid < 256 ∧ r.reqId < 65536 ∧ r.counter < 2 ^ 48))
  | .eventCursor r _ => decide ((r.tr < 256 ∧ r.eid < 256 ∧ r.tag < 8 ∧ r.sid < 256 ∧ r.reqId < 65536 ∧ r.counter < 2 ^ 48))
  | .perstN _ => true
  | .chipSoftReset => true
  | .unitReset u => decide (u < 65536)
  | .watchdogExpire => true
  | .firmwareImage _ _ => true
  | .firmwareStage _ _ => true
  | .firmwareConfirm => true
  | .firmwareCancel => true
  | .trialConfirmTimeout => true
  | .clockLoss i _ => decide (i ≤ 22)
  | .clockRecovered i => decide (i ≤ 22)
  | .xclkHoldoverEnd => true
  | .mclkPllRestart n _ => decide (n < 8)
  | .thermalSample i _ => decide (i < 5)
  | .hostLinkTrained gen width => decide (gen < 256 ∧ width < 256)
  | .instanceCreate i => decide (i < 65536)
  | .instanceReset i => decide (i < 65536)
  | .instanceRemove i => decide (i < 65536)
  | .fenceWaitEnd i => decide (i < 4096)
  | .instanceHaltComplete i _ => decide (i < 4096)
  | .instanceDrainEnd i _ => decide (i < 4096)
  | .ccEnClear i => decide (i < 4096)
  | .flr => true
  | .instanceTableWrite _ _ => true
  | .namespaceTableWrite _ _ => true
  | .queueTableWrite _ _ => true
  | .doorbellWrite i _ _ _ _ => decide (i < 4096)
  | .contextQueueWatch q => decide (q < 16384)
  | .arbitrationEpoch => true
  | .sqEntryFetch q => decide (q < 16384)
  | .vectorUnmask _ _ _ _ => true
  | .programLoad q _ _ _ => decide (q < 16384)
  | .programMessage q _ => decide (q < 16384)
  | .programKill q => decide (q < 16384)
  | .dmaCopy i queue _ _ => decide (i < 1024 ∧ queue < 65536)
  | .dmaFill i queue _ _ => decide (i < 1024 ∧ queue < 65536)
  | .dmaHostRead i queue _ _ _ _ => decide (i < 1024 ∧ queue < 65536)
  | .dmaHostWrite i queue _ _ _ => decide (i < 1024 ∧ queue < 65536)
  | .dmaVolumeRead i queue _ _ => decide (i < 1024 ∧ queue < 65536)
  | .dmaVolumeWrite i queue _ _ => decide (i < 1024 ∧ queue < 65536)
  | .dmaChannelResume a => decide (a < 1344)
  | .dmaFaultEnd a => decide (a < 1344)
  | .dmaDescriptorComplete i => decide (i < 1024)
  | .pageResponseReceive _ _ => true
  | .hostPageTimeout _ => true
  | .tlbInvalidate _ _ _ => true
  | .deflateCompress i queue _ _ => decide (i < 320 ∧ queue < 65536)
  | .deflateDecompress i queue _ _ => decide (i < 320 ∧ queue < 65536)
  | .zstandardCompress i queue _ _ => decide (i < 320 ∧ queue < 65536)
  | .zstandardDecompress i queue _ _ => decide (i < 320 ∧ queue < 65536)
  | .lz4Compress i queue _ _ => decide (i < 320 ∧ queue < 65536)
  | .lz4Decompress i queue _ _ => decide (i < 320 ∧ queue < 65536)
  | .scanRow i queue _ _ => decide (i < 320 ∧ queue < 65536)
  | .scanColumn i queue _ _ => decide (i < 320 ∧ queue < 65536)
  | .hashProbe i queue _ _ => decide (i < 320 ∧ queue < 65536)
  | .bloomTest i queue _ _ => decide (i < 320 ∧ queue < 65536)
  | .runSearch i queue _ _ => decide (i < 320 ∧ queue < 65536)
  | .xtsEncrypt i queue _ _ => decide (i < 320 ∧ queue < 65536)
  | .xtsDecrypt i queue _ _ => decide (i < 320 ∧ queue < 65536)
  | .sha256 i queue _ _ => decide (i < 320 ∧ queue < 65536)
  | .sha384 i queue _ _ => decide (i < 320 ∧ queue < 65536)
  | .rsEncode i queue _ _ => decide (i < 320 ∧ queue < 65536)
  | .rsReconstruct i queue _ _ => decide (i < 320 ∧ queue < 65536)
  | .engineJobComplete i => decide (i < 320)
  | .keySlotLoad u _ => decide (u < 65536)
  | .sliceExpire _ => true
  | .asyncTrapTake _ => true
  | .illegalInstruction _ _ => true
  | .nop _ => true
  | .trap _ _ => true
  | .uret _ => true
  | .sret _ => true
  | .fence _ => true
  | .ifence _ => true
  | .wfi _ => true
  | .mfc _ _ _ => true
  | .mtc _ _ _ => true
  | .lclr _ _ => true
  | .yield _ => true
  | .add _ _ _ _ => true
  | .addc _ _ _ _ => true
  | .sub _ _ _ _ => true
  | .subb _ _ _ _ => true
  | .neg _ _ _ => true
  | .cmp _ _ _ => true
  | .and _ _ _ _ => true
  | .or _ _ _ _ => true
  | .xor _ _ _ _ => true
  | .andn _ _ _ _ => true
  | .sll _ _ _ _ => true
  | .srl _ _ _ _ => true
  | .sra _ _ _ _ => true
  | .rol _ _ _ _ => true
  | .ror _ _ _ _ => true
  | .min _ _ _ _ => true
  | .max _ _ _ _ => true
  | .minu _ _ _ _ => true
  | .maxu _ _ _ _ => true
  | .slt _ _ _ _ => true
  | .sltu _ _ _ _ => true
  | .clz _ _ _ => true
  | .ctz _ _ _ => true
  | .popc _ _ _ => true
  | .bswap _ _ _ => true
  | .csel _ _ _ _ _ => true
  | .mul _ _ _ _ => true
  | .mulh _ _ _ _ => true
  | .mulhu _ _ _ _ => true
  | .div _ _ _ _ _ => true
  | .divu _ _ _ _ _ => true
  | .addi _ _ _ _ => true
  | .andi _ _ _ _ => true
  | .ori _ _ _ _ => true
  | .xori _ _ _ _ => true
  | .cmpi _ _ _ => true
  | .movz _ _ _ _ => true
  | .movk _ _ _ _ => true
  | .slli _ _ _ _ => true
  | .srli _ _ _ _ => true
  | .srai _ _ _ _ => true
  | .rori _ _ _ _ => true
  | .ld _ _ _ _ _ => true
  | .lw _ _ _ _ _ => true
  | .lws _ _ _ _ _ => true
  | .lh _ _ _ _ _ => true
  | .lhs _ _ _ _ _ => true
  | .lb _ _ _ _ _ => true
  | .lbs _ _ _ _ _ => true
  | .st _ _ _ _ _ => true
  | .sw _ _ _ _ _ => true
  | .sh _ _ _ _ _ => true
  | .sb _ _ _ _ _ => true
  | .ldShort _ _ _ _ => true
  | .lwShort _ _ _ _ => true
  | .stShort _ _ _ _ => true
  | .swShort _ _ _ _ => true
  | .vld _ _ _ _ _ => true
  | .vst _ _ _ _ _ => true
  | .amoSwap _ _ _ _ _ => true
  | .amoAdd _ _ _ _ _ => true
  | .amoAnd _ _ _ _ _ => true
  | .amoOr _ _ _ _ _ => true
  | .amoXor _ _ _ _ _ => true
  | .amoMin _ _ _ _ _ => true
  | .amoMax _ _ _ _ _ => true
  | .amoMinu _ _ _ _ _ => true
  | .amoMaxu _ _ _ _ _ => true
  | .amoCas _ _ _ _ _ => true
  | .pref _ _ _ _ => true
  | .beq _ _ _ _ => true
  | .bne _ _ _ _ => true
  | .blt _ _ _ _ => true
  | .bge _ _ _ _ => true
  | .bltu _ _ _ _ => true
  | .bgeu _ _ _ _ => true
  | .bf _ _ _ => true
  | .j _ _ => true
  | .jal _ _ => true
  | .jr _ _ _ => true
  | .loop _ _ _ _ => true
  | .movs _ _ _ => true
  | .cmps _ _ _ => true
  | .scans _ _ _ => true
  | .fills _ _ _ => true
  | .hashs _ _ => true
  | .setb _ _ _ => true
  | .getb _ _ _ => true
  | .setl _ _ _ => true
  | .getl _ _ _ => true
  | .sets _ _ _ => true
  | .gets _ _ _ => true
  | .vadd _ _ _ _ _ => true
  | .vsub _ _ _ _ _ => true
  | .vmul _ _ _ _ _ => true
  | .vand _ _ _ _ => true
  | .vor _ _ _ _ => true
  | .vxor _ _ _ _ => true
  | .vandn _ _ _ _ => true
  | .vmin _ _ _ _ _ => true
  | .vmax _ _ _ _ _ => true
  | .vminu _ _ _ _ _ => true
  | .vmaxu _ _ _ _ _ => true
  | .vcmpeq _ _ _ _ _ => true
  | .vcmpgt _ _ _ _ _ => true
  | .vcmpgtu _ _ _ _ _ => true
  | .vsll _ _ _ _ _ => true
  | .vsrl _ _ _ _ _ => true
  | .vsra _ _ _ _ _ => true
  | .vbsl _ _ _ _ => true
  | .vbcast _ _ _ _ => true
  | .vext _ _ _ _ _ => true
  | .vins _ _ _ _ _ => true
  | .vrsum _ _ _ _ => true
  | .vrmin _ _ _ _ => true
  | .vrmax _ _ _ _ => true
  | .vmsk _ _ _ _ => true
  | .vmov _ _ _ => true
  | .bypass _ => true
  | .idcode _ => true
  | .samplePreload _ _ => true
  | .extest _ _ => true
  | .clamp _ => true
  | .highz _ => true
  | .perstNRelease => true
  | .ccEnSet i _ _ _ _ => decide (i < 4096)
  | .busMasterEnableSet => true
  | .keepAliveTimeout i => decide (i < 4096)
  | .driveReadyTimeout n => decide (n < 64)
  | .driveReadComplete _ _ _ => true
  | .i3cDynamicAddressAssign _ => true
  | .vbatLowLatch => true
  | .supervisorRestartComplete => true
  | .hostCompletionTimeout i => decide (i < 4096)

end Sys2Proof
end

