-- ==== Sys2Proof/Safety.lean ====
section
/-! DEFINITION. What the statements speak of: the invariants of a run, and the conditions under which a command has its effect. -/
namespace Sys2Proof.Machine
open Sys2Proof

/-- FAULT_T and FAULT_C are driven as R395 says: none while the auxiliary input is lost, fault until power-good and while a source of a high enough class is
live or unacknowledged, no fault otherwise. -/
def State.PinsInv (s : State) : Prop := s.dev.aon.pins = s.dev.pinsNow

/-- DRAM and the quadrant SRAMs hold their bytes in the one canonical form: addresses strictly rising, and no byte listed that an unlisted address reads as. -/
def Memory.wf (m : Mem) : Bool := storeWf zeroByte m.dram && storeWf zeroByte m.sram

/-- The auxiliary input is present: the device acts. -/
def State.Powered (s : State) : Prop := s.dev.aon.auxUp = true

/-- The state in which a command of effect `e` leaves the block: the effect, and then what it sets off (`Dev.settle`: the fault occurrences it raised are
handled, what waited for the new state begins, and the fault pins follow). -/
def State.leaves (s : State) (e : Dev) : State := { s with dev := e.settle }

/-- Nothing waits for the end of a command: no occurrence, no resume, no live source of a link that is down, no halt, reset or flush that is due. -/
structure Dev.Calm (d : Dev) : Prop where
  noOccurrence : d.faultQ = []
  noResume : d.doms.resumes = []
  noPortLink : ∀ n < 64, d.faults.live.testBit (400 + n) = true → (d.port n).speed ≠ 0
  noHostLink : d.faults.live.testBit 14 = true → d.insts.link ≠ 0
  noHalt : d.faults.s3 = none
  noReset : d.aon.softDue = false ∧ d.aon.mrstDefer = false
  noFlush : d.faults.flushDue = false

/-- Core `n` executes its next instruction: it may run, no asynchronous trap is due, it does not wait in WFI, and the fetch at its pc succeeds and
leaves the device as `d'` (the fetch may fill the TLB). -/
structure Dev.Fetches (d : Dev) (n : Nat) (d' : Dev) : Prop where
  runs : d.canRun n = true
  noTrap : (d.core n).asyncDue = false
  awake : (d.core n).wfi = false
  fetch : ∃ loc cls, d.coreAccess n (d.core n).pc.toNat 4 4 3 = .ok loc cls d'

/-- The pc of core `n`. -/
def Dev.pcOf (d : Dev) (n : Nat) : Nat := (d.core n).pc.toNat

/-- An instruction of core `n`, at address `a`, that completes sequentially and leaves the device as `d'`: the cycles it took are counted, and the pc goes
to the next word or, at the end of a running loop, to the loop's start (R190). -/
def Dev.completes (d : Dev) (n a : Nat) (d' : Dev) : Dev := d.settleRes n a (.done (a + 4) false d')

/-- An instruction of core `n`, at address `a`, that leaves the device as `d'` and goes to `t`. -/
def Dev.jumps (d : Dev) (n a t : Nat) (d' : Dev) : Dev := d.settleRes n a (.done t true d')

/-- A core with register `rd` written and new FLAGS. -/
def Core.result (c : Core) (rd : Nat) (v f : Word) : Core := { c.ww rd v with flags := f }

/-- Core `core` of a powered device executes the instruction at address `a`: its fetch leaves the device as `d`, and `c` is the core as the instruction
finds it. -/
structure State.Runs (s : State) (core : BitVec 6) (d : Dev) (c : Core) (a : Nat) : Prop where
  powered : s.Powered
  fetches : s.dev.Fetches core.toNat d
  cur : c = d.core core.toNat
  here : a = s.dev.pcOf core.toNat

/-- The state after an instruction of core `core` at `a` that completes sequentially and leaves the device as `d'`. -/
def State.seqDev (s : State) (core : BitVec 6) (d : Dev) (a : Nat) (d' : Dev) : State := s.leaves (d.completes core.toNat a d')

/-- The state after an instruction of core `core` at `a` that completes sequentially with the core as `c` and the rest of the device as it was. -/
def State.seq (s : State) (core : BitVec 6) (d : Dev) (a : Nat) (c : Core) : State := s.seqDev core d a (d.setCore core.toNat c)

/-- The state after an instruction of core `core` at `a` that leaves the device as `d'` and goes to `t`. -/
def State.goesDev (s : State) (core : BitVec 6) (d : Dev) (a t : Nat) (d' : Dev) : State := s.leaves (d.jumps core.toNat a t d')

/-- The state after an instruction of core `core` at `a` that goes to `t` with the core as `c` and the rest of the device as it was. -/
def State.goes (s : State) (core : BitVec 6) (d : Dev) (a t : Nat) (c : Core) : State := s.goesDev core d a t (d.setCore core.toNat c)

/-- The state after an instruction of core `core` that raises the trap of `code`, `detail` and `value` and saves `epc`. -/
def State.trapsAt (s : State) (core : BitVec 6) (d : Dev) (code detail value epc : Nat) : State :=
  s.leaves (d.trapEnter core.toNat code detail value epc)

/-- The access of core `core` to the `len` bytes at the effective address `ea`, with permission `need` (1 read, 2 write) as access type `acc`, reaches the
memory location `loc` and leaves the device as `d'`. -/
def Dev.Reaches (d : Dev) (core : BitVec 6) (ea : Int) (len need acc loc : Nat) (d' : Dev) : Prop :=
  ∃ cls, d.coreAccess core.toNat ea len need acc = .ok loc cls d'

/-- Command `i` at `s` answers the next state that an effect leaves (`State.leaves`), and that effect satisfies `P`. -/
def State.Does (s : State) (i : Instr) (P : Dev → Prop) : Prop := ∃ e : Dev, exec i s = .next (s.leaves e) ∧ P e

/-- The last output of `e` is the response to a request of command `cmd`: status `st`, and the unit that refused it (0xFFFF none). -/
def Dev.Answers (e : Dev) (cmd st unit : Nat) : Prop :=
  e.out.getLast? = some { kind := .response, args := [0, 0, cmd, st, 0xFF, 0, 0], data := leBytes 2 unit }

/-- The device serves writes: powered, its supervisor at hand, outside a vault sequence and not HALTED (R91, R355, R394). -/
structure State.TakesWrites (s : State) : Prop where
  powered : s.Powered
  present : s.dev.supAway = false
  openNow : s.dev.writesClosed = false

/-- An occurrence of source `n` waits to be handled at the end of the command. -/
def Dev.Raised (e : Dev) (n : Nat) : Prop := ∃ o ∈ e.faultQ, o.src = n

/-- A record of event code `c` has been put before the recorder. -/
def Dev.Recorded (e : Dev) (c : Nat) : Prop := (∃ r ∈ e.faults.intake, r.code = c) ∨ 64 ≤ e.faults.intake.length

/-- The device `d` answers a command row that is one write with status `st` of unit `u`, and does nothing else. -/
def Dev.refuses (d : Dev) (st u : Nat) : Dev := d.emit .response [0, 0, 4, st, 0xFF, 0, 0] (leBytes 2 u)

/-- The effect `f` of a write of object `o` is accepted: the change is counted (R359, R377) and the response says SUCCESS; a device whose auxiliary input
has collapsed gives none. -/
def Dev.accepts (f : Dev) (o : Nat) : Dev := if (f.noteChange o).aon.auxUp then (f.noteChange o).refuses 0 0xFFFF else f.noteChange o

/-- The device `d` answers a write of a table with status `st` of unit `u`. -/
def Dev.tableReply (d : Dev) (st u : Nat) : Dev := d.emit .response [0, 0, 6, st, 0xFF, 0, 0] (leBytes 2 u)

/-- A request without a session that the management port takes: unprotected, over I3C or SMBus, with the supervisor at hand (R355, R364, R371). -/
structure State.Asks (s : State) (r : Req) : Prop where
  powered : s.Powered
  present : s.dev.supAway = false
  port : r.tr = 2 ∨ r.tr = 3
  plain : r.prot = false ∧ r.counter = 0 ∧ r.sid = 0xFF
  sized : r.eid < 256 ∧ r.tag < 8 ∧ r.reqId < 65536

/-- A request of the proved session of role `role` that the management port takes: command `cmd` with body `body`, protected with a Counter above the
last one and its MAC (R371 to R374). -/
structure State.Speaks (s : State) (r : Req) (cmd : Nat) (body : List Byte) (role : Nat) : Prop where
  powered : s.Powered
  present : s.dev.supAway = false
  port : r.tr = 2 ∨ r.tr = 3
  sized : r.eid < 256 ∧ r.tag < 8 ∧ r.reqId < 65536 ∧ r.sid < 16 ∧ body.length ≤ 4120
  bound : (s.dev.session r.sid).state = 2 ∧ (s.dev.session r.sid).transport = r.tr ∧ (s.dev.session r.sid).eid = r.eid
  proved : (s.dev.session r.sid).role = role ∧ role ≠ 0
  counter : (s.dev.session r.sid).lastCounter < r.counter ∧ r.counter < 2 ^ 48 - 1
  mac : r.prot = true ∧ r.mac.length = 16 ∧ r.mac = sessionMac (s.dev.session r.sid) 0 r.sid r.counter (reqHeader r cmd body.length ++ body)

/-- The one output beyond those of `d` is the response to `r`, of command `cmd`: status `st` and session `sid`. -/
def Dev.Responds (e d : Dev) (r : Req) (cmd st sid : Nat) : Prop :=
  ∃ bytes, e.out = d.out ++ [{ kind := .response, args := [r.tr, r.eid, cmd, st, sid, r.reqId, r.tag], data := bytes }]

end Sys2Proof.Machine
end

