-- ==== Sys2Proof/Certificates/Slice0/Obligations.lean ====
section
/-! DEFINITION. The statements about the model. -/
open Sys2Proof Sys2Proof.Machine

/-- For every command c and state s, the step of s with c at the front of its queue is exec of c on s with the rest of the queue.
(95_what_each_step_holds.md) -/
def Obligations.StepRunsTheFrontCommand : Prop :=
  ∀ (c : Instr) (s : State) (rest : List Instr), step { s with pending := c :: rest } = exec c { s with pending := rest }

/-- On an empty queue the step answers the state whose always-on tick counter is one higher (modulo nothing: it counts) and whose every other field is as
before. That an idle step is a tick is the model's choice (DESIGN CHOICE, log entry 1). (01_architecture.md) -/
def Obligations.StepOnAnEmptyQueueIsATick : Prop :=
  ∀ s : State, s.pending = [] → ∃ a : Aon, step s = .next { s with dev := { s.dev with aon := a } } ∧ a.tick = s.dev.aon.tick + 1 ∧
    a = { s.dev.aon with tick := a.tick }

/-- For every command and state exec answers a next state, never a fault and never a refusal, and the queue of that state is the queue it found.
(95_what_each_step_holds.md) -/
def Obligations.EveryCommandAnswersANextState : Prop :=
  ∀ (i : Instr) (s : State), ∃ t, exec i s = .next t ∧ t.pending = s.pending

/-- For every command whose operands fail the well-formedness check (a rail, port, unit, queue or channel number beyond those of the part, a value wider
than its field), exec answers the state it found. The table gives such operands no meaning; that they change nothing is the model's choice (DESIGN
CHOICE, log entry 2). (00_scope.md, 95_what_each_step_holds.md) -/
def Obligations.IllFormedCommandsChangeNothing : Prop :=
  ∀ (i : Instr) (s : State), i.wf = false → exec i s = .next s

/-- In every state in which the auxiliary input is absent, every command but POWER_ON_RESET and VBAT_LOW_LATCH leaves the state as it is. (R329, R420,
R424) -/
def Obligations.NothingActsWithoutTheAuxiliaryInput : Prop :=
  ∀ (i : Instr) (s : State), s.dev.aon.auxUp = false → (∀ k e a m t, i ≠ .powerOnReset k e a m t) → i ≠ .vbatLowLatch → exec i s = .next s

/-- Let the pins invariant of a state say that FAULT_T/FAULT_C are undriven while the auxiliary input is absent, 1/0 when the supply is up and no capture
that is live, or latched and unacknowledged, has an effective class of at least PinClass, and 0/1 otherwise. Every step from a state with the
invariant, whatever command stands in front, answers a state with it. (R395, R325, 18_faults_and_events.md) -/
def Obligations.FaultPinsFollowTheFaultState : Prop :=
  ∀ (inv : State → Prop),
    (∀ s, inv s ↔ s.dev.aon.pins = if s.dev.aon.auxUp then
        some (if (s.dev.sup = 2 ∨ s.dev.sup = 5) ∧
            ¬ ∃ p ∈ s.dev.faults.caps, (p.2.latched = true ∨ s.dev.faults.live.testBit p.1 = true) ∧ s.dev.g oPinClass ≤ p.2.eff
          then (true, false) else (false, true))
      else none) →
    ∀ s t, inv s → step s = .next t → inv t

/-- State.reset has the auxiliary input present, drives FAULT_T/FAULT_C at 0/1 and meets the pins invariant. (R395, R420) -/
def Obligations.FaultPinsAtReset : Prop :=
  State.reset.Powered ∧ State.reset.dev.aon.pins = some (false, true) ∧ State.reset.PinsInv

/-- When a command's effect raises no fault occurrence and leaves no resume, no live source of a link that is down, and no halt, reset or flush that is
due, the state it leaves is that effect with FAULT_T/FAULT_C following. (R395, 18_faults_and_events.md) -/
def Obligations.CalmCommandsEndAtTheirEffect : Prop :=
  ∀ (s : State) (e : Dev), e.Calm → s.leaves e = { s with dev := { e with aon := { e.aon with pins := e.pinsNow } } }

/-- When nothing waits, an instruction of one core that completes with the core as c leaves every other core, all memory, every dictionary object, queue,
port, channel and fault state as it was (only the fault pins follow and one free value is used for the cycles it took). In the core itself every
register is as in c, so but for its destination as before, except the pc, the counts of the loops that end there, CYCLE and SLICE, which count the
instruction's cycles. (R186, R190, 08_erril_cores.md) -/
def Obligations.RegisterInstructionFrame : Prop :=
  ∀ (s t : State) (core : BitVec 6) (d : Dev) (a : Nat) (c k : Core), d.Calm → t = s.seq core d a c → k = t.dev.core core.toNat →
    t.pending = s.pending ∧
    t.dev = { d with cores := t.dev.cores, free := d.free + 1, aon := { d.aon with pins := t.dev.aon.pins } } ∧
    (∀ m, m ≠ core.toNat → t.dev.core m = d.core m) ∧
    k = { c with pc := k.pc, lc := k.lc, cycle := k.cycle, slice := k.slice, inStr := false } ∧
    (∀ l, 2 ≤ l → k.rlc l = c.rlc l) ∧
    (∀ l, (c.rlc l = 0 ∨ (c.rle l).toNat ≠ a) → k.rlc l = c.rlc l)

/-- Register w0 of every core reads 0 whatever the core holds; a write of w0 changes nothing of the core; a write of another register is read back from it
and from no other. (08_erril_cores.md) -/
def Obligations.ZeroRegisterReadsZero : Prop :=
  ∀ (c : Core) (r q : Nat) (v : Word), c.rw 0 = 0 ∧ c.ww 0 v = c ∧ (r ≠ 0 → (c.ww r v).rw r = v) ∧ (q ≠ r → (c.ww r v).rw q = c.rw q) ∧
    (c.ww r v).flags = c.flags ∧ (c.ww r v).pc = c.pc

/-- A running core that executes ADD, ADDC, SUB, SUBB, NEG, CMP, ADDI or CMPI completes: rd gets the 64-bit sum or difference (CMP and CMPI write no
register), Z and N describe it, C is the carry out of bit 63 or the borrow, V is signed overflow; the pc goes on sequentially. (R187, R188,
08_erril_cores.md) -/
def Obligations.AddSubtractCompareResults : Prop :=
  ∀ (s : State) (core : BitVec 6) (d : Dev) (c : Core) (a : Nat), s.Runs core d c a →
  ∀ (rd ra rb : BitVec 5) (imm : BitVec 16) (x y z : Word) (k : Nat),
    x = c.rw ra.toNat → y = c.rw rb.toNat → z = imm.signExtend 64 → k = (if c.flags.getLsbD 2 then 1 else 0) →
    exec (.add core rd ra rb) s = .next (s.seq core d a (c.result rd.toNat (x + y)
      (flagsZNCV c.flags (x + y) (decide (2 ^ 64 ≤ x.toNat + y.toNat)) (ovf (x.toInt + y.toInt))))) ∧
    exec (.addc core rd ra rb) s = .next (s.seq core d a (c.result rd.toNat (x + y + BitVec.ofNat 64 k)
      (flagsZNCV c.flags (x + y + BitVec.ofNat 64 k) (decide (2 ^ 64 ≤ x.toNat + y.toNat + k)) (ovf (x.toInt + y.toInt + k))))) ∧
    exec (.sub core rd ra rb) s = .next (s.seq core d a (c.result rd.toNat (x - y)
      (flagsZNCV c.flags (x - y) (decide (x.toNat < y.toNat)) (ovf (x.toInt - y.toInt))))) ∧
    exec (.subb core rd ra rb) s = .next (s.seq core d a (c.result rd.toNat (x - y - BitVec.ofNat 64 k)
      (flagsZNCV c.flags (x - y - BitVec.ofNat 64 k) (decide (x.toNat < y.toNat + k)) (ovf (x.toInt - y.toInt - k))))) ∧
    exec (.neg core rd ra) s = .next (s.seq core d a (c.result rd.toNat (-x)
      (flagsZNCV c.flags (-x) (decide (x ≠ 0)) (ovf (-x.toInt))))) ∧
    exec (.cmp core ra rb) s = .next (s.seq core d a
      { c with flags := flagsZNCV c.flags (x - y) (decide (x.toNat < y.toNat)) (ovf (x.toInt - y.toInt)) }) ∧
    exec (.addi core rd ra imm) s = .next (s.seq core d a (c.result rd.toNat (x + z)
      (flagsZNCV c.flags (x + z) (decide (2 ^ 64 ≤ x.toNat + z.toNat)) (ovf (x.toInt + z.toInt))))) ∧
    exec (.cmpi core ra imm) s = .next (s.seq core d a
      { c with flags := flagsZNCV c.flags (x - z) (decide (x.toNat < z.toNat)) (ovf (x.toInt - z.toInt)) })

/-- A running core that executes AND, OR, XOR, ANDN, SLL, SRL, SRA, ROL, ROR, ANDI, ORI or XORI, or SLLI, SRLI, SRAI or RORI with imm16[15:6] zero,
completes: rd gets the result and only Z and N change. With imm16[15:6] not zero the immediate shifts raise ILLEGAL with the instruction word. (R187,
R188, 08_erril_cores.md) -/
def Obligations.LogicAndShiftResults : Prop :=
  ∀ (s : State) (core : BitVec 6) (d : Dev) (c : Core) (a : Nat), s.Runs core d c a →
  ∀ (rd ra rb : BitVec 5) (imm : BitVec 16) (x y z : Word) (out : Word → State),
    x = c.rw ra.toNat → y = c.rw rb.toNat → z = imm.zeroExtend 64 →
    (∀ r, out r = s.seq core d a (c.result rd.toNat r (flagsZN c.flags r))) →
    exec (.and core rd ra rb) s = .next (out (x &&& y)) ∧
    exec (.or core rd ra rb) s = .next (out (x ||| y)) ∧
    exec (.xor core rd ra rb) s = .next (out (x ^^^ y)) ∧
    exec (.andn core rd ra rb) s = .next (out (x &&& ~~~y)) ∧
    exec (.andi core rd ra imm) s = .next (out (x &&& z)) ∧
    exec (.ori core rd ra imm) s = .next (out (x ||| z)) ∧
    exec (.xori core rd ra imm) s = .next (out (x ^^^ z)) ∧
    exec (.sll core rd ra rb) s = .next (out (if 64 ≤ y.toNat then 0 else x <<< y.toNat)) ∧
    exec (.srl core rd ra rb) s = .next (out (if 64 ≤ y.toNat then 0 else x >>> y.toNat)) ∧
    exec (.sra core rd ra rb) s = .next (out (x.sshiftRight (min y.toNat 63))) ∧
    exec (.rol core rd ra rb) s = .next (out (x.rotateLeft (y.toNat % 64))) ∧
    exec (.ror core rd ra rb) s = .next (out (x.rotateRight (y.toNat % 64))) ∧
    (imm.toNat < 64 →
      exec (.slli core rd ra imm) s = .next (out (x <<< imm.toNat)) ∧
      exec (.srli core rd ra imm) s = .next (out (x >>> imm.toNat)) ∧
      exec (.srai core rd ra imm) s = .next (out (x.sshiftRight imm.toNat)) ∧
      exec (.rori core rd ra imm) s = .next (out (x.rotateRight imm.toNat))) ∧
    (64 ≤ imm.toNat →
      exec (.slli core rd ra imm) s = .next (s.trapsAt core d 2 0 (encI 0x0A rd.toNat ra.toNat imm.toNat) a) ∧
      exec (.srli core rd ra imm) s = .next (s.trapsAt core d 2 0 (encI 0x0B rd.toNat ra.toNat imm.toNat) a) ∧
      exec (.srai core rd ra imm) s = .next (s.trapsAt core d 2 0 (encI 0x0C rd.toNat ra.toNat imm.toNat) a) ∧
      exec (.rori core rd ra imm) s = .next (s.trapsAt core d 2 0 (encI 0x0D rd.toNat ra.toNat imm.toNat) a))

/-- A running core that executes MIN, MAX, MINU, MAXU, SLT, SLTU, CLZ, CTZ, POPC or BSWAP completes: rd gets the result and only Z and N change. CLZ
counts the leading zeros (64 for 0), CTZ the trailing zeros (64 for 0), POPC the ones, and BSWAP reverses the bytes. (R187, R188, 08_erril_cores.md) -/
def Obligations.MinMaxAndCountResults : Prop :=
  ∀ (s : State) (core : BitVec 6) (d : Dev) (c : Core) (a : Nat), s.Runs core d c a →
  ∀ (rd ra rb : BitVec 5) (x y : Word) (out : Word → State),
    x = c.rw ra.toNat → y = c.rw rb.toNat →
    (∀ r, out r = s.seq core d a (c.result rd.toNat r (flagsZN c.flags r))) →
    exec (.min core rd ra rb) s = .next (out (if x.toInt < y.toInt then x else y)) ∧
    exec (.max core rd ra rb) s = .next (out (if x.toInt < y.toInt then y else x)) ∧
    exec (.minu core rd ra rb) s = .next (out (if x.toNat < y.toNat then x else y)) ∧
    exec (.maxu core rd ra rb) s = .next (out (if x.toNat < y.toNat then y else x)) ∧
    exec (.slt core rd ra rb) s = .next (out (if x.toInt < y.toInt then 1 else 0)) ∧
    exec (.sltu core rd ra rb) s = .next (out (if x.toNat < y.toNat then 1 else 0)) ∧
    (∃ k : Nat, exec (.clz core rd ra) s = .next (out (BitVec.ofNat 64 k)) ∧ k ≤ 64 ∧ x.toNat < 2 ^ (64 - k) ∧ (k < 64 → x.getLsbD (63 - k) = true)) ∧
    (∃ k : Nat, exec (.ctz core rd ra) s = .next (out (BitVec.ofNat 64 k)) ∧ k ≤ 64 ∧ (∀ j < k, x.getLsbD j = false) ∧ (k < 64 → x.getLsbD k = true)) ∧
    exec (.popc core rd ra) s = .next (out (BitVec.ofNat 64 ((List.range 64).countP fun j => x.getLsbD j))) ∧
    (∃ r : Word, exec (.bswap core rd ra) s = .next (out r) ∧ ∀ j < 64, r.getLsbD j = x.getLsbD (56 - j / 8 * 8 + j % 8))

/-- A running core that executes MUL, MULH or MULHU completes. MUL writes the low 64 bits of the product, Z and N of it, V when the signed product and C
when the unsigned product does not fit in 64 bits; MULH and MULHU write the signed or unsigned high half with Z and N alone. (R187, 08_erril_cores.md) -/
def Obligations.MultiplyResults : Prop :=
  ∀ (s : State) (core : BitVec 6) (d : Dev) (c : Core) (a : Nat), s.Runs core d c a →
  ∀ (rd ra rb : BitVec 5) (x y hs hu : Word), x = c.rw ra.toNat → y = c.rw rb.toNat →
    hs = BitVec.ofInt 64 (x.toInt * y.toInt / 2 ^ 64) → hu = BitVec.ofNat 64 (x.toNat * y.toNat / 2 ^ 64) →
    exec (.mul core rd ra rb) s = .next (s.seq core d a (c.result rd.toNat (BitVec.ofNat 64 (x.toNat * y.toNat))
      (flagsZNCV c.flags (BitVec.ofNat 64 (x.toNat * y.toNat)) (decide (2 ^ 64 ≤ x.toNat * y.toNat)) (ovf (x.toInt * y.toInt))))) ∧
    exec (.mulh core rd ra rb) s = .next (s.seq core d a (c.result rd.toNat hs (flagsZN c.flags hs))) ∧
    exec (.mulhu core rd ra rb) s = .next (s.seq core d a (c.result rd.toNat hu (flagsZN c.flags hu)))

/-- On a running core, DIV or DIVU by zero with UCTL.DivTrap set traps DIVZERO with nothing written. Otherwise the instruction completes: by zero the
quotient is all ones, the remainder the dividend and D is set; DIV of -2^63 by -1 gives the dividend, remainder 0 and V set; in every other case the
quotient truncates toward zero (DIVU reads both unsigned), the remainder is ra - q*rb and V is cleared. The remainder goes to rc, then the quotient to
rd; Z and N describe the quotient; every flag not named keeps its value. (R189) -/
def Obligations.DivideFollowsTheRule : Prop :=
  ∀ (s : State) (core : BitVec 6) (d : Dev) (c : Core) (a : Nat), s.Runs core d c a →
  ∀ (rd ra rb rc : BitVec 5) (x y : Word) (out : Word → Word → Word → State), x = c.rw ra.toNat → y = c.rw rb.toNat →
    (∀ q r f, out q r f = s.seq core d a { (c.ww rc.toNat r).ww rd.toNat q with flags := flagsZN f q }) →
    (y = 0 → c.uctl.getLsbD 0 = true →
      exec (.div core rd ra rb rc) s = .next (s.trapsAt core d 0x0A 0 0 a) ∧
      exec (.divu core rd ra rb rc) s = .next (s.trapsAt core d 0x0A 0 0 a)) ∧
    (y = 0 → c.uctl.getLsbD 0 = false →
      exec (.div core rd ra rb rc) s = .next (out (BitVec.allOnes 64) x (setF c.flags 4 true)) ∧
      exec (.divu core rd ra rb rc) s = .next (out (BitVec.allOnes 64) x (setF c.flags 4 true))) ∧
    (x.toInt = -2 ^ 63 → y.toInt = -1 →
      exec (.div core rd ra rb rc) s = .next (out x 0 (setF c.flags 3 true))) ∧
    (y ≠ 0 → ¬ (x.toInt = -2 ^ 63 ∧ y.toInt = -1) → ∀ q r : Word,
      q.toInt = x.toInt.tdiv y.toInt → r.toInt = x.toInt - q.toInt * y.toInt →
      exec (.div core rd ra rb rc) s = .next (out q r (setF c.flags 3 false))) ∧
    (y ≠ 0 → ∀ q r : Word, q.toNat = x.toNat / y.toNat → r.toNat = x.toNat % y.toNat →
      exec (.divu core rd ra rb rc) s = .next (out q r (setF c.flags 3 false)))

/-- Writing Z and N from a result sets bit 0 of FLAGS exactly when the result is zero and bit 1 to bit 63 of the result and leaves every other bit;
writing Z, N, C and V also sets bits 2 and 3 to the carry and the overflow and leaves every other bit; writing one flag leaves every other bit. (R187,
08_erril_cores.md) -/
def Obligations.FlagBitsOfAResult : Prop :=
  ∀ (f r : Word) (cy v b : Bool) (j k : Nat),
    (j < 64 → (setF f j b).getLsbD j = b) ∧ (j < 64 → k ≠ j → (setF f j b).getLsbD k = f.getLsbD k) ∧
    (flagsZN f r).getLsbD 0 = decide (r = 0) ∧ (flagsZN f r).getLsbD 1 = r.getLsbD 63 ∧
    (2 ≤ k → (flagsZN f r).getLsbD k = f.getLsbD k) ∧
    (flagsZNCV f r cy v).getLsbD 0 = decide (r = 0) ∧ (flagsZNCV f r cy v).getLsbD 1 = r.getLsbD 63 ∧
    (flagsZNCV f r cy v).getLsbD 2 = cy ∧ (flagsZNCV f r cy v).getLsbD 3 = v ∧
    (4 ≤ k → (flagsZNCV f r cy v).getLsbD k = f.getLsbD k)

/-- NEG of -2^63 gives the same value with V set; SLL and SRL by 64 or more give 0; SRA by 64 or more gives 64 copies of bit 63; ROL and ROR take the
amount modulo 64; CLZ and CTZ of 0 give 64; DIV of -2^63 by -1 gives the dividend, remainder 0 and V; DIV or DIVU by zero gives all ones, the dividend
as remainder, and D; vector shifts follow the same rules with the lane width in place of 64. (R188) -/
def Obligations.ArithmeticEdgesOfTable8p12A : Prop :=
  ∀ (f x : Word) (n es l : Nat) (signed : Bool) (u v : Vec), es < 4 → l < laneN es →
    (subF f 0 (BitVec.ofNat 64 (2 ^ 63)) false).1 = BitVec.ofNat 64 (2 ^ 63) ∧
    flagV (subF f 0 (BitVec.ofNat 64 (2 ^ 63)) false).2 = true ∧
    (64 ≤ n → sll x n = 0 ∧ srl x n = 0 ∧ sra x n = (if x.getLsbD 63 then BitVec.allOnes 64 else 0)) ∧
    (n < 64 → sll x n = x <<< n ∧ srl x n = x >>> n ∧ sra x n = x.sshiftRight n) ∧
    rol x n = x.rotateLeft (n % 64) ∧ ror x n = x.rotateRight (n % 64) ∧ clz 0 = 64 ∧ ctz 0 = 64 ∧
    (divF f (BitVec.ofNat 64 (2 ^ 63)) (BitVec.allOnes 64) true).1 = BitVec.ofNat 64 (2 ^ 63) ∧
    (divF f (BitVec.ofNat 64 (2 ^ 63)) (BitVec.allOnes 64) true).2.1 = 0 ∧
    flagV (divF f (BitVec.ofNat 64 (2 ^ 63)) (BitVec.allOnes 64) true).2.2 = true ∧
    (divF f x 0 signed).1 = BitVec.allOnes 64 ∧ (divF f x 0 signed).2.1 = x ∧ flagD (divF f x 0 signed).2.2 = true ∧
    (laneW es ≤ lane es v l →
      lane es (lanes2 es (fun p q => if laneW es ≤ q then 0 else p * 2 ^ q) u v) l = 0 ∧
      lane es (lanes2 es (fun p q => if laneW es ≤ q then 0 else p / 2 ^ q) u v) l = 0 ∧
      lane es (lanes2 es (fun p q => ((laneS es p / 2 ^ (min q (laneW es))) % (2 ^ laneW es : Int)).toNat) u v) l =
        (if laneS es (lane es u l) < 0 then 2 ^ laneW es - 1 else 0))

/-- On a running core with a register index or condition code that the tables list, MOVZ, MOVK, CSEL, SETB, GETB, SETL, GETL, SETS, GETS and LCLR complete
with exactly the register they name written and no flag changed. SETB of a value with bits [63:48] not zero raises ADDRESS_RANGE. An index or code the
tables do not list raises ILLEGAL with the instruction word. (R186, 08_erril_cores.md) -/
def Obligations.MoveAndSelectResults : Prop :=
  ∀ (s : State) (core : BitVec 6) (d : Dev) (c : Core) (a : Nat), s.Runs core d c a →
  ∀ (rd ra rb rc : BitVec 5) (imm : BitVec 16) (x y : Word), x = c.rw ra.toNat → y = c.rw rb.toNat →
    (ra.toNat < 4 → exec (.movz core rd ra imm) s = .next (s.seq core d a (c.ww rd.toNat (BitVec.ofNat 64 (imm.toNat * 2 ^ (16 * ra.toNat)))))) ∧
    (ra.toNat < 4 → ∃ v : Word, exec (.movk core rd ra imm) s = .next (s.seq core d a (c.ww rd.toNat v)) ∧ ∀ j < 64,
      v.getLsbD j = if 16 * ra.toNat ≤ j ∧ j < 16 * ra.toNat + 16 then imm.getLsbD (j - 16 * ra.toNat) else (c.rw rd.toNat).getLsbD j) ∧
    (∀ b, condHolds c.flags rc.toNat = some b → exec (.csel core rd ra rb rc) s = .next (s.seq core d a (c.ww rd.toNat (if b then x else y)))) ∧
    (rd.toNat < 8 → x.toNat < 2 ^ 48 → exec (.setb core rd ra) s = .next (s.seq core d a (c.wb rd.toNat (x.truncate 48)))) ∧
    (rd.toNat < 8 → 2 ^ 48 ≤ x.toNat → exec (.setb core rd ra) s = .next (s.trapsAt core d 4 0 x.toNat a)) ∧
    (ra.toNat < 8 → exec (.getb core rd ra) s = .next (s.seq core d a (c.ww rd.toNat ((c.rb ra.toNat).zeroExtend 64)))) ∧
    (rc.toNat < 2 → exec (.setl core rc ra) s = .next (s.seq core d a (c.wlc rc.toNat x)) ∧
      exec (.getl core rd rc) s = .next (s.seq core d a (c.ww rd.toNat (c.rlc rc.toNat))) ∧
      exec (.lclr core rc) s = .next (s.seq core d a (c.wlc rc.toNat 0))) ∧
    (∀ l < 2, rc.toNat = 2 + l → exec (.setl core rc ra) s = .next (s.seq core d a (c.wls l (BitVec.ofNat 48 (x.toNat / 4 * 4)))) ∧
      exec (.getl core rd rc) s = .next (s.seq core d a (c.ww rd.toNat ((c.rls l).zeroExtend 64)))) ∧
    (∀ l < 2, rc.toNat = 4 + l → exec (.setl core rc ra) s = .next (s.seq core d a (c.wle l (BitVec.ofNat 48 (x.toNat / 4 * 4)))) ∧
      exec (.getl core rd rc) s = .next (s.seq core d a (c.ww rd.toNat ((c.rle l).zeroExtend 64)))) ∧
    exec (.sets core 0 ra) s = .next (s.seq core d a { c with ps := x }) ∧ exec (.sets core 1 ra) s = .next (s.seq core d a { c with pd := x }) ∧
    exec (.sets core 2 ra) s = .next (s.seq core d a { c with pn := x }) ∧ exec (.sets core 3 ra) s = .next (s.seq core d a { c with pk := x }) ∧
    exec (.gets core rd 0) s = .next (s.seq core d a (c.ww rd.toNat c.ps)) ∧ exec (.gets core rd 1) s = .next (s.seq core d a (c.ww rd.toNat c.pd)) ∧
    exec (.gets core rd 2) s = .next (s.seq core d a (c.ww rd.toNat c.pn)) ∧ exec (.gets core rd 3) s = .next (s.seq core d a (c.ww rd.toNat c.pk)) ∧
    (4 ≤ ra.toNat → exec (.movz core rd ra imm) s = .next (s.trapsAt core d 2 0 (encI 0x08 rd.toNat ra.toNat imm.toNat) a) ∧
      exec (.movk core rd ra imm) s = .next (s.trapsAt core d 2 0 (encI 0x09 rd.toNat ra.toNat imm.toNat) a)) ∧
    (10 ≤ rc.toNat → exec (.csel core rd ra rb rc) s = .next (s.trapsAt core d 2 0 (encR 1 rd.toNat ra.toNat rb.toNat rc.toNat 0x19) a)) ∧
    (8 ≤ rd.toNat → exec (.setb core rd ra) s = .next (s.trapsAt core d 2 0 (encR 0x2C rd.toNat ra.toNat 0 0 0) a)) ∧
    (8 ≤ ra.toNat → exec (.getb core rd ra) s = .next (s.trapsAt core d 2 0 (encR 0x2C rd.toNat ra.toNat 0 0 1) a)) ∧
    (6 ≤ rc.toNat → exec (.setl core rc ra) s = .next (s.trapsAt core d 2 0 (encR 0x2C 0 ra.toNat 0 rc.toNat 2) a) ∧
      exec (.getl core rd rc) s = .next (s.trapsAt core d 2 0 (encR 0x2C rd.toNat 0 0 rc.toNat 3) a)) ∧
    (4 ≤ rc.toNat → exec (.sets core rc ra) s = .next (s.trapsAt core d 2 0 (encR 0x2C 0 ra.toNat 0 rc.toNat 4) a) ∧
      exec (.gets core rd rc) s = .next (s.trapsAt core d 2 0 (encR 0x2C rd.toNat 0 0 rc.toNat 5) a)) ∧
    (2 ≤ rc.toNat → exec (.lclr core rc) s = .next (s.trapsAt core d 2 0 (encR 0 0 0 0 rc.toNat 9) a))

/-- On a running core LOOP with n16 not 0 sets ls := a + 4, le := a + 4*n16 and lc := w[rc] of its level and goes on at le + 4 when the count is 0 and at
a + 4 otherwise; n16 = 0 raises ILLEGAL. After an instruction at address a that completes sequentially, level 1 is checked before level 0: a level
whose count is not 0 and whose end is a has its count lowered by 1, and while that count is still not 0 the next pc is its start. After a taken
transfer no count changes. LOOP with count 0 does not go on sequentially, so no end check follows it. (R190) -/
def Obligations.LoopSetUpAndEndCheck : Prop :=
  (∀ (s : State) (core : BitVec 6) (d : Dev) (c : Core) (a : Nat), s.Runs core d c a →
    ∀ (lvl : BitVec 1) (rc : BitVec 5) (n16 : BitVec 16),
      (n16 ≠ 0 → exec (.loop core lvl rc n16) s = .next (s.leaves (d.settleRes core.toNat a (.done
        (if c.rw rc.toNat = 0 then (BitVec.ofNat 48 (a + 4 * n16.toNat) + 4).toNat else a + 4) false
        (d.setCore core.toNat (((c.wls lvl.toNat (BitVec.ofNat 48 (a + 4))).wle lvl.toNat (BitVec.ofNat 48 (a + 4 * n16.toNat))).wlc lvl.toNat (c.rw rc.toNat))))))) ∧
      (n16 = 0 → exec (.loop core lvl rc n16) s = .next (s.trapsAt core d 2 0 (encL lvl.toNat rc.toNat 0) a))) ∧
  (∀ (d d' : Dev) (n a next : Nat) (c k : Core) (ends back : Nat → Prop), c = d'.core n → k = (d.settleRes n a (.done next false d')).core n →
    (∀ l, ends l ↔ c.rlc l ≠ 0 ∧ (c.rle l).toNat = a) → (∀ l, back l ↔ ends l ∧ c.rlc l ≠ 1) →
    (back 1 → k.pc = c.rls 1 ∧ k.rlc 1 = c.rlc 1 - 1 ∧ k.rlc 0 = c.rlc 0) ∧
    (¬ back 1 → back 0 → k.pc = c.rls 0 ∧ k.rlc 0 = c.rlc 0 - 1) ∧
    (¬ back 1 → ¬ back 0 → k.pc = BitVec.ofNat 48 next ∧ (ends 0 → k.rlc 0 = 0) ∧ (¬ ends 0 → k.rlc 0 = c.rlc 0)) ∧
    (¬ back 1 → (ends 1 → k.rlc 1 = 0) ∧ (¬ ends 1 → k.rlc 1 = c.rlc 1))) ∧
  (∀ (d d' : Dev) (n a t : Nat), t % 4 = 0 → ((d.settleRes n a (.done t true d')).core n).pc = BitVec.ofNat 48 t ∧
    ∀ l, ((d.settleRes n a (.done t true d')).core n).rlc l = (d'.core n).rlc l)

/-- On a running core BEQ, BNE, BLT, BGE, BLTU and BGEU go to pc + 4*d16 when ra compares with rb as named and on sequentially otherwise, and BF so on a
listed condition code; J and JAL go to pc + 4*d26, JAL with w31 := pc + 4; JR goes to w[ra] with rd := pc + 4. No flag changes. JR to an address that
is not a multiple of 4 raises FETCH_MISALIGNED, and BF with an unlisted condition code ILLEGAL. That pc-relative targets wrap at 48 bits is the
model's choice (DEDUCED, log entry 21). (R183, R186, 08_erril_cores.md) -/
def Obligations.BranchAndJumpResults : Prop :=
  ∀ (s : State) (core : BitVec 6) (d : Dev) (c : Core) (a : Nat), s.Runs core d c a →
  ∀ (rd ra rb : BitVec 5) (d16 : BitVec 16) (d26 : BitVec 26) (x y : Word) (t : Nat) (out : Bool → State),
    x = c.rw ra.toNat → y = c.rw rb.toNat → t = (((a : Int) + 4 * d16.toInt) % 2 ^ 48).toNat →
    (∀ b, out b = if b then s.goesDev core d a t d else s.seqDev core d a d) →
    exec (.beq core ra rb d16) s = .next (out (decide (x = y))) ∧
    exec (.bne core ra rb d16) s = .next (out (decide (x ≠ y))) ∧
    exec (.blt core ra rb d16) s = .next (out (decide (x.toInt < y.toInt))) ∧
    exec (.bge core ra rb d16) s = .next (out (decide (y.toInt ≤ x.toInt))) ∧
    exec (.bltu core ra rb d16) s = .next (out (decide (x.toNat < y.toNat))) ∧
    exec (.bgeu core ra rb d16) s = .next (out (decide (y.toNat ≤ x.toNat))) ∧
    (∀ b, condHolds c.flags ra.toNat = some b → exec (.bf core ra d16) s = .next (out b)) ∧
    (10 ≤ ra.toNat → exec (.bf core ra d16) s = .next (s.trapsAt core d 2 0 (encB 0x26 ra.toNat 0 d16.toNat) a)) ∧
    exec (.j core d26) s = .next (s.goesDev core d a (((a : Int) + 4 * d26.toInt) % 2 ^ 48).toNat d) ∧
    exec (.jal core d26) s = .next (s.goes core d a (((a : Int) + 4 * d26.toInt) % 2 ^ 48).toNat (c.ww 31 (BitVec.ofNat 64 (a + 4)))) ∧
    (x.toNat % 4 = 0 → exec (.jr core rd ra) s = .next (s.goes core d a x.toNat (c.ww rd.toNat (BitVec.ofNat 64 (a + 4))))) ∧
    (x.toNat % 4 ≠ 0 → exec (.jr core rd ra) s = .next (s.trapsAt core d 6 0 x.toNat a))

/-- On a running core NOP, FENCE, IFENCE and PREF complete with the core unchanged; WFI at supervisor privilege begins to wait; MFC and MTC of a listed
register that the privilege may touch move it; URET goes to UEPC with InHandler 0; SRET at supervisor privilege goes to SEPC with Priv and IE from
PrevPriv and PrevIE and LoadCtx 0, after loading the context when it returns to user privilege with LoadCtx set. At user privilege WFI, SRET and the
supervisor's control registers raise PRIVILEGE; an unlisted or read-only control register or an RSV bit raises ILLEGAL. That ILLEGAL comes before
PRIVILEGE is Table 8.12's order; that FENCE and IFENCE have nothing to wait for or discard is the model's (commands are indivisible). (R179, R181,
R186, R196, 08_erril_cores.md) -/
def Obligations.SystemInstructionResults : Prop :=
  ∀ (s : State) (core : BitVec 6) (d : Dev) (c : Core) (a : Nat), s.Runs core d c a →
  ∀ (rd ra cr base : BitVec 5) (k : BitVec 3) (d12 : BitVec 12),
    exec (.nop core) s = .next (s.seq core d a c) ∧ exec (.fence core) s = .next (s.seq core d a c) ∧
    exec (.ifence core) s = .next (s.seq core d a c) ∧ exec (.pref core base k d12) s = .next (s.seq core d a c) ∧
    (c.status.getLsbD 0 = true → exec (.wfi core) s = .next (s.seq core d a { c with wfi := true })) ∧
    (c.status.getLsbD 0 = false → exec (.wfi core) s = .next (s.trapsAt core d 3 0 (encR 0 0 0 0 0 6) a)) ∧
    (crListed cr.toNat = true → (crSup cr.toNat = true → c.status.getLsbD 0 = true) →
      exec (.mfc core rd cr) s = .next (s.seq core d a (c.ww rd.toNat (d.readCr core.toNat cr.toNat)))) ∧
    (crListed cr.toNat = true → (crSup cr.toNat = true → c.status.getLsbD 0 = true) → crReadOnly cr.toNat (c.status.getLsbD 0) = false →
      crRsv cr.toNat (c.rw ra.toNat).toNat = false → exec (.mtc core cr ra) s = .next (s.seq core d a (c.writeCr cr.toNat (c.rw ra.toNat)))) ∧
    (crListed cr.toNat = false → exec (.mfc core rd cr) s = .next (s.trapsAt core d 2 0 (encR 0 rd.toNat 0 cr.toNat 0 7) a) ∧
      exec (.mtc core cr ra) s = .next (s.trapsAt core d 2 0 (encR 0 0 ra.toNat cr.toNat 0 8) a)) ∧
    (crReadOnly cr.toNat (c.status.getLsbD 0) = true ∨ crRsv cr.toNat (c.rw ra.toNat).toNat = true →
      exec (.mtc core cr ra) s = .next (s.trapsAt core d 2 0 (encR 0 0 ra.toNat cr.toNat 0 8) a)) ∧
    (crSup cr.toNat = true → c.status.getLsbD 0 = false → exec (.mfc core rd cr) s = .next (s.trapsAt core d 3 0 (encR 0 rd.toNat 0 cr.toNat 0 7) a)) ∧
    (c.uepc.toNat % 4 = 0 → exec (.uret core) s = .next (s.goes core d a c.uepc.toNat { c with uctl := c.uctl &&& ~~~ 2#64 })) ∧
    (c.uepc.toNat % 4 ≠ 0 → exec (.uret core) s = .next (s.trapsAt core d 6 0 c.uepc.toNat a)) ∧
    (c.status.getLsbD 0 = false → exec (.sret core) s = .next (s.trapsAt core d 3 0 (encR 0 0 0 0 0 3) a)) ∧
    (c.status.getLsbD 0 = true → (c.status.getLsbD 2 = true ∨ c.status.getLsbD 4 = false) → c.sepc.toNat % 4 = 0 →
      ∃ st : Word, exec (.sret core) s = .next (s.goes core d a c.sepc.toNat { c with status := st }) ∧
        st.getLsbD 0 = c.status.getLsbD 2 ∧ st.getLsbD 1 = c.status.getLsbD 3 ∧ st.getLsbD 4 = false) ∧
    (c.status.getLsbD 0 = true → c.status.getLsbD 2 = false → c.status.getLsbD 4 = true →
      ∀ (d' : Dev) (c' : Core), (d.loadContext core.toNat).1 = some d' → c' = d'.core core.toNat → c'.sepc.toNat % 4 = 0 →
      ∃ st : Word, exec (.sret core) s = .next (s.goesDev core d a c'.sepc.toNat (d'.setCore core.toNat { c' with status := st })) ∧
        st.getLsbD 0 = c'.status.getLsbD 2 ∧ st.getLsbD 1 = c'.status.getLsbD 3 ∧ st.getLsbD 4 = false)

/-- On a running core TRAP raises TRAP with its service code and YIELD raises YIELD, both saving pc + 4; a word that no encoding lists raises ILLEGAL with
the word, saving its own pc. SLICE_EXPIRE on an executing core in user mode whose SLICE runs sets SLICE to 0 and raises PREEMPT Detail 0x00 (one
already pending keeps its Detail, the model's choice); ASYNC_TRAP_TAKE takes a pending and enabled PREEMPT before an INTERRUPT, saving the pc the core
stands at. (R186, R195, R196, R222, 08_erril_cores.md) -/
def Obligations.TrapInstructionsAndAsyncTraps : Prop :=
  (∀ (s : State) (core : BitVec 6) (d : Dev) (c : Core) (a : Nat), s.Runs core d c a →
    ∀ (code : BitVec 10) (w : BitVec 32),
      exec (.trap core code) s = .next (s.trapsAt core d 0x0B 0 code.toNat (a + 4)) ∧
      exec (.yield core) s = .next (s.trapsAt core d 0x0C 0 0 (a + 4)) ∧
      (legalWord w.toNat = false → exec (.illegalInstruction core w) s = .next (s.trapsAt core d 2 0 w.toNat a))) ∧
  (∀ (s : State) (core : BitVec 6) (c : Core), s.Powered → s.dev.canRun core.toNat = true → c = s.dev.core core.toNat →
    (c.status.getLsbD 0 = false → c.slice ≠ 0 → exec (.sliceExpire core) s =
      .next (s.leaves (s.dev.setCore core.toNat { c with slice := 0, preempt := some (c.preempt.getD 0) }))) ∧
    (c.status.getLsbD 0 = false ∨ c.status.getLsbD 1 = true ∨ c.wfi = true →
      (∀ det, c.preempt = some det → exec (.asyncTrapTake core) s = .next (s.leaves
        ((s.dev.setCore core.toNat { c with preempt := none, inStr := false }).trapEnter core.toNat 0x10 det 0 c.pc.toNat c.inStr))) ∧
      (∀ det r, c.preempt = none → c.irqs = det :: r → exec (.asyncTrapTake core) s = .next (s.leaves
        ((s.dev.setCore core.toNat { c with irqs := r, inStr := false }).trapEnter core.toNat 0x11 det 0 c.pc.toNat c.inStr)))))

/-- A delegable trap at user privilege with UTVEC not 0 and InHandler 0 writes UEPC, UCAUSE and UTVAL, sets InHandler and goes to UTVEC, with no other
register of the core changed. A trap at supervisor privilege (other than PREEMPT, whose entry first saves the context) writes SEPC, SCAUSE and STVAL,
copies Priv and IE into PrevPriv and PrevIE, sets Priv to 1 and IE to 0 and goes to STVEC, with no other register of the core changed but that it no
longer waits in WFI; a synchronous one also raises the core's supervisor-trap source (R198). (R196) -/
def Obligations.TrapEntryOfTheRule : Prop :=
  ∀ (d : Dev) (n code detail value epc : Nat) (inStr : Bool) (c : Core) (cause : Word), c = d.core n →
    cause = BitVec.ofNat 64 (code + detail * 2 ^ 8 + (if inStr then 2 ^ 16 else 0)) →
    ((code = 2 ∨ code = 4 ∨ code = 5 ∨ code = 6 ∨ code = 10) → c.status.getLsbD 0 = false → c.utvec ≠ 0 → c.uctl.getLsbD 1 = false →
      d.trapEnter n code detail value epc inStr = d.setCore n { c with uepc := BitVec.ofNat 64 epc, ucause := cause, utval := BitVec.ofNat 64 value, uctl := c.uctl ||| 2, pc := c.utvec.truncate 48 }) ∧
    (c.status.getLsbD 0 = true → code ≠ 0x10 → ∃ st : Word,
      d.trapEnter n code detail value epc inStr =
        (let e := d.setCore n { c with sepc := BitVec.ofNat 64 epc, scause := cause, stval := BitVec.ofNat 64 value, status := st, pc := c.stvec.truncate 48, wfi := false }
         if code < 0x10 then e.raise { src := 72 + n, acc := 6, iUnit := uCoreN n, addr := epc } else e) ∧
      st.getLsbD 0 = true ∧ st.getLsbD 1 = false ∧ st.getLsbD 2 = c.status.getLsbD 0 ∧ st.getLsbD 3 = c.status.getLsbD 1 ∧
      st.getLsbD 4 = c.status.getLsbD 4)

/-- On a running core LD, LW, LWS, LH, LHS, LB and LBS, the short LD and LW, and VLD, whose access to their effective address (b[k] + w[base] + sext(d12),
or b[k] + a20) reaches memory at loc, complete with rt (vt) holding the little-endian bytes there, zero-extended, or sign-extended in the S forms; no
flag and no memory changes. (R182, R193, 08_erril_cores.md) -/
def Obligations.LoadResults : Prop :=
  ∀ (s : State) (core : BitVec 6) (d : Dev) (c : Core) (a : Nat), s.Runs core d c a →
  ∀ (rt base : BitVec 5) (k : BitVec 3) (d12 : BitVec 12) (a20 : BitVec 20) (ea eb : Int) (loc : Nat) (d' : Dev) (put : Word → State),
    ea = (c.rb k.toNat).toNat + (c.rw base.toNat).toInt + d12.toInt → eb = (c.rb k.toNat).toNat + a20.toNat →
    (∀ v, put v = s.seqDev core d a (d'.setCore core.toNat ((d'.core core.toNat).ww rt.toNat v))) →
    (d.Reaches core ea 8 1 1 loc d' → exec (.ld core rt base k d12) s = .next (put (BitVec.ofNat 64 (d'.peekLe loc 8)))) ∧
    (d.Reaches core ea 4 1 1 loc d' → exec (.lw core rt base k d12) s = .next (put (BitVec.ofNat 64 (d'.peekLe loc 4))) ∧
      exec (.lws core rt base k d12) s = .next (put ((BitVec.ofNat 32 (d'.peekLe loc 4)).signExtend 64))) ∧
    (d.Reaches core ea 2 1 1 loc d' → exec (.lh core rt base k d12) s = .next (put (BitVec.ofNat 64 (d'.peekLe loc 2))) ∧
      exec (.lhs core rt base k d12) s = .next (put ((BitVec.ofNat 16 (d'.peekLe loc 2)).signExtend 64))) ∧
    (d.Reaches core ea 1 1 1 loc d' → exec (.lb core rt base k d12) s = .next (put (BitVec.ofNat 64 (d'.peekLe loc 1))) ∧
      exec (.lbs core rt base k d12) s = .next (put ((BitVec.ofNat 8 (d'.peekLe loc 1)).signExtend 64))) ∧
    (d.Reaches core eb 8 1 1 loc d' → exec (.ldShort core rt k a20) s = .next (put (BitVec.ofNat 64 (d'.peekLe loc 8)))) ∧
    (d.Reaches core eb 4 1 1 loc d' → exec (.lwShort core rt k a20) s = .next (put (BitVec.ofNat 64 (d'.peekLe loc 4)))) ∧
    (d.Reaches core ea 64 1 1 loc d' → exec (.vld core rt base k d12) s =
      .next (s.seqDev core d a (d'.setCore core.toNat ((d'.core core.toNat).wv rt.toNat (BitVec.ofNat 512 (d'.peekLe loc 64))))))

/-- On a running core ST, SW, SH, SB, the short ST and SW, and VST, whose access to their effective address reaches memory at loc, complete with the low
8, 4, 2, 1 or 64 bytes of rt (vt) stored little-endian there; no register and no flag changes. A store of n bytes at loc makes byte j of the stored
bytes read as byte j of the value and every byte outside them read as before. (R182, R193, 08_erril_cores.md) -/
def Obligations.StoreResults : Prop :=
  (∀ (s : State) (core : BitVec 6) (d : Dev) (c : Core) (a : Nat), s.Runs core d c a →
    ∀ (rt base : BitVec 5) (k : BitVec 3) (d12 : BitVec 12) (a20 : BitVec 20) (ea eb : Int) (loc x : Nat) (d' : Dev) (put : Nat → Nat → State),
      ea = (c.rb k.toNat).toNat + (c.rw base.toNat).toInt + d12.toInt → eb = (c.rb k.toNat).toNat + a20.toNat → x = (c.rw rt.toNat).toNat →
      (∀ len v, put len v = s.seqDev core d a (d'.storeAt loc len v)) →
      (d.Reaches core ea 8 2 2 loc d' → exec (.st core rt base k d12) s = .next (put 8 x)) ∧
      (d.Reaches core ea 4 2 2 loc d' → exec (.sw core rt base k d12) s = .next (put 4 x)) ∧
      (d.Reaches core ea 2 2 2 loc d' → exec (.sh core rt base k d12) s = .next (put 2 x)) ∧
      (d.Reaches core ea 1 2 2 loc d' → exec (.sb core rt base k d12) s = .next (put 1 x)) ∧
      (d.Reaches core eb 8 2 2 loc d' → exec (.stShort core rt k a20) s = .next (put 8 x)) ∧
      (d.Reaches core eb 4 2 2 loc d' → exec (.swShort core rt k a20) s = .next (put 4 x)) ∧
      (d.Reaches core ea 64 2 2 loc d' → exec (.vst core rt base k d12) s = .next (put 64 (c.rv rt.toNat).toNat))) ∧
  (∀ (d : Dev) (loc len v j : Nat),
    (j < len → (d.storeAt loc len v).peek (loc + j) = BitVec.ofNat 8 (v / 256 ^ j)) ∧
    (j < loc ∨ loc + len ≤ j → (d.storeAt loc len v).peek j = d.peek j) ∧
    (d.storeAt loc len v).dict = d.dict ∧
    (∀ n c c', c = d.core n → c' = (d.storeAt loc len v).core n → c'.w = c.w ∧ c'.v = c.v ∧ c'.flags = c.flags ∧ c'.pc = c.pc ∧ c'.b = c.b ∧
      c'.lc = c.lc ∧ c'.status = c.status ∧ c'.uctl = c.uctl ∧ c'.ps = c.ps ∧ c'.pd = c.pd ∧ c'.pn = c.pn ∧ c'.pk = c.pk))

/-- On a running core an AMO whose read and write access to b[k] + w[base] reaches memory at loc completes: the 8 bytes at loc become f(old, w[rb]) for
SWAP, ADD, AND, OR, XOR, MIN, MAX, MINU and MAXU, and rd := old. CAS stores w[rb] only when the old word equals the prior rd, Z says whether it
stored, and no other flag changes. (R194) -/
def Obligations.AtomicResults : Prop :=
  ∀ (s : State) (core : BitVec 6) (d : Dev) (c : Core) (a : Nat), s.Runs core d c a →
  ∀ (rd base rb : BitVec 5) (k : BitVec 3) (ea : Int) (loc l1 : Nat) (d1 d2 : Dev) (old y : Word) (put : Word → State),
    ea = (c.rb k.toNat).toNat + (c.rw base.toNat).toInt → d.Reaches core ea 8 1 4 l1 d1 → d1.Reaches core ea 8 2 4 loc d2 →
    old = BitVec.ofNat 64 (d2.peekLe loc 8) → y = c.rw rb.toNat →
    (∀ (v : Word) e, e = d2.storeAt loc 8 v.toNat → put v = s.seqDev core d a (e.setCore core.toNat ((e.core core.toNat).ww rd.toNat old))) →
    exec (.amoSwap core rd base k rb) s = .next (put y) ∧
    exec (.amoAdd core rd base k rb) s = .next (put (old + y)) ∧
    exec (.amoAnd core rd base k rb) s = .next (put (old &&& y)) ∧
    exec (.amoOr core rd base k rb) s = .next (put (old ||| y)) ∧
    exec (.amoXor core rd base k rb) s = .next (put (old ^^^ y)) ∧
    exec (.amoMin core rd base k rb) s = .next (put (if old.toInt < y.toInt then old else y)) ∧
    exec (.amoMax core rd base k rb) s = .next (put (if old.toInt < y.toInt then y else old)) ∧
    exec (.amoMinu core rd base k rb) s = .next (put (if old.toNat < y.toNat then old else y)) ∧
    exec (.amoMaxu core rd base k rb) s = .next (put (if old.toNat < y.toNat then y else old)) ∧
    (old = c.rw rd.toNat → ∀ e, e = d2.storeAt loc 8 y.toNat → exec (.amoCas core rd base k rb) s = .next (s.seqDev core d a (e.setCore core.toNat
      { (e.core core.toNat).ww rd.toNat old with flags := setF (e.core core.toNat).flags 0 true }))) ∧
    (old ≠ c.rw rd.toNat → exec (.amoCas core rd base k rb) s = .next (s.seqDev core d a (d2.setCore core.toNat
      { (d2.core core.toNat).ww rd.toNat old with flags := setF (d2.core core.toNat).flags 0 false })))

/-- The effective address of the based forms is b[k] + signed(w[base]) + sext(d12) with base w0 contributing 0, and of the short form b[k] + a20. On a
running core every load and store whose ea is negative, at least 2^48, or in 0xffff_fff0_0000 to 0xffff_fffb_ffff raises ADDRESS_RANGE, with the low
64 bits of ea as its value, and stores or loads nothing. (R182) -/
def Obligations.AddressRangeOfTheRule : Prop :=
  ∀ (s : State) (core : BitVec 6) (d : Dev) (c : Core) (a : Nat), s.Runs core d c a →
  ∀ (rt base : BitVec 5) (k : BitVec 3) (d12 : BitVec 12) (a20 : BitVec 20) (ea eb : Int) (bad : Int → Prop) (trap : Int → State),
    ea = (c.rb k.toNat).toNat + (if base = 0 then 0 else (c.rw base.toNat).toInt) + d12.toInt → eb = (c.rb k.toNat).toNat + a20.toNat →
    (∀ e, bad e ↔ e < 0 ∨ 2 ^ 48 ≤ e ∨ (0xfffffff00000 ≤ e ∧ e < 0xfffffffc0000)) →
    (∀ e, trap e = s.trapsAt core d 4 0 (e % 2 ^ 64).toNat a) →
    (bad ea →
      exec (.ld core rt base k d12) s = .next (trap ea) ∧ exec (.lw core rt base k d12) s = .next (trap ea) ∧
      exec (.lws core rt base k d12) s = .next (trap ea) ∧ exec (.lh core rt base k d12) s = .next (trap ea) ∧
      exec (.lhs core rt base k d12) s = .next (trap ea) ∧ exec (.lb core rt base k d12) s = .next (trap ea) ∧
      exec (.lbs core rt base k d12) s = .next (trap ea) ∧ exec (.st core rt base k d12) s = .next (trap ea) ∧
      exec (.sw core rt base k d12) s = .next (trap ea) ∧ exec (.sh core rt base k d12) s = .next (trap ea) ∧
      exec (.sb core rt base k d12) s = .next (trap ea) ∧ exec (.vld core rt base k d12) s = .next (trap ea) ∧
      exec (.vst core rt base k d12) s = .next (trap ea)) ∧
    (bad (ea - d12.toInt) → ∀ rb : BitVec 5,
      exec (.amoSwap core rt base k rb) s = .next (trap (ea - d12.toInt)) ∧ exec (.amoAdd core rt base k rb) s = .next (trap (ea - d12.toInt)) ∧
      exec (.amoAnd core rt base k rb) s = .next (trap (ea - d12.toInt)) ∧ exec (.amoOr core rt base k rb) s = .next (trap (ea - d12.toInt)) ∧
      exec (.amoXor core rt base k rb) s = .next (trap (ea - d12.toInt)) ∧ exec (.amoMin core rt base k rb) s = .next (trap (ea - d12.toInt)) ∧
      exec (.amoMax core rt base k rb) s = .next (trap (ea - d12.toInt)) ∧ exec (.amoMinu core rt base k rb) s = .next (trap (ea - d12.toInt)) ∧
      exec (.amoMaxu core rt base k rb) s = .next (trap (ea - d12.toInt)) ∧ exec (.amoCas core rt base k rb) s = .next (trap (ea - d12.toInt))) ∧
    (bad eb →
      exec (.ldShort core rt k a20) s = .next (trap eb) ∧ exec (.lwShort core rt k a20) s = .next (trap eb) ∧
      exec (.stShort core rt k a20) s = .next (trap eb) ∧ exec (.swShort core rt k a20) s = .next (trap eb))

/-- On a running core VADD, VSUB, VMUL, VMIN, VMAX, VMINU, VMAXU, VCMPEQ, VCMPGT, VCMPGTU, VSLL, VSRL and VSRA complete with a value in vd whose every
lane, at the element size, is the operation on the lanes of va and vb, wrapping at the lane width; VAND, VOR, VXOR, VANDN and VBSL are bitwise; VBCAST
fills every lane with the low bits of w[va]. No other register and no flag changes. (R187, R188, R193, 08_erril_cores.md) -/
def Obligations.VectorLaneResults : Prop :=
  ∀ (s : State) (core : BitVec 6) (d : Dev) (c : Core) (a : Nat), s.Runs core d c a →
  ∀ (es : BitVec 2) (vd va vb : BitVec 5) (x y z : Vec) (w e : Nat) (gives : Instr → (Nat → Nat → Nat) → Prop),
    x = c.rv va.toNat → y = c.rv vb.toNat → z = c.rv vd.toNat → w = 8 * 2 ^ es.toNat → e = es.toNat →
    (∀ i f, gives i f ↔ ∃ r : Vec, exec i s = .next (s.seq core d a (c.wv vd.toNat r)) ∧
      ∀ l < 512 / w, lane e r l = f (lane e x l) (lane e y l) % 2 ^ w) →
    gives (.vadd core es vd va vb) (fun p q => p + q) ∧
    gives (.vsub core es vd va vb) (fun p q => p + (2 ^ w - q)) ∧
    gives (.vmul core es vd va vb) (fun p q => p * q) ∧
    gives (.vmin core es vd va vb) (fun p q => if laneS e p < laneS e q then p else q) ∧
    gives (.vmax core es vd va vb) (fun p q => if laneS e p < laneS e q then q else p) ∧
    gives (.vminu core es vd va vb) (fun p q => if p < q then p else q) ∧
    gives (.vmaxu core es vd va vb) (fun p q => if p < q then q else p) ∧
    gives (.vcmpeq core es vd va vb) (fun p q => if p = q then 2 ^ w - 1 else 0) ∧
    gives (.vcmpgt core es vd va vb) (fun p q => if laneS e q < laneS e p then 2 ^ w - 1 else 0) ∧
    gives (.vcmpgtu core es vd va vb) (fun p q => if q < p then 2 ^ w - 1 else 0) ∧
    gives (.vsll core es vd va vb) (fun p q => if w ≤ q then 0 else p * 2 ^ q) ∧
    gives (.vsrl core es vd va vb) (fun p q => if w ≤ q then 0 else p / 2 ^ q) ∧
    gives (.vsra core es vd va vb) (fun p q => ((laneS e p / 2 ^ (min q w)) % (2 ^ w : Int)).toNat) ∧
    (∃ r : Vec, exec (.vbcast core es vd va) s = .next (s.seq core d a (c.wv vd.toNat r)) ∧
      ∀ l < 512 / w, lane e r l = (c.rw va.toNat).toNat % 2 ^ w) ∧
    exec (.vand core vd va vb) s = .next (s.seq core d a (c.wv vd.toNat (x &&& y))) ∧
    exec (.vor core vd va vb) s = .next (s.seq core d a (c.wv vd.toNat (x ||| y))) ∧
    exec (.vxor core vd va vb) s = .next (s.seq core d a (c.wv vd.toNat (x ^^^ y))) ∧
    exec (.vandn core vd va vb) s = .next (s.seq core d a (c.wv vd.toNat (x &&& ~~~y))) ∧
    exec (.vbsl core vd va vb) s = .next (s.seq core d a (c.wv vd.toNat ((x &&& z) ||| (y &&& ~~~z))))

/-- On a running core VEXT writes w[vd] with lane l of va zero-extended and VINS replaces lane l of vd with the low bits of w[va], for l below the lane
count; a larger l raises ILLEGAL. VRSUM writes the sum of the lanes modulo the lane width and VRMIN and VRMAX a lane's signed value that no lane is
below or above; VMSK gathers the top bits of the lanes; VMOV copies va. That VRSUM wraps at the lane width and VRMIN and VRMAX are sign-extended to 64
bits is the model's choice (DEDUCED, log entry 22). (R186, R193, 08_erril_cores.md) -/
def Obligations.VectorMoveResults : Prop :=
  ∀ (s : State) (core : BitVec 6) (d : Dev) (c : Core) (a : Nat), s.Runs core d c a →
  ∀ (es : BitVec 2) (vd va : BitVec 5) (l : BitVec 6) (x : Vec) (w e : Nat),
    x = c.rv va.toNat → w = 8 * 2 ^ es.toNat → e = es.toNat →
    (l.toNat < 512 / w →
      exec (.vext core es vd va l) s = .next (s.seq core d a (c.ww vd.toNat (BitVec.ofNat 64 (lane e x l.toNat)))) ∧
      ∃ r : Vec, exec (.vins core es vd va l) s = .next (s.seq core d a (c.wv vd.toNat r)) ∧
        ∀ j < 512 / w, lane e r j = if j = l.toNat then (c.rw va.toNat).toNat % 2 ^ w else lane e (c.rv vd.toNat) j) ∧
    (512 / w ≤ l.toNat →
      exec (.vext core es vd va l) s = .next (s.trapsAt core d 2 0 (encV 0x2E vd.toNat va.toNat (l.toNat % 32) e (l.toNat / 32) 1) a) ∧
      exec (.vins core es vd va l) s = .next (s.trapsAt core d 2 0 (encV 0x2E vd.toNat va.toNat (l.toNat % 32) e (l.toNat / 32) 2) a)) ∧
    exec (.vrsum core es vd va) s = .next (s.seq core d a
      (c.ww vd.toNat (BitVec.ofNat 64 (((List.range (512 / w)).map (lane e x)).sum % 2 ^ w)))) ∧
    (∃ m < 512 / w, exec (.vrmin core es vd va) s = .next (s.seq core d a (c.ww vd.toNat (BitVec.ofInt 64 (laneS e (lane e x m))))) ∧
      ∀ j < 512 / w, laneS e (lane e x m) ≤ laneS e (lane e x j)) ∧
    (∃ m < 512 / w, exec (.vrmax core es vd va) s = .next (s.seq core d a (c.ww vd.toNat (BitVec.ofInt 64 (laneS e (lane e x m))))) ∧
      ∀ j < 512 / w, laneS e (lane e x j) ≤ laneS e (lane e x m)) ∧
    (∃ r : Word, exec (.vmsk core es vd va) s = .next (s.seq core d a (c.ww vd.toNat r)) ∧
      ∀ j < 64, r.getLsbD j = (decide (j < 512 / w) && x.getLsbD (w * j + w - 1))) ∧
    exec (.vmov core vd va) s = .next (s.seq core d a (c.wv vd.toNat x))

/-- On a running core a string instruction with pn = 0 completes at once; CMPS then sets Z and clears N, C and V, and SCANS clears Z. With pn not 0, one
element (the command with limit 1) whose accesses reach memory does what R191 says of its instruction: MOVS copies sz bytes and advances ps and pd,
FILLS stores pk modulo the width and advances pd, CMPS and SCANS compare and complete at a mismatch or match with their flags, HASHS updates pk by
CRC-32C; pn falls by 1, and the instruction completes when it reaches 0 and otherwise stands at the element boundary with its pc unchanged and
InString marked. (R191, R192) -/
def Obligations.StringElementResults : Prop :=
  ∀ (s : State) (core : BitVec 6) (d : Dev) (c : Core) (a : Nat), s.Runs core d c a →
  ∀ (es : BitVec 2) (n sz : Nat), n = core.toNat → sz = 2 ^ es.toNat →
    (c.pn = 0 → ∀ lim,
      exec (.movs core es lim) s = .next (s.seq core d a c) ∧ exec (.fills core es lim) s = .next (s.seq core d a c) ∧
      exec (.hashs core lim) s = .next (s.seq core d a c) ∧
      exec (.cmps core es lim) s = .next (s.seq core d a { c with flags := setF (setF (setF (setF c.flags 0 true) 1 false) 2 false) 3 false }) ∧
      exec (.scans core es lim) s = .next (s.seq core d a { c with flags := setF c.flags 0 false })) ∧
    (c.pn ≠ 0 → ∀ (after : Dev → (Core → Core) → State),
      -- the element is counted: the instruction completes, or stands at the boundary
      (∀ e last g, g = e.setCore n { e.core n with pn := (e.core n).pn - 1 } →
        after e last = if (g.core n).pn = 0 then s.seqDev core d a (g.setCore n (last (g.core n))) else s.leaves (g.setCore n { g.core n with inStr := true })) →
      (∀ l1 l2 d1 d2 e, d.Reaches core c.ps.toNat sz 1 1 l1 d1 → d1.Reaches core c.pd.toNat sz 2 2 l2 d2 → e = d2.storeAt l2 sz (d1.peekLe l1 sz) →
        exec (.movs core es 1) s = .next (after (e.setCore n { e.core n with ps := c.ps + BitVec.ofNat 64 sz, pd := c.pd + BitVec.ofNat 64 sz }) id)) ∧
      (∀ l2 d2 e, d.Reaches core c.pd.toNat sz 2 2 l2 d2 → e = d2.storeAt l2 sz (c.pk.toNat % 2 ^ (8 * sz)) →
        exec (.fills core es 1) s = .next (after (e.setCore n { e.core n with pd := c.pd + BitVec.ofNat 64 sz }) id)) ∧
      (∀ l1 l2 d1 d2 x y k, d.Reaches core c.ps.toNat sz 1 1 l1 d1 → d1.Reaches core c.pd.toNat sz 1 1 l2 d2 →
        x = d1.peekLe l1 sz → y = d2.peekLe l2 sz → k = d2.core n →
        (x ≠ y → exec (.cmps core es 1) s = .next (s.seqDev core d a (d2.setCore n
          { k with flags := setF (setF (setF (setF k.flags 0 false) 3 false) 2 (decide (x < y))) 1 (decide (signedOf sz x < signedOf sz y)) }))) ∧
        (x = y → exec (.cmps core es 1) s = .next (after (d2.setCore n { k with ps := c.ps + BitVec.ofNat 64 sz, pd := c.pd + BitVec.ofNat 64 sz })
          (fun k => { k with flags := setF (setF (setF (setF k.flags 0 true) 1 false) 2 false) 3 false })))) ∧
      (∀ l1 d1 k, d.Reaches core c.ps.toNat sz 1 1 l1 d1 → k = d1.core n →
        (d1.peekLe l1 sz = c.pk.toNat % 2 ^ (8 * sz) →
          exec (.scans core es 1) s = .next (s.seqDev core d a (d1.setCore n { k with flags := setF k.flags 0 true }))) ∧
        (d1.peekLe l1 sz ≠ c.pk.toNat % 2 ^ (8 * sz) →
          exec (.scans core es 1) s = .next (after (d1.setCore n { k with ps := c.ps + BitVec.ofNat 64 sz }) (fun k => { k with flags := setF k.flags 0 false })))) ∧
      (∀ l1 d1, d.Reaches core c.ps.toNat 1 1 1 l1 d1 → exec (.hashs core 1) s = .next (after (d1.setCore n
        { d1.core n with pk := BitVec.ofNat 64 (crc32cUpdate (c.pk.toNat % 2 ^ 32) (d1.peek l1)), ps := c.ps + 1 }) id)))

/-- On a powered device in STANDBY with the start conditions of R323, POWER_UP_START begins the power-up at s0, the present tick: the supervisor reads
RISING until the sequence settles, and then UP or INCOMPLETE. RAIL_ENABLE of an enabled rail that is OFF within the sequence and whose parents are
good drives its enable and the rail reads RAMPING. RAIL_START_FAIL of a RAMPING rail releases its enable, the rail reads FAILED-START and its start-
failure source is raised. (R323, R324, R325, 14_power_supervision.md) -/
def Obligations.PowerUpSequenceSteps : Prop :=
  ∀ (s : State) (d : Dev), s.Powered → d = s.dev →
    (d.aon.powered = true → d.aon.fwHalt = false → d.aon.wdRestart = false → d.doms.supRet = false → d.sup = 0 →
      ((d.g oAutoPowerOn = 1 ∧ d.power.endedStandby = false) ∨ d.power.shortPress = true) →
      s.Does .powerUpStart fun e => e.power.s0 = d.now ∧ e.power.shortPress = false ∧
        (if e.power.seqUp then e.sup = 1 else e.sup = 2 ∨ e.sup = 3)) ∧
    (∀ r, d.power.seqUp = true → r ∈ d.enRails → d.rst r = 0 → (d.parentsR r).all d.parentGood = true →
      s.Does (.railEnable r) fun e => e.rst r = 1 ∧ (e.rail r).en = true) ∧
    (∀ r < 16, d.rst r = 1 → s.Does (.railStartFail r) fun e => e.rst r = 5 ∧ (e.rail r).en = false ∧ e.Raised (576 + r))

/-- A sample of code c of rail r gives RailVoltage c*SenseScale/4095 in mV. When it supports the state the rail reads, the debounce count starts again;
when it supports another state and that makes fewer than Debounce samples in a row, the state stays and the count is kept; the Debounce-th sample in a
row that finds a RAMPING rail within its bands makes it GOOD. RAIL_DISCHARGE_TIMEOUT of a DISCHARGING rail that no power-down is waiting for counts
DischargeTimeouts and the rail reads OFF. (R317, R319, R327, 14_power_supervision.md) -/
def Obligations.RailSamplesAndDischarge : Prop :=
  ∀ (s : State) (d : Dev), s.Powered → d = s.dev →
    (∀ (r code v n t : Nat) (d1 : Dev), r < 24 → code < 4096 → d.adcHeld r = false → v = code * d.ra oSenseScale r / 4095 →
      d1 = d.sr oRailVoltage r (min 65535 v) → t = d1.supports r v → n = (if (d.rail r).cand = t then (d.rail r).cnt + 1 else 1) →
      (t = d.rst r → s.Does (.adcSample r code) fun e => e.gr oRailVoltage r = min 65535 v ∧ e.rst r = d.rst r ∧ (e.rail r).cnt = 0) ∧
      (t ≠ d.rst r → n < d.gr oDebounce r → s.Does (.adcSample r code) fun e =>
        e.gr oRailVoltage r = min 65535 v ∧ e.rst r = d.rst r ∧ (e.rail r).cand = t ∧ (e.rail r).cnt = n) ∧
      (d.rst r = 1 → t = 2 → d.gr oDebounce r ≤ n → s.Does (.adcSample r code) fun e => e.gr oRailVoltage r = min 65535 v ∧ e.rst r = 2)) ∧
    (∀ r < 16, d.rst r = 7 → (∀ x ∈ d.power.down, x.1 ≠ r) → s.Does (.railDischargeTimeout r) fun e =>
      e.rst r = 0 ∧ e.gr oDischargeTimeouts r = min 65535 (d.gr oDischargeTimeouts r + 1))

/-- A STATUS_WORD poll of an enabled PMBus rail that is answered well clears its missed count; the third that is not answered raises source 624 + r. An
acknowledged voltage lets the clock slew when it must change and otherwise completes the change; an acknowledgement that fails is written once more,
and the second failure ends the change with source 40 + q and the point as it was. A slew that completes with the voltage in place completes the
change, and otherwise the voltage is written. A request for a used point is stored in CoreOperatingPoint; an unused entry answers INVALID_VALUE.
(R320, R321, R332, R333, R334, 14_power_supervision.md) -/
def Obligations.RegulatorBusesAndScaling : Prop :=
  ∀ (s : State) (d : Dev), s.Powered → d = s.dev →
    (∀ r < 16, d.railFlag r 0 = true → d.ra oRailKind r = 1 →
      s.Does (.regulatorPoll r true false) (fun e => storeGet (fun _ => 0) e.power.missed r = 0 ∧ e.faults.live.testBit (624 + r) = false) ∧
      (storeGet (fun _ => 0) d.power.missed r = 2 → s.Does (.regulatorPoll r false false) fun e => e.Raised (624 + r))) ∧
    (∀ (q : Nat) (a : Avs), q < 4 → a = d.avsOf q → a.step = 1 → a.want = none →
      (a.freq = (d.opPoint a.target).1 → s.Does (.avsAckReceive q) fun e =>
        (e.avsOf q).step = 0 ∧ (e.avsOf q).point = a.target ∧ (e.avsOf q).vack = (d.opPoint a.target).2 ∧ e.gr oNominal q = (d.opPoint a.target).2) ∧
      (a.freq ≠ (d.opPoint a.target).1 → s.Does (.avsAckReceive q) fun e =>
        (e.avsOf q).step = 2 ∧ (e.avsOf q).freq = (d.opPoint a.target).1 ∧ (e.avsOf q).point = a.point) ∧
      (a.retried = false → s.Does (.avsAckTimeout q) fun e => (e.avsOf q).step = 1 ∧ (e.avsOf q).retried = true ∧ e.faultQ = d.faultQ) ∧
      (a.retried = true → s.Does (.avsAckTimeout q) fun e => (e.avsOf q).step = 0 ∧ (e.avsOf q).point = a.point ∧ e.Raised (40 + q))) ∧
    (∀ (q : Nat) (a : Avs), q < 4 → a = d.avsOf q → a.step = 2 → a.want = none →
      (a.vack = (d.opPoint a.target).2 → s.Does (.qclkSlewComplete q) fun e => (e.avsOf q).step = 0 ∧ (e.avsOf q).point = a.target) ∧
      (a.vack ≠ (d.opPoint a.target).2 → s.Does (.qclkSlewComplete q) fun e => (e.avsOf q).step = 1 ∧ (e.avsOf q).point = a.point)) ∧
    (s.TakesWrites → ∀ p : BitVec 32,
      ((∀ q < 4, byteOf p.toNat q < 8 ∧ (d.opPoint (byteOf p.toNat q)).1 ≠ 0) →
        s.Does (.operatingPointChange p) fun e => e.g oCoreOperatingPoint = p.toNat ∧ e.Answers 4 0 0xFFFF) ∧
      ((∃ q < 4, 8 ≤ byteOf p.toNat q ∨ (d.opPoint (byteOf p.toNat q)).1 = 0) →
        exec (.operatingPointChange p) s = .next (s.leaves (d.emit .response [0, 0, 4, 3, 0xFF, 0, 0] (leBytes 2 uSup)))))

/-- MARGIN_MODE on is taken only with WriteThroughCause bit 0 set, nothing dirty and no vault, restore, drill or capacitance test running, and refused
with STATE_CONFLICT otherwise; off leaves it. A MARGIN_STEP from -20 to 20 that keeps the rail below its absolute maximum is stored, and one outside
is refused with INVALID_VALUE. RAIL_RESTART of a failed rail returns it to OFF and runs the sequence; CLEAR_COUNTERS zeroes the rail's counters;
SHUTDOWN_REQUEST_CLEAR clears ShutdownRequest. (R330, R331, R336, R337, R339, 14_power_supervision.md) -/
def Obligations.MarginingAndRailCommands : Prop :=
  ∀ (s : State) (d : Dev), s.TakesWrites → d = s.dev →
    (d.g oMarginMode = 0 → (d.g oWriteThroughCause).testBit 0 = true → d.dirtyTotal = 0 → d.seqBusy = false →
      s.Does (.marginMode true) fun e => e.g oMarginMode = 1 ∧ e.Answers 4 0 0xFFFF) ∧
    (d.g oMarginMode = 0 → ((d.g oWriteThroughCause).testBit 0 = false ∨ d.dirtyTotal ≠ 0 ∨ d.seqBusy = true) →
      exec (.marginMode true) s = .next (s.leaves (d.emit .response [0, 0, 4, 4, 0xFF, 0, 0] (leBytes 2 uSup)))) ∧
    s.Does (.marginMode false) (fun e => e.g oMarginMode = 0 ∧ e.Answers 4 0 0xFFFF) ∧
    (∀ (r : Nat) (v : Int), r < 24 → -128 ≤ v → v < 128 →
      (-20 ≤ v → v ≤ 20 → d.railMarginOk r (d.gr oNominal r) v (d.sgr oFaultHigh r 2) = true →
        s.Does (.marginStep r v) fun e => e.sgr oMarginStep r 1 = v ∧ e.Answers 4 0 0xFFFF) ∧
      (v < -20 ∨ 20 < v → exec (.marginStep r v) s = .next (s.leaves (d.emit .response [0, 0, 4, 3, 0xFF, 0, 0] (leBytes 2 uSup))))) ∧
    (∀ r < 16, d.rst r = 5 ∨ d.rst r = 4 → s.Does (.railRestart r) fun e =>
      e.rst r = 0 ∧ (e.rail r).en = false ∧ e.power.seqUp = true ∧ e.power.s0 = d.now ∧ e.Answers 4 0 0xFFFF) ∧
    (∀ r < 24, s.Does (.clearCounters r) fun e => e.gr oWarnings r = 0 ∧ e.gr oFaults r = 0 ∧ e.gr oStartFailures r = 0 ∧
      e.gr oDischargeTimeouts r = 0 ∧ e.gr oMarginCycles r = 0 ∧ e.Answers 4 0 0xFFFF) ∧
    s.Does .shutdownRequestClear (fun e => e.g oShutdownRequest = 0 ∧ e.Answers 4 0 0xFFFF)

/-- AUX_BROWNOUT releases every RAIL_EN output at once, every rail reads OFF and the collapse is latched; POWER_ON_RESET brings the always-on block back
with the straps sampled and the supply in STANDBY, and an invalid keep store or a VBAT that was low raises source 6; VBAT_LOW_LATCH latches only while
the auxiliary input is absent. MRST_N within a vault sequence that holds no reset-ended RETAIN is recorded and ignored, and in WAKE, RESTORE or FETCH
deferred. A short press in STANDBY asks for the power-up, and within a vault is only recorded; with the supply up it sets ShutdownRequest. A press of
4 s or more within the ignored range is recorded, and a long press is trigger 0x03 at that instant. (R329, R335, R336, R420, R424,
14_power_supervision.md, 19_resets_and_persistence.md) -/
def Obligations.PowerLossPressesAndResets : Prop :=
  ∀ (s : State) (d : Dev), d = s.dev →
    (s.Powered → s.Does .auxBrownout fun e => e.aon.auxUp = false ∧ e.aon.collapse = some d.now ∧ e.aon.holdEn = false ∧ e.power.seqUp = false ∧
      ∀ r < 16, (e.rail r).en = false ∧ e.rst r = 0) ∧
    (∀ (keepOk en mstr test : Bool) (addr : BitVec 3), s.Does (.powerOnReset keepOk en addr mstr test) fun e =>
      e.aon.auxUp = true ∧ e.sup = 0 ∧ e.vst = 0 ∧ e.aon.lshEn = en ∧ e.aon.lshMstr = mstr ∧ e.aon.testMode = test ∧ e.g oPackAddress = addr.toNat ∧
      e.aon.collapse = none ∧ (keepOk = false ∨ d.aon.vbatLow = true → e.Raised 6)) ∧
    (d.aon.auxUp = false → s.Does .vbatLowLatch fun e => e.aon.vbatLow = true) ∧
    (s.Powered → ∀ len : Nat,
      (d.inVault = true → d.retainResets = false → exec (.mrstN len) s = .next (s.leaves (d.record 0x103 0 uSup 1 len 0 0))) ∧
      (0x0A ≤ d.vst → d.vst ≤ 0x0C → s.Does (.mrstN len) fun e => e.aon.mrstDefer = true ∧ e.Recorded 0x103) ∧
      (d.inVault = true → exec (.pwrbtnShortPress len) s = .next (s.leaves (d.record 0x103 0 uSup 2 len 0 0))) ∧
      (d.inVault = false → d.sup = 0 → s.Does (.pwrbtnShortPress len) fun e => e.power.shortPress = true) ∧
      (d.inVault = false → d.sup ≠ 0 → s.Does (.pwrbtnShortPress len) fun e => e.g oShutdownRequest = 1 ∧ e.Recorded 0x103) ∧
      (4000 ≤ len → exec (.pwrbtnIgnoredPress len) s = .next (s.leaves (d.record 0x103 0 uSup 3 len 0 0))) ∧
      exec (.pwrbtnLongPress len) s = .next (s.leaves ((d.record 0x103 0 uSup 4 len 0 0).t0 3)))

/-- With power good and no vault running, PFAIL_T0, a fall of LSH_SYNC_N in a Pack, VAULT_THEN_OFF and VAULT_THEN_HOLD (these two while ARMED, answering
SUCCESS) begin the vault sequence at the present tick with their trigger code: admission is frozen, BANK_LOAD_EN is released, LastOutage is opened
with the trigger, and with no drill under way the machine stands in QUIESCE; the power triggers 1 and 2 assert HOLD_EN, and a Pack member drives
LSH_SYNC_N at its own PFAIL. While UNARMED the two commands are refused with STATE_CONFLICT. A trigger within a sequence is recorded, and the first
power trigger there asserts HOLD_EN and arms the energy guard. (R81, R83, R84, R85, R86, R88, R171, 04_vault_sequence.md) -/
def Obligations.VaultTriggersBeginTheSequence : Prop :=
  ∀ (s : State) (d : Dev), s.Powered → d = s.dev → d.faults.haltDone = false →
    ((d.vst = 1 ∨ d.vst = 0 ∧ d.sup = 2 ∧ d.power.full = false) → d.aon.wdRestart = false → d.energy.drill.step = 0 →
      (∀ (started : Nat → Dev → Prop),
        (∀ k e, started k e ↔ e.vst = 3 ∧ e.cache.frozen = true ∧ e.aon.bankLoad = false ∧ e.vault.trigger = k ∧ e.vault.t0 = d.now ∧ e.gb oLastOutage 0 = k) →
        s.Does .pfailT0 (fun e => started 1 e ∧ e.aon.holdEn = true ∧ (d.aon.lshEn = true → e.aon.lshSyncDrive = true)) ∧
        (d.aon.lshEn = true → d.aon.lshSyncN = true → s.Does .lshSyncTrigger fun e => started 2 e ∧ e.aon.holdEn = true) ∧
        (s.TakesWrites → d.armed = true → s.Does .vaultThenOff (fun e => started 5 e ∧ e.aon.holdEn = d.aon.holdEn ∧ e.Answers 4 0 0xFFFF)) ∧
        (s.TakesWrites → d.armed = true → s.Does .vaultThenHold (fun e => started 6 e ∧ e.aon.holdEn = d.aon.holdEn ∧ e.Answers 4 0 0xFFFF)))) ∧
    (s.TakesWrites → d.armed = false →
      exec .vaultThenOff s = .next (s.leaves (d.emit .response [0, 0, 4, 4, 0xFF, 0, 0] (leBytes 2 uChip))) ∧
      exec .vaultThenHold s = .next (s.leaves (d.emit .response [0, 0, 4, 4, 0xFF, 0, 0] (leBytes 2 uChip)))) ∧
    (2 ≤ d.vst → d.vst ≤ 7 → d.aon.holdEn = false → d.aon.lshEn = false → s.Does .pfailT0 fun e =>
      e.vst = d.vst ∧ e.aon.holdEn = true ∧ e.vault.guard = true ∧ e.Recorded 0x500)

/-- QUIESCE_COMPLETE moves QUIESCE to SHED; a QUIESCE_OVERRUN forces the activity it names to stop, marks it inexact and raises source 23. SHED_COMPLETE
ends SHED. VAULT_BEGIN, once SHED has ended and the Pack offset has passed, moves to VAULT with a new image in a usable target slot, or with an empty
plan when none is usable. SPILL_COMPLETE takes the domains of cores and SRAM that stand in RET to OFF; an empty plan then goes to RETAIN, when no
return of power waits. (R88, R89, R92, R94, R95, R104, 04_vault_sequence.md) -/
def Obligations.VaultStepsAdvance : Prop :=
  ∀ (s : State) (d : Dev), s.Powered → d = s.dev →
    (d.vst = 3 → s.Does .quiesceComplete fun e => e.vst = 4) ∧
    (d.vst = 3 →
      (∀ n, n ∈ d.coreNos → d.present (uCoreN n) = true → (d.core n).stopped = false → (d.core n).ctxid.toNat < 1024 →
        s.Does (.quiesceOverrun 0 n) fun e => (e.core n).stopped = true ∧ (e.ctx (d.core n).ctxid.toNat).inexact = true ∧ e.Raised 23) ∧
      (∀ n c, n < 1024 → (d.ch n).desc = some c → s.Does (.quiesceOverrun 1 n) fun e =>
        (∃ c', (e.ch n).desc = some c' ∧ c'.flags.testBit 2 = true) ∧ e.Raised 23) ∧
      (∀ n j, n < 320 → (d.slot n).job = some j → s.Does (.quiesceOverrun 2 n) fun e =>
        (∃ j', (e.slot n).job = some j' ∧ j'.flags.testBit 2 = true) ∧ (e.slot n).inexact = true ∧ e.Raised 23)) ∧
    (d.vst = 4 → d.vault.shedDone = false → s.Does .shedComplete fun e => e.vault.shedDone = true) ∧
    (d.vst = 4 → d.vault.shedDone = true → d.offsetPassed = true →
      (d.vault.empty = true → s.Does .vaultBegin fun e => e.vst = 5 ∧ e.vault.empty = true) ∧
      (∀ t, d.vault.empty = false → d.vaultTarget = some t → t ≤ 1 → s.Does .vaultBegin fun e =>
        e.vst = 5 ∧ e.vault.slot = t ∧ (e.slotK t).target = true ∧ (e.slotK t).image.isSome = true)) ∧
    (d.vst = 5 → d.vault.spill = false →
      (d.vault.empty = false → s.Does .spillComplete fun e => e.vst = 5 ∧ e.vault.spill = true ∧ ∀ u ∈ d.shedRet, d.domSt u = 1 → e.domSt u = 2) ∧
      (d.vault.empty = true → d.vault.wakeDue = false → s.Does .spillComplete fun e => e.vst = 7))

/-- In a VAULT that no guard is ending, a segment that reports success joins the image's durable prefix, which advances over every programmed segment that
follows; when it reaches the seal, SEAL begins and the seal's program command, the commit point, is issued. SEAL_DURABLE marks the image sealed and,
for triggers that hold, with no return of power waiting, goes to RETAIN. A failed program of a segment in flight raises the channel's source and, with
a reserve block left on its LUN, relocates the segment; losing a progress record leaves the records before it; a LUN that fails leaves the map and
raises its channel's source. The energy guard, while it applies and the energy is below E_retain_min, issues no further segment: with none in flight
the vault ends in RETAIN, else it waits for them; otherwise the guard changes nothing. (R96, R97, R98, R99, R100, R116, R125, 04_vault_sequence.md) -/
def Obligations.SegmentsSealAndEnergyGuard : Prop :=
  ∀ (s : State) (d : Dev) (m : Image), s.Powered → d = s.dev → d.target_ = some m →
    (∀ (i issued mask top n : Nat) (a : Nat), d.vst = 5 → d.vault.ending = 0 → i ∉ d.vault.cut →
      top = (if d.vault.stop then d.vault.issued else min (if d.vault.spill then m.plan - 1 else m.upTo 3) (max d.vault.issued issued)) →
      i < top → m.durable ≤ i → i ∉ m.done → d.segAddr m d.vault.slot i = some a → n = prefixOf (m.done ++ [i]) (m.done.length + 1) m.durable →
      (n ≠ m.plan - 1 → s.Does (.segmentProgramDone i issued mask) fun e => e.vst = 5 ∧ e.vault.issued = top ∧ ∃ m', e.target_ = some m' ∧ m'.durable = n) ∧
      (n = m.plan - 1 → s.Does (.segmentProgramDone i issued mask) fun e => e.vst = 6 ∧ e.vault.commit = true)) ∧
    (d.vst = 6 → d.vault.commit = true → d.power.full = false → d.vault.wakeDue = false → d.vault.trigger ≠ 3 → d.vault.trigger ≠ 5 →
      s.Does .sealDurable fun e => e.vst = 7 ∧ ∃ m', (e.slotK d.vault.slot).image = some m' ∧ m'.sealOk = true ∧ m'.durable = m.plan - 1) ∧
    (d.vst = 5 → ∀ i,
      ((∀ r ∈ m.recs, r.kind ≠ 1) → exec (.flashProgramFail i true) s = .next (s.leaves d)) ∧
      (∀ r, (m.recs.filter (·.kind = 1)).getLast? = some r → s.Does (.flashProgramFail i true) fun e =>
        ∃ m', e.target_ = some m' ∧ m'.recs = m.recs.filter (· ≠ r) ∧ m'.durable = m.durable)) ∧
    (∀ i lun, d.vst = 5 → m.durable ≤ i → i < m.plan - 1 → i ∉ m.done → i ∉ d.vault.cut → lun = ((d.segAddr m d.vault.slot i).getD 0) / 2 ^ 56 →
      s.Does (.flashProgramFail i false) (fun e => e.Raised (496 + lun / 16)) ∧
      (d.vault.stop = false → d.vault.ending = 0 → lun ∈ d.kennel.map → (d.reserveFree lun).isSome = true → s.Does (.flashProgramFail i false) fun e =>
        e.vst = 5 ∧ ∃ m' a, e.target_ = some m' ∧ (i, a) ∈ m'.reloc)) ∧
    (∀ lun < 256, (d.vst = 5 ∨ d.vst = 6) → lun ∈ d.kennel.map → (∃ k ∈ d.kennel.map, k ≠ lun) →
      s.Does (.lunFailDuringVault lun) fun e => lun ∉ e.kennel.map ∧ e.Raised (496 + lun / 16)) ∧
    (∀ v < 65536, d.vault.guard = true → d.vst = 5 → d.vault.empty = false → d.vault.ending = 0 → d.guardEnergy v < d.g oERetainMin * 1000 →
      (d.inFlight m = 0 → d.vault.wakeDue = false → s.Does (.energyGuardCheck v) fun e => e.vst = 7 ∧ e.vault.stop = true) ∧
      (0 < d.inFlight m → s.Does (.energyGuardCheck v) fun e => e.vst = 5 ∧ e.vault.stop = true ∧ e.target_ = some m)) ∧
    (∀ v < 65536, (d.vault.guard = false ∨ d.vault.empty = true ∨ d.g oERetainMin * 1000 ≤ d.guardEnergy v) →
      exec (.energyGuardCheck v) s = .next (s.leaves { d with free := d.free + 1 }))

/-- RESCIND_TIMER_EXPIRE after a power trigger releases LSH_SYNC_N; before the seal's commit point the sequence becomes RESCIND with no further segment
issued, and HOLD_EN is released once none is in flight; after it the return waits for the seal, and in RETAIN it becomes WAKE; after any other trigger
nothing but the line follows. RESCIND_RESUME_COMPLETE, once the rails have settled and nothing is in flight, releases FREEZE and has the page requests
and the resets under way go on. RETAIN_TO_DARK ends in DARK: HOLD_EN low, every rail enable released, VaultState and SupervisorState as after power
loss. SUPERVISOR_RESTART_COMPLETE lets a vault that hardware held go on to QUIESCE. LSH_SYNC_STUCK at a Pack member raises source 30 when no roster
node, this one among them, reports a local PFAIL. (R101, R102, R103, R132, R171, R419, 04_vault_sequence.md) -/
def Obligations.PowerReturnsOrFallsAway : Prop :=
  ∀ (s : State) (d : Dev), s.Powered → d = s.dev →
    ((d.vault.trigger = 1 ∨ d.vault.trigger = 2) →
      ((2 ≤ d.vst ∧ d.vst ≤ 5) ∨ (d.vst = 6 ∧ d.vault.commit = false) → s.Does .rescindTimerExpire fun e =>
        e.vst = 9 ∧ e.vault.stop = true ∧ e.aon.lshSyncDrive = false ∧
        ((∀ m, d.target_ = some m → d.inFlight m = 0) → e.aon.holdEn = false ∧ e.vault.ending = 0) ∧
        (∀ m, d.target_ = some m → 0 < d.inFlight m → e.aon.holdEn = d.aon.holdEn ∧ e.vault.ending = 2)) ∧
      (d.vst = 6 → d.vault.commit = true → s.Does .rescindTimerExpire fun e => e.vst = 6 ∧ e.vault.wakeDue = true) ∧
      (d.vst = 7 → s.Does .rescindTimerExpire fun e => e.vst = 0x0A ∧ e.restore.fromRetain = true ∧ e.aon.holdEn = false)) ∧
    (3 ≤ d.vault.trigger → s.Does .rescindTimerExpire fun e => e.vst = d.vst ∧ e.vault = d.vault ∧ e.aon.holdEn = d.aon.holdEn ∧ e.aon.lshSyncDrive = false) ∧
    (d.vst = 9 → d.power.seqUp = false → d.vault.ending = 0 → ∃ f : Dev, f.vst = d.afterOutage ∧ f.vault.shed = [] ∧
      exec .rescindResumeComplete s = .next (s.leaves
        ((let g := f.unfreeze.reissuePages.drainAgain; if f.vault.slot ≤ 1 then g.eraseSlot f.vault.slot else g).armEval))) ∧
    (d.vst = 7 → s.Does .retainToDark fun e => e.vst = 0 ∧ e.sup = 0 ∧ e.aon.holdEn = false ∧ e.aon.powered = false ∧ ∀ r < 16, (e.rail r).en = false) ∧
    (d.vst ≠ 7 → exec .retainToDark s = .next (s.leaves d)) ∧
    s.Does .supervisorRestartComplete (fun e => e.aon.wdRestart = false ∧ (d.vault.held = true → d.vst = 2 → e.vst = 3 ∧ e.vault.held = false)) ∧
    (d.aon.lshEn = true → d.aon.lshSyncDrive = false → (∀ p ∈ d.pack.nodes, (d.g oRoster).testBit p.1 = false ∨ p.2.flags.testBit 0 = false) →
      s.Does .lshSyncStuck fun e => e.Raised 30)

/-- In every state CEILING_COMPUTE takes the mean of VHOLD (0 when no input is assigned), computes the dirty ceiling from it by R75, with fixed_bytes
computed by R93 outside a vault sequence and kept within one, and arming is evaluated on the result (R77). That fixed_bytes is kept within a sequence
is the model's reading (DEDUCED, log entry 48). A CHARGER_POLL that is answered clears EnergyShortfall bit 2; the third in a row that is not raises
source 18 and sets it. (R65, R66, R75, R76, R77, R93, 03_energy_reserve.md) -/
def Obligations.CeilingAndCharger : Prop :=
  ∀ (s : State) (d : Dev), s.Powered → d = s.dev →
    (∀ mean < 65536, ∀ v, v = (if (d.sense 0).isSome then mean else 0) → d.energy.cap.predicted = false →
      ∃ (f g : Dev) (fx : Nat), f = (({ d with energy := { d.energy with vhold := v } }).s oBankVoltage v).overVoltage ∧
        fx = (if d.inVault then d.g oFixedBytes else f.fixedBytes) ∧ g.g oFixedBytes = fx ∧ g.g oCapUsed = min (2 ^ 32 - 1) f.capUsed ∧ g.g oEnergyAvailable = min (2 ^ 32 - 1) (f.eAvail v / 1000) ∧
        g.g oDirtyCeilingBlocks = min (2 ^ 32 - 1) ((f.s oFixedBytes fx).ceilingAt v) ∧ g.cache = f.cache ∧ g.energy = f.energy ∧
        exec (.ceilingCompute mean) s = .next (s.leaves g.armEvaluate)) ∧
    (d.g oChargerAddress ≠ 0 → d.mayCharge = true →
      s.Does (.chargerPoll true) (fun e => e.energy.missed = 0 ∧ (e.g oEnergyShortfall).testBit 2 = false) ∧
      (d.energy.missed = 2 → s.Does (.chargerPoll false) fun e => e.energy.missed = 3 ∧ (e.g oEnergyShortfall).testBit 2 = true ∧ e.Raised 18) ∧
      (d.energy.missed ≠ 2 → s.Does (.chargerPoll false) fun e => e.energy.missed = d.energy.missed + 1 ∧ e.g oEnergyShortfall = d.g oEnergyShortfall))

/-- A test that is due (by command, at its first chance, at its interval or at a retry) while the predicted ceiling still covers what is dirty and
reserved, the bank is charged and nothing else runs, pauses the charger; with the cover missing it is deferred, and with the bank not charged it is
abandoned, counted and recorded. The end of the pause enables BANK_LOAD_EN; the step sample is kept; a stop before 100 ms with a drop of 100 mV, or 1
s, is none; the stop releases BANK_LOAD_EN and either raises source 20 when the mean current was outside 1.8 A to 2.2 A or no current sense is
assigned, or stores the measured capacitance. When a test expires none is current. (R67, R68, R69, R71, 03_energy_reserve.md) -/
def Obligations.CapacitanceTestSteps : Prop :=
  ∀ (s : State) (d : Dev) (c : CapTest), s.Powered → d = s.dev → c = d.energy.cap →
    (∀ (pauses defers drops : Instr → Prop),
      (∀ i, pauses i ↔ s.Does i fun e => e.energy.cap.step = 2 ∧ e.energy.charging = false) →
      (∀ i, defers i ↔ s.Does i fun e => e.energy.cap.step = 1) →
      (∀ i, drops i ↔ s.Does i fun e => e.energy.cap.step = 0 ∧ e.aon.bankLoad = false ∧ e.Recorded 0x400) →
      (∀ i : Instr, (i = .capTestStart ∧ s.TakesWrites ∧ c.step < 2 ∧ d.seqBusy = false ∧ d.mayCharge = true) ∨
          (i = .capTestAutoStart ∧ c.auto = true ∧ c.step = 0 ∧ d.bankCharged = true ∧ d.mayCharge = true) ∨
          (i = .capTestIntervalExpire ∧ c.step = 0 ∧ d.mayCharge = true) →
        (d.capCovered = true → d.bankCharged = true → d.seqBusy = false → pauses i) ∧
        (d.capCovered = false → defers i) ∧
        (d.capCovered = true → (d.bankCharged = false ∨ d.seqBusy = true) → drops i))) ∧
    (c.step = 1 → d.capCovered = false → d.now < c.deferSince + 3600000000 → exec .capTestDeferRetry s = .next (s.leaves d)) ∧
    (c.step = 1 → d.mayCharge = true → d.capCovered = false → c.deferSince + 3600000000 ≤ d.now →
      exec .capTestDeferRetry s = .next (s.leaves (d.setCap { c with predicted := true }).recompute)) ∧
    (c.step = 2 → d.mayCharge = true → ∀ v0 < 65536, s.Does (.capTestPauseEnd v0) fun e => e.aon.bankLoad = true ∧ e.energy.cap.step = 3 ∧ e.energy.cap.v0 = v0) ∧
    (c.step = 3 → ∀ v1 < 65536, ∀ i1 < 65536, s.Does (.capTestStepSample v1 i1) fun e =>
      e.energy.cap.step = 4 ∧ e.energy.cap.v1 = v1 ∧ e.energy.cap.i1 = i1) ∧
    (c.step = 4 → ∀ v2 < 65536, ∀ q t : Nat, ¬ ((100000 ≤ t ∧ 100 ≤ c.v1 - v2) ∨ 1000000 ≤ t) → exec (.capTestDischargeStop v2 q t) s = .next (s.leaves d)) ∧
    (c.step = 4 → ∀ v2 < 65536, ∀ q t : Nat, (100000 ≤ t ∧ 100 ≤ c.v1 - v2) ∨ 1000000 ≤ t →
      ((d.sense 1).isNone = true ∨ q * 1000 < 1800 * t ∨ 2200 * t < q * 1000 →
        s.Does (.capTestDischargeStop v2 q t) fun e => e.aon.bankLoad = false ∧ e.energy.cap.step = 0 ∧ e.g oCapMeasured = d.g oCapMeasured ∧ e.Raised 20) ∧
      ((d.sense 1).isSome = true → 1800 * t ≤ q * 1000 → q * 1000 ≤ 2200 * t → ∃ f : Dev,
        exec (.capTestDischargeStop v2 q t) s = .next (s.leaves f.recompute) ∧ f.aon.bankLoad = false ∧ f.energy.cap.step = 0 ∧
        f.energy.cap.current = true ∧ f.g oCapMeasured = min (2 ^ 32 - 1) (q * 1000 / max (c.v1 - v2) 100) ∧
        (c.i1 ≠ 0 → f.g oEsrMeasured = min (2 ^ 32 - 1) ((c.v0 - c.v1) * 1000000 / c.i1)))) ∧
    (c.current = true → exec .capTestExpire s = .next (s.leaves (d.setCap { c with current := false }).armEvaluate)) ∧
    (c.current = false → exec .capTestExpire s = .next (s.leaves d))

/-- DRILL_START (answering SUCCESS) and the end of DrillInterval begin a drill when nothing else runs and a slot is usable: admission freezes and the
drill runs, or it waits while the scratch band is being erased; otherwise the command is refused with STATE_CONFLICT. DRILL_WRITE_END with the drill's
bytes written, or after 1,000,000 us, ends its VAULT step and keeps bytes, power and duration. DRILL_RESUME_COMPLETE ends the drill; its rate and
power are stored, valid, unless a fault was met, and the scratch band is to be erased. (R72, R73, R74, R128, 03_energy_reserve.md) -/
def Obligations.DrillSteps : Prop :=
  ∀ (s : State) (d : Dev) (x : Drill), s.Powered → d = s.dev → x = d.energy.drill →
    (d.drillMay = true →
      (d.kennel.scratchErase = true →
        (d.g oDrillInterval ≠ 0 → s.Does .drillIntervalExpire fun e => e.energy.drill.due = true ∧ e.cache.frozen = d.cache.frozen) ∧
        (s.TakesWrites → s.Does .drillStart fun e => e.energy.drill.due = true ∧ e.Answers 4 0 0xFFFF)) ∧
      (d.kennel.scratchErase = false →
        (d.g oDrillInterval ≠ 0 → s.Does .drillIntervalExpire fun e => e.energy.drill.step = 3) ∧
        (s.TakesWrites → s.Does .drillStart fun e => e.energy.drill.step = 3 ∧ e.Answers 4 0 0xFFFF))) ∧
    (d.drillMay = false →
      (s.TakesWrites → exec .drillStart s = .next (s.leaves (d.emit .response [0, 0, 4, 4, 0xFF, 0, 0] (leBytes 2 uChip)))) ∧
      exec .drillIntervalExpire s = .next (s.leaves d)) ∧
    (∀ bytes dur power : Nat, x.step = 3 → 0 < dur → (d.drillBytes ≤ bytes ∨ 1000000 ≤ dur) → s.Does (.drillWriteEnd bytes dur power) fun e =>
      e.energy.drill = { x with step := 4, bytes := min bytes d.drillBytes, power := power, dur := dur }) ∧
    (x.step = 4 → ∃ f g : Dev, f = ((d.setDrill {}).unshed x.shed).unfreeze ∧
      exec .drillResumeComplete s = .next (s.leaves g.recompute) ∧ g.kennel.scratchErase = true ∧ g.energy = f.energy ∧
      (x.faulted = false → g.g oDrillRate = min (2 ^ 32 - 1) (x.bytes / x.dur) ∧ g.g oDrillPower = min (2 ^ 32 - 1) x.power ∧ g.g oDrillValid = 1) ∧
      (x.faulted = true → g.dict = f.dict))

/-- On a LIVE I/O queue of a ready controller, a write of each kind to a namespace that is not attached completes with Invalid Namespace, one above 1 MiB
of data with Invalid Field, beyond the volume with LBA Out of Range, to a read-only namespace with Namespace is Write Protected, to a FAILED volume
with Write Fault. Any other write becomes a held write: while admission is frozen it waits; where it can never fit it takes the write-through route
and counts as ThroughWrites; with nothing waiting before it and room under the limits it is admitted. A Flush completes with success without waiting.
A read is checked the same way and then runs. An I/O opcode outside the subset completes with Invalid Command Opcode. A command on a queue that is not
served changes nothing. (R34, R43, R44, R45, R46, R49, R50, R51, R53, R59, R259, R260) -/
def Obligations.HostWritesReachTheGovernor : Prop :=
  ∀ (s : State) (d : Dev) (q cid nsid lba nlb : Nat), s.Powered → d = s.dev → q < 16384 → cid < 65536 → nlb < 65536 →
    (d.ioReady q = false → (∀ bs, exec (.nvmeWrite q cid nsid lba nlb bs) s = .next (s.leaves d)) ∧ exec (.nvmeFlush q cid nsid) s = .next (s.leaves d) ∧
      ∀ dst bad, exec (.nvmeRead q cid nsid lba nlb dst bad) s = .next (s.leaves d)) ∧
    (d.ioReady q = true →
      (∀ opc < 256, opc ∉ [0x00, 0x01, 0x02, 0x04, 0x08] → exec (.invalidCommandOpcode q cid opc) s = .next (s.leaves (d.nvmeDone q cid scOpcode 0))) ∧
      (nsid = 0xFFFFFFFF → exec (.nvmeFlush q cid nsid) s = .next (s.leaves (d.nvmeDone q cid scSuccess 0))) ∧
      (nsid ≠ 0xFFFFFFFF → d.nsFind (qInst (d.q q)) nsid = none → exec (.nvmeFlush q cid nsid) s = .next (s.leaves (d.nvmeDone q cid scNamespace 0))) ∧
      (d.nsFind (qInst (d.q q)) nsid = none → ∀ dst, exec (.nvmeRead q cid nsid lba nlb dst []) s = .next (s.leaves (d.nvmeDone q cid scNamespace 0))) ∧
      (∀ (c : Instr) (kind data : Nat),
        ((∃ bs, c = .nvmeWrite q cid nsid lba nlb bs ∧ kind = 0 ∧ data = leNat bs) ∨ (c = .writeZeroes q cid nsid lba nlb ∧ kind = 1 ∧ data = 0) ∨
          (c = .writeUncorrectable q cid nsid lba nlb ∧ kind = 2 ∧ data = 0)) →
        (d.nsFind (qInst (d.q q)) nsid = none → exec c s = .next (s.leaves (d.nvmeDone q cid scNamespace 0))) ∧
        (∀ (n : BitVec 128) (v start len : Nat) (w : HostWrite), d.nsFind (qInst (d.q q)) nsid = some n → v = nsVol n → start = lba * nsLba n →
          len = (nlb + 1) * nsLba n →
          w = { id := d.cache.wid, org := 0, ref := q, cid := cid, inst := qInst (d.q q), gen := d.instGen (qInst (d.q q)), dom := qDomain (d.q q), vol := v, start := start, len := len, data := data, kind := kind } →
          (kind = 0 → 2 ^ 20 < len → exec c s = .next (s.leaves (d.nvmeDone q cid scField 0))) ∧
          ((kind = 0 → len ≤ 2 ^ 20) → vCap (d.vol v) * 4096 < start + len → exec c s = .next (s.leaves (d.nvmeDone q cid scRange 0))) ∧
          ((kind = 0 → len ≤ 2 ^ 20) → start + len ≤ vCap (d.vol v) * 4096 →
            (nsReadOnly n = true → exec c s = .next (s.leaves (d.nvmeDone q cid scProtected 0))) ∧
            (nsReadOnly n = false → vState (d.vol v) = 3 → exec c s = .next (s.leaves (d.nvmeDone q cid scWriteFault 0))) ∧
            (nsReadOnly n = false → vState (d.vol v) ≠ 3 → (∀ x ∈ d.cache.writes, x.id < d.cache.wid) → d.restore.held = none →
              (d.cache.frozen = true → s.Does c fun e => e.cache.wid = d.cache.wid + 1 ∧ e.cache.writes = d.cache.writes ++ [{ w with waiting := true }]) ∧
              (d.cache.frozen = false → d.goesThrough w = true → ∃ f : Dev, exec c s = .next (s.leaves f.throughKick) ∧
                f.cache.writes = d.cache.writes ++ [{ w with stage := 1, thru := true }]) ∧
              (d.cache.frozen = false → d.goesThrough w = false → d.waiters = [] → d.fitsTotal w = true → d.fitsQuota w = true →
                ∃ f : Dev, exec c s = .next (s.leaves f.throughKick) ∧ f.cache.writes = d.cache.writes ++ [{ w with stage := 1 }]))) ∧
          (∀ dst, exec (.nvmeFlush q cid nsid) s = .next (s.leaves (d.nvmeDone q cid scSuccess 0)) ∧
            (2 ^ 20 < len → exec (.nvmeRead q cid nsid lba nlb dst []) s = .next (s.leaves (d.nvmeDone q cid scField 0))) ∧
            (len ≤ 2 ^ 20 → vCap (d.vol v) * 4096 < start + len →
              exec (.nvmeRead q cid nsid lba nlb dst []) s = .next (s.leaves (d.nvmeDone q cid scRange 0))) ∧
            (len ≤ 2 ^ 20 → start + len ≤ vCap (d.vol v) * 4096 → ∃ (f : Dev) (r : HostCmd),
              exec (.nvmeRead q cid nsid lba nlb dst []) s = .next (s.leaves (f.readRun r)) ∧ f.insts.cmds = d.insts.cmds ++ [r] ∧
              r.org = 0 ∧ r.ref = q ∧ r.cid = cid ∧ r.vol = v ∧ r.start = start ∧ r.len = len ∧ r.dst = dst)))))

/-- The governor admits the first waiting write when it fits under the total and its quotas, and nothing while the total has no room. A placed write
merges into the newest DIRTY version of the same instance and domain that holds the latest sequence number, or becomes a new DIRTY version with the
next one, in MIRROR with a COPY, and completes with success. A write-through completes with Write Fault when a drive write failed; else it drops the
CLEAN versions of its blocks and is acknowledged, but without FUA to a volatile write cache it first waits for its Flushes. Mirroring ends with mode 1
when every dirty version has a COPY. Destage issues the one eligible resident version, which then is DESTAGING; its writes and flushes are tracked; a
Flush goes out once per namespace. An adopting slice is done. A drive read that fails turns to other members, one that succeeds adds its data. (R42,
R44, R45, R48, R50, R51, R55, R56, R57, R60, R288, 02_write_cache.md) -/
def Obligations.CacheStepsFollowTheirRules : Prop :=
  ∀ (s : State) (d : Dev), s.Powered → d = s.dev →
    (d.restore.held = none → (∀ x ∈ d.cache.writes, x.r144 = false) → d.cache.frozen = false →
      ∀ w l, d.waiters = w :: l →
        (d.fitsTotal w = false → exec .governorAdmit s = .next (s.leaves d)) ∧
        (d.fitsTotal w = true → d.fitsQuota w = true → s.Does .governorAdmit fun e =>
          e.cache.writes = mapIf (·.id = w.id) (fun x => { x with stage := 1, waiting := false }) d.cache.writes)) ∧
    (∀ (id b : Nat) (w : HostWrite), d.writeAt id = some w → w.stage = 1 → w.thru = false → w.blocks = [b] → d.adopting w.vol b = false →
      vLayout (d.vol w.vol) ≠ 0 → (d.poolFor w.vol b).isSome = true → w.unflushed = [] →
      (∀ v, d.versOf w.vol b = [v] → d.verHere v = true → v.st = 2 → v.poison = false → v.inst = w.inst → v.dom = w.dom →
        v.seq + 1 = storeGet (fun _ => 0) d.cache.nextSeq (w.inst * 256 + w.dom) →
        exec (.placeComplete id []) s = .next (s.leaves (((d.modVer v.frame fun v => { v with data := mergeSec (w.part b).1 (w.part b).2.1 v.data, valid := v.valid ||| (w.part b).1, fence := v.fence || w.fence, unc := (v.unc &&& (0xFF - (w.part b).1)) ||| (w.part b).2.2 }).writeAck w scSuccess).modeUpdate))) ∧
      (d.versOf w.vol b = [] → d.instFrames w.inst < d.cacheQuota w.inst → (∀ n, (d.framesUsed n).length < 2 ^ 28) →
        (d.mirrorNew = true → ∀ n, d.poolFor w.vol b = some n → ∃ m ∈ d.chansIn, m / 2 ≠ n / 2 ∧ 0 < d.poolFree m) → ∃ (f : Dev) (v : Version),
        exec (.placeComplete id []) s = .next (s.leaves (f.writeAck w scSuccess).modeUpdate) ∧ v ∈ f.cache.versions ∧ v.vol = w.vol ∧ v.blk = b ∧ v.inst = w.inst ∧
        v.dom = w.dom ∧ v.st = 2 ∧ v.valid = (w.part b).1 ∧ v.data = mergeSec (w.part b).1 (w.part b).2.1 0 ∧
        (d.mirrorNew = true → v.copy.isSome = true) ∧
        v.seq = storeGet (fun _ => 0) d.cache.nextSeq (w.inst * 256 + w.dom) ∧ storeGet (fun _ => 0) f.cache.nextSeq (w.inst * 256 + w.dom) = v.seq + 1)) ∧
    (∀ id w, d.writeAt id = some w → w.stage = 3 → w.unflushed = [] → d.cache.fills = [] →
      exec (.throughWriteComplete id false) s = .next (s.leaves (d.writeAck w scWriteFault)) ∧
      (vState (d.vol w.vol) ≠ 3 → w.noFua = true → ∀ b ∈ w.blocks, ∀ i ∈ d.writeSet w.vol b, (d.port (xPort (d.vol w.vol) i)).vwc = true →
        s.Does (.throughWriteComplete id true) fun e => ∃ x ∈ e.cache.writes, x.id = id ∧ x.stage = 3 ∧ x.unflushed ≠ []) ∧
      (vState (d.vol w.vol) ≠ 3 → w.noFua = false → ∃ f : Dev, exec (.throughWriteComplete id true) s = .next (s.leaves (f.writeAck w scSuccess).throughKick) ∧
        ∀ v ∈ f.cache.versions, v.vol = w.vol → v.blk ∈ w.blocks → v.st ≠ 1)) ∧
    ((d.g oCacheModeActive ≠ 3 → exec .mirroringComplete s = .next (s.leaves d)) ∧
      (d.g oCacheModeActive = 3 → d.unmirrored = [] → d.g oWriteThroughCause = 0 → d.mirrorNew = true →
        ∃ f : Dev, exec .mirroringComplete s = .next (s.leaves f.rejudge) ∧ f.g oCacheModeActive = 1)) ∧
    ((d.destageOn = false → exec (.destageIssue []) s = .next (s.leaves d) ∧ exec (.destageIdleTimer []) s = .next (s.leaves d)) ∧
      (∀ v e, d.destageOn = true → d.cache.versions.filter d.eligible = [v] → d.verHere v = true → d.destageStart v = some e →
        (∀ x ∈ e.cache.versions, x.frame = v.frame → x.st = 3) ∧
        (d.g oDestageLowWater * d.deff < d.dirtyTotal * 100 → exec (.destageIssue []) s = .next (s.leaves e)) ∧
        ((∀ p ∈ d.ports.ports, p.2.cmds = []) → exec (.destageIdleTimer []) s = .next (s.leaves e)))) ∧
    (∀ x v cmd port ns i, d.cache.destages = [x] → x.wait = [(cmd, port, ns, i)] → d.verAt x.frame = some v → x.reading = false → x.unflushed = [] →
      (x.noFua = false ∨ (d.port port).vwc = false → vState (d.vol v.vol) ≠ 3 → ∃ g : Dev,
        exec (.destageWriteComplete cmd true) s = .next (s.leaves (g.durable x.frame).heldCheck)) ∧
      (x.noFua = true → (d.port port).vwc = true → d.restore.held = none → s.Does (.destageWriteComplete cmd true) fun e =>
        e.cache.destages = [{ x with wait := [], unflushed := [(port, ns, false)] }]) ∧
      exec (.destageWriteComplete cmd false) s = .next (s.leaves ((d.retireCmd cmd).destageFail x.frame i))) ∧
    (∀ x port nsid, port < 64 → d.cache.destages = [x] → x.unflushed = [(port, nsid, false)] → d.cache.flushes = [] → (d.driveNs port nsid).isSome = true →
      s.Does (.destageFlushIssue port nsid) fun e => (∃ c, e.cache.flushes = [{ port := port, nsid := nsid, cmd := c }]) ∧
        e.cache.destages = [{ x with unflushed := [(port, nsid, true)] }]) ∧
    (∀ x v f port nsid, port < 64 → d.cache.destages = [x] → d.verAt x.frame = some v → x.unflushed = [(port, nsid, true)] → x.reading = false → x.wait = [] →
      d.cache.flushes = [f] → f.port = port → f.nsid = nsid → vState (d.vol v.vol) ≠ 3 → ∃ g : Dev,
        exec (.destageFlushComplete port nsid true) s = .next (s.leaves ((g.durable x.frame).throughFlushed (· = (port, nsid, true))).heldCheck) ∧ g.cache.flushes = []) ∧
    (∀ w f port nsid, port < 64 → d.cache.destages = [] → d.cache.writes = [w] → w.stage = 3 → w.unflushed = [(port, nsid, true)] → d.cache.flushes = [f] → f.port = port → f.nsid = nsid →
      ∃ g : Dev, exec (.destageFlushComplete port nsid true) s = .next (s.leaves (g.throughEnd { w with unflushed := [] }).heldCheck) ∧ g.cache.flushes = []) ∧
    (∃ f : Dev, exec .bucketRebuildComplete s = .next (s.leaves f.throughKick.readKick) ∧ f.cache.adopting = []) ∧
    (∀ f cmd i data, d.cache.fills = [f] → f.want = [(cmd, i)] →
      exec (.driveReadComplete cmd false data) s = .next (s.leaves ((d.retireCmd cmd).fillFail f i)) ∧
      ∃ (g : Dev) (r : Fill), exec (.driveReadComplete cmd true data) s = .next (s.leaves (g.fillDone r)) ∧ r.want = [] ∧ r.got.length = f.got.length + 1)

/-- While the admin queue of an instance is served, each admin command completes there: creation and deletion of queues with Invalid Queue Identifier,
Invalid Queue Size, Invalid Field or Completion Queue Invalid where the operands ask it, else with the queue pair set up; Get Log Page with Invalid
Log Page or the page written to the host; Identify of the controller and of active namespaces with data written to the host; Abort of a queued read
with its completion, or of an absent command with result 1; Set and Get Features with the stored value; an Asynchronous Event Request is held or takes
a waiting event; Keep Alive restarts the timer. Where it is not served nothing changes; a command fetched before an outage is aborted for power loss
first. CC_EN_SET enables an ACTIVE instance and makes its admin queue LIVE; CC_EN_CLEAR resets the instance; a Keep Alive timeout sets CSTS.CFS.
(R140, R148, R149, R151, R260, R261, R262, 11_instances_and_queues.md) -/
def Obligations.AdminCommandsComplete : Prop :=
  ∀ (s : State) (d : Dev) (i cid : Nat), s.Powered → d = s.dev → i < 4096 → cid < 65536 →
    (∀ c : Instr, c = .keepAlive i cid ∨ c = .asynchronousEventRequest i cid ∨ (∃ f < 256, c = .getFeatures i cid f) →
      (d.adminUp i = none → exec c s = .next (s.leaves d)) ∧
      (∀ q, d.adminUp i = some q → (d.ctrl i).abortDue ≠ 0 →
        exec c s = .next (s.leaves ((d.setCtrl i { d.ctrl i with abortDue := (d.ctrl i).abortDue - 1 }).nvmeDone q cid scPowerLoss 0)))) ∧
    (∀ a, d.adminReady i = some a →
      (∀ qid size prp cqid : Nat, ∀ contig : Bool, ∀ vec : Option Nat, qid < 65536 → size < 65536 → cqid < 65536 →
        (qid = 0 ∨ 511 < qid → exec (.createIoSq i cid qid size prp contig cqid) s = .next (s.leaves (d.nvmeDone a cid scQueueId 0)) ∧
          exec (.createIoCq i cid qid size prp contig vec) s = .next (s.leaves (d.nvmeDone a cid scQueueId 0))) ∧
        (0 < qid → qid ≤ 511 → d.hostQ i qid = none →
          (size = 0 → exec (.createIoSq i cid qid size prp contig cqid) s = .next (s.leaves (d.nvmeDone a cid scQueueSize 0))) ∧
          (0 < size → contig = false → exec (.createIoSq i cid qid size prp contig cqid) s = .next (s.leaves (d.nvmeDone a cid scField 0))) ∧
          (0 < size → contig = true → d.cqExists i cqid = false →
            exec (.createIoSq i cid qid size prp contig cqid) s = .next (s.leaves (d.nvmeDone a cid scCqInvalid 0))) ∧
          (0 < size → contig = true → cqid ≠ 0 → d.cqExists i cqid = true → ∀ q e, d.takePair i qid = .ok (q, e) →
            ∃ f : Dev, exec (.createIoSq i cid qid size prp contig cqid) s = .next (s.leaves (f.nvmeDone a cid scSuccess 0)) ∧
              qSqEntries (f.q q) = size + 1 ∧ (f.qs q).cq = cqid ∧ (f.qs q).sqHead = 0 ∧ (f.qs q).sqTail = 0) ∧
          (∀ v, 0 < size → contig = true → vec = some v → ent (d.inst i) 0x1A 2 ≤ v →
            exec (.createIoCq i cid qid size prp contig vec) s = .next (s.leaves (d.nvmeDone a cid 0x108 0))) ∧
          (0 < size → contig = true → (∀ v, vec = some v → v < ent (d.inst i) 0x1A 2) → ∀ q e, d.takePair i qid = .ok (q, e) →
            ∃ f : Dev, exec (.createIoCq i cid qid size prp contig vec) s = .next (s.leaves (f.nvmeDone a cid scSuccess 0)) ∧
              qCqEntries (f.q q) = size + 1 ∧ (f.qs q).phase = true))) ∧
      (∀ qid < 65536, (qid = 0 ∨ d.hostQ i qid = none → exec (.deleteIoSq i cid qid) s = .next (s.leaves (d.nvmeDone a cid scQueueId 0)) ∧
          exec (.deleteIoCq i cid qid) s = .next (s.leaves (d.nvmeDone a cid scQueueId 0))) ∧
        (∀ q, qid ≠ 0 → d.hostQ i qid = some q → qSqEntries (d.q q) ≠ 0 → (∃ f : Dev, qSqEntries (f.q q) = 0 ∧
            exec (.deleteIoSq i cid qid) s = .next (s.leaves ((f.pairCheck i q).nvmeDone a cid scSuccess 0)))) ∧
        (∀ q, qid ≠ 0 → d.hostQ i qid = some q → qCqEntries (d.q q) ≠ 0 →
          (∀ p ∈ d.queuesOf i, qKind (d.q p) = 1 → qSlot (d.q p) ≠ 0 → qSqEntries (d.q p) ≠ 0 → (d.qs p).cq = qid →
            exec (.deleteIoCq i cid qid) s = .next (s.leaves (d.nvmeDone a cid scQueueDelete 0))) ∧
          ((∀ p ∈ d.queuesOf i, (d.qs p).cq ≠ qid) → (∃ f : Dev, qCqEntries (f.q q) = 0 ∧
            exec (.deleteIoCq i cid qid) s = .next (s.leaves ((f.pairCheck i q).nvmeDone a cid scSuccess 0)))))) ∧
      (∀ lid off len dst : Nat, lid < 256 →
        (lid ∉ [0x01, 0x02, 0x04, 0x05, 0xC0] → exec (.getLogPage i cid lid off len dst) s = .next (s.leaves ({ d with free := d.free + 1 }.nvmeDone a cid scLogPage 0))) ∧
        (∀ l e, d.logPage i lid d.free = some l → off ≤ l.length → e = { d with free := d.free + 1 }.hostData i dst ((l.drop off ++ List.replicate len 0).take len) →
          (lid ≠ 4 → exec (.getLogPage i cid lid off len dst) s = .next (s.leaves (e.nvmeDone a cid scSuccess 0))) ∧
          (lid = 4 → exec (.getLogPage i cid lid off len dst) s = .next (s.leaves ((e.setCtrl i { e.ctrl i with changedNs := [] }).nvmeDone a cid scSuccess 0))))) ∧
      (∀ nsid dst, exec (.identify i cid 1 nsid dst) s = .next (s.leaves (({ d with free := d.free + 1 }.hostData i dst (d.identCtrl d.free)).nvmeDone a cid scSuccess 0)) ∧
        (∀ n, d.nsFind i nsid = some n →
          exec (.identify i cid 0 nsid dst) s = .next (s.leaves (({ d with free := d.free + 1 }.hostData i dst (d.identNs n d.free)).nvmeDone a cid scSuccess 0))) ∧
        (nsid = 0 ∨ 1024 < nsid → d.nsFind i nsid = none →
          exec (.identify i cid 0 nsid dst) s = .next (s.leaves ({ d with free := d.free + 1 }.nvmeDone a cid scNamespace 0))) ∧
        exec (.identify i cid 2 nsid dst) s = .next (s.leaves (({ d with free := d.free + 1 }.hostData i dst (d.identList i nsid)).nvmeDone a cid scSuccess 0)) ∧
        exec (.identify i cid 3 nsid dst) s = .next (s.leaves ({ d with free := d.free + 1 }.nvmeDone a cid scField 0))) ∧
      (∀ sqid < 65536, ∀ tgt < 65536, (d.hostQ i sqid = none → exec (.abort i cid sqid tgt) s = .next (s.leaves (d.nvmeDone a cid scSuccess 1))) ∧
        ∀ q c, d.hostQ i sqid = some q → d.insts.cmds = [c] → c.org = 0 → c.ref = q → c.cid = tgt →
          exec (.abort i cid sqid tgt) s = .next (s.leaves ((d.readAck c 0x007 0).nvmeDone a cid scSuccess 0))) ∧
      (∀ f < 256, ∀ v < 2 ^ 32,
        (featureOk f = false → exec (.setFeatures i cid f v) s = .next (s.leaves (d.nvmeDone a cid scField 0)) ∧
          exec (.getFeatures i cid f) s = .next (s.leaves (d.nvmeDone a cid scField 0))) ∧
        (featureOk f = true → f ≠ 7 → (∃ e : Dev, exec (.setFeatures i cid f v) s = .next (s.leaves (e.nvmeDone a cid scSuccess 0)) ∧ e.feature i f = v) ∧
          exec (.getFeatures i cid f) s = .next (s.leaves (d.nvmeDone a cid scSuccess (d.feature i f)))) ∧
        (f = 7 → exec (.setFeatures i cid f v) s = .next (s.leaves (d.nvmeDone a cid scSuccess (d.numQueues i))))) ∧
      ((d.ctrl i).events = [] → s.Does (.asynchronousEventRequest i cid) fun e => (e.ctrl i).aers = (d.ctrl i).aers ++ [cid]) ∧
      (∀ t w r, (d.ctrl i).events = (t, w) :: r → ∃ e : Dev,
        exec (.asynchronousEventRequest i cid) s = .next (s.leaves (e.nvmeDone a cid scSuccess w)) ∧ (e.ctrl i).events = r) ∧
      (∃ e : Dev, exec (.keepAlive i cid) s = .next (s.leaves (e.nvmeDone a cid scSuccess 0)) ∧ (e.ctrl i).kaTick = d.now)) ∧
    (∀ cc aqa asq acq q, d.sup = 2 → d.instState i = 1 → (d.irun i).step = 0 → bit (d.ctrl i).cc 0 = false → bit cc 0 = true → d.adminQueue i = some q →
      ∃ f : Dev, exec (.ccEnSet i cc aqa asq acq) s = .next (s.leaves ((f.recount i).readyCtrl i |>.outageEvent i)) ∧ bit (f.ctrl i).cc 0 = true ∧
        (f.ctrl i).csts = 0 ∧ qState (f.q q) = 1 ∧ qSqEntries (f.q q) = aqa % 4096 + 1 ∧ qCqEntries (f.q q) = aqa / 65536 % 4096 + 1) ∧
    (d.instState i = 1 → d.inVault = false →
      (bit (d.ctrl i).cc 0 = true → exec (.ccEnClear i) s = .next (s.leaves (d.instReset i false))) ∧
      (bit (d.ctrl i).cc 0 = false → exec (.ccEnClear i) s = .next (s.leaves d))) ∧
    (bit (d.ctrl i).csts 0 = true → bit (d.ctrl i).csts 1 = false → d.feature i 0x0F ≠ 0 → (d.ctrl i).kaTick + d.feature i 0x0F * 1000 ≤ d.now →
      s.Does (.keepAliveTimeout i) fun e => bit (e.ctrl i).csts 1 = true)

/-- While the device takes writes, INSTANCE_CREATE makes a FREE instance without dirty versions ACTIVE and answers SUCCESS; of another it is refused for
its state, and an instance number above 4,095 is refused as out of range, as in a reset or removal. INSTANCE_RESET and INSTANCE_REMOVE, refused of a
FREE instance (and the removal of instance 0), advance the generation, show RESETTING or REMOVING and begin the fenced timeline; one already under way
is joined, or turned into a removal; the fence waits while a request of the next generation's earlier use might still complete. HALT holds the count
of outstanding requests; DRAIN counts them down, and at none, or 10 ms after the start, the instance is ACTIVE again or FREE and the reset is
recorded; a completion timeout counts one down. An FLR clears MSI-X and Bus Master Enable and resets every ACTIVE instance. The link, out of reset,
trains to full or degraded width, or is held in Detect with source 13; PERST_N_RELEASE starts the link again, and Bus Master Enable, but for a
configuration request answered RRS, releases what was held. (R140, R149, R253, R254, R258, R272, R274, R415, 11_instances_and_queues.md) -/
def Obligations.InstanceResetsAndHostLink : Prop :=
  ∀ (s : State) (d : Dev), s.Powered → d = s.dev →
    (s.TakesWrites →
      (∀ i, 4095 < i → i < 65536 → ∀ c ∈ ([.instanceCreate i, .instanceReset i, .instanceRemove i] : List Instr), exec c s = .next (s.leaves (d.refuses 3 uChip))) ∧
      exec (.instanceRemove 0) s = .next (s.leaves (d.refuses 4 uChip)) ∧
      (∀ i ≤ 4095, (d.instState i ≠ 0 ∨ d.hasDirty i = true → exec (.instanceCreate i) s = .next (s.leaves (d.refuses 4 uChip))) ∧
        (d.instState i = 0 → d.hasDirty i = false → s.Does (.instanceCreate i) fun e => e.instState i = 1 ∧ e.Answers 4 0 0xFFFF) ∧
        (d.instState i = 0 → exec (.instanceReset i) s = .next (s.leaves (d.refuses 4 uChip)) ∧
          exec (.instanceRemove i) s = .next (s.leaves (d.refuses 4 uChip))) ∧
        (d.instState i ≠ 0 → (d.irun i).step ≠ 0 → exec (.instanceReset i) s = .next (s.leaves (d.accepts oInstanceCommand)) ∧
          (i ≠ 0 → s.Does (.instanceRemove i) fun e => (e.irun i).step = (d.irun i).step ∧ (e.irun i).remove = true ∧ e.instGen i = d.instGen i ∧
            e.instState i = (if (d.irun i).step = 1 then d.instState i else 3) ∧ e.Answers 4 0 0xFFFF)) ∧
        (d.instState i ≠ 0 → (d.irun i).step = 0 →
          (d.fenceWaits i = false →
            (s.Does (.instanceReset i) fun e => e.instState i = 2 ∧ e.instGen i = (d.instGen i + 1) % 256 ∧ (e.irun i).step = 2 ∧ (e.irun i).remove = false ∧
              e.ctrl i = {} ∧ e.g oLastResetKind = 4 ∧ e.Answers 4 0 0xFFFF) ∧
            (i ≠ 0 → s.Does (.instanceRemove i) fun e => e.instState i = 3 ∧ e.instGen i = (d.instGen i + 1) % 256 ∧ (e.irun i).step = 2 ∧
              (e.irun i).remove = true ∧ e.Answers 4 0 0xFFFF)) ∧
          (d.fenceWaits i = true → ∀ c b, (c = .instanceReset i ∧ b = false) ∨ (i ≠ 0 ∧ c = .instanceRemove i ∧ b = true) → s.Does c fun e => (e.irun i).step = 1 ∧
            (e.irun i).remove = b ∧ e.instState i = d.instState i ∧ e.instGen i = d.instGen i ∧ e.Answers 4 0 0xFFFF)))) ∧
    (∀ i < 4096,
      ((d.irun i).step = 1 → (d.fenceWaits i = true → exec (.fenceWaitEnd i) s = .next (s.leaves d)) ∧
        (d.fenceWaits i = false → s.Does (.fenceWaitEnd i) fun e => (e.irun i).step = 2 ∧ e.instGen i = (d.instGen i + 1) % 256 ∧
          e.instState i = if (d.irun i).remove then 3 else 2)) ∧
      (∀ n < 2 ^ 32, (d.irun i).step = 2 → ∃ f : Dev, exec (.instanceHaltComplete i n) s = .next (s.leaves f.rejudge.throughKick) ∧
        (f.irun i).step = 3 ∧ ent (f.inst i) 0x20 4 = n) ∧
      (∀ n k : Nat, (d.irun i).step = 3 → n = ent (d.inst i) 0x20 4 →
        (k < n → d.now < (d.irun i).start + 10000 → s.Does (.instanceDrainEnd i k) fun e => (e.irun i).step = 3 ∧ ent (e.inst i) 0x20 4 = n - k) ∧
        (n ≤ k ∨ (d.irun i).start + 10000 ≤ d.now → s.Does (.instanceDrainEnd i k) fun e => (e.irun i).step = 0 ∧ e.Recorded 0x600 ∧
          e.instState i = if (d.irun i).remove then 0 else 1) ∧
        (0 < n → s.Does (.hostCompletionTimeout i) fun e => ent (e.inst i) 0x20 4 = n - 1))) ∧
    ((∀ i < 4096, d.instState i = 1 → (d.irun i).step = 0 → d.fenceWaits i = false → s.Does .flr fun e => e.instState i = 2 ∧
        e.instGen i = (d.instGen i + 1) % 256 ∧ (e.irun i).step = 2 ∧ (e.irun i).remove = false ∧ e.insts.msix = false ∧ e.insts.busMaster = false) ∧
      exec .flr s = .next (s.leaves d.functionReset.resetInsts) ∧
      (d.liveInsts.filter (fun i => d.instState i = 1) = [] → exec .flr s = .next (s.leaves d.functionReset))) ∧
    ((d.rrs = true → exec .busMasterEnableSet s = .next (s.leaves d)) ∧
      (d.rrs = false → ∃ f : Dev, exec .busMasterEnableSet s = .next (s.leaves f.releaseHost.redoKick.readKick) ∧ f.insts.msix = true ∧ f.insts.busMaster = true ∧
        f.restore.hold = false ∧ f.insts.withheld = d.insts.withheld ∧ f.restore.redo = d.restore.redo)) ∧
    (∀ gen < 256, ∀ width < 256,
      (d.aon.perstN = false → exec (.hostLinkTrained gen width) s = .next (s.leaves d)) ∧
      (d.aon.perstN = true → d.sup = 2 → d.pathOn uHost = true → d.insts.detectHeld = false → d.isolated uHost = false → d.halted = false →
        (gen < 3 ∨ width < 4 → s.Does (.hostLinkTrained gen width) fun e => e.insts.link = 0 ∧ e.insts.detectHeld = true ∧ e.Raised 13) ∧
        (3 ≤ gen → 4 ≤ width → s.Does (.hostLinkTrained gen width) fun e => e.insts.link = 1 ∧ e.insts.linkGen = gen ∧ e.insts.linkWidth = width ∧
          (gen < 6 ∨ width < 16 → e.Raised 14) ∧ (6 ≤ gen → 16 ≤ width → e.faultQ = d.faultQ ∧ e.faults.live.testBit 14 = false)))) ∧
    ((d.aon.perstN = true → exec .perstNRelease s = .next (s.leaves d)) ∧
      (d.aon.perstN = false → ∃ f : Dev, exec .perstNRelease s = .next (s.leaves f.hostReady) ∧ f.aon.perstN = true ∧ f.insts.detectHeld = false ∧
        f.restore.configRetryOver = false))

/-- A doorbell on a LIVE or IDLE queue moves its SQ tail or CQ head, an invalid one is an error, one for no queue is counted as ignored. A context queue's
watch reads its tail and head. At a tick that is a multiple of 10 the arbitration epoch counts and refreshes credits. A fetch moves the SQ head by
one, takes a credit of a host queue, and reads an engine's entry from a context's ring; firmware's reads of a context's ring wait for what is not
resident. Unmasking a vector stores its message and delivers a pending one. Table writes are refused in a vault sequence or with a length that is no
whole number of entries, and else hold what was written. A program queue answers LOAD_REFUSED to an image that breaks a check or where no context is
allowed, copies a message into the inbox while more than one entry is free, and ends its context on a kill. (R36, R256, R259, R263, R264, R265, R266,
R268, R269, R270, R271, R197) -/
def Obligations.QueuesTablesAndPrograms : Prop :=
  ∀ (s : State) (d : Dev), s.Powered → d = s.dev →
    (∀ i q slot v : Nat, i < 4096 → 0 < slot → slot < 512 → v < 2 ^ 32 → d.sup = 2 → d.halted = false → d.vst < 5 → d.isolated uHost = false → d.instState i = 1 →
      (d.irun i).step = 0 → (d.queueAt i slot 0 = none → exec (.doorbellWrite i false (8 * slot) 4 v) s = .next (s.leaves (d.inc oDoorbellErrors))) ∧
      (d.queueAt i slot 0 = some q → qState (d.q q) < 2 →
        (v < qSqEntries (d.q q) → s.Does (.doorbellWrite i false (8 * slot) 4 v) fun e => (e.qs q).sqTail = v ∧ qState (e.q q) = 1) ∧
        (qSqEntries (d.q q) ≤ v → exec (.doorbellWrite i false (8 * slot) 4 v) s = .next (s.leaves (d.badDoorbell q))) ∧
        (v < qCqEntries (d.q q) → headOk (qCqEntries (d.q q)) (d.qs q).cqHead (d.qs q).cqTail v = true →
          s.Does (.doorbellWrite i false (8 * slot + 4) 4 v) fun e => (e.qs q).cqHead = v))) ∧
    (∀ q t h : Nat, q < 16384 → 2 ≤ qKind (d.q q) → qLoc (d.q q) = 1 → qState (d.q q) < 2 → d.instState (qInst (d.q q)) = 1 → (d.irun (qInst (d.q q))).step = 0 →
      (∀ f, d.fwMissing (qOwner (d.q q)) (qSqBase (d.q q) - 64) = some f → exec (.contextQueueWatch q) s = .next (s.leaves f)) ∧ (d.fwMissing (qOwner (d.q q)) (qSqBase (d.q q) - 64) = none →
      t = leNat (d.fwLoad (qOwner (d.q q)) (qSqBase (d.q q) - 64) 4) → h = leNat (d.fwLoad (qOwner (d.q q)) (qSqBase (d.q q) - 60) 4) →
      (t < qSqEntries (d.q q) → h < qCqEntries (d.q q) → headOk (qCqEntries (d.q q)) (d.qs q).cqHead (d.qs q).cqTail h = true →
        s.Does (.contextQueueWatch q) fun e => (e.qs q).sqTail = t ∧ (e.qs q).cqHead = h ∧ qState (e.q q) = 1) ∧
      (qSqEntries (d.q q) ≤ t → exec (.contextQueueWatch q) s = .next (s.leaves (d.queueError q))))) ∧
    ((d.now % 10 ≠ 0 → exec .arbitrationEpoch s = .next (s.leaves d)) ∧
      (d.now % 10 = 0 → d.liveInsts = [0] → (d.irun 0).pendingShare = none → ∃ f : Dev, exec .arbitrationEpoch s = .next (s.leaves f.rejudge.throughKick) ∧
        (f.irun 0).credits = ent (d.inst 0) 8 2 ∧ f.g oEpochCount = min (2 ^ 64 - 1) (d.g oEpochCount + 1))) ∧
    (∀ q i : Nat, q < 16384 → i = qInst (d.q q) → d.sup = 2 → d.quiet = false → d.halted = false →
      (d.sqPending q = false → exec (.sqEntryFetch q) s = .next (s.leaves d)) ∧
      (d.sqPending q = true → qKind (d.q q) = 1 → qLoc (d.q q) = 0 → d.restore.hold = false → 0 < (d.irun i).credits → d.classTurn i = true → d.queueTurn i q = true → d.isolated uHost = false →
        s.Does (.sqEntryFetch q) fun e => (e.qs q).sqHead = (if (d.qs q).sqHead + 1 = qSqEntries (d.q q) then 0 else (d.qs q).sqHead + 1) ∧
          (e.qs q).outstanding = (d.qs q).outstanding + 1 ∧ (e.irun i).credits = (d.irun i).credits - 1 ∧ (e.irun i).lastQ = q) ∧
      (d.sqPending q = true → qKind (d.q q) ≠ 1 → (qLoc (d.q q) = 0 → d.restore.hold = false) →
        (∀ at_ size, size = (if qKind (d.q q) = 2 ∧ kindOf (qBinding (d.q q)) ≠ 0x09 then 128 else 64) → at_ = qSqBase (d.q q) + size * (d.qs q).sqHead →
          (qLoc (d.q q) ≠ 0 → d.fwMissing (qOwner (d.q q)) at_ = none) → s.Does (.sqEntryFetch q) fun e =>
            (e.qs q).sqHead = (if (d.qs q).sqHead + 1 = qSqEntries (d.q q) then 0 else (d.qs q).sqHead + 1) ∧
            (e.qs q).outstanding = (d.qs q).outstanding + 1 ∧ (e.irun i).credits = (d.irun i).credits ∧
            (qLoc (d.q q) = 1 → qKind (d.q q) = 2 → (e.qs q).got = (d.qs q).got ++ [leNat (d.fwLoad (qOwner (d.q q)) at_ size)])))) ∧
    (∀ n addr data : Nat, ∀ pasid : Bool, addr < 2 ^ 64 → data < 2 ^ 32 → (8192 ≤ n → exec (.vectorUnmask n addr data pasid) s = .next (s.leaves d)) ∧
      (n < 8192 → d.hostHeld = false → (2048 ≤ n ∨ d.insts.msix = true) → s.Does (.vectorUnmask n addr data pasid) fun e => (e.vec n).addr = addr ∧
        (e.vec n).data = data ∧ (e.vec n).mask = false ∧ (e.vec n).pending = false)) ∧
    (d.supAway = false → ∀ off data, (∀ c ∈ ([.volumeTableWrite off data, .instanceTableWrite off data, .namespaceTableWrite off data,
        .queueTableWrite off data] : List Instr), (d.writesClosed = true → exec c s = .next (s.leaves (d.tableReply 4 uChip))) ∧
        (d.writesClosed = false → data.length % 16 ≠ 0 → exec c s = .next (s.leaves (d.tableReply 3 uChip)))) ∧
      (d.writesClosed = false → ∀ k : Nat,
        (∀ e : BitVec 16384, k < 4096 → off = 2048 * k → data = leBytes 2048 e.toNat → vLayout (d.vol k) = 0 → vLayout e ≠ 0 → d.volOk (volBare (volMerge (d.vol k) e)) = true →
          ∃ f : Dev, exec (.volumeTableWrite off data) s = .next (s.leaves (((f.rejudge.throughKick.readKick).noteChange oVolumeTable).tableReply 0 0xFFFF)) ∧
            vLayout (f.vol k) = vLayout e ∧ vCap (f.vol k) = vCap e) ∧
        (∀ e : BitVec 512, k < 4096 → off = 64 * k → data = leBytes 64 e.toNat → d.instEntryOk k e = true → ent (d.inst k) 2 1 = 0 →
          ∃ f : Dev, exec (.instanceTableWrite off data) s = .next (s.leaves (((f.rejudge.throughKick).noteChange oInstanceTable).tableReply 0 0xFFFF)) ∧
            ent (f.inst k) 8 2 = ent e 8 2 ∧ ent (f.inst k) 0x0C 4 = ent e 0x0C 4 ∧ ent (f.inst k) 0x10 4 = ent e 0x10 4 ∧ ent (f.inst k) 0x14 2 = ent e 0x14 2) ∧
        (∀ e : BitVec 128, k < 16384 → off = 16 * k → data = leBytes 16 e.toNat → d.nsEntryOk k e = true → nsId e ≠ 0 →
          s.Does (.namespaceTableWrite off data) fun f => f.nsEntry k = e ∧ f.Answers 6 0 0xFFFF) ∧
        (∀ e : BitVec 512, k < 16384 → off = 64 * k → data = leBytes 64 e.toNat → d.queueEntryOk k e = true → qKind e ≠ 0 →
          s.Does (.queueTableWrite off data) fun f => f.q k = setEnt e 3 1 1 ∧ f.qs k = {} ∧ f.Answers 6 0 0xFFFF))) ∧
    (∀ q c : Nat, q < 16384 → c = qBinding (d.q q) →
      (d.fwServes q = false → (∀ core im arg, exec (.programLoad q core im arg) s = .next (s.leaves d)) ∧ exec (.programKill q) s = .next (s.leaves d) ∧
        ∀ p, exec (.programMessage q p) s = .next (s.leaves d)) ∧
      (d.fwServes q = true →
        (∀ core im arg, (c ≠ 0xFFFF ∨ bit (ent (d.inst (qInst (d.q q))) 0x0B 1) 1 = false → exec (.programLoad q core im arg) s = .next (s.leaves (d.loadRefused q 2))) ∧
          (c = 0xFFFF → bit (ent (d.inst (qInst (d.q q))) 0x0B 1) 1 = true → ent (d.inst (qInst (d.q q))) 0x1E 2 < ent (d.inst (qInst (d.q q))) 0x1C 2 →
            d.freeContexts ≠ [] → (parseElf im = none → exec (.programLoad q core im arg) s = .next (s.leaves (d.loadRefused q 1))) ∧
            (∀ el f, parseElf im = some el → arg.length ≤ 65536 → el.scratch = 0 →
              ({ d with free := d.free + 1 }).loadImage (listGet 0 d.freeContexts (Config.contextNo d.free % d.freeContexts.length)) q core.toNat el im arg = some f →
              f.pageList.length ≤ pageListMax → exec (.programLoad q core im arg) s = .next (s.leaves
                ((f.setQf q 0x20 2 (listGet 0 d.freeContexts (Config.contextNo d.free % d.freeContexts.length))).postProg q 4 0
                  (listGet 0 d.freeContexts (Config.contextNo d.free % d.freeContexts.length)) 0 0 0 0)))) ) ∧
        (c < 1024 → exec (.programKill q) s = .next (s.leaves (d.endCtx c 0x03 0 0 0)) ∧
          ∀ p, (∀ f, d.inboxMissing q = some f → exec (.programMessage q p) s = .next (s.leaves f)) ∧ (d.inboxMissing q = none →
            (d.inboxFree q ≤ 1 → exec (.programMessage q p) s = .next (s.leaves d)) ∧
            (1 < d.inboxFree q → exec (.programMessage q p) s = .next (s.leaves
              (d.inboxPut q (leBytes 1 1 ++ List.replicate 7 0 ++ (p ++ List.replicate 56 0).take 56))))))))

/-- FAULT_OCCURRENCE puts an occurrence of the source before the collector with what the unit captured, but none whose initiator is an absent unit; the
collector latches a free capture with it. FAULT_PIN_SAMPLE stores the levels read back, and the third disagreement in a row raises source 5. FAULT_ACK
of a latched source that is not live clears the capture, records FAULT_ACKNOWLEDGED and answers SUCCESS; a number of no source is refused.
FORCE_EXIT_CHECK with no reaction in force changes nothing, an S3 stays in force, and an S1 whose quiet period has passed with nothing live leaves
force. UNIT_QUARANTINE is refused at units that have no quarantine and sets the object at the others. INJECT_FAULT is refused outside test mode, and
else arms or raises an injected occurrence. (R390, R395, R396, R397, R398, R399, R400, R401, 18_faults_and_events.md) -/
def Obligations.FaultCommandsFollowTheirRules : Prop :=
  ∀ (s : State) (d : Dev), s.Powered → d = s.dev →
    (∀ src acc iu ii addr tag : Nat, acc ≤ 6 → iu < 65536 → ii < 65536 → addr < 2 ^ 64 → tag < 2 ^ 64 →
      (d.unitGone iu = true → exec (.faultOccurrence src acc iu ii addr tag) s = .next (s.leaves d)) ∧
      (d.unitGone iu = false → exec (.faultOccurrence src acc iu ii addr tag) s =
        .next (s.leaves (d.raise { src := src, acc := acc, iUnit := iu, iInst := ii, addr := addr, tag := tag }))) ∧
      (src < 670 → d.present (homeUnit src) = true → (d.capture src).latched = false → d.classOf src = 0 → d.faults.caps = [] → d.energy.drill.step = 0 →
        ∃ k : Capture, ((d.occur { src := src, acc := acc, iUnit := iu, iInst := ii, addr := addr, tag := tag }).capture src) = k ∧
          k.latched = true ∧ k.cls = 0 ∧ k.eff = 0 ∧ k.count = 1 ∧ k.acc = acc ∧ k.iUnit = iu ∧ k.iInst = ii ∧ k.addr = addr ∧ k.tag = tag ∧ k.tick = d.now)) ∧
    (∀ t c : Bool, ((t, c) = d.pinsDriven → s.Does (.faultPinSample t c) fun e => e.g oFaultPinState = (if t then 1 else 0) + (if c then 2 else 0) ∧
        e.faults.pinBad = 0 ∧ e.faults.live.testBit 5 = false) ∧
      ((t, c) ≠ d.pinsDriven → (d.faults.pinBad < 2 → s.Does (.faultPinSample t c) fun e => e.faults.pinBad = d.faults.pinBad + 1 ∧ e.faultQ = d.faultQ) ∧
        (d.faults.pinBad = 2 → s.Does (.faultPinSample t c) fun e => e.faults.pinBad = 3 ∧ e.Raised 5))) ∧
    (s.TakesWrites →
      (∀ sid < 256, ∀ v < 65536,
        (1024 ≤ v → v ≠ 0xFFFF → exec (.faultAck sid v) s = .next (s.leaves (d.refuses 3 uChip))) ∧
        (v < 1024 → (d.capture v).latched = false → exec (.faultAck sid v) s = .next (s.leaves (d.accepts oFaultAck))) ∧
        (v < 1024 → (d.capture v).latched = true → d.faults.live.testBit v = false → s.Does (.faultAck sid v) fun e => (e.capture v).latched = false ∧
          e.Recorded 0x010 ∧ e.Answers 4 0 0xFFFF) ∧
        (v < 1024 → (d.capture v).latched = true → d.faults.live.testBit v = true → s.Does (.faultAck sid v) fun e => (e.capture v).latched = true ∧
          (e.capture v).count = 1 ∧ (e.capture v).addr = (d.capture v).laddr ∧ e.Recorded 0x010 ∧ e.Answers 4 0 0xFFFF)) ∧
      ((∀ u ∈ [uChip, uMem, uSup], ∀ v : Bool, exec (.unitQuarantine u v) s = .next (s.leaves (d.refuses 4 u))) ∧
        (∀ n < 4, d.gu (uSlice n) oUnitQuarantine = 1 → exec (.unitQuarantine (uSlice n) true) s = .next (s.leaves (d.accepts oUnitQuarantine))) ∧
        (∀ n < 4, d.gu (uSlice n) oUnitQuarantine = 0 → ∃ f : Dev, f.gu (uSlice n) oUnitQuarantine = 1 ∧
          exec (.unitQuarantine (uSlice n) true) s = .next (s.leaves ((f.safeState (uSlice n)).accepts oUnitQuarantine))) ∧
        (∀ n < 4, d.gu (uSlice n) oUnitQuarantine = 1 → ∃ f : Dev, f.gu (uSlice n) oUnitQuarantine = 0 ∧
          exec (.unitQuarantine (uSlice n) false) s = .next (s.leaves ((f.unitReset (uSlice n)).accepts oUnitQuarantine)))) ∧
      (∀ v : BitVec 96, (d.aon.testMode = false → exec (.injectFault v) s = .next (s.leaves (d.refuses 4 uChip))) ∧
        (d.aon.testMode = true →
          (670 ≤ fieldOf v.toNat 0 2 ∨ 6 < byteOf v.toNat 2 ∨ 1 < byteOf v.toNat 3 → exec (.injectFault v) s = .next (s.leaves (d.refuses 3 uChip))) ∧
          (fieldOf v.toNat 0 2 < 670 → byteOf v.toNat 2 ≤ 6 → d.present (homeUnit (fieldOf v.toNat 0 2)) = true →
            (byteOf v.toNat 3 = 0 → s.Does (.injectFault v) fun e => e.Raised (fieldOf v.toNat 0 2) ∧ e.Answers 4 0 0xFFFF) ∧
            (byteOf v.toNat 3 = 1 → s.Does (.injectFault v) fun e => e.faultQ = d.faultQ ∧ e.faults.armed.length = d.faults.armed.length + 1 ∧
              e.Answers 4 0 0xFFFF))))) ∧
    ((d.faults.inforce = [] → exec .forceExitCheck s = .next (s.leaves d)) ∧
      (∀ x, d.faults.inforce = [x] →
        (x.cls = 3 → exec .forceExitCheck s = .next (s.leaves d)) ∧
        (d.now < x.last + d.g oQuietPeriod * 1000 → exec .forceExitCheck s = .next (s.leaves d)) ∧
        (x.last + d.g oQuietPeriod * 1000 ≤ d.now → x.cls = 1 → x.contains = [] → (∀ p ∈ d.faults.caps, d.faults.live.testBit p.1 = false) →
          s.Does .forceExitCheck fun e => e.faults.inforce = [] ∧ e.Recorded 0x011)))

/-- EVENT_RECORD_WRITE takes the oldest record of the intake, and, when the code has a token, writes it in the ring with the next sequence; without a
record nothing changes. TIME_ANCHOR records the anchor with the tick. LOG_FLUSH without a formatted Kennel is refused; LOG_FLUSH_COMPLETE without a
flush, or while an erase is waited for, changes nothing, with neither copy usable it raises source 7, and else the flush ends and is counted. An erase
completes. A READ of EventRecords by a requester of its own gives the window at its cursor and moves the cursor past it; a write of EventCursor sets
it. (R402, R403, R404, R405, R406, R407, R408, R409, R410, R411, 18_faults_and_events.md) -/
def Obligations.RecorderCommandsFollowTheirRules : Prop :=
  ∀ (s : State) (d : Dev), s.Powered → d = s.dev →
    ((d.faults.intake = [] → exec .eventRecordWrite s = .next (s.leaves d)) ∧
      (∀ r l t, d.faults.intake = r :: l → d.faults.seqRestart = false → d.faults.tickRec = some t → d.now < t + 1000000 → d.faults.ring.length < 3000 →
        d.faults.flushDue = false → r.cap = none →
        1000000 ≤ d.tokens (storeGet noLimit d.faults.limits r.code) → s.Does .eventRecordWrite fun e => e.faults.intake = l ∧ e.faults.nextSeq = d.faults.nextSeq + 1 ∧
          ∃ x ∈ e.faults.ring, x.ev.seq = d.faults.nextSeq ∧ x.ev.code = r.code ∧ x.ev.p0 = r.p0 ∧ x.ev.p1 = r.p1 ∧ x.ev.p2 = r.p2 ∧ x.ev.p3 = r.p3)) ∧
    (s.TakesWrites →
      (∀ v : BitVec 64, d.faults.intake.length < 64 → s.Does (.timeAnchor v) fun e => e.Answers 4 0 0xFFFF ∧ ∃ r ∈ e.faults.intake, r.code = 0x001 ∧
        r.p0 = v.toNat % 2 ^ 32 ∧ r.p1 = v.toNat / 2 ^ 32 ∧ r.p2 = d.now % 2 ^ 32) ∧
      (d.kennelState < 2 → exec .logFlush s = .next (s.leaves (d.refuses 4 uChip))) ∧
      (2 ≤ d.kennelState → ∃ f : Dev, f.faults.flushDue = true ∧ exec .logFlush s = .next (s.leaves (f.flushStart.accepts oLogFlush)))) ∧
    (∀ a b : Bool, (d.faults.flushing = [] → exec (.logFlushComplete a b) s = .next (s.leaves d)) ∧
      (d.faults.flushing ≠ [] → d.logWaits 0 = false → d.logWaits 1 = false → d.faults.step5Pages = false →
        (a = false → b = false → s.Does (.logFlushComplete a b) fun e => e.faults.flushing = [] ∧ e.Raised 7 ∧ e.faults.ring = d.faults.ring) ∧
        (a = true → (∀ n ≤ 4, (d.logTake 0 n d.faults.wpA).isSome = true) → ∃ f : Dev,
          exec (.logFlushComplete a b) s = .next (s.leaves f.flushStart) ∧ f.faults.flushing = [] ∧ f.g oLogFlushes = min (2 ^ 32 - 1) (d.g oLogFlushes + 1)))) ∧
    (s.Does (.logEraseComplete 0) (fun e => e.faults.eraseA = false) ∧ s.Does (.logEraseComplete 1) fun e => e.faults.eraseB = false) ∧
    (∀ r : Req, s.Asks r →
      (s.Does (.eventRecordsRead r) fun e => e.Responds d r 3 0 0xFF ∧ ∀ x, (d.eventsFrom (d.cursor 0xFF)).getLast? = some x → e.cursor 0xFF = x.seq + 1) ∧
      (d.writesClosed = false → ∀ v : BitVec 48, s.Does (.eventCursor r v) fun e => e.Responds d r 4 0 0xFF ∧ e.cursor 0xFF = v.toNat) ∧
      (d.writesClosed = true → ∀ v : BitVec 48, s.Does (.eventCursor r v) fun e => e.Responds d r 4 4 0xFF ∧ e.cursor 0xFF = d.cursor 0xFF))

/-- OPEN without a session takes the first free slot: an Observer's session is open at once, a Manager's over the management port awaits its proof; with
no slot free it answers BUSY. PROVE with the right proof opens the session. READ and READ_BLOCK of an object answer with success; a WRITE without a
session is refused. In a proved session WRITE stages a staged object, WRITE_BLOCK stores its bytes, COMMIT of an empty set succeeds and is refused in
a vault sequence, DISCARD empties the staged set, HEEL counts, and CLOSE of its own session frees it. Without a session WRITE_BLOCK, COMMIT, DISCARD,
PROVE and CLOSE are refused with ACCESS_DENIED. Each request has exactly one response. (R361, R362, R366, R368, R371, R372, R373, R374, R376, R377,
R378, 16_dictionary_protocol.md) -/
def Obligations.DictionaryRequestsFollowTheirRules : Prop :=
  ∀ (s : State) (d : Dev) (r : Req), d = s.dev →
    (s.Asks r → d.halted = false →
      (∀ body k i : Nat, ∀ b : List Byte, b = leBytes 4 k ++ leBytes 32 body → (List.range 16).find? (fun i => (d.session i).state = 0) = some i →
        (k = 0 → s.Does (.openSession r b) fun e => e.Responds d r 1 0 i ∧ (e.session i).state = 2 ∧ (e.session i).role = 0 ∧ (e.session i).transport = r.tr ∧
          (e.session i).eid = r.eid) ∧
        (k = 2 → d.lockLeft 2 = 0 → s.Does (.openSession r b) fun e => e.Responds d r 1 0 i ∧ (e.session i).state = 1 ∧ (e.session i).role = 2 ∧
          (e.session i).key = d.g oManagerKey)) ∧
      (∀ n : Nat, (∀ i < 16, (d.session i).state ≠ 0) → s.Does (.openSession r (leBytes 4 0 ++ leBytes 32 n)) fun e => e.Responds d r 1 9 0xFF) ∧
      (∀ b, b.length ≤ 4120 → s.Does (.prove r b) (fun e => e.Responds d r 2 6 0xFF) ∧ s.Does (.commit r b) (fun e => e.Responds d r 7 6 0xFF) ∧
        s.Does (.discard r b) (fun e => e.Responds d r 8 6 0xFF) ∧ s.Does (.close r b) (fun e => e.Responds d r 0x0B 6 0xFF)) ∧
      (∀ o v, o / 256 < 65536 → s.Does (.writeBlock r (localAddr o ++ v)) fun e => v.length ≤ 4000 → e.Responds d r 6 6 0xFF) ∧
      (∀ o row, objRow o = some row → d.holds row uChip = true → o < 2 ^ 24 → o ≠ oEventRecords →
        (row.obs ≠ 0 → row.size ≤ 4096 → s.Does (.read r (localAddr o)) fun e => e.Responds d r 3 0 0xFF) ∧
        (row.obs ≠ 0 → ∀ off len, 0 < len → len ≤ 4096 → off + len ≤ row.size → row.size < 2 ^ 32 →
          s.Does (.readBlock r (localAddr o ++ leBytes 4 off ++ leBytes 2 len ++ leBytes 2 0)) fun e => e.Responds d r 5 0 0xFF) ∧
        (row.obs ≠ 2 → ∀ v, s.Does (.write r (localAddr o ++ valueBytes row.typ row.size v)) fun e => row.size ≤ 4096 → e.Responds d r 4 6 0xFF))) ∧
    (s.Powered → d.supAway = false → d.halted = false → (r.tr = 2 ∨ r.tr = 3) → r.eid < 256 → r.tag < 8 → r.reqId < 65536 → r.sid < 16 → r.prot = false → r.counter = 0 →
      (d.session r.sid).state = 1 → (d.session r.sid).transport = r.tr → (d.session r.sid).eid = r.eid → (d.session r.sid).lastCounter < 2 ^ 48 - 1 →
      ∀ b, b = proofOf (d.session r.sid) (d.session r.sid).devNonce (d.session r.sid).reqNonce → b.length = 48 →
        s.Does (.prove r b) fun e => e.Responds d r 2 0 r.sid ∧ (e.session r.sid).state = 2) ∧
    (∀ role, d.halted = false →
      (∀ row o v body, body = localAddr o ++ valueBytes row.typ row.size v → s.Speaks r 4 body role → objRow o = some row → o < 2 ^ 24 → d.holds row uChip = true →
        row.staged = true → row.rights role = 2 → d.readOnly o = false → 0 < row.size → row.size ≤ 4096 → row.typ < 256 → v < 256 ^ row.size → rowOk row v = true →
        d.writesClosed = false → (d.session r.sid).staged = [] → s.Does (.write r body) fun e => e.Responds d r 4 0 r.sid ∧
          ∃ x, (e.session r.sid).staged = [x] ∧ x.oid = o ∧ x.value = v ∧ x.lastChange = d.changeOf o) ∧
      (∀ off body, ∀ b : Byte, body = localAddr oFirmwareImage ++ leBytes 4 off ++ leBytes 2 1 ++ leBytes 2 0 ++ [b] → s.Speaks r 6 body role → 2 ≤ role → role ≤ 3 →
        off < 2 ^ 24 → d.writesClosed = false → s.Does (.writeBlock r body) fun e => e.Responds d r 6 0 r.sid ∧
          storeGet zeroByte (e.fwSlotOf (1 - d.aon.fwSlot)).bytes off = b ∧ (e.fwSlotOf (1 - d.aon.fwSlot)).valid = false) ∧
      (s.Speaks r 7 [] role → (d.writesClosed = true → s.Does (.commit r []) fun e => e.Responds d r 7 4 r.sid ∧ (e.session r.sid).staged = (d.session r.sid).staged) ∧
        (d.writesClosed = false → (d.session r.sid).staged = [] → s.Does (.commit r []) fun e => e.Responds d r 7 0 r.sid)) ∧
      (s.Speaks r 8 [] role → s.Does (.discard r []) fun e => e.Responds d r 8 0 r.sid ∧ (e.session r.sid).staged = []) ∧
      (s.Speaks r 9 [] role → s.Does (.heel r []) fun e => e.Responds d r 9 0 r.sid ∧ e.g oHeelRequests = min (2 ^ 32 - 1) (d.g oHeelRequests + 1)) ∧
      (s.Speaks r 0x0B (leBytes 4 0xFF) role → s.Does (.close r (leBytes 4 0xFF)) fun e => e.Responds d r 0x0B 0 r.sid ∧ (e.session r.sid).state = 0))

/-- MCTP control requests over the management port are answered with their completion code and data, an unsupported one with 0x05, and SET_ENDPOINT_ID of
a valid identifier sets it. A first packet that does not end its message begins a reassembly, which its timeout discards. A session that does not
prove itself, or idles, closes, and a lockout expires. The dynamic address is assigned. FUSE_PROGRAM writes an unprogrammed field once and is refused
for a programmed one or a malformed value; FUSE_LOCK locks. (The completion codes and data of the control messages are the model's reading of the MCTP
standard, log entry 23.) (R364, R365, R371, R373, R375, R385, R386, R388, 16_dictionary_protocol.md, 17_dictionary_index.md) -/
def Obligations.TransportsSessionsTimersAndFuses : Prop :=
  ∀ (s : State) (d m : Dev), s.Powered → d = s.dev → m = { d with doms := { d.doms with mgtTick := d.now } } →
    (d.supAway = false → ∀ tr eid : Nat, (tr = 2 ∨ tr = 3) → eid < 256 →
      exec (.getEndpointId tr eid) s = .next (s.leaves (m.emit .mctp [tr, eid, 2, 0] (leBytes 1 0 ++ (leBytes 1 (d.eidAt tr) ++ zeros 2)))) ∧
      exec (.getEndpointUuid tr eid) s = .next (s.leaves (m.emit .mctp [tr, eid, 3, 0] (leBytes 1 0 ++ leBytes 16 (d.fuse.uuid.getD 0)))) ∧
      exec (.getMessageTypeSupport tr eid) s = .next (s.leaves (m.emit .mctp [tr, eid, 5, 0] (leBytes 1 0 ++ (leBytes 1 1 ++ leBytes 1 0x7E)))) ∧
      (∀ typ < 256, (typ = 0xFF ∨ typ = 0 → exec (.getMctpVersionSupport tr eid typ) s = .next (s.leaves
          (m.emit .mctp [tr, eid, 4, 0] (leBytes 1 0 ++ (leBytes 1 1 ++ beBytes 4 0xF1F3FF00))))) ∧
        (typ ≠ 0xFF → typ ≠ 0 → exec (.getMctpVersionSupport tr eid typ) s = .next (s.leaves (m.emit .mctp [tr, eid, 4, 0x80] (leBytes 1 0x80 ++ []))))) ∧
      (∀ sel < 256, (sel = 0 → s.Does (.getVendorDefinedMessageSupport tr eid sel) fun e => e.out.length = d.out.length + 1) ∧
        (sel ≠ 0 → exec (.getVendorDefinedMessageSupport tr eid sel) s = .next (s.leaves (m.emit .mctp [tr, eid, 6, 2] (leBytes 1 2 ++ []))))) ∧
      (∀ cmd < 256, exec (.unsupportedControlCommand tr eid cmd) s = .next (s.leaves (m.emit .mctp [tr, eid, cmd, 5] (leBytes 1 5 ++ [])))) ∧
      (∀ op < 256, ∀ new < 256, (1 < op ∨ new < 8 ∨ new = 0xFF →
          exec (.setEndpointId tr eid op new) s = .next (s.leaves (m.emit .mctp [tr, eid, 1, 2] (leBytes 1 2 ++ [])))) ∧
        (op ≤ 1 → 8 ≤ new → new < 0xFF → s.Does (.setEndpointId tr eid op new) fun e => e.eidAt tr = new ∧ e.out.length = d.out.length + 1)) ∧
      (∀ (tag : BitVec 3) (seq : BitVec 2) (data : List Byte), 64 ≤ data.length → data.length ≤ 256 → d.sess.asm = [] →
        s.Does (.mctpPacketReceive tr eid tag true false seq data) fun e => e.sess.asm = [⟨tr, eid, tag.toNat, data, (seq.toNat + 1) % 4, d.now⟩])) ∧
    (∀ tr < 256, ∀ eid < 256, ∀ tag : BitVec 3, s.Does (.reassemblyTimeout tr eid tag) fun e =>
      ∀ x ∈ e.sess.asm, ¬ (x.transport = tr ∧ x.eid = eid ∧ x.mtag = tag.toNat)) ∧
    (∀ i < 16, ((d.session i).state = 1 → s.Does (.proveTimeout i) fun e => e.session i = {}) ∧ ((d.session i).state ≠ 1 → exec (.proveTimeout i) s = .next (s.leaves d)) ∧
      ((d.session i).state = 2 → s.Does (.sessionIdleExpire i) fun e => e.session i = {}) ∧ ((d.session i).state ≠ 2 → exec (.sessionIdleExpire i) s = .next (s.leaves d))) ∧
    (∀ role, 1 ≤ role → role ≤ 3 → s.Does (.lockoutExpire role) fun e => (storeGet noLockout e.sess.lock role).until_ = 0 ∧ e.lockLeft role = 0) ∧
    (∀ a : BitVec 7, (d.doms.supRet = true → exec (.i3cDynamicAddressAssign a) s = .next (s.leaves d)) ∧
      (d.doms.supRet = false → s.Does (.i3cDynamicAddressAssign a) fun e => e.doms.i3cAddr = some a.toNat)) ∧
    (s.TakesWrites → d.aon.testMode = true → d.fuse.locked = false →
      (∀ (id n : Nat) (v : BitVec 384) (cut : Bool), id = fieldOf v.toNat 0 2 → n = fieldOf v.toNat 4 2 →
        (id = 0 ∨ 6 < id ∨ fieldOf v.toNat 2 2 ≠ 0 ∨ n ≠ listGet 0 [8, 16, 32, 2, 2, 1] (id - 1) ∨ fieldOf v.toNat 6 2 ≠ 0 →
          exec (.fuseProgram v cut) s = .next (s.leaves (d.refuses 3 uChip))) ∧
        (1 ≤ id → id ≤ 6 → fieldOf v.toNat 2 2 = 0 → n = listGet 0 [8, 16, 32, 2, 2, 1] (id - 1) → fieldOf v.toNat 6 2 = 0 →
          ((d.fuse.field (id - 1)).isSome = true → exec (.fuseProgram v cut) s = .next (s.leaves (d.refuses 4 uChip))) ∧
          (d.fuse.field (id - 1) = none → d.fuse.cut = [] → cut = false → s.Does (.fuseProgram v cut) fun e =>
            e.fuse.field (id - 1) = some (fieldOf v.toNat 8 n) ∧ e.Answers 4 0 0xFFFF))) ∧
      s.Does (.fuseLock false) fun e => e.fuse.locked = true ∧ e.Answers 4 0 0xFFFF)

/-- PERST_N or a Hot Reset takes the host port to its reset values as a reset of kind 3, with instance resets where the host was ready; in RETAIN after
triggers 3 to 6 it leads to WAKE. CHIP_SOFT_RESET and UNIT_RESET are refused where the rules say so and else performed. A watchdog expiry in a running
vault sequence raises source 2; while RETAIN holds it restarts the supervisor alone; else it resets the chip with kind 7. A firmware image goes to the
slot that does not run, which is invalid until STAGE finds it good and selects it as a trial; CONFIRM of a running trial confirms the slot, CANCEL
returns to the confirmed one, and the trial is confirmed by time only after host readiness without a watchdog reset. (R415, R416, R417, R418, R419,
R425, R426, R428, 19_resets_and_persistence.md) -/
def Obligations.ResetsAndFirmwareSlots : Prop :=
  ∀ (s : State) (d : Dev), s.Powered → d = s.dev →
    (∀ pin : Bool, d.retainResets = false → d.halted = false →
      (d.restore.readyTick = none ∨ d.domSt uHost ≠ 0 → s.Does (.perstN pin) fun e => e.aon.perstN = (!pin && d.aon.perstN) ∧ e.insts.link = 0 ∧ e.insts.msix = false ∧
        e.insts.busMaster = false ∧ e.g oLastResetKind = 3) ∧
      (d.restore.readyTick ≠ none → d.domSt uHost = 0 → ∃ f : Dev, exec (.perstN pin) s = .next (s.leaves f.resetInsts) ∧ f.aon.perstN = (!pin && d.aon.perstN) ∧
        f.insts.link = 0 ∧ f.insts.msix = false ∧ f.insts.busMaster = false ∧ f.g oLastResetKind = 3)) ∧
    (d.retainResets = true → d.halted = false → ∃ f : Dev, exec (.perstN true) s = .next (s.leaves f.wakeFromRetain) ∧ f.aon.perstN = false ∧ f.g oLastResetKind = 3) ∧
    (s.TakesWrites →
      (0x0A ≤ d.vst → d.vst ≤ 0x0C → exec .chipSoftReset s = .next (s.leaves (d.refuses 4 uChip))) ∧
      ((d.vst < 0x0A ∨ 0x0C < d.vst) → exec .chipSoftReset s = .next (s.leaves ((d.softReset 5).accepts oResetCommand))) ∧
      (∀ u ∈ [uChip, uVault, uMem, uSup], exec (.unitReset u) s = .next (s.leaves (d.refuses 4 u))) ∧
      (∀ n < 4, exec (.unitReset (uSlice n)) s = .next (s.leaves ((d.unitReset (uSlice n)).accepts oUnitReset)))) ∧
    ((2 ≤ d.vst → d.vst ≤ 6 → exec .watchdogExpire s = .next (s.leaves (d.fault 2))) ∧
      (d.vst = 7 → d.vault.trigger < 3 → s.Does .watchdogExpire fun e => e.vst = 7 ∧ e.aon.wdRestart = true ∧ e.aon.wdSince = true ∧ e.g oLastResetKind = 7) ∧
      (d.vst ≤ 1 → ∃ f : Dev, exec .watchdogExpire s = .next (s.leaves (f.softReset 7 true)) ∧ f.aon.wdSince = true)) ∧
    (d.supAway = false → ∀ off data i, i = 1 - d.aon.fwSlot → (d.writesClosed = true → exec (.firmwareImage off data) s = .next (s.leaves (d.tableReply 4 uChip))) ∧
      (d.writesClosed = false → data = [] ∨ 4096 < data.length ∨ 16777216 < off + data.length →
        exec (.firmwareImage off data) s = .next (s.leaves (d.tableReply 3 uChip))) ∧
      (d.writesClosed = false → ∀ b : Byte, data = [b] → off < 16777216 → s.Does (.firmwareImage off data) fun e => e.Answers 6 0 0xFFFF ∧
        storeGet zeroByte (e.fwSlotOf i).bytes off = b ∧ (e.fwSlotOf i).valid = false)) ∧
    (s.TakesWrites → d.aon.fwSlot ≤ 1 → ∀ i, i = 1 - d.aon.fwSlot →
      (∀ v : BitVec 32,
        (s.Does (.firmwareStage false v) fun e => e.Answers 4 3 uChip ∧ (e.fwSlotOf i).valid = false) ∧
        (s.Does (.firmwareStage true v) fun e => e.Answers 4 0 0xFFFF ∧ (e.fwSlotOf i).valid = true ∧ (e.fwSlotOf i).version = v.toNat ∧
          e.fwb 1 = i ∧ e.fwb 2 = 1 ∧ e.fwb 3 = 0)) ∧
      (d.fwb 2 = 1 → d.fwb 1 = d.aon.fwSlot → s.Does .firmwareConfirm fun e => e.Answers 4 0 0xFFFF ∧ e.fwb 0 = d.aon.fwSlot ∧ e.fwb 2 = 0 ∧ e.fwb 3 = 0) ∧
      (d.fwb 2 ≠ 1 ∨ d.fwb 1 ≠ d.aon.fwSlot → exec .firmwareConfirm s = .next (s.leaves (d.refuses 4 uChip))) ∧
      (s.Does .firmwareCancel fun e => e.Answers 4 0 0xFFFF ∧ e.fwb 1 = d.fwb 0)) ∧
    (d.aon.fwSlot ≤ 1 →
      (d.fwb 2 = 1 → d.fwb 1 = d.aon.fwSlot → d.restore.readyTick ≠ none → d.aon.wdSince = false → s.Does .trialConfirmTimeout fun e => e.fwb 0 = d.aon.fwSlot ∧
        e.fwb 2 = 0 ∧ e.fwb 3 = 0) ∧
      (d.fwb 2 ≠ 1 ∨ d.fwb 1 ≠ d.aon.fwSlot ∨ d.restore.readyTick = none ∨ d.aon.wdSince = true → exec .trialConfirmTimeout s = .next (s.leaves d)))

/-- The loss of a clock that is not masked and not already lost is shown in its state, counted and raised as source 648 plus its number, the loss of XCLK
begins a holdover that ends in the loss of SUPCLK; a recovered clock is good again and its source is live no more, but for FCLK, SUPCLK and the MCLKs.
A failed restart of an MCLK PLL counts, the third failure quarantines its channel, as does a lock. A sample at or above 130 °C raises source 4 and at
or above 120 °C the quadrant's source, until it is below 115 °C. BYPASS, IDCODE, SAMPLE/PRELOAD, EXTEST, CLAMP and HIGHZ select their register, shift
its bits out, and take the pins only in test mode. (R312, R436, R437, R438, R439, R440, R453, R454, 20_clocks.md, 21_electrical_and_package.md) -/
def Obligations.ClocksSensorsAndTestPort : Prop :=
  ∀ (s : State) (d : Dev), s.Powered → d = s.dev →
    (∀ i freq : Nat, i ≤ 22 →
      ((d.clk i).st ≠ 0 ∨ d.clockMasked i = true → exec (.clockLoss i freq) s = .next (s.leaves d)) ∧
      ((d.clk i).st = 0 → d.clockMasked i = false → freq < 2 ^ 32 →
        (i = 22 → s.Does (.clockLoss i freq) fun e => (e.clk i).st = 2 ∧ (e.clk i).freq = freq ∧ e.aon.xclkHold = some d.now ∧ e.faultQ = d.faultQ) ∧
        (i < 22 → i ≠ 19 → d.vst ≠ 3 → s.Does (.clockLoss i freq) fun e => (e.clk i).st = (if i = 20 then 3 else 2) ∧ (e.clk i).freq = freq ∧ e.Raised (648 + i) ∧
          fieldOf (e.g oClockLosses) (2 * i) 2 = min 65535 (fieldOf (d.g oClockLosses) (2 * i) 2 + 1)) ∧
        (i = 19 → (d.clk 20).st = 0 → s.Does (.clockLoss i freq) fun e => (e.clk 19).st = 3 ∧ e.Raised 667))) ∧
    (∀ i ≤ 22, ((d.clk i).st = 0 ∨ i = 9 ∨ i = 19 ∨ (10 ≤ i ∧ i < 18) → exec (.clockRecovered i) s = .next (s.leaves d)) ∧
      ((d.clk i).st ≠ 0 → i ≠ 9 → i ≠ 19 → (i < 10 ∨ 18 ≤ i) → s.Does (.clockRecovered i) fun e => (e.clk i).st = 0 ∧
        (i = 22 → e.aon.xclkHold = none) ∧ (i ≠ 22 → e.faults.live.testBit (648 + i) = false))) ∧
    ((d.aon.xclkHold = none → exec .xclkHoldoverEnd s = .next (s.leaves d)) ∧
      (d.aon.xclkHold ≠ none → (d.clk 19).st = 0 → s.Does .xclkHoldoverEnd fun e => e.aon.xclkHold = none ∧ (e.clk 19).st = 3 ∧ e.Raised 667)) ∧
    (∀ n < 8,
      ((d.clk (10 + n)).st = 0 ∨ 3 ≤ (d.clk (10 + n)).attempts → ∀ b, exec (.mclkPllRestart n b) s = .next (s.leaves d)) ∧
      ((d.clk (10 + n)).st ≠ 0 → (d.clk (10 + n)).attempts < 3 →
        (∃ f : Dev, exec (.mclkPllRestart n true) s = .next (s.leaves ((f.quarantine n).unlive (658 + n))) ∧ (f.clk (10 + n)).st = 0) ∧
        ((d.clk (10 + n)).attempts < 2 → s.Does (.mclkPllRestart n false) fun e => (e.clk (10 + n)).attempts = (d.clk (10 + n)).attempts + 1 ∧
          (e.clk (10 + n)).st = (d.clk (10 + n)).st) ∧
        ((d.clk (10 + n)).attempts = 2 → ∃ f : Dev, exec (.mclkPllRestart n false) s = .next (s.leaves ((f.mclkPoison n).quarantine n)) ∧
          (f.clk (10 + n)).attempts = 3))) ∧
    (∀ (i : Nat) (t : Int), i < 5 →
      (i = 4 ∨ (t < 120 ∧ d.faults.live.testBit (44 + i) = false) → s.Does (.thermalSample i t) fun e => storeGet (fun _ => (0 : Int)) e.aon.thermal i = t ∧
        (130 ≤ t → storeGet (fun _ => (0 : Int)) d.aon.thermal i < 130 → e.Raised 4)) ∧
      (i < 4 → 120 ≤ t → d.faults.live.testBit (44 + i) = false → ∃ f : Dev, exec (.thermalSample i t) s = .next (s.leaves (f.opRequest i 0)) ∧ f.Raised (44 + i) ∧
        storeGet (fun _ => (0 : Int)) f.aon.thermal i = t) ∧
      (i < 4 → t < 115 → d.faults.live.testBit (44 + i) = true → ∃ f : Dev,
        exec (.thermalSample i t) s = .next (s.leaves (f.opRequest i (d.gb oCoreOperatingPoint i))) ∧ f.faults.live.testBit (44 + i) = false)) ∧
    (∀ (pins tdi : List Bool) (out : Dev → List Bool → Prop), (∀ e l, out e l ↔ e.out = d.out ++ [{ kind := .tdo, args := l.map fun b => if b then 1 else 0 }]) →
      (s.Does (.bypass tdi) fun e => e.aon.ir = 0 ∧ e.aon.drive = 0 ∧ out e ((false :: tdi).take tdi.length) ∧ e.aon.bypass = listGet false ((false :: tdi).drop tdi.length) 0) ∧
      (s.Does (.idcode tdi) fun e => e.aon.ir = 1 ∧ e.aon.drive = 0 ∧ out e (((List.range 32).map d.idcode.testBit ++ tdi).take tdi.length)) ∧
      (d.aon.testMode = true →
        (s.Does (.samplePreload pins tdi) fun e => e.aon.ir = 2 ∧ e.aon.drive = 0 ∧ e.aon.cells = (pins ++ tdi).drop tdi.length ∧ out e ((pins ++ tdi).take tdi.length)) ∧
        (s.Does (.extest pins tdi) fun e => e.aon.ir = 3 ∧ e.aon.drive = 1 ∧ e.aon.cells = (pins ++ tdi).drop tdi.length ∧ out e ((pins ++ tdi).take tdi.length)) ∧
        (s.Does (.clamp tdi) fun e => e.aon.ir = 4 ∧ e.aon.drive = 1 ∧ e.aon.cells = d.aon.cells ∧ out e ((false :: tdi).take tdi.length)) ∧
        (s.Does (.highz tdi) fun e => e.aon.ir = 5 ∧ e.aon.drive = 2 ∧ e.aon.cells = d.aon.cells ∧ out e ((false :: tdi).take tdi.length))) ∧
      (d.aon.testMode = false → ∀ c ∈ ([.samplePreload pins tdi, .extest pins tdi, .clamp tdi, .highz tdi] : List Instr), s.Does c fun e =>
        e.aon.ir = 0 ∧ e.aon.drive = 0 ∧ e.aon.cells = d.aon.cells ∧ out e ((false :: tdi).take tdi.length)))

/-- Each of the six descriptor operations puts a descriptor of its Op, from firmware or a queue of the channel, into a free channel: that of an ended
context completes ABORTED, an invalid one INVALID, an empty one DONE, any other is QUEUED, and RUNNING once units run. A channel that holds another
operation's descriptor, or one of an old generation, is left alone. A unit of COPY or FILL reads and writes through the channel's translation and
advances Progress by its bytes; a fault suspends the channel, Poison at the source completes it POISONED. A HOST_READ or HOST_WRITE without a host
grant asks for the page; with one it advances. A block of VOLUME_READ or VOLUME_WRITE beyond the volume completes VOLUME_ERROR, one that is
transferred advances by 4,096. A complete descriptor posts DONE. A resume, a fault end, a page response and a page timeout act on the suspended
channel, but a response to an old generation is discarded, and an invalidation drops the matching entries of every translation cache. (R212, R216,
R217, R218, R219, R220, R221, R246, R267, 09_translation_dma_preemption.md) -/
def Obligations.DmaChannelsRunTheirDescriptors : Prop :=
  ∀ (s : State) (d : Dev), s.Powered → d = s.dev →
    (∀ (i q op n : Nat) (raw : BitVec 512) (grant : Bool) (data : List Byte) (c : Instr), i < 1024 → q < 65536 →
      ((op = 1 ∧ c = .dmaCopy i q raw n) ∨ (op = 2 ∧ c = .dmaFill i q raw n) ∨ (op = 3 ∧ c = .dmaHostRead i q raw n grant data) ∨
        (op = 4 ∧ c = .dmaHostWrite i q raw n grant) ∨ (op = 5 ∧ c = .dmaVolumeRead i q raw n) ∨ (op = 6 ∧ c = .dmaVolumeWrite i q raw n)) →
      ((d.ch i).desc = none → d.unitRuns (chUnit i) = true → d.quiet = false → n = 0 →
        (d.takeEntry (chUnit i) q raw.toNat = none → exec c s = .next (s.leaves d)) ∧
        (∀ r f x e, d.takeEntry (chUnit i) q raw.toNat = some (r, f) → byteOf r 0 = op → x = f.descOf q (BitVec.ofNat 512 r) → e = f.setDesc i x →
          (q ≠ 0xFFFF → qLoc (f.q q) = 1 → f.ctxGone x.ctx = true → exec c s = .next (s.leaves (e.dmaFinish i stAborted))) ∧
          (q = 0xFFFF ∨ qLoc (f.q q) ≠ 1 ∨ f.ctxGone x.ctx = false →
            (x.invalid = true → exec c s = .next (s.leaves (e.dmaFinish i stInvalid))) ∧
            (x.invalid = false → x.len = 0 → exec c s = .next (s.leaves (e.dmaFinish i stDone))) ∧
            (x.invalid = false → x.len ≠ 0 → exec c s = .next (s.leaves e))))) ∧
      (∀ x : Desc, (d.ch i).desc = some x → x.op = op → x.status = stQueued → d.unitRuns (chUnit i) = true → 0 < n →
        exec c s = exec c { s with dev := d.setDesc i { x with status := stRunning } }) ∧
      (∀ x, (d.ch i).desc = some x → x.op ≠ op → exec c s = .next (s.leaves d)) ∧
      (∀ x : Desc, (d.ch i).desc = some x → x.op = op → ((x.status ≠ stRunning ∧ x.status ≠ stQueued) ∨ d.unitRuns (chUnit i) = false ∨ (x.status = stRunning ∧ x.gen ≠ d.instGen x.inst)) → exec c s = .next (s.leaves d)) ∧
      (∀ x : Desc, (d.ch i).desc = some x → x.op = op → x.status = stRunning → d.unitRuns (chUnit i) = true → x.gen = d.instGen x.inst → n = 1 →
        ∀ w t u k, w = chWho i x → u = x.src + x.progress → t = x.dst + x.progress →
          k = (if op = 1 ∧ x.overlaps then min 64 (x.len - x.progress) else if op = 2 then min (64 - t % 64) (x.len - x.progress)
            else min (min (64 - u % 64) (64 - t % 64)) (x.len - x.progress)) →
          (op = 1 → (∀ b d1 d2 y, d.readVa w u k = .ok b d1 → d1.writeVa w t b = .ok () d2 → (d2.ch i).desc = some y →
              exec c s = .next (s.leaves (d2.setDesc i { y with progress := x.progress + k }))) ∧
            (∀ a v d1, d.readVa w u k = .fault a v d1 → exec c s = .next (s.leaves (d1.dmaFault i a v))) ∧
            (∀ d1, d.readVa w u k = .poison d1 → exec c s = .next (s.leaves (d1.dmaFinish i stPoisoned)))) ∧
          (op = 2 → ∀ l, l = (List.range k).map (fun j => BitVec.ofNat 8 (byteOf x.src ((x.progress + j) % 8))) →
            (∀ d2 y, d.writeVa w t l = .ok () d2 → (d2.ch i).desc = some y → exec c s = .next (s.leaves (d2.setDesc i { y with progress := x.progress + k }))) ∧
            (∀ a v d1, d.writeVa w t l = .fault a v d1 → exec c s = .next (s.leaves (d1.dmaFault i a v)))) ∧
          (op = 3 → (d.hostXlat i x.inst u grant = none → exec c s = .next (s.leaves (d.dmaHostFault i u))) ∧
            (∀ d1 d2 y, d.hostXlat i x.inst u grant = some d1 →
              ((d1.noteRequest x.inst).emit .hostRead [x.inst, u, k, d1.pasid x.inst]).writeVa w t ((List.range k).map fun j => listGet 0 data j) = .ok () d2 →
              (d2.ch i).desc = some y → exec c s = .next (s.leaves (d2.setDesc i { y with progress := x.progress + k })))) ∧
          (op = 4 → ∀ b d1, d.readVa w u k = .ok b d1 → (d1.hostXlat i x.inst t grant = none → exec c s = .next (s.leaves (d1.dmaHostFault i t))) ∧
            (∀ d2 y, d1.hostXlat i x.inst t grant = some d2 → ((d2.hostPost x.inst x.gen .hostWrite [x.inst, t, d2.pasid x.inst] b).ch i).desc = some y →
              exec c s = .next (s.leaves ((d2.hostPost x.inst x.gen .hostWrite [x.inst, t, d2.pasid x.inst] b).setDesc i { y with progress := x.progress + k })))) ∧
          (op = 5 → (d.volHolds x.vol u 4096 = false → exec c s = .next (s.leaves (d.dmaFinish i stVolErr))) ∧
            (d.volHolds x.vol u 4096 = true → x.vst = 2 → ∀ d1 y, d.writeVa w t (leBytes 4096 x.vdata) = .ok () d1 → ((d1.setVst i 0).ch i).desc = some y →
              exec c s = .next (s.leaves ((d1.setVst i 0).setDesc i { y with progress := x.progress + 4096 })))) ∧
          (op = 6 → (d.volHolds x.vol t 4096 = false → exec c s = .next (s.leaves (d.dmaFinish i stVolErr))) ∧
            (d.volHolds x.vol t 4096 = true → vState (d.vol x.vol) ≠ 3 → x.vst = 2 → s.Does c fun e => ∃ y, (e.ch i).desc = some y ∧ y.progress = x.progress + 4096 ∧
              y.vst = 0)))) ∧
    (∀ (i : Nat) (x : Desc), i < 1024 → (d.ch i).desc = some x →
      (x.len ≤ x.progress → x.status = stRunning → exec (.dmaDescriptorComplete i) s = .next (s.leaves (d.dmaFinish i stDone))) ∧
      (x.progress < x.len → exec (.dmaDescriptorComplete i) s = .next (s.leaves d)) ∧
      (x.status = stSuspFault → (d.ch i).fault.kind = 1 →
        exec (.dmaFaultEnd i) s = .next (s.leaves ((d.incU (chUnit i) oFatalTranslationFaults).dmaFinish i stTransErr)) ∧
        ((d.ch i).fault.detail % 16 ≠ 2 → (d.ch i).fault.detail % 16 ≠ 3 → s.Does (.dmaChannelResume i) fun e =>
          (e.ch i).desc = some { x with status := stRunning } ∧ (e.ch i).fault.kind = 0) ∧
        ((d.ch i).fault.detail % 16 = 2 ∨ (d.ch i).fault.detail % 16 = 3 → x.ctx < 1024 → ∀ f,
          (d.fwResolve x.ctx (d.ch i).fault.addr = .wait f → exec (.dmaChannelResume i) s = .next (s.leaves f)) ∧
          (d.fwResolve x.ctx (d.ch i).fault.addr = .lost f → exec (.dmaChannelResume i) s =
            .next (s.leaves ((f.incU (chUnit i) oFatalTranslationFaults).endCtx x.ctx 0x03 0x08 (d.ch i).fault.addr 0))))) ∧
      (x.status ≠ stSuspFault → exec (.dmaFaultEnd i) s = .next (s.leaves d) ∧ exec (.dmaChannelResume i) s = .next (s.leaves d)) ∧
      (∀ r, d.mem.preqs = [r] → r.chan = i → x.status = stSuspFault → (d.ch i).fault.kind = 2 → (d.ch i).fault.prg = r.prg →
        (x.gen ≠ d.instGen x.inst → ∀ c, (c = .hostPageTimeout r.prg ∨ ∃ ok, c = .pageResponseReceive r.prg ok) → s.Does c fun e => (e.ch i).desc = some x ∧ e.mem.preqs = []) ∧
        (x.gen = d.instGen x.inst → s.Does (.pageResponseReceive r.prg true) fun e => (e.ch i).desc = some { x with status := stRunning } ∧ e.mem.preqs = []) ∧
        (x.gen = d.instGen x.inst → ∃ f : Dev, f.mem.preqs = [] ∧ exec (.pageResponseReceive r.prg false) s = .next (s.leaves (f.hostDenied i)) ∧
          exec (.hostPageTimeout r.prg) s = .next (s.leaves (f.hostDenied i))))) ∧
    (∀ prg, d.mem.preqs = [] → (∀ ok, exec (.pageResponseReceive prg ok) s = .next (s.leaves d)) ∧ exec (.hostPageTimeout prg) s = .next (s.leaves d)) ∧
    (∀ asid va, ∀ host : Bool, s.Does (.tlbInvalidate asid host va) fun e => ∀ u, ∀ x ∈ e.tlbOf u,
      ¬ (x.host = host ∧ (if host then x.asid / 1024 = asid / 1024 else x.asid = asid) ∧ x.va ≤ va ∧ va < x.va + x.size))

/-- Each of the seventeen engine operations puts a job of its Op, from firmware or a queue of the engine, into a free slot: that of an ended context
completes ABORTED, an invalid one INVALID, an empty one DONE (but for the last part of a hash), any other is RUNNING. A slot that holds another
operation's job, one that does not run, one of an old generation, or one whose turn it is not by service class, is left alone. A unit of work of the
job's operation is applied, suspends the slot on a fault, or completes it POISONED; a data unit of XTS gives the cipher's bytes under the slot's key.
A finished job posts its record with the CRC of a stream as its result. A suspended job resumes or ends with TRANSLATION_ERROR. KEY_SLOT_LOAD is
refused for a malformed value or a slot in use, and else loads or empties the slot. (R231, R232, R234, R235, R239, R242, R245, R246, R249, R219,
10_offload_engines.md) -/
def Obligations.EngineJobsRunAndComplete : Prop :=
  ∀ (s : State) (d : Dev), s.Powered → d = s.dev →
    (∀ (i q op n : Nat) (raw : BitVec 1024) (c : Instr), i < 320 → q < 65536 →
      ((op, c) ∈ ([(0x10, .deflateCompress i q raw n), (0x11, .deflateDecompress i q raw n), (0x12, .zstandardCompress i q raw n), (0x13, .zstandardDecompress i q raw n),
        (0x14, .lz4Compress i q raw n), (0x15, .lz4Decompress i q raw n), (0x20, .scanRow i q raw n), (0x21, .scanColumn i q raw n), (0x30, .hashProbe i q raw n),
        (0x31, .bloomTest i q raw n), (0x32, .runSearch i q raw n), (0x40, .xtsEncrypt i q raw n), (0x41, .xtsDecrypt i q raw n), (0x42, .sha256 i q raw n),
        (0x43, .sha384 i q raw n), (0x44, .rsEncode i q raw n), (0x45, .rsReconstruct i q raw n)] : List (Nat × Instr))) →
      ((d.slot i).job = none → d.unitRuns (slotUnit i) = true → d.quiet = false → n = 0 →
        (d.takeEntry (slotUnit i) q raw.toNat = none → exec c s = .next (s.leaves d)) ∧
        (∀ r f x e, d.takeEntry (slotUnit i) q raw.toNat = some (r, f) → byteOf r 0 = op → x = f.jobOf q (BitVec.ofNat 1024 r) →
          e = ({ f with free := f.free + 1 }).setSlot i { job := some { x with status := stRunning }, kind := 1, crc := 0xFFFFFFFF, pick := f.free } →
          (q ≠ 0xFFFF → qLoc (f.q q) = 1 → f.ctxGone x.ctx = true → exec c s = .next (s.leaves (e.jobFinish i stAborted))) ∧
          (q = 0xFFFF ∨ qLoc (f.q q) ≠ 1 ∨ f.ctxGone x.ctx = false →
            (e.jobInvalid i x = true → exec c s = .next (s.leaves (e.jobFinish i stInvalid))) ∧
            (e.jobInvalid i x = false → x.srcLen = 0 → ¬ ((op = 0x42 ∨ op = 0x43) ∧ bit (x.p 0x53 1) 1) → exec c s = .next (s.leaves (e.jobFinish i stDone))) ∧
            (e.jobInvalid i x = false → x.srcLen ≠ 0 ∨ ((op = 0x42 ∨ op = 0x43) ∧ bit (x.p 0x53 1) 1) → exec c s = .next (s.leaves e))))) ∧
      (∀ x : Job, (d.slot i).job = some x → x.op ≠ op ∨ x.status ≠ stRunning ∨ d.unitRuns (slotUnit i) = false ∨ x.gen ≠ d.instGen x.inst ∨ d.slotTurn i x.cls = false →
        exec c s = .next (s.leaves d)) ∧
      (∀ x : Job, (d.slot i).job = some x → x.op = op → x.status = stRunning → d.unitRuns (slotUnit i) = true → x.gen = d.instGen x.inst → d.slotTurn i x.cls = true →
        x.vst = 0 → x.srcVol = false → x.dstVol = false → (d.slot i).fin = false → n = 1 →
        (∀ w d1, d.jobUnit i (d.slot i) x = .ok w d1 → exec c s = .next (s.leaves (d1.jobApply i x w))) ∧
        (∀ a v d1, d.jobUnit i (d.slot i) x = .fault a v d1 → exec c s = .next (s.leaves (d1.jobFault i a v))) ∧
        (∀ d1, d.jobUnit i (d.slot i) x = .wait d1 → exec c s = .next (s.leaves d1)) ∧
        (∀ d1, d.jobUnit i (d.slot i) x = .poison d1 → exec c s = .next (s.leaves (d1.jobFinish i stPoisoned))) ∧
        (op = 0x40 ∨ op = 0x41 → ∀ l d1 k, d.readVa (slotWho i x) (x.src + x.inProg) (2 ^ x.p 0x52 1) = .ok l d1 → k = storeGet noKey d.eng.keys (256 * (i / 80) + x.p 0x50 2) →
          ∃ w : Work, exec c s = .next (s.leaves (d1.jobApply i x w)) ∧ w.x.inProg = x.inProg + 2 ^ x.p 0x52 1 ∧
            w.out = xts (x.op = 0x41) (leBytes 32 k.k1) (leBytes 32 k.k2) ((x.p 0x58 16 + x.inProg / 2 ^ x.p 0x52 1) % 2 ^ 128) l))) ∧
    (∀ (i : Nat) (x : Job), i < 320 → (d.slot i).job = some x →
      ((d.slot i).fin = true → x.vst = 0 → (d.slot i).outBuf = [] → x.status = stRunning → d.unitRuns (slotUnit i) = true →
        (0x20 ≤ x.op → exec (.engineJobComplete i) s = .next (s.leaves (d.jobFinish i (d.slot i).fst))) ∧
        (x.op < 0x20 → exec (.engineJobComplete i) s = .next (s.leaves
          ((d.setSlot i { d.slot i with result := (d.slot i).crc ^^^ 0xFFFFFFFF }).jobFinish i (d.slot i).fst)))) ∧
      ((d.slot i).fin = false → exec (.engineJobComplete i) s = .next (s.leaves d)) ∧
      (x.status = stSuspFault →
        exec (.dmaFaultEnd (1024 + i)) s = .next (s.leaves ((d.incU (slotUnit i) oFatalTranslationFaults).jobFinish i stTransErr)) ∧
        ((d.slot i).fault.kind = 1 → (d.slot i).fault.detail % 16 ≠ 2 → (d.slot i).fault.detail % 16 ≠ 3 → s.Does (.dmaChannelResume (1024 + i)) fun e =>
          (e.slot i).job = some { x with status := stRunning } ∧ (e.slot i).fault.kind = 0))) ∧
    (s.TakesWrites → ∀ (q slot : Nat) (v : BitVec 576), q < 4 → slot = fieldOf v.toNat 0 2 → d.isolated (uEng q 8) = false → d.lockedOff (uEng q 8) = false →
      d.pathOn (uEng q 8) = true →
      (255 < slot ∨ 1 < fieldOf v.toNat 4 2 ∨ fieldOf v.toNat 6 2 ≠ 0 ∨ 4095 < fieldOf v.toNat 2 2 →
        exec (.keySlotLoad (uEng q 8) v) s = .next (s.leaves (d.refuses 3 (uEng q 8)))) ∧
      (slot ≤ 255 → fieldOf v.toNat 4 2 ≤ 1 → fieldOf v.toNat 6 2 = 0 → fieldOf v.toNat 2 2 ≤ 4095 →
        ((∃ j < 16, ∃ x, (d.slot (16 * engNo (uEng q 8) + j)).job = some x ∧ (x.op = 0x40 ∨ x.op = 0x41) ∧ x.p 0x50 2 = slot) →
          exec (.keySlotLoad (uEng q 8) v) s = .next (s.leaves (d.refuses 4 (uEng q 8)))) ∧
        ((∀ j < 16, (d.slot (16 * engNo (uEng q 8) + j)).job = none) → s.Does (.keySlotLoad (uEng q 8) v) fun e => e.Answers 4 0 0xFFFF ∧
          storeGet noKey e.eng.keys (256 * q + slot) = if fieldOf v.toNat 4 2 = 1 then {} else
            { owner := fieldOf v.toNat 2 2, k1 := fieldOf v.toNat 8 32, k2 := fieldOf v.toNat 40 32 })))

/-- WAKE_COMPLETE resumes from DRAM when the retained machine reads without error, else a source is chosen among the slots; outside WAKE it changes
nothing. In Fetch the end of the read makes steps 1 and 2 and the machine-state region resident; RESTORE_REBUILD_COMPLETE ends a full restore and
FETCH_HOST_ADMIT admits the host in Fetch. A demanded or background segment is installed once wanted, its longest miss recorded. A lost-range release
drops the known bad versions and the ranges of its volume. A format is refused while a sequence runs or an unreleased image stands, and else empties
the slots; its completion makes the Kennel valid. Outside a vault a failed block is remapped with its source raised, and a dead LUN, or one left with
no unused reserve block, leaves the map. Erases end, and the usability check sets bit 2 of WriteThroughCause exactly while no slot is usable. (R114,
R115, R127, R128, R133, R134, R139, R140, R141, R142, R152, 06_restore_and_fetch.md) -/
def Obligations.RestoreAndKennelCommands : Prop :=
  ∀ (s : State) (d : Dev), s.Powered → d = s.dev →
    (∀ found speed failed marginal metaOk bad readA readB,
      (d.vst ≠ 0x0A → exec (.wakeComplete found speed failed marginal metaOk bad readA readB) s = .next (s.leaves d)) ∧
      (d.vst = 0x0A → d.sup = 2 → d.power.seqUp = false → d.aon.lshEn = false → d.g oPackRole = 0 →
        (d.restore.fromRetain = true → metaOk = true → (∀ n < 8, (d.chan n).st = 3 → n ∉ failed) →
          exec (.wakeComplete found speed failed marginal metaOk bad readA readB) s = .next (s.leaves (((d.dramWake failed marginal).lunsWake found.luns).dramResume bad))) ∧
        (d.restore.fromRetain = true → metaOk = false → exec (.wakeComplete found speed failed marginal metaOk bad readA readB) s = .next (s.leaves
          (((((d.dramWake failed marginal).lunsWake found.luns).loseMachine).setRun {}).chooseSlot readA readB))) ∧
        (d.restore.fromRetain = false → exec (.wakeComplete found speed failed marginal metaOk bad readA readB) s = .next (s.leaves
          ((((d.dramBringUp found.chans speed failed).lunsWake found.luns).kennelWake).chooseSlot readA readB))))) ∧
    (∀ m, d.heldImage = some m →
      (d.vst = 0x0C → d.restore.readDone = false → s.Does (.restoreReadComplete []) fun e => e.restore.readDone = true ∧
        e.g oResidentBytes = ((List.range (min m.pfx (m.upTo 4))).filter fun i =>
          match m.item i with | some x => decide (x.step ≤ 2 ∨ x.id = 5) | none => false).length * 65536) ∧
      (d.vst = 0x0B → d.restore.readDone = true → exec .restoreRebuildComplete s = .next (s.leaves
        (((d.setVaultState d.armState).restoreResume m).armEval).heldCheck)) ∧
      (d.vst = 0x0C → d.restore.readDone = true → d.restore.hostIo = false → d.aon.perstN = true →
        exec .fetchHostAdmit s = .next (s.leaves ((d.restoreResume m).armEval).heldCheck)) ∧
      (∀ i ok latency, d.inVault = false → (d.segWanted m i = false → exec (.restoreSegmentInstalled i ok latency) s = .next (s.leaves d)) ∧
        (∀ f, d.segWanted m i = true → d.segInstall i ok = some f → ∃ g : Dev, exec (.restoreSegmentInstalled i ok latency) s = .next (s.leaves g.segKick) ∧
          g.g oFetchMissMax = min (2 ^ 32 - 1) (max (f.g oFetchMissMax) latency) ∧ g.mem.resid = f.mem.resid)) ∧
      (∀ ok, d.vst = 0x0C → d.restore.hostIo = true →
        ((∀ i < m.pfx, d.segWanted m i = false) → exec (.backgroundSegmentRestored ok) s = .next (s.leaves d.heldCheck)) ∧
        (∀ i f, (List.range m.pfx).find? (fun i => d.segWanted m i) = some i → d.segInstall i ok = some f →
          exec (.backgroundSegmentRestored ok) s = .next (s.leaves f.segKick)))) ∧
    (d.restore.held = none → exec .restoreRebuildComplete s = .next (s.leaves d) ∧ exec .fetchHostAdmit s = .next (s.leaves d) ∧
      (∀ l, exec (.restoreReadComplete l) s = .next (s.leaves d)) ∧ (∀ i ok n, exec (.restoreSegmentInstalled i ok n) s = .next (s.leaves d)) ∧
      ∀ ok, exec (.backgroundSegmentRestored ok) s = .next (s.leaves d)) ∧
    s.Does .configRetryLimitExpire (fun e => e.restore.configRetryOver = true) ∧
    (s.TakesWrites →
      (∀ v < 65536, (4096 ≤ v → exec (.lostRangeRelease v) s = .next (s.leaves (d.refuses 3 uChip))) ∧
        (v < 4096 → ∃ f : Dev, exec (.lostRangeRelease v) s = .next (s.leaves (f.segKick.accepts oLostRangeRelease)) ∧
          f.restore.lost = d.restore.lost.filter (·.vol ≠ v) ∧ ∀ x ∈ f.cache.versions, x.vol = v → x.poison = false)) ∧
      (d.seqBusy = true ∨ d.kennel.formatting = true → exec .kennelFormat s = .next (s.leaves (d.refuses 4 uVault)) ∧
        exec .kennelFormatForce s = .next (s.leaves (d.refuses 4 uVault))) ∧
      (d.seqBusy = false → d.kennel.formatting = false →
        (slotState d.kennel.a = 4 → d.keyOk = true → exec .kennelFormat s = .next (s.leaves (d.refuses 4 uVault))) ∧
        (slotState d.kennel.a ≤ 2 → slotState d.kennel.b ≤ 2 → d.restore.held = none → s.Does .kennelFormat fun e => e.kennel.formatting = true ∧
          e.kennel.a.image = none ∧ e.kennel.b.image = none ∧ e.g oDrillValid = 0 ∧ e.Answers 4 0 0xFFFF) ∧
        (d.restore.held = none → s.Does .kennelFormatForce fun e => e.kennel.formatting = true ∧ e.kennel.a.image = none ∧ e.kennel.b.image = none ∧
          e.g oDrillValid = 0 ∧ e.Answers 4 0 0xFFFF))) ∧
    (∀ found, (d.kennel.formatting = false → exec (.kennelFormatComplete found) s = .next (s.leaves d)) ∧
      (d.kennel.formatting = true → d.inVault = false → d.sup = 2 → d.vst ≠ 0x0A → found ≠ [] → s.Does (.kennelFormatComplete found) fun e =>
        e.kennel.valid = true ∧ e.kennel.formatting = false ∧ e.kennel.gen = d.kennel.gen + 1 ∧ e.kennel.a = {} ∧ e.kennel.b = {} ∧ e.kennel.key.isSome = true ∧
        e.g oDrillValid = 0)) ∧
    (∀ n block, n < 256 → (n ∉ d.kennel.map ∨ d.inVault = true → ∀ b, exec (.flashBlockFail n block b) s = .next (s.leaves d)) ∧
      (n ∈ d.kennel.map → d.inVault = false → (s.Does (.flashBlockFail n block true) fun e => n ∉ e.kennel.map ∧ (e.lunOf n).failed = true ∧ e.Raised (496 + n / 16) ∧ e.Raised 26) ∧
        (∀ b, block < d.kennel.reserveBase → (∀ p ∈ (d.lunOf n).remap, p.1 ≠ block ∧ p.2 ≠ block) → d.reserveFree n = some b → ∀ more : Prop,
          (more ↔ ∃ c, c ≠ b ∧ d.kennel.reserveBase ≤ c ∧ c < d.kennel.reserveBase + d.kennel.reserveBlocks ∧
            c ∉ (d.lunOf n).remap.map (·.2) ++ (d.lunOf n).relUsed ++ (d.lunOf n).bad) →
          (s.Does (.flashBlockFail n block false) fun e => e.Raised (496 + n / 16) ∧ block ∈ (e.lunOf n).bad ∧ (e.lunOf n).remap.head? = some (block, b) ∧
            e.kennel.gen = d.kennel.gen + 1 ∧ (more → e.kennel.map = d.kennel.map) ∧ (¬ more → n ∉ e.kennel.map ∧ e.Raised 26)))) ) ∧
    (∀ i < 2, (d.inVault = true ∨ d.kennel.formatting = true ∨ (d.slotK i).erasing = false → exec (.slotEraseComplete i) s = .next (s.leaves d)) ∧
      (d.inVault = false → d.kennel.formatting = false → (d.slotK i).erasing = true → s.Does (.slotEraseComplete i) fun e => (e.slotK i).erasing = false ∧ (e.slotK i).corrupt = false)) ∧
    (d.inVault = false → d.energy.drill.due = false → s.Does .scratchEraseComplete fun e => e.kennel.scratchErase = false) ∧
    ((bit (d.g oWriteThroughCause) 2 = d.vaultTarget.isNone → exec .slotUsabilityCheck s = .next (s.leaves d)) ∧
      (bit (d.g oWriteThroughCause) 2 ≠ d.vaultTarget.isNone → ∃ f : Dev, exec .slotUsabilityCheck s = .next (s.leaves f.armEval) ∧
        bit (f.g oWriteThroughCause) 2 = d.vaultTarget.isNone))

/-- A drive that appears at a present port of a serving device puts the port in TRAINING; reaching L0 gives speed and width and raises source 400 + n
exactly when they fall short. A port that does not reach L0 reads DOWN with source 336 + n raised, as does one whose drive is not ready (with no
source). A drive that does not fit leaves the port INCOMPATIBLE. A bound drive that is gone, or not bound again after its domain woke, is lost.
PortCommand is refused with NOT_PRESENT for an absent port and STATE_CONFLICT for a failed condition. REBUILD makes a MISSING STRIPE member ACTIVE at
once and any other REBUILDING, and the member becomes ACTIVE at the end; PREPARE_REMOVE, refused when a volume would fail, sets REMOVING and ends with
the drive's loss and a slot that was to be switched off requested; POWER_ON and POWER_OFF are demand requests at the master. (R172, R278, R282, R283,
R284, R286, R288, R289, R290, R291, 12_downstream_ports.md) -/
def Obligations.DownstreamPortsFollowTheirRules : Prop :=
  ∀ (s : State) (d : Dev) (n : Nat) (p : Port), s.Powered → d = s.dev → n < 64 → p = d.port n →
    ((p.present = true ∨ d.present (uPort n) = false ∨ (2 ≤ d.vst ∧ d.vst ≤ 6) → exec (.drivePresenceDetect n true) s = .next (s.leaves d)) ∧
      (p.present = false → d.present (uPort n) = true → (d.vst < 2 ∨ 6 < d.vst) → d.sup = 2 → d.pathOn (uPort n) = true →
        (d.g oPackRole = 2 ∨ d.portSlot n = 0xFFFF ∨ d.packSlotState (d.portSlot n) = 2) →
        exec (.drivePresenceDetect n true) s = .next (s.leaves (d.setPort n { p with present := true, state := 1, speed := 0, width := 0 }))) ∧
      (p.present = true → d.present (uPort n) = true → (d.vst < 2 ∨ 6 < d.vst) →
        (p.state = 2 ∨ p.again = true → s.Does (.drivePresenceDetect n false) fun e => (e.port n).present = false ∧ (e.port n).offAfter = none) ∧
        (p.state ≠ 2 → p.again = false → p.state ≠ 5 → exec (.drivePresenceDetect n false) s = .next (s.leaves
          (d.setPort n { p with present := false, state := 0, removing := 0, speed := 0, width := 0, again := false }))))) ∧
    (∀ speed width ds dw, 0 < speed → speed < 256 → width < 256 → ds < 256 → dw < 256 →
      (p.state ≠ 1 ∨ p.speed ≠ 0 ∨ d.pathOn (uPort n) = false → exec (.portLinkUp n speed width ds dw) s = .next (s.leaves d)) ∧
      (p.state = 1 → p.speed = 0 → d.pathOn (uPort n) = true → s.Does (.portLinkUp n speed width ds dw) fun e =>
        (e.port n).speed = speed ∧ (e.port n).width = width ∧ (e.port n).state = 1 ∧
        (if speed < min (d.maxSpeed n) ds ∨ width < min (d.groupWidth n) dw then e.Raised (400 + n)
         else e.faults.live.testBit (400 + n) = false ∧ e.faultQ = d.faultQ))) ∧
    (if p.state = 1 ∧ p.speed = 0 ∧ p.present = true then s.Does (.portTrainTimeout n) fun e => (e.port n).state = 4 ∧ e.Raised (336 + n)
     else exec (.portTrainTimeout n) s = .next (s.leaves d)) ∧
    (if p.state = 1 ∧ p.speed ≠ 0 then s.Does (.driveReadyTimeout n) fun e => (e.port n).state = 4 ∧ (e.port n).speed = 0 ∧ e.faultQ = d.faultQ
     else exec (.driveReadyTimeout n) s = .next (s.leaves d)) ∧
    (∀ fits serial vwc ns, (p.state ≠ 1 ∨ p.speed = 0 → exec (.driveBind n fits serial vwc ns) s = .next (s.leaves d)) ∧
      (p.state = 1 → p.speed ≠ 0 → exec (.driveBind n false serial vwc ns) s = .next (s.leaves (d.setPort n { p with state := 3 })) ∧
        ∃ f g : Dev, exec (.driveBind n true serial vwc ns) s = .next (s.leaves g.rebuildStop.throughKick.readKick) ∧ (f.port n).state = 2 ∧
          (f.port n).serial = serial % 2 ^ 160 ∧ (f.port n).ns = ns.filter (fun x => x.lba = 512 ∨ x.lba = 4096) ∧
          g = (f.membersOn n).foldl (fun d m => if xState (d.vol m.1) m.2 ≠ 1 ∧ d.extentOk m.1 m.2 = false then d.setMember m.1 m.2 1 else d) f)) ∧
    (p.state ≠ 2 → p.state ≠ 5 → exec (.driveLost n) s = .next (s.leaves d)) ∧
    (p.state = 2 → d.pathOn (uPort n) = true → ∃ f : Dev, f = (d.driveLost n).throughKick.readKick ∧
      exec (.driveLost n) s = .next (s.leaves (f.setPort n { f.port n with removing := 0, offAfter := none }))) ∧
    (if p.again = true ∧ d.pathOn (uPort n) = true then exec (.portReadyTimeout n) s = .next (s.leaves (d.driveLost n).throughKick.readKick)
     else exec (.portReadyTimeout n) s = .next (s.leaves d)) ∧
    (s.TakesWrites →
      (d.present (uPort n) = false → ∀ c ∈ ([.rebuild n, .prepareRemove n, .prepareRemoveForce n] : List Instr), exec c s = .next (s.leaves (d.refuses 1 0xFFFF))) ∧
      (d.present (uPort n) = true → ∀ l, l = (d.membersOn n).filter (fun m => xState (d.vol m.1) m.2 = 1) →
        (p.state ≠ 2 ∨ (∃ m ∈ l, d.extentOk m.1 m.2 = false) → exec (.rebuild n) s = .next (s.leaves (d.refuses 4 uDown))) ∧
        (p.state = 2 → (∀ m ∈ l, d.extentOk m.1 m.2 = true) →
          (l = [] → exec (.rebuild n) s = .next (s.leaves (d.throughKick.readKick.accepts oPortCommand))) ∧
          (∀ v i, l = [(v, i)] →
            (vLayout (d.vol v) = 1 → exec (.rebuild n) s = .next (s.leaves ((d.setMember v i 0).throughKick.readKick.accepts oPortCommand))) ∧
            (vLayout (d.vol v) ≠ 1 → ∃ f : Dev, exec (.rebuild n) s = .next (s.leaves ((f.setMember v i 2).throughKick.readKick.accepts oPortCommand)) ∧
              f.ports.rebuilds = d.ports.rebuilds ++ [⟨v, i, 0⟩] ∧ f.cache = d.cache)))) ∧
      (d.present (uPort n) = true →
        (d.wouldFail n = true → exec (.prepareRemove n) s = .next (s.leaves (d.refuses 4 uDown))) ∧
        (∀ c ∈ ([.prepareRemove n, .prepareRemoveForce n] : List Instr), c = .prepareRemoveForce n ∨ d.wouldFail n = false →
          (p.state = 0 ∨ p.state = 5 → exec c s = .next (s.leaves (d.accepts oPortCommand))) ∧
          (p.state ≠ 0 → p.state ≠ 5 → exec c s = .next (s.leaves ((d.setPort n { p with state := 5, removing := 1 }).accepts oPortCommand)))))) ∧
    (if p.state = 5 ∧ p.removing = 1 ∧ d.inVault = false then
      ∃ f : Dev, f = (d.driveLost n 5 false).throughKick.readKick ∧
        ∃ g : Dev, g = f.setPort n { f.port n with removing := 2, offAfter := none } ∧
          exec (.prepareRemoveDrainEnd n) s = .next (s.leaves (match p.offAfter with | some slot => g.slotRequest slot 2 true | none => g))
     else exec (.prepareRemoveDrainEnd n) s = .next (s.leaves d)) ∧
    (∀ v < 4096, ∀ i < 64, if (∃ r ∈ d.ports.rebuilds, r.vol = v ∧ r.pos = i) ∧ d.memberBound v i = true then
        ∃ f : Dev, exec (.rebuildComplete v i) s = .next (s.leaves (f.setMember v i 0)) ∧ f.cache = d.cache ∧ ∀ r ∈ f.ports.rebuilds, r.vol = v → r.pos ≠ i
      else exec (.rebuildComplete v i) s = .next (s.leaves d)) ∧
    (s.TakesWrites → ∀ slot < 128,
      (d.g oPackRole ≠ 1 → exec (.powerOn slot) s = .next (s.leaves (d.refuses 4 uDown)) ∧ exec (.powerOff slot) s = .next (s.leaves (d.refuses 4 uDown))) ∧
      (d.g oPackRole = 1 → s.Does (.powerOn slot) (fun e => e.pack.slotReqs = d.pack.slotReqs ++ [⟨slot, 1, true, 0, 0⟩] ∧ e.Answers 4 0 0xFFFF) ∧
        ((∀ m < 64, d.portSlot m = slot → (d.port m).state ≠ 2) → s.Does (.powerOff slot) fun e =>
          e.pack.slotReqs = d.pack.slotReqs ++ [⟨slot, 2, true, 0, 0⟩] ∧ e.Answers 4 0 0xFFFF)))

/-- A command opportunity of a subchannel that may not issue changes nothing; a full retry buffer issues nothing; otherwise a refresh at its deadline,
then a neighbour refresh that is due, then the request chosen by Table 13.5 goes: the one chosen waits in a queue, its bank is not held, and no
eligible read precedes it; an activate opens its row, a precharge closes it, and a column command takes it from its queue, writing a corrected read
back. The activate table clears. An MR4 reading is kept and asks for retraining when it drifted from the training or over a self-refresh. An alert
closes the rank's rows, counts, and replays the retry buffer in order; a fourth replay stops the subchannel and raises source 472 + n. A self-refresh
exit puts the channel in service, clearing the tables after 32 ms. Retraining records its tick and temperature, keeps a last good setting with source
480 + n, or quarantines. QUARANTINE and RETRAIN are refused as R315 says; a quarantine raises source 488 + n and drops the CLEAN frames and the copies
there; the rescue's end makes the channel QUARANTINED. (R295, R301, R304, R306, R307, R308, R309, R310, R311, R312, R315, 13_dram_controller.md) -/
def Obligations.DramChannelsFollowTheirRules : Prop :=
  ∀ (s : State) (d : Dev), s.Powered → d = s.dev →
    (∀ i held passed must res, i < 16 → ∀ (x : SubChan) (f : Dev), x = d.subch i → f = d.setSub i { x with retry := x.retry.drop passed } →
      (((d.chan (i / 2)).st ≠ 2 ∧ (d.chan (i / 2)).st ≠ 4) ∨ d.domSt (uChan (i / 2)) = 1 ∨ x.stopped = true →
        exec (.dramCommandIssue i held passed must res) s = .next (s.leaves d)) ∧
      ((d.chan (i / 2)).st = 2 ∨ (d.chan (i / 2)).st = 4 → d.domSt (uChan (i / 2)) ≠ 1 → x.stopped = false →
        (64 ≤ (x.retry.drop passed).length → exec (.dramCommandIssue i held passed must res) s = .next (s.leaves f)) ∧
        ((x.retry.drop passed).length < 64 →
          (∀ r b, must = some (6, r, b) → (∀ g < 8, (x.bank (r * 32 + (g * 4 + b % 4))).openRow = none) → s.Does (.dramCommandIssue i held passed must res) fun e =>
            e.out = d.out ++ [⟨.dram, [i / 2, i % 2, 6, r * 32 + b % 4, 0, 0], []⟩]) ∧
          (∀ r l, must = none → x.due = r :: l → r.rank * 32 + r.bank ∉ held → (x.bank (r.rank * 32 + r.bank)).openRow = none →
            s.Does (.dramCommandIssue i held passed must res) fun e => (e.subch i).due = l ∧
              e.out = d.out ++ [⟨.dram, [i / 2, i % 2, 8, r.rank * 32 + r.bank, r.row, 0], []⟩] ∧
              e.gu (uChan (i / 2)) oNeighbourRefreshes = min (2 ^ 64 - 1) (d.gu (uChan (i / 2)) oNeighbourRefreshes + 1)) ∧
          (must = none → x.due = [] → (f.dramPick i held = none → exec (.dramCommandIssue i held passed must res) s = .next (s.leaves f)) ∧
            (∀ q, f.dramPick i held = some q →
              (q ∈ x.reads ∨ q ∈ x.writes) ∧ q.key ∉ held ∧ (∀ r ∈ x.reads, r.key ∉ held → (f.subch i).free r = true → ¬ f.dramKey (f.subch i) r < f.dramKey (f.subch i) q) ∧
              ((x.bank q.key).openRow = none → s.Does (.dramCommandIssue i held passed must res) fun e => ((e.subch i).bank q.key).openRow = some q.row ∧
                e.out = d.out ++ [⟨.dram, [i / 2, i % 2, 0, q.key, q.row, 0], []⟩] ∧ (e.subch i).reads = x.reads ∧ (e.subch i).writes = x.writes) ∧
              (∀ r, (x.bank q.key).openRow = some r → r ≠ q.row → s.Does (.dramCommandIssue i held passed must res) fun e =>
                ((e.subch i).bank q.key).openRow = none ∧ e.out = d.out ++ [⟨.dram, [i / 2, i % 2, 5, q.key, 0, 0], []⟩] ∧ (e.subch i).reads = x.reads) ∧
              ((x.bank q.key).openRow = some q.row → ∃ g : Dev, exec (.dramCommandIssue i held passed must res) s = .next (s.leaves (g.dramAdmit i)) ∧
                (g.subch i).reads = x.reads.filter (·.id ≠ q.id) ∧ (g.subch i).writes = x.writes.filter (·.id ≠ q.id) ∧
                (q.write = false → res = 2 → g.Raised (464 + i / 2)) ∧
                (q.write = false → res = 1 → (⟨.dram, [i / 2, i % 2, 12, q.key, q.row, q.col], []⟩ : Output) ∈ g.out))))))) ∧
    s.Does .activateTableClear (fun e => ∀ i, (e.subch i).acts = []) ∧
    (∀ n < 8, ∀ t : Int, ∀ c : Chan, c = d.chan n →
      (d.serving n = false ∨ c.st = 3 → exec (.mr4Read n t) s = .next (s.leaves d)) ∧
      (d.serving n = true → c.st ≠ 3 → s.Does (.mr4Read n t) fun e => (e.chan n).temp = t ∧ (e.chan n).st = c.st ∧
        (e.chan n).srTemp = none ∧
        ((e.chan n).retrain = true ↔ c.retrain = true ∨ ∃ u : Int, (u = c.trainTemp ∨ c.srTemp = some u) ∧
          ((d.g oRetrainDrift : Int) * 10 ≤ t - u ∨ (d.g oRetrainDrift : Int) * 10 ≤ u - t)))) ∧
    (∀ i rank, i < 16 → (d.serving (i / 2) = false ∨ (d.subch i).stopped = true → exec (.dramAlert i rank) s = .next (s.leaves d)) ∧
      (d.serving (i / 2) = true → (d.subch i).stopped = false →
        ((∀ c ∈ (d.subch i).retry, c.replays < 3) → s.Does (.dramAlert i rank) fun e =>
          e.gu (uChan (i / 2)) oReplays = min (2 ^ 32 - 1) (d.gu (uChan (i / 2)) oReplays + 1) ∧ (∀ k, k / 32 = rank → ((e.subch i).bank k).openRow = none) ∧
          (e.subch i).retry = (d.subch i).retry.map (fun c => { c with replays := c.replays + 1 }) ∧
          e.out = d.out ++ (d.subch i).retry.map fun c => ⟨.dram, [i / 2, i % 2, 11, c.req.key, c.req.row, c.req.col], []⟩) ∧
        ((∃ c ∈ (d.subch i).retry, 3 ≤ c.replays) → s.Does (.dramAlert i rank) fun e => (e.subch i).stopped = true ∧ e.Raised (472 + i / 2)))) ∧
    (∀ n < 8, ((d.chan n).st ≠ 3 ∨ d.domSt (uChan n) ≠ 3 → exec (.selfRefreshExit n) s = .next (s.leaves d)) ∧
      ((d.chan n).st = 3 → d.domSt (uChan n) = 3 → ∃ f : Dev, exec (.selfRefreshExit n) s = .next (s.leaves (f.domainOn (uChan n))) ∧
        (f.chan n).st = 2 ∧ (f.chan n).srSince = none ∧ f.out = d.out ++ [⟨.dram, [n, 0, 10, 0, 0, 0], []⟩] ∧
        ∀ t, (d.chan n).srSince = some t → (t + 32000 ≤ d.now → (f.subch (2 * n)).acts = [] ∧ (f.subch (2 * n + 1)).acts = []) ∧
          (d.now < t + 32000 → ∀ i, f.subch i = d.subch i))) ∧
    (∀ n outcome t, n < 8 → ∀ c : Chan, c = d.chan n →
      (c.st ≠ 2 ∨ d.inVault = true ∨ d.domSt (uChan n) ≠ 0 ∨ (c.retrain = false ∧ d.now < c.trained + d.g oRetrainInterval * 1000000) →
        exec (.retrainDue n outcome t) s = .next (s.leaves d)) ∧
      (c.st = 2 → d.inVault = false → d.domSt (uChan n) = 0 → c.retrain = true ∨ c.trained + d.g oRetrainInterval * 1000000 ≤ d.now →
        (outcome < 2 → s.Does (.retrainDue n outcome t) fun e => (e.chan n).retrain = false ∧ (e.chan n).trained = d.now ∧ (e.chan n).trainTemp = t ∧ (e.chan n).st = 2 ∧
          e.gu (uChan n) oRetrains = min (2 ^ 32 - 1) (d.gu (uChan n) oRetrains + 1) ∧ (outcome = 1 → e.Raised (480 + n)) ∧ (outcome = 0 → e.faultQ = d.faultQ)) ∧
        (2 ≤ outcome → exec (.retrainDue n outcome t) s = .next (s.leaves ((d.incU (uChan n) oRetrains).quarantine n))))) ∧
    (s.TakesWrites → ∀ n < 8, ∀ c : Chan, c = d.chan n →
      (c.st = 0 ∨ c.st = 4 ∨ c.st = 5 → exec (.channelQuarantine n) s = .next (s.leaves (d.refuses 4 uMem)) ∧
        exec (.channelRetrain n) s = .next (s.leaves (d.refuses 4 uMem))) ∧
      (d.chansIn = [n] → exec (.channelQuarantine n) s = .next (s.leaves (d.refuses 4 uMem))) ∧
      (c.st ≠ 0 → c.st ≠ 4 → c.st ≠ 5 →
        exec (.channelRetrain n) s = .next (s.leaves ((d.setChan n { c with retrain := true }).accepts oChannelCommand)) ∧
        (d.chansIn ≠ [n] → c.populated = true → ∃ f g : Dev, g = f.mirrorCheck ∧
          exec (.channelQuarantine n) s = .next (s.leaves (Dev.accepts (if g.chanOut ((n + 4) % 8) then g.fault 8 else g) oChannelCommand)) ∧
          (f.chan n).st = 4 ∧ f.Raised (488 + n) ∧ ∀ v ∈ f.cache.versions, ¬ (v.st = 1 ∧ frameChan v.frame = n) ∧ (frameChan v.frame = n → v.copy = none) ∧
            ∀ k, v.copy = some k → frameChan k ≠ n))) ∧
    (∀ n bad badPages, n < 8 → ((d.chan n).st ≠ 4 ∨ d.inVault = true → exec (.quarantineRescueComplete n bad badPages) s = .next (s.leaves d)) ∧
      ((d.chan n).st = 4 → d.inVault = false →
        ((d.chansIn.map d.poolFree).sum < ((d.versIn n).filter fun v => frameChan v.frame = n ∧ v.copy.isNone).length →
          exec (.quarantineRescueComplete n bad badPages) s = .next (s.leaves d)) ∧
        (((d.versIn n).filter fun v => frameChan v.frame = n ∧ v.copy.isNone).length ≤ (d.chansIn.map d.poolFree).sum →
          ∃ f g : Dev, (f.chan n).st = 5 ∧ f.mem.tlb = [] ∧ g = f.mirrorCheck.recompute ∧ exec (.quarantineRescueComplete n bad badPages) s = .next (s.leaves
            (((g.liveInsts.filter fun i => g.instState i = 1).foldl (fun d i => d.smartWarn i 4) g).rejudge.throughKick)))))

/-- ON at a unit locked off is refused; at one that is RET or OFF under ancestors that are ON it queues a scheduled wake. RET and OFF are refused where
the kind lacks the state, stop a unit that does not refuse, and otherwise are refused with that unit as refuser, EntryAborts and LastRefuser; a group
goes as a whole or rolls back. An entry completes once the children have settled. A wake begins only when the bucket holds its charge, the first by
class. A domain that is ready is ON and its stalled accesses are answered. A transaction whose initiator is absent does nothing; any other meets:
isolated, address error, domain locked, served, refused in a vault or after a halt, or stalled with a demand wake. A lock of an OFF unit answers what
waits there. Pads are released only when ON. The supervisor enters RET under R355, wakes on its address or a wake event, and SCL is released after an
overrun. (R341, R344, R345, R347, R348, R349, R350, R351, R354, R355, R356, 15_power_domains.md) -/
def Obligations.PowerDomainsFollowTheirRules : Prop :=
  ∀ (s : State) (d : Dev), s.Powered → d = s.dev →
    (s.TakesWrites → ∀ u mute, u < 65536 → d.present u = true → isGroup u = false → hasDomain u = true →
      (d.lockedOff u = true → exec (.domainRequestOn u) s = .next (s.leaves (d.refuses 4 u))) ∧
      (d.lockedOff u = false → d.parentsOn u = true →
        (d.domSt u = 0 → exec (.domainRequestOn u) s = .next (s.leaves (((d.setDom u { d.dom u with manager := false }).su u oDomainRequest 0).accepts oDomainRequest))) ∧
        ((d.domSt u = 1 ∨ d.domSt u = 2) → (∀ r ∈ d.doms.queue, r.unit ≠ u) → s.Does (.domainRequestOn u) fun e =>
          e.doms.queue = d.doms.queue ++ [⟨u, 3, d.now⟩] ∧ e.domSt u = d.domSt u ∧ (e.dom u).manager = true ∧ e.gu u oDomainRequest = 0 ∧ e.Answers 4 0 0xFFFF)) ∧
      (∀ c st, (c = .domainRequestRet u mute ∧ st = 1) ∨ (c = .domainRequestOff u mute ∧ st = 2) →
        (st ∉ domainStates u → exec c s = .next (s.leaves (d.refuses 3 u))) ∧
        (st ∈ domainStates u → d.domSt u = 0 →
          (d.refusesEntry u st = false → u ∉ mute → ∃ f : Dev, exec c s = .next (s.leaves ((f.su u oDomainRequest st).accepts oDomainRequest)) ∧
            f.domSt u = 4 ∧ (f.dom u).entry = some st ∧ f.dict = (d.stopUnit u 0x01).dict) ∧
          (d.refusesEntry u st = true ∨ u ∈ mute → exec c s = .next (s.leaves
            ((((d.incU u oEntryAborts).su u oLastRefuser u).record 0x110 0 u u st 0 0).refuses 4 u))))) ∧
      (2 ∈ domainStates u → d.domSt u = 2 →
        ((d.dom u).stalled = [] → exec (.domainLock u mute) s = .next (s.leaves ((if d.gu u oDomainLock = 1 then d else d.su u oDomainLock 1).accepts oDomainLock))) ∧
        ((d.dom u).stalled ≠ [] → s.Does (.domainLock u mute) fun e => e.gu u oDomainLock = 1 ∧ (e.dom u).stalled = [] ∧
          (∀ t ∈ (d.dom u).stalled, (⟨.bus, [u, 3, tagIf (t.acc ≠ 2) t.tag], []⟩ : Output) ∈ e.out) ∧
          e.gu u oLockedRefusals = min (2 ^ 32 - 1) (d.gu u oLockedRefusals + (d.dom u).stalled.length))) ∧
      (2 ∉ domainStates u → exec (.domainLock u mute) s = .next (s.leaves (d.refuses 4 u))) ∧
      (if d.domSt u = 0 then exec (.padRelease u) s = .next (s.leaves ((d.setPads (d.doms.padHeld.filter (· ≠ u))).accepts oPadRelease))
       else exec (.padRelease u) s = .next (s.leaves (d.refuses 4 u)))) ∧
    (s.TakesWrites → ∀ u mute, (u = uChip ∨ u = uDown ∨ ∃ q < 4, u = uQuad q) → ∀ c st, (c = .domainRequestRet u mute ∧ st = 1) ∨ (c = .domainRequestOff u mute ∧ st = 2) →
      (∀ l f, d.queryEntry st mute (downOrder u) [] = .stopped l f → exec c s = .next (s.leaves ((f.su u oDomainRequest st).accepts oDomainRequest))) ∧
      (∀ r l f, d.queryEntry st mute (downOrder u) [] = .refused r l f → ∃ g : Dev,
        g = l.reverse.foldl (fun d x => (d.setDom x { d.dom x with st := 0, entry := none }).resumeUnit x) f ∧
        exec c s = .next (s.leaves (Dev.refuses (((g.incU u oEntryAborts).su u oLastRefuser r).record 0x110 0 r u st 0 0) 4 r)))) ∧
    (∀ u < 65536, ((d.domSt u ≠ 4 ∨ (d.dom u).entry = none ∨ d.kidsSettled u = false) → exec (.domainEntryComplete u) s = .next (s.leaves d)) ∧
      (∀ st, d.domSt u = 4 → (d.dom u).entry = some st → d.kidsSettled u = true → (d.dom u).later = none →
        exec (.domainEntryComplete u) s = .next (s.leaves (d.enterState u st)) ∧
        (0x05 ≤ kindOf u → kindOf u ≤ 0x09 → (d.enterState u st).domSt u = st ∧ ((d.enterState u st).dom u).entry = none)) ∧
      ((d.domSt u ≠ 3 ∨ kindOf u = 0x11) → exec (.domainReady u) s = .next (s.leaves d)) ∧
      (d.domSt u = 3 → (kindOf u = 0x04 ∨ kindOf u = 0x0B ∨ kindOf u = 0x0A) → (d.dom u).later = none → s.Does (.domainReady u) fun e =>
        e.domSt u = 0 ∧ (e.dom u).stalled = [] ∧ (∀ t ∈ (d.dom u).stalled, (⟨.bus, [u, 0, t.tag], []⟩ : Output) ∈ e.out) ∧
        ∀ t, (d.dom u).arr = some t → e.gu u oWakeStallMax = max (d.gu u oWakeStallMax) (min (2 ^ 32 - 1) (d.now - t)))) ∧
    ((d.doms.queue = [] → exec .inrushGrant s = .next (s.leaves d)) ∧
      (∀ r, headWake d.doms.queue = some r → r ∈ d.doms.queue ∧ (∀ x ∈ d.doms.queue, r.cls ≤ x.cls) ∧
        ((d.vst < 2 ∨ 6 < d.vst) → d.lockedOff r.unit = false → d.domSt r.unit = 1 ∨ d.domSt r.unit = 2 → d.parentsOn r.unit = true →
          (d.refill.doms.level < d.wakeCharge r.unit → exec .inrushGrant s = .next (s.leaves d.refill)) ∧
          (d.wakeCharge r.unit ≤ d.refill.doms.level → s.Does .inrushGrant fun e => e.domSt r.unit = 3 ∧ (e.dom r.unit).wakeFrom = d.domSt r.unit ∧
            (e.dom r.unit).since = d.now ∧ e.doms.level = d.refill.doms.level - d.wakeCharge r.unit ∧ e.doms.queue = d.doms.queue.filter (·.unit ≠ r.unit) ∧
            (r.arrival < d.now → e.g oInrushWaits = min (2 ^ 32 - 1) (d.g oInrushWaits + 1)))))) ∧
    (∀ u tag acc addr data, u < 65536 → d.unitGone (tag / 2 ^ 16 % 2 ^ 16) = true → exec (.transactionArrival u tag acc addr data) s = .next (s.leaves d)) ∧
    (∀ u tag acc addr data, u < 65536 → d.unitGone (tag / 2 ^ 16 % 2 ^ 16) = false → d.faults.armed = [] → tag / 2 ^ 40 % 4 ≠ 3 →
      ((kindOf u = 0x10 ∨ kindOf u = 0x11) → d.present u = true → d.isolated u = false → d.paOk addr = false → s.Does (.transactionArrival u tag acc addr data) fun e =>
        e.Raised 9 ∧ e.out = d.out ++ [⟨.bus, [u, 4, tagPoison tag], []⟩]) ∧
      (kindOf u ≠ 0x10 → kindOf u ≠ 0x11 →
        (d.present u = false → exec (.transactionArrival u tag acc addr data) s = .next (s.leaves d)) ∧
        (d.present u = true → d.isolated u = true → exec (.transactionArrival u tag acc addr data) s = .next (s.leaves (d.emit .bus [u, 1, tag]))) ∧
        (d.present u = true → d.isolated u = false →
          (d.lockedOff u = true → tag.testBit 0 = false → exec (.transactionArrival u tag acc addr data) s = .next (s.leaves
            ((d.incU u oLockedRefusals).emit .bus [u, 3, tagIf (acc ≠ 2) tag]))) ∧
          (d.lockedOff u = false →
            (d.pathOn u = true → exec (.transactionArrival u tag acc addr data) s = .next (s.leaves (d.emit .bus [u, 0, tag]))) ∧
            (d.pathOn u = false → tag.testBit 0 = false → 2 ≤ d.vst → d.vst ≤ 6 → exec (.transactionArrival u tag acc addr data) s = .next (s.leaves
              ((d.inc oRefusedWakes).emit .bus [u, 2, tag]))) ∧
            (d.pathOn u = false → tag.testBit 0 = false → (d.vst < 2 ∨ 6 < d.vst) → d.halted = true → exec (.transactionArrival u tag acc addr data) s = .next (s.leaves
              (d.emit .bus [u, 2, tag]))) ∧
            (d.pathOn u = false → tag.testBit 0 = false → (d.vst < 2 ∨ 6 < d.vst) → d.halted = false → hasDomain u = true → d.domSt u = 1 ∨ d.domSt u = 2 → d.parentsOn u = true →
              (d.dom u).later = none → (∀ r ∈ d.doms.queue, r.unit ≠ u) → s.Does (.transactionArrival u tag acc addr data) fun e =>
                e.doms.queue = d.doms.queue ++ [⟨u, 2, d.now⟩] ∧ (e.dom u).stalled = (d.dom u).stalled ++ [⟨tag, d.now, acc, addr, data⟩] ∧
                e.gu u oDemandWakes = min (2 ^ 64 - 1) (d.gu u oDemandWakes + 1) ∧ e.out = d.out))))) ∧
    (if d.domSt uSup = 0 ∧ d.supMayRet = true then s.Does .supervisorIdleExpire fun e => e.domSt uSup = 1 ∧ e.doms.supRet = true
     else exec .supervisorIdleExpire s = .next (s.leaves d)) ∧
    (d.doms.supRet = false → (∀ b a, exec (.addressMatchWake b a) s = .next (s.leaves d)) ∧ exec .supervisorWakeEvent s = .next (s.leaves d)) ∧
    (d.doms.supRet = true → d.domSt uSup = 1 →
      (∀ a : BitVec 7, (a.toNat = d.doms.i3cAddr.getD (d.ge oI3cStaticAddress) → s.Does (.addressMatchWake true a) fun e => e.domSt uSup = 3 ∧
          (e.dom uSup).wakeFrom = 1 ∧ e.g oAddressWakes = min (2 ^ 32 - 1) (d.g oAddressWakes + 1) ∧ e.out = d.out ++ [⟨.i3c, [1, a.toNat, 0], []⟩]) ∧
        (a.toNat ≠ d.doms.i3cAddr.getD (d.ge oI3cStaticAddress) → exec (.addressMatchWake true a) s = .next (s.leaves d)) ∧
        (a.toNat = d.ge oSmbusAddress → s.Does (.addressMatchWake false a) fun e => e.domSt uSup = 3 ∧ e.doms.sclHold = some d.now ∧
          e.g oAddressWakes = min (2 ^ 32 - 1) (d.g oAddressWakes + 1) ∧ e.out = d.out ++ [⟨.i3c, [0, a.toNat, 1], []⟩]) ∧
        (a.toNat ≠ d.ge oSmbusAddress → exec (.addressMatchWake false a) s = .next (s.leaves d))) ∧
      exec .supervisorWakeEvent s = .next (s.leaves (d.setDom uSup { d.dom uSup with st := 3, wakeFrom := 1, since := d.now }))) ∧
    ((d.doms.sclHold = none → exec .stretchOverrun s = .next (s.leaves d)) ∧
      (d.doms.sclHold ≠ none → s.Does .stretchOverrun fun e => e.doms.sclHold = none ∧ e.g oStretchOverruns = min (2 ^ 16 - 1) (d.g oStretchOverruns + 1) ∧
        e.out = d.out ++ [⟨.i3c, [0, 0, 2], []⟩]))

/-- A frame is ignored while LSH_EN is low and counted in LeashErrors when it is not right. A master's cycle sends BEACON and polls every other roster
node; a node that misses a third poll leaves. A BEACON of a lower master makes this Thozu a member; POLL is answered under the frame's version and
Seq; a STATUS that answers the outstanding POLL joins its node; a newer GRANT of the master comes into force; SLOT_ACK settles its command; RESET acts
only from the master; DICT_REQ fragments are kept, answered empty and pulled; DICT_RSP fragments gather until Last and then go to the requester, or
TRANSPORT_TIMEOUT does. A takeover makes this Thozu master; grants expire to 0; a budget is computed only when every node was heard or in the third
cycle (R165), never gives out more than the bank holds, and raises source 29 when a Thozu does not fit; a slot command waits for its charge.
PackResetMember is the master's alone. (R158, R159, R160, R161, R162, R164, R166, R168, R170, R172, R175, 07_pack_and_leash.md) -/
def Obligations.PackAndLeashFollowTheirRules : Prop :=
  ∀ (s : State) (d : Dev), s.Powered → d = s.dev →
    (∀ (f : List Byte) (c : Instr) (typ : Nat) (cast : Bool), f.length ≤ 263 → (c, typ, cast) ∈ ([(.beacon f, 1, true), (.poll f, 2, false), (.status f, 3, false),
        (.grant f, 4, false), (.slotAck f, 6, false), (.leashReset f, 7, false), (.dictReq f, 8, false), (.dictRsp f, 9, false)] : List (Instr × Nat × Bool)) →
      (d.aon.lshEn = false → exec c s = .next (s.leaves d)) ∧
      (d.aon.lshEn = true → d.frameOk typ f cast = false → exec c s = .next (s.leaves (d.inc oLeashErrors)))) ∧
    ((d.isMaster = false → exec .leashCycle s = .next (s.leaves d) ∧ exec .budgetCompute s = .next (s.leaves d) ∧ exec .slotCmdSend s = .next (s.leaves d) ∧
        ∀ n < 16, exec (.pollMissed n) s = .next (s.leaves d)) ∧
      (d.isMaster = true → ∃ f e : Dev, exec .leashCycle s = .next (s.leaves e) ∧ f.pack.beaconTick = some f.now ∧
        (∃ rest, e.out = f.out ++ ⟨.leash, [1, 0xFF, f.pack.seq % 256], frameBytes (f.g oOpVersion) 1 0xFF f.own (f.pack.seq % 256) f.beaconPayload⟩ :: rest) ∧
        ∀ n < 16, bit (f.g oRoster) n = true → n ≠ f.own → ∃ o ∈ e.out, o.kind = .leash ∧ o.args.take 2 = [2, n])) ∧
    (∀ n < 16, ∀ x : Node, x = d.node n → (x.polled = none → exec (.pollMissed n) s = .next (s.leaves d)) ∧
      (d.isMaster = true → x.polled ≠ none →
        ((bit (d.g oRoster) n = false ∨ x.missed < 2) → exec (.pollMissed n) s = .next (s.leaves (d.setNode n { x with polled := none, missed := x.missed + 1 }))) ∧
        (bit (d.g oRoster) n = true → 2 ≤ x.missed → ∃ f : Dev, exec (.pollMissed n) s = .next (s.leaves f.budget) ∧ bit (f.g oRoster) n = false ∧ f.node n = {} ∧
          (n < 8 → f.pack.absents = d.pack.absents ++ [⟨n, d.lastGrant n, d.now⟩])))) ∧
    (∀ f : List Byte, f.length ≤ 263 → d.aon.lshEn = true → ∀ (b : Nat → Nat) (p : Nat → Nat → Nat) (src : Nat), b = frameAtByte f → p = framePay f → src = b 3 →
      (d.frameOk 1 f true = true → (7 < src ∨ src = d.own ∨ (d.isMaster = true ∧ d.own < src) → exec (.beacon f) s = .next (s.leaves d)) ∧
        (src ≤ 7 → src ≠ d.own → d.isMaster = false ∨ src < d.own → ∃ e : Dev, exec (.beacon f) s = .next (s.leaves e.recompute) ∧ e.g oPackRole = 2 ∧
          e.g oMasterAddress = src ∧ e.g oRoster = p 2 2 ∧ e.g oOpVersion = p 0 1 ∧ e.pack.beaconTick = some e.now ∧ e.pack.cycle = p 4 4 ∧ e.pack.waveDone = p 10 1 ∧
          e.pack.packVault = bit (p 1 1) 1)) ∧
      (d.frameOk 2 f false = true → s.Does (.poll f) fun e =>
        e.out = d.out ++ [⟨.leash, [3, src, b 4], frameBytes (b 0) 3 src d.own (b 4) d.statusPayload⟩] ∧ e.pack = d.pack) ∧
      (d.frameOk 3 f false = true →
        (d.isMaster = false ∨ 15 < src ∨ (d.node src).polled ≠ some (b 4) → exec (.status f) s = .next (s.leaves d)) ∧
        (d.isMaster = true → src ≤ 15 → (d.node src).polled = some (b 4) →
          (p 1 1 ≠ (if src < 8 then 1 else 2) → exec (.status f) s = .next (s.leaves (d.inc oLeashErrors))) ∧
          (p 1 1 = (if src < 8 then 1 else 2) → ∃ e : Dev, (exec (.status f) s = .next (s.leaves e) ∨ exec (.status f) s = .next (s.leaves e.budget)) ∧
            bit (e.g oRoster) src = true ∧ (e.node src).seen = true ∧ (e.node src).polled = none ∧ (e.node src).missed = 0 ∧ (e.node src).maxVersion = p 0 1 ∧
            (e.node src).kind = p 1 1))) ∧
      (d.frameOk 4 f false = true → ∀ step, step = (p 0 2 + 65536 - d.g oGrantSeq) % 65536 →
        (src ≠ d.g oMasterAddress ∨ d.isMaster = true ∨ (d.pack.hasGrant = true ∧ ¬ (0 < step ∧ step < 32768)) → exec (.grant f) s = .next (s.leaves d)) ∧
        (src = d.g oMasterAddress → d.isMaster = false → d.pack.hasGrant = false ∨ (0 < step ∧ step < 32768) → ∃ e : Dev,
          exec (.grant f) s = .next (s.leaves e.recompute) ∧ e.g oGrantSeq = p 0 2 ∧ e.g oGrantEnergy = p 4 4 ∧ e.g oGrantOffset = p 8 4 ∧ e.g oGrantCap = p 12 2 ∧
          e.g oGrantPower = p 16 4 ∧ e.pack.hasGrant = true ∧ e.pack.grantWave = p 2 1)) ∧
      (d.frameOk 6 f false = true →
        (d.isMaster = false ∨ src < 8 ∨ 16 ≤ p 0 1 → exec (.slotAck f) s = .next (s.leaves d)) ∧
        (∀ r, d.isMaster = true → 8 ≤ src → p 0 1 < 16 → (d.pack.slotReqs.find? fun r => r.sends ≠ 0 ∧ r.slot = 16 * (src - 8) + p 0 1 ∧ r.token = p 2 2) = some r →
          s.Does (.slotAck f) fun e => e.pack.slotReqs = d.pack.slotReqs.erase r ∧ bit e.pack.slotBad r.slot = false ∧
            (p 1 1 = 0 → r.action = 1 → bit (e.node src).slotOn (p 0 1) = true) ∧ (p 1 1 = 0 → r.action = 2 → bit (e.node src).slotOn (p 0 1) = false) ∧
            (p 1 1 = 2 → bit (e.node src).slotFault (p 0 1) = true) ∧ (p 1 1 = 1 → bit (e.node src).slotPresent (p 0 1) = false))) ∧
      (d.frameOk 7 f false = true → (src = d.g oMasterAddress → p 0 1 = 1 → exec (.leashReset f) s = .next (s.leaves d.packReset)) ∧
        (src ≠ d.g oMasterAddress ∨ p 0 1 ≠ 1 → exec (.leashReset f) s = .next (s.leaves d))) ∧
      (d.frameOk 8 f false = true → ∀ data, data = ((f.drop 6).take (b 5)).drop 2 →
        (src ≠ d.g oMasterAddress ∨ d.isMaster = true ∨ d.supAway = true → exec (.dictReq f) s = .next (s.leaves d)) ∧
        (src = d.g oMasterAddress → d.isMaster = false → d.supAway = false →
          (data ≠ [] → p 1 1 = 0 → s.Does (.dictReq f) fun e => e.pack.memMsg = some (p 0 1) ∧ e.pack.memFrags = data ∧ e.pack.memNext = 1 ∧ e.pack.memRsp = none ∧
            e.out = d.out ++ [⟨.leash, [9, src, b 4], frameBytes (b 0) 9 src d.own (b 4) (leBytes 1 (p 0 1) ++ leBytes 1 0)⟩]) ∧
          (∀ l, data = [] → d.pack.memMsg = some (p 0 1) → d.pack.memRsp = some l → 62 < l.length → s.Does (.dictReq f) fun e => e.pack.memRsp = some (l.drop 62) ∧
            e.pack.rspFrag = d.pack.rspFrag + 1 ∧ ∃ o, e.out = d.out ++ [o] ∧
              o.data = frameBytes (b 0) 9 src d.own (b 4) (leBytes 1 (p 0 1) ++ leBytes 1 (d.pack.rspFrag % 128) ++ l.take 62)))) ∧
      (d.frameOk 9 f false = true → ∀ data, data = ((f.drop 6).take (b 5)).drop 2 →
        (d.isMaster = false ∨ d.pack.fwd = [] → exec (.dictRsp f) s = .next (s.leaves d)) ∧
        (∀ x rest, d.isMaster = true → d.pack.fwd = x :: rest → x.node = src → x.msgId = p 0 1 → x.lastTick ≠ none → data ≠ [] → x.rspFrag % 128 = p 1 1 % 128 →
          (bit (p 1 1) 7 = false → s.Does (.dictRsp f) fun e => e.pack.fwd = { x with rsp := x.rsp ++ data, rspFrag := x.rspFrag + 1 } :: rest ∧ e.out = d.out) ∧
          (bit (p 1 1) 7 = true → s.Does (.dictRsp f) fun e => e.pack.fwd = rest ∧ ∃ o, e.out = d.out ++ [o] ∧ o.kind = .response ∧ o.data = x.rsp ++ data)))) ∧
    (∀ id < 256, ((∀ x ∈ d.pack.fwd, x.msgId = id → x.lastTick = none) → exec (.forwardTimeout id) s = .next (s.leaves d)) ∧
      ((∃ x ∈ d.pack.fwd, x.msgId = id ∧ x.lastTick ≠ none) → s.Does (.forwardTimeout id) fun e => e.pack.fwd = d.pack.fwd.filter (·.msgId ≠ id) ∧
        ∃ o, e.out = d.out ++ [o] ∧ o.kind = .response ∧ listGet 0 o.args 3 = 0x0C)) ∧
    ((d.aon.lshEn = false ∨ d.isMaster = true → exec .mastershipTakeover s = .next (s.leaves d)) ∧
      (d.aon.lshEn = true → d.isMaster = false → ∃ e : Dev, exec .mastershipTakeover s = .next (s.leaves e.recompute) ∧ e.g oPackRole = 1 ∧ e.g oMasterAddress = d.own ∧
        bit (e.g oRoster) d.own = true ∧ (d.g oPackRole ≠ 0 → e.g oEsrMeasured = d.pack.esr))) ∧
    ((d.pack.hasGrant = false ∨ d.isMaster = true ∨ d.inVault = true ∨ d.vst = 0x0A → exec .grantExpire s = .next (s.leaves d)) ∧
      (d.pack.hasGrant = true → d.isMaster = false → d.inVault = false → d.vst ≠ 0x0A → ∃ e : Dev, exec .grantExpire s = .next (s.leaves e.recompute) ∧
        e.g oGrantEnergy = 0 ∧ e.g oGrantCap = 0 ∧ e.g oGrantPower = 0 ∧ e.g oGrantOffset = 0 ∧ e.pack.hasGrant = false)) ∧
    (d.isMaster = true →
      (d.pack.cycles < 3 → (∃ n ∈ d.rosterNodes, (d.node n).seen = false) → exec .budgetCompute s = .next (s.leaves d)) ∧
      ((3 ≤ d.pack.cycles ∨ ∀ n ∈ d.rosterNodes, (d.node n).seen = true) → ∀ vf surplus l, d.budgetPlan = (vf, surplus, l) →
        (0 ≤ surplus ∨ ∀ t ∈ l, t.g = 0) ∧
        (∃ e : Dev, exec .budgetCompute s = .next (s.leaves (if l.any fun t => !t.ok then (if e.faults.live.testBit 29 then e else e.faultLive 29) else e.unlive 29)) ∧
          ((∀ t ∈ l, (d.node t.addr).held = true ∨ (d.node t.addr).key = t.key (d.g oOpVersion)) → e.pack.budgetSeq = d.pack.budgetSeq ∧ e.pack.budgetValid = true ∧
            e.g oPackSurplus = min (2 ^ 32 - 1) (surplus.toNat / 1000) ∧ e.g oGrantEnergy = d.g oGrantEnergy)))) ∧
    (∀ n < 16, (if ∃ a ∈ d.pack.absents, a.node = n then exec (.absentHoldExpire n) s = .next (s.leaves
        ((d.setPack { d.pack with absents := d.pack.absents.filter (·.node ≠ n) }).budget)) else exec (.absentHoldExpire n) s = .next (s.leaves d))) ∧
    (if d.granted = true ∧ d.pack.hasGrant = true ∧ 0 < d.pack.grantWave then exec .waveStart s = .next (s.leaves d.vaultBegin) else exec .waveStart s = .next (s.leaves d)) ∧
    (d.isMaster = true → (d.slotNext = none → exec .slotCmdSend s = .next (s.leaves d)) ∧
      (∀ r, d.slotNext = some r → r ∈ d.pack.slotReqs ∧ r.action = 1 ∧ r.sends = 0 ∧ (r.demand = false → ∀ x ∈ d.pack.slotReqs, x.action = 1 → x.sends = 0 → x.demand = false) ∧
        (d.g oSlotBucketCapacity * 1000 < d.slotDrawn + d.gb oSlotInrush r.slot * 1000 → exec .slotCmdSend s = .next (s.leaves d)) ∧
        (d.slotDrawn + d.gb oSlotInrush r.slot * 1000 ≤ d.g oSlotBucketCapacity * 1000 → ∀ tok, tok = (d.pack.token + 1) % 65536 → s.Does .slotCmdSend fun e =>
          e.pack.bucketUsed = d.slotDrawn + d.gb oSlotInrush r.slot * 1000 ∧ e.pack.bucketTick = d.now ∧ e.pack.token = tok ∧
          { r with token := tok, sends := 1 } ∈ e.pack.slotReqs ∧ e.out = d.out ++ [⟨.leash, [5, 8 + r.slot / 16, d.pack.seq % 256],
            frameBytes (d.g oOpVersion) 5 (8 + r.slot / 16) d.own (d.pack.seq % 256) (leBytes 1 (r.slot % 16) ++ leBytes 1 1 ++ leBytes 2 tok)⟩]))) ∧
    (s.TakesWrites → ∀ v < 256, (7 < v → exec (.packResetMember v) s = .next (s.leaves (d.refuses 3 uChip))) ∧
      (v ≤ 7 → (d.isMaster = false → exec (.packResetMember v) s = .next (s.leaves (d.refuses 4 uChip))) ∧
        (d.isMaster = true → v = d.own → exec (.packResetMember v) s = .next (s.leaves (d.packReset.accepts oPackResetMember))) ∧
        (d.isMaster = true → v ≠ d.own → exec (.packResetMember v) s = .next (s.leaves
          ((d.setPack { d.pack with resets := d.pack.resets ++ [v] }).accepts oPackResetMember)))))
end

