-- ==== Sys2Proof/Laws/Store.lean ====
section
/-! SUPPORT. The laws of sparse stores: a read after a write, and that every operation keeps the canonical form. -/
namespace Sys2Proof.Machine

section Store
variable {V : Type}

/-- Reading what was put gives it; every other key reads as before. -/
theorem storeGet_put (d : Nat → V) (m : List (Nat × V)) (k k' : Nat) (v : V) :
    storeGet d (storePut m k v) k' = if k' = k then v else storeGet d m k' := by
  induction m with
  | nil => simp [storePut, storeGet, eq_comm]
  | cons p r ih =>
    obtain ⟨a, w⟩ := p
    simp only [storePut]
    split
    · simp only [storeGet, eq_comm (a := k)]
    · split
      · subst_vars; simp only [storeGet]; grind
      · simp only [storeGet, ih]; grind

/-- Reading a removed key gives its default; every other key reads as before. -/
theorem storeGet_del (d : Nat → V) (m : List (Nat × V)) (k k' : Nat) :
    storeGet d (storeDel m k) k' = if k' = k then d k else storeGet d m k' := by
  induction m with
  | nil => simp only [storeDel, storeGet]; split <;> simp_all
  | cons p r ih =>
    obtain ⟨a, w⟩ := p
    simp only [storeDel]
    split
    · simp only [ih, storeGet]; grind
    · simp only [storeGet, ih]; grind

variable [DecidableEq V]

/-- A read after a write. -/
theorem storeGet_set (d : Nat → V) (m : List (Nat × V)) (k k' : Nat) (v : V) :
    storeGet d (storeSet d m k v) k' = if k' = k then v else storeGet d m k' := by
  unfold storeSet; split
  · rename_i h; rw [storeGet_del, h]
  · exact storeGet_put d m k k' v

/-- A read of the key that was written. -/
@[simp] theorem storeGet_set_same (d : Nat → V) (m : List (Nat × V)) (k : Nat) (v : V) :
    storeGet d (storeSet d m k v) k = v := by simp [storeGet_set]

/-- A read of another key. -/
theorem storeGet_set_ne (d : Nat → V) (m : List (Nat × V)) {k k' : Nat} (v : V) (h : k' ≠ k) :
    storeGet d (storeSet d m k v) k' = storeGet d m k' := by simp [storeGet_set, h]

/-- The bound of a canonical form may be lowered. -/
theorem storeWfFrom_mono (d : Nat → V) {lo hi : Nat} (h : lo ≤ hi) (m : List (Nat × V)) (w : storeWfFrom d hi m = true) :
    storeWfFrom d lo m = true := by
  cases m with
  | nil => rfl
  | cons p r => obtain ⟨a, v⟩ := p; simp [storeWfFrom] at *; grind

/-- A put of a value other than the default keeps the canonical form. -/
theorem storeWfFrom_put (d : Nat → V) (m : List (Nat × V)) (k : Nat) (v : V) (hv : v ≠ d k) :
    ∀ lo, lo ≤ k → storeWfFrom d lo m = true → storeWfFrom d lo (storePut m k v) = true := by
  induction m with
  | nil => intro lo hl _; simp [storePut, storeWfFrom, hl, hv]
  | cons p r ih =>
    obtain ⟨a, w⟩ := p
    intro lo hl h
    simp only [storeWfFrom, Bool.and_eq_true, decide_eq_true_eq] at h
    simp only [storePut]
    split
    · simp only [storeWfFrom, Bool.and_eq_true, decide_eq_true_eq]; grind
    · split
      · subst_vars; simp only [storeWfFrom, Bool.and_eq_true, decide_eq_true_eq]; grind
      · simp only [storeWfFrom, Bool.and_eq_true, decide_eq_true_eq]
        exact ⟨h.1, ih (a + 1) (by omega) h.2⟩

/-- A removal keeps the canonical form. -/
theorem storeWfFrom_del (d : Nat → V) (m : List (Nat × V)) (k : Nat) :
    ∀ lo, storeWfFrom d lo m = true → storeWfFrom d lo (storeDel m k) = true := by
  induction m with
  | nil => intro lo h; exact h
  | cons p r ih =>
    obtain ⟨a, w⟩ := p
    intro lo h
    simp only [storeWfFrom, Bool.and_eq_true, decide_eq_true_eq] at h
    simp only [storeDel]
    split
    · exact storeWfFrom_mono d (by omega) _ (ih _ h.2)
    · simp only [storeWfFrom, Bool.and_eq_true, decide_eq_true_eq]
      exact ⟨h.1, ih _ h.2⟩

/-- A write keeps the canonical form. -/
theorem storeWf_set (d : Nat → V) (m : List (Nat × V)) (k : Nat) (v : V) (h : storeWf d m = true) :
    storeWf d (storeSet d m k v) = true := by
  unfold storeSet; split
  · exact storeWfFrom_del d m k 0 h
  · rename_i hv; exact storeWfFrom_put d m k v hv 0 (Nat.zero_le _) h

/-- A change of one value keeps the canonical form. -/
theorem storeWf_mod (d : Nat → V) (m : List (Nat × V)) (k : Nat) (f : V → V) (h : storeWf d m = true) :
    storeWf d (storeMod d m k f) = true := storeWf_set d m k _ h

/-- Dropping entries keeps the canonical form. -/
theorem storeWfFrom_filter (d : Nat → V) (q : Nat × V → Bool) (m : List (Nat × V)) :
    ∀ lo, storeWfFrom d lo m = true → storeWfFrom d lo (m.filter q) = true := by
  induction m with
  | nil => intro lo h; exact h
  | cons p r ih =>
    obtain ⟨a, w⟩ := p
    intro lo h
    simp only [storeWfFrom, Bool.and_eq_true, decide_eq_true_eq] at h
    simp only [List.filter_cons]
    split
    · simp only [storeWfFrom, Bool.and_eq_true, decide_eq_true_eq]; exact ⟨h.1, ih _ h.2⟩
    · exact storeWfFrom_mono d (by omega) _ (ih _ h.2)

/-- Keeping some entries keeps the canonical form. -/
theorem storeWf_keep (d : Nat → V) (keep : Nat → V → Bool) (m : List (Nat × V)) (h : storeWf d m = true) :
    storeWf d (storeKeep keep m) = true := storeWfFrom_filter d _ m 0 h

/-- A map over the values keeps the canonical form. -/
theorem storeWf_mapV (d : Nat → V) (f : Nat → V → V) (m : List (Nat × V)) (h : storeWf d m = true) :
    storeWf d (storeMapV d f m) = true := by
  unfold storeMapV storeWf at *
  generalize 0 = lo at *
  induction m generalizing lo with
  | nil => exact h
  | cons p r ih =>
    obtain ⟨a, w⟩ := p
    simp only [storeWfFrom, Bool.and_eq_true, decide_eq_true_eq] at h
    simp only [List.map_cons, List.filter_cons]
    split
    · rename_i hn
      simp only [storeWfFrom, Bool.and_eq_true, decide_eq_true_eq]
      exact ⟨⟨h.1.1, by simpa using hn⟩, ih _ h.2⟩
    · exact storeWfFrom_mono d (by omega) _ (ih _ h.2)

end Store

end Sys2Proof.Machine
end

