-- ==== Sys2Proof/Laws/State.lean ====
section
/-! SUPPORT. The device's fields after each of its updates: one lemma per field per update, and the readers of keyed stores and of the
dictionary after a write. -/
namespace Sys2Proof.Machine

@[simp] theorem Dev.su_aon (d : Dev) (u o v : Nat) : (d.su u o v).aon = d.aon := rfl
@[simp] theorem Dev.su_dict (d : Dev) (u o v : Nat) : (d.su u o v).dict = storeSet dictD d.dict (dkey u o) v := rfl
@[simp] theorem Dev.su_eff (d : Dev) (u o v : Nat) : (d.su u o v).eff = d.eff := rfl
@[simp] theorem Dev.su_faults (d : Dev) (u o v : Nat) : (d.su u o v).faults = d.faults := rfl
@[simp] theorem Dev.su_power (d : Dev) (u o v : Nat) : (d.su u o v).power = d.power := rfl
@[simp] theorem Dev.su_doms (d : Dev) (u o v : Nat) : (d.su u o v).doms = d.doms := rfl
@[simp] theorem Dev.su_sess (d : Dev) (u o v : Nat) : (d.su u o v).sess = d.sess := rfl
@[simp] theorem Dev.su_cache (d : Dev) (u o v : Nat) : (d.su u o v).cache = d.cache := rfl
@[simp] theorem Dev.su_energy (d : Dev) (u o v : Nat) : (d.su u o v).energy = d.energy := rfl
@[simp] theorem Dev.su_vault (d : Dev) (u o v : Nat) : (d.su u o v).vault = d.vault := rfl
@[simp] theorem Dev.su_kennel (d : Dev) (u o v : Nat) : (d.su u o v).kennel = d.kennel := rfl
@[simp] theorem Dev.su_restore (d : Dev) (u o v : Nat) : (d.su u o v).restore = d.restore := rfl
@[simp] theorem Dev.su_pack (d : Dev) (u o v : Nat) : (d.su u o v).pack = d.pack := rfl
@[simp] theorem Dev.su_cores (d : Dev) (u o v : Nat) : (d.su u o v).cores = d.cores := rfl
@[simp] theorem Dev.su_mem (d : Dev) (u o v : Nat) : (d.su u o v).mem = d.mem := rfl
@[simp] theorem Dev.su_eng (d : Dev) (u o v : Nat) : (d.su u o v).eng = d.eng := rfl
@[simp] theorem Dev.su_insts (d : Dev) (u o v : Nat) : (d.su u o v).insts = d.insts := rfl
@[simp] theorem Dev.su_ports (d : Dev) (u o v : Nat) : (d.su u o v).ports = d.ports := rfl
@[simp] theorem Dev.su_dram (d : Dev) (u o v : Nat) : (d.su u o v).dram = d.dram := rfl
@[simp] theorem Dev.su_fuse (d : Dev) (u o v : Nat) : (d.su u o v).fuse = d.fuse := rfl
@[simp] theorem Dev.su_part48 (d : Dev) (u o v : Nat) : (d.su u o v).part48 = d.part48 := rfl
@[simp] theorem Dev.su_presPorts (d : Dev) (u o v : Nat) : (d.su u o v).presPorts = d.presPorts := rfl
@[simp] theorem Dev.su_contained (d : Dev) (u o v : Nat) : (d.su u o v).contained = d.contained := rfl
@[simp] theorem Dev.su_out (d : Dev) (u o v : Nat) : (d.su u o v).out = d.out := rfl
@[simp] theorem Dev.su_free (d : Dev) (u o v : Nat) : (d.su u o v).free = d.free := rfl
@[simp] theorem Dev.su_faultQ (d : Dev) (u o v : Nat) : (d.su u o v).faultQ = d.faultQ := rfl

@[simp] theorem Dev.emit_aon (d : Dev) (k : OutKind) (args : List Nat) (data : List Byte) : (d.emit k args data).aon = d.aon := rfl
@[simp] theorem Dev.emit_dict (d : Dev) (k : OutKind) (args : List Nat) (data : List Byte) : (d.emit k args data).dict = d.dict := rfl
@[simp] theorem Dev.emit_eff (d : Dev) (k : OutKind) (args : List Nat) (data : List Byte) : (d.emit k args data).eff = d.eff := rfl
@[simp] theorem Dev.emit_faults (d : Dev) (k : OutKind) (args : List Nat) (data : List Byte) : (d.emit k args data).faults = d.faults := rfl
@[simp] theorem Dev.emit_power (d : Dev) (k : OutKind) (args : List Nat) (data : List Byte) : (d.emit k args data).power = d.power := rfl
@[simp] theorem Dev.emit_doms (d : Dev) (k : OutKind) (args : List Nat) (data : List Byte) : (d.emit k args data).doms = d.doms := rfl
@[simp] theorem Dev.emit_sess (d : Dev) (k : OutKind) (args : List Nat) (data : List Byte) : (d.emit k args data).sess = d.sess := rfl
@[simp] theorem Dev.emit_cache (d : Dev) (k : OutKind) (args : List Nat) (data : List Byte) : (d.emit k args data).cache = d.cache := rfl
@[simp] theorem Dev.emit_energy (d : Dev) (k : OutKind) (args : List Nat) (data : List Byte) : (d.emit k args data).energy = d.energy := rfl
@[simp] theorem Dev.emit_vault (d : Dev) (k : OutKind) (args : List Nat) (data : List Byte) : (d.emit k args data).vault = d.vault := rfl
@[simp] theorem Dev.emit_kennel (d : Dev) (k : OutKind) (args : List Nat) (data : List Byte) : (d.emit k args data).kennel = d.kennel := rfl
@[simp] theorem Dev.emit_restore (d : Dev) (k : OutKind) (args : List Nat) (data : List Byte) : (d.emit k args data).restore = d.restore := rfl
@[simp] theorem Dev.emit_pack (d : Dev) (k : OutKind) (args : List Nat) (data : List Byte) : (d.emit k args data).pack = d.pack := rfl
@[simp] theorem Dev.emit_cores (d : Dev) (k : OutKind) (args : List Nat) (data : List Byte) : (d.emit k args data).cores = d.cores := rfl
@[simp] theorem Dev.emit_mem (d : Dev) (k : OutKind) (args : List Nat) (data : List Byte) : (d.emit k args data).mem = d.mem := rfl
@[simp] theorem Dev.emit_eng (d : Dev) (k : OutKind) (args : List Nat) (data : List Byte) : (d.emit k args data).eng = d.eng := rfl
@[simp] theorem Dev.emit_insts (d : Dev) (k : OutKind) (args : List Nat) (data : List Byte) : (d.emit k args data).insts = d.insts := rfl
@[simp] theorem Dev.emit_ports (d : Dev) (k : OutKind) (args : List Nat) (data : List Byte) : (d.emit k args data).ports = d.ports := rfl
@[simp] theorem Dev.emit_dram (d : Dev) (k : OutKind) (args : List Nat) (data : List Byte) : (d.emit k args data).dram = d.dram := rfl
@[simp] theorem Dev.emit_fuse (d : Dev) (k : OutKind) (args : List Nat) (data : List Byte) : (d.emit k args data).fuse = d.fuse := rfl
@[simp] theorem Dev.emit_part48 (d : Dev) (k : OutKind) (args : List Nat) (data : List Byte) : (d.emit k args data).part48 = d.part48 := rfl
@[simp] theorem Dev.emit_presPorts (d : Dev) (k : OutKind) (args : List Nat) (data : List Byte) : (d.emit k args data).presPorts = d.presPorts := rfl
@[simp] theorem Dev.emit_contained (d : Dev) (k : OutKind) (args : List Nat) (data : List Byte) : (d.emit k args data).contained = d.contained := rfl
@[simp] theorem Dev.emit_out (d : Dev) (k : OutKind) (args : List Nat) (data : List Byte) : (d.emit k args data).out = d.out ++ [{ kind := k, args := args, data := data }] := rfl
@[simp] theorem Dev.emit_free (d : Dev) (k : OutKind) (args : List Nat) (data : List Byte) : (d.emit k args data).free = d.free := rfl
@[simp] theorem Dev.emit_faultQ (d : Dev) (k : OutKind) (args : List Nat) (data : List Byte) : (d.emit k args data).faultQ = d.faultQ := rfl

@[simp] theorem Dev.raise_aon (d : Dev) (o : Occ) : (d.raise o).aon = d.aon := rfl
@[simp] theorem Dev.raise_dict (d : Dev) (o : Occ) : (d.raise o).dict = d.dict := rfl
@[simp] theorem Dev.raise_eff (d : Dev) (o : Occ) : (d.raise o).eff = d.eff := rfl
@[simp] theorem Dev.raise_faults (d : Dev) (o : Occ) : (d.raise o).faults = d.faults := rfl
@[simp] theorem Dev.raise_power (d : Dev) (o : Occ) : (d.raise o).power = d.power := rfl
@[simp] theorem Dev.raise_doms (d : Dev) (o : Occ) : (d.raise o).doms = d.doms := rfl
@[simp] theorem Dev.raise_sess (d : Dev) (o : Occ) : (d.raise o).sess = d.sess := rfl
@[simp] theorem Dev.raise_cache (d : Dev) (o : Occ) : (d.raise o).cache = d.cache := rfl
@[simp] theorem Dev.raise_energy (d : Dev) (o : Occ) : (d.raise o).energy = d.energy := rfl
@[simp] theorem Dev.raise_vault (d : Dev) (o : Occ) : (d.raise o).vault = d.vault := rfl
@[simp] theorem Dev.raise_kennel (d : Dev) (o : Occ) : (d.raise o).kennel = d.kennel := rfl
@[simp] theorem Dev.raise_restore (d : Dev) (o : Occ) : (d.raise o).restore = d.restore := rfl
@[simp] theorem Dev.raise_pack (d : Dev) (o : Occ) : (d.raise o).pack = d.pack := rfl
@[simp] theorem Dev.raise_cores (d : Dev) (o : Occ) : (d.raise o).cores = d.cores := rfl
@[simp] theorem Dev.raise_mem (d : Dev) (o : Occ) : (d.raise o).mem = d.mem := rfl
@[simp] theorem Dev.raise_eng (d : Dev) (o : Occ) : (d.raise o).eng = d.eng := rfl
@[simp] theorem Dev.raise_insts (d : Dev) (o : Occ) : (d.raise o).insts = d.insts := rfl
@[simp] theorem Dev.raise_ports (d : Dev) (o : Occ) : (d.raise o).ports = d.ports := rfl
@[simp] theorem Dev.raise_dram (d : Dev) (o : Occ) : (d.raise o).dram = d.dram := rfl
@[simp] theorem Dev.raise_fuse (d : Dev) (o : Occ) : (d.raise o).fuse = d.fuse := rfl
@[simp] theorem Dev.raise_part48 (d : Dev) (o : Occ) : (d.raise o).part48 = d.part48 := rfl
@[simp] theorem Dev.raise_presPorts (d : Dev) (o : Occ) : (d.raise o).presPorts = d.presPorts := rfl
@[simp] theorem Dev.raise_contained (d : Dev) (o : Occ) : (d.raise o).contained = d.contained := rfl
@[simp] theorem Dev.raise_out (d : Dev) (o : Occ) : (d.raise o).out = d.out := rfl
@[simp] theorem Dev.raise_free (d : Dev) (o : Occ) : (d.raise o).free = d.free := rfl
@[simp] theorem Dev.raise_faultQ (d : Dev) (o : Occ) : (d.raise o).faultQ = d.faultQ ++ [o] := rfl

@[simp] theorem Dev.unlive_aon (d : Dev) (s : Nat) : (d.unlive s).aon = d.aon := rfl
@[simp] theorem Dev.unlive_dict (d : Dev) (s : Nat) : (d.unlive s).dict = d.dict := rfl
@[simp] theorem Dev.unlive_eff (d : Dev) (s : Nat) : (d.unlive s).eff = d.eff := rfl
@[simp] theorem Dev.unlive_faults (d : Dev) (s : Nat) : (d.unlive s).faults = { d.faults with live := if d.faults.live.testBit s then d.faults.live - 2 ^ s else d.faults.live } := rfl
@[simp] theorem Dev.unlive_power (d : Dev) (s : Nat) : (d.unlive s).power = d.power := rfl
@[simp] theorem Dev.unlive_doms (d : Dev) (s : Nat) : (d.unlive s).doms = d.doms := rfl
@[simp] theorem Dev.unlive_sess (d : Dev) (s : Nat) : (d.unlive s).sess = d.sess := rfl
@[simp] theorem Dev.unlive_cache (d : Dev) (s : Nat) : (d.unlive s).cache = d.cache := rfl
@[simp] theorem Dev.unlive_energy (d : Dev) (s : Nat) : (d.unlive s).energy = d.energy := rfl
@[simp] theorem Dev.unlive_vault (d : Dev) (s : Nat) : (d.unlive s).vault = d.vault := rfl
@[simp] theorem Dev.unlive_kennel (d : Dev) (s : Nat) : (d.unlive s).kennel = d.kennel := rfl
@[simp] theorem Dev.unlive_restore (d : Dev) (s : Nat) : (d.unlive s).restore = d.restore := rfl
@[simp] theorem Dev.unlive_pack (d : Dev) (s : Nat) : (d.unlive s).pack = d.pack := rfl
@[simp] theorem Dev.unlive_cores (d : Dev) (s : Nat) : (d.unlive s).cores = d.cores := rfl
@[simp] theorem Dev.unlive_mem (d : Dev) (s : Nat) : (d.unlive s).mem = d.mem := rfl
@[simp] theorem Dev.unlive_eng (d : Dev) (s : Nat) : (d.unlive s).eng = d.eng := rfl
@[simp] theorem Dev.unlive_insts (d : Dev) (s : Nat) : (d.unlive s).insts = d.insts := rfl
@[simp] theorem Dev.unlive_ports (d : Dev) (s : Nat) : (d.unlive s).ports = d.ports := rfl
@[simp] theorem Dev.unlive_dram (d : Dev) (s : Nat) : (d.unlive s).dram = d.dram := rfl
@[simp] theorem Dev.unlive_fuse (d : Dev) (s : Nat) : (d.unlive s).fuse = d.fuse := rfl
@[simp] theorem Dev.unlive_part48 (d : Dev) (s : Nat) : (d.unlive s).part48 = d.part48 := rfl
@[simp] theorem Dev.unlive_presPorts (d : Dev) (s : Nat) : (d.unlive s).presPorts = d.presPorts := rfl
@[simp] theorem Dev.unlive_contained (d : Dev) (s : Nat) : (d.unlive s).contained = d.contained := rfl
@[simp] theorem Dev.unlive_out (d : Dev) (s : Nat) : (d.unlive s).out = d.out := rfl
@[simp] theorem Dev.unlive_free (d : Dev) (s : Nat) : (d.unlive s).free = d.free := rfl
@[simp] theorem Dev.unlive_faultQ (d : Dev) (s : Nat) : (d.unlive s).faultQ = d.faultQ := rfl

@[simp] theorem Dev.setSession_aon (d : Dev) (i : Nat) (s : Session) : (d.setSession i s).aon = d.aon := rfl
@[simp] theorem Dev.setSession_dict (d : Dev) (i : Nat) (s : Session) : (d.setSession i s).dict = d.dict := rfl
@[simp] theorem Dev.setSession_eff (d : Dev) (i : Nat) (s : Session) : (d.setSession i s).eff = d.eff := rfl
@[simp] theorem Dev.setSession_faults (d : Dev) (i : Nat) (s : Session) : (d.setSession i s).faults = d.faults := rfl
@[simp] theorem Dev.setSession_power (d : Dev) (i : Nat) (s : Session) : (d.setSession i s).power = d.power := rfl
@[simp] theorem Dev.setSession_doms (d : Dev) (i : Nat) (s : Session) : (d.setSession i s).doms = d.doms := rfl
@[simp] theorem Dev.setSession_sess (d : Dev) (i : Nat) (s : Session) : (d.setSession i s).sess = { d.sess with slots := storeSet noSession d.sess.slots i s } := rfl
@[simp] theorem Dev.setSession_cache (d : Dev) (i : Nat) (s : Session) : (d.setSession i s).cache = d.cache := rfl
@[simp] theorem Dev.setSession_energy (d : Dev) (i : Nat) (s : Session) : (d.setSession i s).energy = d.energy := rfl
@[simp] theorem Dev.setSession_vault (d : Dev) (i : Nat) (s : Session) : (d.setSession i s).vault = d.vault := rfl
@[simp] theorem Dev.setSession_kennel (d : Dev) (i : Nat) (s : Session) : (d.setSession i s).kennel = d.kennel := rfl
@[simp] theorem Dev.setSession_restore (d : Dev) (i : Nat) (s : Session) : (d.setSession i s).restore = d.restore := rfl
@[simp] theorem Dev.setSession_pack (d : Dev) (i : Nat) (s : Session) : (d.setSession i s).pack = d.pack := rfl
@[simp] theorem Dev.setSession_cores (d : Dev) (i : Nat) (s : Session) : (d.setSession i s).cores = d.cores := rfl
@[simp] theorem Dev.setSession_mem (d : Dev) (i : Nat) (s : Session) : (d.setSession i s).mem = d.mem := rfl
@[simp] theorem Dev.setSession_eng (d : Dev) (i : Nat) (s : Session) : (d.setSession i s).eng = d.eng := rfl
@[simp] theorem Dev.setSession_insts (d : Dev) (i : Nat) (s : Session) : (d.setSession i s).insts = d.insts := rfl
@[simp] theorem Dev.setSession_ports (d : Dev) (i : Nat) (s : Session) : (d.setSession i s).ports = d.ports := rfl
@[simp] theorem Dev.setSession_dram (d : Dev) (i : Nat) (s : Session) : (d.setSession i s).dram = d.dram := rfl
@[simp] theorem Dev.setSession_fuse (d : Dev) (i : Nat) (s : Session) : (d.setSession i s).fuse = d.fuse := rfl
@[simp] theorem Dev.setSession_part48 (d : Dev) (i : Nat) (s : Session) : (d.setSession i s).part48 = d.part48 := rfl
@[simp] theorem Dev.setSession_presPorts (d : Dev) (i : Nat) (s : Session) : (d.setSession i s).presPorts = d.presPorts := rfl
@[simp] theorem Dev.setSession_contained (d : Dev) (i : Nat) (s : Session) : (d.setSession i s).contained = d.contained := rfl
@[simp] theorem Dev.setSession_out (d : Dev) (i : Nat) (s : Session) : (d.setSession i s).out = d.out := rfl
@[simp] theorem Dev.setSession_free (d : Dev) (i : Nat) (s : Session) : (d.setSession i s).free = d.free := rfl
@[simp] theorem Dev.setSession_faultQ (d : Dev) (i : Nat) (s : Session) : (d.setSession i s).faultQ = d.faultQ := rfl

@[simp] theorem Dev.setVec_aon (d : Dev) (v : Nat) (x : IntVec) : (d.setVec v x).aon = d.aon := rfl
@[simp] theorem Dev.setVec_dict (d : Dev) (v : Nat) (x : IntVec) : (d.setVec v x).dict = d.dict := rfl
@[simp] theorem Dev.setVec_eff (d : Dev) (v : Nat) (x : IntVec) : (d.setVec v x).eff = d.eff := rfl
@[simp] theorem Dev.setVec_faults (d : Dev) (v : Nat) (x : IntVec) : (d.setVec v x).faults = d.faults := rfl
@[simp] theorem Dev.setVec_power (d : Dev) (v : Nat) (x : IntVec) : (d.setVec v x).power = d.power := rfl
@[simp] theorem Dev.setVec_doms (d : Dev) (v : Nat) (x : IntVec) : (d.setVec v x).doms = d.doms := rfl
@[simp] theorem Dev.setVec_sess (d : Dev) (v : Nat) (x : IntVec) : (d.setVec v x).sess = d.sess := rfl
@[simp] theorem Dev.setVec_cache (d : Dev) (v : Nat) (x : IntVec) : (d.setVec v x).cache = d.cache := rfl
@[simp] theorem Dev.setVec_energy (d : Dev) (v : Nat) (x : IntVec) : (d.setVec v x).energy = d.energy := rfl
@[simp] theorem Dev.setVec_vault (d : Dev) (v : Nat) (x : IntVec) : (d.setVec v x).vault = d.vault := rfl
@[simp] theorem Dev.setVec_kennel (d : Dev) (v : Nat) (x : IntVec) : (d.setVec v x).kennel = d.kennel := rfl
@[simp] theorem Dev.setVec_restore (d : Dev) (v : Nat) (x : IntVec) : (d.setVec v x).restore = d.restore := rfl
@[simp] theorem Dev.setVec_pack (d : Dev) (v : Nat) (x : IntVec) : (d.setVec v x).pack = d.pack := rfl
@[simp] theorem Dev.setVec_cores (d : Dev) (v : Nat) (x : IntVec) : (d.setVec v x).cores = d.cores := rfl
@[simp] theorem Dev.setVec_mem (d : Dev) (v : Nat) (x : IntVec) : (d.setVec v x).mem = d.mem := rfl
@[simp] theorem Dev.setVec_eng (d : Dev) (v : Nat) (x : IntVec) : (d.setVec v x).eng = d.eng := rfl
@[simp] theorem Dev.setVec_insts (d : Dev) (v : Nat) (x : IntVec) : (d.setVec v x).insts = { d.insts with vecs := storeSet noVec d.insts.vecs v x } := rfl
@[simp] theorem Dev.setVec_ports (d : Dev) (v : Nat) (x : IntVec) : (d.setVec v x).ports = d.ports := rfl
@[simp] theorem Dev.setVec_dram (d : Dev) (v : Nat) (x : IntVec) : (d.setVec v x).dram = d.dram := rfl
@[simp] theorem Dev.setVec_fuse (d : Dev) (v : Nat) (x : IntVec) : (d.setVec v x).fuse = d.fuse := rfl
@[simp] theorem Dev.setVec_part48 (d : Dev) (v : Nat) (x : IntVec) : (d.setVec v x).part48 = d.part48 := rfl
@[simp] theorem Dev.setVec_presPorts (d : Dev) (v : Nat) (x : IntVec) : (d.setVec v x).presPorts = d.presPorts := rfl
@[simp] theorem Dev.setVec_contained (d : Dev) (v : Nat) (x : IntVec) : (d.setVec v x).contained = d.contained := rfl
@[simp] theorem Dev.setVec_out (d : Dev) (v : Nat) (x : IntVec) : (d.setVec v x).out = d.out := rfl
@[simp] theorem Dev.setVec_free (d : Dev) (v : Nat) (x : IntVec) : (d.setVec v x).free = d.free := rfl
@[simp] theorem Dev.setVec_faultQ (d : Dev) (v : Nat) (x : IntVec) : (d.setVec v x).faultQ = d.faultQ := rfl

@[simp] theorem Dev.setInst_aon (d : Dev) (i off len v : Nat) : (d.setInst i off len v).aon = d.aon := rfl
@[simp] theorem Dev.setInst_dict (d : Dev) (i off len v : Nat) : (d.setInst i off len v).dict = d.dict := rfl
@[simp] theorem Dev.setInst_eff (d : Dev) (i off len v : Nat) : (d.setInst i off len v).eff = d.eff := rfl
@[simp] theorem Dev.setInst_faults (d : Dev) (i off len v : Nat) : (d.setInst i off len v).faults = d.faults := rfl
@[simp] theorem Dev.setInst_power (d : Dev) (i off len v : Nat) : (d.setInst i off len v).power = d.power := rfl
@[simp] theorem Dev.setInst_doms (d : Dev) (i off len v : Nat) : (d.setInst i off len v).doms = d.doms := rfl
@[simp] theorem Dev.setInst_sess (d : Dev) (i off len v : Nat) : (d.setInst i off len v).sess = d.sess := rfl
@[simp] theorem Dev.setInst_cache (d : Dev) (i off len v : Nat) : (d.setInst i off len v).cache = d.cache := rfl
@[simp] theorem Dev.setInst_energy (d : Dev) (i off len v : Nat) : (d.setInst i off len v).energy = d.energy := rfl
@[simp] theorem Dev.setInst_vault (d : Dev) (i off len v : Nat) : (d.setInst i off len v).vault = d.vault := rfl
@[simp] theorem Dev.setInst_kennel (d : Dev) (i off len v : Nat) : (d.setInst i off len v).kennel = d.kennel := rfl
@[simp] theorem Dev.setInst_restore (d : Dev) (i off len v : Nat) : (d.setInst i off len v).restore = d.restore := rfl
@[simp] theorem Dev.setInst_pack (d : Dev) (i off len v : Nat) : (d.setInst i off len v).pack = d.pack := rfl
@[simp] theorem Dev.setInst_cores (d : Dev) (i off len v : Nat) : (d.setInst i off len v).cores = d.cores := rfl
@[simp] theorem Dev.setInst_mem (d : Dev) (i off len v : Nat) : (d.setInst i off len v).mem = d.mem := rfl
@[simp] theorem Dev.setInst_eng (d : Dev) (i off len v : Nat) : (d.setInst i off len v).eng = d.eng := rfl
@[simp] theorem Dev.setInst_insts (d : Dev) (i off len v : Nat) : (d.setInst i off len v).insts = { d.insts with table := storeMod instDefault d.insts.table i fun e => setEnt e off len v } := rfl
@[simp] theorem Dev.setInst_ports (d : Dev) (i off len v : Nat) : (d.setInst i off len v).ports = d.ports := rfl
@[simp] theorem Dev.setInst_dram (d : Dev) (i off len v : Nat) : (d.setInst i off len v).dram = d.dram := rfl
@[simp] theorem Dev.setInst_fuse (d : Dev) (i off len v : Nat) : (d.setInst i off len v).fuse = d.fuse := rfl
@[simp] theorem Dev.setInst_part48 (d : Dev) (i off len v : Nat) : (d.setInst i off len v).part48 = d.part48 := rfl
@[simp] theorem Dev.setInst_presPorts (d : Dev) (i off len v : Nat) : (d.setInst i off len v).presPorts = d.presPorts := rfl
@[simp] theorem Dev.setInst_contained (d : Dev) (i off len v : Nat) : (d.setInst i off len v).contained = d.contained := rfl
@[simp] theorem Dev.setInst_out (d : Dev) (i off len v : Nat) : (d.setInst i off len v).out = d.out := rfl
@[simp] theorem Dev.setInst_free (d : Dev) (i off len v : Nat) : (d.setInst i off len v).free = d.free := rfl
@[simp] theorem Dev.setInst_faultQ (d : Dev) (i off len v : Nat) : (d.setInst i off len v).faultQ = d.faultQ := rfl

@[simp] theorem Dev.setDom_aon (d : Dev) (u : Nat) (x : Domain) : (d.setDom u x).aon = d.aon := rfl
@[simp] theorem Dev.setDom_dict (d : Dev) (u : Nat) (x : Domain) : (d.setDom u x).dict = d.dict := rfl
@[simp] theorem Dev.setDom_eff (d : Dev) (u : Nat) (x : Domain) : (d.setDom u x).eff = d.eff := rfl
@[simp] theorem Dev.setDom_faults (d : Dev) (u : Nat) (x : Domain) : (d.setDom u x).faults = d.faults := rfl
@[simp] theorem Dev.setDom_power (d : Dev) (u : Nat) (x : Domain) : (d.setDom u x).power = d.power := rfl
@[simp] theorem Dev.setDom_doms (d : Dev) (u : Nat) (x : Domain) : (d.setDom u x).doms = { d.doms with doms := storeSet domOn d.doms.doms u x, heldVals := d.keepVals u x } := rfl
@[simp] theorem Dev.setDom_sess (d : Dev) (u : Nat) (x : Domain) : (d.setDom u x).sess = d.sess := rfl
@[simp] theorem Dev.setDom_cache (d : Dev) (u : Nat) (x : Domain) : (d.setDom u x).cache = d.cache := rfl
@[simp] theorem Dev.setDom_energy (d : Dev) (u : Nat) (x : Domain) : (d.setDom u x).energy = d.energy := rfl
@[simp] theorem Dev.setDom_vault (d : Dev) (u : Nat) (x : Domain) : (d.setDom u x).vault = d.vault := rfl
@[simp] theorem Dev.setDom_kennel (d : Dev) (u : Nat) (x : Domain) : (d.setDom u x).kennel = d.kennel := rfl
@[simp] theorem Dev.setDom_restore (d : Dev) (u : Nat) (x : Domain) : (d.setDom u x).restore = d.restore := rfl
@[simp] theorem Dev.setDom_pack (d : Dev) (u : Nat) (x : Domain) : (d.setDom u x).pack = d.pack := rfl
@[simp] theorem Dev.setDom_cores (d : Dev) (u : Nat) (x : Domain) : (d.setDom u x).cores = d.cores := rfl
@[simp] theorem Dev.setDom_mem (d : Dev) (u : Nat) (x : Domain) : (d.setDom u x).mem = d.mem := rfl
@[simp] theorem Dev.setDom_eng (d : Dev) (u : Nat) (x : Domain) : (d.setDom u x).eng = d.eng := rfl
@[simp] theorem Dev.setDom_insts (d : Dev) (u : Nat) (x : Domain) : (d.setDom u x).insts = d.insts := rfl
@[simp] theorem Dev.setDom_ports (d : Dev) (u : Nat) (x : Domain) : (d.setDom u x).ports = d.ports := rfl
@[simp] theorem Dev.setDom_dram (d : Dev) (u : Nat) (x : Domain) : (d.setDom u x).dram = d.dram := rfl
@[simp] theorem Dev.setDom_fuse (d : Dev) (u : Nat) (x : Domain) : (d.setDom u x).fuse = d.fuse := rfl
@[simp] theorem Dev.setDom_part48 (d : Dev) (u : Nat) (x : Domain) : (d.setDom u x).part48 = d.part48 := rfl
@[simp] theorem Dev.setDom_presPorts (d : Dev) (u : Nat) (x : Domain) : (d.setDom u x).presPorts = d.presPorts := rfl
@[simp] theorem Dev.setDom_contained (d : Dev) (u : Nat) (x : Domain) : (d.setDom u x).contained = d.contained := rfl
@[simp] theorem Dev.setDom_out (d : Dev) (u : Nat) (x : Domain) : (d.setDom u x).out = d.out := rfl
@[simp] theorem Dev.setDom_free (d : Dev) (u : Nat) (x : Domain) : (d.setDom u x).free = d.free := rfl
@[simp] theorem Dev.setDom_faultQ (d : Dev) (u : Nat) (x : Domain) : (d.setDom u x).faultQ = d.faultQ := rfl

@[simp] theorem Dev.setCore_aon (d : Dev) (n : Nat) (c : Core) : (d.setCore n c).aon = d.aon := rfl
@[simp] theorem Dev.setCore_dict (d : Dev) (n : Nat) (c : Core) : (d.setCore n c).dict = d.dict := rfl
@[simp] theorem Dev.setCore_eff (d : Dev) (n : Nat) (c : Core) : (d.setCore n c).eff = d.eff := rfl
@[simp] theorem Dev.setCore_faults (d : Dev) (n : Nat) (c : Core) : (d.setCore n c).faults = d.faults := rfl
@[simp] theorem Dev.setCore_power (d : Dev) (n : Nat) (c : Core) : (d.setCore n c).power = d.power := rfl
@[simp] theorem Dev.setCore_doms (d : Dev) (n : Nat) (c : Core) : (d.setCore n c).doms = d.doms := rfl
@[simp] theorem Dev.setCore_sess (d : Dev) (n : Nat) (c : Core) : (d.setCore n c).sess = d.sess := rfl
@[simp] theorem Dev.setCore_cache (d : Dev) (n : Nat) (c : Core) : (d.setCore n c).cache = d.cache := rfl
@[simp] theorem Dev.setCore_energy (d : Dev) (n : Nat) (c : Core) : (d.setCore n c).energy = d.energy := rfl
@[simp] theorem Dev.setCore_vault (d : Dev) (n : Nat) (c : Core) : (d.setCore n c).vault = d.vault := rfl
@[simp] theorem Dev.setCore_kennel (d : Dev) (n : Nat) (c : Core) : (d.setCore n c).kennel = d.kennel := rfl
@[simp] theorem Dev.setCore_restore (d : Dev) (n : Nat) (c : Core) : (d.setCore n c).restore = d.restore := rfl
@[simp] theorem Dev.setCore_pack (d : Dev) (n : Nat) (c : Core) : (d.setCore n c).pack = d.pack := rfl
@[simp] theorem Dev.setCore_cores (d : Dev) (n : Nat) (c : Core) : (d.setCore n c).cores = storeSet coreReset d.cores n c := rfl
@[simp] theorem Dev.setCore_mem (d : Dev) (n : Nat) (c : Core) : (d.setCore n c).mem = d.mem := rfl
@[simp] theorem Dev.setCore_eng (d : Dev) (n : Nat) (c : Core) : (d.setCore n c).eng = d.eng := rfl
@[simp] theorem Dev.setCore_insts (d : Dev) (n : Nat) (c : Core) : (d.setCore n c).insts = d.insts := rfl
@[simp] theorem Dev.setCore_ports (d : Dev) (n : Nat) (c : Core) : (d.setCore n c).ports = d.ports := rfl
@[simp] theorem Dev.setCore_dram (d : Dev) (n : Nat) (c : Core) : (d.setCore n c).dram = d.dram := rfl
@[simp] theorem Dev.setCore_fuse (d : Dev) (n : Nat) (c : Core) : (d.setCore n c).fuse = d.fuse := rfl
@[simp] theorem Dev.setCore_part48 (d : Dev) (n : Nat) (c : Core) : (d.setCore n c).part48 = d.part48 := rfl
@[simp] theorem Dev.setCore_presPorts (d : Dev) (n : Nat) (c : Core) : (d.setCore n c).presPorts = d.presPorts := rfl
@[simp] theorem Dev.setCore_contained (d : Dev) (n : Nat) (c : Core) : (d.setCore n c).contained = d.contained := rfl
@[simp] theorem Dev.setCore_out (d : Dev) (n : Nat) (c : Core) : (d.setCore n c).out = d.out := rfl
@[simp] theorem Dev.setCore_free (d : Dev) (n : Nat) (c : Core) : (d.setCore n c).free = d.free := rfl
@[simp] theorem Dev.setCore_faultQ (d : Dev) (n : Nat) (c : Core) : (d.setCore n c).faultQ = d.faultQ := rfl

@[simp] theorem Dev.setRail_aon (d : Dev) (r : Nat) (x : Rail) : (d.setRail r x).aon = d.aon := rfl
@[simp] theorem Dev.setRail_dict (d : Dev) (r : Nat) (x : Rail) : (d.setRail r x).dict = d.dict := rfl
@[simp] theorem Dev.setRail_eff (d : Dev) (r : Nat) (x : Rail) : (d.setRail r x).eff = d.eff := rfl
@[simp] theorem Dev.setRail_faults (d : Dev) (r : Nat) (x : Rail) : (d.setRail r x).faults = d.faults := rfl
@[simp] theorem Dev.setRail_power (d : Dev) (r : Nat) (x : Rail) : (d.setRail r x).power = { d.power with rails := storeSet noRail d.power.rails r x } := rfl
@[simp] theorem Dev.setRail_doms (d : Dev) (r : Nat) (x : Rail) : (d.setRail r x).doms = d.doms := rfl
@[simp] theorem Dev.setRail_sess (d : Dev) (r : Nat) (x : Rail) : (d.setRail r x).sess = d.sess := rfl
@[simp] theorem Dev.setRail_cache (d : Dev) (r : Nat) (x : Rail) : (d.setRail r x).cache = d.cache := rfl
@[simp] theorem Dev.setRail_energy (d : Dev) (r : Nat) (x : Rail) : (d.setRail r x).energy = d.energy := rfl
@[simp] theorem Dev.setRail_vault (d : Dev) (r : Nat) (x : Rail) : (d.setRail r x).vault = d.vault := rfl
@[simp] theorem Dev.setRail_kennel (d : Dev) (r : Nat) (x : Rail) : (d.setRail r x).kennel = d.kennel := rfl
@[simp] theorem Dev.setRail_restore (d : Dev) (r : Nat) (x : Rail) : (d.setRail r x).restore = d.restore := rfl
@[simp] theorem Dev.setRail_pack (d : Dev) (r : Nat) (x : Rail) : (d.setRail r x).pack = d.pack := rfl
@[simp] theorem Dev.setRail_cores (d : Dev) (r : Nat) (x : Rail) : (d.setRail r x).cores = d.cores := rfl
@[simp] theorem Dev.setRail_mem (d : Dev) (r : Nat) (x : Rail) : (d.setRail r x).mem = d.mem := rfl
@[simp] theorem Dev.setRail_eng (d : Dev) (r : Nat) (x : Rail) : (d.setRail r x).eng = d.eng := rfl
@[simp] theorem Dev.setRail_insts (d : Dev) (r : Nat) (x : Rail) : (d.setRail r x).insts = d.insts := rfl
@[simp] theorem Dev.setRail_ports (d : Dev) (r : Nat) (x : Rail) : (d.setRail r x).ports = d.ports := rfl
@[simp] theorem Dev.setRail_dram (d : Dev) (r : Nat) (x : Rail) : (d.setRail r x).dram = d.dram := rfl
@[simp] theorem Dev.setRail_fuse (d : Dev) (r : Nat) (x : Rail) : (d.setRail r x).fuse = d.fuse := rfl
@[simp] theorem Dev.setRail_part48 (d : Dev) (r : Nat) (x : Rail) : (d.setRail r x).part48 = d.part48 := rfl
@[simp] theorem Dev.setRail_presPorts (d : Dev) (r : Nat) (x : Rail) : (d.setRail r x).presPorts = d.presPorts := rfl
@[simp] theorem Dev.setRail_contained (d : Dev) (r : Nat) (x : Rail) : (d.setRail r x).contained = d.contained := rfl
@[simp] theorem Dev.setRail_out (d : Dev) (r : Nat) (x : Rail) : (d.setRail r x).out = d.out := rfl
@[simp] theorem Dev.setRail_free (d : Dev) (r : Nat) (x : Rail) : (d.setRail r x).free = d.free := rfl
@[simp] theorem Dev.setRail_faultQ (d : Dev) (r : Nat) (x : Rail) : (d.setRail r x).faultQ = d.faultQ := rfl

@[simp] theorem Dev.setRun_aon (d : Dev) (v : VaultRun) : (d.setRun v).aon = d.aon := rfl
@[simp] theorem Dev.setRun_dict (d : Dev) (v : VaultRun) : (d.setRun v).dict = d.dict := rfl
@[simp] theorem Dev.setRun_eff (d : Dev) (v : VaultRun) : (d.setRun v).eff = d.eff := rfl
@[simp] theorem Dev.setRun_faults (d : Dev) (v : VaultRun) : (d.setRun v).faults = d.faults := rfl
@[simp] theorem Dev.setRun_power (d : Dev) (v : VaultRun) : (d.setRun v).power = d.power := rfl
@[simp] theorem Dev.setRun_doms (d : Dev) (v : VaultRun) : (d.setRun v).doms = d.doms := rfl
@[simp] theorem Dev.setRun_sess (d : Dev) (v : VaultRun) : (d.setRun v).sess = d.sess := rfl
@[simp] theorem Dev.setRun_cache (d : Dev) (v : VaultRun) : (d.setRun v).cache = d.cache := rfl
@[simp] theorem Dev.setRun_energy (d : Dev) (v : VaultRun) : (d.setRun v).energy = d.energy := rfl
@[simp] theorem Dev.setRun_vault (d : Dev) (v : VaultRun) : (d.setRun v).vault = v := rfl
@[simp] theorem Dev.setRun_kennel (d : Dev) (v : VaultRun) : (d.setRun v).kennel = d.kennel := rfl
@[simp] theorem Dev.setRun_restore (d : Dev) (v : VaultRun) : (d.setRun v).restore = d.restore := rfl
@[simp] theorem Dev.setRun_pack (d : Dev) (v : VaultRun) : (d.setRun v).pack = d.pack := rfl
@[simp] theorem Dev.setRun_cores (d : Dev) (v : VaultRun) : (d.setRun v).cores = d.cores := rfl
@[simp] theorem Dev.setRun_mem (d : Dev) (v : VaultRun) : (d.setRun v).mem = d.mem := rfl
@[simp] theorem Dev.setRun_eng (d : Dev) (v : VaultRun) : (d.setRun v).eng = d.eng := rfl
@[simp] theorem Dev.setRun_insts (d : Dev) (v : VaultRun) : (d.setRun v).insts = d.insts := rfl
@[simp] theorem Dev.setRun_ports (d : Dev) (v : VaultRun) : (d.setRun v).ports = d.ports := rfl
@[simp] theorem Dev.setRun_dram (d : Dev) (v : VaultRun) : (d.setRun v).dram = d.dram := rfl
@[simp] theorem Dev.setRun_fuse (d : Dev) (v : VaultRun) : (d.setRun v).fuse = d.fuse := rfl
@[simp] theorem Dev.setRun_part48 (d : Dev) (v : VaultRun) : (d.setRun v).part48 = d.part48 := rfl
@[simp] theorem Dev.setRun_presPorts (d : Dev) (v : VaultRun) : (d.setRun v).presPorts = d.presPorts := rfl
@[simp] theorem Dev.setRun_contained (d : Dev) (v : VaultRun) : (d.setRun v).contained = d.contained := rfl
@[simp] theorem Dev.setRun_out (d : Dev) (v : VaultRun) : (d.setRun v).out = d.out := rfl
@[simp] theorem Dev.setRun_free (d : Dev) (v : VaultRun) : (d.setRun v).free = d.free := rfl
@[simp] theorem Dev.setRun_faultQ (d : Dev) (v : VaultRun) : (d.setRun v).faultQ = d.faultQ := rfl

@[simp] theorem Dev.setKennel_aon (d : Dev) (k : Kennel) : (d.setKennel k).aon = d.aon := rfl
@[simp] theorem Dev.setKennel_dict (d : Dev) (k : Kennel) : (d.setKennel k).dict = d.dict := rfl
@[simp] theorem Dev.setKennel_eff (d : Dev) (k : Kennel) : (d.setKennel k).eff = d.eff := rfl
@[simp] theorem Dev.setKennel_faults (d : Dev) (k : Kennel) : (d.setKennel k).faults = d.faults := rfl
@[simp] theorem Dev.setKennel_power (d : Dev) (k : Kennel) : (d.setKennel k).power = d.power := rfl
@[simp] theorem Dev.setKennel_doms (d : Dev) (k : Kennel) : (d.setKennel k).doms = d.doms := rfl
@[simp] theorem Dev.setKennel_sess (d : Dev) (k : Kennel) : (d.setKennel k).sess = d.sess := rfl
@[simp] theorem Dev.setKennel_cache (d : Dev) (k : Kennel) : (d.setKennel k).cache = d.cache := rfl
@[simp] theorem Dev.setKennel_energy (d : Dev) (k : Kennel) : (d.setKennel k).energy = d.energy := rfl
@[simp] theorem Dev.setKennel_vault (d : Dev) (k : Kennel) : (d.setKennel k).vault = d.vault := rfl
@[simp] theorem Dev.setKennel_kennel (d : Dev) (k : Kennel) : (d.setKennel k).kennel = k := rfl
@[simp] theorem Dev.setKennel_restore (d : Dev) (k : Kennel) : (d.setKennel k).restore = d.restore := rfl
@[simp] theorem Dev.setKennel_pack (d : Dev) (k : Kennel) : (d.setKennel k).pack = d.pack := rfl
@[simp] theorem Dev.setKennel_cores (d : Dev) (k : Kennel) : (d.setKennel k).cores = d.cores := rfl
@[simp] theorem Dev.setKennel_mem (d : Dev) (k : Kennel) : (d.setKennel k).mem = d.mem := rfl
@[simp] theorem Dev.setKennel_eng (d : Dev) (k : Kennel) : (d.setKennel k).eng = d.eng := rfl
@[simp] theorem Dev.setKennel_insts (d : Dev) (k : Kennel) : (d.setKennel k).insts = d.insts := rfl
@[simp] theorem Dev.setKennel_ports (d : Dev) (k : Kennel) : (d.setKennel k).ports = d.ports := rfl
@[simp] theorem Dev.setKennel_dram (d : Dev) (k : Kennel) : (d.setKennel k).dram = d.dram := rfl
@[simp] theorem Dev.setKennel_fuse (d : Dev) (k : Kennel) : (d.setKennel k).fuse = d.fuse := rfl
@[simp] theorem Dev.setKennel_part48 (d : Dev) (k : Kennel) : (d.setKennel k).part48 = d.part48 := rfl
@[simp] theorem Dev.setKennel_presPorts (d : Dev) (k : Kennel) : (d.setKennel k).presPorts = d.presPorts := rfl
@[simp] theorem Dev.setKennel_contained (d : Dev) (k : Kennel) : (d.setKennel k).contained = d.contained := rfl
@[simp] theorem Dev.setKennel_out (d : Dev) (k : Kennel) : (d.setKennel k).out = d.out := rfl
@[simp] theorem Dev.setKennel_free (d : Dev) (k : Kennel) : (d.setKennel k).free = d.free := rfl
@[simp] theorem Dev.setKennel_faultQ (d : Dev) (k : Kennel) : (d.setKennel k).faultQ = d.faultQ := rfl

@[simp] theorem Dev.setFaults_aon (d : Dev) (f : Faults) : (d.setFaults f).aon = d.aon := rfl
@[simp] theorem Dev.setFaults_dict (d : Dev) (f : Faults) : (d.setFaults f).dict = d.dict := rfl
@[simp] theorem Dev.setFaults_eff (d : Dev) (f : Faults) : (d.setFaults f).eff = d.eff := rfl
@[simp] theorem Dev.setFaults_faults (d : Dev) (f : Faults) : (d.setFaults f).faults = f := rfl
@[simp] theorem Dev.setFaults_power (d : Dev) (f : Faults) : (d.setFaults f).power = d.power := rfl
@[simp] theorem Dev.setFaults_doms (d : Dev) (f : Faults) : (d.setFaults f).doms = d.doms := rfl
@[simp] theorem Dev.setFaults_sess (d : Dev) (f : Faults) : (d.setFaults f).sess = d.sess := rfl
@[simp] theorem Dev.setFaults_cache (d : Dev) (f : Faults) : (d.setFaults f).cache = d.cache := rfl
@[simp] theorem Dev.setFaults_energy (d : Dev) (f : Faults) : (d.setFaults f).energy = d.energy := rfl
@[simp] theorem Dev.setFaults_vault (d : Dev) (f : Faults) : (d.setFaults f).vault = d.vault := rfl
@[simp] theorem Dev.setFaults_kennel (d : Dev) (f : Faults) : (d.setFaults f).kennel = d.kennel := rfl
@[simp] theorem Dev.setFaults_restore (d : Dev) (f : Faults) : (d.setFaults f).restore = d.restore := rfl
@[simp] theorem Dev.setFaults_pack (d : Dev) (f : Faults) : (d.setFaults f).pack = d.pack := rfl
@[simp] theorem Dev.setFaults_cores (d : Dev) (f : Faults) : (d.setFaults f).cores = d.cores := rfl
@[simp] theorem Dev.setFaults_mem (d : Dev) (f : Faults) : (d.setFaults f).mem = d.mem := rfl
@[simp] theorem Dev.setFaults_eng (d : Dev) (f : Faults) : (d.setFaults f).eng = d.eng := rfl
@[simp] theorem Dev.setFaults_insts (d : Dev) (f : Faults) : (d.setFaults f).insts = d.insts := rfl
@[simp] theorem Dev.setFaults_ports (d : Dev) (f : Faults) : (d.setFaults f).ports = d.ports := rfl
@[simp] theorem Dev.setFaults_dram (d : Dev) (f : Faults) : (d.setFaults f).dram = d.dram := rfl
@[simp] theorem Dev.setFaults_fuse (d : Dev) (f : Faults) : (d.setFaults f).fuse = d.fuse := rfl
@[simp] theorem Dev.setFaults_part48 (d : Dev) (f : Faults) : (d.setFaults f).part48 = d.part48 := rfl
@[simp] theorem Dev.setFaults_presPorts (d : Dev) (f : Faults) : (d.setFaults f).presPorts = d.presPorts := rfl
@[simp] theorem Dev.setFaults_contained (d : Dev) (f : Faults) : (d.setFaults f).contained = d.contained := rfl
@[simp] theorem Dev.setFaults_out (d : Dev) (f : Faults) : (d.setFaults f).out = d.out := rfl
@[simp] theorem Dev.setFaults_free (d : Dev) (f : Faults) : (d.setFaults f).free = d.free := rfl
@[simp] theorem Dev.setFaults_faultQ (d : Dev) (f : Faults) : (d.setFaults f).faultQ = d.faultQ := rfl

@[simp] theorem Dev.setAon_aon (d : Dev) (a : Aon) : (d.setAon a).aon = a := rfl
@[simp] theorem Dev.setAon_dict (d : Dev) (a : Aon) : (d.setAon a).dict = d.dict := rfl
@[simp] theorem Dev.setAon_eff (d : Dev) (a : Aon) : (d.setAon a).eff = d.eff := rfl
@[simp] theorem Dev.setAon_faults (d : Dev) (a : Aon) : (d.setAon a).faults = d.faults := rfl
@[simp] theorem Dev.setAon_power (d : Dev) (a : Aon) : (d.setAon a).power = d.power := rfl
@[simp] theorem Dev.setAon_doms (d : Dev) (a : Aon) : (d.setAon a).doms = d.doms := rfl
@[simp] theorem Dev.setAon_sess (d : Dev) (a : Aon) : (d.setAon a).sess = d.sess := rfl
@[simp] theorem Dev.setAon_cache (d : Dev) (a : Aon) : (d.setAon a).cache = d.cache := rfl
@[simp] theorem Dev.setAon_energy (d : Dev) (a : Aon) : (d.setAon a).energy = d.energy := rfl
@[simp] theorem Dev.setAon_vault (d : Dev) (a : Aon) : (d.setAon a).vault = d.vault := rfl
@[simp] theorem Dev.setAon_kennel (d : Dev) (a : Aon) : (d.setAon a).kennel = d.kennel := rfl
@[simp] theorem Dev.setAon_restore (d : Dev) (a : Aon) : (d.setAon a).restore = d.restore := rfl
@[simp] theorem Dev.setAon_pack (d : Dev) (a : Aon) : (d.setAon a).pack = d.pack := rfl
@[simp] theorem Dev.setAon_cores (d : Dev) (a : Aon) : (d.setAon a).cores = d.cores := rfl
@[simp] theorem Dev.setAon_mem (d : Dev) (a : Aon) : (d.setAon a).mem = d.mem := rfl
@[simp] theorem Dev.setAon_eng (d : Dev) (a : Aon) : (d.setAon a).eng = d.eng := rfl
@[simp] theorem Dev.setAon_insts (d : Dev) (a : Aon) : (d.setAon a).insts = d.insts := rfl
@[simp] theorem Dev.setAon_ports (d : Dev) (a : Aon) : (d.setAon a).ports = d.ports := rfl
@[simp] theorem Dev.setAon_dram (d : Dev) (a : Aon) : (d.setAon a).dram = d.dram := rfl
@[simp] theorem Dev.setAon_fuse (d : Dev) (a : Aon) : (d.setAon a).fuse = d.fuse := rfl
@[simp] theorem Dev.setAon_part48 (d : Dev) (a : Aon) : (d.setAon a).part48 = d.part48 := rfl
@[simp] theorem Dev.setAon_presPorts (d : Dev) (a : Aon) : (d.setAon a).presPorts = d.presPorts := rfl
@[simp] theorem Dev.setAon_contained (d : Dev) (a : Aon) : (d.setAon a).contained = d.contained := rfl
@[simp] theorem Dev.setAon_out (d : Dev) (a : Aon) : (d.setAon a).out = d.out := rfl
@[simp] theorem Dev.setAon_free (d : Dev) (a : Aon) : (d.setAon a).free = d.free := rfl
@[simp] theorem Dev.setAon_faultQ (d : Dev) (a : Aon) : (d.setAon a).faultQ = d.faultQ := rfl

@[simp] theorem Dev.setVers_aon (d : Dev) (l : List Version) : (d.setVers l).aon = d.aon := rfl
@[simp] theorem Dev.setVers_dict (d : Dev) (l : List Version) : (d.setVers l).dict = d.dict := rfl
@[simp] theorem Dev.setVers_eff (d : Dev) (l : List Version) : (d.setVers l).eff = d.eff := rfl
@[simp] theorem Dev.setVers_faults (d : Dev) (l : List Version) : (d.setVers l).faults = d.faults := rfl
@[simp] theorem Dev.setVers_power (d : Dev) (l : List Version) : (d.setVers l).power = d.power := rfl
@[simp] theorem Dev.setVers_doms (d : Dev) (l : List Version) : (d.setVers l).doms = d.doms := rfl
@[simp] theorem Dev.setVers_sess (d : Dev) (l : List Version) : (d.setVers l).sess = d.sess := rfl
@[simp] theorem Dev.setVers_cache (d : Dev) (l : List Version) : (d.setVers l).cache = { d.cache with versions := l } := rfl
@[simp] theorem Dev.setVers_energy (d : Dev) (l : List Version) : (d.setVers l).energy = d.energy := rfl
@[simp] theorem Dev.setVers_vault (d : Dev) (l : List Version) : (d.setVers l).vault = d.vault := rfl
@[simp] theorem Dev.setVers_kennel (d : Dev) (l : List Version) : (d.setVers l).kennel = d.kennel := rfl
@[simp] theorem Dev.setVers_restore (d : Dev) (l : List Version) : (d.setVers l).restore = d.restore := rfl
@[simp] theorem Dev.setVers_pack (d : Dev) (l : List Version) : (d.setVers l).pack = d.pack := rfl
@[simp] theorem Dev.setVers_cores (d : Dev) (l : List Version) : (d.setVers l).cores = d.cores := rfl
@[simp] theorem Dev.setVers_mem (d : Dev) (l : List Version) : (d.setVers l).mem = d.mem := rfl
@[simp] theorem Dev.setVers_eng (d : Dev) (l : List Version) : (d.setVers l).eng = d.eng := rfl
@[simp] theorem Dev.setVers_insts (d : Dev) (l : List Version) : (d.setVers l).insts = d.insts := rfl
@[simp] theorem Dev.setVers_ports (d : Dev) (l : List Version) : (d.setVers l).ports = d.ports := rfl
@[simp] theorem Dev.setVers_dram (d : Dev) (l : List Version) : (d.setVers l).dram = d.dram := rfl
@[simp] theorem Dev.setVers_fuse (d : Dev) (l : List Version) : (d.setVers l).fuse = d.fuse := rfl
@[simp] theorem Dev.setVers_part48 (d : Dev) (l : List Version) : (d.setVers l).part48 = d.part48 := rfl
@[simp] theorem Dev.setVers_presPorts (d : Dev) (l : List Version) : (d.setVers l).presPorts = d.presPorts := rfl
@[simp] theorem Dev.setVers_contained (d : Dev) (l : List Version) : (d.setVers l).contained = d.contained := rfl
@[simp] theorem Dev.setVers_out (d : Dev) (l : List Version) : (d.setVers l).out = d.out := rfl
@[simp] theorem Dev.setVers_free (d : Dev) (l : List Version) : (d.setVers l).free = d.free := rfl
@[simp] theorem Dev.setVers_faultQ (d : Dev) (l : List Version) : (d.setVers l).faultQ = d.faultQ := rfl

@[simp] theorem Dev.setWrites_aon (d : Dev) (l : List HostWrite) : (d.setWrites l).aon = d.aon := rfl
@[simp] theorem Dev.setWrites_dict (d : Dev) (l : List HostWrite) : (d.setWrites l).dict = d.dict := rfl
@[simp] theorem Dev.setWrites_eff (d : Dev) (l : List HostWrite) : (d.setWrites l).eff = d.eff := rfl
@[simp] theorem Dev.setWrites_faults (d : Dev) (l : List HostWrite) : (d.setWrites l).faults = d.faults := rfl
@[simp] theorem Dev.setWrites_power (d : Dev) (l : List HostWrite) : (d.setWrites l).power = d.power := rfl
@[simp] theorem Dev.setWrites_doms (d : Dev) (l : List HostWrite) : (d.setWrites l).doms = d.doms := rfl
@[simp] theorem Dev.setWrites_sess (d : Dev) (l : List HostWrite) : (d.setWrites l).sess = d.sess := rfl
@[simp] theorem Dev.setWrites_cache (d : Dev) (l : List HostWrite) : (d.setWrites l).cache = { d.cache with writes := l } := rfl
@[simp] theorem Dev.setWrites_energy (d : Dev) (l : List HostWrite) : (d.setWrites l).energy = d.energy := rfl
@[simp] theorem Dev.setWrites_vault (d : Dev) (l : List HostWrite) : (d.setWrites l).vault = d.vault := rfl
@[simp] theorem Dev.setWrites_kennel (d : Dev) (l : List HostWrite) : (d.setWrites l).kennel = d.kennel := rfl
@[simp] theorem Dev.setWrites_restore (d : Dev) (l : List HostWrite) : (d.setWrites l).restore = d.restore := rfl
@[simp] theorem Dev.setWrites_pack (d : Dev) (l : List HostWrite) : (d.setWrites l).pack = d.pack := rfl
@[simp] theorem Dev.setWrites_cores (d : Dev) (l : List HostWrite) : (d.setWrites l).cores = d.cores := rfl
@[simp] theorem Dev.setWrites_mem (d : Dev) (l : List HostWrite) : (d.setWrites l).mem = d.mem := rfl
@[simp] theorem Dev.setWrites_eng (d : Dev) (l : List HostWrite) : (d.setWrites l).eng = d.eng := rfl
@[simp] theorem Dev.setWrites_insts (d : Dev) (l : List HostWrite) : (d.setWrites l).insts = d.insts := rfl
@[simp] theorem Dev.setWrites_ports (d : Dev) (l : List HostWrite) : (d.setWrites l).ports = d.ports := rfl
@[simp] theorem Dev.setWrites_dram (d : Dev) (l : List HostWrite) : (d.setWrites l).dram = d.dram := rfl
@[simp] theorem Dev.setWrites_fuse (d : Dev) (l : List HostWrite) : (d.setWrites l).fuse = d.fuse := rfl
@[simp] theorem Dev.setWrites_part48 (d : Dev) (l : List HostWrite) : (d.setWrites l).part48 = d.part48 := rfl
@[simp] theorem Dev.setWrites_presPorts (d : Dev) (l : List HostWrite) : (d.setWrites l).presPorts = d.presPorts := rfl
@[simp] theorem Dev.setWrites_contained (d : Dev) (l : List HostWrite) : (d.setWrites l).contained = d.contained := rfl
@[simp] theorem Dev.setWrites_out (d : Dev) (l : List HostWrite) : (d.setWrites l).out = d.out := rfl
@[simp] theorem Dev.setWrites_free (d : Dev) (l : List HostWrite) : (d.setWrites l).free = d.free := rfl
@[simp] theorem Dev.setWrites_faultQ (d : Dev) (l : List HostWrite) : (d.setWrites l).faultQ = d.faultQ := rfl

@[simp] theorem Dev.setCap_aon (d : Dev) (c : CapTest) : (d.setCap c).aon = d.aon := rfl
@[simp] theorem Dev.setCap_dict (d : Dev) (c : CapTest) : (d.setCap c).dict = d.dict := rfl
@[simp] theorem Dev.setCap_eff (d : Dev) (c : CapTest) : (d.setCap c).eff = d.eff := rfl
@[simp] theorem Dev.setCap_faults (d : Dev) (c : CapTest) : (d.setCap c).faults = d.faults := rfl
@[simp] theorem Dev.setCap_power (d : Dev) (c : CapTest) : (d.setCap c).power = d.power := rfl
@[simp] theorem Dev.setCap_doms (d : Dev) (c : CapTest) : (d.setCap c).doms = d.doms := rfl
@[simp] theorem Dev.setCap_sess (d : Dev) (c : CapTest) : (d.setCap c).sess = d.sess := rfl
@[simp] theorem Dev.setCap_cache (d : Dev) (c : CapTest) : (d.setCap c).cache = d.cache := rfl
@[simp] theorem Dev.setCap_energy (d : Dev) (c : CapTest) : (d.setCap c).energy = { d.energy with cap := c } := rfl
@[simp] theorem Dev.setCap_vault (d : Dev) (c : CapTest) : (d.setCap c).vault = d.vault := rfl
@[simp] theorem Dev.setCap_kennel (d : Dev) (c : CapTest) : (d.setCap c).kennel = d.kennel := rfl
@[simp] theorem Dev.setCap_restore (d : Dev) (c : CapTest) : (d.setCap c).restore = d.restore := rfl
@[simp] theorem Dev.setCap_pack (d : Dev) (c : CapTest) : (d.setCap c).pack = d.pack := rfl
@[simp] theorem Dev.setCap_cores (d : Dev) (c : CapTest) : (d.setCap c).cores = d.cores := rfl
@[simp] theorem Dev.setCap_mem (d : Dev) (c : CapTest) : (d.setCap c).mem = d.mem := rfl
@[simp] theorem Dev.setCap_eng (d : Dev) (c : CapTest) : (d.setCap c).eng = d.eng := rfl
@[simp] theorem Dev.setCap_insts (d : Dev) (c : CapTest) : (d.setCap c).insts = d.insts := rfl
@[simp] theorem Dev.setCap_ports (d : Dev) (c : CapTest) : (d.setCap c).ports = d.ports := rfl
@[simp] theorem Dev.setCap_dram (d : Dev) (c : CapTest) : (d.setCap c).dram = d.dram := rfl
@[simp] theorem Dev.setCap_fuse (d : Dev) (c : CapTest) : (d.setCap c).fuse = d.fuse := rfl
@[simp] theorem Dev.setCap_part48 (d : Dev) (c : CapTest) : (d.setCap c).part48 = d.part48 := rfl
@[simp] theorem Dev.setCap_presPorts (d : Dev) (c : CapTest) : (d.setCap c).presPorts = d.presPorts := rfl
@[simp] theorem Dev.setCap_contained (d : Dev) (c : CapTest) : (d.setCap c).contained = d.contained := rfl
@[simp] theorem Dev.setCap_out (d : Dev) (c : CapTest) : (d.setCap c).out = d.out := rfl
@[simp] theorem Dev.setCap_free (d : Dev) (c : CapTest) : (d.setCap c).free = d.free := rfl
@[simp] theorem Dev.setCap_faultQ (d : Dev) (c : CapTest) : (d.setCap c).faultQ = d.faultQ := rfl

@[simp] theorem Dev.setQ_aon (d : Dev) (i : Nat) (e : BitVec 512) : (d.setQ i e).aon = d.aon := rfl
@[simp] theorem Dev.setQ_dict (d : Dev) (i : Nat) (e : BitVec 512) : (d.setQ i e).dict = d.dict := rfl
@[simp] theorem Dev.setQ_eff (d : Dev) (i : Nat) (e : BitVec 512) : (d.setQ i e).eff = d.eff := rfl
@[simp] theorem Dev.setQ_faults (d : Dev) (i : Nat) (e : BitVec 512) : (d.setQ i e).faults = d.faults := rfl
@[simp] theorem Dev.setQ_power (d : Dev) (i : Nat) (e : BitVec 512) : (d.setQ i e).power = d.power := rfl
@[simp] theorem Dev.setQ_doms (d : Dev) (i : Nat) (e : BitVec 512) : (d.setQ i e).doms = d.doms := rfl
@[simp] theorem Dev.setQ_sess (d : Dev) (i : Nat) (e : BitVec 512) : (d.setQ i e).sess = d.sess := rfl
@[simp] theorem Dev.setQ_cache (d : Dev) (i : Nat) (e : BitVec 512) : (d.setQ i e).cache = d.cache := rfl
@[simp] theorem Dev.setQ_energy (d : Dev) (i : Nat) (e : BitVec 512) : (d.setQ i e).energy = d.energy := rfl
@[simp] theorem Dev.setQ_vault (d : Dev) (i : Nat) (e : BitVec 512) : (d.setQ i e).vault = d.vault := rfl
@[simp] theorem Dev.setQ_kennel (d : Dev) (i : Nat) (e : BitVec 512) : (d.setQ i e).kennel = d.kennel := rfl
@[simp] theorem Dev.setQ_restore (d : Dev) (i : Nat) (e : BitVec 512) : (d.setQ i e).restore = d.restore := rfl
@[simp] theorem Dev.setQ_pack (d : Dev) (i : Nat) (e : BitVec 512) : (d.setQ i e).pack = d.pack := rfl
@[simp] theorem Dev.setQ_cores (d : Dev) (i : Nat) (e : BitVec 512) : (d.setQ i e).cores = d.cores := rfl
@[simp] theorem Dev.setQ_mem (d : Dev) (i : Nat) (e : BitVec 512) : (d.setQ i e).mem = d.mem := rfl
@[simp] theorem Dev.setQ_eng (d : Dev) (i : Nat) (e : BitVec 512) : (d.setQ i e).eng = d.eng := rfl
@[simp] theorem Dev.setQ_insts (d : Dev) (i : Nat) (e : BitVec 512) : (d.setQ i e).insts = { d.insts with queues := storeSet queueDefault d.insts.queues i e } := rfl
@[simp] theorem Dev.setQ_ports (d : Dev) (i : Nat) (e : BitVec 512) : (d.setQ i e).ports = d.ports := rfl
@[simp] theorem Dev.setQ_dram (d : Dev) (i : Nat) (e : BitVec 512) : (d.setQ i e).dram = d.dram := rfl
@[simp] theorem Dev.setQ_fuse (d : Dev) (i : Nat) (e : BitVec 512) : (d.setQ i e).fuse = d.fuse := rfl
@[simp] theorem Dev.setQ_part48 (d : Dev) (i : Nat) (e : BitVec 512) : (d.setQ i e).part48 = d.part48 := rfl
@[simp] theorem Dev.setQ_presPorts (d : Dev) (i : Nat) (e : BitVec 512) : (d.setQ i e).presPorts = d.presPorts := rfl
@[simp] theorem Dev.setQ_contained (d : Dev) (i : Nat) (e : BitVec 512) : (d.setQ i e).contained = d.contained := rfl
@[simp] theorem Dev.setQ_out (d : Dev) (i : Nat) (e : BitVec 512) : (d.setQ i e).out = d.out := rfl
@[simp] theorem Dev.setQ_free (d : Dev) (i : Nat) (e : BitVec 512) : (d.setQ i e).free = d.free := rfl
@[simp] theorem Dev.setQ_faultQ (d : Dev) (i : Nat) (e : BitVec 512) : (d.setQ i e).faultQ = d.faultQ := rfl

@[simp] theorem Dev.setQs_aon (d : Dev) (i : Nat) (x : QState) : (d.setQs i x).aon = d.aon := rfl
@[simp] theorem Dev.setQs_dict (d : Dev) (i : Nat) (x : QState) : (d.setQs i x).dict = d.dict := rfl
@[simp] theorem Dev.setQs_eff (d : Dev) (i : Nat) (x : QState) : (d.setQs i x).eff = d.eff := rfl
@[simp] theorem Dev.setQs_faults (d : Dev) (i : Nat) (x : QState) : (d.setQs i x).faults = d.faults := rfl
@[simp] theorem Dev.setQs_power (d : Dev) (i : Nat) (x : QState) : (d.setQs i x).power = d.power := rfl
@[simp] theorem Dev.setQs_doms (d : Dev) (i : Nat) (x : QState) : (d.setQs i x).doms = d.doms := rfl
@[simp] theorem Dev.setQs_sess (d : Dev) (i : Nat) (x : QState) : (d.setQs i x).sess = d.sess := rfl
@[simp] theorem Dev.setQs_cache (d : Dev) (i : Nat) (x : QState) : (d.setQs i x).cache = d.cache := rfl
@[simp] theorem Dev.setQs_energy (d : Dev) (i : Nat) (x : QState) : (d.setQs i x).energy = d.energy := rfl
@[simp] theorem Dev.setQs_vault (d : Dev) (i : Nat) (x : QState) : (d.setQs i x).vault = d.vault := rfl
@[simp] theorem Dev.setQs_kennel (d : Dev) (i : Nat) (x : QState) : (d.setQs i x).kennel = d.kennel := rfl
@[simp] theorem Dev.setQs_restore (d : Dev) (i : Nat) (x : QState) : (d.setQs i x).restore = d.restore := rfl
@[simp] theorem Dev.setQs_pack (d : Dev) (i : Nat) (x : QState) : (d.setQs i x).pack = d.pack := rfl
@[simp] theorem Dev.setQs_cores (d : Dev) (i : Nat) (x : QState) : (d.setQs i x).cores = d.cores := rfl
@[simp] theorem Dev.setQs_mem (d : Dev) (i : Nat) (x : QState) : (d.setQs i x).mem = d.mem := rfl
@[simp] theorem Dev.setQs_eng (d : Dev) (i : Nat) (x : QState) : (d.setQs i x).eng = d.eng := rfl
@[simp] theorem Dev.setQs_insts (d : Dev) (i : Nat) (x : QState) : (d.setQs i x).insts = { d.insts with qstate := storeSet noQState d.insts.qstate i x } := rfl
@[simp] theorem Dev.setQs_ports (d : Dev) (i : Nat) (x : QState) : (d.setQs i x).ports = d.ports := rfl
@[simp] theorem Dev.setQs_dram (d : Dev) (i : Nat) (x : QState) : (d.setQs i x).dram = d.dram := rfl
@[simp] theorem Dev.setQs_fuse (d : Dev) (i : Nat) (x : QState) : (d.setQs i x).fuse = d.fuse := rfl
@[simp] theorem Dev.setQs_part48 (d : Dev) (i : Nat) (x : QState) : (d.setQs i x).part48 = d.part48 := rfl
@[simp] theorem Dev.setQs_presPorts (d : Dev) (i : Nat) (x : QState) : (d.setQs i x).presPorts = d.presPorts := rfl
@[simp] theorem Dev.setQs_contained (d : Dev) (i : Nat) (x : QState) : (d.setQs i x).contained = d.contained := rfl
@[simp] theorem Dev.setQs_out (d : Dev) (i : Nat) (x : QState) : (d.setQs i x).out = d.out := rfl
@[simp] theorem Dev.setQs_free (d : Dev) (i : Nat) (x : QState) : (d.setQs i x).free = d.free := rfl
@[simp] theorem Dev.setQs_faultQ (d : Dev) (i : Nat) (x : QState) : (d.setQs i x).faultQ = d.faultQ := rfl

@[simp] theorem Dev.setCtrl_aon (d : Dev) (i : Nat) (c : Ctrl) : (d.setCtrl i c).aon = d.aon := rfl
@[simp] theorem Dev.setCtrl_dict (d : Dev) (i : Nat) (c : Ctrl) : (d.setCtrl i c).dict = d.dict := rfl
@[simp] theorem Dev.setCtrl_eff (d : Dev) (i : Nat) (c : Ctrl) : (d.setCtrl i c).eff = d.eff := rfl
@[simp] theorem Dev.setCtrl_faults (d : Dev) (i : Nat) (c : Ctrl) : (d.setCtrl i c).faults = d.faults := rfl
@[simp] theorem Dev.setCtrl_power (d : Dev) (i : Nat) (c : Ctrl) : (d.setCtrl i c).power = d.power := rfl
@[simp] theorem Dev.setCtrl_doms (d : Dev) (i : Nat) (c : Ctrl) : (d.setCtrl i c).doms = d.doms := rfl
@[simp] theorem Dev.setCtrl_sess (d : Dev) (i : Nat) (c : Ctrl) : (d.setCtrl i c).sess = d.sess := rfl
@[simp] theorem Dev.setCtrl_cache (d : Dev) (i : Nat) (c : Ctrl) : (d.setCtrl i c).cache = d.cache := rfl
@[simp] theorem Dev.setCtrl_energy (d : Dev) (i : Nat) (c : Ctrl) : (d.setCtrl i c).energy = d.energy := rfl
@[simp] theorem Dev.setCtrl_vault (d : Dev) (i : Nat) (c : Ctrl) : (d.setCtrl i c).vault = d.vault := rfl
@[simp] theorem Dev.setCtrl_kennel (d : Dev) (i : Nat) (c : Ctrl) : (d.setCtrl i c).kennel = d.kennel := rfl
@[simp] theorem Dev.setCtrl_restore (d : Dev) (i : Nat) (c : Ctrl) : (d.setCtrl i c).restore = d.restore := rfl
@[simp] theorem Dev.setCtrl_pack (d : Dev) (i : Nat) (c : Ctrl) : (d.setCtrl i c).pack = d.pack := rfl
@[simp] theorem Dev.setCtrl_cores (d : Dev) (i : Nat) (c : Ctrl) : (d.setCtrl i c).cores = d.cores := rfl
@[simp] theorem Dev.setCtrl_mem (d : Dev) (i : Nat) (c : Ctrl) : (d.setCtrl i c).mem = d.mem := rfl
@[simp] theorem Dev.setCtrl_eng (d : Dev) (i : Nat) (c : Ctrl) : (d.setCtrl i c).eng = d.eng := rfl
@[simp] theorem Dev.setCtrl_insts (d : Dev) (i : Nat) (c : Ctrl) : (d.setCtrl i c).insts = { d.insts with ctrl := storeSet noCtrl d.insts.ctrl i c } := rfl
@[simp] theorem Dev.setCtrl_ports (d : Dev) (i : Nat) (c : Ctrl) : (d.setCtrl i c).ports = d.ports := rfl
@[simp] theorem Dev.setCtrl_dram (d : Dev) (i : Nat) (c : Ctrl) : (d.setCtrl i c).dram = d.dram := rfl
@[simp] theorem Dev.setCtrl_fuse (d : Dev) (i : Nat) (c : Ctrl) : (d.setCtrl i c).fuse = d.fuse := rfl
@[simp] theorem Dev.setCtrl_part48 (d : Dev) (i : Nat) (c : Ctrl) : (d.setCtrl i c).part48 = d.part48 := rfl
@[simp] theorem Dev.setCtrl_presPorts (d : Dev) (i : Nat) (c : Ctrl) : (d.setCtrl i c).presPorts = d.presPorts := rfl
@[simp] theorem Dev.setCtrl_contained (d : Dev) (i : Nat) (c : Ctrl) : (d.setCtrl i c).contained = d.contained := rfl
@[simp] theorem Dev.setCtrl_out (d : Dev) (i : Nat) (c : Ctrl) : (d.setCtrl i c).out = d.out := rfl
@[simp] theorem Dev.setCtrl_free (d : Dev) (i : Nat) (c : Ctrl) : (d.setCtrl i c).free = d.free := rfl
@[simp] theorem Dev.setCtrl_faultQ (d : Dev) (i : Nat) (c : Ctrl) : (d.setCtrl i c).faultQ = d.faultQ := rfl

@[simp] theorem Dev.setCh_aon (d : Dev) (i : Nat) (x : Channel) : (d.setCh i x).aon = d.aon := rfl
@[simp] theorem Dev.setCh_dict (d : Dev) (i : Nat) (x : Channel) : (d.setCh i x).dict = d.dict := rfl
@[simp] theorem Dev.setCh_eff (d : Dev) (i : Nat) (x : Channel) : (d.setCh i x).eff = d.eff := rfl
@[simp] theorem Dev.setCh_faults (d : Dev) (i : Nat) (x : Channel) : (d.setCh i x).faults = d.faults := rfl
@[simp] theorem Dev.setCh_power (d : Dev) (i : Nat) (x : Channel) : (d.setCh i x).power = d.power := rfl
@[simp] theorem Dev.setCh_doms (d : Dev) (i : Nat) (x : Channel) : (d.setCh i x).doms = d.doms := rfl
@[simp] theorem Dev.setCh_sess (d : Dev) (i : Nat) (x : Channel) : (d.setCh i x).sess = d.sess := rfl
@[simp] theorem Dev.setCh_cache (d : Dev) (i : Nat) (x : Channel) : (d.setCh i x).cache = d.cache := rfl
@[simp] theorem Dev.setCh_energy (d : Dev) (i : Nat) (x : Channel) : (d.setCh i x).energy = d.energy := rfl
@[simp] theorem Dev.setCh_vault (d : Dev) (i : Nat) (x : Channel) : (d.setCh i x).vault = d.vault := rfl
@[simp] theorem Dev.setCh_kennel (d : Dev) (i : Nat) (x : Channel) : (d.setCh i x).kennel = d.kennel := rfl
@[simp] theorem Dev.setCh_restore (d : Dev) (i : Nat) (x : Channel) : (d.setCh i x).restore = d.restore := rfl
@[simp] theorem Dev.setCh_pack (d : Dev) (i : Nat) (x : Channel) : (d.setCh i x).pack = d.pack := rfl
@[simp] theorem Dev.setCh_cores (d : Dev) (i : Nat) (x : Channel) : (d.setCh i x).cores = d.cores := rfl
@[simp] theorem Dev.setCh_mem (d : Dev) (i : Nat) (x : Channel) : (d.setCh i x).mem = { d.mem with chans := storeSet noChannel d.mem.chans i x } := rfl
@[simp] theorem Dev.setCh_eng (d : Dev) (i : Nat) (x : Channel) : (d.setCh i x).eng = d.eng := rfl
@[simp] theorem Dev.setCh_insts (d : Dev) (i : Nat) (x : Channel) : (d.setCh i x).insts = d.insts := rfl
@[simp] theorem Dev.setCh_ports (d : Dev) (i : Nat) (x : Channel) : (d.setCh i x).ports = d.ports := rfl
@[simp] theorem Dev.setCh_dram (d : Dev) (i : Nat) (x : Channel) : (d.setCh i x).dram = d.dram := rfl
@[simp] theorem Dev.setCh_fuse (d : Dev) (i : Nat) (x : Channel) : (d.setCh i x).fuse = d.fuse := rfl
@[simp] theorem Dev.setCh_part48 (d : Dev) (i : Nat) (x : Channel) : (d.setCh i x).part48 = d.part48 := rfl
@[simp] theorem Dev.setCh_presPorts (d : Dev) (i : Nat) (x : Channel) : (d.setCh i x).presPorts = d.presPorts := rfl
@[simp] theorem Dev.setCh_contained (d : Dev) (i : Nat) (x : Channel) : (d.setCh i x).contained = d.contained := rfl
@[simp] theorem Dev.setCh_out (d : Dev) (i : Nat) (x : Channel) : (d.setCh i x).out = d.out := rfl
@[simp] theorem Dev.setCh_free (d : Dev) (i : Nat) (x : Channel) : (d.setCh i x).free = d.free := rfl
@[simp] theorem Dev.setCh_faultQ (d : Dev) (i : Nat) (x : Channel) : (d.setCh i x).faultQ = d.faultQ := rfl

@[simp] theorem Dev.setSlot_aon (d : Dev) (i : Nat) (x : JobSlot) : (d.setSlot i x).aon = d.aon := rfl
@[simp] theorem Dev.setSlot_dict (d : Dev) (i : Nat) (x : JobSlot) : (d.setSlot i x).dict = d.dict := rfl
@[simp] theorem Dev.setSlot_eff (d : Dev) (i : Nat) (x : JobSlot) : (d.setSlot i x).eff = d.eff := rfl
@[simp] theorem Dev.setSlot_faults (d : Dev) (i : Nat) (x : JobSlot) : (d.setSlot i x).faults = d.faults := rfl
@[simp] theorem Dev.setSlot_power (d : Dev) (i : Nat) (x : JobSlot) : (d.setSlot i x).power = d.power := rfl
@[simp] theorem Dev.setSlot_doms (d : Dev) (i : Nat) (x : JobSlot) : (d.setSlot i x).doms = d.doms := rfl
@[simp] theorem Dev.setSlot_sess (d : Dev) (i : Nat) (x : JobSlot) : (d.setSlot i x).sess = d.sess := rfl
@[simp] theorem Dev.setSlot_cache (d : Dev) (i : Nat) (x : JobSlot) : (d.setSlot i x).cache = d.cache := rfl
@[simp] theorem Dev.setSlot_energy (d : Dev) (i : Nat) (x : JobSlot) : (d.setSlot i x).energy = d.energy := rfl
@[simp] theorem Dev.setSlot_vault (d : Dev) (i : Nat) (x : JobSlot) : (d.setSlot i x).vault = d.vault := rfl
@[simp] theorem Dev.setSlot_kennel (d : Dev) (i : Nat) (x : JobSlot) : (d.setSlot i x).kennel = d.kennel := rfl
@[simp] theorem Dev.setSlot_restore (d : Dev) (i : Nat) (x : JobSlot) : (d.setSlot i x).restore = d.restore := rfl
@[simp] theorem Dev.setSlot_pack (d : Dev) (i : Nat) (x : JobSlot) : (d.setSlot i x).pack = d.pack := rfl
@[simp] theorem Dev.setSlot_cores (d : Dev) (i : Nat) (x : JobSlot) : (d.setSlot i x).cores = d.cores := rfl
@[simp] theorem Dev.setSlot_mem (d : Dev) (i : Nat) (x : JobSlot) : (d.setSlot i x).mem = d.mem := rfl
@[simp] theorem Dev.setSlot_eng (d : Dev) (i : Nat) (x : JobSlot) : (d.setSlot i x).eng = { d.eng with slots := storeSet noJob d.eng.slots i x } := rfl
@[simp] theorem Dev.setSlot_insts (d : Dev) (i : Nat) (x : JobSlot) : (d.setSlot i x).insts = d.insts := rfl
@[simp] theorem Dev.setSlot_ports (d : Dev) (i : Nat) (x : JobSlot) : (d.setSlot i x).ports = d.ports := rfl
@[simp] theorem Dev.setSlot_dram (d : Dev) (i : Nat) (x : JobSlot) : (d.setSlot i x).dram = d.dram := rfl
@[simp] theorem Dev.setSlot_fuse (d : Dev) (i : Nat) (x : JobSlot) : (d.setSlot i x).fuse = d.fuse := rfl
@[simp] theorem Dev.setSlot_part48 (d : Dev) (i : Nat) (x : JobSlot) : (d.setSlot i x).part48 = d.part48 := rfl
@[simp] theorem Dev.setSlot_presPorts (d : Dev) (i : Nat) (x : JobSlot) : (d.setSlot i x).presPorts = d.presPorts := rfl
@[simp] theorem Dev.setSlot_contained (d : Dev) (i : Nat) (x : JobSlot) : (d.setSlot i x).contained = d.contained := rfl
@[simp] theorem Dev.setSlot_out (d : Dev) (i : Nat) (x : JobSlot) : (d.setSlot i x).out = d.out := rfl
@[simp] theorem Dev.setSlot_free (d : Dev) (i : Nat) (x : JobSlot) : (d.setSlot i x).free = d.free := rfl
@[simp] theorem Dev.setSlot_faultQ (d : Dev) (i : Nat) (x : JobSlot) : (d.setSlot i x).faultQ = d.faultQ := rfl

@[simp] theorem Dev.setCtx_aon (d : Dev) (c : Nat) (x : Context) : (d.setCtx c x).aon = d.aon := rfl
@[simp] theorem Dev.setCtx_dict (d : Dev) (c : Nat) (x : Context) : (d.setCtx c x).dict = d.dict := rfl
@[simp] theorem Dev.setCtx_eff (d : Dev) (c : Nat) (x : Context) : (d.setCtx c x).eff = d.eff := rfl
@[simp] theorem Dev.setCtx_faults (d : Dev) (c : Nat) (x : Context) : (d.setCtx c x).faults = d.faults := rfl
@[simp] theorem Dev.setCtx_power (d : Dev) (c : Nat) (x : Context) : (d.setCtx c x).power = d.power := rfl
@[simp] theorem Dev.setCtx_doms (d : Dev) (c : Nat) (x : Context) : (d.setCtx c x).doms = d.doms := rfl
@[simp] theorem Dev.setCtx_sess (d : Dev) (c : Nat) (x : Context) : (d.setCtx c x).sess = d.sess := rfl
@[simp] theorem Dev.setCtx_cache (d : Dev) (c : Nat) (x : Context) : (d.setCtx c x).cache = d.cache := rfl
@[simp] theorem Dev.setCtx_energy (d : Dev) (c : Nat) (x : Context) : (d.setCtx c x).energy = d.energy := rfl
@[simp] theorem Dev.setCtx_vault (d : Dev) (c : Nat) (x : Context) : (d.setCtx c x).vault = d.vault := rfl
@[simp] theorem Dev.setCtx_kennel (d : Dev) (c : Nat) (x : Context) : (d.setCtx c x).kennel = d.kennel := rfl
@[simp] theorem Dev.setCtx_restore (d : Dev) (c : Nat) (x : Context) : (d.setCtx c x).restore = d.restore := rfl
@[simp] theorem Dev.setCtx_pack (d : Dev) (c : Nat) (x : Context) : (d.setCtx c x).pack = d.pack := rfl
@[simp] theorem Dev.setCtx_cores (d : Dev) (c : Nat) (x : Context) : (d.setCtx c x).cores = d.cores := rfl
@[simp] theorem Dev.setCtx_mem (d : Dev) (c : Nat) (x : Context) : (d.setCtx c x).mem = { d.mem with contexts := storeSet noContext d.mem.contexts c x } := rfl
@[simp] theorem Dev.setCtx_eng (d : Dev) (c : Nat) (x : Context) : (d.setCtx c x).eng = d.eng := rfl
@[simp] theorem Dev.setCtx_insts (d : Dev) (c : Nat) (x : Context) : (d.setCtx c x).insts = d.insts := rfl
@[simp] theorem Dev.setCtx_ports (d : Dev) (c : Nat) (x : Context) : (d.setCtx c x).ports = d.ports := rfl
@[simp] theorem Dev.setCtx_dram (d : Dev) (c : Nat) (x : Context) : (d.setCtx c x).dram = d.dram := rfl
@[simp] theorem Dev.setCtx_fuse (d : Dev) (c : Nat) (x : Context) : (d.setCtx c x).fuse = d.fuse := rfl
@[simp] theorem Dev.setCtx_part48 (d : Dev) (c : Nat) (x : Context) : (d.setCtx c x).part48 = d.part48 := rfl
@[simp] theorem Dev.setCtx_presPorts (d : Dev) (c : Nat) (x : Context) : (d.setCtx c x).presPorts = d.presPorts := rfl
@[simp] theorem Dev.setCtx_contained (d : Dev) (c : Nat) (x : Context) : (d.setCtx c x).contained = d.contained := rfl
@[simp] theorem Dev.setCtx_out (d : Dev) (c : Nat) (x : Context) : (d.setCtx c x).out = d.out := rfl
@[simp] theorem Dev.setCtx_free (d : Dev) (c : Nat) (x : Context) : (d.setCtx c x).free = d.free := rfl
@[simp] theorem Dev.setCtx_faultQ (d : Dev) (c : Nat) (x : Context) : (d.setCtx c x).faultQ = d.faultQ := rfl

@[simp] theorem Dev.setVol_aon (d : Dev) (v : Nat) (e : BitVec 16384) : (d.setVol v e).aon = d.aon := rfl
@[simp] theorem Dev.setVol_dict (d : Dev) (v : Nat) (e : BitVec 16384) : (d.setVol v e).dict = d.dict := rfl
@[simp] theorem Dev.setVol_eff (d : Dev) (v : Nat) (e : BitVec 16384) : (d.setVol v e).eff = d.eff := rfl
@[simp] theorem Dev.setVol_faults (d : Dev) (v : Nat) (e : BitVec 16384) : (d.setVol v e).faults = d.faults := rfl
@[simp] theorem Dev.setVol_power (d : Dev) (v : Nat) (e : BitVec 16384) : (d.setVol v e).power = d.power := rfl
@[simp] theorem Dev.setVol_doms (d : Dev) (v : Nat) (e : BitVec 16384) : (d.setVol v e).doms = d.doms := rfl
@[simp] theorem Dev.setVol_sess (d : Dev) (v : Nat) (e : BitVec 16384) : (d.setVol v e).sess = d.sess := rfl
@[simp] theorem Dev.setVol_cache (d : Dev) (v : Nat) (e : BitVec 16384) : (d.setVol v e).cache = { d.cache with volumes := storeSet volDefault d.cache.volumes v e } := rfl
@[simp] theorem Dev.setVol_energy (d : Dev) (v : Nat) (e : BitVec 16384) : (d.setVol v e).energy = d.energy := rfl
@[simp] theorem Dev.setVol_vault (d : Dev) (v : Nat) (e : BitVec 16384) : (d.setVol v e).vault = d.vault := rfl
@[simp] theorem Dev.setVol_kennel (d : Dev) (v : Nat) (e : BitVec 16384) : (d.setVol v e).kennel = d.kennel := rfl
@[simp] theorem Dev.setVol_restore (d : Dev) (v : Nat) (e : BitVec 16384) : (d.setVol v e).restore = d.restore := rfl
@[simp] theorem Dev.setVol_pack (d : Dev) (v : Nat) (e : BitVec 16384) : (d.setVol v e).pack = d.pack := rfl
@[simp] theorem Dev.setVol_cores (d : Dev) (v : Nat) (e : BitVec 16384) : (d.setVol v e).cores = d.cores := rfl
@[simp] theorem Dev.setVol_mem (d : Dev) (v : Nat) (e : BitVec 16384) : (d.setVol v e).mem = d.mem := rfl
@[simp] theorem Dev.setVol_eng (d : Dev) (v : Nat) (e : BitVec 16384) : (d.setVol v e).eng = d.eng := rfl
@[simp] theorem Dev.setVol_insts (d : Dev) (v : Nat) (e : BitVec 16384) : (d.setVol v e).insts = d.insts := rfl
@[simp] theorem Dev.setVol_ports (d : Dev) (v : Nat) (e : BitVec 16384) : (d.setVol v e).ports = d.ports := rfl
@[simp] theorem Dev.setVol_dram (d : Dev) (v : Nat) (e : BitVec 16384) : (d.setVol v e).dram = d.dram := rfl
@[simp] theorem Dev.setVol_fuse (d : Dev) (v : Nat) (e : BitVec 16384) : (d.setVol v e).fuse = d.fuse := rfl
@[simp] theorem Dev.setVol_part48 (d : Dev) (v : Nat) (e : BitVec 16384) : (d.setVol v e).part48 = d.part48 := rfl
@[simp] theorem Dev.setVol_presPorts (d : Dev) (v : Nat) (e : BitVec 16384) : (d.setVol v e).presPorts = d.presPorts := rfl
@[simp] theorem Dev.setVol_contained (d : Dev) (v : Nat) (e : BitVec 16384) : (d.setVol v e).contained = d.contained := rfl
@[simp] theorem Dev.setVol_out (d : Dev) (v : Nat) (e : BitVec 16384) : (d.setVol v e).out = d.out := rfl
@[simp] theorem Dev.setVol_free (d : Dev) (v : Nat) (e : BitVec 16384) : (d.setVol v e).free = d.free := rfl
@[simp] theorem Dev.setVol_faultQ (d : Dev) (v : Nat) (e : BitVec 16384) : (d.setVol v e).faultQ = d.faultQ := rfl

@[simp] theorem Dev.setPack_aon (d : Dev) (p : Pack) : (d.setPack p).aon = d.aon := rfl
@[simp] theorem Dev.setPack_dict (d : Dev) (p : Pack) : (d.setPack p).dict = d.dict := rfl
@[simp] theorem Dev.setPack_eff (d : Dev) (p : Pack) : (d.setPack p).eff = d.eff := rfl
@[simp] theorem Dev.setPack_faults (d : Dev) (p : Pack) : (d.setPack p).faults = d.faults := rfl
@[simp] theorem Dev.setPack_power (d : Dev) (p : Pack) : (d.setPack p).power = d.power := rfl
@[simp] theorem Dev.setPack_doms (d : Dev) (p : Pack) : (d.setPack p).doms = d.doms := rfl
@[simp] theorem Dev.setPack_sess (d : Dev) (p : Pack) : (d.setPack p).sess = d.sess := rfl
@[simp] theorem Dev.setPack_cache (d : Dev) (p : Pack) : (d.setPack p).cache = d.cache := rfl
@[simp] theorem Dev.setPack_energy (d : Dev) (p : Pack) : (d.setPack p).energy = d.energy := rfl
@[simp] theorem Dev.setPack_vault (d : Dev) (p : Pack) : (d.setPack p).vault = d.vault := rfl
@[simp] theorem Dev.setPack_kennel (d : Dev) (p : Pack) : (d.setPack p).kennel = d.kennel := rfl
@[simp] theorem Dev.setPack_restore (d : Dev) (p : Pack) : (d.setPack p).restore = d.restore := rfl
@[simp] theorem Dev.setPack_pack (d : Dev) (p : Pack) : (d.setPack p).pack = p := rfl
@[simp] theorem Dev.setPack_cores (d : Dev) (p : Pack) : (d.setPack p).cores = d.cores := rfl
@[simp] theorem Dev.setPack_mem (d : Dev) (p : Pack) : (d.setPack p).mem = d.mem := rfl
@[simp] theorem Dev.setPack_eng (d : Dev) (p : Pack) : (d.setPack p).eng = d.eng := rfl
@[simp] theorem Dev.setPack_insts (d : Dev) (p : Pack) : (d.setPack p).insts = d.insts := rfl
@[simp] theorem Dev.setPack_ports (d : Dev) (p : Pack) : (d.setPack p).ports = d.ports := rfl
@[simp] theorem Dev.setPack_dram (d : Dev) (p : Pack) : (d.setPack p).dram = d.dram := rfl
@[simp] theorem Dev.setPack_fuse (d : Dev) (p : Pack) : (d.setPack p).fuse = d.fuse := rfl
@[simp] theorem Dev.setPack_part48 (d : Dev) (p : Pack) : (d.setPack p).part48 = d.part48 := rfl
@[simp] theorem Dev.setPack_presPorts (d : Dev) (p : Pack) : (d.setPack p).presPorts = d.presPorts := rfl
@[simp] theorem Dev.setPack_contained (d : Dev) (p : Pack) : (d.setPack p).contained = d.contained := rfl
@[simp] theorem Dev.setPack_out (d : Dev) (p : Pack) : (d.setPack p).out = d.out := rfl
@[simp] theorem Dev.setPack_free (d : Dev) (p : Pack) : (d.setPack p).free = d.free := rfl
@[simp] theorem Dev.setPack_faultQ (d : Dev) (p : Pack) : (d.setPack p).faultQ = d.faultQ := rfl

@[simp] theorem Dev.setRestore_aon (d : Dev) (r : Restore) : (d.setRestore r).aon = d.aon := rfl
@[simp] theorem Dev.setRestore_dict (d : Dev) (r : Restore) : (d.setRestore r).dict = d.dict := rfl
@[simp] theorem Dev.setRestore_eff (d : Dev) (r : Restore) : (d.setRestore r).eff = d.eff := rfl
@[simp] theorem Dev.setRestore_faults (d : Dev) (r : Restore) : (d.setRestore r).faults = d.faults := rfl
@[simp] theorem Dev.setRestore_power (d : Dev) (r : Restore) : (d.setRestore r).power = d.power := rfl
@[simp] theorem Dev.setRestore_doms (d : Dev) (r : Restore) : (d.setRestore r).doms = d.doms := rfl
@[simp] theorem Dev.setRestore_sess (d : Dev) (r : Restore) : (d.setRestore r).sess = d.sess := rfl
@[simp] theorem Dev.setRestore_cache (d : Dev) (r : Restore) : (d.setRestore r).cache = d.cache := rfl
@[simp] theorem Dev.setRestore_energy (d : Dev) (r : Restore) : (d.setRestore r).energy = d.energy := rfl
@[simp] theorem Dev.setRestore_vault (d : Dev) (r : Restore) : (d.setRestore r).vault = d.vault := rfl
@[simp] theorem Dev.setRestore_kennel (d : Dev) (r : Restore) : (d.setRestore r).kennel = d.kennel := rfl
@[simp] theorem Dev.setRestore_restore (d : Dev) (r : Restore) : (d.setRestore r).restore = r := rfl
@[simp] theorem Dev.setRestore_pack (d : Dev) (r : Restore) : (d.setRestore r).pack = d.pack := rfl
@[simp] theorem Dev.setRestore_cores (d : Dev) (r : Restore) : (d.setRestore r).cores = d.cores := rfl
@[simp] theorem Dev.setRestore_mem (d : Dev) (r : Restore) : (d.setRestore r).mem = d.mem := rfl
@[simp] theorem Dev.setRestore_eng (d : Dev) (r : Restore) : (d.setRestore r).eng = d.eng := rfl
@[simp] theorem Dev.setRestore_insts (d : Dev) (r : Restore) : (d.setRestore r).insts = d.insts := rfl
@[simp] theorem Dev.setRestore_ports (d : Dev) (r : Restore) : (d.setRestore r).ports = d.ports := rfl
@[simp] theorem Dev.setRestore_dram (d : Dev) (r : Restore) : (d.setRestore r).dram = d.dram := rfl
@[simp] theorem Dev.setRestore_fuse (d : Dev) (r : Restore) : (d.setRestore r).fuse = d.fuse := rfl
@[simp] theorem Dev.setRestore_part48 (d : Dev) (r : Restore) : (d.setRestore r).part48 = d.part48 := rfl
@[simp] theorem Dev.setRestore_presPorts (d : Dev) (r : Restore) : (d.setRestore r).presPorts = d.presPorts := rfl
@[simp] theorem Dev.setRestore_contained (d : Dev) (r : Restore) : (d.setRestore r).contained = d.contained := rfl
@[simp] theorem Dev.setRestore_out (d : Dev) (r : Restore) : (d.setRestore r).out = d.out := rfl
@[simp] theorem Dev.setRestore_free (d : Dev) (r : Restore) : (d.setRestore r).free = d.free := rfl
@[simp] theorem Dev.setRestore_faultQ (d : Dev) (r : Restore) : (d.setRestore r).faultQ = d.faultQ := rfl

@[simp] theorem Dev.setAvs_aon (d : Dev) (q : Nat) (a : Avs) : (d.setAvs q a).aon = d.aon := rfl
@[simp] theorem Dev.setAvs_dict (d : Dev) (q : Nat) (a : Avs) : (d.setAvs q a).dict = d.dict := rfl
@[simp] theorem Dev.setAvs_eff (d : Dev) (q : Nat) (a : Avs) : (d.setAvs q a).eff = d.eff := rfl
@[simp] theorem Dev.setAvs_faults (d : Dev) (q : Nat) (a : Avs) : (d.setAvs q a).faults = d.faults := rfl
@[simp] theorem Dev.setAvs_power (d : Dev) (q : Nat) (a : Avs) : (d.setAvs q a).power = { d.power with avs := storeSet avs0 d.power.avs q a } := rfl
@[simp] theorem Dev.setAvs_doms (d : Dev) (q : Nat) (a : Avs) : (d.setAvs q a).doms = d.doms := rfl
@[simp] theorem Dev.setAvs_sess (d : Dev) (q : Nat) (a : Avs) : (d.setAvs q a).sess = d.sess := rfl
@[simp] theorem Dev.setAvs_cache (d : Dev) (q : Nat) (a : Avs) : (d.setAvs q a).cache = d.cache := rfl
@[simp] theorem Dev.setAvs_energy (d : Dev) (q : Nat) (a : Avs) : (d.setAvs q a).energy = d.energy := rfl
@[simp] theorem Dev.setAvs_vault (d : Dev) (q : Nat) (a : Avs) : (d.setAvs q a).vault = d.vault := rfl
@[simp] theorem Dev.setAvs_kennel (d : Dev) (q : Nat) (a : Avs) : (d.setAvs q a).kennel = d.kennel := rfl
@[simp] theorem Dev.setAvs_restore (d : Dev) (q : Nat) (a : Avs) : (d.setAvs q a).restore = d.restore := rfl
@[simp] theorem Dev.setAvs_pack (d : Dev) (q : Nat) (a : Avs) : (d.setAvs q a).pack = d.pack := rfl
@[simp] theorem Dev.setAvs_cores (d : Dev) (q : Nat) (a : Avs) : (d.setAvs q a).cores = d.cores := rfl
@[simp] theorem Dev.setAvs_mem (d : Dev) (q : Nat) (a : Avs) : (d.setAvs q a).mem = d.mem := rfl
@[simp] theorem Dev.setAvs_eng (d : Dev) (q : Nat) (a : Avs) : (d.setAvs q a).eng = d.eng := rfl
@[simp] theorem Dev.setAvs_insts (d : Dev) (q : Nat) (a : Avs) : (d.setAvs q a).insts = d.insts := rfl
@[simp] theorem Dev.setAvs_ports (d : Dev) (q : Nat) (a : Avs) : (d.setAvs q a).ports = d.ports := rfl
@[simp] theorem Dev.setAvs_dram (d : Dev) (q : Nat) (a : Avs) : (d.setAvs q a).dram = d.dram := rfl
@[simp] theorem Dev.setAvs_fuse (d : Dev) (q : Nat) (a : Avs) : (d.setAvs q a).fuse = d.fuse := rfl
@[simp] theorem Dev.setAvs_part48 (d : Dev) (q : Nat) (a : Avs) : (d.setAvs q a).part48 = d.part48 := rfl
@[simp] theorem Dev.setAvs_presPorts (d : Dev) (q : Nat) (a : Avs) : (d.setAvs q a).presPorts = d.presPorts := rfl
@[simp] theorem Dev.setAvs_contained (d : Dev) (q : Nat) (a : Avs) : (d.setAvs q a).contained = d.contained := rfl
@[simp] theorem Dev.setAvs_out (d : Dev) (q : Nat) (a : Avs) : (d.setAvs q a).out = d.out := rfl
@[simp] theorem Dev.setAvs_free (d : Dev) (q : Nat) (a : Avs) : (d.setAvs q a).free = d.free := rfl
@[simp] theorem Dev.setAvs_faultQ (d : Dev) (q : Nat) (a : Avs) : (d.setAvs q a).faultQ = d.faultQ := rfl
@[simp] theorem Dev.setFills_aon (d : Dev) (l : List Fill) : (d.setFills l).aon = d.aon := rfl
@[simp] theorem Dev.setFills_dict (d : Dev) (l : List Fill) : (d.setFills l).dict = d.dict := rfl
@[simp] theorem Dev.setFills_eff (d : Dev) (l : List Fill) : (d.setFills l).eff = d.eff := rfl
@[simp] theorem Dev.setFills_faults (d : Dev) (l : List Fill) : (d.setFills l).faults = d.faults := rfl
@[simp] theorem Dev.setFills_power (d : Dev) (l : List Fill) : (d.setFills l).power = d.power := rfl
@[simp] theorem Dev.setFills_doms (d : Dev) (l : List Fill) : (d.setFills l).doms = d.doms := rfl
@[simp] theorem Dev.setFills_sess (d : Dev) (l : List Fill) : (d.setFills l).sess = d.sess := rfl
@[simp] theorem Dev.setFills_cache (d : Dev) (l : List Fill) : (d.setFills l).cache = { d.cache with fills := l } := rfl
@[simp] theorem Dev.setFills_energy (d : Dev) (l : List Fill) : (d.setFills l).energy = d.energy := rfl
@[simp] theorem Dev.setFills_vault (d : Dev) (l : List Fill) : (d.setFills l).vault = d.vault := rfl
@[simp] theorem Dev.setFills_kennel (d : Dev) (l : List Fill) : (d.setFills l).kennel = d.kennel := rfl
@[simp] theorem Dev.setFills_restore (d : Dev) (l : List Fill) : (d.setFills l).restore = d.restore := rfl
@[simp] theorem Dev.setFills_pack (d : Dev) (l : List Fill) : (d.setFills l).pack = d.pack := rfl
@[simp] theorem Dev.setFills_cores (d : Dev) (l : List Fill) : (d.setFills l).cores = d.cores := rfl
@[simp] theorem Dev.setFills_mem (d : Dev) (l : List Fill) : (d.setFills l).mem = d.mem := rfl
@[simp] theorem Dev.setFills_eng (d : Dev) (l : List Fill) : (d.setFills l).eng = d.eng := rfl
@[simp] theorem Dev.setFills_insts (d : Dev) (l : List Fill) : (d.setFills l).insts = d.insts := rfl
@[simp] theorem Dev.setFills_ports (d : Dev) (l : List Fill) : (d.setFills l).ports = d.ports := rfl
@[simp] theorem Dev.setFills_dram (d : Dev) (l : List Fill) : (d.setFills l).dram = d.dram := rfl
@[simp] theorem Dev.setFills_fuse (d : Dev) (l : List Fill) : (d.setFills l).fuse = d.fuse := rfl
@[simp] theorem Dev.setFills_part48 (d : Dev) (l : List Fill) : (d.setFills l).part48 = d.part48 := rfl
@[simp] theorem Dev.setFills_presPorts (d : Dev) (l : List Fill) : (d.setFills l).presPorts = d.presPorts := rfl
@[simp] theorem Dev.setFills_contained (d : Dev) (l : List Fill) : (d.setFills l).contained = d.contained := rfl
@[simp] theorem Dev.setFills_out (d : Dev) (l : List Fill) : (d.setFills l).out = d.out := rfl
@[simp] theorem Dev.setFills_free (d : Dev) (l : List Fill) : (d.setFills l).free = d.free := rfl
@[simp] theorem Dev.setFills_faultQ (d : Dev) (l : List Fill) : (d.setFills l).faultQ = d.faultQ := rfl

@[simp] theorem Dev.setDestages_aon (d : Dev) (l : List Destage) : (d.setDestages l).aon = d.aon := rfl
@[simp] theorem Dev.setDestages_dict (d : Dev) (l : List Destage) : (d.setDestages l).dict = d.dict := rfl
@[simp] theorem Dev.setDestages_eff (d : Dev) (l : List Destage) : (d.setDestages l).eff = d.eff := rfl
@[simp] theorem Dev.setDestages_faults (d : Dev) (l : List Destage) : (d.setDestages l).faults = d.faults := rfl
@[simp] theorem Dev.setDestages_power (d : Dev) (l : List Destage) : (d.setDestages l).power = d.power := rfl
@[simp] theorem Dev.setDestages_doms (d : Dev) (l : List Destage) : (d.setDestages l).doms = d.doms := rfl
@[simp] theorem Dev.setDestages_sess (d : Dev) (l : List Destage) : (d.setDestages l).sess = d.sess := rfl
@[simp] theorem Dev.setDestages_cache (d : Dev) (l : List Destage) : (d.setDestages l).cache = { d.cache with destages := l } := rfl
@[simp] theorem Dev.setDestages_energy (d : Dev) (l : List Destage) : (d.setDestages l).energy = d.energy := rfl
@[simp] theorem Dev.setDestages_vault (d : Dev) (l : List Destage) : (d.setDestages l).vault = d.vault := rfl
@[simp] theorem Dev.setDestages_kennel (d : Dev) (l : List Destage) : (d.setDestages l).kennel = d.kennel := rfl
@[simp] theorem Dev.setDestages_restore (d : Dev) (l : List Destage) : (d.setDestages l).restore = d.restore := rfl
@[simp] theorem Dev.setDestages_pack (d : Dev) (l : List Destage) : (d.setDestages l).pack = d.pack := rfl
@[simp] theorem Dev.setDestages_cores (d : Dev) (l : List Destage) : (d.setDestages l).cores = d.cores := rfl
@[simp] theorem Dev.setDestages_mem (d : Dev) (l : List Destage) : (d.setDestages l).mem = d.mem := rfl
@[simp] theorem Dev.setDestages_eng (d : Dev) (l : List Destage) : (d.setDestages l).eng = d.eng := rfl
@[simp] theorem Dev.setDestages_insts (d : Dev) (l : List Destage) : (d.setDestages l).insts = d.insts := rfl
@[simp] theorem Dev.setDestages_ports (d : Dev) (l : List Destage) : (d.setDestages l).ports = d.ports := rfl
@[simp] theorem Dev.setDestages_dram (d : Dev) (l : List Destage) : (d.setDestages l).dram = d.dram := rfl
@[simp] theorem Dev.setDestages_fuse (d : Dev) (l : List Destage) : (d.setDestages l).fuse = d.fuse := rfl
@[simp] theorem Dev.setDestages_part48 (d : Dev) (l : List Destage) : (d.setDestages l).part48 = d.part48 := rfl
@[simp] theorem Dev.setDestages_presPorts (d : Dev) (l : List Destage) : (d.setDestages l).presPorts = d.presPorts := rfl
@[simp] theorem Dev.setDestages_contained (d : Dev) (l : List Destage) : (d.setDestages l).contained = d.contained := rfl
@[simp] theorem Dev.setDestages_out (d : Dev) (l : List Destage) : (d.setDestages l).out = d.out := rfl
@[simp] theorem Dev.setDestages_free (d : Dev) (l : List Destage) : (d.setDestages l).free = d.free := rfl
@[simp] theorem Dev.setDestages_faultQ (d : Dev) (l : List Destage) : (d.setDestages l).faultQ = d.faultQ := rfl

@[simp] theorem Dev.setFlushes_aon (d : Dev) (l : List DriveFlush) : (d.setFlushes l).aon = d.aon := rfl
@[simp] theorem Dev.setFlushes_dict (d : Dev) (l : List DriveFlush) : (d.setFlushes l).dict = d.dict := rfl
@[simp] theorem Dev.setFlushes_eff (d : Dev) (l : List DriveFlush) : (d.setFlushes l).eff = d.eff := rfl
@[simp] theorem Dev.setFlushes_faults (d : Dev) (l : List DriveFlush) : (d.setFlushes l).faults = d.faults := rfl
@[simp] theorem Dev.setFlushes_power (d : Dev) (l : List DriveFlush) : (d.setFlushes l).power = d.power := rfl
@[simp] theorem Dev.setFlushes_doms (d : Dev) (l : List DriveFlush) : (d.setFlushes l).doms = d.doms := rfl
@[simp] theorem Dev.setFlushes_sess (d : Dev) (l : List DriveFlush) : (d.setFlushes l).sess = d.sess := rfl
@[simp] theorem Dev.setFlushes_cache (d : Dev) (l : List DriveFlush) : (d.setFlushes l).cache = { d.cache with flushes := l } := rfl
@[simp] theorem Dev.setFlushes_energy (d : Dev) (l : List DriveFlush) : (d.setFlushes l).energy = d.energy := rfl
@[simp] theorem Dev.setFlushes_vault (d : Dev) (l : List DriveFlush) : (d.setFlushes l).vault = d.vault := rfl
@[simp] theorem Dev.setFlushes_kennel (d : Dev) (l : List DriveFlush) : (d.setFlushes l).kennel = d.kennel := rfl
@[simp] theorem Dev.setFlushes_restore (d : Dev) (l : List DriveFlush) : (d.setFlushes l).restore = d.restore := rfl
@[simp] theorem Dev.setFlushes_pack (d : Dev) (l : List DriveFlush) : (d.setFlushes l).pack = d.pack := rfl
@[simp] theorem Dev.setFlushes_cores (d : Dev) (l : List DriveFlush) : (d.setFlushes l).cores = d.cores := rfl
@[simp] theorem Dev.setFlushes_mem (d : Dev) (l : List DriveFlush) : (d.setFlushes l).mem = d.mem := rfl
@[simp] theorem Dev.setFlushes_eng (d : Dev) (l : List DriveFlush) : (d.setFlushes l).eng = d.eng := rfl
@[simp] theorem Dev.setFlushes_insts (d : Dev) (l : List DriveFlush) : (d.setFlushes l).insts = d.insts := rfl
@[simp] theorem Dev.setFlushes_ports (d : Dev) (l : List DriveFlush) : (d.setFlushes l).ports = d.ports := rfl
@[simp] theorem Dev.setFlushes_dram (d : Dev) (l : List DriveFlush) : (d.setFlushes l).dram = d.dram := rfl
@[simp] theorem Dev.setFlushes_fuse (d : Dev) (l : List DriveFlush) : (d.setFlushes l).fuse = d.fuse := rfl
@[simp] theorem Dev.setFlushes_part48 (d : Dev) (l : List DriveFlush) : (d.setFlushes l).part48 = d.part48 := rfl
@[simp] theorem Dev.setFlushes_presPorts (d : Dev) (l : List DriveFlush) : (d.setFlushes l).presPorts = d.presPorts := rfl
@[simp] theorem Dev.setFlushes_contained (d : Dev) (l : List DriveFlush) : (d.setFlushes l).contained = d.contained := rfl
@[simp] theorem Dev.setFlushes_out (d : Dev) (l : List DriveFlush) : (d.setFlushes l).out = d.out := rfl
@[simp] theorem Dev.setFlushes_free (d : Dev) (l : List DriveFlush) : (d.setFlushes l).free = d.free := rfl
@[simp] theorem Dev.setFlushes_faultQ (d : Dev) (l : List DriveFlush) : (d.setFlushes l).faultQ = d.faultQ := rfl

@[simp] theorem Dev.setCmds_aon (d : Dev) (l : List HostCmd) : (d.setCmds l).aon = d.aon := rfl
@[simp] theorem Dev.setCmds_dict (d : Dev) (l : List HostCmd) : (d.setCmds l).dict = d.dict := rfl
@[simp] theorem Dev.setCmds_eff (d : Dev) (l : List HostCmd) : (d.setCmds l).eff = d.eff := rfl
@[simp] theorem Dev.setCmds_faults (d : Dev) (l : List HostCmd) : (d.setCmds l).faults = d.faults := rfl
@[simp] theorem Dev.setCmds_power (d : Dev) (l : List HostCmd) : (d.setCmds l).power = d.power := rfl
@[simp] theorem Dev.setCmds_doms (d : Dev) (l : List HostCmd) : (d.setCmds l).doms = d.doms := rfl
@[simp] theorem Dev.setCmds_sess (d : Dev) (l : List HostCmd) : (d.setCmds l).sess = d.sess := rfl
@[simp] theorem Dev.setCmds_cache (d : Dev) (l : List HostCmd) : (d.setCmds l).cache = d.cache := rfl
@[simp] theorem Dev.setCmds_energy (d : Dev) (l : List HostCmd) : (d.setCmds l).energy = d.energy := rfl
@[simp] theorem Dev.setCmds_vault (d : Dev) (l : List HostCmd) : (d.setCmds l).vault = d.vault := rfl
@[simp] theorem Dev.setCmds_kennel (d : Dev) (l : List HostCmd) : (d.setCmds l).kennel = d.kennel := rfl
@[simp] theorem Dev.setCmds_restore (d : Dev) (l : List HostCmd) : (d.setCmds l).restore = d.restore := rfl
@[simp] theorem Dev.setCmds_pack (d : Dev) (l : List HostCmd) : (d.setCmds l).pack = d.pack := rfl
@[simp] theorem Dev.setCmds_cores (d : Dev) (l : List HostCmd) : (d.setCmds l).cores = d.cores := rfl
@[simp] theorem Dev.setCmds_mem (d : Dev) (l : List HostCmd) : (d.setCmds l).mem = d.mem := rfl
@[simp] theorem Dev.setCmds_eng (d : Dev) (l : List HostCmd) : (d.setCmds l).eng = d.eng := rfl
@[simp] theorem Dev.setCmds_insts (d : Dev) (l : List HostCmd) : (d.setCmds l).insts = { d.insts with cmds := l } := rfl
@[simp] theorem Dev.setCmds_ports (d : Dev) (l : List HostCmd) : (d.setCmds l).ports = d.ports := rfl
@[simp] theorem Dev.setCmds_dram (d : Dev) (l : List HostCmd) : (d.setCmds l).dram = d.dram := rfl
@[simp] theorem Dev.setCmds_fuse (d : Dev) (l : List HostCmd) : (d.setCmds l).fuse = d.fuse := rfl
@[simp] theorem Dev.setCmds_part48 (d : Dev) (l : List HostCmd) : (d.setCmds l).part48 = d.part48 := rfl
@[simp] theorem Dev.setCmds_presPorts (d : Dev) (l : List HostCmd) : (d.setCmds l).presPorts = d.presPorts := rfl
@[simp] theorem Dev.setCmds_contained (d : Dev) (l : List HostCmd) : (d.setCmds l).contained = d.contained := rfl
@[simp] theorem Dev.setCmds_out (d : Dev) (l : List HostCmd) : (d.setCmds l).out = d.out := rfl
@[simp] theorem Dev.setCmds_free (d : Dev) (l : List HostCmd) : (d.setCmds l).free = d.free := rfl
@[simp] theorem Dev.setCmds_faultQ (d : Dev) (l : List HostCmd) : (d.setCmds l).faultQ = d.faultQ := rfl

@[simp] theorem Dev.setPads_aon (d : Dev) (l : List Nat) : (d.setPads l).aon = d.aon := rfl
@[simp] theorem Dev.setPads_dict (d : Dev) (l : List Nat) : (d.setPads l).dict = d.dict := rfl
@[simp] theorem Dev.setPads_eff (d : Dev) (l : List Nat) : (d.setPads l).eff = d.eff := rfl
@[simp] theorem Dev.setPads_faults (d : Dev) (l : List Nat) : (d.setPads l).faults = d.faults := rfl
@[simp] theorem Dev.setPads_power (d : Dev) (l : List Nat) : (d.setPads l).power = d.power := rfl
@[simp] theorem Dev.setPads_doms (d : Dev) (l : List Nat) : (d.setPads l).doms = { d.doms with padHeld := l } := rfl
@[simp] theorem Dev.setPads_sess (d : Dev) (l : List Nat) : (d.setPads l).sess = d.sess := rfl
@[simp] theorem Dev.setPads_cache (d : Dev) (l : List Nat) : (d.setPads l).cache = d.cache := rfl
@[simp] theorem Dev.setPads_energy (d : Dev) (l : List Nat) : (d.setPads l).energy = d.energy := rfl
@[simp] theorem Dev.setPads_vault (d : Dev) (l : List Nat) : (d.setPads l).vault = d.vault := rfl
@[simp] theorem Dev.setPads_kennel (d : Dev) (l : List Nat) : (d.setPads l).kennel = d.kennel := rfl
@[simp] theorem Dev.setPads_restore (d : Dev) (l : List Nat) : (d.setPads l).restore = d.restore := rfl
@[simp] theorem Dev.setPads_pack (d : Dev) (l : List Nat) : (d.setPads l).pack = d.pack := rfl
@[simp] theorem Dev.setPads_cores (d : Dev) (l : List Nat) : (d.setPads l).cores = d.cores := rfl
@[simp] theorem Dev.setPads_mem (d : Dev) (l : List Nat) : (d.setPads l).mem = d.mem := rfl
@[simp] theorem Dev.setPads_eng (d : Dev) (l : List Nat) : (d.setPads l).eng = d.eng := rfl
@[simp] theorem Dev.setPads_insts (d : Dev) (l : List Nat) : (d.setPads l).insts = d.insts := rfl
@[simp] theorem Dev.setPads_ports (d : Dev) (l : List Nat) : (d.setPads l).ports = d.ports := rfl
@[simp] theorem Dev.setPads_dram (d : Dev) (l : List Nat) : (d.setPads l).dram = d.dram := rfl
@[simp] theorem Dev.setPads_fuse (d : Dev) (l : List Nat) : (d.setPads l).fuse = d.fuse := rfl
@[simp] theorem Dev.setPads_part48 (d : Dev) (l : List Nat) : (d.setPads l).part48 = d.part48 := rfl
@[simp] theorem Dev.setPads_presPorts (d : Dev) (l : List Nat) : (d.setPads l).presPorts = d.presPorts := rfl
@[simp] theorem Dev.setPads_contained (d : Dev) (l : List Nat) : (d.setPads l).contained = d.contained := rfl
@[simp] theorem Dev.setPads_out (d : Dev) (l : List Nat) : (d.setPads l).out = d.out := rfl
@[simp] theorem Dev.setPads_free (d : Dev) (l : List Nat) : (d.setPads l).free = d.free := rfl
@[simp] theorem Dev.setPads_faultQ (d : Dev) (l : List Nat) : (d.setPads l).faultQ = d.faultQ := rfl

@[simp] theorem Dev.setSub_aon (d : Dev) (i : Nat) (x : SubChan) : (d.setSub i x).aon = d.aon := rfl
@[simp] theorem Dev.setSub_dict (d : Dev) (i : Nat) (x : SubChan) : (d.setSub i x).dict = d.dict := rfl
@[simp] theorem Dev.setSub_eff (d : Dev) (i : Nat) (x : SubChan) : (d.setSub i x).eff = d.eff := rfl
@[simp] theorem Dev.setSub_faults (d : Dev) (i : Nat) (x : SubChan) : (d.setSub i x).faults = d.faults := rfl
@[simp] theorem Dev.setSub_power (d : Dev) (i : Nat) (x : SubChan) : (d.setSub i x).power = d.power := rfl
@[simp] theorem Dev.setSub_doms (d : Dev) (i : Nat) (x : SubChan) : (d.setSub i x).doms = d.doms := rfl
@[simp] theorem Dev.setSub_sess (d : Dev) (i : Nat) (x : SubChan) : (d.setSub i x).sess = d.sess := rfl
@[simp] theorem Dev.setSub_cache (d : Dev) (i : Nat) (x : SubChan) : (d.setSub i x).cache = d.cache := rfl
@[simp] theorem Dev.setSub_energy (d : Dev) (i : Nat) (x : SubChan) : (d.setSub i x).energy = d.energy := rfl
@[simp] theorem Dev.setSub_vault (d : Dev) (i : Nat) (x : SubChan) : (d.setSub i x).vault = d.vault := rfl
@[simp] theorem Dev.setSub_kennel (d : Dev) (i : Nat) (x : SubChan) : (d.setSub i x).kennel = d.kennel := rfl
@[simp] theorem Dev.setSub_restore (d : Dev) (i : Nat) (x : SubChan) : (d.setSub i x).restore = d.restore := rfl
@[simp] theorem Dev.setSub_pack (d : Dev) (i : Nat) (x : SubChan) : (d.setSub i x).pack = d.pack := rfl
@[simp] theorem Dev.setSub_cores (d : Dev) (i : Nat) (x : SubChan) : (d.setSub i x).cores = d.cores := rfl
@[simp] theorem Dev.setSub_mem (d : Dev) (i : Nat) (x : SubChan) : (d.setSub i x).mem = d.mem := rfl
@[simp] theorem Dev.setSub_eng (d : Dev) (i : Nat) (x : SubChan) : (d.setSub i x).eng = d.eng := rfl
@[simp] theorem Dev.setSub_insts (d : Dev) (i : Nat) (x : SubChan) : (d.setSub i x).insts = d.insts := rfl
@[simp] theorem Dev.setSub_ports (d : Dev) (i : Nat) (x : SubChan) : (d.setSub i x).ports = d.ports := rfl
@[simp] theorem Dev.setSub_dram (d : Dev) (i : Nat) (x : SubChan) : (d.setSub i x).dram = { d.dram with subs := storeSet noSub d.dram.subs i x } := rfl
@[simp] theorem Dev.setSub_fuse (d : Dev) (i : Nat) (x : SubChan) : (d.setSub i x).fuse = d.fuse := rfl
@[simp] theorem Dev.setSub_part48 (d : Dev) (i : Nat) (x : SubChan) : (d.setSub i x).part48 = d.part48 := rfl
@[simp] theorem Dev.setSub_presPorts (d : Dev) (i : Nat) (x : SubChan) : (d.setSub i x).presPorts = d.presPorts := rfl
@[simp] theorem Dev.setSub_contained (d : Dev) (i : Nat) (x : SubChan) : (d.setSub i x).contained = d.contained := rfl
@[simp] theorem Dev.setSub_out (d : Dev) (i : Nat) (x : SubChan) : (d.setSub i x).out = d.out := rfl
@[simp] theorem Dev.setSub_free (d : Dev) (i : Nat) (x : SubChan) : (d.setSub i x).free = d.free := rfl
@[simp] theorem Dev.setSub_faultQ (d : Dev) (i : Nat) (x : SubChan) : (d.setSub i x).faultQ = d.faultQ := rfl

@[simp] theorem Dev.setDrill_aon (d : Dev) (x : Drill) : (d.setDrill x).aon = d.aon := rfl
@[simp] theorem Dev.setDrill_dict (d : Dev) (x : Drill) : (d.setDrill x).dict = d.dict := rfl
@[simp] theorem Dev.setDrill_eff (d : Dev) (x : Drill) : (d.setDrill x).eff = d.eff := rfl
@[simp] theorem Dev.setDrill_faults (d : Dev) (x : Drill) : (d.setDrill x).faults = d.faults := rfl
@[simp] theorem Dev.setDrill_power (d : Dev) (x : Drill) : (d.setDrill x).power = d.power := rfl
@[simp] theorem Dev.setDrill_doms (d : Dev) (x : Drill) : (d.setDrill x).doms = d.doms := rfl
@[simp] theorem Dev.setDrill_sess (d : Dev) (x : Drill) : (d.setDrill x).sess = d.sess := rfl
@[simp] theorem Dev.setDrill_cache (d : Dev) (x : Drill) : (d.setDrill x).cache = d.cache := rfl
@[simp] theorem Dev.setDrill_energy (d : Dev) (x : Drill) : (d.setDrill x).energy = { d.energy with drill := x } := rfl
@[simp] theorem Dev.setDrill_vault (d : Dev) (x : Drill) : (d.setDrill x).vault = d.vault := rfl
@[simp] theorem Dev.setDrill_kennel (d : Dev) (x : Drill) : (d.setDrill x).kennel = d.kennel := rfl
@[simp] theorem Dev.setDrill_restore (d : Dev) (x : Drill) : (d.setDrill x).restore = d.restore := rfl
@[simp] theorem Dev.setDrill_pack (d : Dev) (x : Drill) : (d.setDrill x).pack = d.pack := rfl
@[simp] theorem Dev.setDrill_cores (d : Dev) (x : Drill) : (d.setDrill x).cores = d.cores := rfl
@[simp] theorem Dev.setDrill_mem (d : Dev) (x : Drill) : (d.setDrill x).mem = d.mem := rfl
@[simp] theorem Dev.setDrill_eng (d : Dev) (x : Drill) : (d.setDrill x).eng = d.eng := rfl
@[simp] theorem Dev.setDrill_insts (d : Dev) (x : Drill) : (d.setDrill x).insts = d.insts := rfl
@[simp] theorem Dev.setDrill_ports (d : Dev) (x : Drill) : (d.setDrill x).ports = d.ports := rfl
@[simp] theorem Dev.setDrill_dram (d : Dev) (x : Drill) : (d.setDrill x).dram = d.dram := rfl
@[simp] theorem Dev.setDrill_fuse (d : Dev) (x : Drill) : (d.setDrill x).fuse = d.fuse := rfl
@[simp] theorem Dev.setDrill_part48 (d : Dev) (x : Drill) : (d.setDrill x).part48 = d.part48 := rfl
@[simp] theorem Dev.setDrill_presPorts (d : Dev) (x : Drill) : (d.setDrill x).presPorts = d.presPorts := rfl
@[simp] theorem Dev.setDrill_contained (d : Dev) (x : Drill) : (d.setDrill x).contained = d.contained := rfl
@[simp] theorem Dev.setDrill_out (d : Dev) (x : Drill) : (d.setDrill x).out = d.out := rfl
@[simp] theorem Dev.setDrill_free (d : Dev) (x : Drill) : (d.setDrill x).free = d.free := rfl
@[simp] theorem Dev.setDrill_faultQ (d : Dev) (x : Drill) : (d.setDrill x).faultQ = d.faultQ := rfl

@[simp] theorem Dev.setFuse_aon (d : Dev) (f : Fuse) : (d.setFuse f).aon = d.aon := rfl
@[simp] theorem Dev.setFuse_dict (d : Dev) (f : Fuse) : (d.setFuse f).dict = d.dict := rfl
@[simp] theorem Dev.setFuse_eff (d : Dev) (f : Fuse) : (d.setFuse f).eff = d.eff := rfl
@[simp] theorem Dev.setFuse_faults (d : Dev) (f : Fuse) : (d.setFuse f).faults = d.faults := rfl
@[simp] theorem Dev.setFuse_power (d : Dev) (f : Fuse) : (d.setFuse f).power = d.power := rfl
@[simp] theorem Dev.setFuse_doms (d : Dev) (f : Fuse) : (d.setFuse f).doms = d.doms := rfl
@[simp] theorem Dev.setFuse_sess (d : Dev) (f : Fuse) : (d.setFuse f).sess = d.sess := rfl
@[simp] theorem Dev.setFuse_cache (d : Dev) (f : Fuse) : (d.setFuse f).cache = d.cache := rfl
@[simp] theorem Dev.setFuse_energy (d : Dev) (f : Fuse) : (d.setFuse f).energy = d.energy := rfl
@[simp] theorem Dev.setFuse_vault (d : Dev) (f : Fuse) : (d.setFuse f).vault = d.vault := rfl
@[simp] theorem Dev.setFuse_kennel (d : Dev) (f : Fuse) : (d.setFuse f).kennel = d.kennel := rfl
@[simp] theorem Dev.setFuse_restore (d : Dev) (f : Fuse) : (d.setFuse f).restore = d.restore := rfl
@[simp] theorem Dev.setFuse_pack (d : Dev) (f : Fuse) : (d.setFuse f).pack = d.pack := rfl
@[simp] theorem Dev.setFuse_cores (d : Dev) (f : Fuse) : (d.setFuse f).cores = d.cores := rfl
@[simp] theorem Dev.setFuse_mem (d : Dev) (f : Fuse) : (d.setFuse f).mem = d.mem := rfl
@[simp] theorem Dev.setFuse_eng (d : Dev) (f : Fuse) : (d.setFuse f).eng = d.eng := rfl
@[simp] theorem Dev.setFuse_insts (d : Dev) (f : Fuse) : (d.setFuse f).insts = d.insts := rfl
@[simp] theorem Dev.setFuse_ports (d : Dev) (f : Fuse) : (d.setFuse f).ports = d.ports := rfl
@[simp] theorem Dev.setFuse_dram (d : Dev) (f : Fuse) : (d.setFuse f).dram = d.dram := rfl
@[simp] theorem Dev.setFuse_fuse (d : Dev) (f : Fuse) : (d.setFuse f).fuse = f := rfl
@[simp] theorem Dev.setFuse_part48 (d : Dev) (f : Fuse) : (d.setFuse f).part48 = d.part48 := rfl
@[simp] theorem Dev.setFuse_presPorts (d : Dev) (f : Fuse) : (d.setFuse f).presPorts = d.presPorts := rfl
@[simp] theorem Dev.setFuse_contained (d : Dev) (f : Fuse) : (d.setFuse f).contained = d.contained := rfl
@[simp] theorem Dev.setFuse_out (d : Dev) (f : Fuse) : (d.setFuse f).out = d.out := rfl
@[simp] theorem Dev.setFuse_free (d : Dev) (f : Fuse) : (d.setFuse f).free = d.free := rfl
@[simp] theorem Dev.setFuse_faultQ (d : Dev) (f : Fuse) : (d.setFuse f).faultQ = d.faultQ := rfl

@[simp] theorem Dev.setIrun_aon (d : Dev) (i : Nat) (x : InstRun) : (d.setIrun i x).aon = d.aon := rfl
@[simp] theorem Dev.setIrun_dict (d : Dev) (i : Nat) (x : InstRun) : (d.setIrun i x).dict = d.dict := rfl
@[simp] theorem Dev.setIrun_eff (d : Dev) (i : Nat) (x : InstRun) : (d.setIrun i x).eff = d.eff := rfl
@[simp] theorem Dev.setIrun_faults (d : Dev) (i : Nat) (x : InstRun) : (d.setIrun i x).faults = d.faults := rfl
@[simp] theorem Dev.setIrun_power (d : Dev) (i : Nat) (x : InstRun) : (d.setIrun i x).power = d.power := rfl
@[simp] theorem Dev.setIrun_doms (d : Dev) (i : Nat) (x : InstRun) : (d.setIrun i x).doms = d.doms := rfl
@[simp] theorem Dev.setIrun_sess (d : Dev) (i : Nat) (x : InstRun) : (d.setIrun i x).sess = d.sess := rfl
@[simp] theorem Dev.setIrun_cache (d : Dev) (i : Nat) (x : InstRun) : (d.setIrun i x).cache = d.cache := rfl
@[simp] theorem Dev.setIrun_energy (d : Dev) (i : Nat) (x : InstRun) : (d.setIrun i x).energy = d.energy := rfl
@[simp] theorem Dev.setIrun_vault (d : Dev) (i : Nat) (x : InstRun) : (d.setIrun i x).vault = d.vault := rfl
@[simp] theorem Dev.setIrun_kennel (d : Dev) (i : Nat) (x : InstRun) : (d.setIrun i x).kennel = d.kennel := rfl
@[simp] theorem Dev.setIrun_restore (d : Dev) (i : Nat) (x : InstRun) : (d.setIrun i x).restore = d.restore := rfl
@[simp] theorem Dev.setIrun_pack (d : Dev) (i : Nat) (x : InstRun) : (d.setIrun i x).pack = d.pack := rfl
@[simp] theorem Dev.setIrun_cores (d : Dev) (i : Nat) (x : InstRun) : (d.setIrun i x).cores = d.cores := rfl
@[simp] theorem Dev.setIrun_mem (d : Dev) (i : Nat) (x : InstRun) : (d.setIrun i x).mem = d.mem := rfl
@[simp] theorem Dev.setIrun_eng (d : Dev) (i : Nat) (x : InstRun) : (d.setIrun i x).eng = d.eng := rfl
@[simp] theorem Dev.setIrun_insts (d : Dev) (i : Nat) (x : InstRun) : (d.setIrun i x).insts = { d.insts with run := storeSet noInstRun d.insts.run i x } := rfl
@[simp] theorem Dev.setIrun_ports (d : Dev) (i : Nat) (x : InstRun) : (d.setIrun i x).ports = d.ports := rfl
@[simp] theorem Dev.setIrun_dram (d : Dev) (i : Nat) (x : InstRun) : (d.setIrun i x).dram = d.dram := rfl
@[simp] theorem Dev.setIrun_fuse (d : Dev) (i : Nat) (x : InstRun) : (d.setIrun i x).fuse = d.fuse := rfl
@[simp] theorem Dev.setIrun_part48 (d : Dev) (i : Nat) (x : InstRun) : (d.setIrun i x).part48 = d.part48 := rfl
@[simp] theorem Dev.setIrun_presPorts (d : Dev) (i : Nat) (x : InstRun) : (d.setIrun i x).presPorts = d.presPorts := rfl
@[simp] theorem Dev.setIrun_contained (d : Dev) (i : Nat) (x : InstRun) : (d.setIrun i x).contained = d.contained := rfl
@[simp] theorem Dev.setIrun_out (d : Dev) (i : Nat) (x : InstRun) : (d.setIrun i x).out = d.out := rfl
@[simp] theorem Dev.setIrun_free (d : Dev) (i : Nat) (x : InstRun) : (d.setIrun i x).free = d.free := rfl
@[simp] theorem Dev.setIrun_faultQ (d : Dev) (i : Nat) (x : InstRun) : (d.setIrun i x).faultQ = d.faultQ := rfl

@[simp] theorem Dev.setLock_aon (d : Dev) (role : Nat) (l : Lockout) : (d.setLock role l).aon = d.aon := rfl
@[simp] theorem Dev.setLock_dict (d : Dev) (role : Nat) (l : Lockout) : (d.setLock role l).dict = d.dict := rfl
@[simp] theorem Dev.setLock_eff (d : Dev) (role : Nat) (l : Lockout) : (d.setLock role l).eff = d.eff := rfl
@[simp] theorem Dev.setLock_faults (d : Dev) (role : Nat) (l : Lockout) : (d.setLock role l).faults = d.faults := rfl
@[simp] theorem Dev.setLock_power (d : Dev) (role : Nat) (l : Lockout) : (d.setLock role l).power = d.power := rfl
@[simp] theorem Dev.setLock_doms (d : Dev) (role : Nat) (l : Lockout) : (d.setLock role l).doms = d.doms := rfl
@[simp] theorem Dev.setLock_sess (d : Dev) (role : Nat) (l : Lockout) : (d.setLock role l).sess = { d.sess with lock := storeSet noLockout d.sess.lock role l } := rfl
@[simp] theorem Dev.setLock_cache (d : Dev) (role : Nat) (l : Lockout) : (d.setLock role l).cache = d.cache := rfl
@[simp] theorem Dev.setLock_energy (d : Dev) (role : Nat) (l : Lockout) : (d.setLock role l).energy = d.energy := rfl
@[simp] theorem Dev.setLock_vault (d : Dev) (role : Nat) (l : Lockout) : (d.setLock role l).vault = d.vault := rfl
@[simp] theorem Dev.setLock_kennel (d : Dev) (role : Nat) (l : Lockout) : (d.setLock role l).kennel = d.kennel := rfl
@[simp] theorem Dev.setLock_restore (d : Dev) (role : Nat) (l : Lockout) : (d.setLock role l).restore = d.restore := rfl
@[simp] theorem Dev.setLock_pack (d : Dev) (role : Nat) (l : Lockout) : (d.setLock role l).pack = d.pack := rfl
@[simp] theorem Dev.setLock_cores (d : Dev) (role : Nat) (l : Lockout) : (d.setLock role l).cores = d.cores := rfl
@[simp] theorem Dev.setLock_mem (d : Dev) (role : Nat) (l : Lockout) : (d.setLock role l).mem = d.mem := rfl
@[simp] theorem Dev.setLock_eng (d : Dev) (role : Nat) (l : Lockout) : (d.setLock role l).eng = d.eng := rfl
@[simp] theorem Dev.setLock_insts (d : Dev) (role : Nat) (l : Lockout) : (d.setLock role l).insts = d.insts := rfl
@[simp] theorem Dev.setLock_ports (d : Dev) (role : Nat) (l : Lockout) : (d.setLock role l).ports = d.ports := rfl
@[simp] theorem Dev.setLock_dram (d : Dev) (role : Nat) (l : Lockout) : (d.setLock role l).dram = d.dram := rfl
@[simp] theorem Dev.setLock_fuse (d : Dev) (role : Nat) (l : Lockout) : (d.setLock role l).fuse = d.fuse := rfl
@[simp] theorem Dev.setLock_part48 (d : Dev) (role : Nat) (l : Lockout) : (d.setLock role l).part48 = d.part48 := rfl
@[simp] theorem Dev.setLock_presPorts (d : Dev) (role : Nat) (l : Lockout) : (d.setLock role l).presPorts = d.presPorts := rfl
@[simp] theorem Dev.setLock_contained (d : Dev) (role : Nat) (l : Lockout) : (d.setLock role l).contained = d.contained := rfl
@[simp] theorem Dev.setLock_out (d : Dev) (role : Nat) (l : Lockout) : (d.setLock role l).out = d.out := rfl
@[simp] theorem Dev.setLock_free (d : Dev) (role : Nat) (l : Lockout) : (d.setLock role l).free = d.free := rfl
@[simp] theorem Dev.setLock_faultQ (d : Dev) (role : Nat) (l : Lockout) : (d.setLock role l).faultQ = d.faultQ := rfl

@[simp] theorem Dev.setAsm_aon (d : Dev) (l : List Assembly) : (d.setAsm l).aon = d.aon := rfl
@[simp] theorem Dev.setAsm_dict (d : Dev) (l : List Assembly) : (d.setAsm l).dict = d.dict := rfl
@[simp] theorem Dev.setAsm_eff (d : Dev) (l : List Assembly) : (d.setAsm l).eff = d.eff := rfl
@[simp] theorem Dev.setAsm_faults (d : Dev) (l : List Assembly) : (d.setAsm l).faults = d.faults := rfl
@[simp] theorem Dev.setAsm_power (d : Dev) (l : List Assembly) : (d.setAsm l).power = d.power := rfl
@[simp] theorem Dev.setAsm_doms (d : Dev) (l : List Assembly) : (d.setAsm l).doms = d.doms := rfl
@[simp] theorem Dev.setAsm_sess (d : Dev) (l : List Assembly) : (d.setAsm l).sess = { d.sess with asm := l } := rfl
@[simp] theorem Dev.setAsm_cache (d : Dev) (l : List Assembly) : (d.setAsm l).cache = d.cache := rfl
@[simp] theorem Dev.setAsm_energy (d : Dev) (l : List Assembly) : (d.setAsm l).energy = d.energy := rfl
@[simp] theorem Dev.setAsm_vault (d : Dev) (l : List Assembly) : (d.setAsm l).vault = d.vault := rfl
@[simp] theorem Dev.setAsm_kennel (d : Dev) (l : List Assembly) : (d.setAsm l).kennel = d.kennel := rfl
@[simp] theorem Dev.setAsm_restore (d : Dev) (l : List Assembly) : (d.setAsm l).restore = d.restore := rfl
@[simp] theorem Dev.setAsm_pack (d : Dev) (l : List Assembly) : (d.setAsm l).pack = d.pack := rfl
@[simp] theorem Dev.setAsm_cores (d : Dev) (l : List Assembly) : (d.setAsm l).cores = d.cores := rfl
@[simp] theorem Dev.setAsm_mem (d : Dev) (l : List Assembly) : (d.setAsm l).mem = d.mem := rfl
@[simp] theorem Dev.setAsm_eng (d : Dev) (l : List Assembly) : (d.setAsm l).eng = d.eng := rfl
@[simp] theorem Dev.setAsm_insts (d : Dev) (l : List Assembly) : (d.setAsm l).insts = d.insts := rfl
@[simp] theorem Dev.setAsm_ports (d : Dev) (l : List Assembly) : (d.setAsm l).ports = d.ports := rfl
@[simp] theorem Dev.setAsm_dram (d : Dev) (l : List Assembly) : (d.setAsm l).dram = d.dram := rfl
@[simp] theorem Dev.setAsm_fuse (d : Dev) (l : List Assembly) : (d.setAsm l).fuse = d.fuse := rfl
@[simp] theorem Dev.setAsm_part48 (d : Dev) (l : List Assembly) : (d.setAsm l).part48 = d.part48 := rfl
@[simp] theorem Dev.setAsm_presPorts (d : Dev) (l : List Assembly) : (d.setAsm l).presPorts = d.presPorts := rfl
@[simp] theorem Dev.setAsm_contained (d : Dev) (l : List Assembly) : (d.setAsm l).contained = d.contained := rfl
@[simp] theorem Dev.setAsm_out (d : Dev) (l : List Assembly) : (d.setAsm l).out = d.out := rfl
@[simp] theorem Dev.setAsm_free (d : Dev) (l : List Assembly) : (d.setAsm l).free = d.free := rfl
@[simp] theorem Dev.setAsm_faultQ (d : Dev) (l : List Assembly) : (d.setAsm l).faultQ = d.faultQ := rfl

@[simp] theorem Dev.dropReq_aon (d : Dev) (prg : Nat) : (d.dropReq prg).aon = d.aon := rfl
@[simp] theorem Dev.dropReq_dict (d : Dev) (prg : Nat) : (d.dropReq prg).dict = d.dict := rfl
@[simp] theorem Dev.dropReq_eff (d : Dev) (prg : Nat) : (d.dropReq prg).eff = d.eff := rfl
@[simp] theorem Dev.dropReq_faults (d : Dev) (prg : Nat) : (d.dropReq prg).faults = d.faults := rfl
@[simp] theorem Dev.dropReq_power (d : Dev) (prg : Nat) : (d.dropReq prg).power = d.power := rfl
@[simp] theorem Dev.dropReq_doms (d : Dev) (prg : Nat) : (d.dropReq prg).doms = d.doms := rfl
@[simp] theorem Dev.dropReq_sess (d : Dev) (prg : Nat) : (d.dropReq prg).sess = d.sess := rfl
@[simp] theorem Dev.dropReq_cache (d : Dev) (prg : Nat) : (d.dropReq prg).cache = d.cache := rfl
@[simp] theorem Dev.dropReq_energy (d : Dev) (prg : Nat) : (d.dropReq prg).energy = d.energy := rfl
@[simp] theorem Dev.dropReq_vault (d : Dev) (prg : Nat) : (d.dropReq prg).vault = d.vault := rfl
@[simp] theorem Dev.dropReq_kennel (d : Dev) (prg : Nat) : (d.dropReq prg).kennel = d.kennel := rfl
@[simp] theorem Dev.dropReq_restore (d : Dev) (prg : Nat) : (d.dropReq prg).restore = d.restore := rfl
@[simp] theorem Dev.dropReq_pack (d : Dev) (prg : Nat) : (d.dropReq prg).pack = d.pack := rfl
@[simp] theorem Dev.dropReq_cores (d : Dev) (prg : Nat) : (d.dropReq prg).cores = d.cores := rfl
@[simp] theorem Dev.dropReq_mem (d : Dev) (prg : Nat) : (d.dropReq prg).mem = { d.mem with preqs := d.mem.preqs.filter (·.prg ≠ prg) } := rfl
@[simp] theorem Dev.dropReq_eng (d : Dev) (prg : Nat) : (d.dropReq prg).eng = d.eng := rfl
@[simp] theorem Dev.dropReq_insts (d : Dev) (prg : Nat) : (d.dropReq prg).insts = d.insts := rfl
@[simp] theorem Dev.dropReq_ports (d : Dev) (prg : Nat) : (d.dropReq prg).ports = d.ports := rfl
@[simp] theorem Dev.dropReq_dram (d : Dev) (prg : Nat) : (d.dropReq prg).dram = d.dram := rfl
@[simp] theorem Dev.dropReq_fuse (d : Dev) (prg : Nat) : (d.dropReq prg).fuse = d.fuse := rfl
@[simp] theorem Dev.dropReq_part48 (d : Dev) (prg : Nat) : (d.dropReq prg).part48 = d.part48 := rfl
@[simp] theorem Dev.dropReq_presPorts (d : Dev) (prg : Nat) : (d.dropReq prg).presPorts = d.presPorts := rfl
@[simp] theorem Dev.dropReq_contained (d : Dev) (prg : Nat) : (d.dropReq prg).contained = d.contained := rfl
@[simp] theorem Dev.dropReq_out (d : Dev) (prg : Nat) : (d.dropReq prg).out = d.out := rfl
@[simp] theorem Dev.dropReq_free (d : Dev) (prg : Nat) : (d.dropReq prg).free = d.free := rfl
@[simp] theorem Dev.dropReq_faultQ (d : Dev) (prg : Nat) : (d.dropReq prg).faultQ = d.faultQ := rfl

@[simp] theorem Dev.tlbEmpty_aon (d : Dev) : (d.tlbEmpty).aon = d.aon := rfl
@[simp] theorem Dev.tlbEmpty_dict (d : Dev) : (d.tlbEmpty).dict = d.dict := rfl
@[simp] theorem Dev.tlbEmpty_eff (d : Dev) : (d.tlbEmpty).eff = d.eff := rfl
@[simp] theorem Dev.tlbEmpty_faults (d : Dev) : (d.tlbEmpty).faults = d.faults := rfl
@[simp] theorem Dev.tlbEmpty_power (d : Dev) : (d.tlbEmpty).power = d.power := rfl
@[simp] theorem Dev.tlbEmpty_doms (d : Dev) : (d.tlbEmpty).doms = d.doms := rfl
@[simp] theorem Dev.tlbEmpty_sess (d : Dev) : (d.tlbEmpty).sess = d.sess := rfl
@[simp] theorem Dev.tlbEmpty_cache (d : Dev) : (d.tlbEmpty).cache = d.cache := rfl
@[simp] theorem Dev.tlbEmpty_energy (d : Dev) : (d.tlbEmpty).energy = d.energy := rfl
@[simp] theorem Dev.tlbEmpty_vault (d : Dev) : (d.tlbEmpty).vault = d.vault := rfl
@[simp] theorem Dev.tlbEmpty_kennel (d : Dev) : (d.tlbEmpty).kennel = d.kennel := rfl
@[simp] theorem Dev.tlbEmpty_restore (d : Dev) : (d.tlbEmpty).restore = d.restore := rfl
@[simp] theorem Dev.tlbEmpty_pack (d : Dev) : (d.tlbEmpty).pack = d.pack := rfl
@[simp] theorem Dev.tlbEmpty_cores (d : Dev) : (d.tlbEmpty).cores = d.cores := rfl
@[simp] theorem Dev.tlbEmpty_mem (d : Dev) : (d.tlbEmpty).mem = { d.mem with tlb := [], iotlb := [] } := rfl
@[simp] theorem Dev.tlbEmpty_eng (d : Dev) : (d.tlbEmpty).eng = d.eng := rfl
@[simp] theorem Dev.tlbEmpty_insts (d : Dev) : (d.tlbEmpty).insts = d.insts := rfl
@[simp] theorem Dev.tlbEmpty_ports (d : Dev) : (d.tlbEmpty).ports = d.ports := rfl
@[simp] theorem Dev.tlbEmpty_dram (d : Dev) : (d.tlbEmpty).dram = d.dram := rfl
@[simp] theorem Dev.tlbEmpty_fuse (d : Dev) : (d.tlbEmpty).fuse = d.fuse := rfl
@[simp] theorem Dev.tlbEmpty_part48 (d : Dev) : (d.tlbEmpty).part48 = d.part48 := rfl
@[simp] theorem Dev.tlbEmpty_presPorts (d : Dev) : (d.tlbEmpty).presPorts = d.presPorts := rfl
@[simp] theorem Dev.tlbEmpty_contained (d : Dev) : (d.tlbEmpty).contained = d.contained := rfl
@[simp] theorem Dev.tlbEmpty_out (d : Dev) : (d.tlbEmpty).out = d.out := rfl
@[simp] theorem Dev.tlbEmpty_free (d : Dev) : (d.tlbEmpty).free = d.free := rfl
@[simp] theorem Dev.tlbEmpty_faultQ (d : Dev) : (d.tlbEmpty).faultQ = d.faultQ := rfl

@[simp] theorem Dev.s_aon (d : Dev) (o v : Nat) : (d.s o v).aon = d.aon := rfl
@[simp] theorem Dev.s_eff (d : Dev) (o v : Nat) : (d.s o v).eff = d.eff := rfl
@[simp] theorem Dev.s_faults (d : Dev) (o v : Nat) : (d.s o v).faults = d.faults := rfl
@[simp] theorem Dev.s_power (d : Dev) (o v : Nat) : (d.s o v).power = d.power := rfl
@[simp] theorem Dev.s_doms (d : Dev) (o v : Nat) : (d.s o v).doms = d.doms := rfl
@[simp] theorem Dev.s_sess (d : Dev) (o v : Nat) : (d.s o v).sess = d.sess := rfl
@[simp] theorem Dev.s_cache (d : Dev) (o v : Nat) : (d.s o v).cache = d.cache := rfl
@[simp] theorem Dev.s_energy (d : Dev) (o v : Nat) : (d.s o v).energy = d.energy := rfl
@[simp] theorem Dev.s_vault (d : Dev) (o v : Nat) : (d.s o v).vault = d.vault := rfl
@[simp] theorem Dev.s_kennel (d : Dev) (o v : Nat) : (d.s o v).kennel = d.kennel := rfl
@[simp] theorem Dev.s_restore (d : Dev) (o v : Nat) : (d.s o v).restore = d.restore := rfl
@[simp] theorem Dev.s_pack (d : Dev) (o v : Nat) : (d.s o v).pack = d.pack := rfl
@[simp] theorem Dev.s_cores (d : Dev) (o v : Nat) : (d.s o v).cores = d.cores := rfl
@[simp] theorem Dev.s_mem (d : Dev) (o v : Nat) : (d.s o v).mem = d.mem := rfl
@[simp] theorem Dev.s_eng (d : Dev) (o v : Nat) : (d.s o v).eng = d.eng := rfl
@[simp] theorem Dev.s_insts (d : Dev) (o v : Nat) : (d.s o v).insts = d.insts := rfl
@[simp] theorem Dev.s_ports (d : Dev) (o v : Nat) : (d.s o v).ports = d.ports := rfl
@[simp] theorem Dev.s_dram (d : Dev) (o v : Nat) : (d.s o v).dram = d.dram := rfl
@[simp] theorem Dev.s_fuse (d : Dev) (o v : Nat) : (d.s o v).fuse = d.fuse := rfl
@[simp] theorem Dev.s_part48 (d : Dev) (o v : Nat) : (d.s o v).part48 = d.part48 := rfl
@[simp] theorem Dev.s_presPorts (d : Dev) (o v : Nat) : (d.s o v).presPorts = d.presPorts := rfl
@[simp] theorem Dev.s_contained (d : Dev) (o v : Nat) : (d.s o v).contained = d.contained := rfl
@[simp] theorem Dev.s_out (d : Dev) (o v : Nat) : (d.s o v).out = d.out := rfl
@[simp] theorem Dev.s_free (d : Dev) (o v : Nat) : (d.s o v).free = d.free := rfl
@[simp] theorem Dev.s_faultQ (d : Dev) (o v : Nat) : (d.s o v).faultQ = d.faultQ := rfl
@[simp] theorem Dev.record_aon (d : Dev) (code sev unit p0 p1 p2 p3 : Nat) (cap : Option Nat) : (d.record code sev unit p0 p1 p2 p3 cap).aon = d.aon := by
  unfold Dev.record; split <;> rfl
@[simp] theorem Dev.record_dict (d : Dev) (code sev unit p0 p1 p2 p3 : Nat) (cap : Option Nat) : (d.record code sev unit p0 p1 p2 p3 cap).dict = d.dict := by
  unfold Dev.record; split <;> rfl
@[simp] theorem Dev.record_eff (d : Dev) (code sev unit p0 p1 p2 p3 : Nat) (cap : Option Nat) : (d.record code sev unit p0 p1 p2 p3 cap).eff = d.eff := by
  unfold Dev.record; split <;> rfl
@[simp] theorem Dev.record_power (d : Dev) (code sev unit p0 p1 p2 p3 : Nat) (cap : Option Nat) : (d.record code sev unit p0 p1 p2 p3 cap).power = d.power := by
  unfold Dev.record; split <;> rfl
@[simp] theorem Dev.record_doms (d : Dev) (code sev unit p0 p1 p2 p3 : Nat) (cap : Option Nat) : (d.record code sev unit p0 p1 p2 p3 cap).doms = d.doms := by
  unfold Dev.record; split <;> rfl
@[simp] theorem Dev.record_sess (d : Dev) (code sev unit p0 p1 p2 p3 : Nat) (cap : Option Nat) : (d.record code sev unit p0 p1 p2 p3 cap).sess = d.sess := by
  unfold Dev.record; split <;> rfl
@[simp] theorem Dev.record_cache (d : Dev) (code sev unit p0 p1 p2 p3 : Nat) (cap : Option Nat) : (d.record code sev unit p0 p1 p2 p3 cap).cache = d.cache := by
  unfold Dev.record; split <;> rfl
@[simp] theorem Dev.record_energy (d : Dev) (code sev unit p0 p1 p2 p3 : Nat) (cap : Option Nat) : (d.record code sev unit p0 p1 p2 p3 cap).energy = d.energy := by
  unfold Dev.record; split <;> rfl
@[simp] theorem Dev.record_vault (d : Dev) (code sev unit p0 p1 p2 p3 : Nat) (cap : Option Nat) : (d.record code sev unit p0 p1 p2 p3 cap).vault = d.vault := by
  unfold Dev.record; split <;> rfl
@[simp] theorem Dev.record_kennel (d : Dev) (code sev unit p0 p1 p2 p3 : Nat) (cap : Option Nat) : (d.record code sev unit p0 p1 p2 p3 cap).kennel = d.kennel := by
  unfold Dev.record; split <;> rfl
@[simp] theorem Dev.record_restore (d : Dev) (code sev unit p0 p1 p2 p3 : Nat) (cap : Option Nat) : (d.record code sev unit p0 p1 p2 p3 cap).restore = d.restore := by
  unfold Dev.record; split <;> rfl
@[simp] theorem Dev.record_pack (d : Dev) (code sev unit p0 p1 p2 p3 : Nat) (cap : Option Nat) : (d.record code sev unit p0 p1 p2 p3 cap).pack = d.pack := by
  unfold Dev.record; split <;> rfl
@[simp] theorem Dev.record_cores (d : Dev) (code sev unit p0 p1 p2 p3 : Nat) (cap : Option Nat) : (d.record code sev unit p0 p1 p2 p3 cap).cores = d.cores := by
  unfold Dev.record; split <;> rfl
@[simp] theorem Dev.record_mem (d : Dev) (code sev unit p0 p1 p2 p3 : Nat) (cap : Option Nat) : (d.record code sev unit p0 p1 p2 p3 cap).mem = d.mem := by
  unfold Dev.record; split <;> rfl
@[simp] theorem Dev.record_eng (d : Dev) (code sev unit p0 p1 p2 p3 : Nat) (cap : Option Nat) : (d.record code sev unit p0 p1 p2 p3 cap).eng = d.eng := by
  unfold Dev.record; split <;> rfl
@[simp] theorem Dev.record_insts (d : Dev) (code sev unit p0 p1 p2 p3 : Nat) (cap : Option Nat) : (d.record code sev unit p0 p1 p2 p3 cap).insts = d.insts := by
  unfold Dev.record; split <;> rfl
@[simp] theorem Dev.record_ports (d : Dev) (code sev unit p0 p1 p2 p3 : Nat) (cap : Option Nat) : (d.record code sev unit p0 p1 p2 p3 cap).ports = d.ports := by
  unfold Dev.record; split <;> rfl
@[simp] theorem Dev.record_dram (d : Dev) (code sev unit p0 p1 p2 p3 : Nat) (cap : Option Nat) : (d.record code sev unit p0 p1 p2 p3 cap).dram = d.dram := by
  unfold Dev.record; split <;> rfl
@[simp] theorem Dev.record_fuse (d : Dev) (code sev unit p0 p1 p2 p3 : Nat) (cap : Option Nat) : (d.record code sev unit p0 p1 p2 p3 cap).fuse = d.fuse := by
  unfold Dev.record; split <;> rfl
@[simp] theorem Dev.record_part48 (d : Dev) (code sev unit p0 p1 p2 p3 : Nat) (cap : Option Nat) : (d.record code sev unit p0 p1 p2 p3 cap).part48 = d.part48 := by
  unfold Dev.record; split <;> rfl
@[simp] theorem Dev.record_presPorts (d : Dev) (code sev unit p0 p1 p2 p3 : Nat) (cap : Option Nat) : (d.record code sev unit p0 p1 p2 p3 cap).presPorts = d.presPorts := by
  unfold Dev.record; split <;> rfl
@[simp] theorem Dev.record_contained (d : Dev) (code sev unit p0 p1 p2 p3 : Nat) (cap : Option Nat) : (d.record code sev unit p0 p1 p2 p3 cap).contained = d.contained := by
  unfold Dev.record; split <;> rfl
@[simp] theorem Dev.record_out (d : Dev) (code sev unit p0 p1 p2 p3 : Nat) (cap : Option Nat) : (d.record code sev unit p0 p1 p2 p3 cap).out = d.out := by
  unfold Dev.record; split <;> rfl
@[simp] theorem Dev.record_free (d : Dev) (code sev unit p0 p1 p2 p3 : Nat) (cap : Option Nat) : (d.record code sev unit p0 p1 p2 p3 cap).free = d.free := by
  unfold Dev.record; split <;> rfl
@[simp] theorem Dev.record_faultQ (d : Dev) (code sev unit p0 p1 p2 p3 : Nat) (cap : Option Nat) : (d.record code sev unit p0 p1 p2 p3 cap).faultQ = d.faultQ := by
  unfold Dev.record; split <;> rfl

/-- Keys of the dictionary store tell units and objects apart. -/
theorem dkey_inj {u o u' o' : Nat} (h : o < 0x1000000) (h' : o' < 0x1000000) : dkey u o = dkey u' o' ↔ u = u' ∧ o = o' := by
  unfold dkey; omega

/-- An object read after a write of the dictionary. -/
theorem Dev.gu_su (d : Dev) (u o v u' o' : Nat) : (d.su u o v).gu u' o' = if dkey u' o' = dkey u o then v else d.gu u' o' := by
  simp [Dev.gu, Dev.su, storeGet_set]

/-- The object that was written. -/
@[simp] theorem Dev.gu_su_same (d : Dev) (u o v : Nat) : (d.su u o v).gu u o = v := by simp [Dev.gu_su]

/-- The object that was written, at its home unit. -/
@[simp] theorem Dev.g_s_same (d : Dev) (o v : Nat) : (d.s o v).g o = v := by simp [Dev.g, Dev.s]

/-- Another object after a write at the home unit. -/
theorem Dev.g_s_ne (d : Dev) (o o' v : Nat) (h : dkey (homeOf o') o' ≠ dkey (homeOf o) o) : (d.s o v).g o' = d.g o' := by
  simp [Dev.g, Dev.s, Dev.gu_su, h]

/-- The written object of a rail. -/
@[simp] theorem Dev.gr_sr_same (d : Dev) (o r v : Nat) : (d.sr o r v).gr o r = v := by simp [Dev.gr, Dev.sr]

/-- A reader of the dictionary sees only the dictionary. -/
theorem Dev.gu_of_dict {d e : Dev} (h : e.dict = d.dict) (u o : Nat) : e.gu u o = d.gu u o := by simp [Dev.gu, h]

/-- A reader of the dictionary sees only the dictionary. -/
theorem Dev.g_of_dict {d e : Dev} (h : e.dict = d.dict) (o : Nat) : e.g o = d.g o := Dev.gu_of_dict h _ _

@[simp] theorem Dev.gu_record (d : Dev) (code sev unit p0 p1 p2 p3 : Nat) (cap : Option Nat) (u o : Nat) : (d.record code sev unit p0 p1 p2 p3 cap).gu u o = d.gu u o := Dev.gu_of_dict (by simp) u o
@[simp] theorem Dev.g_record (d : Dev) (code sev unit p0 p1 p2 p3 : Nat) (cap : Option Nat) (o : Nat) : (d.record code sev unit p0 p1 p2 p3 cap).g o = d.g o := Dev.g_of_dict (by simp) o
@[simp] theorem Dev.gu_emit (d : Dev) (k : OutKind) (a : List Nat) (b : List Byte) (u o : Nat) : (d.emit k a b).gu u o = d.gu u o := Dev.gu_of_dict (by simp) u o
@[simp] theorem Dev.g_emit (d : Dev) (k : OutKind) (a : List Nat) (b : List Byte) (o : Nat) : (d.emit k a b).g o = d.g o := Dev.g_of_dict (by simp) o
@[simp] theorem Dev.gu_raise (d : Dev) (x : Occ) (u o : Nat) : (d.raise x).gu u o = d.gu u o := Dev.gu_of_dict (by simp) u o
@[simp] theorem Dev.g_raise (d : Dev) (x : Occ) (o : Nat) : (d.raise x).g o = d.g o := Dev.g_of_dict (by simp) o
@[simp] theorem Dev.gu_unlive (d : Dev) (x : Nat) (u o : Nat) : (d.unlive x).gu u o = d.gu u o := Dev.gu_of_dict (by simp) u o
@[simp] theorem Dev.g_unlive (d : Dev) (x : Nat) (o : Nat) : (d.unlive x).g o = d.g o := Dev.g_of_dict (by simp) o

/-- A core after a write of a core. -/
theorem Dev.core_setCore (d : Dev) (n m : Nat) (c : Core) : (d.setCore n c).core m = if m = n then c else d.core m := by
  simp [Dev.core, Dev.setCore, storeGet_set]

/-- The core that was written. -/
@[simp] theorem Dev.core_setCore_same (d : Dev) (n : Nat) (c : Core) : (d.setCore n c).core n = c := by simp [Dev.core_setCore]

/-- A rail after a write of a rail. -/
theorem Dev.rail_setRail (d : Dev) (n m : Nat) (x : Rail) : (d.setRail n x).rail m = if m = n then x else d.rail m := by
  simp [Dev.rail, Dev.setRail, storeGet_set]

/-- A domain after a write of a domain. -/
theorem Dev.dom_setDom (d : Dev) (u v : Nat) (x : Domain) : (d.setDom u x).dom v = if v = u then x else d.dom v := by
  simp [Dev.dom, Dev.setDom, storeGet_set]

/-- A session after a write of a session. -/
theorem Dev.session_setSession (d : Dev) (i j : Nat) (x : Session) : (d.setSession i x).session j = if j = i then x else d.session j := by
  simp [Dev.session, Dev.setSession, storeGet_set]

/-- A queue descriptor after a write of a queue descriptor. -/
theorem Dev.q_setQ (d : Dev) (i j : Nat) (e : BitVec 512) : (d.setQ i e).q j = if j = i then e else d.q j := by
  simp [Dev.q, Dev.setQ, storeGet_set]

/-- A channel after a write of a channel. -/
theorem Dev.ch_setCh (d : Dev) (i j : Nat) (x : Channel) : (d.setCh i x).ch j = if j = i then x else d.ch j := by
  simp [Dev.ch, Dev.setCh, storeGet_set]

/-- A context after a write of a context. -/
theorem Dev.ctx_setCtx (d : Dev) (i j : Nat) (x : Context) : (d.setCtx i x).ctx j = if j = i then x else d.ctx j := by
  simp [Dev.ctx, Dev.setCtx, storeGet_set]

/-- Register w0 reads 0. -/
@[simp] theorem Core.rw_zero (c : Core) : c.rw 0 = 0 := rfl

/-- A general register after a write: w0 stays 0. -/
theorem Core.rw_ww (c : Core) (r r' : Nat) (v : Word) : (c.ww r v).rw r' = if r' = r ∧ r ≠ 0 then v else c.rw r' := by
  by_cases h : r = 0
  · simp [Core.ww, h]
  · simp only [Core.ww, Core.rw, h, if_false, storeGet_set]
    by_cases h' : r' = r
    · simp [h', h]
    · simp [h']

/-- A vector register after a write. -/
theorem Core.rv_wv (c : Core) (r r' : Nat) (v : Vec) : (c.wv r v).rv r' = if r' = r then v else c.rv r' := by
  simp [Core.rv, Core.wv, storeGet_set]

/-- A byte of memory after a store of one byte, where the location and the address lie in the same store. -/
theorem Dev.peek_poke_same (d : Dev) (loc : Nat) (b : Byte) : (d.poke loc b).peek loc = b := by
  unfold Dev.poke Dev.peek
  split
  · simp
  · split
    · simp
    · simp

/-- A stored byte leaves every other byte alone. -/
theorem Dev.peek_poke_ne (d : Dev) {loc loc' : Nat} (b : Byte) (h : loc' ≠ loc) : (d.poke loc b).peek loc' = d.peek loc' := by
  unfold Dev.poke Dev.peek
  by_cases h1 : loc < 2 ^ 40 <;> by_cases h2 : loc < 2 ^ 41 <;> by_cases h1' : loc' < 2 ^ 40 <;> by_cases h2' : loc' < 2 ^ 41
  all_goals simp only [h1, h2, h1', h2', if_true, if_false]
  all_goals first | rfl | omega | skip
  · simp [storeGet_set, h]
  · simp only [Dev.core, Dev.setCore, storeGet_set]
    split
    · rename_i e; rw [e]; simp only [storeGet_set]; split
      · exfalso; omega
      · rfl
    · rfl
  · simp only [storeGet_set]; split
    · exfalso; omega
    · rfl

/-- A store of one byte keeps the canonical form of the DRAM. -/
theorem Dev.poke_dram_wf (d : Dev) (loc : Nat) (b : Byte) (h : storeWf zeroByte d.mem.dram = true) :
    storeWf zeroByte (d.poke loc b).mem.dram = true := by
  unfold Dev.poke
  split
  · exact storeWf_set _ _ _ _ h
  · split <;> exact h

/-- A store of one byte keeps the canonical form of the quadrant SRAMs. -/
theorem Dev.poke_sram_wf (d : Dev) (loc : Nat) (b : Byte) (h : storeWf zeroByte d.mem.sram = true) :
    storeWf zeroByte (d.poke loc b).mem.sram = true := by
  unfold Dev.poke
  split
  · exact h
  · split
    · exact h
    · exact storeWf_set _ _ _ _ h

/-- A store of one byte keeps the canonical form of every core's scratch. -/
theorem Dev.poke_scratch_wf (d : Dev) (loc : Nat) (b : Byte) (h : ∀ n, storeWf zeroByte (d.core n).scratch = true) :
    ∀ n, storeWf zeroByte ((d.poke loc b).core n).scratch = true := by
  intro n
  unfold Dev.poke
  split
  · exact h n
  · split
    · rw [Dev.core_setCore]; split
      · exact storeWf_set _ _ _ _ (h _)
      · exact h n
    · exact h n

/-- A store of bytes leaves every byte outside them alone. -/
theorem Dev.peek_pokeN_out (l : List Byte) : ∀ (d : Dev) (loc a : Nat), (a < loc ∨ loc + l.length ≤ a) → (d.pokeN loc l).peek a = d.peek a := by
  induction l with
  | nil => intro d loc a _; rfl
  | cons b r ih =>
    intro d loc a h
    simp only [List.length_cons] at h
    rw [Dev.pokeN, ih _ _ _ (by omega), Dev.peek_poke_ne _ _ (by omega)]

end Sys2Proof.Machine
end

