-- ==== Sys2Proof/Laws/Memory.lean ====
section
/-! SUPPORT. The memories keep their canonical form: the operations that store bytes, clear a frame, lose a quadrant's SRAM, or take the bytes of an image. -/
namespace Sys2Proof.Machine
open Sys2Proof

/-- Reset memory lists nothing. -/
theorem Memory.wf_reset : Memory.wf State.reset.dev.mem = true := by decide

/-- A store of one byte keeps the canonical form. -/
theorem Memory.wf_poke (d : Dev) (loc : Nat) (b : Byte) (h : Memory.wf d.mem = true) : Memory.wf (d.poke loc b).mem = true := by
  simp only [Memory.wf, Bool.and_eq_true] at *
  exact ⟨d.poke_dram_wf loc b h.1, d.poke_sram_wf loc b h.2⟩

/-- A store of bytes keeps the canonical form. -/
theorem Memory.wf_pokeN (l : List Byte) : ∀ (d : Dev) (loc : Nat), Memory.wf d.mem = true → Memory.wf (d.pokeN loc l).mem = true := by
  induction l with
  | nil => intro d loc h; exact h
  | cons b r ih => intro d loc h; exact ih _ _ (Memory.wf_poke d loc b h)

/-- Dropping bytes of DRAM keeps the canonical form. -/
theorem Memory.wf_dropDram (m : Mem) (q : Nat × Byte → Bool) (h : Memory.wf m = true) : Memory.wf { m with dram := m.dram.filter q } = true := by
  simp only [Memory.wf, Bool.and_eq_true] at *
  exact ⟨storeWfFrom_filter _ q _ 0 h.1, h.2⟩

/-- Dropping bytes of the SRAMs keeps the canonical form. -/
theorem Memory.wf_dropSram (m : Mem) (q : Nat × Byte → Bool) (h : Memory.wf m = true) : Memory.wf { m with sram := m.sram.filter q } = true := by
  simp only [Memory.wf, Bool.and_eq_true] at *
  exact ⟨h.1, storeWfFrom_filter _ q _ 0 h.2⟩

/-- Clearing a frame keeps the canonical form. -/
theorem Memory.wf_zeroFrame (d : Dev) (pa size : Nat) (h : Memory.wf d.mem = true) : Memory.wf (d.zeroFrame pa size).mem = true := by
  exact Memory.wf_dropDram d.mem _ h

/-- The bytes that an image holds are in canonical form when those of its snapshot are. -/
theorem Memory.imageBytes_wf (m : Image) (h : Memory.wf m.snap.mem = true) : storeWf zeroByte (imageBytes m) = true := by
  simp only [Memory.wf, Bool.and_eq_true] at h
  exact storeWfFrom_filter _ _ _ 0 h.1

end Sys2Proof.Machine
end

