-- ==== Sys2Proof/Laws/Ops.lean ====
section
/-! SUPPORT. What the shared operations of a command can do: the command's gate, the end of a command, and the fault pins. -/
namespace Sys2Proof.Machine
open Sys2Proof

/-- A well-formed command of a powered device: its effect, and what that sets off. -/
theorem act_on (s : State) (f : Dev → Dev) (h : s.Powered) : act true s f = .next (s.leaves (f s.dev)) := by
  have h' : s.dev.aon.auxUp = true := h
  simp [act, State.leaves, h']

/-- A command whose operands are in range. -/
theorem act_if (ok : Bool) (s : State) (f : Dev → Dev) (h : s.Powered) (hok : ok = true) : act ok s f = .next (s.leaves (f s.dev)) := by
  subst hok; exact act_on s f h

/-- A command that acts without the auxiliary input too. -/
theorem actDark_on (s : State) (f : Dev → Dev) : actDark true s f = .next (s.leaves (f s.dev)) := rfl

/-- An ill-formed command changes nothing. -/
theorem act_bad (s : State) (f : Dev → Dev) : act false s f = .next s := rfl

/-- Without the auxiliary input a command changes nothing. -/
theorem act_off (ok : Bool) (s : State) (f : Dev → Dev) (h : s.dev.aon.auxUp = false) : act ok s f = .next s := by
  simp [act, h]

/-- A command leaves the queue as it is. -/
theorem act_pending {ok : Bool} {s t : State} {f : Dev → Dev} (h : act ok s f = .next t) : t.pending = s.pending := by
  unfold act at h; cases h; rfl

/-- A command leaves the queue as it is. -/
theorem actDark_pending {ok : Bool} {s t : State} {f : Dev → Dev} (h : actDark ok s f = .next t) : t.pending = s.pending := by
  unfold actDark at h; cases h; rfl

/-- Driving the pins changes nothing but the pins. -/
@[simp] theorem Dev.drivePins_dict (d : Dev) : d.drivePins.dict = d.dict := rfl

/-- The pins depend on the fault state, the supervisor's state and PinClass. -/
theorem Dev.pinsNow_congr {d e : Dev} (h1 : e.dict = d.dict) (h2 : e.faults.caps = d.faults.caps) (h3 : e.faults.live = d.faults.live)
    (h4 : e.aon.auxUp = d.aon.auxUp) : e.pinsNow = d.pinsNow := by
  have a : e.sup = d.sup := Dev.g_of_dict h1 _
  have b : e.g oPinClass = d.g oPinClass := Dev.g_of_dict h1 _
  unfold Dev.pinsNow Dev.pinsDriven
  simp only [a, b, h2, h3, h4]

/-- After a command the pins are driven as its state asks. -/
theorem Dev.drivePins_pins (d : Dev) : d.drivePins.aon.pins = d.drivePins.pinsNow := by
  have h : d.drivePins.pinsNow = d.pinsNow := Dev.pinsNow_congr rfl rfl rfl rfl
  rw [h]; rfl

/-- After a command the pins are driven as its state asks. -/
theorem Dev.settle_pins (d : Dev) : d.settle.aon.pins = d.settle.pinsNow := Dev.drivePins_pins _

/-- With nothing queued, nothing is drained. -/
theorem Dev.drain_none (n : Nat) (d : Dev) (h : d.faultQ = []) (h' : d.doms.resumes = []) : d.drain n = d := by
  cases n with
  | zero => rfl
  | succ n => simp [Dev.drain, h, h']

end Sys2Proof.Machine
end

