-- ==== Sys2Proof/Tests/Slice0.lean ====
section
/-! SUPPORT. Small tests: ill-formed operands are refused; each statement's hypotheses hold somewhere; single commands give the values that the spec's own
rules, tables and worked examples give. -/
namespace Sys2Proof.Tests
set_option Elab.async false
open Sys2Proof Sys2Proof.Machine

/-- The state with device `d` and an empty queue. -/
def st (d : Dev) : State := { dev := d }

/-- The device after command `i` on `d`. -/
def run (i : Instr) (d : Dev) : Dev := match exec i (st d) with | .next t => t.dev | _ => d

/-- The device right after reset. -/
def dev0 : Dev := State.reset.dev

/-- A device that is UP, with DRAM channels 0 and 4 in service. -/
def up : Dev :=
  let c : Chan := { populated := true, ranks := 1, width := 8, gbit := 16, cap := 16384, st := 2 }
  (({ dev0 with dram := { chans := [(0, c), (4, c)] } } : Dev).s oSupervisorState 2)

/-- The location and the device that an access gives. -/
def okAt : Acc → Option (Nat × Dev)
  | .ok l _ d => some (l, d)
  | _ => none

theorem okAt_some {a : Acc} {l : Nat} {d : Dev} (h : okAt a = some (l, d)) : ∃ cls, a = .ok l cls d := by
  cases a <;> simp [okAt] at h
  obtain ⟨rfl, rfl⟩ := h; exact ⟨_, rfl⟩

/-- Core 0 stands at 0x1000 as `c`, on the device `up`. -/
def core0 (c : Core) : Dev := up.setCore 0 { c with pc := 0x1000 }

/-- What makes core 0 of `d` run its next instruction, in one decidable form. -/
def runs0 (d : Dev) (a : Nat) : Prop := d.aon.auxUp = true ∧ d.canRun 0 = true ∧ (d.core 0).asyncDue = false ∧ (d.core 0).wfi = false ∧
  okAt (d.coreAccess 0 (d.core 0).pc.toNat 4 4 3) = some (a, d) ∧ d.pcOf 0 = a

theorem runs_of {d : Dev} {a : Nat} (h : runs0 d a) : (st d).Runs 0 d (d.core 0) a := by
  obtain ⟨h1, h2, h3, h4, h5, h6⟩ := h
  obtain ⟨cls, h5⟩ := okAt_some h5
  exact ⟨h1, ⟨h2, h3, h4, a, cls, h5⟩, rfl, h6.symm⟩

/-- A core with edge values: w2 is -2^63, w3 is -1, w4 is 7, w5 is 2^48, w6 is 0x2000, w7 is 0x1002. -/
def edge : Core :=
  { w := [(2, 0x8000000000000000), (3, 0xFFFFFFFFFFFFFFFF), (4, 7), (5, 0x1000000000000), (6, 0x2000), (7, 0x1002)], uepc := 0x2000, sepc := 0x2000, pk := 0x41 }

set_option maxRecDepth 4000 in
/-- A running core exists: the hypothesis of every statement about instructions. -/
theorem test_runs : runs0 (core0 edge) 0x1000 := by unfold runs0; decide +kernel

theorem test_runs_witness : (st (core0 edge)).Runs 0 (core0 edge) ((core0 edge).core 0) 0x1000 := runs_of test_runs

/-- A request over SMBus, of no session. -/
def q0 : Req := { tr := 2, eid := 9 }

/-- What `State.TakesWrites` asks, in one decidable form. -/
abbrev takes (d : Dev) : Prop := d.aon.auxUp = true ∧ d.supAway = false ∧ d.writesClosed = false

theorem takes_of {d : Dev} (h : takes d) : (st d).TakesWrites := ⟨h.1, h.2.1, h.2.2⟩

/-- The power-up has begun; rail 15 ramps. -/
def rising : Dev := run .powerUpStart dev0
def ramping : Dev := run (.railEnable 15) rising

/-- 32 LUNs of two channels, formatted, both slots empty; the key is 5 and KeyCheck its own. -/
def kn : Kennel :=
  { valid := true, gen := 1, map := List.range 32, fmtMap := List.range 32, bpl := 610, slotBlocks := 300, progress := 2, scratchBase := 602, scratchBlocks := 2,
    logBase := 604, logBlocks := 1, reserveBase := 605, reserveBlocks := 3, key := some 5, keyCheck := 2914480314674954611,
    luns := (List.range 32).map fun n => (n, { present := true }) }

/-- A device that is UP with that Kennel. -/
def flash : Dev := up.setKennel kn

/-- That device in VaultState `v`, with the sequence at `r`. -/
def vaulting (v : Nat) (r : VaultRun) : Dev := { flash.s oVaultState v with vault := r }

/-- An image of three segments: the cache's lines, the cores and the seal. -/
def img : Image :=
  { seq := 9, plan := 3, items := [⟨1, 1, 0, 1, 65536⟩, ⟨2, 3, 1, 1, 65536⟩, ⟨9, 4, 2, 1, 65536⟩], restripe := [⟨0, 0, List.range 32⟩], manifest := true }

/-- That image is being written into slot 0. -/
def writing (v : Nat) (r : VaultRun) (m : Image) : Dev :=
  (vaulting v { r with slot := 0, shedDone := true }).setKennel { kn with a := { image := some m, target := true } }

/-- A volume of one drive behind port 0: STRIPE, 1,024 blocks, from LBA 0x100 of namespace 1. -/
def vol0 : BitVec 16384 :=
  [(2, 1, 1), (3, 1, 1), (4, 1, 1), (8, 8, 1024), (0x44, 4, 1), (0x48, 8, 0x100)].foldl (fun e x => setEnt e x.1 x.2.1 x.2.2) 0

/-- An I/O queue pair of instance 0: doorbell slot 1, 16 entries, LIVE, at 0x10000 and 0x20000. -/
def ioPair : BitVec 512 :=
  [(2, 1, 1), (3, 1, 1), (6, 2, 1), (8, 8, 0x10000), (0x10, 8, 0x20000), (0x18, 4, 16), (0x1C, 4, 16)].foldl (fun e x => setEnt e x.1 x.2.1 x.2.2) 0

/-- Its admin queue pair, LIVE. -/
def adminPair : BitVec 512 :=
  [(2, 1, 1), (3, 1, 1), (8, 8, 0x30000), (0x10, 8, 0x40000), (0x18, 4, 16), (0x1C, 4, 16)].foldl (fun e x => setEnt e x.1 x.2.1 x.2.2) 0

/-- Namespace 1 of instance 0 on volume 0, 512-byte LBAs. -/
def ns1 : BitVec 128 := setEnt (0 : BitVec 128) 2 4 1

/-- A bound drive with one namespace of 512-byte LBAs. -/
def drive : Port := { state := 2, speed := 5, width := 4, present := true, ns := [⟨1, 512, 100000⟩] }

/-- A device whose host port serves instance 0: a ready controller, volume 0, namespace 1 and I/O queue pair 16,383. -/
def host : Dev :=
  { flash with
    restore := { flash.restore with hostIo := true }
    cache := { flash.cache with volumes := [(0, vol0)] }
    ports := { flash.ports with ports := [(0, drive)] }
    insts := { flash.insts with ns := [(0, ns1)], queues := [(0, adminPair), (16383, ioPair)], qstate := [(16383, { cq := 1 })], ctrl := [(0, { cc := 1, csts := 1 })] } }

/-- That device in write-back, with a ceiling of 4,000 blocks. -/
def back : Dev := ((host.s oWriteThroughCause 0).s oDirtyCeilingBlocks 4000).s oCacheModeActive 0

/-- A DIRTY version of block 5 of volume 0, in frame 0 of channel 0. -/
def ver : Version := { frame := 0, vol := 0, blk := 5, inst := 0, seq := 0, st := 2, data := 0xAB }

/-- The write-back device with versions `v` and writes `w`. -/
def cached (v : List Version) (w : List HostWrite) : Dev :=
  { back with cache := { back.cache with versions := v, writes := w, nextSeq := [(0, 1)], wid := 9 } }

/-- An admitted write of the first sector of block 5. -/
def wr : HostWrite := { id := 8, ref := 16383, cid := 7, inst := 0, vol := 0, start := 5 * 4096, len := 512, data := 0xCD, stage := 1 }

/-- A PROGRAM queue in context memory, LIVE, of no context. -/
def programPair : BitVec 512 :=
  [(2, 1, 3), (3, 1, 1), (6, 2, 0xFFFF), (0x18, 4, 16), (0x1C, 4, 16), (0x20, 2, 0xFFFF), (0x25, 1, 1)].foldl (fun e x => setEnt e x.1 x.2.1 x.2.2) 0

/-- A device with queue 16,383 as `e`, whose instance 0 may run programs. -/
def queued (e : BitVec 512) : Dev :=
  let d := (flash.setInst 0 0x0B 1 2).setInst 0 0x1C 2 8
  { d with insts := { d.insts with queues := [(16383, e)] } }

/-- A program of one 4-byte segment at 0x1000. -/
def elf : List Byte :=
  leBytes 4 0x464C457F ++ leBytes 4 0x00010102 ++ leBytes 8 0 ++ leBytes 2 2 ++ leBytes 2 0xE7A1 ++ leBytes 4 1 ++ leBytes 8 0x1000 ++ leBytes 8 64 ++ leBytes 8 0
    ++ leBytes 4 0 ++ leBytes 2 64 ++ leBytes 2 56 ++ leBytes 2 1 ++ leBytes 6 0
    ++ leBytes 4 1 ++ leBytes 4 5 ++ leBytes 8 0 ++ leBytes 8 0x1000 ++ leBytes 8 0x1000 ++ leBytes 8 4 ++ leBytes 8 4 ++ leBytes 8 4096

/-- What it parses to. -/
def parsed : Elf := ⟨false, 0x1000, [⟨0x1000, 0, 4, 4, 5, 4096⟩], 0, 65536⟩

/-- The parts that decide where frames are free are those of `queued programPair`, and at most `m` pages of 4 KiB are taken. -/
structure Room (m : Nat) (d : Dev) : Prop where
  dram : d.dram = up.dram
  eff : d.eff = up.eff
  size : ∀ p ∈ d.mem.pages, p.size = 0
  few : d.mem.pages.length ≤ m

/-- The same, whatever changes outside those parts. -/
theorem Room.of {m : Nat} {d e : Dev} (h : Room m d) (h1 : e.dram = d.dram) (h2 : e.eff = d.eff) (h3 : e.mem.pages = d.mem.pages) : Room m e :=
  ⟨h1.trans h.dram, h2.trans h.eff, h3 ▸ h.size, h3 ▸ h.few⟩

theorem Room.le {m n : Nat} {d : Dev} (h : Room m d) (hn : m ≤ n) : Room n d := ⟨h.dram, h.eff, h.size, Nat.le_trans h.few hn⟩

theorem poke_parts (d : Dev) (a : Nat) (b : Byte) : (d.poke a b).dram = d.dram ∧ (d.poke a b).eff = d.eff ∧ (d.poke a b).mem.pages = d.mem.pages := by
  unfold Dev.poke Dev.setCore; split
  · exact ⟨rfl, rfl, rfl⟩
  · split <;> exact ⟨rfl, rfl, rfl⟩

theorem Room.pokeN {m : Nat} {d : Dev} (h : Room m d) (a : Nat) (l : List Byte) : Room m (d.pokeN a l) := by
  induction l generalizing d a with
  | nil => exact h
  | cons b r ih => obtain ⟨h1, h2, h3⟩ := poke_parts d a b; exact ih (h.of h1 h2 h3) _

theorem Room.zeroFrame {m : Nat} {d : Dev} (h : Room m d) (a n : Nat) : Room m (d.zeroFrame a n) := h.of rfl rfl rfl

theorem Room.addPage {m : Nat} {d : Dev} (h : Room m d) (p : PageEntry) (hp : p.size = 0) : Room (m + 1) (d.addPage p) where
  dram := h.dram
  eff := h.eff
  size q hq := by
    simp only [Dev.addPage, List.mem_append, List.mem_singleton] at hq
    rcases hq with hq | rfl
    · exact h.size q hq
    · exact hp
  few := by simp only [Dev.addPage, List.length_append, List.length_singleton]; exact Nat.add_le_add_right h.few 1

theorem Room.runs {m : Nat} {d : Dev} (h : Room m d) : d.progRuns 4096 = [(262144, 196608), (33816576, 196608)] := by
  have h1 : (List.range 8).filter up.inService = [0, 4] := by decide +kernel
  have h2 : up.fwShare = 1073741824 := by decide +kernel
  have h3 : up.progBytes 0 = 805306368 := by decide +kernel
  have h4 : up.progBytes 4 = 805306368 := by decide +kernel
  have e1 : d.inService = up.inService := by funext n; unfold Dev.inService Dev.chan; rw [h.dram]
  have e2 : d.fwShare = up.fwShare := by simp only [Dev.fwShare, Dev.populated, Dev.chan, h.dram]
  have e3 (n : Nat) : d.progBytes n = up.progBytes n := by simp only [Dev.progBytes, Dev.ge, Dev.chan, h.dram, h.eff]
  simp only [Dev.progRuns, e1, h1, e2, e3, List.map_cons, List.map_nil, h2, h3, h4] <;> norm_num

theorem Room.paOk {m : Nat} {d : Dev} (h : Room m d) (k b : Nat) (hb : b < 4096) (hk : (262144 ≤ k ∧ k < 458752) ∨ (33816576 ≤ k ∧ k < 34013184)) : d.paOk (k * 4096 + b) = true := by
  have h0 : (up.chan 0).populated = true ∧ (up.chan 0).cap = 16384 := by decide +kernel
  have h4 : (up.chan 4).populated = true ∧ (up.chan 4).cap = 16384 := by decide +kernel
  have hd : ∀ n, d.chan n = up.chan n := fun n => by simp [Dev.chan, h.dram]
  simp only [Dev.paOk, hd, chanOf, decide_eq_true_eq]
  rcases hk with hk | hk
  · have e : (k * 4096 + b) / 2 ^ 35 = 0 := by omega
    rw [e, h0.1, h0.2]; refine ⟨by omega, rfl, by omega⟩
  · have e : (k * 4096 + b) / 2 ^ 35 = 4 := by omega
    rw [e, h4.1, h4.2]; refine ⟨by omega, rfl, by omega⟩

/-- The page number that candidate `j` of a search from `x` stands for. -/
def nth (x j : Nat) : Nat := runAt [(262144, 196608), (33816576, 196608)] ((x + j) % 393216)

theorem nth_eq (x j : Nat) : nth x j = if (x + j) % 393216 < 196608 then 262144 + (x + j) % 393216 else 33816576 + ((x + j) % 393216 - 196608) := by
  simp only [nth, runAt]; split
  · rfl
  · split
    · rfl
    · omega

theorem nth_range (x j : Nat) : (262144 ≤ nth x j ∧ nth x j < 458752) ∨ (33816576 ≤ nth x j ∧ nth x j < 34013184) := by
  rw [nth_eq]; split <;> omega

theorem nth_inj (x i j : Nat) (hi : i < 393216) (hj : j < 393216) (h : nth x i = nth x j) : i = j := by
  rw [nth_eq, nth_eq] at h; split at h <;> split at h <;> omega

/-- A search of more frames than are taken finds a free one. -/
theorem Room.found {m : Nat} {d : Dev} (h : Room m d) (x t : Nat) (ht : t < 393216) (hm : d.mem.pages.length + 8192 < t) :
    ∃ j < t, d.frameFree (nth x j * 4096) 4096 = true := by
  by_contra hc
  have hbad : ∀ j < t, nth x j ∈ (d.mem.pages.map (·.phys)).toFinset ∪ Finset.Ico (msBase / 4096) (msBase / 4096 + 8192) := by
    intro j hj
    have hn : ¬ d.frameFree (nth x j * 4096) 4096 = true := fun hf => hc ⟨j, hj, hf⟩
    by_contra hx
    simp only [Finset.mem_union, List.mem_toFinset, List.mem_map, Finset.mem_Ico, not_or, not_exists, not_and, not_lt] at hx
    apply hn
    have hms : msBase = msBase / 4096 * 4096 := by unfold msBase; omega
    simp only [Dev.frameFree, decide_eq_true_eq, List.all_eq_true]
    have hp1 := h.paOk (nth x j) 0 (by omega) (nth_range x j)
    have hp2 := h.paOk (nth x j) 4095 (by omega) (nth_range x j)
    rw [show nth x j * 4096 + 0 = nth x j * 4096 by omega] at hp1
    rw [show nth x j * 4096 + 4095 = nth x j * 4096 + 4096 - 1 by omega] at hp2
    refine ⟨hp1, hp2, fun p hp => ?_, ?_⟩
    · have := hx.1 p hp
      rw [h.size p hp]; show _ ∨ p.phys * 4096 + 2 ^ 12 ≤ _; omega
    · have := hx.2; omega
  have h1 : (Finset.image (nth x) (Finset.range t)).card = t := by
    rw [Finset.card_image_of_injOn, Finset.card_range]
    intro i hi j hj hij
    simp at hi hj
    exact nth_inj x i j (by omega) (by omega) hij
  have h2 : Finset.image (nth x) (Finset.range t) ⊆ (d.mem.pages.map (·.phys)).toFinset ∪ Finset.Ico (msBase / 4096) (msBase / 4096 + 8192) := by
    intro k hk
    obtain ⟨j, hj, rfl⟩ := Finset.mem_image.1 hk
    exact hbad j (Finset.mem_range.1 hj)
  have h3 := (Finset.card_le_card h2).trans (Finset.card_union_le _ _)
  have h4 := (d.mem.pages.map (·.phys)).toFinset_card_le
  simp only [h1, Nat.card_Ico, List.length_map] at h3 h4
  omega

theorem Room.alloc {m : Nat} {d : Dev} (h : Room m d) (hm : m ≤ 1000) : ∃ pa e, d.allocFrame 4096 = some (pa, e) ∧ Room m e := by
  have hs : (d.mem.pages.map fun p => pageSz p.size / 4096 + 2).sum = 3 * d.mem.pages.length := by
    have : ∀ l : List PageEntry, (∀ p ∈ l, p.size = 0) → (l.map fun p => pageSz p.size / 4096 + 2).sum = 3 * l.length := by
      intro l; induction l with
      | nil => simp
      | cons p r ih =>
        intro hl
        have h1 := ih fun q hq => hl q (List.mem_cons_of_mem _ hq)
        have h2 := hl p List.mem_cons_self
        simp only [List.map_cons, List.sum_cons, h1, h2, List.length_cons]
        simp [pageSz]; omega
    exact this _ h.size
  have hr : Room m d.fresh.2 := h.of rfl rfl rfl
  have hl := h.few
  have key := hr.found (Config.pageFrame d.free) (8195 + 3 * d.mem.pages.length) (by omega) (by show d.mem.pages.length + 8192 < _; omega)
  obtain ⟨j, hj, hf⟩ := key
  simp only [Dev.allocFrame]
  split
  · exact ⟨_, _, rfl, hr⟩
  · rename_i hnone
    exfalso
    rw [List.find?_eq_none] at hnone
    refine hnone j ?_ ?_
    · rw [hr.runs]; simp only [List.mem_range]
      show j < min _ (2 ^ 25 / 4096 + 3 + (d.mem.pages.map fun p => pageSz p.size / 4096 + 2).sum)
      rw [hs]; simp; omega
    · simp only [hr.runs]; exact hf

theorem Room.table {m : Nat} {d : Dev} (h : Room m d) (hm : m ≤ 1000) (c va l : Nat) : ∃ pa e, d.newTable c va l = some (pa, e) ∧ Room (m + 1) e := by
  obtain ⟨pa, e, h1, h2⟩ := h.alloc hm
  simp only [Dev.newTable, h1]
  exact ⟨_, _, rfl, (h2.zeroFrame pa 4096).addPage _ rfl⟩

theorem Room.leaf {m : Nat} {d : Dev} (l : Nat) (h : Room m d) (hm : m + l ≤ 1000) (c va entry t : Nat) : ∃ e, d.mapLeaf c va entry l t = some e ∧ Room (m + l) e := by
  induction l generalizing d m t with
  | zero => exact ⟨_, rfl, h.pokeN _ _⟩
  | succ l ih =>
    simp only [Dev.mapLeaf]
    split
    · obtain ⟨e, h1, h2⟩ := ih h (by omega) (tePhys _)
      exact ⟨e, h1, h2.le (by omega)⟩
    · obtain ⟨pa, e, h1, h2⟩ := h.table (by omega) c va l
      simp only [h1]
      obtain ⟨f, h3, h4⟩ := ih (h2.pokeN _ _) (by omega) pa
      exact ⟨f, h3, h4.le (by omega)⟩

theorem Room.page {m : Nat} {d : Dev} (h : Room m d) (hm : m + 4 ≤ 1000) (c root va cls perms : Nat) (l : List Byte) :
    ∃ e, d.loadPage c root va cls perms l = some e ∧ Room (m + 4) e := by
  simp only [Dev.loadPage]
  split
  · obtain ⟨e, h1, h2⟩ := h.leaf 3 (by omega) c va _ root
    exact ⟨e, h1, h2.le (by omega)⟩
  · obtain ⟨pa, e, h1, h2⟩ := h.alloc (by omega)
    simp only [h1]
    exact (((h2.zeroFrame pa 4096).pokeN pa l).addPage _ rfl).leaf 3 (by omega) c va _ root

theorem Room.pages {m : Nat} {d : Dev} (ps : List ImgPage) (h : Room m d) (hm : m + 4 * ps.length ≤ 1000) (c root : Nat) :
    ∃ e, d.loadPages c root ps = some e ∧ Room (m + 4 * ps.length) e := by
  induction ps generalizing d m with
  | nil => exact ⟨_, rfl, h⟩
  | cons v r ih =>
    simp only [List.length_cons] at hm
    obtain ⟨e, h1, h2⟩ := h.page (by omega) c root v.va v.cls v.perms v.bytes
    simp only [Dev.loadPages, h1]
    obtain ⟨f, h3, h4⟩ := ih h2 (by omega)
    exact ⟨f, h3, h4.le (by simp only [List.length_cons]; omega)⟩

theorem pagesOf_len (va len : Nat) : (pagesOf va len).length ≤ len / 4096 + 2 := by
  unfold pagesOf; split
  · simp
  · simp only [List.length_map, List.length_range]; omega

theorem loaded_pages (d : Dev) (i o n v : Nat) : ((d.setInst i o n v).sumPages).pageList.length ≤ d.mem.pages.length := by
  simp only [Dev.pageList, List.length_map]
  exact (List.length_filter_le ..).trans (List.length_filter_le ..)

theorem Room.load {d : Dev} (h : Room 0 d) (c n : Nat) (hn : n ≤ 65536) (im : List Byte) :
    ∃ f, d.loadImage c 16383 0 { parsed with stack := n } im [] = some f ∧ f.pageList.length ≤ pageListMax := by
  have h0 : Room 0 ({ d with free := d.free + 1 } : Dev) := h.of rfl rfl rfl
  obtain ⟨root, e1, h1, r1⟩ := h0.table (by omega) c 0 3
  simp only [Dev.loadImage, Dev.fresh, parsed, h1]
  generalize freeRange _ _ n = sv
  generalize freeRange _ _ (max _ 1) = av
  have l2 := pagesOf_len sv n
  generalize hps : (imgVas 0 [] [⟨0x1000, 0, 4, 4, 5, 4096⟩]).map (imgPage im 0 [⟨0x1000, 0, 4, 4, 5, 4096⟩]) ++ plainPages 0 3 (fun _ => []) (pagesOf sv n)
      ++ plainPages 0 3 (fun va => (([] : List Byte).drop (va - av)).take 4096) (pagesOf av 0) = ps
  have hl : ps.length ≤ 20 := by
    rw [← hps]
    have : (imgVas 0 [] [⟨0x1000, 0, 4, 4, 5, 4096⟩]).length = 1 := by decide
    have : (pagesOf av 0).length = 0 := rfl
    simp only [List.length_append, List.length_map, plainPages]; omega
  obtain ⟨e2, h2, r2⟩ := r1.pages ps (by omega) c root
  simp only [List.length_nil, Bool.false_eq_true, if_false, if_true, hps, h2, Option.map_some]
  rw [if_neg (by decide)]
  refine ⟨_, rfl, ?_⟩
  generalize saveBytes _ _ _ _ _ _ = l
  have r4 : Room 200 (e2.setCtx c { inst := qInst (e2.q 16383), gen := e2.instGen (qInst (e2.q 16383)), st := 1, root := root }) :=
    (Room.of (e := e2.setCtx c _) r2 rfl rfl rfl).le (by omega)
  have r5 := r4.pokeN (saveAt c) l
  generalize Dev.pokeN _ _ l = g at r5 ⊢
  exact Nat.le_trans (loaded_pages g ..) (Nat.le_trans r5.few (by decide))

/-- An image's fields as plain data. -/
def plain (e : Elf) : List (List Nat) :=
  [if e.dyn then 1 else 0, e.entry, e.scratch, e.stack] :: e.segs.map fun g => [g.va, g.off, g.fsz, g.msz, g.flags, g.align]

theorem plain_inj (a b : Elf) (h : plain a = plain b) : a = b := by
  obtain ⟨a1, a2, a3, a4, a5⟩ := a
  obtain ⟨b1, b2, b3, b4, b5⟩ := b
  simp only [plain, List.cons.injEq, and_true] at h
  obtain ⟨⟨h1, h2, h4, h5⟩, h3⟩ := h
  have e1 : a1 = b1 := by cases a1 <;> cases b1 <;> simp_all
  have e3 : a3 = b3 := by
    refine (List.map_inj_right ?_).1 h3
    rintro ⟨⟩ ⟨⟩ h
    simp only [List.cons.injEq, and_true] at h
    simp [h]
  simp [e1, h2, e3, h4, h5]

theorem test_elf_parses : parseElf elf = some parsed := by
  have h : (parseElf elf).map plain = some (plain parsed) := by decide +kernel
  obtain ⟨x, h1, h2⟩ := Option.map_eq_some_iff.1 h
  rw [h1, plain_inj x parsed h2]

theorem room_queued : Room 0 ({ (queued programPair) with free := (queued programPair).free + 1 } : Dev) := by
  refine ⟨by decide +kernel, by decide +kernel, ?_, ?_⟩
  · show ∀ p ∈ (queued programPair).mem.pages, p.size = 0
    decide +kernel
  · show (queued programPair).mem.pages.length ≤ 0
    decide +kernel

/-- R203: the program loads, wherever firmware puts its pages, and its pages fit the page list. -/
theorem test_load_succeeds (c : Nat) :
    ∃ f, ({ (queued programPair) with free := (queued programPair).free + 1 } : Dev).loadImage c 16383 0 parsed elf [] = some f ∧ f.pageList.length ≤ pageListMax :=
  room_queued.load c 65536 (Nat.le_refl _) elf

/-- Register `r` and FLAGS of core 0. -/
def wf (d : Dev) (r : Nat) : Nat × Nat := (((d.core 0).rw r).toNat, (d.core 0).flags.toNat)

/-- The cause, value and pc of a core that trapped to the supervisor. -/
def trapOf (d : Dev) : Nat × Nat × Nat := (((d.core 0).scause).toNat, ((d.core 0).stval).toNat, ((d.core 0).sepc).toNat)

/-- The same core with UCTL.DivTrap, at user privilege, with loop and string values. -/
def edgeTrap : Core := { edge with uctl := 1 }

-- R187, R189, Table 8.12A: the edges of arithmetic.
theorem test_add_carries : wf (run (.add 0 1 3 4) (core0 edge)) 1 = (6, 4) := by decide +kernel
theorem test_neg_of_least : wf (run (.neg 0 1 2) (core0 edge)) 1 = (2 ^ 63, 14) := by decide +kernel
theorem test_cmp_borrows : wf (run (.cmp 0 4 3) (core0 edge)) 4 = (7, 4) := by decide +kernel
theorem test_zero_discards : wf (run (.add 0 0 4 4) (core0 edge)) 0 = (0, 0) := by decide +kernel
theorem test_sll_by_width : wf (run (.sll 0 1 4 5) (core0 edge)) 1 = (0, 1) := by decide +kernel
theorem test_srai_63 : wf (run (.srai 0 1 2 63) (core0 edge)) 1 = (2 ^ 64 - 1, 2) := by decide +kernel
theorem test_slli_64_illegal : trapOf (run (.slli 0 1 2 64) (core0 edge)) = (2, 0x0A * 2 ^ 26 + 1 * 2 ^ 21 + 2 * 2 ^ 16 + 64, 0x1000) := by decide +kernel
theorem test_clz_ctz_zero : wf (run (.clz 0 1 0) (core0 edge)) 1 = (64, 0) ∧ wf (run (.ctz 0 1 0) (core0 edge)) 1 = (64, 0) := by decide +kernel
theorem test_mul_flags : wf (run (.mul 0 1 3 3) (core0 edge)) 1 = (1, 4) := by decide +kernel
theorem test_mulh_signs : wf (run (.mulh 0 1 3 4) (core0 edge)) 1 = (2 ^ 64 - 1, 2) := by decide +kernel
theorem test_div_overflow : wf (run (.div 0 1 2 3 8) (core0 edge)) 1 = (2 ^ 63, 10) := by decide +kernel
theorem test_div_by_zero : wf (run (.div 0 1 4 0 8) (core0 edge)) 1 = (2 ^ 64 - 1, 18) ∧ ((run (.div 0 1 4 0 8) (core0 edge)).core 0).rw 8 = 7 := by decide +kernel
theorem test_div_trap : trapOf (run (.divu 0 1 4 0 8) (core0 edgeTrap)) = (0x0A, 0, 0x1000) := by decide +kernel
theorem test_div_truncates : ((run (.div 0 1 3 4 8) (core0 edge)).core 0).rw 8 = 0xFFFFFFFFFFFFFFFF := by decide +kernel

-- Table 8.9, 8.10: transfers, moves, the loop, the system instructions.
theorem test_beq_back : ((run (.beq 0 4 4 0xFFFF) (core0 edge)).core 0).pc = 0xFFC := by decide +kernel
theorem test_jal_links : ((run (.jal 0 4) (core0 edge)).core 0).pc = 0x1010 ∧ ((run (.jal 0 4) (core0 edge)).core 0).rw 31 = 0x1004 := by decide +kernel
theorem test_jr_misaligned : trapOf (run (.jr 0 1 7) (core0 edge)) = (6, 0x1002, 0x1000) := by decide +kernel
theorem test_movk_keeps : wf (run (.movk 0 5 1 0xFFFF) (core0 edge)) 5 = (0x10000FFFF0000, 0) := by decide +kernel
theorem test_setb_range : trapOf (run (.setb 0 7 5) (core0 edge)) = (4, 2 ^ 48, 0x1000) := by decide +kernel
theorem test_loop_empty : ((run (.loop 0 0 0 3) (core0 edge)).core 0).pc = 0x1010 := by decide +kernel
theorem test_loop_back : ((run (.nop 0) (core0 { edge with lc := [(1, 2)], ls := [(1, 0x800)], le := [(1, 0x1000)] })).core 0).pc = 0x800 := by decide +kernel
theorem test_trap_saves_next : trapOf (run (.trap 0 5) (core0 edge)) = (0x0B, 5, 0x1004) := by decide +kernel
theorem test_sret_to_user : ((run (.sret 0) (core0 { edge with status := 1 })).core 0).status.getLsbD 0 = false := by decide +kernel

-- Memory: a store and the load of it; an address outside the space; an atomic.
theorem test_store_load : wf (run (.lhs 0 1 6 0 0) (run (.st 0 3 6 0 0) (core0 edge))) 1 = (2 ^ 64 - 1, 0) := by decide +kernel
theorem test_store_bytes : (run (.sw 0 4 6 0 0) (core0 edge)).peekN 0x2000 5 = [7, 0, 0, 0, 0] := by decide +kernel
theorem test_address_hole : trapOf (run (.ld 0 1 0 0 0x800) (core0 edge)) = (4, 2 ^ 64 - 2048, 0x1000) := by decide +kernel
theorem test_cas_misses : (run (.amoCas 0 4 6 0 3) (core0 edge)).peekN 0x2000 1 = [0] ∧ wf (run (.amoCas 0 4 6 0 3) (core0 edge)) 4 = (0, 0) := by decide +kernel
theorem test_movs_element : (run (.movs 0 0 1) ((core0 { edge with ps := 0x2000, pd := 0x3000, pn := 2 }).poke 0x2000 0x5A)).peek 0x3000 = 0x5A := by decide +kernel
theorem test_vadd_lanes : ((run (.vadd 0 0 1 2 2) (core0 { edge with v := [(2, 0x80FF)] })).core 0).rv 1 = 0xFE := by decide +kernel
theorem test_vrsum : wf (run (.vrsum 0 1 1 2) (core0 { edge with v := [(2, 0x0001FFFF)] })) 1 = (0, 0) := by decide +kernel

/-- A core at user privilege, of no context yet. -/
def user : Core := { edge with status := 0, slice := 5, utvec := 0x4000, ctxid := 3, owner := 3 }

/-- Core 0 of user privilege, whose context 3 owns its scratch. -/
def userDev : Dev := { core0 user with mem := { (core0 user).mem with contexts := [(3, { st := 1 })] } }

-- AddSubtractCompareResults, LogicAndShiftResults, MinMaxAndCountResults, MultiplyResults, DivideFollowsTheRule, MoveAndSelectResults, BranchAndJumpResults:
-- beside State.Runs their hypotheses are on operands; each value below stands at a boundary of its clause.
theorem test_operand_witness :
    (63 : BitVec 16).toNat < 64 ∧ 64 ≤ (64 : BitVec 16).toNat ∧ edge.rw 0 = 0 ∧ edgeTrap.uctl.getLsbD 0 = true ∧ edge.uctl.getLsbD 0 = false ∧
    (edge.rw 2).toInt = -2 ^ 63 ∧ (edge.rw 3).toInt = -1 ∧ edge.rw 4 ≠ 0 ∧ (3 : BitVec 5).toNat < 4 ∧ 4 ≤ (4 : BitVec 5).toNat ∧
    (edge.rw 6).toNat < 2 ^ 48 ∧ 2 ^ 48 ≤ (edge.rw 5).toNat ∧ (7 : BitVec 5).toNat < 8 ∧ 8 ≤ (8 : BitVec 5).toNat ∧ condHolds edge.flags 9 = some true ∧
    condHolds edge.flags 0 = some false ∧ 10 ≤ (10 : BitVec 5).toNat ∧ (1 : BitVec 5).toNat < 2 ∧ (3 : BitVec 5).toNat = 2 + 1 ∧ (5 : BitVec 5).toNat = 4 + 1 ∧
    6 ≤ (6 : BitVec 5).toNat ∧ (edge.rw 6).toNat % 4 = 0 ∧ (edge.rw 7).toNat % 4 ≠ 0 := by decide +kernel

-- SystemInstructionResults: supervisor and user privilege, every kind of control register, URET and SRET.
theorem test_system_witness :
    edge.status.getLsbD 0 = true ∧ user.status.getLsbD 0 = false ∧ crListed 0x12 = true ∧ crSup 0x12 = true ∧ crReadOnly 0x12 true = false ∧ crRsv 0x12 0x2000 = false ∧
    crListed 0x1F = false ∧ edge.uepc.toNat % 4 = 0 ∧ edge.sepc.toNat % 4 = 0 ∧ edge.status.getLsbD 4 = false ∧ legalWord (2 * 2 ^ 26 + 5) = false ∧
    (user.slice ≠ 0 ∧ user.utvec ≠ 0 ∧ user.uctl.getLsbD 1 = false) := by decide +kernel

-- LoadResults, StoreResults, AtomicResults, StringElementResults: an access that reaches memory, at the last aligned address below 2^40 of the scratch window too.
theorem test_reaches_witness :
    okAt ((core0 edge).coreAccess 0 0x2000 8 1 1) = some (0x2000, core0 edge) ∧ okAt ((core0 edge).coreAccess 0 0x2000 64 2 2) = some (0x2000, core0 edge) ∧
    okAt ((core0 edge).coreAccess 0 0x2000 8 1 4) = some (0x2000, core0 edge) ∧ okAt ((core0 edge).coreAccess 0 0x2000 8 2 4) = some (0x2000, core0 edge) ∧
    okAt (userDev.coreAccess 0 (2 ^ 48 - 8) 8 2 2) = some (2 ^ 40 + 2 ^ 18 - 8, userDev) := by decide +kernel

-- AddressRangeOfTheRule: below 0, at 2^48, and the ends of the hole; the addresses just outside are not in the hole.
theorem test_range_witness :
    let bad : Int → Bool := fun e => decide (e < 0 ∨ 2 ^ 48 ≤ e ∨ (0xfffffff00000 ≤ e ∧ e < 0xfffffffc0000))
    bad (-1) ∧ bad (2 ^ 48) ∧ bad 0xfffffff00000 ∧ bad 0xfffffffbffff ∧ !bad 0xfffffffc0000 ∧ !bad 0xffffffefffff ∧ !bad 0 := by decide +kernel

-- VectorMoveResults: the last lane and the first index beyond it; StringElementResults: pn 0 and not 0.
theorem test_vector_witness : (63 : BitVec 6).toNat < 512 / (8 * 2 ^ 0) ∧ 512 / (8 * 2 ^ 1) ≤ (32 : BitVec 6).toNat ∧ edge.pn = 0 := by decide +kernel

-- LoopSetUpAndEndCheck: n16 not 0 and 0; a level that ends here with its count above 1, at 1 and at 0.
theorem test_loop_witness : let c : Core := { lc := [(0, 2), (1, 1)], le := [(0, 0x1000), (1, 0x1000)] }
    (c.rlc 0 ≠ 0 ∧ (c.rle 0).toNat = 0x1000 ∧ c.rlc 0 ≠ 1) ∧ (c.rlc 1 ≠ 0 ∧ (c.rle 1).toNat = 0x1000 ∧ c.rlc 1 = 1) ∧ (edge.rlc 0 = 0 ∧ edge.rlc 1 = 0) ∧
    (3 : BitVec 16) ≠ 0 := by decide +kernel

-- TrapInstructionsAndAsyncTraps, TrapEntryOfTheRule: a delegable trap at user privilege; a pending PREEMPT; a pending interrupt.
theorem test_async_witness :
    let d1 := core0 { user with preempt := some 0 }; let d2 := core0 { edge with irqs := [4], wfi := true }
    d1.canRun 0 = true ∧ (d1.core 0).preempt = some 0 ∧ (d1.core 0).status.getLsbD 0 = false ∧ d2.canRun 0 = true ∧ (d2.core 0).preempt = none ∧
    (d2.core 0).irqs = [4] ∧ (d2.core 0).wfi = true := by decide +kernel

-- WellFormed: a term ill-formed in one operand, just beyond its bound, for each check; the checks refuse it.
theorem test_ill_formed_0 : ([
    .railEnable 16, .railStartFail 16, .adcSample 24 4095, .adcSample 23 4096, .railDischargeTimeout 16, .regulatorPoll 16 false false,
    .avsAckReceive 4, .avsAckTimeout 4, .qclkSlewComplete 4, .marginStep 24 127, .marginStep 23 (-129), .marginStep 23 128, .railRestart 16,
    .clearCounters 256, .lunFailDuringVault 256, .energyGuardCheck 65536, .ceilingCompute 65536, .capTestPauseEnd 65536,
    .capTestStepSample 65536 65535, .capTestStepSample 65535 65536, .capTestDischargeStop 65536 0 0, .destageFlushIssue 64 0,
    .destageFlushComplete 64 0 false, .nvmeWrite 16384 65535 0 0 65535 [], .nvmeWrite 16383 65536 0 0 65535 [], .nvmeWrite 16383 65535 0 0 65536 [],
    .nvmeRead 16384 65535 0 0 65535 0 [], .nvmeRead 16383 65536 0 0 65535 0 [], .nvmeRead 16383 65535 0 0 65536 0 [], .nvmeFlush 16384 65535 0,
    .nvmeFlush 16383 65536 0, .writeZeroes 16384 65535 0 0 65535, .writeZeroes 16383 65536 0 0 65535, .writeZeroes 16383 65535 0 0 65536,
    .writeUncorrectable 16384 65535 0 0 65535, .writeUncorrectable 16383 65536 0 0 65535, .writeUncorrectable 16383 65535 0 0 65536,
    .createIoSq 4096 65535 65535 65535 0 false 65535, .createIoSq 4095 65536 65535 65535 0 false 65535,
    .createIoSq 4095 65535 65536 65535 0 false 65535] : List Instr).all (fun i => !i.wf) = true := by decide +kernel
theorem test_ill_formed_1 : ([
    .createIoSq 4095 65535 65535 65536 0 false 65535, .createIoSq 4095 65535 65535 65535 0 false 65536,
    .createIoCq 4096 65535 65535 65535 0 false none, .createIoCq 4095 65536 65535 65535 0 false none,
    .createIoCq 4095 65535 65536 65535 0 false none, .createIoCq 4095 65535 65535 65536 0 false none, .deleteIoSq 4096 65535 65535,
    .deleteIoSq 4095 65536 65535, .deleteIoSq 4095 65535 65536, .deleteIoCq 4096 65535 65535, .deleteIoCq 4095 65536 65535,
    .deleteIoCq 4095 65535 65536, .getLogPage 4096 65535 255 0 0 0, .getLogPage 4095 65536 255 0 0 0, .getLogPage 4095 65535 256 0 0 0,
    .identify 4096 65535 255 0 0, .identify 4095 65536 255 0 0, .identify 4095 65535 256 0 0, .abort 4096 65535 65535 65535,
    .abort 4095 65536 65535 65535, .abort 4095 65535 65536 65535, .abort 4095 65535 65535 65536, .setFeatures 4096 65535 255 0,
    .setFeatures 4095 65536 255 0, .setFeatures 4095 65535 256 0, .getFeatures 4096 65535 255, .getFeatures 4095 65536 255,
    .getFeatures 4095 65535 256, .asynchronousEventRequest 4096 65535, .asynchronousEventRequest 4095 65536, .keepAlive 4096 65535,
    .keepAlive 4095 65536, .invalidCommandOpcode 16384 65535 255, .invalidCommandOpcode 16383 65536 255, .invalidCommandOpcode 16383 65535 256,
    .lostRangeRelease 65536, .flashBlockFail 256 0 false, .slotEraseComplete 2, .pollMissed 16, .beacon (List.replicate 264 0)] : List Instr).all (fun i => !i.wf) = true := by decide +kernel
theorem test_ill_formed_2 : ([
    .poll (List.replicate 264 0), .status (List.replicate 264 0), .grant (List.replicate 264 0), .slotAck (List.replicate 264 0),
    .leashReset (List.replicate 264 0), .dictReq (List.replicate 264 0), .dictRsp (List.replicate 264 0), .forwardTimeout 256, .absentHoldExpire 16,
    .packResetMember 256, .drivePresenceDetect 64 false, .portLinkUp 64 255 255 255 255, .portLinkUp 63 256 255 255 255,
    .portLinkUp 63 255 256 255 255, .portLinkUp 63 255 255 256 255, .portLinkUp 63 255 255 255 256, .portTrainTimeout 64,
    .driveBind 64 false 0 false [], .driveLost 64, .portReadyTimeout 64, .rebuild 64, .rebuildComplete 4096 63, .rebuildComplete 4095 64,
    .prepareRemove 64, .prepareRemoveForce 64, .prepareRemoveDrainEnd 64, .powerOn 128, .powerOff 128, .dramCommandIssue 16 [] 0 none 0,
    .mr4Read 8 0, .dramAlert 16 0, .selfRefreshExit 8, .retrainDue 8 0 0, .channelQuarantine 8, .channelRetrain 8, .quarantineRescueComplete 8 [] [],
    .domainRequestOn 65536, .domainRequestRet 65536 [], .domainRequestOff 65536 [], .domainEntryComplete 65536] : List Instr).all (fun i => !i.wf) = true := by decide +kernel
theorem test_ill_formed_3 : ([
    .domainReady 65536, .transactionArrival 65536 0 0 0 0, .domainLock 65536 [], .padRelease 65536, .mctpPacketReceive 256 255 0 false false 0 [],
    .mctpPacketReceive 255 256 0 false false 0 [], .reassemblyTimeout 256 255 0, .reassemblyTimeout 255 256 0,
    .openSession { q0 with tr := 256, eid := 255, tag := 7, sid := 255, reqId := 65535, counter := 281474976710655 } [],
    .openSession { q0 with tr := 255, eid := 256, tag := 7, sid := 255, reqId := 65535, counter := 281474976710655 } [],
    .openSession { q0 with tr := 255, eid := 255, tag := 8, sid := 255, reqId := 65535, counter := 281474976710655 } [],
    .openSession { q0 with tr := 255, eid := 255, tag := 7, sid := 256, reqId := 65535, counter := 281474976710655 } [],
    .openSession { q0 with tr := 255, eid := 255, tag := 7, sid := 255, reqId := 65536, counter := 281474976710655 } [],
    .openSession { q0 with tr := 255, eid := 255, tag := 7, sid := 255, reqId := 65535, counter := 281474976710656 } [],
    .prove { q0 with tr := 256, eid := 255, tag := 7, sid := 255, reqId := 65535, counter := 281474976710655 } [],
    .prove { q0 with tr := 255, eid := 256, tag := 7, sid := 255, reqId := 65535, counter := 281474976710655 } [],
    .prove { q0 with tr := 255, eid := 255, tag := 8, sid := 255, reqId := 65535, counter := 281474976710655 } [],
    .prove { q0 with tr := 255, eid := 255, tag := 7, sid := 256, reqId := 65535, counter := 281474976710655 } [],
    .prove { q0 with tr := 255, eid := 255, tag := 7, sid := 255, reqId := 65536, counter := 281474976710655 } [],
    .prove { q0 with tr := 255, eid := 255, tag := 7, sid := 255, reqId := 65535, counter := 281474976710656 } [],
    .read { q0 with tr := 256, eid := 255, tag := 7, sid := 255, reqId := 65535, counter := 281474976710655 } [],
    .read { q0 with tr := 255, eid := 256, tag := 7, sid := 255, reqId := 65535, counter := 281474976710655 } [],
    .read { q0 with tr := 255, eid := 255, tag := 8, sid := 255, reqId := 65535, counter := 281474976710655 } [],
    .read { q0 with tr := 255, eid := 255, tag := 7, sid := 256, reqId := 65535, counter := 281474976710655 } [],
    .read { q0 with tr := 255, eid := 255, tag := 7, sid := 255, reqId := 65536, counter := 281474976710655 } [],
    .read { q0 with tr := 255, eid := 255, tag := 7, sid := 255, reqId := 65535, counter := 281474976710656 } [],
    .write { q0 with tr := 256, eid := 255, tag := 7, sid := 255, reqId := 65535, counter := 281474976710655 } [],
    .write { q0 with tr := 255, eid := 256, tag := 7, sid := 255, reqId := 65535, counter := 281474976710655 } [],
    .write { q0 with tr := 255, eid := 255, tag := 8, sid := 255, reqId := 65535, counter := 281474976710655 } [],
    .write { q0 with tr := 255, eid := 255, tag := 7, sid := 256, reqId := 65535, counter := 281474976710655 } [],
    .write { q0 with tr := 255, eid := 255, tag := 7, sid := 255, reqId := 65536, counter := 281474976710655 } [],
    .write { q0 with tr := 255, eid := 255, tag := 7, sid := 255, reqId := 65535, counter := 281474976710656 } [],
    .readBlock { q0 with tr := 256, eid := 255, tag := 7, sid := 255, reqId := 65535, counter := 281474976710655 } [],
    .readBlock { q0 with tr := 255, eid := 256, tag := 7, sid := 255, reqId := 65535, counter := 281474976710655 } [],
    .readBlock { q0 with tr := 255, eid := 255, tag := 8, sid := 255, reqId := 65535, counter := 281474976710655 } [],
    .readBlock { q0 with tr := 255, eid := 255, tag := 7, sid := 256, reqId := 65535, counter := 281474976710655 } [],
    .readBlock { q0 with tr := 255, eid := 255, tag := 7, sid := 255, reqId := 65536, counter := 281474976710655 } [],
    .readBlock { q0 with tr := 255, eid := 255, tag := 7, sid := 255, reqId := 65535, counter := 281474976710656 } [],
    .writeBlock { q0 with tr := 256, eid := 255, tag := 7, sid := 255, reqId := 65535, counter := 281474976710655 } [],
    .writeBlock { q0 with tr := 255, eid := 256, tag := 7, sid := 255, reqId := 65535, counter := 281474976710655 } []] : List Instr).all (fun i => !i.wf) = true := by decide +kernel
theorem test_ill_formed_4 : ([
    .writeBlock { q0 with tr := 255, eid := 255, tag := 8, sid := 255, reqId := 65535, counter := 281474976710655 } [],
    .writeBlock { q0 with tr := 255, eid := 255, tag := 7, sid := 256, reqId := 65535, counter := 281474976710655 } [],
    .writeBlock { q0 with tr := 255, eid := 255, tag := 7, sid := 255, reqId := 65536, counter := 281474976710655 } [],
    .writeBlock { q0 with tr := 255, eid := 255, tag := 7, sid := 255, reqId := 65535, counter := 281474976710656 } [],
    .commit { q0 with tr := 256, eid := 255, tag := 7, sid := 255, reqId := 65535, counter := 281474976710655 } [],
    .commit { q0 with tr := 255, eid := 256, tag := 7, sid := 255, reqId := 65535, counter := 281474976710655 } [],
    .commit { q0 with tr := 255, eid := 255, tag := 8, sid := 255, reqId := 65535, counter := 281474976710655 } [],
    .commit { q0 with tr := 255, eid := 255, tag := 7, sid := 256, reqId := 65535, counter := 281474976710655 } [],
    .commit { q0 with tr := 255, eid := 255, tag := 7, sid := 255, reqId := 65536, counter := 281474976710655 } [],
    .commit { q0 with tr := 255, eid := 255, tag := 7, sid := 255, reqId := 65535, counter := 281474976710656 } [],
    .discard { q0 with tr := 256, eid := 255, tag := 7, sid := 255, reqId := 65535, counter := 281474976710655 } [],
    .discard { q0 with tr := 255, eid := 256, tag := 7, sid := 255, reqId := 65535, counter := 281474976710655 } [],
    .discard { q0 with tr := 255, eid := 255, tag := 8, sid := 255, reqId := 65535, counter := 281474976710655 } [],
    .discard { q0 with tr := 255, eid := 255, tag := 7, sid := 256, reqId := 65535, counter := 281474976710655 } [],
    .discard { q0 with tr := 255, eid := 255, tag := 7, sid := 255, reqId := 65536, counter := 281474976710655 } [],
    .discard { q0 with tr := 255, eid := 255, tag := 7, sid := 255, reqId := 65535, counter := 281474976710656 } [],
    .heel { q0 with tr := 256, eid := 255, tag := 7, sid := 255, reqId := 65535, counter := 281474976710655 } [],
    .heel { q0 with tr := 255, eid := 256, tag := 7, sid := 255, reqId := 65535, counter := 281474976710655 } [],
    .heel { q0 with tr := 255, eid := 255, tag := 8, sid := 255, reqId := 65535, counter := 281474976710655 } [],
    .heel { q0 with tr := 255, eid := 255, tag := 7, sid := 256, reqId := 65535, counter := 281474976710655 } [],
    .heel { q0 with tr := 255, eid := 255, tag := 7, sid := 255, reqId := 65536, counter := 281474976710655 } [],
    .heel { q0 with tr := 255, eid := 255, tag := 7, sid := 255, reqId := 65535, counter := 281474976710656 } [],
    .close { q0 with tr := 256, eid := 255, tag := 7, sid := 255, reqId := 65535, counter := 281474976710655 } [],
    .close { q0 with tr := 255, eid := 256, tag := 7, sid := 255, reqId := 65535, counter := 281474976710655 } [],
    .close { q0 with tr := 255, eid := 255, tag := 8, sid := 255, reqId := 65535, counter := 281474976710655 } [],
    .close { q0 with tr := 255, eid := 255, tag := 7, sid := 256, reqId := 65535, counter := 281474976710655 } [],
    .close { q0 with tr := 255, eid := 255, tag := 7, sid := 255, reqId := 65536, counter := 281474976710655 } [],
    .close { q0 with tr := 255, eid := 255, tag := 7, sid := 255, reqId := 65535, counter := 281474976710656 } [], .lockoutExpire 0,
    .lockoutExpire 4, .proveTimeout 16, .sessionIdleExpire 16, .setEndpointId 256 255 255 255, .setEndpointId 255 256 255 255,
    .setEndpointId 255 255 256 255, .setEndpointId 255 255 255 256, .getEndpointId 256 255, .getEndpointId 255 256, .getEndpointUuid 256 255,
    .getEndpointUuid 255 256] : List Instr).all (fun i => !i.wf) = true := by decide +kernel
theorem test_ill_formed_5 : ([
    .getMctpVersionSupport 256 255 255, .getMctpVersionSupport 255 256 255, .getMctpVersionSupport 255 255 256, .getMessageTypeSupport 256 255,
    .getMessageTypeSupport 255 256, .getVendorDefinedMessageSupport 256 255 255, .getVendorDefinedMessageSupport 255 256 255,
    .getVendorDefinedMessageSupport 255 255 256, .unsupportedControlCommand 256 255 255, .unsupportedControlCommand 255 256 255,
    .unsupportedControlCommand 255 255 256, .faultAck 256 65535, .faultAck 255 65536, .unitQuarantine 65536 false, .logEraseComplete 2,
    .eventRecordsRead { q0 with tr := 256, eid := 255, tag := 7, sid := 255, reqId := 65535, counter := 281474976710655 },
    .eventRecordsRead { q0 with tr := 255, eid := 256, tag := 7, sid := 255, reqId := 65535, counter := 281474976710655 },
    .eventRecordsRead { q0 with tr := 255, eid := 255, tag := 8, sid := 255, reqId := 65535, counter := 281474976710655 },
    .eventRecordsRead { q0 with tr := 255, eid := 255, tag := 7, sid := 256, reqId := 65535, counter := 281474976710655 },
    .eventRecordsRead { q0 with tr := 255, eid := 255, tag := 7, sid := 255, reqId := 65536, counter := 281474976710655 },
    .eventRecordsRead { q0 with tr := 255, eid := 255, tag := 7, sid := 255, reqId := 65535, counter := 281474976710656 },
    .eventCursor { q0 with tr := 256, eid := 255, tag := 7, sid := 255, reqId := 65535, counter := 281474976710655 } 0,
    .eventCursor { q0 with tr := 255, eid := 256, tag := 7, sid := 255, reqId := 65535, counter := 281474976710655 } 0,
    .eventCursor { q0 with tr := 255, eid := 255, tag := 8, sid := 255, reqId := 65535, counter := 281474976710655 } 0,
    .eventCursor { q0 with tr := 255, eid := 255, tag := 7, sid := 256, reqId := 65535, counter := 281474976710655 } 0,
    .eventCursor { q0 with tr := 255, eid := 255, tag := 7, sid := 255, reqId := 65536, counter := 281474976710655 } 0,
    .eventCursor { q0 with tr := 255, eid := 255, tag := 7, sid := 255, reqId := 65535, counter := 281474976710656 } 0, .unitReset 65536,
    .clockLoss 23 0, .clockRecovered 23, .mclkPllRestart 8 false, .thermalSample 5 0, .hostLinkTrained 256 255, .hostLinkTrained 255 256,
    .instanceCreate 65536, .instanceReset 65536, .instanceRemove 65536, .fenceWaitEnd 4096, .instanceHaltComplete 4096 0, .instanceDrainEnd 4096 0] : List Instr).all (fun i => !i.wf) = true := by decide +kernel
theorem test_ill_formed_6 : ([
    .ccEnClear 4096, .doorbellWrite 4096 false 0 0 0, .contextQueueWatch 16384, .sqEntryFetch 16384, .programLoad 16384 0 [] [],
    .programMessage 16384 [], .programKill 16384, .dmaCopy 1024 65535 0 0, .dmaCopy 1023 65536 0 0, .dmaFill 1024 65535 0 0, .dmaFill 1023 65536 0 0,
    .dmaHostRead 1024 65535 0 0 false [], .dmaHostRead 1023 65536 0 0 false [], .dmaHostWrite 1024 65535 0 0 false,
    .dmaHostWrite 1023 65536 0 0 false, .dmaVolumeRead 1024 65535 0 0, .dmaVolumeRead 1023 65536 0 0, .dmaVolumeWrite 1024 65535 0 0,
    .dmaVolumeWrite 1023 65536 0 0, .dmaChannelResume 1344, .dmaFaultEnd 1344, .dmaDescriptorComplete 1024, .deflateCompress 320 65535 0 0,
    .deflateCompress 319 65536 0 0, .deflateDecompress 320 65535 0 0, .deflateDecompress 319 65536 0 0, .zstandardCompress 320 65535 0 0,
    .zstandardCompress 319 65536 0 0, .zstandardDecompress 320 65535 0 0, .zstandardDecompress 319 65536 0 0, .lz4Compress 320 65535 0 0,
    .lz4Compress 319 65536 0 0, .lz4Decompress 320 65535 0 0, .lz4Decompress 319 65536 0 0, .scanRow 320 65535 0 0, .scanRow 319 65536 0 0,
    .scanColumn 320 65535 0 0, .scanColumn 319 65536 0 0, .hashProbe 320 65535 0 0, .hashProbe 319 65536 0 0] : List Instr).all (fun i => !i.wf) = true := by decide +kernel
theorem test_ill_formed_7 : ([
    .bloomTest 320 65535 0 0, .bloomTest 319 65536 0 0, .runSearch 320 65535 0 0, .runSearch 319 65536 0 0, .xtsEncrypt 320 65535 0 0,
    .xtsEncrypt 319 65536 0 0, .xtsDecrypt 320 65535 0 0, .xtsDecrypt 319 65536 0 0, .sha256 320 65535 0 0, .sha256 319 65536 0 0,
    .sha384 320 65535 0 0, .sha384 319 65536 0 0, .rsEncode 320 65535 0 0, .rsEncode 319 65536 0 0, .rsReconstruct 320 65535 0 0,
    .rsReconstruct 319 65536 0 0, .engineJobComplete 320, .keySlotLoad 65536 0, .ccEnSet 4096 0 0 0 0, .keepAliveTimeout 4096, .driveReadyTimeout 64,
    .hostCompletionTimeout 4096] : List Instr).all (fun i => !i.wf) = true := by decide +kernel

-- The same operands at their last value are well-formed.
theorem test_well_formed_0 : ([
    .railEnable 15, .railStartFail 15, .adcSample 23 4095, .railDischargeTimeout 15, .regulatorPoll 15 false false, .avsAckReceive 3,
    .avsAckTimeout 3, .qclkSlewComplete 3, .marginStep 23 127, .railRestart 15, .clearCounters 255, .lunFailDuringVault 255, .energyGuardCheck 65535,
    .ceilingCompute 65535, .capTestPauseEnd 65535, .capTestStepSample 65535 65535, .capTestDischargeStop 65535 0 0, .destageFlushIssue 63 0,
    .destageFlushComplete 63 0 false, .nvmeWrite 16383 65535 0 0 65535 [], .nvmeRead 16383 65535 0 0 65535 0 [], .nvmeFlush 16383 65535 0,
    .writeZeroes 16383 65535 0 0 65535, .writeUncorrectable 16383 65535 0 0 65535, .createIoSq 4095 65535 65535 65535 0 false 65535,
    .createIoCq 4095 65535 65535 65535 0 false none, .deleteIoSq 4095 65535 65535, .deleteIoCq 4095 65535 65535, .getLogPage 4095 65535 255 0 0 0,
    .identify 4095 65535 255 0 0, .abort 4095 65535 65535 65535, .setFeatures 4095 65535 255 0, .getFeatures 4095 65535 255,
    .asynchronousEventRequest 4095 65535, .keepAlive 4095 65535, .invalidCommandOpcode 16383 65535 255, .lostRangeRelease 65535,
    .flashBlockFail 255 0 false, .slotEraseComplete 1, .pollMissed 15] : List Instr).all (fun i => i.wf) = true := by decide +kernel
theorem test_well_formed_1 : ([
    .beacon (List.replicate 263 0), .poll (List.replicate 263 0), .status (List.replicate 263 0), .grant (List.replicate 263 0),
    .slotAck (List.replicate 263 0), .leashReset (List.replicate 263 0), .dictReq (List.replicate 263 0), .dictRsp (List.replicate 263 0),
    .forwardTimeout 255, .absentHoldExpire 15, .packResetMember 255, .drivePresenceDetect 63 false, .portLinkUp 63 255 255 255 255,
    .portTrainTimeout 63, .driveBind 63 false 0 false [], .driveLost 63, .portReadyTimeout 63, .rebuild 63, .rebuildComplete 4095 63,
    .prepareRemove 63, .prepareRemoveForce 63, .prepareRemoveDrainEnd 63, .powerOn 127, .powerOff 127, .dramCommandIssue 15 [] 0 none 0,
    .mr4Read 7 0, .dramAlert 15 0, .selfRefreshExit 7, .retrainDue 7 0 0, .channelQuarantine 7, .channelRetrain 7, .quarantineRescueComplete 7 [] [],
    .domainRequestOn 65535, .domainRequestRet 65535 [], .domainRequestOff 65535 [], .domainEntryComplete 65535, .domainReady 65535,
    .transactionArrival 65535 0 0 0 0, .domainLock 65535 [], .padRelease 65535] : List Instr).all (fun i => i.wf) = true := by decide +kernel
theorem test_well_formed_2 : ([
    .mctpPacketReceive 255 255 0 false false 0 [], .reassemblyTimeout 255 255 0,
    .openSession { q0 with tr := 255, eid := 255, tag := 7, sid := 255, reqId := 65535, counter := 281474976710655 } [],
    .prove { q0 with tr := 255, eid := 255, tag := 7, sid := 255, reqId := 65535, counter := 281474976710655 } [],
    .read { q0 with tr := 255, eid := 255, tag := 7, sid := 255, reqId := 65535, counter := 281474976710655 } [],
    .write { q0 with tr := 255, eid := 255, tag := 7, sid := 255, reqId := 65535, counter := 281474976710655 } [],
    .readBlock { q0 with tr := 255, eid := 255, tag := 7, sid := 255, reqId := 65535, counter := 281474976710655 } [],
    .writeBlock { q0 with tr := 255, eid := 255, tag := 7, sid := 255, reqId := 65535, counter := 281474976710655 } [],
    .commit { q0 with tr := 255, eid := 255, tag := 7, sid := 255, reqId := 65535, counter := 281474976710655 } [],
    .discard { q0 with tr := 255, eid := 255, tag := 7, sid := 255, reqId := 65535, counter := 281474976710655 } [],
    .heel { q0 with tr := 255, eid := 255, tag := 7, sid := 255, reqId := 65535, counter := 281474976710655 } [],
    .close { q0 with tr := 255, eid := 255, tag := 7, sid := 255, reqId := 65535, counter := 281474976710655 } [], .lockoutExpire 3,
    .proveTimeout 15, .sessionIdleExpire 15, .setEndpointId 255 255 255 255, .getEndpointId 255 255, .getEndpointUuid 255 255,
    .getMctpVersionSupport 255 255 255, .getMessageTypeSupport 255 255, .getVendorDefinedMessageSupport 255 255 255,
    .unsupportedControlCommand 255 255 255, .faultAck 255 65535, .unitQuarantine 65535 false, .logEraseComplete 1,
    .eventRecordsRead { q0 with tr := 255, eid := 255, tag := 7, sid := 255, reqId := 65535, counter := 281474976710655 },
    .eventCursor { q0 with tr := 255, eid := 255, tag := 7, sid := 255, reqId := 65535, counter := 281474976710655 } 0, .unitReset 65535,
    .clockLoss 22 0, .clockRecovered 22, .mclkPllRestart 7 false, .thermalSample 4 0, .hostLinkTrained 255 255, .instanceCreate 65535,
    .instanceReset 65535, .instanceRemove 65535, .fenceWaitEnd 4095, .instanceHaltComplete 4095 0, .instanceDrainEnd 4095 0, .ccEnClear 4095] : List Instr).all (fun i => i.wf) = true := by decide +kernel
theorem test_well_formed_3 : ([
    .doorbellWrite 4095 false 0 0 0, .contextQueueWatch 16383, .sqEntryFetch 16383, .programLoad 16383 0 [] [], .programMessage 16383 [],
    .programKill 16383, .dmaCopy 1023 65535 0 0, .dmaFill 1023 65535 0 0, .dmaHostRead 1023 65535 0 0 false [], .dmaHostWrite 1023 65535 0 0 false,
    .dmaVolumeRead 1023 65535 0 0, .dmaVolumeWrite 1023 65535 0 0, .dmaChannelResume 1343, .dmaFaultEnd 1343, .dmaDescriptorComplete 1023,
    .deflateCompress 319 65535 0 0, .deflateDecompress 319 65535 0 0, .zstandardCompress 319 65535 0 0, .zstandardDecompress 319 65535 0 0,
    .lz4Compress 319 65535 0 0, .lz4Decompress 319 65535 0 0, .scanRow 319 65535 0 0, .scanColumn 319 65535 0 0, .hashProbe 319 65535 0 0,
    .bloomTest 319 65535 0 0, .runSearch 319 65535 0 0, .xtsEncrypt 319 65535 0 0, .xtsDecrypt 319 65535 0 0, .sha256 319 65535 0 0,
    .sha384 319 65535 0 0, .rsEncode 319 65535 0 0, .rsReconstruct 319 65535 0 0, .engineJobComplete 319, .keySlotLoad 65535 0,
    .ccEnSet 4095 0 0 0 0, .keepAliveTimeout 4095, .driveReadyTimeout 63, .hostCompletionTimeout 4095] : List Instr).all (fun i => i.wf) = true := by decide +kernel

-- FaultPinsFollowTheFaultState: a state with the invariant from which a step goes; CalmCommandsEndAtTheirEffect, RegisterInstructionFrame: a calm device.
theorem test_pins_witness : State.reset.PinsInv ∧ ∃ t, step { State.reset with pending := [.powerUpStart] } = .next t :=
  ⟨by unfold State.PinsInv; decide +kernel, _, rfl⟩

theorem test_calm_witness : (core0 edge).Calm :=
  { noOccurrence := by decide +kernel, noResume := by decide +kernel, noPortLink := by decide +kernel, noHostLink := by decide +kernel
    noHalt := by decide +kernel, noReset := by decide +kernel, noFlush := by decide +kernel }
-- NothingActsWithoutTheAuxiliaryInput, StepOnAnEmptyQueueIsATick, IllFormedCommandsChangeNothing, ZeroRegisterReadsZero.
theorem test_structure_witness :
    (run .auxBrownout up).aon.auxUp = false ∧ State.reset.pending = [] ∧ (Instr.railEnable 64).wf = false ∧ (3 ≠ 0 ∧ edge.rw 0 = 0) := by decide +kernel

-- R19: core /2/1/3, DMA engine /1/11 and vault channel /8/15.
theorem test_unit_numbers :
    [uCore 2 1 3, uDma 1 11, uVchan 15] = [0x1224, 0x1187, 0x248F] ∧ [kindOf 0x1224, kindOf 0x1187, kindOf 0x248F] = [3, 9, 0x13] := by decide +kernel

-- PowerUpSequenceSteps, with its results.
theorem test_power_up_witness :
    dev0.aon.auxUp = true ∧ dev0.aon.powered = true ∧ dev0.aon.fwHalt = false ∧ dev0.aon.wdRestart = false ∧ dev0.doms.supRet = false ∧ dev0.sup = 0 ∧
    dev0.g oAutoPowerOn = 1 ∧ dev0.power.endedStandby = false ∧
    ({ dev0 with power := { dev0.power with shortPress := true } } : Dev).power.shortPress = true ∧ rising.aon.auxUp = true ∧ rising.power.seqUp = true ∧
    15 ∈ rising.enRails ∧ rising.rst 15 = 0 ∧ (rising.parentsR 15).all rising.parentGood = true ∧ ramping.rst 15 = 1 ∧ (ramping.rail 15).en = true := by decide +kernel

theorem test_rail_start_fail :
    (run (.railStartFail 15) ramping).rst 15 = 5 ∧ ((run (.railStartFail 15) ramping).capture 591).latched = true := by decide +kernel

-- RailSamplesAndDischarge: a sample for the state the rail reads; one that makes fewer than Debounce for another state; the Debounce-th one in the bands.
theorem test_sample_witness :
    let d := { ramping with power := { ramping.power with rails := [(15, { en := true, cnt := 3, cand := 2 })] } }; 2457 < 4096 ∧ dev0.adcHeld 15 = false ∧
    2457 * ramping.ra oSenseScale 15 / 4095 = 900 ∧ (dev0.sr oRailVoltage 15 0).supports 15 0 = dev0.rst 15 ∧
    (ramping.sr oRailVoltage 15 900).supports 15 900 = 2 ∧ ramping.rst 15 = 1 ∧ ramping.gr oDebounce 15 = 4 ∧ (d.rail 15).cand = 2 ∧
    d.gr oDebounce 15 ≤ (d.rail 15).cnt + 1 ∧ d.rst 15 = 1 ∧ d.adcHeld 15 = false ∧ d.aon.auxUp = true ∧ (d.sr oRailVoltage 15 900).supports 15 900 = 2 := by decide +kernel

-- R317, R319: the voltage and the state after one sample of 0.9 V of a ramping rail, alone and as the fourth in a row.
theorem test_sample_values :
    let d := { ramping with power := { ramping.power with rails := [(15, { en := true, cnt := 3, cand := 2 })] } };
    (run (.adcSample 15 2457) ramping).gr oRailVoltage 15 = 900 ∧ (run (.adcSample 15 2457) ramping).rst 15 = 1 ∧ (run (.adcSample 15 2457) d).rst 15 = 2 := by decide +kernel

theorem test_discharge_witness :
    let d := dev0.sr oRailState 15 7; d.aon.auxUp = true ∧ d.rst 15 = 7 ∧ (∀ x ∈ d.power.down, x.1 ≠ 15) ∧ (run (.railDischargeTimeout 15) d).rst 15 = 0 ∧
    (run (.railDischargeTimeout 15) d).gr oDischargeTimeouts 15 = 1 := by decide +kernel

-- RegulatorBusesAndScaling: an enabled PMBus rail, its third missed poll; the steps of a change of operating point.
theorem test_bus_witness :
    let m := { up with power := { up.power with missed := [(15, 2)] } };
    let a : Nat → Nat → Nat → Bool → Dev := fun step vack freq r => { up with power := { up.power with avs := [(3, { vack := vack, freq := freq, point := 0, target := 4, step := step, want := none, retried := r })] } };
    up.railFlag 15 0 = true ∧ up.ra oRailKind 15 = 1 ∧ storeGet (fun _ => 0) m.power.missed 15 = 2 ∧ m.railFlag 15 0 = true ∧
    ((run (.regulatorPoll 15 false false) m).capture 639).latched = true ∧ ((a 1 0 2400 false).avsOf 3).step = 1 ∧ ((a 1 0 2400 false).avsOf 3).want = none ∧
    (up.opPoint 4).1 = 2400 ∧ (up.opPoint 4).2 = 880 ∧ ((a 1 0 800 false).avsOf 3).freq ≠ 2400 ∧ ((a 1 0 800 true).avsOf 3).retried = true ∧
    ((a 1 0 800 true).avsOf 3).step = 1 ∧ ((a 2 880 2400 true).avsOf 3).step = 2 ∧ ((a 2 880 2400 true).avsOf 3).vack = 880 ∧
    ((a 2 650 2400 true).avsOf 3).vack ≠ 880 ∧ ((run (.avsAckTimeout 3) (a 1 0 800 true)).capture 43).latched = true ∧
    ((run (.qclkSlewComplete 3) (a 2 650 800 false)).avsOf 3).step = 1 := by decide +kernel

-- Entry 4 is the last used one, entry 5 is not used, entry 8 does not exist.
theorem test_operating_point_witness :
    takes up ∧ ((List.range 4).all fun q => byteOf 0x04000000 q < 8 && (up.opPoint (byteOf 0x04000000 q)).1 != 0) = true ∧
    (up.opPoint (byteOf 0x05000000 3)).1 = 0 ∧ 8 ≤ byteOf 8 0 ∧ (run (.operatingPointChange 0x04000000) up).g oCoreOperatingPoint = 0x04000000 ∧
    (run (.operatingPointChange 0x05000000) up).out = [⟨.response, [0, 0, 4, 3, 0xFF, 0, 0], leBytes 2 uSup⟩] := by decide +kernel

-- MarginingAndRailCommands: margin mode allowed, and refused; steps of -20 and 20, and beyond; a failed rail; the write that clears ShutdownRequest.
theorem test_margin_witness :
    let m := up.s oWriteThroughCause 7; takes m ∧ m.g oMarginMode = 0 ∧ (m.g oWriteThroughCause).testBit 0 = true ∧ m.dirtyTotal = 0 ∧ m.seqBusy = false ∧
    (up.g oWriteThroughCause).testBit 0 = false ∧ up.g oMarginMode = 0 ∧ up.railMarginOk 23 (up.gr oNominal 23) 20 (up.sgr oFaultHigh 23 2) = true ∧
    up.railMarginOk 0 (up.gr oNominal 0) (-20) (up.sgr oFaultHigh 0 2) = true ∧ (up.sr oRailState 15 5).rst 15 = 5 ∧ (up.sr oRailState 0 4).rst 0 = 4 ∧
    takes (up.sr oRailState 15 5) ∧ (run (.marginMode true) m).g oMarginMode = 1 ∧ (run (.marginStep 23 20) up).sgr oMarginStep 23 1 = 20 ∧
    (run (.railRestart 15) (up.sr oRailState 15 5)).rst 15 = 0 ∧
    (run (.railRestart 15) (up.sr oRailState 15 5)).out.getLast? = some ⟨.response, [0, 0, 4, 0, 0xFF, 0, 0], [0xFF, 0xFF]⟩ ∧
    (run .shutdownRequestClear (up.s oShutdownRequest 1)).g oShutdownRequest = 0 ∧ (run (.clearCounters 23) (up.sr oFaults 23 9)).gr oFaults 23 = 0 := by decide +kernel

-- PowerLossPressesAndResets: each state in which a press or a reset acts otherwise.
theorem test_loss_witness :
    let v : Nat → Dev := fun n => up.s oVaultState n; let h := { v 7 with vault := { (v 7).vault with trigger := 6 } }; up.aon.auxUp = true ∧
    (run .auxBrownout up).aon.auxUp = false ∧ (run .vbatLowLatch (run .auxBrownout up)).aon.vbatLow = true ∧
    (run (.powerOnReset true true 5 false true) (run .auxBrownout up)).g oPackAddress = 5 ∧
    ((run (.powerOnReset false true 5 false true) (run .auxBrownout up)).capture 6).latched = true ∧ (v 2).inVault = true ∧ (v 2).retainResets = false ∧
    h.retainResets = true ∧ (v 0x0A).vst = 0x0A ∧ (v 0x0C).vst = 0x0C ∧ up.inVault = false ∧ up.sup ≠ 0 ∧ dev0.sup = 0 ∧ dev0.inVault = false ∧
    (run (.pwrbtnShortPress 100) up).g oShutdownRequest = 1 ∧ (run (.mrstN 5) (v 0x0C)).aon.mrstDefer = true ∧
    (run (.pwrbtnLongPress 4000) up).vault.trigger = 3 := by decide +kernel

-- VaultTriggersBeginTheSequence: unarmed and ARMED, within a Pack, and within a sequence that began with a command.
theorem test_trigger_witness :
    let p : Dev := { flash with aon := { flash.aon with lshEn := true, lshSyncN := true } }; flash.aon.auxUp = true ∧ flash.faults.haltDone = false ∧
    flash.vst = 0 ∧ flash.sup = 2 ∧ flash.power.full = false ∧ flash.aon.wdRestart = false ∧ flash.energy.drill.step = 0 ∧ p.aon.lshEn = true ∧
    p.aon.lshSyncN = true ∧ p.aon.auxUp = true ∧ p.vst = 0 ∧ takes (vaulting 1 {}) ∧ (vaulting 1 {}).armed = true ∧ takes flash ∧ flash.armed = false ∧
    (vaulting 7 {}).aon.holdEn = false ∧ (vaulting 7 {}).aon.lshEn = false ∧ (vaulting 2 {}).aon.auxUp = true := by decide +kernel

-- R83 to R86: PFAIL ends in QUIESCE with HOLD_EN; a command without it; a refused command.
theorem test_trigger_results :
    ((run .pfailT0 flash).vst, (run .pfailT0 flash).aon.holdEn, (run .pfailT0 flash).vault.trigger) = (3, true, 1) ∧
    ((run .vaultThenHold (vaulting 1 {})).vst, (run .vaultThenHold (vaulting 1 {})).aon.holdEn, (run .vaultThenHold (vaulting 1 {})).vault.trigger) = (3, false, 6) ∧
    (run .vaultThenOff flash).out = [⟨.response, [0, 0, 4, 4, 0xFF, 0, 0], leBytes 2 uChip⟩] := by decide +kernel

-- VaultStepsAdvance, with a core, a DMA channel and a job slot that overrun; the numbers are the last of the part.
theorem test_steps_witness :
    let q := vaulting 3 {}; let a := (q.setCore 63 { ctxid := 1023 }).setDesc 1023 { op := 1, status := 2 };
    let b := a.setSlot 319 { job := some { op := 0x40 } }; q.aon.auxUp = true ∧ q.vst = 3 ∧ 63 ∈ a.coreNos ∧ a.present (uCoreN 63) = true ∧
    (a.core 63).stopped = false ∧ (a.core 63).ctxid.toNat < 1024 ∧ (a.ch 1023).desc.isSome = true ∧ (b.slot 319).job.isSome = true ∧ b.vst = 3 ∧
    (vaulting 4 {}).vault.shedDone = false ∧ (vaulting 4 { shedDone := true }).offsetPassed = true ∧ (vaulting 4 { shedDone := true }).vaultTarget = some 0 ∧
    (vaulting 4 { shedDone := true, empty := true }).vault.empty = true ∧ (vaulting 5 {}).vault.spill = false ∧
    (vaulting 5 { empty := true }).vault.spill = false ∧ (run .quiesceComplete q).vst = 4 ∧ ((run (.quiesceOverrun 0 63) a).ctx 1023).inexact = true := by decide +kernel

-- R92, R94: a usable slot takes the plan; an empty plan ends in RETAIN once the spill is done.
theorem test_vault_begin :
    ((run .vaultBegin (vaulting 4 { shedDone := true })).vst, (run .vaultBegin (vaulting 4 { shedDone := true })).vault.slot) = (5, 0) ∧
    (run .spillComplete (vaulting 5 { empty := true })).vst = 7 := by decide +kernel

-- SegmentsSealAndEnergyGuard: a segment in the middle, the last one before the seal, and every failure.
theorem test_segment_witness :
    let w := ((writing 5 { spill := true, guard := true, issued := 2 } img).s oSenseInputs 0xFFFFFFFFFFFFFF00).s oCapMeasured 500000;
    let y := writing 5 { spill := true, guard := true, issued := 2 } { img with durable := 1 };
    let z := writing 6 { commit := true, trigger := 1 } { img with durable := 2 }; w.aon.auxUp = true ∧ w.target_ = some img ∧
    w.segAddr img 0 0 = some (4 * 2 ^ 32) ∧ w.segAddr img 0 1 = some (4 * 2 ^ 32 + 2 ^ 56) ∧ prefixOf ([] ++ [0]) 1 0 = 1 ∧ prefixOf ([] ++ [1]) 1 1 = 2 ∧
    y.target_ = some { img with durable := 1 } ∧ z.target_ = some { img with durable := 2 } ∧ z.vault.commit = true ∧ z.power.full = false ∧
    z.vault.wakeDue = false ∧ z.vault.trigger = 1 ∧ (w.reserveFree 0).isSome = true ∧ 0 ∈ w.kennel.map ∧ 31 ∈ w.kennel.map ∧
    (w.vault.ending = 0 ∧ 0 ∉ w.vault.cut ∧ w.vault.stop = false ∧ w.vault.wakeDue = false) ∧ (∀ r ∈ img.recs, r.kind ≠ 1) ∧
    (([⟨0, 0, 0, 0, 0, [], []⟩, ⟨1, 1, 0, 0, 0, [], []⟩] : List KRec).filter (·.kind = 1)).getLast? = some ⟨1, 1, 0, 0, 0, [], []⟩ ∧
    (w.inFlight img = 2 ∧ (writing 5 { guard := true } img).inFlight img = 0) ∧ w.vault.guard = true ∧ w.vault.empty = false ∧
    w.guardEnergy 0 < w.g oERetainMin * 1000 ∧ w.g oERetainMin * 1000 ≤ w.guardEnergy 65535 ∧ (writing 5 {} img).vault.guard = false := by decide +kernel

-- R96, R98, R99: the prefix moves; the segment before the seal commits it; the seal ends in RETAIN.
theorem test_segment_results :
    let w := ((writing 5 { spill := true, guard := true, issued := 2 } img).s oSenseInputs 0xFFFFFFFFFFFFFF00).s oCapMeasured 500000;
    let y := writing 5 { spill := true, guard := true, issued := 2 } { img with durable := 1 };
    ((run (.segmentProgramDone 0 2 0) w).vst, (run (.segmentProgramDone 0 2 0) w).target_.map (·.durable)) = (5, some 1) ∧
    ((run (.segmentProgramDone 1 2 0) y).vst, (run (.segmentProgramDone 1 2 0) y).vault.commit) = (6, true) ∧
    (run .sealDurable (writing 6 { commit := true, trigger := 1 } { img with durable := 2 })).vst = 7 ∧
    ((run (.flashProgramFail 0 false) w).target_.map (·.reloc.map (·.1))) = some [0] ∧
    ((run (.energyGuardCheck 0) w).vst, (run (.energyGuardCheck 0) { w with vault := { w.vault with issued := 0 } }).vst) = (5, 7) ∧
    (((run (.flashProgramFail 0 false) w).capture 496).latched, (run (.lunFailDuringVault 31) w).kennel.map.contains 31) = (true, false) := by decide +kernel

-- PowerReturnsOrFallsAway: every VaultState in which the return of power acts otherwise, after triggers 1, 2 and 3.
theorem test_return_witness :
    let v : Nat → Nat → Dev := fun n t => vaulting n { trigger := t };
    let k : Dev := { flash with aon := { flash.aon with lshEn := true, lshSyncN := false } }; (v 2 1).vault.trigger = 1 ∧ (v 5 2).vault.trigger = 2 ∧
    (v 5 2).vst = 5 ∧ (v 6 1).vault.commit = false ∧ (vaulting 6 { trigger := 1, commit := true }).vault.commit = true ∧ (v 7 2).vst = 7 ∧
    3 ≤ (v 7 3).vault.trigger ∧ ((v 9 1).power.seqUp = false ∧ (v 9 1).vault.ending = 0) ∧
    (writing 5 { trigger := 1 } img).target_.map (writing 5 { trigger := 1 } img).inFlight = some 0 ∧
    (writing 5 { trigger := 1, issued := 1 } img).target_.map (writing 5 { trigger := 1, issued := 1 } img).inFlight = some 1 ∧ flash.vst ≠ 7 ∧
    (vaulting 2 { held := true }).vault.held = true ∧ (vaulting 2 { held := true }).vst = 2 ∧ (k.aon.lshEn = true ∧ k.aon.lshSyncDrive = false) ∧
    k.pack.nodes = [] ∧ (v 7 2).aon.auxUp = true := by decide +kernel

-- R101, R102, R103: before the commit point the sequence is rescinded; in RETAIN the device wakes; hold-up that ends leaves it dark.
theorem test_return_results :
    (run .rescindTimerExpire (vaulting 5 { trigger := 2 })).vst = 9 ∧ (run .rescindTimerExpire (vaulting 7 { trigger := 1 })).vst = 0x0A ∧
    (run .retainToDark (vaulting 7 { trigger := 1 })).aon.powered = false ∧ (run .supervisorRestartComplete (vaulting 2 { held := true })).vst = 3 ∧
    (run .rescindResumeComplete (vaulting 9 { trigger := 1 })).vst = 0 ∧
    ((run .lshSyncStuck { flash with aon := { flash.aon with lshEn := true, lshSyncN := false } }).capture 30).latched = true := by decide +kernel

-- CeilingAndCharger: with and without an input for VHOLD; a charger that has missed two polls.
theorem test_ceiling_witness :
    let c : Nat → Dev := fun n => { flash.s oChargerAddress 0x10 with energy := { flash.energy with missed := n } }; flash.aon.auxUp = true ∧
    flash.inVault = false ∧ flash.energy.cap.predicted = false ∧ ((vaulting 2 {}).inVault = true ∧ (vaulting 2 {}).energy.cap.predicted = false) ∧
    (c 2).g oChargerAddress ≠ 0 ∧ (c 2).mayCharge = true ∧ (c 2).energy.missed = 2 ∧ (c 1).energy.missed ≠ 2 ∧
    ((run (.chargerPoll false) (c 2)).capture 18).latched = true ∧ ((run (.chargerPoll false) (c 2)).g oEnergyShortfall).testBit 2 = true ∧
    ((run (.chargerPoll false) (c 1)).g oEnergyShortfall).testBit 2 = false := by decide +kernel

-- CapacitanceTestSteps: deferred, dropped and begun; each step; a mean current at the ends of its range.
theorem test_cap_test_witness :
    let c : CapTest → Dev := fun x => { flash with energy := { flash.energy with cap := x } };
    let bank : Dev := { (flash.s oSenseInputs 0xFFFFFFFFFFFF0100).s oChargeVoltage 48000 with energy := { flash.energy with vhold := 43200 } };
    let bare : Dev := { (cached [ver] []).s oCapMeasured 100000 with energy := { flash.energy with vhold := 20001 } };
    let i : CapTest := { step := 4, v0 := 48000, v1 := 47900, i1 := 2000 }; takes flash ∧ flash.seqBusy = false ∧ flash.mayCharge = true ∧
    flash.energy.cap.auto = true ∧ flash.energy.cap.step = 0 ∧ flash.inVault = false ∧ flash.capCovered = true ∧
    ({ bank with energy := { bank.energy with vhold := 43199 } } : Dev).bankCharged = false ∧ (flash.g oChargeVoltage = 0 ∧ flash.bankCharged = true) ∧
    bank.bankCharged = true ∧ bank.capCovered = true ∧ bank.seqBusy = false ∧ bank.mayCharge = true ∧ bare.capCovered = false ∧ bare.mayCharge = true ∧
    takes bare ∧ ({ bare with energy := { bare.energy with cap := { step := 1 } } } : Dev).capCovered = false ∧
    bare.now < ({ step := 1 } : CapTest).deferSince + 3600000000 ∧ ({ bare with aon := { bare.aon with tick := 3600000000 } } : Dev).now = 3600000000 ∧
    (c { step := 2 }).energy.cap.step = 2 ∧ (c { step := 3 }).energy.cap.step = 3 ∧ (c i).energy.cap.step = 4 ∧ (c i).sense 1 = none ∧
    bank.sense 1 = some 17 ∧ (100 ≤ 47900 - 47800 ∧ 1800 * 100000 ≤ 180000 * 1000 ∧ 220000 * 1000 ≤ 2200 * 100000) ∧
    (179999 * 1000 < 1800 * 100000 ∧ 2200 * 100000 < 220001 * 1000) ∧
    (¬ ((100000 ≤ 99999 ∧ 100 ≤ 47900 - 47800) ∨ 1000000 ≤ 99999) ∧ ¬ ((100000 ≤ 999999 ∧ 100 ≤ 47900 - 47801) ∨ 1000000 ≤ 999999)) ∧
    (c { current := true }).energy.cap.current = true ∧ flash.energy.cap.current = false := by decide +kernel

-- R67 to R71: a test pauses the charger; a test without a current sense ends in source 20; 2 A for 1 s that drop the bank by 20 V make 0.1 F.
theorem test_cap_test_results :
    let bank : Dev := { (flash.s oSenseInputs 0xFFFFFFFFFFFF0100).s oChargeVoltage 48000 with energy := { flash.energy with vhold := 43200 } };
    let c : Dev → CapTest → Dev := fun d x => { d with energy := { d.energy with cap := x } };
    let i : CapTest := { step := 4, v0 := 48000, v1 := 47900, i1 := 2000 }; (run .capTestStart bank).energy.cap.step = 2 ∧
    ((run (.capTestDischargeStop 47800 220000 100000) (c bank i)).energy.cap.step, (run (.capTestDischargeStop 47801 220000 100000) (c bank i)).energy.cap.step) = (0, 4) ∧
    ((run (.capTestDischargeStop 27900 2000000 1000000) (c flash i)).capture 20).latched = true ∧
    (run (.capTestDischargeStop 27900 2000000 1000000) (c bank i)).g oCapMeasured = 100000 ∧
    (run (.capTestDischargeStop 27900 2000000 1000000) (c bank i)).g oEsrMeasured = 50000 := by decide +kernel

-- DrillSteps: a drill may begin, must wait, or may not; its end by bytes and by time.
theorem test_drill_witness :
    let x : Drill → Dev := fun x => { flash with energy := { flash.energy with drill := x } }; flash.drillMay = true ∧ flash.kennel.scratchErase = false ∧
    (flash.s oDrillInterval 1).g oDrillInterval ≠ 0 ∧ (flash.s oDrillInterval 1).drillMay = true ∧ takes flash ∧
    (flash.setKennel { kn with scratchErase := true }).drillMay = true ∧ up.drillMay = false ∧ takes up ∧ (x { step := 3 }).energy.drill.step = 3 ∧
    0 < 1 ∧ (x { step := 3 }).drillBytes ≤ 2 ^ 40 ∧ 1000000 ≤ 1000000 ∧ (x { step := 4, dur := 10, bytes := 480000 }).energy.drill.faulted = false ∧
    (x { step := 4, faulted := true }).energy.drill.faulted = true ∧ (run .drillStart up).out = [⟨.response, [0, 0, 4, 4, 0xFF, 0, 0], leBytes 2 uChip⟩] ∧
    (run .drillResumeComplete (x { step := 4, dur := 10, bytes := 480000 })).g oDrillRate = 48000 ∧
    (run .drillResumeComplete (x { step := 4, dur := 10, bytes := 480000 })).g oDrillValid = 1 := by decide +kernel

-- Chapter 3: a 0.5 F bank at 33 V gives 222,525,000 uJ; 200 J over 1.25 GiB of fixed bytes give 38,302,945 blocks.
theorem test_energy_examples :

    let p : Dev := { ({ flash with aon := { flash.aon with lshEn := true } } : Dev).s oGrantEnergy 200000 with pack := { flash.pack with hasGrant := true }, kennel := { kn with map := List.range 256 } };
    flash.bankEnergy 500000 33000 10000 = 222525000 ∧ (p.s oFixedBytes 1342177280).ceilingAt 33000 = 38302945 := by decide +kernel

/-- A device whose instance 0 is not yet enabled. -/
def idle : Dev := { flash with insts := { flash.insts with queues := [(0, setEnt adminPair 3 1 0)] } }
-- HostWritesReachTheGovernor: every way a write may go, at the last LBA of the volume, one beyond it, and at 1 MiB and one sector more.
theorem test_host_write_witness :
    let ro : Dev := { back with insts := { back.insts with ns := [(0, setEnt ns1 9 1 1)] } };
    let dead : Dev := { back with cache := { back.cache with volumes := [(0, setEnt vol0 0x12 1 3)] } };
    let ice : Dev := { back with cache := { back.cache with frozen := true } }; back.aon.auxUp = true ∧ flash.ioReady 16383 = false ∧
    back.ioReady 16383 = true ∧ 255 ∉ [0x00, 0x01, 0x02, 0x04, 0x08] ∧ back.nsFind (qInst (back.q 16383)) 2 = none ∧
    back.nsFind (qInst (back.q 16383)) 1 = some ns1 ∧ nsVol ns1 = 0 ∧ nsLba ns1 = 512 ∧ (2047 + 1) * 512 ≤ 2 ^ 20 ∧ 2 ^ 20 < (2048 + 1) * 512 ∧
    vCap (back.vol 0) * 4096 = 8191 * 512 + 512 ∧ vCap (back.vol 0) * 4096 < 8192 * 512 + 512 ∧ nsReadOnly (setEnt ns1 9 1 1) = true ∧
    ro.ioReady 16383 = true ∧ vState (dead.vol 0) = 3 ∧ dead.ioReady 16383 = true ∧ nsReadOnly ns1 = false ∧ vState (back.vol 0) ≠ 3 ∧
    (∀ x ∈ back.cache.writes, x.id < back.cache.wid) ∧ back.restore.held = none ∧ ice.cache.frozen = true ∧ ice.ioReady 16383 = true ∧
    back.cache.frozen = false ∧ back.goesThrough wr = false ∧ host.goesThrough wr = true ∧ host.ioReady 16383 = true ∧ back.waiters = [] ∧
    back.fitsTotal wr = true ∧ back.fitsQuota wr = true := by decide +kernel

-- R43, R50, R259: the completions, and the stage of the write that is held.
theorem test_host_write_results :
    let c : Dev → Instr → List (List Nat) := fun d i => (run i d).out.map (·.args); c back (.invalidCommandOpcode 16383 7 255) = [[16383, 0x20000]] ∧
    (run (.nvmeWrite 16383 7 1 8191 1 []) back).cache.writes = [] ∧
    (run (.nvmeWrite 16383 7 1 8191 0 []) back).cache.writes.map (fun w => (w.stage, w.thru)) = [(1, false)] ∧
    (run (.nvmeWrite 16383 7 1 0 0 []) host).cache.writes.map (fun w => (w.stage, w.thru)) = [(3, true)] ∧
    ((run (.nvmeWrite 16383 7 2 0 0 []) back).out.map (fun o => o.data.drop 8)) = [[0, 0, 1, 0, 7, 0, 0x17, 0]] := by decide +kernel

-- CacheStepsFollowTheirRules: the governor, a placement that merges and one that is new, write-through, mirroring, destage, its flush, and a drive read.
theorem test_cache_witness :
    let wait : HostWrite := { wr with stage := 0, waiting := true }; let g := cached [] [wait]; let full := (cached [ver] [wait]).s oDirtyCeilingBlocks 1;
    let thru := cached [] [{ wr with stage := 3, thru := true }];
    let mirror := ((cached [{ ver with copy := some 0x40000000 }] []).s oCacheModeActive 3).s oCacheModeRequested 1; let des := cached [ver] [];
    let x : Destage := { frame := 0, wait := [(4, 0, 1, 0)], noFua := true }; let y : Destage := { frame := 0, unflushed := [(0, 1, false)] };
    let z : Destage := { frame := 0, unflushed := [(0, 1, true)] }; let v3 : Version := { ver with st := 3 };
    let da : Dev := { cached [v3] [] with cache := { (cached [v3] []).cache with destages := [x], volumes := [(0, setEnt vol0 0x13 1 1)] } };
    let db : Dev := { cached [v3] [] with cache := { (cached [v3] []).cache with destages := [y] } };
    let dc : Dev := { cached [v3] [] with cache := { (cached [v3] []).cache with destages := [z], flushes := [⟨0, 1, 6⟩] } };
    let f : Fill := { id := 1, owner := 2, ref := 8, vol := 0, blk := 5, want := [(3, 0)] };
    let fd : Dev := { cached [] [wr] with cache := { (cached [] [wr]).cache with fills := [f] } }; g.restore.held = none ∧
    (∀ x ∈ g.cache.writes, x.r144 = false) ∧ g.cache.frozen = false ∧ g.waiters = [wait] ∧ g.fitsTotal wait = true ∧ g.fitsQuota wait = true ∧
    full.waiters = [wait] ∧ full.fitsTotal wait = false ∧ (cached [ver] [wr]).writeAt 8 = some wr ∧ wr.blocks = [5] ∧
    (cached [ver] [wr]).adopting 0 5 = false ∧ vLayout (back.vol 0) ≠ 0 ∧ ((cached [ver] [wr]).poolFor 0 5).isSome = true ∧
    (cached [ver] [wr]).versOf 0 5 = [ver] ∧ (cached [ver] [wr]).verHere ver = true ∧
    ver.seq + 1 = storeGet (fun _ => 0) (cached [ver] [wr]).cache.nextSeq 0 ∧ (cached [] [wr]).versOf 0 5 = [] ∧
    (cached [] [wr]).instFrames 0 < (cached [] [wr]).cacheQuota 0 ∧ (cached [] [wr]).cache.versions = [] ∧
    thru.writeAt 8 = some { wr with stage := 3, thru := true } ∧ thru.cache.fills = [] ∧ vState (thru.vol 0) ≠ 3 ∧ back.g oCacheModeActive ≠ 3 ∧
    mirror.g oCacheModeActive = 3 ∧ mirror.unmirrored = [] ∧ mirror.g oWriteThroughCause = 0 ∧ mirror.mirrorNew = true ∧ (vaulting 2 {}).destageOn = false ∧
    des.destageOn = true ∧ des.cache.versions.filter des.eligible = [ver] ∧ (des.destageStart ver).isSome = true ∧
    (des.s oDirtyCeilingBlocks 1).g oDestageLowWater * (des.s oDirtyCeilingBlocks 1).deff < (des.s oDirtyCeilingBlocks 1).dirtyTotal * 100 ∧
    (des.s oDirtyCeilingBlocks 1).destageOn = true ∧ (∀ p ∈ des.ports.ports, p.2.cmds = []) ∧ da.cache.destages = [x] ∧ da.verAt 0 = some v3 ∧
    (x.noFua = true ∧ y.noFua = false) ∧ (da.port 0).vwc = true ∧ (des.verHere ver = true ∧ vState (da.vol 0) ≠ 3) ∧ da.restore.held = none ∧
    db.cache.destages = [y] ∧ db.cache.flushes = [] ∧ (db.driveNs 0 1).isSome = true ∧ dc.verAt 0 = some v3 ∧ dc.cache.flushes = [⟨0, 1, 6⟩] ∧
    vState (dc.vol 0) ≠ 3 ∧ fd.cache.fills = [f] := by decide +kernel

-- The same statement: a new version in MIRROR, with a pool of another slice for its COPY; a write-through without FUA, and the end of its Flush.
theorem test_through_witness :
    let duo := (cached [] [wr]).s oCacheModeRequested 1; let lz : HostWrite := { wr with stage := 3, thru := true, noFua := true };
    let lazy : Dev := let d := cached [] [lz]; { d with ports := { d.ports with ports := [(0, { drive with vwc := true })] } };
    let lend : Dev := let d := cached [] [{ lz with unflushed := [(0, 1, true)] }]; { d with cache := { d.cache with flushes := [⟨0, 1, 6⟩] } };
    wr.unflushed = [] ∧
    ((cached [] [wr]).mirrorNew = false ∧ (duo.mirrorNew = true ∧ duo.versOf 0 5 = [] ∧ duo.writeAt 8 = some wr ∧ duo.poolFor 0 5 = some 0 ∧ 4 ∈ duo.chansIn ∧ 0 < duo.poolFree 4)) ∧
    (lazy.writeAt 8 = some lz ∧ lz.noFua = true ∧ lz.unflushed = [] ∧ lz.blocks = [5] ∧ lazy.writeSet 0 5 = [0] ∧ (lazy.port (xPort (lazy.vol 0) 0)).vwc = true ∧ vState (lazy.vol 0) ≠ 3) ∧
    (lend.cache.destages = [] ∧ lend.cache.writes = [{ lz with unflushed := [(0, 1, true)] }] ∧ lend.cache.flushes = [⟨0, 1, 6⟩]) := by decide +kernel

-- R51, R55, R56: the sectors merge; a new version takes the next sequence number; destage goes out with FUA; a durable version is CLEAN.
theorem test_cache_results :
    let d := cached [ver] [wr]; (run (.placeComplete 8 []) d).cache.versions = [{ ver with data := 0xCD }] ∧
    (run (.placeComplete 8 []) (cached [] [wr])).cache.versions.map (fun v => (v.seq, v.valid, v.st)) = [(1, 1, 2)] ∧
    (run (.destageIdleTimer []) (cached [ver] [])).out.map (·.args) = [[0, 1, 1, 0x100 + 40, 8, 7]] ∧
    ((run (.destageFlushComplete 0 1 true) { cached [{ ver with st := 3 }] [] with cache := { (cached [{ ver with st := 3 }] []).cache with destages := [{ frame := 0, unflushed := [(0, 1, true)] }], flushes := [⟨0, 1, 6⟩] } }).cache.versions.map (·.st)) = [1] := by decide +kernel

-- R37, the worked example of chapter 2: block 1,000 of an EC volume, k = 8, p = 2, StripShift 4, extent 3 from LBA 0x1000, 512-byte sectors.
theorem test_block_map_example :
    let e : BitVec 16384 := [(2, 1, 3), (3, 1, 10), (4, 1, 8), (5, 1, 2), (6, 1, 4), (0x78, 8, 0x1000)].foldl (fun e x => setEnt e x.1 x.2.1 x.2.2) 0;
    blockPos e 1000 = [3, 5, 6] ∧ ({ flash with cache := { flash.cache with volumes := [(0, e)] } } : Dev).blockLba 0 3 1000 = 5056 := by decide +kernel

-- AdminCommandsComplete: an admin queue that is served and one that is not; identifiers at 0, 511 and 512; every kind of page, feature and queue.
theorem test_admin_witness :
    let nsq : Dev := { host with insts := { host.insts with ctrl := [(0, { cc := 1, csts := 1, events := [(2, 0x30002)] })] } };
    let rd : HostCmd := { id := 1, ref := 16383, cid := 77, inst := 0, vol := 0, start := 0, len := 512 };
    let q : Dev := { host with insts := { host.insts with cmds := [rd] } };
    let ka : Dev := { host with aon := { host.aon with tick := 5000 }, insts := { host.insts with ctrl := [(0, { cc := 1, csts := 1, features := [(0x0F, 5)] })] } };
    let due : Dev := { host with insts := { host.insts with ctrl := [(0, { cc := 1, csts := 1, abortDue := 1 })] } }; host.aon.auxUp = true ∧
    flash.adminReady 0 = none ∧ host.adminReady 0 = some 0 ∧ (flash.adminUp 0 = none ∧ due.adminUp 0 = some 0 ∧ (due.ctrl 0).abortDue ≠ 0) ∧
    host.hostQ 0 511 = none ∧ host.hostQ 0 1 = some 16383 ∧ 511 < 512 ∧ host.cqExists 0 1 = true ∧ host.cqExists 0 2 = false ∧
    (match host.takePair 0 511 with | .ok _ => true | _ => false) = true ∧ ent (host.inst 0) 0x1A 2 ≤ 65535 ∧ qSqEntries (host.q 16383) ≠ 0 ∧
    qCqEntries (host.q 16383) ≠ 0 ∧ (∀ p ∈ host.queuesOf 0, qKind (host.q p) = 1 → qSlot (host.q p) ≠ 0 → qSqEntries (host.q p) ≠ 0 → (host.qs p).cq = 1) ∧
    (∀ p ∈ ({ host with insts := { host.insts with qstate := [(16383, { cq := 2 })] } } : Dev).queuesOf 0, (({ host with insts := { host.insts with qstate := [(16383, { cq := 2 })] } } : Dev).qs p).cq ≠ 1) ∧
    3 ∉ [0x01, 0x02, 0x04, 0x05, 0xC0] ∧ (host.logPage 0 4 0).isSome = true ∧ host.nsFind 0 1 = some ns1 ∧ host.nsFind 0 1025 = none ∧
    host.hostQ 0 65535 = none ∧ q.hostQ 0 1 = some 16383 ∧ q.insts.cmds = [rd] ∧ q.adminReady 0 = some 0 ∧ featureOk 0 = false ∧ featureOk 7 = true ∧
    featureOk 0x0F = true ∧ (host.ctrl 0).events = [] ∧ (nsq.ctrl 0).events = [(2, 0x30002)] ∧ nsq.adminReady 0 = some 0 ∧ idle.sup = 2 ∧
    idle.instState 0 = 1 ∧ (idle.irun 0).step = 0 ∧ bit (idle.ctrl 0).cc 0 = false ∧ idle.adminQueue 0 = some 0 ∧ bit (host.ctrl 0).cc 0 = true ∧
    host.inVault = false ∧ bit (ka.ctrl 0).csts 0 = true ∧ bit (ka.ctrl 0).csts 1 = false ∧ ka.feature 0 0x0F ≠ 0 ∧
    (ka.ctrl 0).kaTick + ka.feature 0 0x0F * 1000 ≤ ka.now := by decide +kernel

-- R260 to R262: an identifier of 0, a size of 0's value, the features, the timeout.
theorem test_admin_results :
    let st2 : Instr → List Byte := fun i => (((run i host).out.getLast?).map (fun o => o.data.drop 12)).getD [];
    st2 (.createIoSq 0 7 0 3 0 true 1) = [7, 0, 0x03, 0x02] ∧ st2 (.createIoSq 0 7 2 0 0 true 1) = [7, 0, 0x05, 0x02] ∧
    st2 (.createIoSq 0 7 2 3 0 true 2) = [7, 0, 0x01, 0x02] ∧ st2 (.deleteIoCq 0 7 1) = [7, 0, 0x19, 0x02] ∧ st2 (.getFeatures 0 7 0) = [7, 0, 0x05, 0] := by decide +kernel

-- InstanceResetsAndHostLink: a FREE instance and an ACTIVE one, the last and the first; the fence that waits and its end; DRAIN below and at the count.
theorem test_instance_witness :
    let held : Dev := { host with cache := { host.cache with versions := [{ ver with inst := 4095 }] } };
    let r : InstRun → Dev := fun x => { host with insts := { host.insts with run := [(0, x)] } }; let d2 : Dev := (r { step := 3 }).setInst 0 0x20 4 5;
    let none_ : Dev := host.setInst 0 2 1 2; let pin : Bool → Dev := fun b => { flash with aon := { flash.aon with perstN := b } };
    let one : InstRun → Dev := fun x => let d := host.setInst 1 2 1 1; { d with insts := { d.insts with run := [(1, x)] } }; takes host ∧
    host.instState 4095 = 0 ∧ host.hasDirty 4095 = false ∧ host.instState 0 = 1 ∧ held.hasDirty 4095 = true ∧ (host.irun 0).step = 0 ∧
    host.fenceWaits 0 = false ∧ (host.setInst 1 2 1 1).instState 1 = 1 ∧ (host.setInst 1 2 1 1).fenceWaits 1 = false ∧
    (r { lastIssue := [(1, 0)] }).fenceWaits 0 = true ∧ (r { step := 1, lastIssue := [(1, 0)] }).fenceWaits 0 = true ∧
    (r { step := 1, remove := true }).fenceWaits 0 = false ∧ (r { step := 2 }).irun 0 = { step := 2 } ∧ (d2.irun 0).step = 3 ∧ ent (d2.inst 0) 0x20 4 = 5 ∧
    d2.now < (d2.irun 0).start + 10000 ∧ host.liveInsts.filter (fun i => host.instState i = 1) = [0] ∧
    none_.liveInsts.filter (fun i => none_.instState i = 1) = [] ∧ (pin false).aon.perstN = false ∧ (pin true).aon.perstN = true ∧ (pin true).sup = 2 ∧
    ((r { step := 2 }).instState 0 ≠ 0 ∧ (one { step := 2 }).instState 1 ≠ 0 ∧ ((one { step := 2 }).irun 1).step = 2) ∧
    ((one { lastIssue := [(1, 0)] }).fenceWaits 1 = true ∧ ((one { lastIssue := [(1, 0)] }).irun 1).step = 0) ∧
    ((r { step := 3, start := 5 }).irun 0).start + 10000 = 10005 ∧ (host.rrs = false ∧ (host.s oVaultState 0x0B).rrs = true) ∧
    (pin true).pathOn uHost = true ∧ (pin true).insts.detectHeld = false ∧ (pin true).isolated uHost = false ∧ (pin true).halted = false := by decide +kernel

-- R253, R272, Table 11.11: creation, the reset's steps, and the width at which the link is held in Detect.
theorem test_instance_results :
    let pin : Dev := { flash with aon := { flash.aon with perstN := true } };
    let d2 : Dev := { host.setInst 0 0x20 4 5 with insts := { (host.setInst 0 0x20 4 5).insts with run := [(0, { step := 3, remove := true })] } };
    (run (.instanceCreate 4095) host).instState 4095 = 1 ∧ ((run (.instanceReset 0) host).instState 0, (run (.instanceReset 0) host).instGen 0) = (2, 1) ∧
    (run (.instanceDrainEnd 0 5) d2).instState 0 = 0 ∧ ent ((run (.instanceDrainEnd 0 4) d2).inst 0) 0x20 4 = 1 ∧
    (((run .flr host).instState 0, (run .flr host).instGen 0) = (2, 1) ∧ (run .busMasterEnableSet host).insts.busMaster = true) ∧
    (((run (.instanceHaltComplete 0 3) { host with insts := { host.insts with run := [(0, { step := 2 })] } }).irun 0).step = 3 ∧ ent ((run (.hostCompletionTimeout 0) d2).inst 0) 0x20 4 = 4) ∧
    (((run (.fenceWaitEnd 0) { host with insts := { host.insts with run := [(0, { step := 1 })] } }).irun 0).step = 2 ∧ (run .perstNRelease host).aon.perstN = true) ∧
    (run (.instanceRemove 1) (host.setInst 1 2 1 1)).instState 1 = 3 ∧
    ((run (.hostLinkTrained 3 4) pin).insts.link, (run (.hostLinkTrained 3 3) pin).insts.link, (run (.hostLinkTrained 2 4) pin).insts.detectHeld) = (1, 0, true) ∧
    ((run (.hostLinkTrained 6 16) pin).faults.live.testBit 14, (run (.hostLinkTrained 6 15) pin).faults.live.testBit 14) = (false, true) := by decide +kernel

/-- The same, bound to context 5, with an inbox of 8 entries. -/
def boundPair : BitVec 512 := [(0x20, 2, 5), (0x26, 2, 5), (0x30, 2, 8)].foldl (fun e x => setEnt e x.1 x.2.1 x.2.2) programPair

/-- A context queue of no entries. -/
def emptyPair : BitVec 512 := setEnt programPair 0x18 4 0

/-- An engine queue, LIVE, in host memory (`k` is 0) or a context's. -/
def engQ (k : Nat) : BitVec 512 := [(2, 1, 2), (0x20, 2, uEng 0 0), (0x25, 1, k)].foldl (fun e x => setEnt e x.1 x.2.1 x.2.2) programPair

/-- An inbox of one free entry. -/
def fullPair : BitVec 512 := setEnt boundPair 0x30 2 2

/-- A volume descriptor of position 4,095. -/
def vol4095 : BitVec 16384 := setEnt vol0 0 2 4095
-- QueuesTablesAndPrograms: doorbells at the last entry and one beyond; an epoch; a fetch; vectors 2,048 and 8,191; programs.
theorem test_queue_witness :
    let d : Dev := { back with insts := { back.insts with qstate := [(16383, { cq := 1, sqHead := 15, sqTail := 0 })], run := [(0, { credits := 1 })] } };
    let w := queued programPair; let b := queued boundPair;
    let g : Nat → Dev := fun r => { b with mem := { b.mem with contexts := [(5, { st := 1, root := 0x5000000 })], resid := [r] } };
    let e : Nat → Dev := fun k => let e := engQ k; { back with insts := { back.insts with queues := [(16383, e)], qstate := [(16383, { sqHead := 15, sqTail := 0 })] } };
    back.sup = 2 ∧ back.halted = false ∧ back.vst < 5 ∧ back.isolated uHost = false ∧ back.instState 0 = 1 ∧ (back.irun 0).step = 0 ∧
    back.queueAt 0 511 0 = none ∧ back.queueAt 0 1 0 = some 16383 ∧ qState (back.q 16383) < 2 ∧ 15 < qSqEntries (back.q 16383) ∧
    qSqEntries (back.q 16383) ≤ 16 ∧ headOk (qCqEntries (back.q 16383)) (back.qs 16383).cqHead (back.qs 16383).cqTail 0 = true ∧ 2 ≤ qKind (w.q 16383) ∧
    qLoc (w.q 16383) = 1 ∧ qState (w.q 16383) < 2 ∧ leNat (w.fwLoad (qOwner (w.q 16383)) (qSqBase (w.q 16383) - 64) 4) < qSqEntries (w.q 16383) ∧
    headOk 16 0 0 0 = true ∧ qSqEntries ((queued emptyPair).q 16383) ≤ leNat ((queued emptyPair).fwLoad 0 (qSqBase ((queued emptyPair).q 16383) - 64) 4) ∧
    back.now % 10 = 0 ∧ (run (.arbitrationEpoch) back).g oEpochCount = 1 ∧ ({ back with aon := { back.aon with tick := 19 } } : Dev).now % 10 ≠ 0 ∧
    back.liveInsts = [0] ∧ (back.irun 0).pendingShare = none ∧ back.sqPending 16383 = false ∧ d.sqPending 16383 = true ∧ qKind (d.q 16383) = 1 ∧
    0 < (d.irun 0).credits ∧ d.classTurn 0 = true ∧ d.queueTurn 0 16383 = true ∧ d.quiet = false ∧ back.hostHeld = false ∧ 2048 ≤ 8191 ∧
    ({ back with insts := { back.insts with msix := true } } : Dev).insts.msix = true ∧ w.fwServes 16383 = true ∧ back.fwServes 16383 = false ∧
    qBinding (w.q 16383) = 0xFFFF ∧ bit (ent (w.inst 0) 0x0B 1) 1 = true ∧ ent (w.inst 0) 0x1E 2 < ent (w.inst 0) 0x1C 2 ∧ w.freeContexts ≠ [] ∧
    parseElf [] = none ∧ bit (ent ((w.setInst 0 0x0B 1 0).inst 0) 0x0B 1) 1 = false ∧ b.fwServes 16383 = true ∧
    ((g (resKey 0x5000000)).inboxMissing 16383).isSome = true ∧ ((g 0).inboxMissing 16383).isNone = true ∧
    (((g (resKey 0x5000000)).fwMissing 5 4096).isSome = true ∧ (w.fwMissing (qOwner (w.q 16383)) (qSqBase (w.q 16383) - 64)).isNone = true) ∧
    ((e 1).sqPending 16383 = true ∧ qKind ((e 1).q 16383) = 2 ∧ qLoc ((e 1).q 16383) = 1 ∧ ((e 1).fwMissing (qOwner ((e 1).q 16383)) (128 * 15)).isNone = true) ∧
    ((e 0).sqPending 16383 = true ∧ qLoc ((e 0).q 16383) = 0 ∧ (e 0).restore.hold = false ∧ qLoc (d.q 16383) = 0 ∧ d.restore.hold = false) ∧
    qBinding (b.q 16383) < 1024 ∧ 1 < b.inboxFree 16383 ∧ (queued fullPair).inboxFree 16383 ≤ 1 := by decide +kernel

-- R263, R266: the tail moves to the last entry; a fetch wraps the head.
theorem test_queue_results :
    let d : Dev := { back with insts := { back.insts with qstate := [(16383, { cq := 1, sqHead := 15, sqTail := 0 })], run := [(0, { credits := 1 })] } };
    ((run (.doorbellWrite 0 false 8 4 15) back).qs 16383).sqTail = 15 ∧ ((run (.doorbellWrite 0 false 8 4 16) back).ctrl 0).errors = 1 ∧
    ((run (.sqEntryFetch 16383) d).qs 16383).sqHead = 0 ∧
    ((run (.sqEntryFetch 16383) { back with insts := { back.insts with queues := [(16383, engQ 1)], qstate := [(16383, { sqHead := 15, sqTail := 0 })] } }).qs 16383).got.length = 1 ∧
    ((run (.vectorUnmask 8191 0xFEE00000 7 false) back).vec 8191).mask = false := by decide +kernel

-- Table writes: of each table, the last entry, and a length that is not whole.
theorem test_table_witness :
    let i : BitVec 512 := [(0x14, 2, 512), (8, 2, 1000)].foldl (fun e x => setEnt e x.1 x.2.1 x.2.2) (back.inst 4095);
    let q : BitVec 512 := [(0, 2, 16383), (3, 1, 0), (0x22, 2, 0xFFFF), (0x30, 2, 4)].foldl (fun e x => setEnt e x.1 x.2.1 x.2.2) programPair;
    back.supAway = false ∧ (vaulting 2 {}).writesClosed = true ∧ back.writesClosed = false ∧ 15 % 16 ≠ 0 ∧ vLayout (back.vol 4095) = 0 ∧
    vLayout vol4095 ≠ 0 ∧ back.volOk (volBare (volMerge (back.vol 4095) vol4095)) = true ∧ ent (back.inst 4095) 2 1 = 0 ∧ back.instEntryOk 4095 i = true ∧
    flash.supAway = false ∧ (back.setVol 0 vol0).nsEntryOk 0 ns1 = true ∧ nsId ns1 ≠ 0 ∧ flash.queueEntryOk 16383 q = true ∧ qKind q ≠ 0 ∧
    (run (.queueTableWrite (64 * 16383) (leBytes 64 q.toNat)) flash).q 16383 = setEnt q 3 1 1 := by decide +kernel

-- FaultCommandsFollowTheirRules: the last source; a capture that is latched, live or not; pins that disagree for the third time; reactions in force.
theorem test_fault_witness :
    let cap : Capture := { (up.capture 669) with latched := true, cls := 1, eff := 1 };
    let l : Nat → Dev := fun v => { up with faults := { up.faults with caps := [(669, cap)], live := v } };
    let x : InForce := { unit := uChip, cls := 1, last := 0 }; let q : Dev := { up with faults := { up.faults with inforce := [x] } };
    let q2 : Dev := { q with aon := { q.aon with tick := q.g oQuietPeriod * 1000 } }; up.aon.auxUp = true ∧ 669 < 670 ∧
    (up.unitGone (uPort 63) = true ∧ up.unitGone 7 = false ∧ up.unitGone uHost = false ∧ up.unitGone 0xFFFF = false) ∧
    ({ x with cls := 3 } : InForce).cls = 3 ∧ up.present (homeUnit 669) = true ∧ (up.capture 551).latched = false ∧ up.classOf 551 = 0 ∧
    up.present (homeUnit 551) = true ∧ up.faults.caps = [] ∧ up.energy.drill.step = 0 ∧ (true, false) = up.pinsDriven ∧ (false, false) ≠ up.pinsDriven ∧
    up.faults.pinBad < 2 ∧ ({ up with faults := { up.faults with pinBad := 2 } } : Dev).faults.pinBad = 2 ∧ takes (l 0) ∧ (up.capture 669).latched = false ∧
    ((l 0).capture 669).latched = true ∧ (l 0).faults.live.testBit 669 = false ∧ (l (2 ^ 669)).faults.live.testBit 669 = true ∧
    up.gu (uSlice 3) oUnitQuarantine = 0 ∧ (up.su (uSlice 3) oUnitQuarantine 1).gu (uSlice 3) oUnitQuarantine = 1 ∧ up.aon.testMode = false ∧
    takes ({ up with aon := { up.aon with testMode := true } } : Dev) ∧ fieldOf (0x01060000 + 669) 0 2 < 670 ∧ byteOf (0x01060000 + 669) 2 ≤ 6 ∧
    byteOf (0x01060000 + 669) 3 = 1 ∧ 670 ≤ fieldOf 670 0 2 ∧ 6 < byteOf 0x00070000 2 ∧ 1 < byteOf 0x02000000 3 ∧ up.faults.inforce = [] ∧
    q.faults.inforce = [x] ∧ q.now < x.last + q.g oQuietPeriod * 1000 ∧ x.last + q2.g oQuietPeriod * 1000 ≤ q2.now ∧ x.cls = 1 ∧ x.contains = [] ∧
    (∀ p ∈ q2.faults.caps, q2.faults.live.testBit p.1 = false) := by decide +kernel

-- R397, R400: an occurrence is latched with what it captured; the third pin that disagrees raises source 5; a quiet reaction is left.
theorem test_fault_results :
    let q : Dev := { up with faults := { up.faults with inforce := [{ unit := uChip, cls := 1, last := 0 }] } };
    ((run (.faultOccurrence 669 2 7 3 0x1000 5) up).capture 669).latched = true ∧
    (((run (.faultOccurrence 669 2 7 3 0x1000 5) up).capture 669).acc, ((run (.faultOccurrence 669 2 7 3 0x1000 5) up).capture 669).addr) = (2, 0x1000) ∧
    ((run (.faultPinSample false false) { up with faults := { up.faults with pinBad := 2 } }).capture 5).latched = true ∧
    (run .forceExitCheck { q with aon := { q.aon with tick := q.g oQuietPeriod * 1000 } }).faults.inforce = [] ∧
    (run .forceExitCheck q).faults.inforce.length = 1 ∧ (run (.injectFault 0x00000002) up).out = [⟨.response, [0, 0, 4, 4, 0xFF, 0, 0], leBytes 2 uChip⟩] := by decide +kernel

-- RecorderCommandsFollowTheirRules: an intake with a record and a token; a Kennel with its log; a flush under way.
theorem test_recorder_witness :
    let r : EvRec := { code := 0x001, sev := 0, unit := 0, p0 := 9 };
    let d : Dev := { flash with faults := { flash.faults with intake := [r], tickRec := some 0 } };
    let f : Dev := { flash with faults := { flash.faults with flushing := [0] } }; let v := vaulting 2 {}; up.faults.intake = [] ∧ d.faults.intake = [r] ∧
    d.faults.seqRestart = false ∧ d.faults.tickRec = some 0 ∧ d.now < 0 + 1000000 ∧ d.faults.ring.length < 3000 ∧ d.faults.flushDue = false ∧
    1000000 ≤ d.tokens (storeGet noLimit d.faults.limits 1) ∧ takes flash ∧ flash.faults.intake.length < 64 ∧ up.kennelState < 2 ∧ takes up ∧
    2 ≤ flash.kennelState ∧ up.faults.flushing = [] ∧ f.faults.flushing ≠ [] ∧ f.logWaits 0 = false ∧ f.logWaits 1 = false ∧ f.faults.step5Pages = false ∧
    (f.logTake 0 0 f.faults.wpA).isSome = true ∧ (f.logTake 0 4 f.faults.wpA).isSome = true ∧ flash.writesClosed = false ∧ v.writesClosed = true ∧
    v.supAway = false ∧ (run .eventRecordWrite d).faults.ring.map (fun x => (x.ev.code, x.ev.p0)) = [(1, 9)] ∧
    (run (.logFlushComplete true true) f).g oLogFlushes = 1 ∧ ((run (.logFlushComplete false false) f).capture 7).latched = true ∧
    (run (.eventCursor q0 0x123456789ABC) flash).cursor 0xFF = 0x123456789ABC := by decide +kernel

-- A request that the management port takes, over SMBus and over I3C.
theorem test_asks_witness :
    (q0.tr = 2 ∧ ({ q0 with tr := 3 } : Req).tr = 3) ∧ (q0.prot = false ∧ q0.counter = 0 ∧ q0.sid = 0xFF) ∧ (q0.eid < 256 ∧ q0.tag < 8 ∧ q0.reqId < 65536) ∧
    up.halted = false := by decide +kernel

/-- A proved MANAGER session in slot 3, over SMBus, with the key 7 and Counter 4. -/
def sess : Session := { role := 2, transport := 2, state := 2, eid := 9, devNonce := 11, reqNonce := 12, lastCounter := 4, key := 7 }

/-- A device with that session. -/
def proved : Dev := { flash with sess := { flash.sess with slots := [(3, sess)] } }

/-- A request of that session with Counter 5, whose MAC is right. -/
def said (cmd : Nat) (body : List Byte) : Req :=
  let r : Req := { q0 with sid := 3, reqId := 0x11, prot := true, counter := 5 }
  { r with mac := sessionMac sess 0 3 5 (reqHeader r cmd body.length ++ body) }

/-- A device whose slots all hold a session. -/
def busy : Dev := { flash with sess := { flash.sess with slots := (List.range 16).map fun n => (n, sess) } }

/-- That MANAGER session, before its proof. -/
def unproved : Dev := { flash with sess := { flash.sess with slots := [(3, { sess with state := 1 })] } }
-- Chapter 16's worked example: the header of the READ in slot 3 with Counter 5.
theorem test_header_example :
    reqHeader { q0 with sid := 3, reqId := 0x11, prot := true, counter := 5 } 3 16 = [1, 3, 0, 2, 3, 0, 0x11, 0, 0x10, 0, 5, 0, 0, 0, 0, 0] ∧
    localAddr oVaultState = [0xFF, 0, 0, 0, 0, 0, 0, 0, 0, 0, 1, 0x60, 0, 0, 0, 0] := by decide +kernel

-- DictionaryRequestsFollowTheirRules, requests without a session: a free slot and none, each role, each kind of object.
theorem test_unsaid_witness :
    flash.halted = false ∧ (List.range 16).find? (fun i => (flash.session i).state = 0) = some 0 ∧ flash.lockLeft 2 = 0 ∧
    (∀ i ∈ List.range 16, (busy.session i).state ≠ 0) ∧ (leBytes 4 0 ++ leBytes 32 7).length ≤ 4120 ∧ oVaultState / 256 < 65536 ∧ oVaultState < 2 ^ 24 ∧
    oVaultState ≠ oEventRecords ∧ (objRow oVaultState).map (fun r => (r.obs, r.size)) = some (1, 1) ∧
    (objRow oVaultState).map (fun r => flash.holds r uChip) = some true ∧ 0 + 1 ≤ 1 := by decide +kernel

theorem test_prove_witness :
    let s := unproved.session 3; unproved.supAway = false ∧ unproved.halted = false ∧ s.state = 1 ∧ s.transport = 2 ∧ s.eid = 9 ∧
    s.lastCounter < 2 ^ 48 - 1 ∧ (proofOf s s.devNonce s.reqNonce).length = 48 := by decide +kernel

/-- The MAC of such a request is the one that `State.Speaks` asks for. -/
theorem test_said_mac (cmd : Nat) (body : List Byte) :
    (said cmd body).mac = sessionMac sess 0 3 5 (reqHeader (said cmd body) cmd body.length ++ body) := by
  simp only [said, reqHeader]
-- A request of the proved session: its MAC, and the values that its command needs.
theorem test_said_witness :
    let w := localAddr oPinClass ++ valueBytes 2 1 3; let r := said 4 w; proved.supAway = false ∧
    (r.tr = 2 ∧ r.eid < 256 ∧ r.tag < 8 ∧ r.reqId < 65536 ∧ r.sid < 16 ∧ w.length ≤ 4120) ∧
    (proved.session r.sid = sess ∧ sess.state = 2 ∧ sess.transport = r.tr ∧ sess.eid = r.eid ∧ sess.role = 2) ∧
    (sess.lastCounter < r.counter ∧ r.counter < 2 ^ 48 - 1) ∧ r.mac.length = 16 ∧
    (objRow oPinClass).map (fun x => (x.staged, x.rights 2, x.size, x.typ)) = some (true, 2, 1, 2) ∧
    (objRow oPinClass).map (fun x => (proved.holds x uChip, rowOk x 3)) = some (true, true) ∧ proved.readOnly oPinClass = false ∧
    proved.writesClosed = false ∧ (proved.session 3).staged = [] ∧ ({ proved.s oVaultState 2 with free := 0 } : Dev).writesClosed = true := by decide +kernel

-- R361, R372 to R378: OPEN answers the first slot; a wrong MAC does nothing.
theorem test_dict_results :
    let w := localAddr oPinClass ++ valueBytes 2 1 3;
    (run (.openSession q0 (leBytes 4 2 ++ leBytes 32 5)) flash).sess.slots.map (fun p => (p.1, p.2.state, p.2.role)) = [(0, 1, 2)] ∧
    ((run (.prove { q0 with sid := 3 } (proofOf sess 11 12)) unproved).session 3).state = 2 ∧
    ((run (.prove { q0 with sid := 3 } (zeros 48)) unproved).out.map (·.args)) = [[2, 9, 2, 7, 3, 0, 0]] ∧
    ((run (.write { said 4 w with mac := zeros 16 } w) proved).session 3).staged = [] ∧
    (run (.read q0 (localAddr oVaultState)) flash).out.map (·.data.drop 16) = [[8, 0, 1, 0, 0]] := by decide +kernel

-- TransportsSessionsTimersAndFuses: identifiers at 7, 8, 254 and 255; packets of 64 and 256 bytes; timers; the store.
theorem test_transport_witness :
    let t : Dev := { flash with aon := { flash.aon with testMode := true } }; flash.supAway = false ∧ flash.sess.asm = [] ∧ (unproved.session 3).state = 1 ∧
    (proved.session 3).state = 2 ∧ (flash.session 0).state ≠ 1 ∧ (flash.session 0).state ≠ 2 ∧ flash.doms.supRet = false ∧
    ({ flash with doms := { flash.doms with supRet := true } } : Dev).doms.supRet = true ∧ takes t ∧ t.aon.testMode = true ∧ t.fuse.locked = false ∧
    t.fuse.field 1 = none ∧ ((t.fuse.field 4).isSome = false ∨ (t.fuse.field 5).isSome = true) ∧ t.fuse.cut = [] ∧
    listGet 0 [8, 16, 32, 2, 2, 1] (2 - 1) = 16 ∧ listGet 0 [8, 16, 32, 2, 2, 1] (6 - 1) = 1 := by decide +kernel

theorem test_transport_results :
    (run (.setEndpointId 2 9 0 8) flash).eidAt 2 = 8 ∧ (run (.setEndpointId 2 9 0 7) flash).eidAt 2 = flash.eidAt 2 ∧
    ((run (.proveTimeout 3) unproved).session 3).state = 0 ∧
    (run (.fuseLock false) { flash with aon := { flash.aon with testMode := true } }).fuse.locked = true ∧
    ((run (.mctpPacketReceive 2 9 1 true false 0 (zeros 64)) flash).sess.asm).length = 1 := by decide +kernel

-- ResetsAndFirmwareSlots: before and after host readiness; within RETAIN; the VaultStates at the ends of each range; a trial that runs.
theorem test_reset_witness :
    let ready : Dev := { host with restore := { host.restore with readyTick := some 0 } }; let v : Nat → Nat → Dev := fun n t => vaulting n { trigger := t };
    flash.retainResets = false ∧ flash.halted = false ∧ flash.restore.readyTick = none ∧ ready.restore.readyTick ≠ none ∧ ready.domSt uHost = 0 ∧
    ready.retainResets = false ∧ (v 7 6).retainResets = true ∧ (v 7 6).halted = false ∧ (v 0x0A 1).vst = 0x0A ∧ takes (v 0x0A 1) ∧
    (v 0x0C 1).vst = 0x0C ∧ takes (v 0x0C 1) ∧ (v 1 1).vst < 0x0A ∧ takes (v 1 1) ∧ (v 2 1).vst = 2 ∧ (v 6 1).vst = 6 ∧
    (v 7 2).vst = 7 ∧ (v 7 2).vault.trigger < 3 ∧ flash.vst ≤ 1 ∧ flash.supAway = false ∧ (v 2 1).writesClosed = true ∧ flash.writesClosed = false ∧
    flash.aon.fwSlot ≤ 1 ∧ flash.fwb 2 ≠ 1 := by decide +kernel

-- R415, R419, R425: the kinds of reset, the watchdog in a sequence and in RETAIN, and the slot that a written image invalidates.
theorem test_reset_results :
    (run (.perstN true) flash).g oLastResetKind = 3 ∧ ((run .watchdogExpire (vaulting 6 {})).capture 2).latched = true ∧
    (run .watchdogExpire (vaulting 7 { trigger := 2 })).g oLastResetKind = 7 ∧
    (run .chipSoftReset (vaulting 0x0B {})).out = [⟨.response, [0, 0, 4, 4, 0xFF, 0, 0], leBytes 2 uChip⟩] ∧
    (run (.perstN true) (vaulting 7 { trigger := 6 })).vst = 0x0A ∧ ((run (.firmwareImage 3 [0x5A]) flash).fwSlotOf 1).valid = false ∧
    (run (.firmwareImage 0x1000000 [0x5A]) flash).out = [⟨.response, [0, 0, 6, 3, 0xFF, 0, 0], leBytes 2 uChip⟩] ∧
    ((run (.firmwareStage true 9) flash).fwSlotOf 1).version = 9 := by decide +kernel

/-- A device on which the trial of slot `n` runs since host readiness. -/
def trial (n : Nat) : Dev :=
  let d := run (.firmwareStage true 9) { flash with aon := { flash.aon with fwSlot := 1 - n } }
  { d with aon := { d.aon with fwSlot := n }, restore := { d.restore with readyTick := some 0 } }
theorem test_trial_witness :
    takes (trial 1) ∧ (trial 1).aon.fwSlot ≤ 1 ∧ (trial 1).fwb 2 = 1 ∧ (trial 1).fwb 1 = (trial 1).aon.fwSlot ∧ (trial 1).restore.readyTick ≠ none ∧
    (trial 1).aon.wdSince = false ∧ ((run .firmwareConfirm (trial 1)).fwb 0, (run .firmwareConfirm (trial 1)).fwb 2) = (1, 0) ∧
    ((run .trialConfirmTimeout (trial 1)).fwb 0, (run .trialConfirmTimeout (trial 1)).fwb 2) = (1, 0) ∧
    (run .firmwareCancel (trial 1)).fwb 1 = (trial 1).fwb 0 := by decide +kernel

-- ClocksSensorsAndTestPort: each kind of clock, lost or not; the attempts of a PLL; the temperatures at the thresholds.
theorem test_clock_witness :
    let k : Nat → Clock → Dev := fun i x => { flash with aon := { flash.aon with clocks := [(i, x)] } };
    let hot : Dev := { flash with faults := { flash.faults with live := 2 ^ 47 } };
    let test : Dev := { flash with aon := { flash.aon with testMode := true } }; (flash.clk 22).st = 0 ∧ flash.clockMasked 22 = false ∧
    (flash.clk 20).st = 0 ∧ flash.clockMasked 20 = false ∧ (flash.clk 21).st = 0 ∧ flash.clockMasked 21 = false ∧
    (flash.clk 19).st = 0 ∧ flash.clockMasked 19 = false ∧ ((k 0 { st := 2 }).clk 0).st ≠ 0 ∧ flash.vst ≠ 3 ∧ ((k 22 { st := 2 }).clk 22).st ≠ 0 ∧
    (k 18 { st := 2 }).clk 18 = { st := 2 } ∧ flash.aon.xclkHold = none ∧
    ({ flash with aon := { flash.aon with xclkHold := some 0 } } : Dev).aon.xclkHold ≠ none ∧
    (k 17 { st := 2, attempts := 2 }).clk 17 = { st := 2, attempts := 2 } ∧ (k 17 { st := 2, attempts := 3 }).clk 17 = { st := 2, attempts := 3 } ∧
    flash.faults.live.testBit 47 = false ∧ hot.faults.live.testBit 47 = true ∧ storeGet (fun _ => (0 : Int)) flash.aon.thermal 4 < 130 ∧
    test.aon.testMode = true ∧ flash.aon.testMode = false := by decide +kernel

-- R436 to R440, R454: losses, the third restart, 120 degrees, and the bits that the test port shifts out.
theorem test_clock_results :
    let k : Nat → Clock → Dev := fun i x => { flash with aon := { flash.aon with clocks := [(i, x)] } };
    let test : Dev := { flash with aon := { flash.aon with testMode := true } }; ((run (.clockLoss 21 9) flash).capture 669).latched = true ∧
    (run (.clockLoss 22 9) flash).aon.xclkHold = some 0 ∧ ((run (.clockRecovered 22) (run (.clockLoss 22 9) flash)).clk 22).st = 0 ∧
    ((run (.mclkPllRestart 0 false) (k 10 { st := 2, attempts := 1 })).clk 10).attempts = 2 ∧
    ((run (.mclkPllRestart 0 false) (k 10 { st := 2, attempts := 2 })).chan 0).st = 4 ∧ ((run (.thermalSample 3 120) flash).capture 47).latched = true ∧
    ((run (.thermalSample 3 119) flash).capture 47).latched = false ∧ (run (.bypass [true, false, true]) flash).out = [⟨.tdo, [0, 1, 0], []⟩] ∧
    ((run (.idcode (List.replicate 32 false)) flash).out.map (·.args.length)) = [32] ∧ (run (.extest [true, false] [true]) test).aon.cells = [false, true] ∧
    (run (.extest [true, false] [true]) flash).aon.cells = flash.aon.cells := by decide +kernel

/-- A descriptor of operation `op` and length `len`, physical, from 0x2000 to 0x3000 of volume `v`. -/
def dmaRaw (op len v : Nat) : BitVec 512 :=
  [(0, 1, op), (2, 2, 0xFFFF), (8, 8, 0x2000), (0x10, 8, 0x3000), (0x18, 8, len), (0x28, 2, v)].foldl (fun e x => setEnt e x.1 x.2.1 x.2.2) 0

/-- The write-back device whose memory holds 0x5A at 0x2000 and Poison in the line at 0x2040, with descriptor `x` running on channel 1,023. -/
def dma (x : Desc) : Dev :=
  let d := back.poke 0x2000 0x5A
  ({ d with mem := { d.mem with poison := [0x2040 / 64] } }).setDesc 1023 x

/-- That descriptor, as it runs. -/
def dmaRun (op : Nat) : Desc := { op := op, ctx := 0xFFFF, src := 0x2000, dst := 0x3000, len := 4096, status := 1 }

/-- The answer is an `ok`, a fault, Poison. -/
def gotKind {α : Type} : Got α → Nat
  | .ok _ _ => 0
  | .fault _ _ _ => 1
  | .poison _ => 2
  | .wait _ => 3

/-- How far a page is resolved. -/
def fixKind : Fixed → Nat
  | .done _ => 0
  | .wait _ => 1
  | .lost _ => 2

/-- Queue 7, of kind ENGINE, LIVE in context memory of context 5, bound to unit `u`, with entry `r` fetched; context 5 has ended where `gone`. -/
def engQueue (u : Nat) (r : Nat) (gone : Bool) : Dev :=
  let e : BitVec 512 := [(2, 1, 2), (3, 1, 1), (0x18, 4, 16), (0x1C, 4, 16), (0x20, 2, u), (0x25, 1, 1), (0x26, 2, 5)].foldl (fun e x => setEnt e x.1 x.2.1 x.2.2) 0
  { back with insts := { back.insts with queues := [(7, e)], qstate := [(7, { got := [r] })] }
              mem := { back.mem with contexts := [(5, { st := if gone then 4 else 1, root := 0x5000000 })] } }

/-- What is taken from queue `q`, and the device after it. -/
def taken (d : Dev) (u q : Nat) : Option Nat := (d.takeEntry u q 9).map (·.1)
-- DmaChannelsRunTheirDescriptors: a free channel and a descriptor that is invalid, empty, or runs; units that read, fault and meet Poison; volumes.
theorem test_dma_witness :
    let d := dma (dmaRun 1); let w := chWho 1023 (dmaRun 1); let v := dma { dmaRun 5 with src := 1023 * 4096, vst := 2 };
    let e := engQueue (chUnit 1023) (setEnt (dmaRaw 1 8 0) 2 2 5).toNat; (back.ch 1023).desc = none ∧
    ((e false).unitRuns (chUnit 1023) = true ∧ (e false).quiet = false ∧ qLoc ((e false).q 7) = 1) ∧
    (taken (e false) (chUnit 1023) 7 = some (setEnt (dmaRaw 1 8 0) 2 2 5).toNat ∧ taken (e false) 0 7 = none) ∧
    byteOf (setEnt (dmaRaw 1 8 0) 2 2 5).toNat 0 = 1 ∧ ((e true).descOf 7 (setEnt (dmaRaw 1 8 0) 2 2 5)).ctx = 5 ∧
    ((e true).ctxGone 5 = true ∧ (e false).ctxGone 5 = false) ∧
    (((run (.dmaCopy 1023 7 0 0) (e false)).ch 1023).desc.map (·.status) = some stQueued ∧ ((run (.dmaCopy 1023 7 0 0) (e true)).ch 1023).desc.map (·.status) = none) ∧
    ((dma { dmaRun 1 with gen := 1 }).instGen 0 ≠ 1 ∧ (dma { dmaRun 1 with status := stQueued }).unitRuns (chUnit 1023) = true) ∧
    back.unitRuns (chUnit 1023) = true ∧ back.quiet = false ∧ ent (dmaRaw 6 8 0) 0 1 = 6 ∧ (back.descOf 0xFFFF (dmaRaw 5 8 0)).invalid = true ∧
    (back.descOf 0xFFFF (dmaRaw 1 8 0)).invalid = false ∧ (back.descOf 0xFFFF (dmaRaw 1 0 0)).len = 0 ∧ (d.ch 1023).desc = some (dmaRun 1) ∧
    d.unitRuns (chUnit 1023) = true ∧ gotKind (d.readVa w 0x2000 64) = 0 ∧ gotKind (d.readVa w 0x2040 64) = 2 ∧ gotKind (d.writeVa w 0x3000 [1]) = 0 ∧
    gotKind (d.readVa { w with ctx := 0 } 0x2000 64) = 1 ∧ d.hostXlat 1023 0 0x2000 false = none ∧ (d.hostXlat 1023 0 0x2000 true).isSome = true ∧
    v.volHolds 0 (1023 * 4096) 4096 = true ∧ v.volHolds 0 (1024 * 4096) 4096 = false ∧ vState (v.vol 0) ≠ 3 ∧
    ((run (.dmaCopy 1023 0xFFFF 0 1) d).ch 1023).desc.map (·.progress) = some 64 ∧ (run (.dmaCopy 1023 0xFFFF 0 1) d).peek 0x3000 = 0x5A := by decide +kernel

-- What ends, resumes or answers a suspended descriptor; an invalidation.
theorem test_dma_end_witness :
    let susp : Desc := { dmaRun 1 with status := 2 };
    let c : FaultRec → Dev := fun f => { back with mem := { back.mem with chans := [(1023, { desc := some susp, fault := f })], preqs := [⟨7, 1023, 0, 0x2000, 0⟩] } };
    let g : Nat → Dev := fun r => let e := engQueue 0 0 false; { e with mem := { e.mem with resid := [r] } }; stSuspFault = 2 ∧
    (((c { kind := 1 }).ch 1023).fault.kind, ((c { kind := 1 }).ch 1023).fault.detail % 16) = (1, 0) ∧ ((c { kind := 2, prg := 7 }).ch 1023).fault.prg = 7 ∧
    (c { kind := 2, prg := 7 }).mem.preqs = [⟨7, 1023, 0, 0x2000, 0⟩] ∧ back.mem.preqs = [] ∧
    (fixKind ((g 0).fwResolve 5 0x1000) = 2 ∧ fixKind ((g (resKey 0x5000000)).fwResolve 5 0x1000) = 1) ∧
    ((c { kind := 1, detail := 2 }).ch 1023).fault.detail % 16 = 2 ∧
    ((run (.dmaChannelResume 1023) (c { kind := 1 })).ch 1023).desc = some { susp with status := 1 } ∧
    (run (.pageResponseReceive 7 true) (c { kind := 2, prg := 7 })).mem.preqs = [] ∧
    ((run (.dmaDescriptorComplete 1023) (dma { dmaRun 1 with progress := 4096 })).ch 1023).desc.map (·.status) = none := by decide +kernel

/-- A job of operation `op`: physical, `n` bytes from 0x2000 to 0x3000. -/
def jobRun (op n : Nat) : Job := { op := op, ctx := 0xFFFF, src := 0x2000, srcLen := n, dst := 0x3000, dstCap := 4096, status := 1 }

/-- Slot `k` of the write-back device with state `x`; the DEFLATE stream of "a" is at 0x2000, and the line at 0x2040 carries Poison. -/
def job (k : Nat) (x : JobSlot) : Dev :=
  let d := back.pokeN 0x2000 [0x4B, 4, 0]
  ({ d with mem := { d.mem with poison := [0x2040 / 64] } }).setSlot k x

/-- A job's descriptor, of `n` bytes. -/
def jobRaw (op n : Nat) : BitVec 1024 := [(0, 1, op), (2, 2, 0xFFFF), (0x10, 8, n)].foldl (fun e x => setEnt e x.1 x.2.1 x.2.2) 0
-- EngineJobsRunAndComplete: a free slot; a job that is invalid, empty, or runs; a unit that is done, faults, and meets Poison; a job that waits for its end.
theorem test_job_witness :
    let x := jobRun 0x11 3; let d := job 0 { job := some x, kind := 1, crc := 0xFFFFFFFF }; let raw := setEnt (jobRaw 0x42 0) 2 2 5;
    let e := engQueue (slotUnit 319) raw.toNat; (back.slot 319).job = none ∧ back.unitRuns (slotUnit 319) = true ∧ back.unitRuns (slotUnit 0) = true ∧
    back.quiet = false ∧ (back.jobOf 0xFFFF (jobRaw 0x11 0)).op = 0x11 ∧ back.jobInvalid 0 (back.jobOf 0xFFFF (jobRaw 0x11 0)) = false ∧
    back.jobInvalid 319 (back.jobOf 0xFFFF (jobRaw 0x11 0)) = true ∧ (back.jobOf 0xFFFF (jobRaw 0x11 0)).srcLen = 0 ∧ (d.slot 0).job = some x ∧
    (d.slot 0).fin = false ∧ gotKind (d.jobUnit 0 (d.slot 0) x) = 0 ∧ gotKind (d.jobUnit 0 (d.slot 0) { x with src := 0x2040 }) = 3 ∧
    gotKind (d.jobUnit 0 (d.slot 0) { x with op := 0x42, aux := 0x2040 }) = 2 ∧
    (d.slotTurn 0 0 = true ∧ (d.setSlot 1 { job := some { x with cls := 1 } }).slotTurn 1 1 = false) ∧ d.instGen x.inst = x.gen ∧
    ((e false).unitRuns (slotUnit 319) = true ∧ (e false).quiet = false ∧ qLoc ((e false).q 7) = 1) ∧
    (taken (e false) (slotUnit 319) 7 = some raw.toNat ∧ taken (e false) 0 7 = none ∧ byteOf raw.toNat 0 = 0x42) ∧
    (((e true).jobOf 7 raw).ctx = 5 ∧ (e true).ctxGone 5 = true ∧ (e false).ctxGone 5 = false) ∧ gotKind (d.jobUnit 0 (d.slot 0) { x with ctx := 5 }) = 1 ∧
    gotKind (d.readVa (slotWho 319 (jobRun 0x40 512)) 0x3000 512) = 0 ∧ back.isolated (uEng 3 8) = false ∧ back.lockedOff (uEng 3 8) = false ∧
    back.pathOn (uEng 3 8) = true ∧ takes back ∧
    ((job 319 { job := some (jobRun 0x40 512) }).slot (16 * engNo (uEng 3 8) + 15)).job = some (jobRun 0x40 512) ∧ (jobRun 0x40 512).p 0x50 2 = 0 ∧
    (∀ j ∈ List.range 16, (back.slot (16 * engNo (uEng 3 8) + j)).job = none) ∧ ((job 0 { job := some x, fin := true, fst := 4 }).slot 0).outBuf = [] ∧
    ((job 0 { job := some { x with status := 2 }, fault := { kind := 1 } }).slot 0).fault.detail % 16 = 0 ∧ stSuspFault = 2 := by decide +kernel

-- R249: the stream decodes; a key slot takes its owner and keys.
theorem test_job_results :
    let d := job 0 { job := some (jobRun 0x11 3), kind := 1, crc := 0xFFFFFFFF }; (run (.deflateDecompress 0 0xFFFF 0 1) d).peek 0x3000 = 0x61 ∧
    ((run (.keySlotLoad (uEng 3 8) (255 + 4095 * 2 ^ 16)) back).eng.keys).map (fun p => (p.1, p.2.owner)) = [(256 * 3 + 255, 4095)] ∧
    (run (.keySlotLoad (uEng 3 8) 256) back).out = [⟨.response, [0, 0, 4, 3, 0xFF, 0, 0], leBytes 2 (uEng 3 8)⟩] := by decide +kernel

-- Published check values: CRC-32C (RFC 3720), AES-256 (FIPS 197, C.3), SHA-256 (FIPS 180-4, "abc"); a DEFLATE stream with a match (RFC 1951).
theorem test_crc32c : crc32c [0x31, 0x32, 0x33, 0x34, 0x35, 0x36, 0x37, 0x38, 0x39] = 0xE3069283 := by decide +kernel
theorem test_aes256 :
    leNat (aesEnc ((List.range 32).map (BitVec.ofNat 8 ·)) ((List.range 16).map fun i => BitVec.ofNat 8 (17 * i))).reverse =
      0x8ea2b7ca516745bfeafc49904b496089 := by decide +kernel
theorem test_sha256 :
    leNat (sha256 [0x61, 0x62, 0x63]).reverse = 0xba7816bf8f01cfea414140de5dae2223b00361a396177a9cb410ff61f20015ad := by decide +kernel
theorem test_inflate : (inflate [0x0B, 0xC9, 0xC8, 0xAF, 0x2A, 0x55, 0x08, 0x01, 0x91, 0x00]).blocks.map (·.2) =
    [[0x54, 0x68, 0x6F, 0x7A, 0x75, 0x20, 0x54, 0x68, 0x6F, 0x7A, 0x75]] := by decide +kernel

/-- A sealed image of machine state and one page, which is at frame 0x80000. -/
def heldImg : Image :=
  { seq := 9, plan := 3, items := [⟨5, 2, 0, 1, 65536⟩, ⟨8, 3, 1, 1, 65536⟩, ⟨12, 5, 2, 1, 65536⟩], must := [⟨1, 0x80000, 0x1000, 0, 0, false, 0⟩], manifest := true,
    sealOk := true, durable := 2 }

/-- A device in VaultState `v` that holds that image, its page not yet resident. -/
def holding (v : Nat) (r : Restore) : Dev :=
  let d := (vaulting v {}).setKennel { kn with a := { image := some heldImg, held := true } }
  { d with restore := { r with held := some 9 }, mem := { d.mem with resid := [0x80000] } }

/-- That device, without a held image. -/
def waking (r : Restore) : Dev := { vaulting 0x0A {} with restore := r }
-- RestoreAndKennelCommands, restore: WAKE with a retained machine and without; the end of the read and of the rebuild; the host's admission; a segment.
theorem test_restore_witness :
    let f := holding 0x0C { hostIo := true, readDone := true };
    let p : Dev := let d := holding 0x0C { readDone := true }; { d with aon := { d.aon with perstN := true } }; flash.vst ≠ 0x0A ∧
    (waking { fromRetain := true }).vst = 0x0A ∧ (waking {}).sup = 2 ∧ (waking {}).power.seqUp = false ∧ (waking {}).aon.lshEn = false ∧
    (waking {}).g oPackRole = 0 ∧ (waking { fromRetain := true }).restore.fromRetain = true ∧ (∀ n ∈ List.range 8, (up.chan n).st = 3 → n ∉ [0]) ∧
    (waking {}).restore.fromRetain = false ∧ (holding 0x0C {}).heldImage = some heldImg ∧ (holding 0x0C {}).restore.readDone = false ∧
    (holding 0x0B { readDone := true }).vst = 0x0B ∧ (holding 0x0B { readDone := true }).heldImage = some heldImg ∧ p.heldImage = some heldImg ∧
    p.restore.hostIo = false ∧ p.restore.readDone = true ∧ p.aon.perstN = true ∧ f.heldImage = some heldImg ∧ f.inVault = false ∧
    f.segWanted heldImg 0 = false ∧ f.segWanted heldImg 1 = true ∧ (f.segInstall 1 true).isSome = true ∧ (f.segInstall 1 false).isSome = true ∧
    (List.range heldImg.pfx).find? (fun i => f.segWanted heldImg i) = some 1 ∧
    (∀ i ∈ List.range heldImg.pfx, ({ f with mem := { f.mem with resid := [] } } : Dev).segWanted heldImg i = false) ∧ flash.restore.held = none ∧
    (run (.restoreSegmentInstalled 1 true 9) f).mem.resid = [] ∧ (run (.restoreSegmentInstalled 1 true 9) f).g oFetchMissMax = 9 ∧
    (run (.restoreReadComplete []) (holding 0x0C {})).restore.readDone = true := by decide +kernel

-- RestoreAndKennelCommands, the Kennel: volumes 4,095 and 4,096; a format that may begin, and not; blocks and LUNs; erases.
theorem test_kennel_witness :
    let fmt : Dev := flash.setKennel { kn with formatting := true };
    let er : Dev := flash.setKennel { kn with a := { erasing := true }, b := { erasing := true } };
    let sealed : Dev := flash.setKennel { kn with a := { image := some { heldImg with released := false } } };
    let last1 : Dev := flash.setKennel { kn with luns := [(31, { present := true, bad := [605, 606] })] }; takes flash ∧ (vaulting 0x0B {}).seqBusy = true ∧
    takes (vaulting 0x0B {}) ∧ flash.seqBusy = false ∧ fmt.kennel.formatting = true ∧ slotState sealed.kennel.a = 4 ∧ sealed.keyOk = true ∧
    slotState kn.a ≤ 2 ∧ slotState kn.b ≤ 2 ∧ flash.restore.held = none ∧ fmt.inVault = false ∧ fmt.sup = 2 ∧ fmt.vst ≠ 0x0A ∧ 255 ∉ flash.kennel.map ∧
    31 ∈ flash.kennel.map ∧ 604 < flash.kennel.reserveBase ∧ (flash.reserveFree 31).isSome = true ∧
    (flash.inVault = false ∧ flash.reserveFree 31 = some 605 ∧ (flash.lunOf 31).remap = [] ∧ flash.kennel.reserveBlocks = 3) ∧
    (last1.reserveFree 31 = some 607 ∧ (last1.lunOf 31).bad = [605, 606] ∧ 31 ∈ last1.kennel.map) ∧
    (er.kennel.formatting = false ∧ (fmt.kennel.formatting = true)) ∧ (vaulting 2 {}).inVault = true ∧ (flash.slotK 1).erasing = false ∧
    (er.slotK 1).erasing = true ∧ flash.energy.drill.due = false ∧ bit (flash.g oWriteThroughCause) 2 ≠ flash.vaultTarget.isNone ∧
    bit ((flash.s oWriteThroughCause 2).g oWriteThroughCause) 2 = (flash.s oWriteThroughCause 2).vaultTarget.isNone := by decide +kernel

-- R114, R127, R128: a remap to the reserve; a dead LUN leaves the map.
theorem test_kennel_results :
    ((run (.flashBlockFail 31 604 false) flash).lunOf 31).remap = [(604, 605)] ∧
    ((run (.flashBlockFail 31 604 false) (flash.setKennel { kn with luns := [(31, { present := true, bad := [605, 606] })] })).kennel.map.contains 31) = false ∧
    ((run (.flashBlockFail 31 604 true) flash).kennel.map.contains 31) = false ∧
    ((run (.slotEraseComplete 1) (flash.setKennel { kn with b := { erasing := true } })).slotK 1).erasing = false ∧
    (run (.lostRangeRelease 4096) flash).out = [⟨.response, [0, 0, 4, 3, 0xFF, 0, 0], leBytes 2 uChip⟩] := by decide +kernel

-- Chapter 5's worked example: 256 LUNs of 96 blocks; segment 1,000,000 of an image in slot A.
theorem test_kennel_example :
    let luns : List LunInfo := (List.range 256).map fun n => ⟨n, 16384, 4, 256, 96, 1984, 330, 3600, 10, []⟩;
    let k := (run (.kennelFormatComplete luns) (up.setKennel { formatting := true })).kennel; let d := up.setKennel k;
    let m : Image := { seq := 5, plan := 1593214, restripe := [⟨0, 0, List.range 256⟩] };
    [k.slotBlocks, k.progress, k.scratchBase, k.scratchBlocks, k.logBase, k.logBlocks, k.reserveBase, k.reserveBlocks] = [44, 2, 90, 2, 92, 1, 93, 3] ∧
    d.slotRows = 10752 ∧ d.slotBase 1 = 46 ∧ m.place 1000000 = some (64, 3906) ∧ d.segAddr m 0 1000000 = some 0x4000001300420000 := by decide +kernel

/-- A device that is UP with port `n` as `p`. -/
def ported (n : Nat) (p : Port) : Dev := { back with ports := { back.ports with ports := [(n, p)] } }

/-- Volume 0 with its member MISSING, and as a mirror of two. -/
def volMissing : BitVec 16384 := setEnt vol0 0x41 1 1
def volMirror : BitVec 16384 := [(2, 1, 2), (3, 1, 2), (0x51, 1, 1), (0x50, 1, 1), (0x54, 4, 1)].foldl (fun e x => setEnt e x.1 x.2.1 x.2.2) vol0
def volBoth : BitVec 16384 := setEnt volMirror 0x41 1 1

/-- That device with a volume of one member of port 0. -/
def mirrored (e : BitVec 16384) : Dev := let d := ported 0 drive; { d with cache := { d.cache with volumes := [(0, e)] } }
-- DownstreamPortsFollowTheirRules: port 60, the last of x4 groups; each PortState; a drive below, at and above what the port offers.
theorem test_port_witness :
    let t : Dev := ported 60 { state := 1, present := true }; let u : Dev := ported 60 { state := 1, present := true, speed := 5, width := 4 };
    let b : Dev := ported 60 { drive with again := true }; let r : Dev := ported 60 { drive with state := 5, removing := 1, offAfter := some 9 };
    let m : Dev := { (back.s oPackRole 1) with pack := { back.pack with slotReqs := [] } }; (back.port 60).present = false ∧ back.present (uPort 60) = true ∧
    back.present (uPort 63) = false ∧ back.vst < 2 ∧ back.pathOn (uPort 60) = true ∧ back.portSlot 60 = 0xFFFF ∧
    ((vaulting 6 {}).vst = 6 ∧ 2 ≤ (vaulting 2 {}).vst) ∧ ((ported 60 drive).port 60).present = true ∧ ((ported 60 drive).port 60).state = 2 ∧
    (((ported 60 { drive with state := 1, again := true }).port 60).again = true ∧ (t.port 60).again = false) ∧ (t.port 60).state = 1 ∧
    (t.port 60).speed = 0 ∧ t.pathOn (uPort 60) = true ∧ (u.port 60).speed ≠ 0 ∧ min (t.maxSpeed 60) 5 = 5 ∧ t.groupWidth 60 = 4 ∧ (b.port 60).again = true ∧
    (r.port 60).removing = 1 ∧ r.inVault = false ∧ takes t ∧ takes back ∧
    ((mirrored volMissing).membersOn 0).filter (fun m => xState ((mirrored volMissing).vol m.1) m.2 = 1) = [(0, 0)] ∧
    (mirrored volMissing).extentOk 0 0 = true ∧ vLayout ((mirrored volMissing).vol 0) = 1 ∧
    ((mirrored volBoth).membersOn 0).filter (fun m => xState ((mirrored volBoth).vol m.1) m.2 = 1) = [(0, 0)] ∧ (mirrored volBoth).extentOk 0 0 = true ∧
    vLayout ((mirrored volBoth).vol 0) ≠ 1 ∧ (mirrored vol0).wouldFail 0 = true ∧ (ported 60 drive).wouldFail 60 = false ∧
    ({ (mirrored volBoth) with ports := { (mirrored volBoth).ports with rebuilds := [⟨0, 0, 0⟩] } } : Dev).memberBound 0 0 = true ∧ m.g oPackRole = 1 ∧
    back.g oPackRole ≠ 1 ∧ takes m := by decide +kernel

-- R282, R284, R290: the link that falls short; the surprise removal; the slot that is to be switched off.
theorem test_port_results :
    let t : Dev := ported 60 { state := 1, present := true }; (run (.portLinkUp 60 5 4 5 4) t).faults.live.testBit 460 = false ∧
    ((run (.portLinkUp 60 5 2 5 4) t).capture 460).latched = true ∧ ((run (.portLinkUp 60 4 4 4 4) t).capture 460).latched = false ∧
    ((run (.portTrainTimeout 60) t).capture 396).latched = true ∧ ((run (.driveLost 60) (ported 60 drive)).port 60).state = 4 ∧
    (run (.rebuild 0) (mirrored volMissing)).cache.volumes.map (fun p => xState p.2 0) = [0] ∧
    (run (.prepareRemove 0) (mirrored vol0)).out = [⟨.response, [0, 0, 4, 4, 0xFF, 0, 0], leBytes 2 uDown⟩] ∧
    ((run (.prepareRemoveForce 0) (mirrored vol0)).port 0).state = 5 := by decide +kernel

/-- A request of channel 0, subchannel 1: rank 0, bank 5, row 9. -/
def rq : DramReq := { id := 3, write := false, rank := 0, bank := 5, row := 9, col := 2, line := 0, tag := 0, port := 0, at_ := 0 }

/-- A device that is UP with subchannel 1 as `x`. -/
def sub (x : SubChan) : Dev := { up with dram := { up.dram with subs := [(1, x)] } }

/-- A device that is UP with channel 0 as `c`. -/
def chan (c : Chan) : Dev := { up with dram := { up.dram with chans := (0, c) :: up.dram.chans.drop 1 } }

/-- Channel 0 as it is in `up`. -/
def ch0 : Chan := up.chan 0
-- DramChannelsFollowTheirRules, command opportunities: a stopped subchannel, a full retry buffer, each kind of command.
theorem test_dram_command_witness :
    let x : SubChan := { reads := [rq] }; let row : Nat → SubChan := fun r => { reads := [rq], banks := [(5, { openRow := some r })] };
    ((up.chan 0).st = 2 ∧ up.domSt (uChan 0) ≠ 1) ∧ (up.subch 1).stopped = false ∧ ((sub { stopped := true }).subch 1).stopped = true ∧
    ((up.chan 1).st ≠ 2 ∧ (up.chan 1).st ≠ 4) ∧ 64 ≤ ((List.replicate 65 ({ req := rq } : Retry)).drop 1).length ∧
    ((List.replicate 64 ({ req := rq } : Retry)).drop 1).length < 64 ∧ ((up.subch 1).bank 5).openRow = none ∧ 0 * 32 + 5 ∉ [6] ∧ up.dramPick 1 [] = none ∧
    (sub x).dramPick 1 [] = some rq ∧ (sub x).dramPick 1 [5] = none ∧ rq.key = 5 ∧ ((sub x).subch 1).free rq = true ∧
    (((sub x).subch 1).bank 5).openRow = none ∧ (((sub (row 8)).subch 1).bank 5).openRow = some 8 ∧ (((sub (row 9)).subch 1).bank 5).openRow = some 9 ∧
    (sub (row 8)).dramPick 1 [] = some rq ∧ (sub (row 9)).dramPick 1 [] = some rq := by decide +kernel

-- R304, R308: an activate, a precharge, a read; a neighbour refresh that is due goes first.
theorem test_dram_command_results :
    let row : Nat → SubChan := fun r => { reads := [rq], banks := [(5, { openRow := some r })] };
    (run (.dramCommandIssue 1 [] 0 none 0) (sub { reads := [rq] })).out = [⟨.dram, [0, 1, 0, 5, 9, 0], []⟩] ∧
    (run (.dramCommandIssue 1 [] 0 none 0) (sub (row 8))).out = [⟨.dram, [0, 1, 5, 5, 0, 0], []⟩] ∧
    ((run (.dramCommandIssue 1 [] 0 none 0) (sub (row 9))).subch 1).reads = [] ∧
    ⟨.dram, [0, 1, 12, 5, 9, 2], []⟩ ∈ (run (.dramCommandIssue 1 [] 0 none 1) (sub (row 9))).out ∧
    ((run (.dramCommandIssue 1 [] 0 none 2) (sub (row 9))).capture 464).latched = true ∧
    (run (.dramCommandIssue 1 [] 0 none 0) (sub { reads := [rq], due := [⟨0, 5, 8⟩] })).out = [⟨.dram, [0, 1, 8, 5, 8, 0], []⟩] := by decide +kernel

-- Alerts, temperatures, self-refresh, retraining, quarantine and rescue: each ChannelState, and each count at its limit.
theorem test_dram_channel_witness :
    let sr : Dev := (chan { ch0 with st := 3, srSince := some 0 }).setDom (uChan 0) { st := 3 };
    let one : Dev := { up with dram := { up.dram with chans := up.dram.chans.drop 1 } }; let q : Dev := chan { ch0 with st := 4 };
    let hot : Dev := chan { ch0 with retrain := true }; up.serving 0 = true ∧ up.serving 1 = false ∧ ch0.st ≠ 3 ∧
    ((up.g oRetrainDrift : Int) * 10 ≤ 80 - ch0.trainTemp) ∧ ((chan { ch0 with srTemp := some 80 }).chan 0).srTemp = some 80 ∧
    (∀ c ∈ ((sub { retry := [{ req := rq, replays := 2 }] }).subch 1).retry, c.replays < 3) ∧
    (∃ c ∈ ((sub { retry := [{ req := rq, replays := 3 }] }).subch 1).retry, 3 ≤ c.replays) ∧ ((sr.chan 0).st = 3 ∧ sr.domSt (uChan 0) = 3) ∧
    (sr.chan 0).srSince = some 0 ∧ sr.now < 0 + 32000 ∧ 0 + 32000 ≤ ({ sr with aon := { sr.aon with tick := 32000 } } : Dev).now ∧
    (hot.chan 0).retrain = true ∧ ((hot.chan 0).st = 2 ∧ hot.inVault = false ∧ hot.domSt (uChan 0) = 0) ∧
    (ch0.retrain = false ∧ up.now < ch0.trained + up.g oRetrainInterval * 1000000) ∧ takes up ∧ one.chansIn = [4] ∧ takes one ∧ up.chansIn ≠ [0] ∧
    ch0.populated = true ∧ (ch0.st ≠ 0 ∧ ch0.st ≠ 4 ∧ ch0.st ≠ 5) ∧ (up.chan 1).st = 0 ∧ ((q.chan 0).st = 4 ∧ q.inVault = false) ∧
    ((q.versIn 0).filter fun v => frameChan v.frame = 0 ∧ v.copy.isNone).length ≤ (q.chansIn.map q.poolFree).sum := by decide +kernel

-- R307, R310, R312: the fourth replay stops the subchannel; a row count is forgotten after 32 ms; a quarantine and its end.
theorem test_dram_channel_results :
    let sr : Dev := (chan { ch0 with st := 3, srSince := some 0 }).setDom (uChan 0) { st := 3 };
    ((run (.dramAlert 1 0) (sub { retry := [{ req := rq, replays := 3 }] })).capture 472).latched = true ∧
    ((run (.dramAlert 1 0) (sub { retry := [{ req := rq, replays := 2 }] })).subch 1).retry.map (·.replays) = [3] ∧
    ((run (.selfRefreshExit 0) sr).chan 0).st = 2 ∧ ((run (.channelQuarantine 0) up).chan 0).st = 4 ∧
    ((run (.channelQuarantine 0) (cached [{ ver with copy := some 0x40000000 }, { ver with blk := 6, frame := 1, st := 1 }] [])).cache.versions.map fun v => (v.blk, v.copy)) = [(5, none)] ∧
    ((run (.quarantineRescueComplete 0 [] []) (chan { ch0 with st := 4 })).chan 0).st = 5 ∧
    ((run (.retrainDue 0 1 77) (chan { ch0 with retrain := true })).capture 480).latched = true := by decide +kernel

-- R303 and R297: chapter 13's worked examples, where the address goes on eight channels of two ranks of x8 16 Gb devices, and how many frames they give.
theorem test_dram_example :
    let c : Chan := { populated := true, ranks := 2, width := 8, gbit := 16, cap := 32768, st := 2 };
    let e : Dev := { up with dram := { chans := (List.range 8).map fun n => (n, c) } }; chanOf 0x0B2468ACC0 = 1 ∧
    e.dramPlace 0x0B2468ACC0 = (0, 0, 2 * 4 + 1, 0x648D, 656) ∧ e.framesC 1 = 7864320 ∧ (e.chansIn.map e.framesC).sum = 62914560 := by decide +kernel

/-- A device that is UP with the domain of `u` as `x`, and the inrush queue `l`. -/
def dom (u : Nat) (x : Domain) (l : List InrushReq := []) : Dev := let d := up.setDom u x; { d with doms := { d.doms with queue := l } }

/-- A stalled access of tag 6, which arrived at tick 0. -/
def stalled : Stall := { tag := 6, at_ := 0, acc := 1, addr := 0, data := 0 }

/-- Core /0/0/0 and the slice, the host interface and channel 0 stand for the kinds of domain. -/
def uc : Nat := uCore 0 0 0

/-- The domain of the core of `d` locked off. -/
def lockedCore : Dev := (dom uc { st := 2 }).su uc oDomainLock 1

/-- The refuser of a query, and the units it stopped. -/
def asked : Query → Option Nat × List Nat
  | .stopped l _ => (none, l)
  | .refused r l _ => (some r, l)
-- PowerDomainsFollowTheirRules, requests at one unit: a locked one, one that is ON, in RET and OFF; a kind without the state; a refuser; a mute unit.
theorem test_domain_request_witness :
    let i : Dev := (dom (uPort 0) {}).setPort 0 { state := 2, present := true }; takes up ∧
    (up.present uc = true ∧ isGroup uc = false ∧ hasDomain uc = true ∧ uc < 65536) ∧ lockedCore.lockedOff uc = true ∧ takes lockedCore ∧
    (up.lockedOff uc = false ∧ up.parentsOn uc = true ∧ up.domSt uc = 0) ∧
    ((dom uc { st := 1 }).domSt uc = 1 ∧ (dom uc { st := 1 }).parentsOn uc = true ∧ (dom uc { st := 1 }).doms.queue = []) ∧
    ((dom uc { st := 2 }).domSt uc = 2 ∧ takes (dom uc { st := 2 })) ∧ 1 ∉ domainStates (uPort 0) ∧ (1 ∈ domainStates uc ∧ 2 ∈ domainStates uc) ∧
    (up.refusesEntry uc 1 = false ∧ uc ∉ []) ∧ (uc ∈ [uc] ∧ up.present uc = true) ∧ ((i.ports.ports.map (·.1)) = [0] ∧ i.refusesEntry (uPort 0) 2 = true) ∧
    ((dom uc { st := 2 }).dom uc).stalled = [] ∧ ((dom uc { st := 2, stalled := [stalled] }).dom uc).stalled ≠ [] ∧
    (lockedCore.gu uc oDomainLock = 1 ∧ (lockedCore.dom uc).stalled = [] ∧ up.gu uc oDomainLock ≠ 1) ∧ 2 ∉ domainStates (uChan 0) ∧ up.domSt (uChan 0) = 0 ∧
    (dom (uPort 0) { st := 2 }).domSt (uPort 0) ≠ 0 := by decide +kernel

-- R345, R347, R349: an ON request queues; an OFF request begins an entry; a mute unit refuses and is the LastRefuser; a lock answers what waits there with 3.
theorem test_domain_request_results :
    ((run (.domainRequestOn uc) (dom uc { st := 2 })).doms.queue.map fun r => (r.unit, r.cls)) = [(uc, 3)] ∧
    (run (.domainRequestOff uc []) up).domSt uc = 4 ∧ (run (.domainRequestOff uc [uc]) up).domSt uc = 0 ∧
    (run (.domainRequestOff uc [uc]) up).gu uc oLastRefuser = uc ∧ (run (.domainRequestOn uc) lockedCore).doms.queue = [] ∧
    (run (.domainLock uc []) (dom uc { st := 2, stalled := [stalled] })).out.take 1 = [⟨.bus, [uc, 3, 14], []⟩] := by decide +kernel

-- A group that goes whole, and one that a mute unit refuses.
theorem test_domain_group_witness :
    ((asked (up.queryEntry 2 [] (downOrder (uQuad 3)) [])).1 = none ∧ uCore 3 0 0 ∈ (asked (up.queryEntry 2 [] (downOrder (uQuad 3)) [])).2) ∧
    ((asked (up.queryEntry 2 [uL2 0 0] (downOrder (uQuad 0)) [])).1 = some (uL2 0 0) ∧ uc ∈ (asked (up.queryEntry 2 [uL2 0 0] (downOrder (uQuad 0)) [])).2) := by decide +kernel

-- Entries and wakes that complete, and those that do not; the bucket at, above and below a wake's charge.
theorem test_domain_entry_witness :
    let h : Dev := dom uc { st := 2 } [⟨uc, 3, 0⟩]; let low : Dev := { h with doms := { h.doms with level := 0 } };
    let w : Dev := { h with aon := { h.aon with tick := 5 }, doms := { h.doms with levelTick := 5 } }; up.domSt uc ≠ 4 ∧
    ((dom uc { st := 4, entry := some 1 }).kidsSettled uc = true ∧ ((dom uc { st := 4, entry := some 1 }).dom uc).later = none) ∧
    ((dom uc { st := 4, entry := some 1 }).domSt uc = 4 ∧ ((dom uc { st := 4, entry := some 1 }).dom uc).entry = some 1) ∧
    ((dom (uEng 0 4) { st := 4, entry := some 2 }).kidsSettled (uEng 0 4) = true ∧ kindOf (uEng 0 4) = 5) ∧ kindOf (uChan 0) = 0x11 ∧
    ((dom (uL2 0 0) { st := 3 }).domSt (uL2 0 0) = 3 ∧ kindOf (uL2 0 0) = 4) ∧
    ((dom (uL2 0 0) { st := 3, arr := some 0, stalled := [stalled] }).dom (uL2 0 0)).arr = some 0 ∧ up.doms.queue = [] ∧
    (headWake h.doms.queue = some ⟨uc, 3, 0⟩ ∧ h.vst < 2 ∧ h.lockedOff uc = false ∧ h.domSt uc = 2 ∧ h.parentsOn uc = true) ∧
    h.wakeCharge uc ≤ h.refill.doms.level ∧ low.refill.doms.level < low.wakeCharge uc ∧ 0 < w.now := by decide +kernel

-- R344, R347, R351: the state entered; the wake begun; an access that waited is served when the domain is ON.
theorem test_domain_entry_results :
    let h : Dev := dom uc { st := 2 } [⟨uc, 3, 0⟩]; (run (.domainEntryComplete uc) (dom uc { st := 4, entry := some 1 })).domSt uc = 1 ∧
    (run .inrushGrant h).domSt uc = 3 ∧ (run .inrushGrant h).doms.queue = [] ∧
    (run (.domainReady (uL2 0 0)) (dom (uL2 0 0) { st := 3, arr := some 0, stalled := [stalled] })).domSt (uL2 0 0) = 0 ∧
    (run (.domainReady (uL2 0 0)) (dom (uL2 0 0) { st := 3, arr := some 0, stalled := [stalled] })).out = [⟨.bus, [uL2 0 0, 0, 6], []⟩] := by decide +kernel

-- A transaction: at a memory unit outside the address map; at an absent, an isolated, a locked, an ON and a sleeping unit, in and out of a vault.
theorem test_transaction_witness :
    let q : Dev := up.su uc oUnitQuarantine 1; let v : Dev := (vaulting 5 {}).setDom uc { st := 2 };
    let z : Dev := let e := (vaulting 7 {}).setDom uc { st := 2 }; { e with faults := { e.faults with s3 := some 9 } };
    (up.faults.armed = [] ∧ (6 : Nat) / 2 ^ 40 % 4 ≠ 3 ∧ Nat.testBit 6 0 = false) ∧
    (kindOf uMem = 0x10 ∧ up.present uMem = true ∧ up.isolated uMem = false ∧ up.paOk (2 ^ 47) = false) ∧ (kindOf uc ≠ 0x10 ∧ kindOf uc ≠ 0x11) ∧
    up.present (uPort 63) = false ∧ (up.unitGone ((6 : Nat) / 2 ^ 16 % 2 ^ 16) = false ∧ up.unitGone ((6 + 2 ^ 16 * uPort 63) / 2 ^ 16 % 2 ^ 16) = true) ∧
    (z.halted = true ∧ z.pathOn uc = false ∧ z.present uc = true ∧ z.isolated uc = false ∧ z.lockedOff uc = false ∧ 6 < z.vst ∧ z.faults.armed = []) ∧
    (q.present uc = true ∧ q.isolated uc = true ∧ q.faults.armed = []) ∧
    (lockedCore.present uc = true ∧ lockedCore.isolated uc = false ∧ lockedCore.halted = false ∧ lockedCore.lockedOff uc = true) ∧
    (up.pathOn uc = true ∧ up.isolated uc = false ∧ up.halted = false) ∧
    (v.pathOn uc = false ∧ v.vst = 5 ∧ v.present uc = true ∧ v.isolated uc = false ∧ v.halted = false ∧ v.lockedOff uc = false) ∧
    ((dom uc { st := 2 }).pathOn uc = false ∧ (dom uc { st := 2 }).parentsOn uc = true ∧ ((dom uc { st := 2 }).dom uc).later = none) := by decide +kernel

-- R348, R349, R90: served; stalled with a demand wake; refused with 3 where locked, with 2 in a vault, with 4 outside the address map.
theorem test_transaction_results :
    let v : Dev := (vaulting 5 {}).setDom uc { st := 2 }; let t : Nat → Dev → Dev := fun u d => run (.transactionArrival u 6 1 0 0) d;
    (t uc up).out = [⟨.bus, [uc, 0, 6], []⟩] ∧ ((t uc (dom uc { st := 2 })).doms.queue.map fun r => (r.unit, r.cls)) = [(uc, 2)] ∧
    (t uc (dom uc { st := 2 })).gu uc oDemandWakes = 1 ∧ (t uc lockedCore).out = [⟨.bus, [uc, 3, 14], []⟩] ∧ (t uc v).out = [⟨.bus, [uc, 2, 6], []⟩] ∧
    ((run (.transactionArrival uMem 6 1 (2 ^ 47) 0) up).capture 9).latched = true := by decide +kernel

-- The supervisor's own RET: the conditions of R355, and a device in RET.
theorem test_supervisor_ret_witness :
    let r : Dev := let d := dev0.setDom uSup { st := 1 }; { d with doms := { d.doms with supRet := true } };
    let o : Dev := { r with doms := { r.doms with sclHold := some 0 } };
    let m : Dev := let d := dev0.s oSupervisorIdle 1; { d with aon := { d.aon with tick := 5000 } }; (dev0.domSt uSup = 0 ∧ m.supMayRet = true) ∧
    up.supMayRet = false ∧ up.doms.supRet = false ∧ (r.doms.supRet = true ∧ r.domSt uSup = 1) ∧ r.doms.sclHold = none ∧ o.doms.sclHold ≠ none ∧
    (run .supervisorIdleExpire m).domSt uSup = 1 ∧ (run (.addressMatchWake true (BitVec.ofNat 7 (r.ge oI3cStaticAddress))) r).domSt uSup = 3 ∧
    (run (.addressMatchWake false (BitVec.ofNat 7 (r.ge oSmbusAddress))) r).doms.sclHold = some 0 ∧ (run .supervisorWakeEvent r).domSt uSup = 3 ∧
    (run .stretchOverrun o).g oStretchOverruns = 1 := by decide +kernel

/-- A device on the Leash: the master of a roster of itself (0), Thozu 1 and slot controller 9. -/
def boss : Dev :=
  let d := ((((up.s oPackRole 1).s oRoster 0x203).s oMasterAddress 0).s oOpVersion 1)
  let n : Nat → Nat → Node := fun k v => { seen := true, maxVersion := v, kind := k, pused := 50000, bused := 100, tneed := 1000000, eretain := 1000 }
  { d with aon := { d.aon with lshEn := true }, pack := { d.pack with nodes := [(0, n 1 2), (1, n 1 2), (9, n 2 1)] } }

/-- That master with node `n` as `x`. -/
def nodeAs (n : Nat) (x : Node) : Dev := boss.setNode n x

/-- A member at address 2 of the master at address 0. -/
def pup : Dev :=
  let d := (((up.s oPackRole 2).s oRoster 0x205).s oMasterAddress 0).s oPackAddress 2
  { d with aon := { d.aon with lshEn := true } }

/-- A frame of version 1, type `t`, to `dst`, from `src`, with Seq 7. -/
def fr (t dst src : Nat) (p : List Byte) : List Byte := frameBytes 1 t dst src 7 p

/-- A GRANT of BudgetSeq `q`: wave 1, 5,000 mJ, 300 ms, 40 blocks a millisecond and 60,000 mW. -/
def grantOf (q : Nat) : List Byte := fr 4 2 0 (grantBytes q [1, 0, 5000, 300, 40, 60000])

/-- A STATUS payload of kind `k`. -/
def statusOf (k : Nat) : List Byte := leBytes 1 2 ++ leBytes 1 k ++ List.replicate 30 0

/-- A slot request, and a forwarded message. -/
def slot : SlotReq := { slot := 16, action := 1, demand := false }
def fwd : Forward := { msgId := 4, node := 1, transport := 2, eid := 9, mtag := 0, req := List.replicate 24 0, sent := 24, lastTick := some 0 }

/-- That master with slot requests and forwarded messages. -/
def laden (l : List SlotReq) (x : List Forward) : Dev := boss.setPack { boss.pack with slotReqs := l, fwd := x, token := 3 }
-- PackAndLeashFollowTheirRules: LSH_EN low; a frame that is right, and one of each fault: CRC, version, address, length.
theorem test_frame_witness :
    let f := fr 2 2 0 []; (f.length ≤ 263 ∧ (fr 2 2 0 (List.replicate 65 0)).length = 73 ∧ pup.frameOk 2 (fr 2 2 0 (List.replicate 65 0)) false = false) ∧
    up.aon.lshEn = false ∧ pup.frameOk 2 f false = true ∧ pup.frameOk 2 (fr 2 3 0 []) false = false ∧ pup.frameOk 2 (fr 2 2 0 [0]) false = false ∧
    pup.frameOk 2 (frameBytes 0xFF 2 2 0 7 []) false = false ∧ pup.frameOk 2 (f.take 7 ++ [0]) false = false ∧
    pup.frameOk 1 (fr 1 0xFF 0 (List.replicate 32 0)) true = true := by decide +kernel

-- A master's cycle, a node that misses its first and its third poll, and one outside the roster.
theorem test_master_witness :
    let m : Nat → Dev := fun k => nodeAs 1 { (boss.node 1) with polled := some 7, missed := k }; boss.isMaster = true ∧ pup.isMaster = false ∧
    (bit (boss.g oRoster) 9 = true ∧ 9 ≠ boss.own) ∧ (boss.node 1).polled = none ∧
    ((m 0).isMaster = true ∧ ((m 0).node 1).polled ≠ none ∧ ((m 0).node 1).missed < 2) ∧
    ((m 2).isMaster = true ∧ bit ((m 2).g oRoster) 1 = true ∧ 2 ≤ ((m 2).node 1).missed) ∧ bit (boss.g oRoster) 15 = false := by decide +kernel

-- R160, R176: a third miss takes the node out of the roster and reserves its last grant.
theorem test_master_results :
    let m : Nat → Dev := fun k => nodeAs 1 { (boss.node 1) with polled := some 7, missed := k }; (run (.pollMissed 1) (m 1)).g oRoster = 0x203 ∧
    (run (.pollMissed 1) (m 2)).g oRoster = 0x201 ∧ ((run (.pollMissed 1) (m 2)).pack.absents.map (·.node)) = [1] ∧
    (run (.poll (fr 2 2 0 (List.replicate 65 0))) pup).g oLeashErrors = 1 := by decide +kernel

-- BEACON of a lower, a higher and an unlisted address; STATUS expected, unexpected and of the wrong kind; GRANT newer, older and first; RESET.
theorem test_member_witness :
    let b : Nat → List Byte := fun src => fr 1 0xFF src (List.replicate 32 0); let p : Dev := nodeAs 1 { (boss.node 1) with polled := some 7 };
    let g : Dev := (pup.s oGrantSeq 5).setPack { pup.pack with hasGrant := true };
    (pup.aon.lshEn = true ∧ pup.frameOk 1 (b 0) true = true ∧ frameAtByte (b 0) 3 = 0 ∧ 0 ≠ pup.own) ∧
    (boss.frameOk 1 (b 1) true = true ∧ boss.own < frameAtByte (b 1) 3) ∧ 7 < frameAtByte (b 8) 3 ∧
    (pup.frameOk 2 (fr 2 2 0 []) false = true ∧ pup.supAway = false) ∧
    (p.frameOk 3 (fr 3 0 1 (statusOf 1)) false = true ∧ frameAtByte (fr 3 0 1 (statusOf 1)) 4 = 7 ∧ (p.node 1).polled = some 7) ∧
    framePay (fr 3 0 1 (statusOf 2)) 1 1 = 2 ∧ (boss.node 1).polled ≠ some 7 ∧
    (pup.frameOk 4 (grantOf 6) false = true ∧ pup.pack.hasGrant = false ∧ pup.g oMasterAddress = 0) ∧
    (g.frameOk 4 (grantOf 6) false = true ∧ (6 + 65536 - g.g oGrantSeq) % 65536 = 1) ∧
    (g.frameOk 4 (grantOf 5) false = true ∧ ¬ (0 < (5 + 65536 - g.g oGrantSeq) % 65536)) ∧
    (g.frameOk 4 (fr 4 2 1 (grantBytes 6 [1])) false = true ∧ frameAtByte (fr 4 2 1 (grantBytes 6 [1])) 3 = 1) ∧
    (pup.frameOk 7 (fr 7 2 0 [1, 0, 0, 0]) false = true ∧ framePay (fr 7 2 0 [1, 0, 0, 0]) 0 1 = 1) ∧
    (pup.frameOk 7 (fr 7 2 0 [2, 0, 0, 0]) false = true ∧ framePay (fr 7 2 0 [2, 0, 0, 0]) 0 1 ≠ 1) := by decide +kernel

-- R162, R164, R170: the fields of a GRANT, a STATUS that answers, a second master that yields, an expired grant.
theorem test_member_results :
    let g : Dev := (pup.s oGrantSeq 5).setPack { pup.pack with hasGrant := true }; let e : Dev := run (.grant (grantOf 6)) g;
    let y : Dev := run (.beacon (fr 1 0xFF 0 (List.replicate 32 0))) { (boss.s oPackAddress 1) with pack := {} };
    [e.g oGrantSeq, e.g oGrantEnergy, e.g oGrantOffset, e.g oGrantCap, e.g oGrantPower, e.pack.grantWave] = [6, 5000, 300, 40, 60000, 1] ∧
    (run (.grant (grantOf 5)) g).g oGrantEnergy = 0 ∧ [y.g oPackRole, y.g oMasterAddress] = [2, 0] ∧
    ((run .grantExpire e).g oGrantEnergy = 0 ∧ (run .grantExpire e).pack.hasGrant = false) ∧
    ((run (.poll (fr 2 2 0 [])) pup).out.map fun o => (o.args, o.data.length)) = [([3, 0, 7], 40)] := by decide +kernel

-- SLOT_ACK, SLOT_CMD and the slot bucket: an answer that settles a request, and one of no request; a charge the bucket holds, and one it does not.
theorem test_slot_witness :
    let s := laden [{ slot with token := 3, sends := 1 }] []; let o := laden [slot] []; let z : Dev := (o.s oSlotBucketCapacity 0).sb oSlotInrush 16 5;
    let ack : Nat → List Byte := fun r => fr 6 0 9 (leBytes 1 0 ++ leBytes 1 r ++ leBytes 2 3);
    (s.frameOk 6 (ack 0) false = true ∧ s.isMaster = true ∧ 8 ≤ frameAtByte (ack 0) 3 ∧ framePay (ack 0) 0 1 < 16) ∧
    (s.pack.slotReqs.find? fun r => r.sends ≠ 0 ∧ r.slot = 16 * (9 - 8) + framePay (ack 0) 0 1 ∧ r.token = framePay (ack 0) 2 2) = some { slot with token := 3, sends := 1 } ∧
    (framePay (ack 0) 1 1 = 0 ∧ framePay (ack 1) 1 1 = 1 ∧ framePay (ack 2) 1 1 = 2) ∧ boss.slotNext = none ∧ o.slotNext = some slot ∧
    o.slotDrawn + o.gb oSlotInrush 16 * 1000 ≤ o.g oSlotBucketCapacity * 1000 ∧
    (z.slotNext = some slot ∧ z.g oSlotBucketCapacity * 1000 < z.slotDrawn + z.gb oSlotInrush 16 * 1000) ∧
    bit ((run (.slotAck (ack 0)) s).node 9).slotOn 0 = true ∧ bit ((run (.slotAck (ack 2)) s).node 9).slotFault 0 = true ∧
    ((run .slotCmdSend o).out.map fun x => (x.args.take 2, x.data.take 10)) = [([5, 9], [1, 5, 9, 0, 0, 4, 0, 1, 4, 0])] ∧ (run .slotCmdSend z).out = [] := by decide +kernel

-- DICT_REQ at a member: a fragment, a pull with more than 62 bytes left; DICT_RSP at the master: a fragment, the Last one, one of another message; the timeout.
theorem test_forward_witness :
    let r : Dev := pup.setPack { pup.pack with memMsg := some 4, memRsp := some (List.replicate 63 5) }; let m := laden [] [fwd];
    let rsp : Nat → List Byte := fun n => fr 9 0 1 (leBytes 1 4 ++ leBytes 1 n ++ [0xAA]);
    (pup.frameOk 8 (fr 8 2 0 [4, 0, 0x11]) false = true ∧ pup.supAway = false ∧ pup.isMaster = false) ∧
    ((((fr 8 2 0 [4, 0, 0x11]).drop 6).take (frameAtByte (fr 8 2 0 [4, 0, 0x11]) 5)).drop 2 = [0x11] ∧ framePay (fr 8 2 0 [4, 0, 0x11]) 1 1 = 0) ∧
    (r.frameOk 8 (fr 8 2 0 [4, 0]) false = true ∧ (((fr 8 2 0 [4, 0]).drop 6).take (frameAtByte (fr 8 2 0 [4, 0]) 5)).drop 2 = []) ∧
    (r.pack.memMsg = some 4 ∧ (r.pack.memRsp.getD []).length = 63) ∧
    (m.frameOk 9 (rsp 0) false = true ∧ m.isMaster = true ∧ fwd.node = frameAtByte (rsp 0) 3 ∧ fwd.msgId = framePay (rsp 0) 0 1) ∧
    (bit (framePay (rsp 0) 1 1) 7 = false ∧ bit (framePay (rsp 128) 1 1) 7 = true ∧ fwd.rspFrag % 128 = framePay (rsp 128) 1 1 % 128) ∧ boss.pack.fwd = [] ∧
    (run (.dictReq (fr 8 2 0 [4, 0])) r).pack.memRsp = some [5] ∧ ((run (.dictRsp (rsp 128)) m).out.map fun x => (x.kind, x.data)) = [(.response, [0xAA])] ∧
    ((run (.forwardTimeout 4) m).out.map fun x => listGet 0 x.args 3) = [0x0C] ∧ (run (.forwardTimeout 5) m).out = [] := by decide +kernel

-- Takeover, grants, the budget with a node not yet heard and with every node heard, absent Thozus, waves, PackResetMember.
theorem test_budget_witness :
    let u : Dev := nodeAs 1 {}; let h : Dev := boss.setPack { boss.pack with absents := [⟨3, 1000, 0⟩] };
    let w : Dev := { (pup.setPack { pup.pack with hasGrant := true, grantWave := 1 }) with vault := {} };
    (pup.aon.lshEn = true ∧ pup.isMaster = false ∧ pup.g oPackRole ≠ 0) ∧ (dev0.g oPackRole = 0 ∧ pup.inVault = false ∧ pup.vst ≠ 0x0A) ∧
    ((1 ∈ u.rosterNodes) ∧ (u.node 1).seen = false ∧ u.isMaster = true) ∧ (∀ n ∈ boss.rosterNodes, (boss.node n).seen = true) ∧
    (∃ a ∈ h.pack.absents, a.node = 3) ∧ (∀ a ∈ h.pack.absents, a.node ≠ 4) ∧ boss.faults.live.testBit 29 = false ∧ (takes boss ∧ takes pup ∧ boss.own = 0) ∧
    (w.granted = true ∧ w.pack.hasGrant = true ∧ 0 < w.pack.grantWave ∧ pup.pack.hasGrant = false) ∧ (run .mastershipTakeover pup).g oPackRole = 1 ∧
    (run .mastershipTakeover pup).g oMasterAddress = 2 ∧ (run .budgetCompute boss).pack.budgetValid = true ∧
    (run .budgetCompute u).pack.budgetValid = false ∧
    (u.pack.cycles < 3 ∧ (run .budgetCompute (u.setPack { u.pack with cycles := 3 })).pack.budgetValid = true) ∧
    (run (.absentHoldExpire 3) h).pack.absents = [] ∧ (run (.packResetMember 1) boss).pack.resets = [1] ∧ (run (.packResetMember 8) boss).pack.resets = [] := by decide +kernel

-- R168: chapter 7's worked example of three Thozus and a slot controller, and the same Pack with the slot controller at version 1.
theorem test_budget_example :

    let n : Nat → Nat → Nat → Node := fun v p t => { seen := true, maxVersion := v, kind := 1, pused := p, bused := 48000, tneed := t, eretain := 10000, phold := 8000 };
    let c : Node := { seen := true, maxVersion := 2, kind := 2, phold := 2000, thold := 50000 };
    let d : Dev := ((((((up.s oPackRole 1).s oRoster 0x107).s oMasterAddress 0).s oOpVersion 2).s oVMin 10000).s oEsrMeasured 20000).s oBankCurrentLimit 8000;
    let e : Dev := { d with aon := { d.aon with lshEn := true }, energy := { d.energy with vhold := 33000, cap := { d.energy.cap with adopted := some 2000000 } } };
    let b : Dev := { e with pack := { e.pack with nodes := [(0, n 2 45000 3113312), (1, n 2 45000 1681656), (2, n 2 70000 3113312), (8, c)] } };
    let l := b.budgetPlan.2.2; b.capUsed = 2000000 ∧ b.budgetPlan.1 = 10160 ∧ b.budgetPlan.2.1 = 116429229 ∧
    (l.map fun t => (t.wave, t.tau, t.f, t.dur)) = [(0, 0, 1000, 3113312), (1, 3113312, 1000, 1681656), (2, 4794968, 800, 3891640)] ∧
    (l.map fun t => (t.g, listGet 0 (t.key 2) 4)) = [(178119, 48000), (100810, 48000), (304208, 38400)] ∧
    (((b.s oOpVersion 1).budgetPlan.2.2.filter fun t => !t.ok).map fun t => (t.addr, t.key 1)) = [(2, [0xFF, 0, 0, 0, 0, 0])] := by decide +kernel

end Sys2Proof.Tests
end

section
/-! PROOFS. The steps of the write cache (02_write_cache.md): one lemma for each rule that a command of the cache follows. -/
namespace Sys2Proof.Machine
open Sys2Proof

/-! ### The commands of the cache, at a powered device -/

section Commands
variable {s : State} (h : s.Powered)
include h

theorem exec_governorAdmit : exec .governorAdmit s = .next (s.leaves s.dev.governorAdmit) := act_on s (Dev.governorAdmit) h

theorem exec_placeComplete (id : Nat) (bad : List (Nat × Nat)) :
    exec (.placeComplete id bad) s = .next (s.leaves (s.dev.placeComplete id bad)) := act_on s (Dev.placeComplete · id bad) h

theorem exec_throughWriteComplete (id : Nat) (ok : Bool) :
    exec (.throughWriteComplete id ok) s = .next (s.leaves (s.dev.throughComplete id ok)) := act_on s (Dev.throughComplete · id ok) h

theorem exec_mirroringComplete : exec .mirroringComplete s = .next (s.leaves s.dev.mirroringComplete) := act_on s (Dev.mirroringComplete) h

theorem exec_destageIssue (bad : List (Nat × Nat)) :
    exec (.destageIssue bad) s = .next (s.leaves (s.dev.destageIssue bad)) := act_on s (Dev.destageIssue · bad) h

theorem exec_destageIdleTimer (bad : List (Nat × Nat)) :
    exec (.destageIdleTimer bad) s = .next (s.leaves (s.dev.destageIdle bad)) := act_on s (Dev.destageIdle · bad) h

theorem exec_destageWriteComplete (cmd : Nat) (ok : Bool) :
    exec (.destageWriteComplete cmd ok) s = .next (s.leaves (s.dev.destageWriteComplete cmd ok)) := act_on s (Dev.destageWriteComplete · cmd ok) h

theorem exec_destageFlushIssue {port : Nat} (hp : port < 64) (nsid : Nat) :
    exec (.destageFlushIssue port nsid) s = .next (s.leaves (s.dev.destageFlushIssue port nsid)) :=
  act_if _ s (Dev.destageFlushIssue · port nsid) h (by simpa using hp)

theorem exec_destageFlushComplete {port : Nat} (hp : port < 64) (nsid : Nat) (ok : Bool) :
    exec (.destageFlushComplete port nsid ok) s = .next (s.leaves (s.dev.destageFlushComplete port nsid ok)) :=
  act_if _ s (Dev.destageFlushComplete · port nsid ok) h (by simpa using hp)

theorem exec_bucketRebuildComplete : exec .bucketRebuildComplete s = .next (s.leaves s.dev.bucketRebuilt) := act_on s (Dev.bucketRebuilt) h

theorem exec_driveReadComplete (cmd : Nat) (ok : Bool) (data : List Byte) :
    exec (.driveReadComplete cmd ok data) s = .next (s.leaves (s.dev.driveReadComplete cmd ok data)) := act_on s (Dev.driveReadComplete · cmd ok data) h

end Commands

/-! ### No held image -/

/-- Without a held image there is none to declare restored (R146). -/
theorem Dev.heldCheck_of_none {d : Dev} (h : d.restore.held = none) : d.heldCheck = d := by
  simp [Dev.heldCheck, h]

/-- Without a held image no write diverges from one (R146). -/
theorem Dev.diverge_of_none {d : Dev} (w : HostWrite) (h : d.restore.held = none) : d.diverge w = d := by
  simp [Dev.diverge, h]

/-- Where no write waits under R144, none joins the order. -/
theorem Dev.join144_of_none {d : Dev} (h : ∀ x ∈ d.cache.writes, x.r144 = false) : d.join144 = d := by
  have hkeep : d.cache.writes.filter (¬ ·.r144) = d.cache.writes := List.filter_eq_self.2 (by simpa using h)
  have hjoin : d.cache.writes.filter (·.r144) = [] := List.filter_eq_nil_iff.2 (by simpa using h)
  unfold Dev.join144
  split
  · rw [hkeep, hjoin, List.map_nil, List.append_nil]; rfl
  · rfl

/-! ### Admission (R50, R51) -/

/-- The first write that waits, outside R144, is the next one when it fits, and none is while the total has no room. -/
theorem Dev.nextAdmit_cons {d : Dev} (w : HostWrite) (l : List HostWrite) (hr : w.r144 = false) (hq : d.fitsTotal w = true → d.fitsQuota w = true) :
    d.nextAdmit (w :: l) [] = if d.fitsTotal w then some w else none := by
  by_cases ht : d.fitsTotal w = true <;> simp [Dev.nextAdmit, hr, ht, hq]

section Governor
variable {d : Dev} {w : HostWrite} {l : List HostWrite} (hr : ∀ x ∈ d.cache.writes, x.r144 = false) (hw : d.waiters = w :: l)
include hr hw

theorem Dev.first_waiter_outside_r144 : w.r144 = false :=
  hr w (List.mem_of_mem_filter (hw ▸ List.mem_cons_self : w ∈ d.waiters))

/-- With no room under the total nothing is admitted. -/
theorem Dev.governorAdmit_of_no_room (hz : d.cache.frozen = false) (ht : d.fitsTotal w = false) : d.governorAdmit = d := by
  have hn := Dev.nextAdmit_cons (d := d) w l (Dev.first_waiter_outside_r144 hr hw) (by simp [ht])
  simp [Dev.governorAdmit, Dev.join144_of_none hr, hz, hw, hn, ht]

/-- The first waiting write is admitted when it fits under the total and its quotas. -/
theorem Dev.governorAdmit_of_fits (hz : d.cache.frozen = false) (hh : d.restore.held = none) (ht : d.fitsTotal w = true) (hq : d.fitsQuota w = true) :
    d.governorAdmit = d.modWrite w.id fun x => { x with stage := 1, waiting := false } := by
  have hn := Dev.nextAdmit_cons (d := d) w l (Dev.first_waiter_outside_r144 hr hw) (fun _ => hq)
  have ha : d.governorAdmit = (d.admitWrite w).heldCheck := by
    simp [Dev.governorAdmit, Dev.join144_of_none hr, hz, hw, hn, ht]
  rw [ha, Dev.admitWrite, Dev.diverge_of_none w hh]
  exact Dev.heldCheck_of_none hh

end Governor

/-! ### Mirroring and adoption (R48, R60) -/

/-- Mirroring that has no version left to copy ends with mode 1. -/
theorem Dev.modeUpdate_mirrored {d : Dev} (hu : d.unmirrored = []) (hc : d.g oWriteThroughCause = 0) (hm : d.mirrorNew = true) :
    d.modeUpdate.g oCacheModeActive = 1 := by
  simp [Dev.modeUpdate, hu, hc, hm]

/-! ### Versions that leave (R39, R54) -/

@[simp] theorem Dev.freeVer_versions (d : Dev) (f : Nat) : (d.freeVer f).cache.versions = d.cache.versions.filter (·.frame ≠ f) := rfl

/-- Freeing the frames of versions leaves those of other frames, in their order. -/
theorem Dev.mem_freeVers {gone : List Version} : ∀ {d : Dev} {v : Version},
    v ∈ (gone.foldl (fun d x => d.freeVer x.frame) d).cache.versions ↔ v ∈ d.cache.versions ∧ ∀ x ∈ gone, v.frame ≠ x.frame := by
  induction gone with
  | nil => simp
  | cons x r ih => intro d v; simp [ih, and_assoc]

/-! ### Write-through (R45, R56) -/

section Through
variable {d : Dev} {id : Nat} {w : HostWrite} (hw : d.writeAt id = some w) (hs : w.stage = 3) (hu : w.unflushed = []) (hf : d.cache.fills = [])
include hw hs hu hf

/-- A failed drive write ends the write-through with Write Fault. -/
theorem Dev.throughComplete_failed : d.throughComplete id false = d.writeAck w scWriteFault := by
  simp [Dev.throughComplete, hw, hs, hu, hf]

/-- A write-through whose drive writes carried FUA ends at once. -/
theorem Dev.throughComplete_fua (hv : vState (d.vol w.vol) ≠ 3) (hn : w.noFua = false) : d.throughComplete id true = d.throughEnd w := by
  simp [Dev.throughComplete, hw, hs, hu, hf, hv, hn]

/-- A write-through without FUA to a drive with a volatile write cache waits for Flushes. -/
theorem Dev.throughComplete_waits (hv : vState (d.vol w.vol) ≠ 3) (hn : w.noFua = true) {b i : Nat} (hb : b ∈ w.blocks) (hi : i ∈ d.writeSet w.vol b)
    (hc : (d.port (xPort (d.vol w.vol) i)).vwc = true) :
    ∃ due, due ≠ [] ∧ d.throughComplete id true = (d.retireRef 2 id).modWrite id fun w => { w with unflushed := due } := by
  let spaces := (w.blocks.flatMap fun b => (d.writeSet w.vol b).map fun i => (xPort (d.vol w.vol) i, xNsid (d.vol w.vol) i, false)).eraseDups
  have hmem : (xPort (d.vol w.vol) i, xNsid (d.vol w.vol) i, false) ∈ spaces.filter fun p => (d.port p.1).vwc :=
    List.mem_filter.2 ⟨List.mem_eraseDups.2 (List.mem_flatMap.2 ⟨b, hb, List.mem_map.2 ⟨i, hi, rfl⟩⟩), hc⟩
  refine ⟨spaces.filter fun p => (d.port p.1).vwc, List.ne_nil_of_mem hmem, ?_⟩
  have hne : (spaces.filter fun p => (d.port p.1).vwc).isEmpty = false := by
    simpa using List.ne_nil_of_mem hmem
  simp only [Dev.throughComplete, hw]
  rw [if_neg (by simp [hs, hu, hf]), if_neg (by simp [hv])]
  simp only [hn, if_true]
  exact if_neg (by simpa [spaces] using hne)

end Through

/-! ### Frames of a pool (R39, R54) -/

/-- Some index up to the length of a list is not in the list. -/
theorem exists_index_not_mem (l : List Nat) : ∃ i ∈ List.range (l.length + 1), i ∉ l := by
  by_contra hall
  push Not at hall
  have hlen := (List.subperm_of_subset List.nodup_range hall).length_le
  simp at hlen

theorem lowestFree_spec (l : List Nat) : lowestFree l ∉ l ∧ lowestFree l ≤ l.length := by
  obtain ⟨i, hi, hn⟩ := exists_index_not_mem l
  unfold lowestFree
  cases hf : (List.range (l.length + 1)).find? (fun i => ¬ l.contains i) with
  | none => exact absurd (List.find?_eq_none.1 hf i hi) (by simpa using hn)
  | some k =>
    have hk := List.mem_range.1 (List.mem_of_find?_eq_some hf)
    exact ⟨by simpa using List.find?_some hf, by simpa using Nat.lt_succ_iff.1 hk⟩

theorem Dev.mem_framesUsed {d : Dev} {n f : Nat} :
    f ∈ d.framesUsed n ↔ (∃ v ∈ d.cache.versions, f = v.frame ∨ v.copy = some f) ∧ frameChan f = n := by
  simp [Dev.framesUsed, Option.mem_toList]

/-- A frame is taken from pool `n` as it stands, or after a CLEAN version of the pool has left it; it is the lowest free one. -/
theorem Dev.takeFrame_cases (d : Dev) (n : Nat) :
    ((d.takeFrame n).2 = d ∨ ∃ v ∈ d.cleanIn n, (d.takeFrame n).2 = d.freeVer v.frame) ∧
      (d.takeFrame n).1 = n * 2 ^ 28 + lowestFree (((d.takeFrame n).2.framesUsed n).map (· % 2 ^ 28)) := by
  refine ⟨?_, rfl⟩
  simp only [Dev.takeFrame]
  split
  · cases hc : d.cleanIn n with
    | nil => exact .inl rfl
    | cons v r => exact .inr ⟨v, List.mem_cons_self, rfl⟩
  · exact .inl rfl

section TakeFrame
variable (d : Dev) (n : Nat)

/-- Taking a frame changes the versions, the residency map and the failures counted of frames, and nothing else. -/
theorem Dev.takeFrame_frame : (d.takeFrame n).2.dict = d.dict ∧ (d.takeFrame n).2.eff = d.eff ∧ (d.takeFrame n).2.dram = d.dram ∧
    (d.takeFrame n).2.cache.nextSeq = d.cache.nextSeq := by
  rcases (d.takeFrame_cases n).1 with h | ⟨v, -, h⟩ <;> rw [h] <;> exact ⟨rfl, rfl, rfl, rfl⟩

/-- Every version was there before the frame was taken, and those in other channels stay. -/
theorem Dev.takeFrame_versions : (d.takeFrame n).2.cache.versions.Sublist d.cache.versions ∧
    ∀ v ∈ d.cache.versions, frameChan v.frame ≠ n → v ∈ (d.takeFrame n).2.cache.versions := by
  rcases (d.takeFrame_cases n).1 with h | ⟨x, hx, h⟩ <;> rw [h]
  · exact ⟨List.Sublist.refl _, fun v hv _ => hv⟩
  · have hxn : x.st = 1 ∧ frameChan x.frame = n := by simpa using (List.mem_filter.1 hx).2
    refine ⟨List.filter_sublist, fun v hv hne => List.mem_filter.2 ⟨hv, ?_⟩⟩
    simpa using fun he : v.frame = x.frame => hne (he ▸ hxn.2)

theorem Dev.takeFrame_framesUsed (m : Nat) : ((d.takeFrame n).2.framesUsed m).length ≤ (d.framesUsed m).length :=
  (((d.takeFrame_versions n).1.flatMap _).filter _).length_le

variable {n} (hlen : (d.framesUsed n).length < 2 ^ 28)
include hlen

/-- The frame taken lies in its pool's channel. -/
theorem Dev.takeFrame_chan : frameChan (d.takeFrame n).1 = n := by
  have hle := (lowestFree_spec (((d.takeFrame n).2.framesUsed n).map (· % 2 ^ 28))).2
  have hused := d.takeFrame_framesUsed n n
  rw [List.length_map] at hle
  rw [(d.takeFrame_cases n).2, frameChan]
  omega

/-- No version stands in the frame that is taken. -/
theorem Dev.takeFrame_fresh {v : Version} (hv : v ∈ (d.takeFrame n).2.cache.versions) : v.frame ≠ (d.takeFrame n).1 := by
  intro he
  have hused : v.frame ∈ (d.takeFrame n).2.framesUsed n := Dev.mem_framesUsed.2 ⟨⟨v, hv, .inl rfl⟩, he ▸ d.takeFrame_chan hlen⟩
  have hle := (lowestFree_spec (((d.takeFrame n).2.framesUsed n).map (· % 2 ^ 28))).2
  have hlt := d.takeFrame_framesUsed n n
  rw [List.length_map] at hle
  refine (lowestFree_spec (((d.takeFrame n).2.framesUsed n).map (· % 2 ^ 28))).1 (List.mem_map.2 ⟨_, hused, ?_⟩)
  rw [he, (d.takeFrame_cases n).2]
  omega

end TakeFrame

/-! ### Pools with room (R39) -/

theorem Dev.chan_congr {d e : Dev} (hdram : e.dram = d.dram) : e.chan = d.chan := funext fun n => by rw [Dev.chan, hdram, Dev.chan]

theorem Dev.inService_congr {d e : Dev} (hdram : e.dram = d.dram) : e.inService = d.inService :=
  funext fun n => by rw [Dev.inService, Dev.chan_congr hdram, Dev.inService]

theorem Dev.chansIn_congr {d e : Dev} (hdram : e.dram = d.dram) : e.chansIn = d.chansIn := by
  rw [Dev.chansIn, Dev.inService_congr hdram, Dev.chansIn]

/-- The frames of a channel depend on the DRAM channels and on the program reserve in force. -/
theorem Dev.framesC_congr {d e : Dev} (heff : e.eff = d.eff) (hdram : e.dram = d.dram) (n : Nat) : e.framesC n = d.framesC n := by
  simp only [Dev.framesC, Dev.fwShare, Dev.populated, Dev.progBytes, Dev.ge, Dev.chan_congr hdram, heff]

/-- A pool's frames depend on the DRAM channels and on objects of the dictionary alone. -/
theorem Dev.poolFrames_congr {d e : Dev} (hdict : e.dict = d.dict) (heff : e.eff = d.eff) (hdram : e.dram = d.dram) (n : Nat) :
    e.poolFrames n = d.poolFrames n := by
  rw [Dev.poolFrames, Dev.inService_congr hdram, Dev.g_of_dict hdict, Dev.framesC_congr heff hdram, Dev.chansIn_congr hdram, Dev.poolFrames]

/-- Whether new versions are mirrored depends on the mode asked for and the channels in service. -/
theorem Dev.mirrorNew_congr {d e : Dev} (hdict : e.dict = d.dict) (hdram : e.dram = d.dram) : e.mirrorNew = d.mirrorNew := by
  simp only [Dev.mirrorNew, Dev.mirrorPossible, Dev.chansIn_congr hdram, Dev.g_of_dict hdict]

/-- A pool in which no CLEAN version has gone and no frame has been taken has at least the free frames it had. -/
theorem Dev.poolFree_mono {d e : Dev} (hdict : e.dict = d.dict) (heff : e.eff = d.eff) (hdram : e.dram = d.dram) {m : Nat}
    (hclean : (d.cleanIn m).length ≤ (e.cleanIn m).length) (hused : (e.framesUsed m).length ≤ (d.framesUsed m).length) :
    d.poolFree m ≤ e.poolFree m := by
  simp only [Dev.poolFree, Dev.poolFrames_congr hdict heff hdram]
  omega

/-- Taking a frame of pool `n` takes none of another pool's. -/
theorem Dev.poolFree_takeFrame (d : Dev) {n m : Nat} (hne : m ≠ n) : d.poolFree m ≤ (d.takeFrame n).2.poolFree m := by
  obtain ⟨hdict, heff, hdram, -⟩ := d.takeFrame_frame n
  refine Dev.poolFree_mono hdict heff hdram ?_ (d.takeFrame_framesUsed n m)
  rcases (d.takeFrame_cases n).1 with h | ⟨x, hx, h⟩ <;> rw [h]
  have hxn : x.st = 1 ∧ frameChan x.frame = n := by simpa using (List.mem_filter.1 hx).2
  have hsame : (d.freeVer x.frame).cleanIn m = d.cleanIn m := by
    simp only [Dev.cleanIn, Dev.freeVer_versions, List.filter_filter]
    refine List.filter_congr fun v _ => ?_
    by_cases hv : v.frame = x.frame
    · simp [hv, hxn.2, Ne.symm hne]
    · simp [hv]
  rw [hsame]

/-- One step of the choice of a pool. -/
def Dev.betterPool (d : Dev) (b : Option Nat) (n : Nat) : Option Nat :=
  match b with
  | none => if 0 < d.poolFree n then some n else none
  | some m => if d.poolFree m < d.poolFree n then some n else some m

theorem Dev.bestPool_eq (d : Dev) (l : List Nat) : d.bestPool l = l.foldl d.betterPool none := rfl

theorem Dev.betterPool_cases (d : Dev) (b : Option Nat) (n : Nat) : d.betterPool b n = b ∨ d.betterPool b n = some n := by
  cases b <;> simp only [Dev.betterPool] <;> split <;> simp

/-- The best pool is one of those asked. -/
theorem Dev.bestPool_mem {d : Dev} {l : List Nat} {n : Nat} (h : d.bestPool l = some n) : n ∈ l := by
  have hall : ∀ k, l.foldl d.betterPool none = some k → k ∈ l := by
    refine List.foldlRecOn l d.betterPool (motive := fun b => ∀ k, b = some k → k ∈ l) (by simp) fun b hb a ha k hk => ?_
    rcases d.betterPool_cases b a with he | he
    · exact hb k (he ▸ hk)
    · exact Option.some.inj (he.symm.trans hk) ▸ ha
  exact hall n h

/-- A choice once made is replaced only by another. -/
theorem Dev.foldl_betterPool_isSome (d : Dev) (l : List Nat) : ∀ b : Option Nat, b.isSome = true → (l.foldl d.betterPool b).isSome = true := by
  induction l with
  | nil => exact fun b hb => hb
  | cons a r ih =>
    intro b hb
    refine ih _ ?_
    rcases d.betterPool_cases b a with he | he <;> simp [he, hb]

/-- Among pools of which one has a free frame, one is best. -/
theorem Dev.bestPool_isSome {d : Dev} {l : List Nat} {m : Nat} (hm : m ∈ l) (hfree : 0 < d.poolFree m) : (d.bestPool l).isSome = true := by
  obtain ⟨l₁, l₂, rfl⟩ := List.append_of_mem hm
  rw [Dev.bestPool_eq, List.foldl_append, List.foldl_cons]
  refine d.foldl_betterPool_isSome l₂ _ ?_
  cases hb : l₁.foldl d.betterPool none with
  | none => simp [Dev.betterPool, hfree]
  | some k => rcases d.betterPool_cases (some k) m with he | he <;> simp [he]

/-! ### Placement (R42, R44) -/

/-- Where an owner has room for one more frame nothing is evicted (R54). -/
theorem Dev.evictInst_of_room {d : Dev} {i : Nat} (h : d.instFrames i < d.cacheQuota i) : d.evictInst i = d := by
  have h0 : d.instFrames i + 1 - d.cacheQuota i = 0 := by omega
  simp [Dev.evictInst, Dev.evictFor, h0]

/-- The device with version `v` added as the newest, the next sequence number of `key` being `seq`. -/
def Dev.addVersion (d : Dev) (v : Version) (key seq : Nat) : Dev :=
  { d with cache := { d.cache with versions := d.cache.versions ++ [v], nextSeq := storeSet (fun _ => 0) d.cache.nextSeq key seq } }

/-- A new version, alone in its frame, gets a COPY where a channel of another quadrant has room; every other version is one that was there (R39). -/
theorem Dev.addCopy_new {d : Dev} {v : Version} {key seq m : Nat} (hfresh : ∀ x ∈ d.cache.versions, x.frame ≠ v.frame) (hnone : v.copy = none) (hst : v.st ≠ 1)
    (hm : m ∈ d.chansIn) (hfar : m / 2 ≠ frameChan v.frame / 2) (hfree : 0 < d.poolFree m) :
    ((d.addVersion v key seq).copyPool v.frame).isSome = true ∧ ∃ c,
      ({ v with copy := some c } ∈ ((d.addVersion v key seq).addCopy v.frame).cache.versions) ∧
      (∀ x ∈ ((d.addVersion v key seq).addCopy v.frame).cache.versions, x = { v with copy := some c } ∨ x ∈ d.cache.versions) ∧
      ((d.addVersion v key seq).addCopy v.frame).cache.nextSeq = (d.addVersion v key seq).cache.nextSeq := by
  set e := d.addVersion v key seq
  have hvers : e.cache.versions = d.cache.versions ++ [v] := rfl
  have hchan : m ≠ frameChan v.frame := fun h => hfar (by rw [h])
  have hclean : e.cleanIn m = d.cleanIn m := by simp [Dev.cleanIn, hvers, hst]
  have hused : e.framesUsed m = d.framesUsed m := by
    simp [Dev.framesUsed, hvers, hnone, Ne.symm hchan]
  have hroom : 0 < e.poolFree m := lt_of_lt_of_le hfree (Dev.poolFree_mono (d := d) (e := e) (m := m) rfl rfl rfl (by rw [hclean]) (by rw [hused]))
  have hmem : m ∈ e.chansIn.filter fun n => n / 2 ≠ frameChan v.frame / 2 := List.mem_filter.2 ⟨hm, by simpa using hfar⟩
  obtain ⟨n, hn⟩ := Option.isSome_iff_exists.1 (Dev.bestPool_isSome hmem hroom)
  have hpool : e.copyPool v.frame = some n := hn
  have hnf : n / 2 ≠ frameChan v.frame / 2 := by simpa using (List.mem_filter.1 (Dev.bestPool_mem hn)).2
  have hat : e.verAt v.frame = some v := by
    rw [Dev.verAt, hvers, List.find?_append, List.find?_eq_none.2 (by simpa using hfresh)]
    simp
  have hcopy : e.addCopy v.frame = (e.takeFrame n).2.modVer v.frame fun x => { x with copy := some (e.takeFrame n).1 } := by
    simp [Dev.addCopy, hat, hpool, hnone]
  obtain ⟨hsub, hkeep⟩ := e.takeFrame_versions n
  refine ⟨by rw [hpool]; rfl, (e.takeFrame n).1, ?_, ?_, ?_⟩
  · have hv : v ∈ (e.takeFrame n).2.cache.versions := hkeep v (by simp [hvers]) fun h => hnf (by rw [h])
    rw [hcopy]
    exact List.mem_map.2 ⟨v, hv, by simp⟩
  · rw [hcopy]
    intro x hx
    obtain ⟨y, hy, rfl⟩ := List.mem_map.1 hx
    rcases List.mem_append.1 (hvers ▸ hsub.mem hy) with hyd | hyv
    · exact .inr (by simpa [hfresh y hyd] using hyd)
    · obtain rfl := List.mem_singleton.1 hyv
      exact .inl (by simp)
  · rw [hcopy]
    exact (e.takeFrame_frame n).2.2.2

/-- The DIRTY version that block `b` of write `w` becomes in frame `f`, as sectors `mask` of `new`. -/
def HostWrite.newVersion (w : HostWrite) (b mask new unc seq f : Nat) : Version :=
  { frame := f, vol := w.vol, blk := b, inst := w.inst, dom := w.dom, seq := seq, valid := mask, st := 2, fence := w.fence, data := mergeSec mask new 0, unc := unc }

/-- Where the owner has room, and a pool of another slice has room for a COPY in MIRROR, a block becomes a new version with the sequence number `seq`, and
`seq + 1` is the next; every other version is one that was there. -/
theorem Dev.placeNew_spec {d : Dev} {w : HostWrite} {b n : Nat} (mask new unc seq key : Nat) (hroom : d.instFrames w.inst < d.cacheQuota w.inst)
    (hpool : d.poolFor w.vol b = some n) (hlen : (d.framesUsed n).length < 2 ^ 28)
    (hfar : d.mirrorNew = true → ∃ m ∈ d.chansIn, m / 2 ≠ n / 2 ∧ 0 < d.poolFree m) :
    ∃ (f : Dev) (k : Nat) (c : Option Nat), d.placeNew w b mask new unc seq key = some f ∧
      { w.newVersion b mask new unc seq k with copy := c } ∈ f.cache.versions ∧
      (∀ x ∈ f.cache.versions, x = { w.newVersion b mask new unc seq k with copy := c } ∨ x ∈ d.cache.versions) ∧
      (d.mirrorNew = true → c.isSome = true) ∧ f.cache.nextSeq = storeSet (fun _ => 0) d.cache.nextSeq key (seq + 1) := by
  obtain ⟨hdict, -, hdram, hseq⟩ := d.takeFrame_frame n
  have hsub := (d.takeFrame_versions n).1
  have hfresh : ∀ x ∈ (d.takeFrame n).2.cache.versions, x.frame ≠ (d.takeFrame n).1 := fun x hx => d.takeFrame_fresh hlen hx
  have hchan := d.takeFrame_chan hlen
  set k := (d.takeFrame n).1
  set v := w.newVersion b mask new unc seq k with hv
  set e := (d.takeFrame n).2.addVersion v key (seq + 1)
  have hmir : e.mirrorNew = d.mirrorNew := Dev.mirrorNew_congr hdict hdram
  have hplace : d.placeNew w b mask new unc seq key =
      if ¬ e.mirrorNew then some e else if (e.copyPool k).isNone then none else some (e.addCopy k) := by
    simp only [Dev.placeNew, Dev.evictInst_of_room hroom, hpool]
    rfl
  by_cases hm : d.mirrorNew = true
  · obtain ⟨m, hmin, hmn, hmf⟩ := hfar hm
    have hmn' : m ≠ n := fun h => hmn (by rw [h])
    obtain ⟨hcp, c, hmem, hall, hnext⟩ := Dev.addCopy_new (d := (d.takeFrame n).2) (v := v) (key := key) (seq := seq + 1) (m := m) hfresh rfl
      (by simp [hv, HostWrite.newVersion]) (by rw [Dev.chansIn_congr hdram]; exact hmin) (by rw [show v.frame = k from rfl, hchan]; exact hmn)
      (lt_of_lt_of_le hmf (d.poolFree_takeFrame hmn'))
    have hnone : (e.copyPool k).isNone = false := by
      rw [Option.isNone_eq_false_iff]; exact hcp
    refine ⟨e.addCopy k, k, some c, ?_, hmem, fun x hx => (hall x hx).imp_right fun h => hsub.mem h, fun _ => rfl, ?_⟩
    · rw [hplace, hmir, if_neg (by simp [hm]), if_neg (by simp [hnone])]
    · rw [← hseq]; exact hnext
  · refine ⟨e, k, none, ?_, List.mem_append_right _ (List.mem_singleton_self v), fun x hx => ?_, fun h => absurd h hm, ?_⟩
    · rw [hplace, hmir, if_pos hm]
    · rcases List.mem_append.1 hx with h | h
      · exact .inr (hsub.mem h)
      · exact .inl (List.mem_singleton.1 h)
    · rw [← hseq]; rfl

/-- Once the newest version of a block is whole, the older Poison ones that are not DESTAGING go (R58). -/
def Dev.poisonGone (d : Dev) (vol b : Nat) : Dev :=
  if ((d.versOf vol b).getLast?.map (·.valid)) = some 0xFF then
    ((d.versOf vol b).dropLast.filter fun v => v.poison ∧ v.st ≠ 3).foldl (fun d v => d.freeVer v.frame) d
  else d

/-- A block whose versions are one that is not Poison loses none. -/
theorem Dev.poisonGone_of_one {d : Dev} {vol b : Nat} {v : Version} (hp : v.poison = false) (h : ∀ x ∈ d.versOf vol b, x = v) : d.poisonGone vol b = d := by
  have hnone : (d.versOf vol b).dropLast.filter (fun v => v.poison ∧ v.st ≠ 3) = [] :=
    List.filter_eq_nil_iff.2 fun x hx => by simp [h x (List.mem_of_mem_dropLast hx), hp]
  rw [Dev.poisonGone, hnone, List.foldl_nil, ite_self]

section PlaceOne
variable {d : Dev} {id b : Nat} {w : HostWrite} (hw : d.writeAt id = some w) (hs : w.stage = 1) (ht : w.thru = false) (hb : w.blocks = [b])
  (ha : d.adopting w.vol b = false) (hl : vLayout (d.vol w.vol) ≠ 0)
include hw hs ht hb ha hl

/-- A write of one block ends with success when the block is placed, and what it merges into is resident. -/
theorem Dev.placeComplete_one {e : Dev} (hplace : d.placeBlock w b = some e) (hhere : ∀ v, d.mergeInto w b = some v → d.verHere v = true) :
    d.placeComplete id [] = (e.writeAck w scSuccess).modeUpdate := by
  have hall : d.placeAll w = ([], some e) := by
    cases hm : d.mergeInto w b with
    | none => simp [Dev.placeAll, hb, hm, hplace]
    | some v => simp [Dev.placeAll, hb, hm, hplace, hhere v hm]
  simp [Dev.placeComplete, hw, hs, ht, hb, ha, hl, hall]

end PlaceOne

/-- What a version becomes when block `b` of write `w` merges into it (R42). -/
def HostWrite.mergedInto (w : HostWrite) (b : Nat) (v : Version) : Version :=
  { v with data := mergeSec (w.part b).1 (w.part b).2.1 v.data, valid := v.valid ||| (w.part b).1, fence := v.fence || w.fence,
           unc := (v.unc &&& (0xFF - (w.part b).1)) ||| (w.part b).2.2 }

/-- A change that keeps a version's block and whether it is dropping changes the versions of a block one by one. -/
theorem Dev.versOf_modVer (d : Dev) (f vol b : Nat) {g : Version → Version} (hg : ∀ v, (g v).vol = v.vol ∧ (g v).blk = v.blk ∧ (g v).dropping = v.dropping) :
    (d.modVer f g).versOf vol b = mapIf (·.frame = f) g (d.versOf vol b) := by
  simp only [Dev.versOf, Dev.modVer, Dev.setVers_cache, mapIf, List.filter_map]
  congr 1
  refine List.filter_congr fun v _ => ?_
  by_cases hf : v.frame = f <;> simp [hf, hg]

theorem Dev.placeBlock_of_merge {d : Dev} {w : HostWrite} {b : Nat} {v : Version} (hm : d.mergeInto w b = some v) :
    d.placeBlock w b = some ((d.modVer v.frame (w.mergedInto b)).poisonGone w.vol b) := by
  simp only [Dev.placeBlock, hm]; rfl

theorem Dev.placeBlock_of_none {d : Dev} {w : HostWrite} {b : Nat} (hv : d.versOf w.vol b = []) :
    d.placeBlock w b = (d.placeNew w b (w.part b).1 (w.part b).2.1 (w.part b).2.2 (storeGet (fun _ => 0) d.cache.nextSeq (w.inst * 256 + w.dom))
      (w.inst * 256 + w.dom)).map (Dev.poisonGone · w.vol b) := by
  simp only [Dev.placeBlock, Dev.mergeInto, hv]; rfl

/-- A block merges into the one version of it that is not Poison. -/
theorem Dev.placeBlock_merge {d : Dev} {w : HostWrite} {b : Nat} {v : Version} (hm : d.mergeInto w b = some v) (hv : d.versOf w.vol b = [v]) (hp : v.poison = false) :
    d.placeBlock w b = some (d.modVer v.frame (w.mergedInto b)) := by
  have hone : (d.modVer v.frame (w.mergedInto b)).versOf w.vol b = [w.mergedInto b v] := by
    rw [Dev.versOf_modVer d _ _ _ (g := w.mergedInto b) fun v => ⟨rfl, rfl, rfl⟩, hv]
    simp [mapIf]
  rw [Dev.placeBlock_of_merge hm, Dev.poisonGone_of_one (v := w.mergedInto b v) hp (by simp [hone])]

/-- A block with no version becomes a new one. -/
theorem Dev.placeBlock_new {d f : Dev} {w : HostWrite} {b : Nat} {v : Version} (hv : d.versOf w.vol b = [])
    (hf : d.placeNew w b (w.part b).1 (w.part b).2.1 (w.part b).2.2 (storeGet (fun _ => 0) d.cache.nextSeq (w.inst * 256 + w.dom)) (w.inst * 256 + w.dom) = some f)
    (hall : ∀ x ∈ f.cache.versions, x = v ∨ x ∈ d.cache.versions) (hp : v.poison = false) : d.placeBlock w b = some f := by
  have hnew : ∀ x ∈ f.versOf w.vol b, x = v := fun x hx =>
    (hall x (List.mem_of_mem_filter hx)).resolve_right fun hd =>
      List.not_mem_nil (hv ▸ List.mem_filter.2 ⟨hd, (List.mem_filter.1 hx).2⟩ : x ∈ ([] : List Version))
  rw [Dev.placeBlock_of_none hv, hf, Option.map_some, Dev.poisonGone_of_one hp hnew]

/-! ### Ports and commands to drives (R284) -/

@[simp] theorem Dev.setPort_cache (d : Dev) (n : Nat) (p : Port) : (d.setPort n p).cache = d.cache := by
  simp only [Dev.setPort]; split <;> simp

@[simp] theorem Dev.setPort_restore (d : Dev) (n : Nat) (p : Port) : (d.setPort n p).restore = d.restore := by
  simp only [Dev.setPort]; split <;> simp

@[simp] theorem Dev.setPort_ports (d : Dev) (n : Nat) (p : Port) : (d.setPort n p).ports = { d.ports with ports := storeSet noPort d.ports.ports n p } := by
  simp only [Dev.setPort]; split <;> simp

theorem Dev.port_setPort (d : Dev) (n m : Nat) (p : Port) : (d.setPort n p).port m = if m = n then p else d.port m := by
  simp [Dev.port, storeGet_set]

/-- Retiring a command takes it from its port and leaves all else. -/
theorem Dev.retireCmd_cases (d : Dev) (c : Nat) :
    d.retireCmd c = d ∨ ∃ n, d.retireCmd c = d.setPort n { d.port n with cmds := (d.port n).cmds.filter (·.id ≠ c) } := by
  unfold Dev.retireCmd
  cases d.portOfCmd c with
  | none => exact .inl rfl
  | some x => exact .inr ⟨x.1, rfl⟩

@[simp] theorem Dev.retireCmd_cache (d : Dev) (c : Nat) : (d.retireCmd c).cache = d.cache := by
  rcases d.retireCmd_cases c with h | ⟨n, h⟩ <;> rw [h]
  exact Dev.setPort_cache ..

@[simp] theorem Dev.retireCmd_restore (d : Dev) (c : Nat) : (d.retireCmd c).restore = d.restore := by
  rcases d.retireCmd_cases c with h | ⟨n, h⟩ <;> rw [h]
  exact Dev.setPort_restore ..

@[simp] theorem Dev.retireCmd_vwc (d : Dev) (c m : Nat) : ((d.retireCmd c).port m).vwc = (d.port m).vwc := by
  rcases d.retireCmd_cases c with h | ⟨n, h⟩ <;> rw [h]
  rw [Dev.port_setPort]
  split
  · rename_i hm; rw [hm]
  · rfl

/-- A command to a drive leaves the cache as it was. -/
@[simp] theorem Dev.driveCmd_cache (d : Dev) (port nsid owner ref opc lba sectors flags : Nat) :
    (d.driveCmd port nsid owner ref opc lba sectors flags).2.cache = d.cache := by
  simp [Dev.driveCmd]

/-- The reads of a block change no version. -/
theorem Dev.fillStart_versions {d e : Dev} {owner ref v b : Nat} {full own : Bool} {failed : List Nat}
    (h : d.fillStart owner ref v b full own failed = some e) : e.cache.versions = d.cache.versions := by
  obtain ⟨l, -, rfl⟩ := Option.map_eq_some_iff.1 h
  simp only [Dev.setFills_cache]
  refine List.foldlRecOn l _ (motive := fun x : List (Nat × Nat) × Dev => x.2.cache.versions = d.cache.versions) rfl fun x hx i _ => ?_
  simpa using hx

@[simp] theorem Dev.noteFua_versions (d : Dev) (owner ref v : Nat) : (d.noteFua owner ref v).cache.versions = d.cache.versions := by
  unfold Dev.noteFua
  split
  · rfl
  · split <;> rfl

/-- The writes of a block change no version. -/
@[simp] theorem Dev.writeBlock_versions (d : Dev) (owner ref v b data valid unc : Nat) (strips : List (List Byte)) :
    (d.writeBlock owner ref v b data valid unc strips).2.cache.versions = d.cache.versions := by
  unfold Dev.writeBlock
  refine List.foldlRecOn _ _ (motive := fun x : List (Nat × Nat × Nat × Nat) × Dev => x.2.cache.versions = d.cache.versions) (by simp) fun x hx i _ => ?_
  dsimp only
  split
  · simpa using hx
  · split
    · split <;> simpa using hx
    · refine List.foldlRecOn _ _ (motive := fun x : List (Nat × Nat × Nat × Nat) × Dev => x.2.cache.versions = d.cache.versions) ?_ fun y hy j _ => by simpa using hy
      exact List.foldlRecOn _ _ (motive := fun x : List (Nat × Nat × Nat × Nat) × Dev => x.2.cache.versions = d.cache.versions) hx fun y hy j _ => by simpa using hy

/-- A version whose destage begins is DESTAGING; no other version changes (R57). -/
theorem Dev.destageStart_versions {d e : Dev} {v : Version} (h : d.destageStart v = some e) :
    e.cache.versions = mapIf (·.frame = v.frame) (fun v => { v with st := 3 }) d.cache.versions := by
  unfold Dev.destageStart at h
  dsimp only at h
  split at h
  · exact Dev.fillStart_versions h
  · obtain rfl := Option.some.inj h
    simp [Dev.modDestage, Dev.modVer]

/-! ### Destage (R53, R55 to R57) -/

/-- The one eligible version, which is resident, is issued. -/
theorem Dev.destageOne_single {d e : Dev} {v : Version} (hl : d.cache.versions.filter d.eligible = [v]) (hh : d.verHere v = true) (he : d.destageStart v = some e) :
    d.destageOne [] = e := by
  simp [Dev.destageOne, hl, hh, he, Dev.destageBest]

/-- The end of an attempt is judged by what it still waits for. -/
theorem Dev.destageCheck_single {d : Dev} {x : Destage} {v : Version} (hx : d.cache.destages = [x]) (hv : d.verAt x.frame = some v) (hr : x.reading = false)
    (hw : x.wait = []) (hs : vState (d.vol v.vol) ≠ 3) :
    d.destageCheck x.frame = if x.unflushed.isEmpty then d.durable x.frame else d := by
  simp [Dev.destageCheck, hx, hv, hr, hw, hs]

/-- An attempt that waits for a Flush goes on. -/
theorem Dev.destageCheck_waits {d : Dev} {x : Destage} (hx : d.cache.destages = [x]) (hu : x.unflushed ≠ []) : d.destageCheck x.frame = d := by
  cases hv : d.verAt x.frame <;> simp [Dev.destageCheck, hx, hv, hu]

section DestageWrite
variable {d : Dev} {x : Destage} {v : Version} {cmd port ns i : Nat} (hx : d.cache.destages = [x]) (hw : x.wait = [(cmd, port, ns, i)])
  (hv : d.verAt x.frame = some v)
include hx hw hv

/-- A failed drive write ends the attempt. -/
theorem Dev.destageWriteComplete_failed : d.destageWriteComplete cmd false = (d.retireCmd cmd).destageFail x.frame i := by
  simp [Dev.destageWriteComplete, hx, hw, hv]

/-- The last drive write of an attempt is followed by what its flags ask: nothing, or a Flush. -/
theorem Dev.destageWriteComplete_ok (hu : x.unflushed = []) : d.destageWriteComplete cmd true =
    (((d.retireCmd cmd).setDestages [{ x with wait := [], unflushed := if x.noFua ∧ (d.port port).vwc then [(port, ns, false)] else [] }]).destageCheck
      x.frame).heldCheck := by
  simp [Dev.destageWriteComplete, hx, hw, hv, hu, Dev.modDestage, mapIf]

/-- An attempt whose writes carried FUA, or went to a drive without a volatile write cache, ends as durable with its last write. -/
theorem Dev.destageWriteComplete_durable (hr : x.reading = false) (hu : x.unflushed = []) (hfua : x.noFua = false ∨ (d.port port).vwc = false)
    (hs : vState (d.vol v.vol) ≠ 3) : ∃ g : Dev, d.destageWriteComplete cmd true = (g.durable x.frame).heldCheck := by
  have hno : ¬ (x.noFua = true ∧ (d.port port).vwc = true) := by rcases hfua with h | h <;> simp [h]
  let g := (d.retireCmd cmd).setDestages [{ x with wait := [], unflushed := [] }]
  have hcheck : g.destageCheck x.frame = g.durable x.frame :=
    Dev.destageCheck_single (d := g) (x := { x with wait := [], unflushed := [] }) (v := v) rfl (by simpa [g, Dev.verAt] using hv) hr rfl (by simpa [g, Dev.vol] using hs)
  exact ⟨g, by rw [Dev.destageWriteComplete_ok hx hw hv hu, if_neg hno, hcheck]⟩

/-- An attempt whose last write went without FUA to a drive with a volatile write cache waits for a Flush. -/
theorem Dev.destageWriteComplete_waits (hu : x.unflushed = []) (hn : x.noFua = true) (hc : (d.port port).vwc = true) (hh : d.restore.held = none) :
    (d.destageWriteComplete cmd true).cache.destages = [{ x with wait := [], unflushed := [(port, ns, false)] }] := by
  let y : Destage := { x with wait := [], unflushed := [(port, ns, false)] }
  have hcheck : ((d.retireCmd cmd).setDestages [y]).destageCheck x.frame = (d.retireCmd cmd).setDestages [y] :=
    Dev.destageCheck_waits (x := y) rfl (List.cons_ne_nil _ _)
  rw [Dev.destageWriteComplete_ok hx hw hv hu, if_pos ⟨hn, hc⟩, hcheck, Dev.heldCheck_of_none (by simpa using hh)]
  rfl

end DestageWrite

/-- A Flush goes out to a namespace with one attempt that waits for it, and covers the attempt's writes there (R56). -/
theorem Dev.destageFlushIssue_single {d : Dev} {x : Destage} {port nsid : Nat} (hx : d.cache.destages = [x]) (hu : x.unflushed = [(port, nsid, false)])
    (hf : d.cache.flushes = []) (hn : (d.driveNs port nsid).isSome = true) :
    (d.destageFlushIssue port nsid).cache.flushes = [{ port := port, nsid := nsid, cmd := (d.driveCmd port nsid 5 0 0x00 0 0 (2 * d.destageClass)).1 }] ∧
      (d.destageFlushIssue port nsid).cache.destages = [{ x with unflushed := [(port, nsid, true)] }] := by
  simp [Dev.destageFlushIssue, hx, hu, hf, hn]

/-- The writes of a Flush's namespace are durable: the one attempt that it covers, and that waits for nothing else, ends as durable. -/
theorem Dev.destageFlushComplete_destage {d : Dev} {x : Destage} {v : Version} {f : DriveFlush} (hx : d.cache.destages = [x]) (hv : d.verAt x.frame = some v)
    (hu : x.unflushed = [(f.port, f.nsid, true)]) (hr : x.reading = false) (hw : x.wait = []) (hf : d.cache.flushes = [f]) (hs : vState (d.vol v.vol) ≠ 3) :
    ∃ g : Dev, d.destageFlushComplete f.port f.nsid true =
      ((g.durable x.frame).throughFlushed (· = (f.port, f.nsid, true))).heldCheck ∧ g.cache.flushes = [] := by
  set g := ((d.retireCmd f.cmd).setFlushes []).setDestages [{ x with unflushed := [] }] with hg
  have hcheck : g.destageCheck x.frame = g.durable x.frame :=
    Dev.destageCheck_single (d := g) (x := { x with unflushed := [] }) (v := v) rfl (by simpa [hg, Dev.verAt] using hv) hr hw (by simpa [hg, Dev.vol] using hs)
  refine ⟨g, ?_, rfl⟩
  simp [Dev.destageFlushComplete, hx, hu, hf, ← hg, hcheck]

/-- The one write-through that a Flush covers is acknowledged. -/
theorem Dev.destageFlushComplete_through {d : Dev} {w : HostWrite} {f : DriveFlush} (hx : d.cache.destages = []) (hw : d.cache.writes = [w])
    (hs : w.stage = 3) (hu : w.unflushed = [(f.port, f.nsid, true)]) (hf : d.cache.flushes = [f]) :
    ∃ g : Dev, d.destageFlushComplete f.port f.nsid true = (g.throughEnd { w with unflushed := [] }).heldCheck ∧ g.cache.flushes = [] := by
  refine ⟨((((d.retireCmd f.cmd).setFlushes []).setDestages []).setWrites [{ w with unflushed := [] }]), ?_, rfl⟩
  simp [Dev.destageFlushComplete, Dev.throughFlushed, hx, hw, hs, hu, hf, mapIf, Dev.writeAt]

/-! ### Drive reads (R38, R288) -/

section DriveRead
variable {d : Dev} {f : Fill} {cmd i : Nat} (hf : d.cache.fills = [f]) (hw : f.want = [(cmd, i)])
include hf hw

/-- A read that fails turns to other members. -/
theorem Dev.driveReadComplete_failed (data : List Byte) : d.driveReadComplete cmd false data = (d.retireCmd cmd).fillFail f i := by
  simp [Dev.driveReadComplete, hf, hw]

/-- The last read of a block adds its data, and its owner goes on. -/
theorem Dev.driveReadComplete_ok (data : List Byte) :
    ∃ (g : Dev) (r : Fill), d.driveReadComplete cmd true data = g.fillDone r ∧ r.want = [] ∧ r.got.length = f.got.length + 1 := by
  let r : Fill := { f with want := [], got := f.got ++ [(if vLayout (d.vol f.vol) = 3 then stripIdx (d.vol f.vol) i f.blk else 0, leNat (data.take 4096))] }
  have hvol : (d.retireCmd cmd).vol f.vol = d.vol f.vol := by rw [Dev.vol, Dev.retireCmd_cache, Dev.vol]
  refine ⟨(d.retireCmd cmd).setFills [r], r, ?_, rfl, List.length_append⟩
  simp [Dev.driveReadComplete, hf, hw, hvol, mapIf, r]

end DriveRead

end Sys2Proof.Machine
end

section
open Sys2Proof Sys2Proof.Machine

/-- Settles O44: each clause is the lemma of its command. -/
theorem cacheStepsFollowTheirRules : Obligations.CacheStepsFollowTheirRules := by
  unfold Obligations.CacheStepsFollowTheirRules
  rintro s d hp rfl
  refine ⟨?governor, ?place, ?through, ?mirror, ?destage, ?written, ?flushIssue, ?flushed, ?flushedThrough, ?adopted, ?read⟩
  case governor =>
    intro hheld hr hz w l hw
    refine ⟨fun ht => ?_, fun ht hq => ⟨_, exec_governorAdmit hp, ?_⟩⟩
    · rw [exec_governorAdmit hp, Dev.governorAdmit_of_no_room hr hw hz ht]
    · rw [Dev.governorAdmit_of_fits hr hw hz hheld ht hq]; rfl
  case place =>
    intro id b w hw hs ht hb ha hl hpool hu
    refine ⟨fun v hv hhere hst hpo hi hdo hseq => ?_, fun hv hroom hlen hfar => ?_⟩
    · have hm : s.dev.mergeInto w b = some v := by simp [Dev.mergeInto, hv, hst, hpo, hi, hdo, hseq]
      rw [exec_placeComplete hp, Dev.placeComplete_one hw hs ht hb ha hl (Dev.placeBlock_merge hm hv hpo)
        fun x hx => by rw [← Option.some.inj (hm.symm.trans hx)]; exact hhere]
      rfl
    · obtain ⟨n, hn⟩ := Option.isSome_iff_exists.1 hpool
      have hm : s.dev.mergeInto w b = none := by simp [Dev.mergeInto, hv]
      obtain ⟨f, k, c, hf, hmem, hall, hcopy, hnext⟩ := Dev.placeNew_spec (w.part b).1 (w.part b).2.1 (w.part b).2.2
        (storeGet (fun _ => 0) s.dev.cache.nextSeq (w.inst * 256 + w.dom)) (w.inst * 256 + w.dom) hroom hn (hlen n) fun hmir => hfar hmir n hn
      refine ⟨f, _, ?_, hmem, rfl, rfl, rfl, rfl, rfl, rfl, rfl, hcopy, rfl, ?_⟩
      · rw [exec_placeComplete hp, Dev.placeComplete_one hw hs ht hb ha hl (Dev.placeBlock_new hv hf hall rfl) (by simp [hm])]
      · rw [hnext, storeGet_set_same]; rfl
  case through =>
    intro id w hw hs hu hf
    have hid : w.id = id := by simpa using List.find?_some hw
    refine ⟨?_, fun hv hn b hb i hi hc => ?_, fun hv hn => ?_⟩
    · rw [exec_throughWriteComplete hp, Dev.throughComplete_failed hw hs hu hf]
    · obtain ⟨due, hdue, he⟩ := Dev.throughComplete_waits hw hs hu hf hv hn hb hi hc
      refine ⟨_, exec_throughWriteComplete hp id true, { w with unflushed := due }, ?_, hid, hs, hdue⟩
      rw [he]
      exact List.mem_map.2 ⟨w, List.mem_of_find?_eq_some hw, by simp [hid]⟩
    · refine ⟨_, by rw [exec_throughWriteComplete hp, Dev.throughComplete_fua hw hs hu hf hv hn]; rfl, fun v hv hvol hblk hst => ?_⟩
      obtain ⟨hold, hout⟩ := Dev.mem_freeVers.1 hv
      exact hout v (List.mem_filter.2 ⟨hold, by simp [hvol, hblk, hst]⟩) rfl
  case mirror =>
    refine ⟨fun hm => ?_, fun hm hu hc hmir => ⟨s.dev.modeUpdate, ?_, Dev.modeUpdate_mirrored hu hc hmir⟩⟩
    · rw [exec_mirroringComplete hp, Dev.mirroringComplete, if_neg hm]
    · rw [exec_mirroringComplete hp, Dev.mirroringComplete, if_pos hm, hu]; rfl
  case destage =>
    refine ⟨fun hoff => ?_, fun v e hon hl hh he => ⟨fun x hx hxf => ?_, fun hlow => ?_, fun hidle => ?_⟩⟩
    · rw [exec_destageIssue hp, exec_destageIdleTimer hp]
      simp [Dev.destageIssue, Dev.destageIdle, hoff]
    · rw [Dev.destageStart_versions he] at hx
      obtain ⟨y, -, rfl⟩ := List.mem_map.1 hx
      by_cases hy : y.frame = v.frame <;> simp_all
    · rw [exec_destageIssue hp, Dev.destageIssue, if_pos ⟨hon, .inl hlow⟩, Dev.destageOne_single hl hh he]
    · rw [exec_destageIdleTimer hp, Dev.destageIdle, if_pos (by simpa [hon] using hidle), Dev.destageOne_single hl hh he]
  case written =>
    intro x v cmd port ns i hx hw hv hr hu
    refine ⟨fun hfua hs => ?_, fun hn hc hheld => ⟨_, exec_destageWriteComplete hp cmd true, Dev.destageWriteComplete_waits hx hw hv hu hn hc hheld⟩, ?_⟩
    · obtain ⟨g, hg⟩ := Dev.destageWriteComplete_durable hx hw hv hr hu hfua hs
      exact ⟨g, by rw [exec_destageWriteComplete hp, hg]⟩
    · rw [exec_destageWriteComplete hp, Dev.destageWriteComplete_failed hx hw hv]
  case flushIssue =>
    intro x port nsid hport hx hu hf hn
    obtain ⟨hfl, hde⟩ := Dev.destageFlushIssue_single hx hu hf hn
    exact ⟨_, exec_destageFlushIssue hp hport nsid, ⟨_, hfl⟩, hde⟩
  case flushed =>
    rintro x v f _ _ hport hx hv hu hr hw hf rfl rfl hs
    obtain ⟨g, hg, hfl⟩ := Dev.destageFlushComplete_destage hx hv hu hr hw hf hs
    exact ⟨g, by rw [exec_destageFlushComplete hp hport, hg], hfl⟩
  case flushedThrough =>
    rintro w f _ _ hport hx hw hs hu hf rfl rfl
    obtain ⟨g, hg, hfl⟩ := Dev.destageFlushComplete_through hx hw hs hu hf
    exact ⟨g, by rw [exec_destageFlushComplete hp hport, hg], hfl⟩
  case adopted => exact ⟨_, exec_bucketRebuildComplete hp, rfl⟩
  case read =>
    intro f cmd i data hf hw
    obtain ⟨g, r, hg, hwant, hgot⟩ := Dev.driveReadComplete_ok hf hw data
    exact ⟨by rw [exec_driveReadComplete hp, Dev.driveReadComplete_failed hf hw], g, r, by rw [exec_driveReadComplete hp, hg], hwant, hgot⟩

end


section
/-! PROOFS. Fields of table entries: a field of a number or of a table entry after a write of a field, and the bytes of an entry. -/
namespace Sys2Proof.Machine
open Sys2Proof

/-! ### Fields of little-endian numbers -/

theorem pow256_eq (k : Nat) : 256 ^ k = 2 ^ (8 * k) := by rw [Nat.pow_mul]

/-- Bit `i` of a field is a bit of the number it is read from. -/
theorem testBit_fieldOf (n off len i : Nat) : (fieldOf n off len).testBit i = (decide (i < 8 * len) && n.testBit (8 * off + i)) := by
  rw [fieldOf, pow256_eq, pow256_eq, Nat.testBit_mod_two_pow, Nat.testBit_div_two_pow, Nat.add_comm]

/-- Bit `i` of a number after a write of a field: the field's bits are those written, the others stay. -/
theorem testBit_setField (n off len v i : Nat) :
    (setField n off len v).testBit i = if 8 * off ≤ i ∧ i < 8 * (off + len) then v.testBit (i - 8 * off) else n.testBit i := by
  have hlo : n % 2 ^ (8 * off) < 2 ^ (8 * off) := Nat.mod_lt _ (by positivity)
  have hmid : v % 2 ^ (8 * len) < 2 ^ (8 * len) := Nat.mod_lt _ (by positivity)
  have hsplit : setField n off len v =
      2 ^ (8 * off) * (2 ^ (8 * len) * (n / 2 ^ (8 * off) / 2 ^ (8 * len)) + v % 2 ^ (8 * len)) + n % 2 ^ (8 * off) := by
    have h1 := Nat.div_add_mod n (2 ^ (8 * off))
    have h2 := Nat.div_add_mod (n / 2 ^ (8 * off)) (2 ^ (8 * len))
    have h3 : n = 2 ^ (8 * off) * (2 ^ (8 * len) * (n / 2 ^ (8 * off) / 2 ^ (8 * len))) + n / 2 ^ (8 * off) % 2 ^ (8 * len) * 2 ^ (8 * off) + n % 2 ^ (8 * off) := by
      conv_lhs => rw [← h1, ← h2]
      ring
    rw [setField, fieldOf, pow256_eq, pow256_eq, Nat.mul_add, Nat.mul_comm (v % _)]
    omega
  have hhi : (n / 2 ^ (8 * off) / 2 ^ (8 * len)).testBit (i - 8 * off - 8 * len) = if 8 * (off + len) ≤ i then n.testBit i else
      (n / 2 ^ (8 * off) / 2 ^ (8 * len)).testBit (i - 8 * off - 8 * len) := by
    split
    · rw [Nat.testBit_div_two_pow, Nat.testBit_div_two_pow]; congr 1; omega
    · rfl
  rw [hsplit, Nat.testBit_two_pow_mul_add _ hlo, Nat.testBit_two_pow_mul_add _ hmid, Nat.testBit_mod_two_pow, Nat.testBit_mod_two_pow, hhi]
  by_cases h1 : i < 8 * off
  · simp [h1, Nat.not_le.2 h1]
  · by_cases h2 : i < 8 * (off + len)
    · have : i - 8 * off < 8 * len := by omega
      simp [h1, h2, this, Nat.not_lt.1 h1]
    · have : ¬ i - 8 * off < 8 * len := by omega
      simp [h1, h2, this, Nat.not_lt.1 h2]

/-- A field of a table entry after a write of another field. -/
theorem ent_setEnt_ne {w : Nat} (e : BitVec w) {off len off' len' : Nat} (v : Nat) (h : off' + len' ≤ off ∨ off + len ≤ off') :
    ent (setEnt e off len v) off' len' = ent e off' len' := by
  refine Nat.eq_of_testBit_eq fun i => ?_
  simp only [ent, setEnt, BitVec.toNat_ofNat, testBit_fieldOf, Nat.testBit_mod_two_pow, testBit_setField]
  by_cases hi : i < 8 * len'
  · rw [if_neg (by omega)]
    by_cases hw : 8 * off' + i < w
    · simp [hw]
    · have hb : e.toNat.testBit (8 * off' + i) = false :=
        Nat.testBit_lt_two_pow (lt_of_lt_of_le e.isLt (Nat.pow_le_pow_right (by omega) (by omega)))
      simp [hw, hb]
  · simp [hi]

/-- A part of a field that was written: that part of the value. -/
theorem ent_setEnt_part {w : Nat} (e : BitVec w) {off len off' len' : Nat} (v : Nat) (h : off ≤ off' ∧ off' + len' ≤ off + len) (hw : 8 * (off + len) ≤ w) :
    ent (setEnt e off len v) off' len' = fieldOf v (off' - off) len' := by
  refine Nat.eq_of_testBit_eq fun i => ?_
  simp only [ent, setEnt, BitVec.toNat_ofNat, testBit_fieldOf, Nat.testBit_mod_two_pow, testBit_setField]
  by_cases hi : i < 8 * len'
  · have hin : 8 * off' + i - 8 * off = 8 * (off' - off) + i := by omega
    rw [if_pos (by omega), hin, decide_eq_true (show 8 * off' + i < w by omega), Bool.true_and]
  · simp [hi]

/-- A field that was written. -/
theorem ent_setEnt_same {w : Nat} (e : BitVec w) (off len v : Nat) (hw : 8 * (off + len) ≤ w) : ent (setEnt e off len v) off len = v % 256 ^ len := by
  rw [ent_setEnt_part e v ⟨le_rfl, le_rfl⟩ hw, Nat.sub_self, fieldOf, Nat.pow_zero, Nat.div_one]

/-- A field of a field. -/
theorem fieldOf_ent {w : Nat} (e : BitVec w) (off len a b : Nat) (h : a + b ≤ len) : fieldOf (ent e off len) a b = ent e (off + a) b := by
  refine Nat.eq_of_testBit_eq fun i => ?_
  simp only [ent, testBit_fieldOf]
  by_cases hi : i < 8 * b
  · rw [decide_eq_true (show 8 * a + i < 8 * len by omega), Bool.true_and, show 8 * off + (8 * a + i) = 8 * (off + a) + i by omega]
  · simp [hi]

theorem fieldOf_div (n k a b : Nat) : fieldOf (n / 256 ^ k) a b = fieldOf n (k + a) b := by
  rw [fieldOf, fieldOf, Nat.div_div_eq_div_mul, ← Nat.pow_add]

/-! ### The bytes of an entry -/

@[simp] theorem length_leBytes (n : Nat) : ∀ v, (leBytes n v).length = n := by
  induction n with
  | zero => exact fun _ => rfl
  | succ n ih => exact fun v => by rw [leBytes, List.length_cons, ih]

/-- The number of the low bytes of a number. -/
theorem leNat_leBytes (n : Nat) : ∀ v, leNat (leBytes n v) = v % 256 ^ n := by
  induction n with
  | zero => exact fun v => (Nat.mod_one v).symm
  | succ n ih =>
    intro v
    have hsplit : v % 256 ^ (n + 1) = v % 256 + 256 * (v / 256 % 256 ^ n) := by rw [Nat.pow_succ', Nat.mod_mul]
    rw [leBytes, leNat, ih, hsplit, BitVec.toNat_ofNat]

/-- The bytes of one entry are one entry, at its position. -/
theorem entriesOf_one {w k v : Nat} (hw : 0 < w) : entriesOf w (w * k) (leBytes w v) = some [(k, v % 256 ^ w)] := by
  have hlen : (leBytes w v).length = w := length_leBytes w v
  have hne : leBytes w v ≠ [] := fun h => by rw [h] at hlen; exact hw.ne hlen
  simp [entriesOf, hne, hlen, Nat.div_self hw, Nat.mul_div_cancel_left k hw, chunks, List.take_of_length_le hlen.le, leNat_leBytes]

/-- Bytes that are no whole number of entries are none. -/
theorem entriesOf_ragged {w off : Nat} {data : List Byte} (h : data.length % w ≠ 0) : entriesOf w off data = none := by
  simp [entriesOf, h]

/-- The bytes of a table entry give it back. -/
theorem ofNat_toNat_mod {w n : Nat} (e : BitVec w) (hw : w = 8 * n) : BitVec.ofNat w (e.toNat % 256 ^ n) = e := by
  rw [pow256_eq, ← hw, Nat.mod_eq_of_lt e.isLt, BitVec.ofNat_toNat, BitVec.setWidth_eq]

end Sys2Proof.Machine
end

section
/-! PROOFS. Queues, tables and programs (11_instances_and_queues.md): what each of their commands does. -/
namespace Sys2Proof.Machine
open Sys2Proof

/-! ### The commands, at a powered device -/

section Commands
variable {s : State} (h : s.Powered)
include h

theorem exec_doorbellWrite {i : Nat} (hi : i < 4096) (control : Bool) (off len v : Nat) :
    exec (.doorbellWrite i control off len v) s = .next (s.leaves (s.dev.doorbellWrite i control off len v)) :=
  act_if _ s (Dev.doorbellWrite · i control off len v) h (by simpa using hi)

theorem exec_contextQueueWatch {q : Nat} (hq : q < 16384) : exec (.contextQueueWatch q) s = .next (s.leaves (s.dev.contextWatch q)) :=
  act_if _ s (Dev.contextWatch · q) h (by simpa using hq)

theorem exec_arbitrationEpoch : exec .arbitrationEpoch s = .next (s.leaves s.dev.epoch) := act_on s Dev.epoch h

theorem exec_sqEntryFetch {q : Nat} (hq : q < 16384) : exec (.sqEntryFetch q) s = .next (s.leaves (s.dev.sqFetch q)) :=
  act_if _ s (Dev.sqFetch · q) h (by simpa using hq)

theorem exec_vectorUnmask (n addr data : Nat) (pasid : Bool) :
    exec (.vectorUnmask n addr data pasid) s = .next (s.leaves (s.dev.vectorUnmask n addr data pasid)) :=
  act_on s (Dev.vectorUnmask · n addr data pasid) h

theorem exec_volumeTableWrite (off : Nat) (data : List Byte) :
    exec (.volumeTableWrite off data) s = .next (s.leaves (s.dev.mgrBlock oVolumeTable off data)) := act_on s (Dev.mgrBlock · oVolumeTable off data) h

theorem exec_instanceTableWrite (off : Nat) (data : List Byte) :
    exec (.instanceTableWrite off data) s = .next (s.leaves (s.dev.mgrBlock oInstanceTable off data)) := act_on s (Dev.mgrBlock · oInstanceTable off data) h

theorem exec_namespaceTableWrite (off : Nat) (data : List Byte) :
    exec (.namespaceTableWrite off data) s = .next (s.leaves (s.dev.mgrBlock oNamespaceTable off data)) := act_on s (Dev.mgrBlock · oNamespaceTable off data) h

theorem exec_queueTableWrite (off : Nat) (data : List Byte) :
    exec (.queueTableWrite off data) s = .next (s.leaves (s.dev.mgrBlock oQueueTable off data)) := act_on s (Dev.mgrBlock · oQueueTable off data) h

theorem exec_programLoad {q : Nat} (hq : q < 16384) (core : BitVec 6) (image arg : List Byte) :
    exec (.programLoad q core image arg) s = .next (s.leaves (s.dev.programLoad q core.toNat image arg)) :=
  act_if _ s (Dev.programLoad · q core.toNat image arg) h (by simpa using hq)

theorem exec_programMessage {q : Nat} (hq : q < 16384) (p : List Byte) :
    exec (.programMessage q p) s = .next (s.leaves (s.dev.programMessage q p)) := act_if _ s (Dev.programMessage · q p) h (by simpa using hq)

theorem exec_programKill {q : Nat} (hq : q < 16384) : exec (.programKill q) s = .next (s.leaves (s.dev.programKill q)) :=
  act_if _ s (Dev.programKill · q) h (by simpa using hq)

end Commands

/-! ### Keyed stores of the queues and their owners -/

/-- The state of a queue after a write of the state of a queue. -/
theorem Dev.qs_setQs (d : Dev) (i j : Nat) (x : QState) : (d.setQs i x).qs j = if j = i then x else d.qs j := by
  simp [Dev.qs, storeGet_set]

theorem Dev.qs_setIrun (d : Dev) (i j : Nat) (x : InstRun) : (d.setIrun i x).qs j = d.qs j := rfl

/-- The reset and share state of an owner after a write of one. -/
theorem Dev.irun_setIrun (d : Dev) (i j : Nat) (x : InstRun) : (d.setIrun i x).irun j = if j = i then x else d.irun j := by
  simp [Dev.irun, storeGet_set]

/-- A vector after a write of a vector. -/
theorem Dev.vec_setVec (d : Dev) (i j : Nat) (x : IntVec) : (d.setVec i x).vec j = if j = i then x else d.vec j := by
  simp [Dev.vec, storeGet_set]

@[simp] theorem Dev.setQf_qs (d : Dev) (q off len v j : Nat) : (d.setQf q off len v).qs j = d.qs j := rfl

/-- A queue descriptor that is made LIVE reads LIVE. -/
theorem qState_live (e : BitVec 512) : qState (setEnt e 3 1 1) = 1 := ent_setEnt_same e 3 1 1 (by decide)

/-- An interrupt changes no queue. -/
@[simp] theorem Dev.interruptCtx_insts (d : Dev) (c detail : Nat) : (d.interruptCtx c detail).insts = d.insts := by
  unfold Dev.interruptCtx
  split
  · rfl
  · split <;> rfl

/-- The interrupt of a program queue's doorbell changes no queue. -/
@[simp] theorem Dev.programDoorbell_insts (d : Dev) (q : Nat) : (d.programDoorbell q).insts = d.insts := by
  unfold Dev.programDoorbell
  split <;> simp

/-! ### Doorbells (R263, R264, R266) -/

/-- Queue `q`, LIVE where it was IDLE. -/
def Dev.wakeQueue (d : Dev) (q : Nat) : Dev := if qState (d.q q) = 0 then d.setQf q 3 1 1 else d

/-- A queue not in ERROR is LIVE once it has been woken. -/
theorem Dev.qState_wakeQueue {d : Dev} {q : Nat} (h : qState (d.q q) < 2) : qState ((d.wakeQueue q).q q) = 1 := by
  unfold Dev.wakeQueue
  split
  · rw [Dev.setQf, Dev.q_setQ, if_pos rfl, qState_live]
  · omega

/-- A queue not in ERROR that takes new tails or heads is LIVE and holds them. -/
theorem Dev.wakeQueue_setQs {d : Dev} {q : Nat} (h : qState (d.q q) < 2) (x : QState) :
    ((((d.wakeQueue q).setQs q x).programDoorbell q).qs q) = x ∧ qState ((((d.wakeQueue q).setQs q x).programDoorbell q).q q) = 1 := by
  refine ⟨by simp [Dev.qs], ?_⟩
  rw [Dev.q, Dev.programDoorbell_insts]
  exact Dev.qState_wakeQueue h

/-- A new SQ tail in range (R264). -/
theorem Dev.sqDoorbell_ok {d : Dev} {q v : Nat} (hs : qState (d.q q) < 2) (hv : v < qSqEntries (d.q q)) :
    ((d.sqDoorbell q v).qs q).sqTail = v ∧ qState ((d.sqDoorbell q v).q q) = 1 := by
  rw [Dev.sqDoorbell, if_neg (Nat.not_le.2 hv)]
  obtain ⟨hx, hl⟩ := Dev.wakeQueue_setQs hs { d.qs q with sqTail := v, doorbell := (d.qs q).doorbell || (d.wakeQueue q).quiet }
  exact ⟨congrArg QState.sqTail hx, hl⟩

/-- A new CQ head among the posted entries. -/
theorem Dev.cqDoorbell_ok {d : Dev} {q v : Nat} (hv : v < qCqEntries (d.q q)) (hh : headOk (qCqEntries (d.q q)) (d.qs q).cqHead (d.qs q).cqTail v = true) :
    ((d.cqDoorbell q v).qs q).cqHead = v := by
  rw [Dev.cqDoorbell, if_neg (by simp [hv, hh]), Dev.qs_setQs, if_pos rfl]

/-- A doorbell write of four bytes reaches the SQ tail or the CQ head of its slot. -/
theorem Dev.doorbellWrite_one {d : Dev} {i slot v : Nat} (cq : Bool) (hi : i < 4096) (hs : slot < 512) (hv : v < 2 ^ 32) (hsup : d.sup = 2)
    (hhalt : d.halted = false) (hvst : d.vst < 5) (hiso : d.isolated uHost = false) :
    d.doorbellWrite i false (8 * slot + if cq then 4 else 0) 4 v = d.doorbell1 i (slot, cq, v) false := by
  have hparts : doorbellParts (8 * slot + if cq then 4 else 0) 4 v = some [(slot, cq, v)] := by
    cases cq <;> simp [doorbellParts] <;> omega
  have hoff : ¬ 4096 ≤ 8 * slot + (if cq then 4 else 0) := by split <;> omega
  rw [Dev.doorbellWrite, if_neg (by simp [hsup, hhalt, hiso]; omega)]
  simp [hoff, hparts]

section Doorbell
variable {d : Dev} {i slot v : Nat} (cq : Bool) (hs : 0 < slot) (hst : d.instState i = 1) (hrun : (d.irun i).step = 0)
include hs hst hrun

/-- A doorbell of no queue is counted as ignored. -/
theorem Dev.doorbell1_none (hq : d.queueAt i slot 0 = none) : d.doorbell1 i (slot, cq, v) false = d.inc oDoorbellErrors := by
  simp [Dev.doorbell1, hst, hrun, hs.ne', hq, Dev.doorbellIgnored]

/-- A doorbell of a queue that is not in ERROR reaches it. -/
theorem Dev.doorbell1_some {q : Nat} (hq : d.queueAt i slot 0 = some q) (hlive : qState (d.q q) < 2) :
    d.doorbell1 i (slot, cq, v) false = if cq then d.cqDoorbell q v else d.sqDoorbell q v := by
  simp [Dev.doorbell1, hst, hrun, hs.ne', hq, hlive.ne]

end Doorbell

section Watch
variable {d : Dev} {q : Nat} (hk : 2 ≤ qKind (d.q q)) (hl : qLoc (d.q q) = 1) (hs : qState (d.q q) < 2) (hi : d.instState (qInst (d.q q)) = 1)
  (hr : (d.irun (qInst (d.q q))).step = 0)
include hk hl hs hi hr

/-- A watch whose line is not resident waits for it. -/
theorem Dev.contextWatch_missing {f : Dev} (hf : d.fwMissing (qOwner (d.q q)) (qSqBase (d.q q) - 64) = some f) : d.contextWatch q = f := by
  rw [Dev.contextWatch, if_neg (by simp [hl, hs.ne, hi, hr]; omega), hf]

/-- The tail and head that a watch reads, in range. -/
theorem Dev.contextWatch_ok (hf : d.fwMissing (qOwner (d.q q)) (qSqBase (d.q q) - 64) = none)
    (ht : leNat (d.fwLoad (qOwner (d.q q)) (qSqBase (d.q q) - 64) 4) < qSqEntries (d.q q))
    (hh : leNat (d.fwLoad (qOwner (d.q q)) (qSqBase (d.q q) - 60) 4) < qCqEntries (d.q q))
    (hok : headOk (qCqEntries (d.q q)) (d.qs q).cqHead (d.qs q).cqTail (leNat (d.fwLoad (qOwner (d.q q)) (qSqBase (d.q q) - 60) 4)) = true) :
    ((d.contextWatch q).qs q).sqTail = leNat (d.fwLoad (qOwner (d.q q)) (qSqBase (d.q q) - 64) 4) ∧
      ((d.contextWatch q).qs q).cqHead = leNat (d.fwLoad (qOwner (d.q q)) (qSqBase (d.q q) - 60) 4) ∧ qState ((d.contextWatch q).q q) = 1 := by
  have heq : d.contextWatch q = ((d.wakeQueue q).setQs q { d.qs q with
      sqTail := leNat (d.fwLoad (qOwner (d.q q)) (qSqBase (d.q q) - 64) 4), cqHead := leNat (d.fwLoad (qOwner (d.q q)) (qSqBase (d.q q) - 60) 4),
      doorbell := (d.qs q).doorbell || (d.wakeQueue q).quiet }).programDoorbell q := by
    rw [Dev.contextWatch, if_neg (by simp [hl, hs.ne, hi, hr]; omega), hf]
    exact if_neg (by simp [ht, hh, hok])
  obtain ⟨hx, hlive⟩ := Dev.wakeQueue_setQs hs { d.qs q with
      sqTail := leNat (d.fwLoad (qOwner (d.q q)) (qSqBase (d.q q) - 64) 4), cqHead := leNat (d.fwLoad (qOwner (d.q q)) (qSqBase (d.q q) - 60) 4),
      doorbell := (d.qs q).doorbell || (d.wakeQueue q).quiet }
  rw [heq]
  exact ⟨congrArg QState.sqTail hx, congrArg QState.cqHead hx, hlive⟩

/-- A tail out of range is an error of the queue. -/
theorem Dev.contextWatch_bad (hf : d.fwMissing (qOwner (d.q q)) (qSqBase (d.q q) - 64) = none)
    (ht : qSqEntries (d.q q) ≤ leNat (d.fwLoad (qOwner (d.q q)) (qSqBase (d.q q) - 64) 4)) : d.contextWatch q = d.queueError q := by
  rw [Dev.contextWatch, if_neg (by simp [hl, hs.ne, hi, hr]; omega), hf]
  exact if_pos (.inl ht)

end Watch

/-! ### Arbitration and fetches (R270, R271) -/

/-- The epoch of one live owner whose share does not change: the epoch is counted, and its credits are its share (R270). -/
theorem Dev.epoch_one {d : Dev} (hn : d.now % 10 = 0) (hl : d.liveInsts = [0]) (hp : (d.irun 0).pendingShare = none) :
    d.epoch = ((d.inc oEpochCount 64).setIrun 0 { d.irun 0 with credits := ent (d.inst 0) 8 2, pendingShare := none }).rejudge.throughKick := by
  have hlive : (d.inc oEpochCount 64).liveInsts = [0] := hl
  have hrun : ((d.inc oEpochCount 64).irun 0).pendingShare = none := hp
  rw [Dev.epoch, if_neg (not_not.2 hn)]
  simp only [hlive, List.foldl_cons, List.foldl_nil, hrun]
  rfl

/-- The entry size of queue `q` (R266). -/
def Dev.entrySize (d : Dev) (q : Nat) : Nat := if qKind (d.q q) = 2 ∧ kindOf (qBinding (d.q q)) ≠ 0x09 then 128 else 64

/-- Where the next entry of queue `q` lies. -/
def Dev.entryAt (d : Dev) (q : Nat) : Nat := qSqBase (d.q q) + d.entrySize q * (d.qs q).sqHead

/-- The state of queue `q` after a fetch. -/
def Dev.fetched (d : Dev) (q : Nat) : QState :=
  { d.qs q with
    sqHead := if (d.qs q).sqHead + 1 = qSqEntries (d.q q) then 0 else (d.qs q).sqHead + 1, outstanding := (d.qs q).outstanding + 1, doorbell := false,
    got := if qLoc (d.q q) = 1 ∧ qKind (d.q q) = 2 then (d.qs q).got ++ [leNat (d.fwLoad (qOwner (d.q q)) (d.entryAt q) (d.entrySize q))] else (d.qs q).got }

/-- The device after a fetch from queue `q`, but for the turn that a host queue takes. -/
def Dev.fetchDev (d : Dev) (q : Nat) : Dev :=
  (if qLoc (d.q q) = 0 then (d.noteRequest (qInst (d.q q))).emit .hostRead [qInst (d.q q), d.entryAt q, d.entrySize q, d.pasid (qInst (d.q q))] else d).setQs q (d.fetched q)

theorem Dev.fetchDev_qs (d : Dev) (q : Nat) : (d.fetchDev q).qs q = d.fetched q := by rw [Dev.fetchDev, Dev.qs_setQs, if_pos rfl]

/-- A fetch takes no credit of its own. -/
theorem Dev.fetchDev_credits (d : Dev) (q i : Nat) : ((d.fetchDev q).irun i).credits = (d.irun i).credits := by
  have hnote : ((d.noteRequest (qInst (d.q q))).irun i).credits = (d.irun i).credits := by
    rw [Dev.noteRequest, Dev.irun_setIrun]
    split
    · rename_i h; rw [h]
    · rfl
  unfold Dev.fetchDev
  split
  · exact hnote
  · rfl

/-- The share state of the owner of host queue `q` after the fetch: a credit is taken, and the turn is the queue's. -/
def Dev.turnTaken (d : Dev) (q : Nat) : InstRun :=
  let x := d.irun (qInst (d.q q))
  { (d.fetchDev q).irun (qInst (d.q q)) with credits := x.credits - 1, lastQ := q, burst := if q = x.lastQ then x.burst + 1 else 1 }

/-- A queue with an entry is fetched from while its ring is resident; a host queue when it is its turn and its owner has a credit, which it takes (R271). -/
theorem Dev.sqFetch_pending {d : Dev} {q : Nat} (hsup : d.sup = 2) (hq : d.quiet = false) (hh : d.halted = false) (hp : d.sqPending q = true)
    (hhold : qLoc (d.q q) = 0 → d.restore.hold = false) (hm : qLoc (d.q q) ≠ 0 → d.fwMissing (qOwner (d.q q)) (d.entryAt q) = none)
    (hturn : qKind (d.q q) = 1 → ¬ (d.irun (qInst (d.q q))).credits = 0 ∧ d.classTurn (qInst (d.q q)) = true ∧ d.queueTurn (qInst (d.q q)) q = true ∧
      d.isolated uHost = false) :
    d.sqFetch q = if qKind (d.q q) = 1 then (d.fetchDev q).setIrun (qInst (d.q q)) (d.turnTaken q) else d.fetchDev q := by
  have hopen : d.restore.hold = true → ¬ qLoc (d.q q) = 0 := fun h hl => by simp [hhold hl] at h
  have hnone : (if qLoc (d.q q) = 0 then none else d.fwMissing (qOwner (d.q q)) (d.entryAt q)) = none := ite_eq_left_iff.2 hm
  simp only [Dev.entryAt, Dev.entrySize] at hnone
  rw [Dev.sqFetch, if_neg (by simpa [hp, hq, hh, hsup] using ⟨hopen, hturn⟩)]
  simp only [hnone]
  rfl

/-! ### Vectors (R269) -/

/-- A vector that is not masked, while the host port issues completions, is left with none pending. -/
theorem Dev.vecKick_vec {d : Dev} {n : Nat} (hm : (d.vec n).mask = false) (ho : 2048 ≤ n ∨ d.insts.msix = true) (hh : d.hostHeld = false) :
    (d.vecKick n).vec n = { d.vec n with pending := false } := by
  by_cases hp : (d.vec n).pending = true
  · have hopen : n < 2048 → d.insts.msix = true := fun h => ho.resolve_left (Nat.not_le.2 h)
    rw [Dev.vecKick, if_neg (by simpa [hp, hm, hh] using hopen)]
    dsimp only
    split
    · exact (Dev.vec_setVec d n n _).trans (if_pos rfl)
    · exact (Dev.vec_setVec d n n _).trans (if_pos rfl)
  · rw [Dev.vecKick, if_pos (.inl (by simpa using hp))]
    cases hx : d.vec n
    simp_all

/-- A vector that is unmasked while the host port issues completions holds its message, and none is pending any more. -/
theorem Dev.vectorUnmask_vec {d : Dev} {n addr data : Nat} (pasid : Bool) (hn : n < 8192) (ha : addr < 2 ^ 64) (hd : data < 2 ^ 32) (hh : d.hostHeld = false)
    (hm : 2048 ≤ n ∨ d.insts.msix = true) :
    (d.vectorUnmask n addr data pasid).vec n = { addr := addr, data := data, mask := false, pending := false, pasid := pasid && decide (2048 ≤ n) } := by
  set x : IntVec := { d.vec n with addr := addr % 2 ^ 64, data := data % 2 ^ 32, mask := false, pasid := pasid && decide (2048 ≤ n) } with hx
  have hvec : (d.setVec n x).vec n = x := by rw [Dev.vec_setVec, if_pos rfl]
  rw [Dev.vectorUnmask, if_neg (Nat.not_le.2 hn), ← hx, Dev.vecKick_vec (d := d.setVec n x) (by rw [hvec]) hm hh, hvec, hx, Nat.mod_eq_of_lt ha, Nat.mod_eq_of_lt hd]

/-! ### Programs (R268) -/

/-- While firmware does not serve a program queue, its commands change nothing. -/
theorem Dev.program_unserved {d : Dev} {q : Nat} (h : d.fwServes q = false) (core : Nat) (image arg payload : List Byte) :
    d.programLoad q core image arg = d ∧ d.programKill q = d ∧ d.programMessage q payload = d := by
  simp [Dev.programLoad, Dev.programKill, Dev.programMessage, h]

section Program
variable {d : Dev} {q : Nat} (h : d.fwServes q = true)
include h

/-- A load is refused where the queue has a context, or its owner may not load programs. -/
theorem Dev.programLoad_refused (core : Nat) (image arg : List Byte)
    (hno : qBinding (d.q q) ≠ 0xFFFF ∨ bit (ent (d.inst (qInst (d.q q))) 0x0B 1) 1 = false) : d.programLoad q core image arg = d.loadRefused q 2 := by
  rw [Dev.programLoad, if_neg (by simp [h])]
  exact if_pos (by rcases hno with hno | hno <;> simp [hno])

section Allowed
variable (hb : qBinding (d.q q) = 0xFFFF) (hmay : bit (ent (d.inst (qInst (d.q q))) 0x0B 1) 1 = true)
  (hroom : ent (d.inst (qInst (d.q q))) 0x1E 2 < ent (d.inst (qInst (d.q q))) 0x1C 2) (hfree : d.freeContexts ≠ [])
include hb hmay hroom hfree

/-- A load of bytes that are no image is refused. -/
theorem Dev.programLoad_bad_image (core : Nat) {image : List Byte} (arg : List Byte) (hi : parseElf image = none) :
    d.programLoad q core image arg = d.loadRefused q 1 := by
  simp [Dev.programLoad, h, hb, hmay, hroom, hfree, hi]

/-- An image that asks for no scratch and finds its frames is loaded, bound to its context, and reported. -/
theorem Dev.programLoad_ok {core : Nat} {image arg : List Byte} {el : Elf} {f : Dev} {c : Nat} (hi : parseElf image = some el) (ha : arg.length ≤ 65536)
    (hs : el.scratch = 0) (hc : c = listGet 0 d.freeContexts (Config.contextNo d.free % d.freeContexts.length))
    (hf : ({ d with free := d.free + 1 } : Dev).loadImage c q core el image arg = some f) (hp : f.pageList.length ≤ pageListMax) :
    d.programLoad q core image arg = (f.setQf q 0x20 2 c).postProg q 4 0 c 0 0 0 0 := by
  have hctx : ({ d with free := d.free + 1 } : Dev).ctx = d.ctx := rfl
  have hsame : ({ d with free := d.free + 1 } : Dev).freeContexts = d.freeContexts := by rw [Dev.freeContexts, hctx, Dev.freeContexts]
  rw [Dev.programLoad, if_neg (by simp [h])]
  dsimp only
  rw [if_neg (by simp [hb, hmay, hroom, hfree]), hi]
  dsimp only
  rw [if_neg (Nat.not_lt.2 ha), if_neg (by simp [hs])]
  simp only [Dev.fresh, hsame, ← hc, hf]
  exact if_neg (Nat.not_lt.2 hp)

end Allowed

section Bound
variable (hc : qBinding (d.q q) < 1024)
include hc

/-- A kill ends the context of the queue. -/
theorem Dev.programKill_bound : d.programKill q = d.endCtx (qBinding (d.q q)) 0x03 0 0 0 := by
  simp [Dev.programKill, h, hc]

/-- A message to a bound queue waits for an inbox that cannot be read. -/
theorem Dev.programMessage_missing {f : Dev} (hf : d.inboxMissing q = some f) (p : List Byte) : d.programMessage q p = f := by
  rw [Dev.programMessage, if_neg (by simp [h, hc]), hf]

/-- A message to a bound queue is copied into an inbox that can be read while more than one entry is free. -/
theorem Dev.programMessage_inbox (hf : d.inboxMissing q = none) (p : List Byte) : d.programMessage q p =
    if d.inboxFree q ≤ 1 then d else d.inboxPut q (leBytes 1 1 ++ List.replicate 7 0 ++ (p ++ List.replicate 56 0).take 56) := by
  rw [Dev.programMessage, if_neg (by simp [h, hc]), hf]

end Bound
end Program

/-! ### Writes of a table (R36, R256, R259, R265) -/

section TableWrite
variable {d : Dev} {o size off : Nat} {data : List Byte} (hrow : (objRow o).map (·.size) = some size) (hs : d.supAway = false)
include hrow hs

/-- In a vault sequence no table is written (R91). -/
theorem Dev.mgrBlock_closed (hc : d.writesClosed = true) : d.mgrBlock o off data = d.tableReply 4 uChip := by
  obtain ⟨row, hrow, -⟩ := Option.map_eq_some_iff.1 hrow
  simp [Dev.mgrBlock, hrow, hs, hc]
  rfl

variable (hc : d.writesClosed = false)
include hc

/-- A write that the table refuses for its value answers so. -/
theorem Dev.mgrBlock_bad (hb : d.applyBig o off data = some (badValue d uChip)) : d.mgrBlock o off data = d.tableReply 3 uChip := by
  obtain ⟨row, hrow, -⟩ := Option.map_eq_some_iff.1 hrow
  simp only [Dev.mgrBlock, hrow, hs, hc, hb]
  by_cases hfit : data.length = 0 ∨ 4096 < data.length ∨ row.size < off + data.length
  · simp only [if_pos hfit]; rfl
  · simp only [if_neg hfit]; rfl

/-- A write within the table that it takes is counted and answered with success. -/
theorem Dev.mgrBlock_ok {e : Dev} (hlen : 0 < data.length) (hmax : data.length ≤ 4096) (hin : off + data.length ≤ size)
    (hb : d.applyBig o off data = some (okR e)) : d.mgrBlock o off data = (e.noteChange o).tableReply 0 0xFFFF := by
  obtain ⟨row, hrow, hsize⟩ := Option.map_eq_some_iff.1 hrow
  have hfit : ¬ (data.length = 0 ∨ 4096 < data.length ∨ row.size < off + data.length) := by omega
  simp only [Dev.mgrBlock, hrow, hs, hc, hb, if_neg hfit]
  rfl

end TableWrite

theorem objRow_volumeTable : (objRow oVolumeTable).map (·.size) = some 8388608 := by decide +kernel
theorem objRow_instanceTable : (objRow oInstanceTable).map (·.size) = some 262144 := by decide +kernel
theorem objRow_namespaceTable : (objRow oNamespaceTable).map (·.size) = some 262144 := by decide +kernel
theorem objRow_queueTable : (objRow oQueueTable).map (·.size) = some 1048576 := by decide +kernel

theorem Dev.applyBig_volumeTable (d : Dev) (off : Nat) (data : List Byte) : d.applyBig oVolumeTable off data = some (d.fxVolumeTable off data) := rfl
theorem Dev.applyBig_instanceTable (d : Dev) (off : Nat) (data : List Byte) : d.applyBig oInstanceTable off data = some (d.fxInstanceTable off data) := rfl
theorem Dev.applyBig_namespaceTable (d : Dev) (off : Nat) (data : List Byte) : d.applyBig oNamespaceTable off data = some (d.fxNamespaceTable off data) := rfl
theorem Dev.applyBig_queueTable (d : Dev) (off : Nat) (data : List Byte) : d.applyBig oQueueTable off data = some (d.fxQueueTable off data) := rfl

/-- Bytes that are no whole number of any table's entries are refused by each table. -/
theorem Dev.applyBig_ragged (d : Dev) (off : Nat) {data : List Byte} (h : data.length % 16 ≠ 0) :
    ∀ o ∈ [oVolumeTable, oInstanceTable, oNamespaceTable, oQueueTable], d.applyBig o off data = some (badValue d uChip) := by
  have hv : entriesOf 2048 off data = none := entriesOf_ragged (by omega)
  have hi : entriesOf 64 off data = none := entriesOf_ragged (by omega)
  have hn : entriesOf 16 off data = none := entriesOf_ragged h
  intro o ho
  simp only [List.mem_cons, List.not_mem_nil, or_false] at ho
  rcases ho with rfl | rfl | rfl | rfl
  · rw [Dev.applyBig_volumeTable, Dev.fxVolumeTable, hv]
  · rw [Dev.applyBig_instanceTable, Dev.fxInstanceTable, hi]
  · rw [Dev.applyBig_namespaceTable, Dev.fxNamespaceTable, hn]
  · rw [Dev.applyBig_queueTable, Dev.fxQueueTable, hi]

/-- A command that writes a table is refused in a vault sequence, and with bytes that are no whole number of entries. -/
theorem tableWrite_refused {s : State} {c : Instr} {o size off : Nat} {data : List Byte} (hs : s.dev.supAway = false)
    (hrow : (objRow o).map (·.size) = some size) (ho : o ∈ [oVolumeTable, oInstanceTable, oNamespaceTable, oQueueTable])
    (hc : exec c s = .next (s.leaves (s.dev.mgrBlock o off data))) :
    (s.dev.writesClosed = true → exec c s = .next (s.leaves (s.dev.tableReply 4 uChip))) ∧
      (s.dev.writesClosed = false → data.length % 16 ≠ 0 → exec c s = .next (s.leaves (s.dev.tableReply 3 uChip))) :=
  ⟨fun h => by rw [hc, Dev.mgrBlock_closed hrow hs h], fun h hr => by rw [hc, Dev.mgrBlock_bad hrow hs h (s.dev.applyBig_ragged off hr o ho)]⟩

/-- The reply to a write of a table is the last output. -/
theorem Dev.tableReply_answers (d : Dev) (st u : Nat) : (d.tableReply st u).Answers 6 st u := by
  simp [Dev.tableReply, Dev.Answers]

/-- Counting a change and answering it change no table. -/
theorem Dev.insts_done (d : Dev) (o st u : Nat) : ((d.noteChange o).tableReply st u).insts = d.insts := rfl

/-! ### What NVMe completions and events leave alone -/

/-- The volumes, the entries of namespaces, owners and queues, and the rest of the cache are as they were. -/
structure Dev.KeepsTables (d e : Dev) : Prop where
  cache : e.cache = d.cache
  ns : e.insts.ns = d.insts.ns
  table : e.insts.table = d.insts.table
  queues : e.insts.queues = d.insts.queues

theorem Dev.KeepsTables.refl (d : Dev) : d.KeepsTables d := ⟨rfl, rfl, rfl, rfl⟩

theorem Dev.KeepsTables.trans {d e f : Dev} (h : d.KeepsTables e) (h' : e.KeepsTables f) : d.KeepsTables f :=
  ⟨h'.cache.trans h.cache, h'.ns.trans h.ns, h'.table.trans h.table, h'.queues.trans h.queues⟩

theorem Dev.hostPost_keepsTables (d : Dev) (inst gen : Nat) (k : OutKind) (args : List Nat) (data : List Byte) :
    d.KeepsTables (d.hostPost inst gen k args data) := by
  unfold Dev.hostPost
  split
  · exact ⟨rfl, rfl, rfl, rfl⟩
  · split <;> exact ⟨rfl, rfl, rfl, rfl⟩

theorem Dev.vector_keepsTables (d : Dev) (i v : Nat) : d.KeepsTables (d.vector i v) := by
  unfold Dev.vector
  split
  · dsimp only
    split <;> exact ⟨rfl, rfl, rfl, rfl⟩
  · exact .refl d

theorem Dev.queueVector_keepsTables (d : Dev) (i : Nat) : d.KeepsTables (d.queueVector i) := by
  unfold Dev.queueVector
  dsimp only
  split
  · exact .refl d
  · exact d.vector_keepsTables _ _

theorem Dev.setQs_keepsTables (d : Dev) (i : Nat) (x : QState) : d.KeepsTables (d.setQs i x) := ⟨rfl, rfl, rfl, rfl⟩

theorem Dev.KeepsTables.signal {d e : Dev} (h : d.KeepsTables e) (i : Nat) (irq : Bool) : d.KeepsTables (if irq then e.queueVector i else e) := by
  split
  · exact h.trans (e.queueVector_keepsTables i)
  · exact h

/-- A completion entry in a ring in host memory, or of a store that keeps the tables. -/
theorem Dev.postCq_keepsTables (d : Dev) (i size gen : Nat) (entry : List Byte) {put : Dev → Nat → Nat → List Byte → Dev} (irq : Bool)
    (hput : ∀ (d : Dev) (c va : Nat) (l : List Byte), d.KeepsTables (put d c va l)) : d.KeepsTables (d.postCq i size gen entry put 0 irq) := by
  unfold Dev.postCq
  dsimp only
  split
  · exact ⟨rfl, rfl, rfl, rfl⟩
  · split
    · rw [if_neg (by simp)]
      exact ((hput _ _ _ _).trans (hput _ _ _ _)).trans ⟨rfl, rfl, rfl, rfl⟩
    · refine .signal (.trans ?_ (Dev.setQs_keepsTables ..)) i irq
      split
      · exact d.hostPost_keepsTables ..
      · exact (d.hostPost_keepsTables ..).trans (Dev.hostPost_keepsTables ..)

theorem Dev.nvmeDone_keepsTables (d : Dev) (q cid status result : Nat) : d.KeepsTables (d.nvmeDone q cid status result) := by
  unfold Dev.nvmeDone
  dsimp only
  refine .trans ?_ (Dev.postCq_keepsTables _ _ _ _ _ _ fun d _ _ _ => .refl d)
  split <;> exact ⟨rfl, rfl, rfl, rfl⟩

theorem Dev.aen_keepsTables (d : Dev) (i dw0 : Nat) : d.KeepsTables (d.aen i dw0) := by
  unfold Dev.aen
  dsimp only
  split
  · refine .trans ?_ (Dev.nvmeDone_keepsTables ..)
    exact ⟨rfl, rfl, rfl, rfl⟩
  · split <;> exact ⟨rfl, rfl, rfl, rfl⟩

theorem Dev.nsChanged_keepsTables (d : Dev) (i nsid : Nat) : d.KeepsTables (d.nsChanged i nsid) := by
  unfold Dev.nsChanged
  dsimp only
  split
  · refine .trans ?_ (Dev.aen_keepsTables ..)
    exact ⟨rfl, rfl, rfl, rfl⟩
  · exact ⟨rfl, rfl, rfl, rfl⟩

/-! ### The volume table (R36) -/

theorem Dev.vol_setVol (d : Dev) (v u : Nat) (e : BitVec 16384) : (d.setVol v e).vol u = if u = v then e else d.vol u := by
  simp [Dev.vol, storeGet_set]

section LowFields
variable {off len : Nat} (hlow : off + len ≤ 0x12)
include hlow

/-- Deriving the state of a volume leaves the fields of its descriptor below VolumeState. -/
theorem Dev.volUpdate_low (d : Dev) (v : Nat) : ent ((d.volUpdate v).vol v) off len = ent (d.vol v) off len := by
  unfold Dev.volUpdate
  dsimp only
  split
  · rfl
  · have hkeep (e : Dev) (l : List (BitVec 128)) : (l.foldl (fun e n => e.nsChanged (nsInst n) (nsId n)) e).cache = e.cache :=
      List.foldlRecOn l _ (motive := fun x : Dev => x.cache = e.cache) rfl fun x hx n _ => ((x.nsChanged_keepsTables _ _).cache).trans hx
    rw [Dev.vol, hkeep, Dev.record_cache]
    exact (congrArg (ent · off len) ((d.vol_setVol v v _).trans (if_pos rfl))).trans (ent_setEnt_ne _ _ (.inl hlow))

/-- A member's state leaves the fields of the descriptor below VolumeState. -/
theorem Dev.setMember_low (d : Dev) (v i st : Nat) : ent ((d.setMember v i st).vol v) off len = ent (d.vol v) off len := by
  rw [Dev.setMember, Dev.volUpdate_low hlow, Dev.vol_setVol, if_pos rfl, ent_setEnt_ne _ _ (.inl (by omega))]

/-- A volume that is created holds the fields of its descriptor below VolumeState. -/
theorem Dev.volCreate_low (d : Dev) (v : Nat) (e : BitVec 16384) : ent ((d.volCreate v e).vol v) off len = ent e off len := by
  unfold Dev.volCreate
  refine List.foldlRecOn _ _ (motive := fun x : Dev => ent (x.vol v) off len = ent e off len) ?_ fun x hx i _ => (x.setMember_low hlow v i _).trans hx
  rw [Dev.volUpdate_low hlow, Dev.vol_setVol, if_pos rfl]

variable (hhigh : 2 ≤ off)
include hhigh

/-- Merging takes the fields of a descriptor between VolumeId and VolumeState from what was written. -/
theorem volMerge_low (cur e : BitVec 16384) : ent (volMerge cur e) off len = ent e off len := by
  unfold volMerge
  refine List.foldlRecOn _ _ (motive := fun x : BitVec 16384 => ent x off len = ent e off len) ?_ fun x hx i _ => ?_
  · rw [ent_setEnt_ne _ _ (.inl hlow), ent_setEnt_ne _ _ (.inr hhigh)]
  · rw [ent_setEnt_ne _ _ (.inl (by omega)), hx]

end LowFields

/-- A descriptor written to an unused entry, which meets Table 2.1, creates its volume with its Layout and CapacityBlocks. -/
theorem Dev.volWrite_create {d : Dev} {k : Nat} {e : BitVec 16384} (hcur : vLayout (d.vol k) = 0) (he : vLayout e ≠ 0)
    (hok : d.volOk (volBare (volMerge (d.vol k) e)) = true) :
    ∃ f : Dev, d.volWrite k e = some f ∧ vLayout (f.vol k) = vLayout e ∧ vCap (f.vol k) = vCap e := by
  have hlow {off len : Nat} (h : off + len ≤ 0x12) (h2 : 2 ≤ off) :
      ent (setEnt (volBare (volMerge (d.vol k) e)) 0 2 k) off len = ent e off len := by
    rw [ent_setEnt_ne _ _ (.inr h2), volBare, volMerge_low h h2, volMerge_low h h2]
  refine ⟨d.volCreate k (setEnt (volBare (volMerge (d.vol k) e)) 0 2 k), ?_, ?_, ?_⟩
  · have hm : vLayout (volMerge (d.vol k) e) ≠ 0 := by rw [vLayout, volMerge_low (by decide) (by decide)]; exact he
    simp only [Dev.volWrite, if_neg hm, if_pos hcur, if_pos hok]
  · exact (d.volCreate_low (by decide) k _).trans (hlow (by decide) (by decide))
  · exact (d.volCreate_low (by decide) k _).trans (hlow (by decide) (by decide))

/-- One descriptor written to the volume table. -/
theorem Dev.fxVolumeTable_one {d f : Dev} {off k n : Nat} {data : List Byte} (he : entriesOf 2048 off data = some [(k, n)]) (hk : k < 4096)
    (hf : d.volWrite k (BitVec.ofNat 16384 n) = some f) : d.fxVolumeTable off data = okR (f.rejudge.throughKick.readKick) := by
  rw [Dev.fxVolumeTable, he]
  dsimp only [List.foldl_cons, List.foldl_nil, Option.bind_some]
  rw [if_pos hk, hf]

/-! ### The table of owners (R256) -/

theorem Dev.inst_setInst (d : Dev) (i off len v : Nat) : (d.setInst i off len v).inst i = setEnt (d.inst i) off len v := by
  simp [Dev.inst, storeMod]

/-- An entry written while its owner is FREE gives its shares and quotas. -/
theorem Dev.instEntryWrite_free {d : Dev} {k : Nat} {e : BitVec 512} (h : ent (d.inst k) 2 1 = 0) :
    ent ((d.instEntryWrite k e).inst k) 8 2 = ent e 8 2 ∧ ent ((d.instEntryWrite k e).inst k) 0x0C 4 = ent e 0x0C 4 ∧
      ent ((d.instEntryWrite k e).inst k) 0x10 4 = ent e 0x10 4 ∧ ent ((d.instEntryWrite k e).inst k) 0x14 2 = ent e 0x14 2 := by
  have hquotas : ent e 8 12 / 2 ^ 32 = ent e 8 12 / 256 ^ 4 := rfl
  rw [Dev.instEntryWrite, if_pos h]
  simp only [Dev.inst_setInst, hquotas]
  refine ⟨?_, ?_, ?_, ?_⟩ <;> simp (disch := omega) only [ent_setEnt_ne, ent_setEnt_part, fieldOf_div, fieldOf_ent]

/-- One entry written to the table of owners. -/
theorem Dev.fxInstanceTable_one {d : Dev} {off k n : Nat} {data : List Byte} (he : entriesOf 64 off data = some [(k, n)]) (hk : k < 4096)
    (hok : d.instEntryOk k (BitVec.ofNat 512 n) = true) :
    d.fxInstanceTable off data = okR ((d.instEntryWrite k (BitVec.ofNat 512 n)).rejudge.throughKick) := by
  rw [Dev.fxInstanceTable, he]
  dsimp only [List.foldl_cons, List.foldl_nil, Option.bind_some]
  rw [if_pos ⟨hk, hok⟩]

/-! ### The namespace table (R259) -/

theorem Dev.nsChanged_nsEntry (d : Dev) (i nsid k : Nat) : (d.nsChanged i nsid).nsEntry k = d.nsEntry k := by
  rw [Dev.nsEntry, (d.nsChanged_keepsTables i nsid).ns, Dev.nsEntry]

/-- A used namespace entry holds what was written. -/
theorem Dev.nsEntryWrite_nsEntry (d : Dev) (k : Nat) {e : BitVec 128} (he : nsId e ≠ 0) : (d.nsEntryWrite k e).nsEntry k = e := by
  have hset : ({ d with insts := { d.insts with ns := storeSet nsDefault d.insts.ns k e } } : Dev).nsEntry k = e := by simp [Dev.nsEntry]
  unfold Dev.nsEntryWrite
  dsimp only
  rw [if_neg he]
  split
  · rename_i hold
    exact hold.symm
  · split <;> split <;> simp only [Dev.nsChanged_nsEntry, hset]

/-- One entry written to the namespace table. -/
theorem Dev.fxNamespaceTable_one {d : Dev} {off k n : Nat} {data : List Byte} (he : entriesOf 16 off data = some [(k, n)]) (hk : k < 16384)
    (hok : d.nsEntryOk k (BitVec.ofNat 128 n) = true) : d.fxNamespaceTable off data = okR (d.nsEntryWrite k (BitVec.ofNat 128 n)) := by
  rw [Dev.fxNamespaceTable, he]
  dsimp only [List.foldl_cons, List.foldl_nil, Option.bind_some]
  rw [if_pos ⟨hk, hok⟩]

/-! ### The queue table (R265) -/

theorem Dev.q_setQs (d : Dev) (i k : Nat) (x : QState) : (d.setQs i x).q k = d.q k := rfl

/-- Recounting the queue pairs of an owner writes its count. -/
theorem Dev.recount_insts (d : Dev) (i : Nat) : (d.recount i).insts = (d.setInst i 0x16 2 (d.queuesOf i).length).insts :=
  (Dev.s_insts _ _ _).trans (Dev.s_insts _ _ _)

theorem Dev.q_recount (d : Dev) (i k : Nat) : (d.recount i).q k = d.q k := by rw [Dev.q, Dev.recount_insts, Dev.setInst_insts, Dev.q]

theorem Dev.qs_recount (d : Dev) (i k : Nat) : (d.recount i).qs k = d.qs k := by rw [Dev.qs, Dev.recount_insts, Dev.setInst_insts, Dev.qs]

/-- A used queue descriptor is LIVE, with its heads and tails 0. -/
theorem Dev.queueEntryWrite_q (d : Dev) (k : Nat) {e : BitVec 512} (he : qKind e ≠ 0) :
    (d.queueEntryWrite k e).q k = setEnt e 3 1 1 ∧ (d.queueEntryWrite k e).qs k = {} := by
  rw [Dev.queueEntryWrite, if_neg he, if_neg he]
  constructor
  · rw [Dev.q_recount, Dev.q_setQs, Dev.q_setQ, if_pos rfl]
  · rw [Dev.qs_recount, Dev.qs_setQs, if_pos rfl]

/-- One descriptor written to the queue table. -/
theorem Dev.fxQueueTable_one {d : Dev} {off k n : Nat} {data : List Byte} (he : entriesOf 64 off data = some [(k, n)]) (hk : k < 16384)
    (hok : d.queueEntryOk k (BitVec.ofNat 512 n) = true) : d.fxQueueTable off data = okR (d.queueEntryWrite k (BitVec.ofNat 512 n)) := by
  rw [Dev.fxQueueTable, he]
  dsimp only [List.foldl_cons, List.foldl_nil, Option.bind_some]
  rw [if_pos ⟨hk, hok⟩]


/-! ### One entry of each table, written -/

section OneEntry
variable {d : Dev} {k : Nat} (hs : d.supAway = false) (hc : d.writesClosed = false)
include hs hc

/-- One new descriptor of the volume table. -/
theorem Dev.mgrBlock_volumeTable {e : BitVec 16384} (hk : k < 4096) (hcur : vLayout (d.vol k) = 0) (he : vLayout e ≠ 0)
    (hok : d.volOk (volBare (volMerge (d.vol k) e)) = true) :
    ∃ f : Dev, d.mgrBlock oVolumeTable (2048 * k) (leBytes 2048 e.toNat) =
        ((f.rejudge.throughKick.readKick).noteChange oVolumeTable).tableReply 0 0xFFFF ∧
      vLayout (f.vol k) = vLayout e ∧ vCap (f.vol k) = vCap e := by
  obtain ⟨f, hf, hfields⟩ := Dev.volWrite_create hcur he hok
  have hlen : (leBytes 2048 e.toNat).length = 2048 := length_leBytes ..
  have hone : d.fxVolumeTable (2048 * k) (leBytes 2048 e.toNat) = okR (f.rejudge.throughKick.readKick) :=
    Dev.fxVolumeTable_one (entriesOf_one (by decide)) hk (by rw [ofNat_toNat_mod e rfl, hf])
  refine ⟨f, Dev.mgrBlock_ok objRow_volumeTable hs hc (by omega) (by omega) (by omega) ?_, hfields⟩
  rw [Dev.applyBig_volumeTable, hone]

/-- One entry of the table of owners. -/
theorem Dev.mgrBlock_instanceTable {e : BitVec 512} (hk : k < 4096) (hok : d.instEntryOk k e = true) :
    d.mgrBlock oInstanceTable (64 * k) (leBytes 64 e.toNat) =
      (((d.instEntryWrite k e).rejudge.throughKick).noteChange oInstanceTable).tableReply 0 0xFFFF := by
  have hlen : (leBytes 64 e.toNat).length = 64 := length_leBytes ..
  have he : BitVec.ofNat 512 (e.toNat % 256 ^ 64) = e := ofNat_toNat_mod e rfl
  have hone := Dev.fxInstanceTable_one (d := d) (entriesOf_one (w := 64) (k := k) (v := e.toNat) (by decide)) hk (he.symm ▸ hok)
  rw [he] at hone
  refine Dev.mgrBlock_ok objRow_instanceTable hs hc (by omega) (by omega) (by omega) ?_
  rw [Dev.applyBig_instanceTable, hone]

/-- One entry of the namespace table. -/
theorem Dev.mgrBlock_namespaceTable {e : BitVec 128} (hk : k < 16384) (hok : d.nsEntryOk k e = true) :
    d.mgrBlock oNamespaceTable (16 * k) (leBytes 16 e.toNat) = ((d.nsEntryWrite k e).noteChange oNamespaceTable).tableReply 0 0xFFFF := by
  have hlen : (leBytes 16 e.toNat).length = 16 := length_leBytes ..
  have he : BitVec.ofNat 128 (e.toNat % 256 ^ 16) = e := ofNat_toNat_mod e rfl
  have hone := Dev.fxNamespaceTable_one (d := d) (entriesOf_one (w := 16) (k := k) (v := e.toNat) (by decide)) hk (he.symm ▸ hok)
  rw [he] at hone
  refine Dev.mgrBlock_ok objRow_namespaceTable hs hc (by omega) (by omega) (by omega) ?_
  rw [Dev.applyBig_namespaceTable, hone]

/-- One descriptor of the queue table. -/
theorem Dev.mgrBlock_queueTable {e : BitVec 512} (hk : k < 16384) (hok : d.queueEntryOk k e = true) :
    d.mgrBlock oQueueTable (64 * k) (leBytes 64 e.toNat) = ((d.queueEntryWrite k e).noteChange oQueueTable).tableReply 0 0xFFFF := by
  have hlen : (leBytes 64 e.toNat).length = 64 := length_leBytes ..
  have he : BitVec.ofNat 512 (e.toNat % 256 ^ 64) = e := ofNat_toNat_mod e rfl
  have hone := Dev.fxQueueTable_one (d := d) (entriesOf_one (w := 64) (k := k) (v := e.toNat) (by decide)) hk (he.symm ▸ hok)
  rw [he] at hone
  refine Dev.mgrBlock_ok objRow_queueTable hs hc (by omega) (by omega) (by omega) ?_
  rw [Dev.applyBig_queueTable, hone]

end OneEntry

end Sys2Proof.Machine
end

section
open Sys2Proof Sys2Proof.Machine

/-- Settles O47: each clause is the lemma of its command. -/
theorem queuesTablesAndPrograms : Obligations.QueuesTablesAndPrograms := by
  unfold Obligations.QueuesTablesAndPrograms
  rintro s d hp rfl
  refine ⟨?doorbell, ?watch, ?epoch, ?fetch, ?vector, ?tables, ?programs⟩
  case doorbell =>
    intro i q slot v hi hs0 hs hv hsup hhalt hvst hiso hst hrun
    have hsq : exec (.doorbellWrite i false (8 * slot) 4 v) s = .next (s.leaves (s.dev.doorbell1 i (slot, false, v) false)) := by
      rw [exec_doorbellWrite hp hi, ← Dev.doorbellWrite_one false hi hs hv hsup hhalt hvst hiso]; rfl
    have hcq : exec (.doorbellWrite i false (8 * slot + 4) 4 v) s = .next (s.leaves (s.dev.doorbell1 i (slot, true, v) false)) := by
      rw [exec_doorbellWrite hp hi, ← Dev.doorbellWrite_one true hi hs hv hsup hhalt hvst hiso]; rfl
    refine ⟨fun hq => ?_, fun hq hlive => ⟨fun hin => ?_, fun hout => ?_, fun hin hok => ?_⟩⟩
    · rw [hsq, Dev.doorbell1_none false hs0 hst hrun hq]
    · rw [Dev.doorbell1_some false hs0 hst hrun hq hlive] at hsq
      exact ⟨_, hsq, Dev.sqDoorbell_ok hlive hin⟩
    · rw [hsq, Dev.doorbell1_some false hs0 hst hrun hq hlive, if_neg Bool.false_ne_true, Dev.sqDoorbell, if_pos hout]
    · rw [Dev.doorbell1_some true hs0 hst hrun hq hlive] at hcq
      exact ⟨_, hcq, Dev.cqDoorbell_ok hin hok⟩
  case watch =>
    intro q t h hq hk hl hs hi hr
    refine ⟨fun f hf => ?_, ?_⟩
    · rw [exec_contextQueueWatch hp hq, Dev.contextWatch_missing hk hl hs hi hr hf]
    · rintro hf rfl rfl
      refine ⟨fun ht hh hok => ⟨_, exec_contextQueueWatch hp hq, Dev.contextWatch_ok hk hl hs hi hr hf ht hh hok⟩, fun ht => ?_⟩
      rw [exec_contextQueueWatch hp hq, Dev.contextWatch_bad hk hl hs hi hr hf ht]
  case epoch =>
    refine ⟨fun hn => ?_, fun hn hl hpend => ⟨_, by rw [exec_arbitrationEpoch hp, Dev.epoch_one hn hl hpend], ?_, ?_⟩⟩
    · rw [exec_arbitrationEpoch hp, Dev.epoch, if_pos hn]
    · rw [Dev.irun_setIrun, if_pos rfl]
    · exact Dev.g_s_same _ _ _
  case fetch =>
    rintro q _ hq rfl hsup hquiet hhalt
    refine ⟨fun hno => ?_, fun hpend hk hl hhold hc hclass hturn hiso => ?_, fun hpend hk hhold at_ size hsize hat hm => ?_⟩
    · rw [exec_sqEntryFetch hp hq, Dev.sqFetch, if_pos (.inl (by simp [hno]))]
    · have hf := Dev.sqFetch_pending hsup hquiet hhalt hpend (fun _ => hhold) (fun h => absurd hl h) fun _ => ⟨hc.ne', hclass, hturn, hiso⟩
      rw [if_pos hk] at hf
      refine ⟨_, by rw [exec_sqEntryFetch hp hq, hf], ?_⟩
      dsimp only
      rw [Dev.qs_setIrun, Dev.irun_setIrun, if_pos rfl, Dev.fetchDev_qs]
      exact ⟨rfl, rfl, rfl, rfl⟩
    · have hf := Dev.sqFetch_pending hsup hquiet hhalt hpend hhold (fun h => by subst hat hsize; exact hm h) fun h => absurd h hk
      rw [if_neg hk] at hf
      refine ⟨_, by rw [exec_sqEntryFetch hp hq, hf], ?_⟩
      dsimp only
      rw [Dev.fetchDev_credits, Dev.fetchDev_qs]
      subst hat hsize
      exact ⟨rfl, rfl, rfl, fun hl1 hk2 => if_pos ⟨hl1, hk2⟩⟩
  case vector =>
    intro n addr data pasid ha hd
    refine ⟨fun hn => ?_, fun hn hh hm => ⟨_, exec_vectorUnmask hp n addr data pasid, ?_⟩⟩
    · rw [exec_vectorUnmask hp, Dev.vectorUnmask, if_pos hn]
    · dsimp only
      rw [Dev.vectorUnmask_vec pasid hn ha hd hh hm]
      exact ⟨rfl, rfl, rfl, rfl⟩
  case tables =>
    intro hs off data
    refine ⟨?refused, fun hopen k => ⟨?volumes, ?owners, ?namespaces, ?queues⟩⟩
    case refused =>
      intro c hc
      simp only [List.mem_cons, List.not_mem_nil, or_false] at hc
      rcases hc with rfl | rfl | rfl | rfl
      · exact tableWrite_refused hs objRow_volumeTable (by decide) (exec_volumeTableWrite hp off data)
      · exact tableWrite_refused hs objRow_instanceTable (by decide) (exec_instanceTableWrite hp off data)
      · exact tableWrite_refused hs objRow_namespaceTable (by decide) (exec_namespaceTableWrite hp off data)
      · exact tableWrite_refused hs objRow_queueTable (by decide) (exec_queueTableWrite hp off data)
    case volumes =>
      rintro e hk rfl rfl hcur he hok
      obtain ⟨f, hf, hfields⟩ := Dev.mgrBlock_volumeTable hs hopen hk hcur he hok
      exact ⟨f, by rw [exec_volumeTableWrite hp, hf], hfields⟩
    case owners =>
      rintro e hk rfl rfl hok hfree
      exact ⟨_, by rw [exec_instanceTableWrite hp, Dev.mgrBlock_instanceTable hs hopen hk hok], Dev.instEntryWrite_free hfree⟩
    case namespaces =>
      rintro e hk rfl rfl hok hid
      have hdone := exec_namespaceTableWrite hp (16 * k) (leBytes 16 e.toNat)
      rw [Dev.mgrBlock_namespaceTable hs hopen hk hok] at hdone
      refine ⟨_, hdone, ?_, Dev.tableReply_answers ..⟩
      rw [Dev.nsEntry, Dev.insts_done]
      exact s.dev.nsEntryWrite_nsEntry k hid
    case queues =>
      rintro e hk rfl rfl hok hkind
      have hdone := exec_queueTableWrite hp (64 * k) (leBytes 64 e.toNat)
      rw [Dev.mgrBlock_queueTable hs hopen hk hok] at hdone
      obtain ⟨hq, hqs⟩ := s.dev.queueEntryWrite_q k hkind
      refine ⟨_, hdone, ?_, ?_, Dev.tableReply_answers ..⟩
      · rw [Dev.q, Dev.insts_done]
        exact hq
      · rw [Dev.qs, Dev.insts_done]
        exact hqs
  case programs =>
    rintro q _ hq rfl
    refine ⟨fun hno => ?_, fun hserves => ⟨fun core im arg => ⟨fun href => ?_, fun hb hmay hroom hfree => ⟨fun hi => ?_, fun el f hi ha hsc hf hpl => ?_⟩⟩,
      fun hc => ⟨?_, fun p => ⟨fun f hf => ?_, fun hf => ⟨fun hfull => ?_, fun hroom => ?_⟩⟩⟩⟩⟩
    · refine ⟨fun core im arg => ?_, ?_, fun p => ?_⟩
      · rw [exec_programLoad hp hq, (Dev.program_unserved hno core.toNat im arg []).1]
      · rw [exec_programKill hp hq, (Dev.program_unserved hno 0 [] [] []).2.1]
      · rw [exec_programMessage hp hq, (Dev.program_unserved hno 0 [] [] p).2.2]
    · rw [exec_programLoad hp hq, Dev.programLoad_refused hserves core.toNat im arg href]
    · rw [exec_programLoad hp hq, Dev.programLoad_bad_image hserves hb hmay hroom hfree core.toNat arg hi]
    · rw [exec_programLoad hp hq, Dev.programLoad_ok hserves hb hmay hroom hfree hi ha hsc rfl hf hpl]
    · rw [exec_programKill hp hq, Dev.programKill_bound hserves hc]
    · rw [exec_programMessage hp hq, Dev.programMessage_missing hserves hc hf]
    · rw [exec_programMessage hp hq, Dev.programMessage_inbox hserves hc hf, if_pos hfull]
    · rw [exec_programMessage hp hq, Dev.programMessage_inbox hserves hc hf, if_neg (Nat.not_le.2 hroom)]

end

section
/-! PROOFS. The bank and its charger (03_energy_reserve.md): the dirty ceiling (R75, R93) and the polls of the charger (R66). -/
namespace Sys2Proof.Machine
open Sys2Proof

/-! ### The commands, at a powered device -/

theorem exec_ceilingCompute {s : State} (h : s.Powered) {mean : Nat} (hm : mean < 65536) :
    exec (.ceilingCompute mean) s = .next (s.leaves (s.dev.ceilingCompute mean)) :=
  act_if _ s (Dev.ceilingCompute · mean) h (by simpa using hm)

theorem exec_chargerPoll {s : State} (h : s.Powered) (answered : Bool) :
    exec (.chargerPoll answered) s = .next (s.leaves (s.dev.chargerPoll answered)) := act_on s (Dev.chargerPoll · answered) h

/-! ### Bits of a number -/

/-- The bit that was set. -/
theorem testBit_setBit_same (n i : Nat) (b : Bool) : (setBit n i b).testBit i = b := by
  unfold setBit
  split
  next h => exact h
  next h =>
    cases b with
    | true => rw [if_pos rfl, Nat.add_comm, Nat.testBit_two_pow_add_eq, Bool.eq_false_of_not_eq_true h]; rfl
    | false =>
      have hn := Nat.testBit_two_pow_add_eq (n - 2 ^ i) i
      rw [Nat.add_sub_cancel' (Nat.ge_two_pow_of_testBit (Bool.eq_true_of_not_eq_false h)), Bool.eq_true_of_not_eq_false h] at hn
      simpa using hn.symm

/-- A bit below the one that was set. -/
theorem testBit_setBit_lt (n : Nat) {i j : Nat} (b : Bool) (h : j < i) : (setBit n i b).testBit j = n.testBit j := by
  unfold setBit
  split
  next => rfl
  next hb =>
    cases b with
    | true => rw [if_pos rfl, Nat.add_comm, Nat.testBit_two_pow_add_gt h]
    | false =>
      have hn := Nat.testBit_two_pow_add_gt h (n - 2 ^ i)
      rw [Nat.add_sub_cancel' (Nat.ge_two_pow_of_testBit (Bool.eq_true_of_not_eq_false hb))] at hn
      exact hn.symm

theorem Dev.g_sbit_same (d : Dev) (o i : Nat) (b : Bool) : (d.sbit o i b).g o = setBit (d.g o) i b := Dev.g_s_same _ _ _

/-! ### Objects of the chip -/

/-- An object of the chip's own is told from every other one by its key. -/
theorem dkey_ne_of_chip {o o' : Nat} (hu : homeOf o = uChip) (ho : o < 0x1000000) (h : o' ≠ o) : dkey (homeOf o') o' ≠ dkey (homeOf o) o := by
  rw [hu]
  unfold dkey homeOf
  simp only [uChip, uSup, uDown, uMem, uVault]
  split_ifs <;> omega

/-! ### The charger changes no object, and of the reserve only its own two flags -/

@[simp] theorem Dev.charger_dict (d : Dev) (op : Nat) : (d.charger op).dict = d.dict := by
  unfold Dev.charger
  dsimp only
  split <;> rfl

@[simp] theorem Dev.charger_energy (d : Dev) (op : Nat) :
    (d.charger op).energy = { d.energy with charging := decide (op = 0x80) && d.mayCharge } := by
  unfold Dev.charger
  dsimp only
  split <;> rfl

@[simp] theorem Dev.chargeStart_dict (d : Dev) : d.chargeStart.dict = d.dict := by
  unfold Dev.chargeStart
  rw [Dev.charger_dict]
  dsimp only
  split
  · rfl
  · split <;> rfl

/-- A start of the charger leaves of the reserve's state all but the charger's two flags. -/
theorem Dev.chargeStart_energy (d : Dev) : ∃ c r, d.chargeStart.energy = { d.energy with charging := c, scaled := r } := by
  unfold Dev.chargeStart
  rw [Dev.charger_energy]
  dsimp only
  split
  · exact ⟨_, _, rfl⟩
  · split <;> exact ⟨_, _, rfl⟩

/-! ### The limits of the bank's voltage (R66) -/

/-- Of the objects, the check of the limits writes at most bit 3 of EnergyShortfall. -/
theorem Dev.overVoltage_dict (d : Dev) : d.overVoltage.dict = d.dict ∨ ∃ b, d.overVoltage.dict = (d.sbit oEnergyShortfall 3 b).dict := by
  unfold Dev.overVoltage
  dsimp only
  generalize (if d.g oChargeVoltage = 0 then 36000 else d.g oChargeVoltage) = limit
  split
  · split
    · exact .inl rfl
    · refine .inr ⟨true, ?_⟩
      simp [Dev.faultLive, Dev.sbit, Dev.s, Dev.g_of_dict (Dev.charger_dict d 0)]
  · split
    · refine .inr ⟨false, ?_⟩
      split
      · exact Dev.chargeStart_dict _
      · rfl
    · exact .inl rfl

theorem Dev.overVoltage_energy (d : Dev) : ∃ c r, d.overVoltage.energy = { d.energy with charging := c, scaled := r } := by
  unfold Dev.overVoltage
  dsimp only
  generalize (if d.g oChargeVoltage = 0 then 36000 else d.g oChargeVoltage) = limit
  split
  · split
    · exact ⟨_, _, rfl⟩
    · exact ⟨_, _, Dev.charger_energy _ _⟩
  · split
    · split
      · exact Dev.chargeStart_energy _
      · exact ⟨_, _, rfl⟩
    · exact ⟨_, _, rfl⟩

/-- The check of the limits writes no object but EnergyShortfall. -/
theorem Dev.overVoltage_g (d : Dev) {o : Nat} (ho : o ≠ oEnergyShortfall) : d.overVoltage.g o = d.g o := by
  obtain h | ⟨b, h⟩ := d.overVoltage_dict
  · exact Dev.g_of_dict h o
  · exact (Dev.g_of_dict h o).trans (Dev.g_s_ne _ _ _ _ (dkey_ne_of_chip (by decide) (by decide) ho))

/-- The check of the limits leaves bit 2 of EnergyShortfall alone. -/
theorem Dev.overVoltage_lost (d : Dev) : (d.overVoltage.g oEnergyShortfall).testBit 2 = (d.g oEnergyShortfall).testBit 2 := by
  obtain h | ⟨b, h⟩ := d.overVoltage_dict
  · rw [Dev.g_of_dict h]
  · rw [Dev.g_of_dict h, Dev.g_sbit_same, testBit_setBit_lt _ _ (by decide)]

/-- The device once `v` mV has been taken as the bank's voltage and checked. -/
def Dev.measured (d : Dev) (v : Nat) : Dev := (({ d with energy := { d.energy with vhold := v } }).s oBankVoltage v).overVoltage

theorem Dev.measured_vhold (d : Dev) (v : Nat) : (d.measured v).energy.vhold = v := by
  obtain ⟨c, r, h⟩ := (({ d with energy := { d.energy with vhold := v } }).s oBankVoltage v).overVoltage_energy
  rw [Dev.measured, h, Dev.s_energy]

theorem Dev.measured_cap (d : Dev) (v : Nat) : (d.measured v).energy.cap = d.energy.cap := by
  obtain ⟨c, r, h⟩ := (({ d with energy := { d.energy with vhold := v } }).s oBankVoltage v).overVoltage_energy
  rw [Dev.measured, h, Dev.s_energy]

/-- A measurement writes BankVoltage and EnergyShortfall, and no other object. -/
theorem Dev.measured_g (d : Dev) (v : Nat) {o : Nat} (hv : o ≠ oBankVoltage) (hs : o ≠ oEnergyShortfall) : (d.measured v).g o = d.g o := by
  rw [Dev.measured, Dev.overVoltage_g _ hs, Dev.g_s_ne _ _ _ _ (dkey_ne_of_chip (by decide) (by decide) hv)]
  exact Dev.g_of_dict rfl o

theorem Dev.measured_inVault (d : Dev) (v : Nat) : (d.measured v).inVault = d.inVault := by
  rw [Dev.inVault, Dev.vst, d.measured_g v (by decide) (by decide), Dev.inVault, Dev.vst]

/-! ### What the ceiling is computed from -/

/-- The results of a computation of the ceiling that come before the ceiling. -/
def bankResults : List Nat := [oFixedBytes, oCapUsed, oEnergyAvailable]

/-- Device `e` has what the ceiling of `d` is computed from: every object but `bankResults`, and the state of the reserve, the Pack, the Kennel and
the always-on part. -/
structure Dev.SameBank (d e : Dev) : Prop where
  reads : ∀ o, o ∉ bankResults → e.g o = d.g o
  aon : e.aon = d.aon
  energy : e.energy = d.energy
  pack : e.pack = d.pack
  kennel : e.kennel = d.kennel

theorem Dev.sameBank_refl (d : Dev) : d.SameBank d := ⟨fun _ _ => rfl, rfl, rfl, rfl, rfl⟩

section SameBank
variable {d e : Dev} (h : d.SameBank e)
include h

/-- A write of one of those results keeps it. -/
theorem Dev.SameBank.s {o : Nat} (ho : o ∈ bankResults) (v : Nat) : d.SameBank (e.s o v) := by
  have hchip : ∀ o ∈ bankResults, homeOf o = uChip ∧ o < 0x1000000 := by decide
  refine ⟨fun o' ho' => ?_, h.aon, h.energy, h.pack, h.kennel⟩
  rw [Dev.g_s_ne _ _ _ _ (dkey_ne_of_chip (hchip o ho).1 (hchip o ho).2 (ne_of_mem_of_not_mem ho ho').symm), h.reads o' ho']

theorem Dev.SameBank.bankTemp : e.bankTemp = d.bankTemp := by
  unfold Dev.bankTemp
  rw [h.reads oBankTempInput (by decide)]
  dsimp only
  split
  next hm =>
    have hrail : oRail oRailVoltage (16 + d.g oBankTempInput) ∉ bankResults := by
      simp [bankResults, oRail, oRailVoltage, oFixedBytes, oCapUsed, oEnergyAvailable]; omega
    rw [Dev.gr, h.reads _ hrail, ← Dev.gr]
  next => rfl

theorem Dev.SameBank.derateRatio : e.derateRatio = d.derateRatio := by
  rw [Dev.derateRatio, Dev.derates, h.bankTemp, h.energy, h.reads oDerateTable (by decide), Dev.derateRatio, Dev.derates]

theorem Dev.SameBank.capUsed : e.capUsed = d.capUsed := by
  rw [Dev.capUsed, h.derateRatio, h.energy, h.reads oCapMeasured (by decide), h.reads oAgeMargin (by decide), Dev.capUsed]

theorem Dev.SameBank.granted : e.granted = d.granted := by rw [Dev.granted, h.aon, Dev.granted]

theorem Dev.SameBank.capped : e.capped = d.capped := by
  rw [Dev.capped, h.granted, h.pack, h.reads oOpVersion (by decide), Dev.capped]

theorem Dev.SameBank.pOwn : e.pOwn = d.pOwn := by
  rw [Dev.pOwn, h.reads oDrillValid (by decide), h.reads oDrillPower (by decide), h.reads oPVaultFloor (by decide),
    h.reads oPVaultDefault (by decide), Dev.pOwn]

theorem Dev.SameBank.pe : e.pe = d.pe := by
  rw [Dev.pe, Dev.pUsed, h.capped, h.pOwn, h.reads oGrantPower (by decide), h.reads oMargin (by decide), Dev.pe, Dev.pUsed]

theorem Dev.SameBank.bOwn : e.bOwn = d.bOwn := by
  rw [Dev.bOwn, Dev.usableLuns, h.kennel, h.reads oDrillValid (by decide), h.reads oDrillRate (by decide), h.reads oBVaultDefault (by decide),
    Dev.bOwn, Dev.usableLuns]

theorem Dev.SameBank.bUsed : e.bUsed = d.bUsed := by
  rw [Dev.bUsed, h.capped, h.bOwn, h.reads oGrantCap (by decide), Dev.bUsed]

theorem Dev.SameBank.vFloor : e.vFloor = d.vFloor := by
  rw [Dev.vFloor, h.pe, h.reads oVMin (by decide), h.reads oEsrMeasured (by decide), Dev.vFloor]

theorem Dev.SameBank.bankEnergy (c v floor : Nat) : e.bankEnergy c v floor = d.bankEnergy c v floor := by
  rw [Dev.bankEnergy, h.reads oEfficiency (by decide), Dev.bankEnergy]

theorem Dev.SameBank.sense (i : Nat) : e.sense i = d.sense i := by
  rw [Dev.sense, Dev.gb, h.reads oSenseInputs (by decide), Dev.sense, Dev.gb]

theorem Dev.SameBank.eAvail (v : Nat) : e.eAvail v = d.eAvail v := by
  rw [Dev.eAvail, h.granted, h.pack, h.sense, h.bankEnergy, h.capUsed, h.vFloor, h.reads oGrantEnergy (by decide), Dev.eAvail]

end SameBank

/-- The ceiling depends on what `SameBank` keeps, and on fixed_bytes. -/
theorem Dev.SameBank.ceilingAt {d e f : Dev} (he : d.SameBank e) (hf : d.SameBank f) (hfx : e.g oFixedBytes = f.g oFixedBytes) (v : Nat) :
    e.ceilingAt v = f.ceilingAt v := by
  rw [Dev.ceilingAt, Dev.tTotal, Dev.tFixedEff, he.eAvail, he.bUsed, he.pe, hfx, he.reads oERetainMin (by decide), he.reads oTFixed (by decide),
    Dev.ceilingAt, Dev.tTotal, Dev.tFixedEff, hf.eAvail, hf.bUsed, hf.pe, hf.reads oERetainMin (by decide), hf.reads oTFixed (by decide)]

/-! ### The computation of the ceiling (R75, R93) -/

/-- The device with the fixed_bytes that a computation of the ceiling uses: computed outside a vault sequence, kept within one. -/
def Dev.planned (d : Dev) : Dev := if d.inVault then d else d.s oFixedBytes d.fixedBytes

/-- The device with the results of a computation of the ceiling at a bank voltage of `v` mV, before arming is evaluated. -/
def Dev.delivered (d : Dev) (v : Nat) : Dev :=
  let e := (d.planned.s oCapUsed (min (2 ^ 32 - 1) d.planned.capUsed)).s oEnergyAvailable (min (2 ^ 32 - 1) (d.planned.eAvail v / 1000))
  e.s oDirtyCeilingBlocks (min (2 ^ 32 - 1) (e.ceilingAt v))

theorem Dev.planned_g_fixedBytes (d : Dev) : d.planned.g oFixedBytes = if d.inVault then d.g oFixedBytes else d.fixedBytes := by
  unfold Dev.planned
  split
  · rfl
  · exact Dev.g_s_same _ _ _

theorem Dev.sameBank_planned (d : Dev) : d.SameBank d.planned := by
  unfold Dev.planned
  split
  · exact d.sameBank_refl
  · exact d.sameBank_refl.s (by decide) _

theorem Dev.planned_cache (d : Dev) : d.planned.cache = d.cache := by
  unfold Dev.planned
  split
  · rfl
  · exact Dev.s_cache _ _ _

theorem Dev.delivered_cache (d : Dev) (v : Nat) : (d.delivered v).cache = d.cache := by
  rw [Dev.delivered, Dev.s_cache, Dev.s_cache, Dev.s_cache, d.planned_cache]

theorem Dev.delivered_energy (d : Dev) (v : Nat) : (d.delivered v).energy = d.energy := by
  rw [Dev.delivered, Dev.s_energy, Dev.s_energy, Dev.s_energy, d.sameBank_planned.energy]

/-- Without a predicted ceiling, arming is evaluated on the results at the voltage last measured. -/
theorem Dev.recompute_of_measured {d : Dev} (h : d.energy.cap.predicted = false) : d.recompute = (d.delivered d.energy.vhold).armEvaluate := by
  have hp : d.planned.energy.cap.predicted = false := by rw [d.sameBank_planned.energy, h]
  rw [Dev.recompute, Dev.delivered, ← Dev.planned]
  simp only [Dev.s_energy, hp, Bool.false_eq_true, false_and, if_false]

/-- What a computation of the ceiling delivers, with the fixed_bytes that it uses. -/
theorem Dev.delivered_results {d : Dev} {fx : Nat} (hfx : d.planned.g oFixedBytes = fx) (v : Nat) :
    (d.delivered v).g oFixedBytes = fx ∧ (d.delivered v).g oCapUsed = min (2 ^ 32 - 1) d.capUsed ∧
      (d.delivered v).g oEnergyAvailable = min (2 ^ 32 - 1) (d.eAvail v / 1000) ∧
      (d.delivered v).g oDirtyCeilingBlocks = min (2 ^ 32 - 1) ((d.s oFixedBytes fx).ceilingAt v) := by
  have hplan := d.sameBank_planned
  unfold Dev.delivered
  rw [hplan.capUsed, hplan.eAvail]
  refine ⟨?fixed, ?used, ?available, ?ceiling⟩
  case fixed => rw [Dev.g_s_ne _ _ _ _ (by decide), Dev.g_s_ne _ _ _ _ (by decide), Dev.g_s_ne _ _ _ _ (by decide), hfx]
  case used => rw [Dev.g_s_ne _ _ _ _ (by decide), Dev.g_s_ne _ _ _ _ (by decide), Dev.g_s_same]
  case available => rw [Dev.g_s_ne _ _ _ _ (by decide), Dev.g_s_same]
  case ceiling =>
    rw [Dev.g_s_same, ((hplan.s _ _).s _ _).ceilingAt (d.sameBank_refl.s _ fx)]
    · rw [Dev.g_s_ne _ _ _ _ (by decide), Dev.g_s_ne _ _ _ _ (by decide), hfx, Dev.g_s_same]
    all_goals decide

/-- CEILING_COMPUTE measures the bank's voltage, which is 0 without an input, and computes the ceiling from it. -/
theorem Dev.ceilingCompute_eq {d : Dev} {mean v : Nat} (hm : mean < 65536) (hv : v = if (d.sense 0).isSome then mean else 0)
    (hp : d.energy.cap.predicted = false) : d.ceilingCompute mean = ((d.measured v).delivered v).armEvaluate := by
  have hcomp : d.ceilingCompute mean = (d.measured v).recompute := by
    rw [Dev.ceilingCompute, Nat.min_eq_left (by omega), ← hv, Dev.measured]
  rw [hcomp, Dev.recompute_of_measured (by rw [d.measured_cap, hp]), d.measured_vhold]

/-- The fixed_bytes of that computation: kept within a vault sequence, computed outside one. -/
theorem Dev.planned_measured (d : Dev) (v : Nat) :
    (d.measured v).planned.g oFixedBytes = if d.inVault then d.g oFixedBytes else (d.measured v).fixedBytes := by
  rw [Dev.planned_g_fixedBytes, d.measured_inVault, d.measured_g v (by decide) (by decide)]

/-! ### The polls of the charger (R66) -/

section Poll
variable {d : Dev} (ha : d.g oChargerAddress ≠ 0) (hm : d.mayCharge = true)
include ha hm

/-- An answered poll ends the loss of the charger. -/
theorem Dev.chargerPoll_answered : (d.chargerPoll true).energy.missed = 0 ∧ ((d.chargerPoll true).g oEnergyShortfall).testBit 2 = false := by
  unfold Dev.chargerPoll
  dsimp only
  rw [if_neg (by simp [ha, hm]), if_pos rfl]
  generalize hp : Dev.unlive _ 18 = p
  have hmissed : p.energy.missed = 0 := by rw [← hp]; rfl
  have hbit : (p.g oEnergyShortfall).testBit 2 = false := by rw [← hp, Dev.g_unlive, Dev.g_sbit_same, testBit_setBit_same]
  have hover : p.overVoltage.energy.missed = 0 := by
    obtain ⟨c, r, he⟩ := p.overVoltage_energy
    rw [he, hmissed]
  split
  · obtain ⟨c, r, he⟩ := p.overVoltage.chargeStart_energy
    rw [he, Dev.g_of_dict (Dev.chargeStart_dict _), p.overVoltage_lost]
    exact ⟨hover, hbit⟩
  · exact ⟨hover, p.overVoltage_lost.trans hbit⟩

/-- The third poll in a row without an answer loses the charger. -/
theorem Dev.chargerPoll_third (h : d.energy.missed = 2) :
    (d.chargerPoll false).energy.missed = 3 ∧ ((d.chargerPoll false).g oEnergyShortfall).testBit 2 = true ∧ (d.chargerPoll false).Raised 18 := by
  unfold Dev.chargerPoll
  dsimp only
  rw [if_neg (by simp [ha, hm]), if_neg Bool.false_ne_true, if_pos (by simp [h])]
  refine ⟨?missed, ?bit, ?raised⟩
  case missed => simp [Dev.faultLive, Dev.sbit, h]
  case bit => rw [Dev.faultLive, Dev.g_raise, Dev.g_sbit_same, testBit_setBit_same]
  case raised => exact ⟨_, List.mem_append_right _ (List.mem_singleton_self _), rfl⟩

/-- Any other poll without an answer is only counted. -/
theorem Dev.chargerPoll_unanswered (h : d.energy.missed ≠ 2) :
    (d.chargerPoll false).energy.missed = d.energy.missed + 1 ∧ (d.chargerPoll false).g oEnergyShortfall = d.g oEnergyShortfall := by
  unfold Dev.chargerPoll
  dsimp only
  rw [if_neg (by simp [ha, hm]), if_neg Bool.false_ne_true, if_neg (by simpa using h)]
  exact ⟨rfl, rfl⟩

end Poll

end Sys2Proof.Machine
end

section
open Sys2Proof Sys2Proof.Machine

/-- Settles O40: the ceiling by what its computation delivers, and each kind of poll by its lemma. -/
theorem ceilingAndCharger : Obligations.CeilingAndCharger := by
  unfold Obligations.CeilingAndCharger
  rintro s d hp rfl
  refine ⟨?ceiling, ?polls⟩
  case ceiling =>
    intro mean hmean v hv hpred
    obtain ⟨hfixed, hused, havail, hceil⟩ := Dev.delivered_results (s.dev.planned_measured v) v
    refine ⟨s.dev.measured v, (s.dev.measured v).delivered v, _, rfl, rfl, hfixed, hused, havail, hceil, Dev.delivered_cache _ v,
      Dev.delivered_energy _ v, ?_⟩
    rw [exec_ceilingCompute hp hmean, Dev.ceilingCompute_eq hmean hv hpred]
  case polls =>
    intro ha hm
    exact ⟨⟨_, exec_chargerPoll hp true, Dev.chargerPoll_answered ha hm⟩,
      fun hthird => ⟨_, exec_chargerPoll hp false, Dev.chargerPoll_third ha hm hthird⟩,
      fun hother => ⟨_, exec_chargerPoll hp false, Dev.chargerPoll_unanswered ha hm hother⟩⟩

end

section
/-! PROOFS. What the operations that a vault sequence uses leave alone (04_vault_sequence.md). -/
namespace Sys2Proof.Machine
open Sys2Proof

/-! ### The run of the vault sequence -/

/-- What a vault sequence goes by is as it was: the always-on part, its run, the Kennel, the restore, the cache, the occurrences raised, and VaultState. -/
structure Dev.KeepsRun (d e : Dev) : Prop where
  aon : e.aon = d.aon
  vault : e.vault = d.vault
  kennel : e.kennel = d.kennel
  restore : e.restore = d.restore
  cache : e.cache = d.cache
  faultQ : e.faultQ = d.faultQ
  vst : e.vst = d.vst

theorem Dev.KeepsRun.refl (d : Dev) : d.KeepsRun d := ⟨rfl, rfl, rfl, rfl, rfl, rfl, rfl⟩

theorem Dev.KeepsRun.trans {d e f : Dev} (h : d.KeepsRun e) (h' : e.KeepsRun f) : d.KeepsRun f :=
  ⟨h'.aon.trans h.aon, h'.vault.trans h.vault, h'.kennel.trans h.kennel, h'.restore.trans h.restore, h'.cache.trans h.cache, h'.faultQ.trans h.faultQ,
    h'.vst.trans h.vst⟩

theorem Dev.KeepsRun.foldl {α : Type} {f : Dev → α → Dev} (h : ∀ (d : Dev) a, d.KeepsRun (f d a)) (l : List α) (d : Dev) : d.KeepsRun (l.foldl f d) :=
  List.foldlRecOn l f (motive := d.KeepsRun) (.refl d) fun _ hx a _ => hx.trans (h _ a)

theorem Dev.KeepsRun.ite {p : Prop} [Decidable p] {d e f : Dev} (he : d.KeepsRun e) (hf : d.KeepsRun f) : d.KeepsRun (if p then e else f) := by
  split
  · exact he
  · exact hf

/-- A further step that is taken in one case only. -/
theorem Dev.KeepsRun.andIf {p : Prop} [Decidable p] {d e f : Dev} (he : d.KeepsRun e) (hf : e.KeepsRun f) : d.KeepsRun (if p then f else e) :=
  .ite (he.trans hf) he

/-- A further step that is not taken. -/
theorem Dev.KeepsRun.skip {p : Prop} [Decidable p] {d e f : Dev} (hp : ¬ p) (he : d.KeepsRun e) : d.KeepsRun (if p then f else e) := by
  rw [if_neg hp]
  exact he

/-- Whatever changes neither objects nor what the sequence goes by keeps it. -/
theorem Dev.KeepsRun.of_dict {d e : Dev} (hdict : e.dict = d.dict) (haon : e.aon = d.aon := by rfl) (hvault : e.vault = d.vault := by rfl)
    (hkennel : e.kennel = d.kennel := by rfl) (hrestore : e.restore = d.restore := by rfl) (hcache : e.cache = d.cache := by rfl)
    (hq : e.faultQ = d.faultQ := by rfl) : d.KeepsRun e :=
  ⟨haon, hvault, hkennel, hrestore, hcache, hq, Dev.g_of_dict hdict _⟩

theorem Dev.emit_keepsRun (d : Dev) (k : OutKind) (a : List Nat) (b : List Byte) : d.KeepsRun (d.emit k a b) := .of_dict rfl

theorem Dev.record_keepsRun (d : Dev) (code sev unit p0 p1 p2 p3 : Nat) : d.KeepsRun (d.record code sev unit p0 p1 p2 p3) :=
  .of_dict (by simp) (by simp) (by simp) (by simp) (by simp) (by simp) (by simp)

theorem Dev.unlive_keepsRun (d : Dev) (n : Nat) : d.KeepsRun (d.unlive n) := .of_dict rfl

/-- A write of another object than VaultState. -/
theorem Dev.su_keepsRun (d : Dev) {u o : Nat} (v : Nat) (h : dkey (homeOf oVaultState) oVaultState ≠ dkey u o) : d.KeepsRun (d.su u o v) :=
  ⟨rfl, rfl, rfl, rfl, rfl, rfl, by rw [Dev.vst, Dev.g, Dev.gu_su, if_neg h]; rfl⟩

theorem Dev.s_keepsRun (d : Dev) (o v : Nat) (h : dkey (homeOf oVaultState) oVaultState ≠ dkey (homeOf o) o) : d.KeepsRun (d.s o v) :=
  d.su_keepsRun v h

/-! ### Rails (R324, R327) -/

theorem Dev.setRail_keepsRun (d : Dev) (r : Nat) (x : Rail) : d.KeepsRun (d.setRail r x) := .of_dict rfl

theorem Dev.setPower_keepsRun (d : Dev) (p : Power) : d.KeepsRun { d with power := p } := .of_dict rfl

theorem Dev.releaseRail_keepsRun (d : Dev) (r : Nat) : d.KeepsRun (d.releaseRail r) := .of_dict rfl

/-- A rail whose RailState is not VaultState moves. -/
theorem Dev.setRst_keepsRun (d : Dev) {r : Nat} (t : Nat)
    (h : dkey (homeOf oVaultState) oVaultState ≠ dkey (homeOf (oRail oRailState r)) (oRail oRailState r)) : d.KeepsRun (d.setRst r t) := by
  unfold Dev.setRst
  have hmoved : d.KeepsRun (((d.sr oRailState r t).setRail r { d.rail r with cnt := 0 }).record 0x100 0 uSup r (d.rst r) t (d.gr oRailVoltage r)) :=
    ((d.s_keepsRun _ t h).trans (Dev.setRail_keepsRun ..)).trans (Dev.record_keepsRun ..)
  exact .ite (.refl d) (.andIf (.ite (hmoved.trans (Dev.unlive_keepsRun ..)) (.andIf hmoved (Dev.unlive_keepsRun ..))) (Dev.emit_keepsRun ..))

/-- RailState of a rail is another object than VaultState. -/
theorem railState_ne_vaultState : ∀ r < 64, dkey (homeOf oVaultState) oVaultState ≠ dkey (homeOf (oRail oRailState r)) (oRail oRailState r) := by
  decide

theorem Dev.enRails_lt {d : Dev} {r : Nat} (h : r ∈ d.enRails) : r < 16 := List.mem_range.1 (List.mem_of_mem_filter h)

/-- The beginning of a power-up. -/
theorem Dev.beginUp_keepsRun (d : Dev) : d.KeepsRun d.beginUp := by
  unfold Dev.beginUp
  refine List.foldlRecOn d.enRails _ (motive := d.KeepsRun) (.of_dict rfl) fun e he r hr => ?_
  have hne := railState_ne_vaultState r (by have := Dev.enRails_lt hr; omega)
  exact he.trans (.ite (.refl e) ((e.releaseRail_keepsRun r).trans (Dev.setRst_keepsRun _ 0 hne)))

/-- A power-up that settles, but from the state in which it begins WAKE. -/
theorem Dev.settleUp_keepsRun {d : Dev} (h : d.vst ≠ 0) : d.KeepsRun d.settleUp := by
  unfold Dev.settleUp
  have hgood : d.KeepsRun ((({ d with power := { d.power with seqUp := false } } : Dev).s oSupervisorState 2).s oPowerGoodTick d.now) :=
    ((d.setPower_keepsRun _).trans (Dev.s_keepsRun _ oSupervisorState _ (by decide))).trans (Dev.s_keepsRun _ oPowerGoodTick _ (by decide))
  exact .ite (.ite (d.setPower_keepsRun _) (.ite (.skip (fun h0 => h (hgood.vst.symm.trans h0)) hgood) ((d.setPower_keepsRun _).trans (Dev.s_keepsRun _ oSupervisorState _ (by decide))))) (.refl d)

/-- VaultState reads as a RailState that was written only where that rail is what VaultState stands for. -/
theorem Dev.setRst_keepsRun_of_ne {d : Dev} {r t : Nat} (h : d.rst r ≠ d.vst) : d.KeepsRun (d.setRst r t) :=
  d.setRst_keepsRun t fun he => h (congrArg (storeGet dictD d.dict) he.symm)

/-- A power-down in RETAIN goes on. -/
theorem Dev.downStep_keepsRun (n : Nat) : ∀ {d : Dev}, d.vst = 7 → d.KeepsRun (d.downStep n) := by
  induction n with
  | zero => exact fun {d} _ => .refl d
  | succ n ih =>
    intro d h
    unfold Dev.downStep
    split
    next hnil =>
      unfold Dev.downDone
      refine .ite ?_ (.refl d)
      have hstandby : d.KeepsRun (({ d with power := { d.power with full := false, endedStandby := true, shortPress := false } } : Dev).s oSupervisorState 0) :=
        (d.setPower_keepsRun _).trans (Dev.s_keepsRun _ oSupervisorState _ (by decide))
      rw [if_neg (by rw [hstandby.vst]; omega)]
      exact hstandby
    next r t l hcons =>
      by_cases h7 : d.rst r = 7
      · rw [if_pos h7]; exact .refl d
      · rw [if_neg h7]
        have hrest := d.setPower_keepsRun { d.power with down := l }
        have hmove : ∀ {e : Dev} (t : Nat), d.KeepsRun e → e.rst r = d.rst r → d.KeepsRun (e.setRst r t) := fun {e} t he hr =>
          he.trans (Dev.setRst_keepsRun_of_ne (by rw [hr, he.vst, h]; exact h7))
        have hgo : ∀ {e : Dev}, d.KeepsRun e → d.KeepsRun (e.downStep n) := fun {e} he => he.trans (ih (he.vst.trans h))
        exact .ite (hgo (hrest.trans (Dev.releaseRail_keepsRun ..)))
          (.ite (hmove 7 (d.releaseRail_keepsRun r) rfl) (hgo (hmove t hrest rfl)))

/-- A power-down in RETAIN. -/
theorem Dev.powerDown_keepsRun {d : Dev} (h : d.vst = 7) (l : List Nat) (t : Nat) : d.KeepsRun (d.powerDown l t) := by
  unfold Dev.powerDown
  have hqueued : d.KeepsRun ((l.filter fun r => ¬ d.power.down.any (·.1 = r)).foldl
      (fun d r => { d with power := { d.power with down := d.downInsert (r, t) d.power.down } }) d) := .foldl (fun d r => d.setPower_keepsRun _) _ d
  exact hqueued.trans (Dev.downStep_keepsRun 64 (hqueued.vst.trans h))

/-! ### DRAM in self-refresh (R309) -/

theorem Dev.poke_keepsRun (d : Dev) (loc : Nat) (b : Byte) : d.KeepsRun (d.poke loc b) := by
  unfold Dev.poke
  exact .ite (.of_dict rfl) (.ite (.of_dict rfl) (.of_dict rfl))

theorem Dev.pokeN_keepsRun (l : List Byte) : ∀ (d : Dev) (loc : Nat), d.KeepsRun (d.pokeN loc l) := by
  induction l with
  | nil => exact fun d _ => .refl d
  | cons b r ih => exact fun d loc => (d.poke_keepsRun loc b).trans (ih _ _)

theorem Dev.pokeLe_keepsRun (d : Dev) (loc n v : Nat) : d.KeepsRun (d.pokeLe loc n v) := Dev.pokeN_keepsRun _ d loc

theorem Dev.setDram_keepsRun (d : Dev) (x : Dram) : d.KeepsRun { d with dram := x } := .of_dict rfl

theorem Dev.setMem_keepsRun (d : Dev) (x : Mem) : d.KeepsRun { d with mem := x } := .of_dict rfl

theorem Dev.markPoison_keepsRun (d : Dev) (loc : Nat) : d.KeepsRun (d.markPoison loc) := by
  unfold Dev.markPoison
  exact .ite (.refl d) (d.setMem_keepsRun _)

theorem Dev.cleanPoison_keepsRun (d : Dev) (loc n : Nat) : d.KeepsRun (d.cleanPoison loc n) := d.setMem_keepsRun _

theorem Dev.dramReturn_keepsRun (d : Dev) : d.KeepsRun d.dramReturn := by
  unfold Dev.dramReturn
  exact (d.setDram_keepsRun _).trans (.foldl (fun d a => d.emit_keepsRun ..) _ _)

theorem Dev.dramDone_keepsRun (d : Dev) (id : Nat) (bad : Bool) : d.KeepsRun (d.dramDone id bad) := by
  unfold Dev.dramDone
  exact (d.setDram_keepsRun _).trans (Dev.dramReturn_keepsRun _)

theorem Dev.setSub_keepsRun (d : Dev) (i : Nat) (x : SubChan) : d.KeepsRun (d.setSub i x) := .of_dict rfl

theorem Dev.dramAccept_keepsRun (d : Dev) (i : Nat) (q : DramReq) : d.KeepsRun (d.dramAccept i q) := by
  unfold Dev.dramAccept
  dsimp only
  refine .ite ?write ?read
  case write =>
    have hpoke := d.pokeLe_keepsRun (q.line * 64) 64 q.data
    exact ((KeepsRun.ite (hpoke.trans (Dev.markPoison_keepsRun ..)) (hpoke.trans (Dev.cleanPoison_keepsRun ..))).trans (Dev.emit_keepsRun ..)).trans
      (Dev.setSub_keepsRun ..)
  case read => exact .ite ((d.setDram_keepsRun _).trans (Dev.dramDone_keepsRun ..)) ((d.setDram_keepsRun _).trans (Dev.setSub_keepsRun ..))

theorem Dev.dramAdmit_keepsRun (d : Dev) (i : Nat) : d.KeepsRun (d.dramAdmit i) :=
  .foldl (fun _ _ => .andIf (.refl _) ((Dev.setSub_keepsRun ..).trans (Dev.dramAccept_keepsRun ..))) _ d

theorem Dev.subDrain_keepsRun (d : Dev) (i : Nat) : d.KeepsRun (d.subDrain i) := by
  unfold Dev.subDrain
  dsimp only
  refine KeepsRun.trans (.trans (.foldl (fun d _ => ?served) _ d) (.foldl (fun d r => ?refreshed) _ _)) (Dev.setSub_keepsRun ..)
  case served => exact ((d.setSub_keepsRun ..).trans (.foldl (fun d q => d.dramDone_keepsRun ..) _ _)).trans (Dev.dramAdmit_keepsRun ..)
  case refreshed =>
    refine (d.emit_keepsRun ..).trans (Dev.su_keepsRun _ _ fun h => ?_)
    exact absurd ((dkey_inj (by decide) (by decide)).1 h).2 (by decide)

theorem Dev.setChan_keepsRun (d : Dev) (n : Nat) (c : Chan) : d.KeepsRun (d.setChan n c) := by
  unfold Dev.setChan
  exact .ite (d.setDram_keepsRun _) ((d.setDram_keepsRun _).trans (Dev.record_keepsRun ..))

theorem Dev.selfRefreshEnter_keepsRun (d : Dev) (n : Nat) : d.KeepsRun (d.selfRefreshEnter n) :=
  (((d.subDrain_keepsRun _).trans (Dev.subDrain_keepsRun ..)).trans (Dev.setChan_keepsRun ..)).trans (Dev.emit_keepsRun ..)

theorem Dev.setDom_keepsRun (d : Dev) (u : Nat) (x : Domain) : d.KeepsRun (d.setDom u x) := .of_dict rfl

theorem Dev.selfRefresh_keepsRun (d : Dev) : d.KeepsRun d.selfRefresh :=
  .foldl (fun d n => .andIf (.refl d) ((d.selfRefreshEnter_keepsRun n).trans (Dev.setDom_keepsRun ..))) _ d

/-! ### The charger (R65) -/

theorem Dev.setEnergy_keepsRun (d : Dev) (x : Energy) : d.KeepsRun { d with energy := x } := .of_dict rfl

theorem Dev.charger_keepsRun (d : Dev) (op : Nat) : d.KeepsRun (d.charger op) := by
  unfold Dev.charger
  exact .ite (d.setEnergy_keepsRun _) ((d.setEnergy_keepsRun _).trans (Dev.emit_keepsRun ..))

theorem Dev.chargeStart_keepsRun (d : Dev) : d.KeepsRun d.chargeStart := by
  unfold Dev.chargeStart
  have hscale : d.KeepsRun (if d.energy.scaled then d else d.emit .pmbus [d.g oChargerAddress, 0x20, 0]) := .ite (.refl d) (d.emit_keepsRun ..)
  exact (KeepsRun.ite (.refl d) (((hscale.trans (Dev.setEnergy_keepsRun _ _)).trans (Dev.emit_keepsRun ..)).trans (Dev.emit_keepsRun ..))).trans
    (Dev.charger_keepsRun ..)

/-! ### VaultState and LastOutage (R86) -/

theorem Dev.setSession_keepsRun (d : Dev) (i : Nat) (x : Session) : d.KeepsRun (d.setSession i x) := .of_dict rfl

theorem Dev.notify_keepsRun (d : Dev) (kind code unit : Nat) : d.KeepsRun (d.notify kind code unit) := by
  refine .foldl (fun d i => .andIf (.refl d) ?_) _ d
  unfold Dev.notifyTo
  exact .ite (.refl d) ((d.setSession_keepsRun _ _).trans (Dev.emit_keepsRun ..))

theorem Dev.outage_keepsRun (d : Dev) (off len v : Nat) : d.KeepsRun (d.outage off len v) := d.s_keepsRun oLastOutage _ (by decide)

theorem Dev.furthest_keepsRun (d : Dev) (n : Nat) : d.KeepsRun (d.furthest n) := by
  unfold Dev.furthest
  exact .andIf (.refl d) (d.outage_keepsRun ..)

/-- `e` stands in VaultState `v`, and whatever else a vault sequence goes by is as in `d`. -/
structure Dev.Moves (d e : Dev) (v : Nat) : Prop where
  aon : e.aon = d.aon
  vault : e.vault = d.vault
  kennel : e.kennel = d.kennel
  restore : e.restore = d.restore
  cache : e.cache = d.cache
  faultQ : e.faultQ = d.faultQ
  vst : e.vst = v

theorem Dev.Moves.keeps {d e f : Dev} {v : Nat} (h : d.Moves e v) (h' : e.KeepsRun f) : d.Moves f v :=
  ⟨h'.aon.trans h.aon, h'.vault.trans h.vault, h'.kennel.trans h.kennel, h'.restore.trans h.restore, h'.cache.trans h.cache, h'.faultQ.trans h.faultQ,
    h'.vst.trans h.vst⟩

theorem Dev.KeepsRun.moves {d e f : Dev} {v : Nat} (h : d.KeepsRun e) (h' : e.Moves f v) : d.Moves f v :=
  ⟨h'.aon.trans h.aon, h'.vault.trans h.vault, h'.kennel.trans h.kennel, h'.restore.trans h.restore, h'.cache.trans h.cache, h'.faultQ.trans h.faultQ, h'.vst⟩

theorem Dev.nextImage_g (d : Dev) (o : Nat) : d.nextImage.g o = d.g o := Dev.g_of_dict rfl o

theorem Dev.nextImage_vst (d : Dev) : d.nextImage.vst = d.vst := Dev.g_of_dict rfl _

@[simp] theorem Dev.setVaultState_vst (d : Dev) (v : Nat) : (d.setVaultState v).vst = v := by
  unfold Dev.setVaultState
  dsimp only
  split
  · assumption
  · have hset : ((((d.s oVaultState v).record 0x501 0 uChip d.vst v (byteOf (d.g oLastOutage) 2) 0).notify 0x03 v uChip)).vst = v := by
      rw [((Dev.record_keepsRun ..).trans (Dev.notify_keepsRun ..)).vst]
      exact Dev.g_s_same ..
    split
    · rw [Dev.nextImage_vst, hset]
    · exact hset

/-- A step of the sequence moves VaultState alone (R86). -/
theorem Dev.setVaultState_moves (d : Dev) {v : Nat} (hv : 2 ≤ v) : d.Moves (d.setVaultState v) v := by
  have hvst := d.setVaultState_vst v
  unfold Dev.setVaultState at hvst ⊢
  dsimp only at hvst ⊢
  split
  next h => exact ⟨rfl, rfl, rfl, rfl, rfl, rfl, h⟩
  next h =>
    rw [if_neg h] at hvst
    rw [if_neg (by omega)] at hvst ⊢
    have hk := (Dev.record_keepsRun (d.s oVaultState v) 0x501 0 uChip d.vst v (byteOf (d.g oLastOutage) 2) 0).trans (Dev.notify_keepsRun _ 0x03 v uChip)
    exact ⟨hk.aon, hk.vault, hk.kennel, hk.restore, hk.cache, hk.faultQ, hvst⟩

/-! ### The slots of the Kennel -/

theorem Dev.slotK_congr {d e : Dev} (h : e.kennel = d.kennel) (i : Nat) : e.slotK i = d.slotK i := by rw [Dev.slotK, h, Dev.slotK]

theorem Dev.slotK_setSlotK (d : Dev) (i j : Nat) (x : Slot) : (d.setSlotK i x).slotK j = if (j = 0 ↔ i = 0) then x else d.slotK j := by
  unfold Dev.setSlotK Dev.slotK
  by_cases hi : i = 0 <;> by_cases hj : j = 0 <;> simp [hi, hj]

@[simp] theorem Dev.slotK_setSlotK_same (d : Dev) (i : Nat) (x : Slot) : (d.setSlotK i x).slotK i = x := by simp [Dev.slotK_setSlotK]

/-- What a vault sequence goes by is as it was, but for the two slots of the Kennel and the cache. -/
structure Dev.WritesSlots (d e : Dev) : Prop where
  aon : e.aon = d.aon
  vault : e.vault = d.vault
  map : e.kennel.map = d.kennel.map
  restore : e.restore = d.restore
  faultQ : e.faultQ = d.faultQ
  vst : e.vst = d.vst

theorem Dev.KeepsRun.slots {d e : Dev} (h : d.KeepsRun e) : d.WritesSlots e := ⟨h.aon, h.vault, by rw [h.kennel], h.restore, h.faultQ, h.vst⟩

theorem Dev.WritesSlots.trans {d e f : Dev} (h : d.WritesSlots e) (h' : e.WritesSlots f) : d.WritesSlots f :=
  ⟨h'.aon.trans h.aon, h'.vault.trans h.vault, h'.map.trans h.map, h'.restore.trans h.restore, h'.faultQ.trans h.faultQ, h'.vst.trans h.vst⟩

theorem Dev.WritesSlots.ite {p : Prop} [Decidable p] {d e f : Dev} (he : d.WritesSlots e) (hf : d.WritesSlots f) : d.WritesSlots (if p then e else f) := by
  split
  · exact he
  · exact hf

theorem Dev.setSlotK_writesSlots (d : Dev) (i : Nat) (x : Slot) : d.WritesSlots (d.setSlotK i x) := by
  unfold Dev.setSlotK
  exact .ite ⟨rfl, rfl, rfl, rfl, rfl, rfl⟩ ⟨rfl, rfl, rfl, rfl, rfl, rfl⟩

theorem Dev.setTarget_writesSlots (d : Dev) (m : Image) : d.WritesSlots (d.setTarget m) := by
  unfold Dev.setTarget
  exact .ite (d.setSlotK_writesSlots ..) (KeepsRun.refl d).slots

theorem Dev.noTarget_writesSlots (d : Dev) : d.WritesSlots d.noTarget := (d.setSlotK_writesSlots ..).trans (Dev.setSlotK_writesSlots ..)

/-- No slot is the target of a running vault, and their images stay. -/
theorem Dev.noTarget_image (d : Dev) (i : Nat) : (d.noTarget.slotK i).image = (d.slotK i).image := by
  unfold Dev.noTarget
  simp only [Dev.slotK_setSlotK]
  by_cases hi : i = 0
  · subst hi; simp
  · simp [hi, Dev.slotK]

/-- Of an image, a record changes the records and their numbering alone. -/
theorem Dev.writeRec_image (d : Dev) (slot : Nat) (m : Image) (r : KRec) :
    ∃ recs num pages, (d.writeRec slot m r).1 = { m with recs := recs, recNum := num, recPages := pages } := by
  unfold Dev.writeRec
  dsimp only
  split
  · exact ⟨_, _, _, rfl⟩
  · exact ⟨_, _, _, rfl⟩

theorem Dev.writeRec_keepsRun (d : Dev) (slot : Nat) (m : Image) (r : KRec) : d.KeepsRun (d.writeRec slot m r).2 := by
  unfold Dev.writeRec
  dsimp only
  split
  · exact .refl d
  · exact .foldl (fun d n => d.emit_keepsRun ..) _ d

theorem Dev.closeImage_writesSlots (d : Dev) (i kind : Nat) : d.WritesSlots (d.closeImage i kind) := by
  unfold Dev.closeImage
  split
  · exact (KeepsRun.refl d).slots
  · exact (d.writeRec_keepsRun ..).slots.trans (Dev.setSlotK_writesSlots ..)

theorem Dev.voidTarget_writesSlots (d : Dev) : d.WritesSlots d.voidTarget := by
  unfold Dev.voidTarget
  exact (WritesSlots.ite (d.closeImage_writesSlots ..) (KeepsRun.refl d).slots).trans (Dev.noTarget_writesSlots _)

/-- A target that is written lies in a slot of the Kennel. -/
theorem Dev.slot_le_of_target {d : Dev} {m : Image} (h : d.target_ = some m) : d.vault.slot ≤ 1 := by
  unfold Dev.target_ at h
  split at h
  · assumption
  · cases h

theorem Dev.target_congr {d e : Dev} (hv : e.vault = d.vault) (hk : e.kennel = d.kennel) : e.target_ = d.target_ := by
  simp only [Dev.target_, Dev.slotK, hv, hk]

theorem Dev.target_setTarget {d : Dev} {m : Image} (h : d.target_ = some m) (m' : Image) : (d.setTarget m').target_ = some m' := by
  have hs := Dev.slot_le_of_target h
  unfold Dev.setTarget
  rw [if_pos hs]
  unfold Dev.target_
  rw [(d.setSlotK_writesSlots ..).vault, if_pos hs, Dev.slotK_setSlotK_same]

/-! ### RETAIN and WAKE (R102, R103, R132) -/

/-- The sequence reaches RETAIN where no return of power waits. -/
theorem Dev.retain_moves {d : Dev} (h : d.vault.wakeDue = false) : d.noTarget.Moves d.retain 7 := by
  have hkept : d.noTarget.Moves ((((d.noTarget.selfRefresh).setVaultState 7).furthest 7).s oSupervisorState 5) 7 :=
    ((d.noTarget.selfRefresh_keepsRun.moves (Dev.setVaultState_moves _ (by decide))).keeps (Dev.furthest_keepsRun _ 7)).keeps
      (Dev.s_keepsRun _ oSupervisorState 5 (by decide))
  unfold Dev.retain
  dsimp only
  generalize Dev.s _ oSupervisorState 5 = f at hkept ⊢
  have hdown := fun l => hkept.keeps (Dev.powerDown_keepsRun hkept.vst l 8)
  rw [if_neg (by rw [(hdown _).vault, d.noTarget_writesSlots.vault, h]; exact Bool.false_ne_true)]
  exact hdown _

/-- WAKE from RETAIN releases HOLD_EN, and the restore it begins comes from RETAIN (R132). -/
theorem Dev.wakeFromRetain_result (d : Dev) :
    d.wakeFromRetain.vst = 0x0A ∧ d.wakeFromRetain.restore.fromRetain = true ∧ d.wakeFromRetain.aon.holdEn = false := by
  unfold Dev.wakeFromRetain
  dsimp only
  generalize hf : ({ (if d.aon.holdEn then _ else d) with restore := _, faults := _ } : Dev) = f
  have hrestore : f.restore.fromRetain = true := by rw [← hf]
  have hhold : f.aon.holdEn = false := by
    rw [← hf]
    dsimp only
    split
    next => rfl
    next h => exact Bool.eq_false_of_not_eq_true h
  have hmoves := f.setVaultState_moves (v := 0x0A) (by decide)
  generalize hg : (f.setVaultState 0x0A).releaseSync = g
  have hgvst : g.vst = 0x0A := by rw [← hg]; exact hmoves.vst
  have hup := ((g.s_keepsRun oSupervisorState 1 (by decide)).trans (Dev.beginUp_keepsRun _))
  have hsettled := hup.trans (Dev.settleUp_keepsRun (by rw [hup.vst, hgvst]; decide))
  refine ⟨hsettled.vst.trans hgvst, ?_, ?_⟩
  · rw [hsettled.restore, ← hg]
    exact (congrArg Restore.fromRetain hmoves.restore).trans hrestore
  · rw [hsettled.aon, ← hg]
    exact (congrArg Aon.holdEn hmoves.aon).trans hhold

/-! ### What keeps the run and the usable LUNs -/

/-- The run of the sequence, the occurrences raised and the usable LUNs are as they were. -/
structure Dev.KeepsPlan (d e : Dev) : Prop where
  vault : e.vault = d.vault
  faultQ : e.faultQ = d.faultQ
  map : e.kennel.map = d.kennel.map

theorem Dev.KeepsPlan.refl (d : Dev) : d.KeepsPlan d := ⟨rfl, rfl, rfl⟩

theorem Dev.KeepsPlan.trans {d e f : Dev} (h : d.KeepsPlan e) (h' : e.KeepsPlan f) : d.KeepsPlan f :=
  ⟨h'.vault.trans h.vault, h'.faultQ.trans h.faultQ, h'.map.trans h.map⟩

theorem Dev.WritesSlots.plan {d e : Dev} (h : d.WritesSlots e) : d.KeepsPlan e := ⟨h.vault, h.faultQ, h.map⟩

theorem Dev.KeepsRun.plan {d e : Dev} (h : d.KeepsRun e) : d.KeepsPlan e := h.slots.plan

theorem Dev.Moves.plan {d e : Dev} {v : Nat} (h : d.Moves e v) : d.KeepsPlan e := ⟨h.vault, h.faultQ, by rw [h.kennel]⟩

theorem Dev.KeepsPlan.ite {p : Prop} [Decidable p] {d e f : Dev} (he : d.KeepsPlan e) (hf : d.KeepsPlan f) : d.KeepsPlan (if p then e else f) := by
  split
  · exact he
  · exact hf

theorem Dev.KeepsPlan.andIf {p : Prop} [Decidable p] {d e f : Dev} (he : d.KeepsPlan e) (hf : e.KeepsPlan f) : d.KeepsPlan (if p then f else e) :=
  .ite (he.trans hf) he

theorem Dev.KeepsPlan.foldl {α : Type} {f : Dev → α → Dev} (h : ∀ (d : Dev) a, d.KeepsPlan (f d a)) (l : List α) (d : Dev) : d.KeepsPlan (l.foldl f d) :=
  List.foldlRecOn l f (motive := d.KeepsPlan) (.refl d) fun _ hx a _ => hx.trans (h _ a)

theorem Dev.su_keepsPlan (d : Dev) (u o v : Nat) : d.KeepsPlan (d.su u o v) := ⟨rfl, rfl, rfl⟩

theorem Dev.s_keepsPlan (d : Dev) (o v : Nat) : d.KeepsPlan (d.s o v) := ⟨rfl, rfl, rfl⟩

theorem Dev.setRst_keepsPlan (d : Dev) (r t : Nat) : d.KeepsPlan (d.setRst r t) := by
  unfold Dev.setRst
  have hmoved : d.KeepsPlan (((d.sr oRailState r t).setRail r { d.rail r with cnt := 0 }).record 0x100 0 uSup r (d.rst r) t (d.gr oRailVoltage r)) :=
    ((d.s_keepsPlan ..).trans (Dev.setRail_keepsRun ..).plan).trans (Dev.record_keepsRun ..).plan
  exact .ite (.refl d) (.andIf (.ite (hmoved.trans (Dev.unlive_keepsRun ..).plan) (.andIf hmoved (Dev.unlive_keepsRun ..).plan)) (Dev.emit_keepsRun ..).plan)

theorem Dev.dropRails_keepsPlan (d : Dev) : d.KeepsPlan d.dropRails :=
  (d.setPower_keepsRun _).plan.trans (.foldl (fun d r => (d.releaseRail_keepsRun r).plan.trans (Dev.setRst_keepsPlan ..)) _ _)

theorem Dev.setAon_keepsPlan (d : Dev) (a : Aon) : d.KeepsPlan { d with aon := a } := ⟨rfl, rfl, rfl⟩

theorem Dev.dark_keepsPlan (d : Dev) : d.KeepsPlan d.dark :=
  (((d.furthest_keepsRun 8).plan.trans (Dev.dropRails_keepsPlan _)).trans (Dev.setAon_keepsPlan _ _)).trans
    ((Dev.s_keepsPlan _ oVaultState 0).trans (Dev.s_keepsPlan ..))

theorem Dev.downStep_keepsPlan (n : Nat) : ∀ d : Dev, d.KeepsPlan (d.downStep n) := by
  induction n with
  | zero => exact fun d => .refl d
  | succ n ih =>
    intro d
    unfold Dev.downStep
    split
    next =>
      unfold Dev.downDone
      exact .ite (.andIf ((d.setPower_keepsRun _).plan.trans (Dev.s_keepsPlan ..)) (Dev.dark_keepsPlan _)) (.refl d)
    next r t l _ =>
      have hrest := (d.setPower_keepsRun { d.power with down := l }).plan
      exact .ite (.refl d) (.ite ((hrest.trans (Dev.releaseRail_keepsRun ..).plan).trans (ih _))
        (.ite ((d.releaseRail_keepsRun r).plan.trans (Dev.setRst_keepsPlan ..)) ((hrest.trans (Dev.setRst_keepsPlan ..)).trans (ih _))))

theorem Dev.powerDown_keepsPlan (d : Dev) (l : List Nat) (t : Nat) : d.KeepsPlan (d.powerDown l t) := by
  unfold Dev.powerDown
  have hqueued : d.KeepsRun ((l.filter fun r => ¬ d.power.down.any (·.1 = r)).foldl
      (fun d r => { d with power := { d.power with down := d.downInsert (r, t) d.power.down } }) d) := .foldl (fun d r => d.setPower_keepsRun _) _ d
  exact hqueued.plan.trans (Dev.downStep_keepsPlan 64 _)

theorem Dev.settleUp_keepsPlan (d : Dev) : d.KeepsPlan d.settleUp := by
  unfold Dev.settleUp
  have hset := (d.setPower_keepsRun { d.power with seqUp := false }).plan
  exact .ite (.ite hset (.ite (.andIf (hset.trans ((Dev.s_keepsPlan ..).trans (Dev.s_keepsPlan ..))) (Dev.setVaultState_moves _ (v := 0x0A) (by decide)).plan)
    (hset.trans (Dev.s_keepsPlan ..)))) (.refl d)

theorem Dev.wakeFromRetain_keepsPlan (d : Dev) : d.KeepsPlan d.wakeFromRetain := by
  unfold Dev.wakeFromRetain
  dsimp only
  generalize hf : ({ (if d.aon.holdEn then _ else d) with restore := _, faults := _ } : Dev) = f
  have hfrom : d.KeepsPlan f := by
    rw [← hf]
    split <;> exact ⟨rfl, rfl, rfl⟩
  have hup : f.KeepsPlan ((f.setVaultState 0x0A).releaseSync.s oSupervisorState 1) :=
    (f.setVaultState_moves (v := 0x0A) (by decide)).plan.trans ((Dev.setAon_keepsPlan ..).trans (Dev.s_keepsPlan ..))
  exact hfrom.trans ((hup.trans (Dev.beginUp_keepsRun _).plan).trans (Dev.settleUp_keepsPlan _))

theorem Dev.retain_keepsPlan (d : Dev) : d.KeepsPlan d.retain := by
  unfold Dev.retain
  dsimp only
  have hkept : d.KeepsPlan ((((d.noTarget.selfRefresh).setVaultState 7).furthest 7).s oSupervisorState 5) :=
    ((d.noTarget_writesSlots.plan.trans d.noTarget.selfRefresh_keepsRun.plan).trans
      ((Dev.setVaultState_moves _ (v := 7) (by decide)).keeps (Dev.furthest_keepsRun _ 7)).plan).trans (Dev.s_keepsPlan ..)
  generalize Dev.s _ oSupervisorState 5 = f at hkept ⊢
  have hdown := fun l => hkept.trans (f.powerDown_keepsPlan l 8)
  exact .ite ((hdown _).trans (Dev.wakeFromRetain_keepsPlan _)) (hdown _)

theorem Dev.retainBare_keepsPlan (d : Dev) (res : Nat) : d.KeepsPlan (d.retainBare res) :=
  ((d.outage_keepsRun 2 1 res).plan.trans (Dev.su_keepsPlan ..)).trans (Dev.retain_keepsPlan _)

end Sys2Proof.Machine
end

section
/-! PROOFS. The steps of a vault sequence up to its plan (R88, R89, R92, R94, R95). -/
namespace Sys2Proof.Machine
open Sys2Proof

/-! ### The commands, at a powered device -/

section Commands
variable {s : State} (h : s.Powered)
include h

theorem exec_quiesceComplete : exec .quiesceComplete s = .next (s.leaves s.dev.quiesceComplete) := act_on s Dev.quiesceComplete h

theorem exec_quiesceOverrun (kind n : Nat) : exec (.quiesceOverrun kind n) s = .next (s.leaves (s.dev.quiesceOverrun kind n)) :=
  act_on s (Dev.quiesceOverrun · kind n) h

theorem exec_shedComplete : exec .shedComplete s = .next (s.leaves s.dev.shedComplete) := act_on s Dev.shedComplete h

theorem exec_vaultBegin : exec .vaultBegin s = .next (s.leaves s.dev.vaultBegin) := act_on s Dev.vaultBegin h

theorem exec_spillComplete : exec .spillComplete s = .next (s.leaves s.dev.spillComplete) := act_on s Dev.spillComplete h

end Commands

/-! ### QUIESCE (R88, R89) -/

/-- The end of QUIESCE begins SHED, whatever the stopped activity leaves. -/
theorem Dev.quiesceComplete_vst {d : Dev} (h : d.vst = 3) : d.quiesceComplete.vst = 4 := by
  rw [Dev.quiesceComplete, if_pos h, (Dev.furthest_keepsRun _ 4).vst, Dev.setVaultState_vst]

/-- A source that is raised waits to be handled. -/
theorem Dev.raised_fault (d : Dev) (n : Nat) : (d.fault n).Raised n := ⟨_, List.mem_append_right _ (List.mem_singleton_self _), rfl⟩

theorem Dev.Raised.of_faultQ {d e : Dev} {n : Nat} (h : d.Raised n) (hq : e.faultQ = d.faultQ) : e.Raised n := by
  obtain ⟨o, ho, hs⟩ := h
  exact ⟨o, hq ▸ ho, hs⟩

/-- A context that leaves the cores it is loaded in leaves the rest of them, and every context and occurrence, as they were. -/
theorem Dev.unloadCtx_spec (d : Dev) (k n : Nat) :
    ((d.unloadCtx k).core n).stopped = (d.core n).stopped ∧ (d.unloadCtx k).ctx = d.ctx ∧ (d.unloadCtx k).faultQ = d.faultQ := by
  unfold Dev.unloadCtx
  refine List.foldlRecOn _ _ (motive := fun e : Dev => (e.core n).stopped = (d.core n).stopped ∧ e.ctx = d.ctx ∧ e.faultQ = d.faultQ) ⟨rfl, rfl, rfl⟩
    fun e ⟨hs, hc, hq⟩ m _ => ?_
  split
  · refine ⟨?_, hc, hq⟩
    rw [Dev.core_setCore]
    split
    next hm => rw [← hs, hm]
    next => exact hs
  · exact ⟨hs, hc, hq⟩

/-- The save of a loaded context marks it as the save does, and raises nothing (R199, R89). -/
theorem Dev.saveContext_spec {d : Dev} {n k : Nat} (hk : (d.core n).ctxid.toNat = k) (hlt : k < 1024) (cause value epc : Nat) (inexact : Bool) :
    ((d.saveContext n cause value epc inexact).ctx k).inexact = inexact ∧ (d.saveContext n cause value epc inexact).faultQ = d.faultQ := by
  unfold Dev.saveContext
  dsimp only
  rw [hk, if_pos hlt]
  refine ⟨by rw [Dev.ctx_setCtx, if_pos rfl], ?_⟩
  rw [Dev.setCtx_faultQ, (Dev.pokeN_keepsRun ..).faultQ]

/-- What firmware does with a PREEMPT at a stopped core: its context becomes RUNNABLE, and the core stays stopped with none dispatched (R197, R222). -/
theorem Dev.firmwareTrap_preempt {d : Dev} {n k : Nat} (hk : (d.core n).ctxid.toNat = k) (hlt : k < 1024) (hs : (d.core n).stopped = true)
    (detail value epc cause : Nat) :
    ((d.firmwareTrap n 0x10 detail value epc cause).core n).stopped = true ∧
      ((d.firmwareTrap n 0x10 detail value epc cause).ctx k).inexact = (d.ctx k).inexact ∧
      (d.firmwareTrap n 0x10 detail value epc cause).faultQ = d.faultQ := by
  have heq : d.firmwareTrap n 0x10 detail value epc cause = ((d.setCtx k { d.ctx k with st := 1, core := none }).unloadCtx k).dispatch n := by
    rw [Dev.firmwareTrap, if_pos (by omega), Dev.serveTrap, hk]
  obtain ⟨hstop, hctx, hq⟩ := (d.setCtx k { d.ctx k with st := 1, core := none }).unloadCtx_spec k n
  have hstop' := hstop.trans hs
  rw [heq, Dev.dispatch]
  dsimp only
  rw [if_pos (.inr (.inl hstop'))]
  exact ⟨hstop', by rw [hctx, Dev.ctx_setCtx, if_pos rfl], hq⟩

/-- A forced PREEMPT at a stopped core with a context marks what it saves, and the core stays stopped. -/
theorem Dev.trapEnter_forced {d : Dev} {n k : Nat} (hk : (d.core n).ctxid.toNat = k) (hlt : k < 1024) (hs : (d.core n).stopped = true)
    (detail value epc : Nat) (inStr : Bool) :
    ((d.trapEnter n 0x10 detail value epc inStr true).core n).stopped = true ∧
      ((d.trapEnter n 0x10 detail value epc inStr true).ctx k).inexact = true ∧
      (d.trapEnter n 0x10 detail value epc inStr true).faultQ = d.faultQ := by
  unfold Dev.trapEnter
  dsimp only
  rw [if_neg (by simp [delegable]), if_pos rfl]
  generalize hcause : (0x10 + detail * 2 ^ 8 + if inStr = true then 2 ^ 16 else 0) = cause
  obtain ⟨hin, hq⟩ := Dev.saveContext_spec hk hlt cause value epc true
  generalize hf : (d.saveContext n cause value epc true).setCore n _ = f
  have hcore : (f.core n).ctxid.toNat = k ∧ (f.core n).stopped = true := by
    rw [← hf, Dev.core_setCore_same]
    exact ⟨hk, hs⟩
  have hctx : (f.ctx k).inexact = true := by rw [← hf]; exact hin
  have hfq : f.faultQ = d.faultQ := by rw [← hf]; exact hq
  split
  · rw [if_neg (by decide)]
    exact ⟨hcore.2, hctx, hfq⟩
  · obtain ⟨h1, h2, h3⟩ := Dev.firmwareTrap_preempt hcore.1 hlt hcore.2 detail value epc cause
    exact ⟨h1, h2.trans hctx, h3.trans hfq⟩

@[simp] theorem finishHandler_ctxid (c : Core) : (finishHandler c).ctxid = c.ctxid := by
  unfold finishHandler
  split <;> rfl

/-- A core that is forced to stop marks its context inexact and raises source 23 (R89). -/
theorem Dev.stopCore_forced {d : Dev} {n : Nat} (hp : d.present (uCoreN n) = true) (hs : (d.core n).stopped = false)
    (hk : (d.core n).ctxid.toNat < 1024) (detail : Nat) :
    ((d.stopCore n detail true).core n).stopped = true ∧ ((d.stopCore n detail true).ctx (d.core n).ctxid.toNat).inexact = true ∧
      (d.stopCore n detail true).Raised 23 := by
  unfold Dev.stopCore
  dsimp only
  rw [if_neg (by simp [hp, hs]), if_pos rfl, if_neg (by omega)]
  generalize hf : (d.fault 23).setCore n _ = f
  have hcore : (f.core n).ctxid.toNat = (d.core n).ctxid.toNat ∧ (f.core n).stopped = true := by
    rw [← hf, Dev.core_setCore_same]
    exact ⟨congrArg BitVec.toNat (finishHandler_ctxid _), rfl⟩
  obtain ⟨h1, h2, h3⟩ := Dev.trapEnter_forced hcore.1 hk hcore.2 detail 0 (finishHandler (d.core n)).pc.toNat (finishHandler (d.core n)).inStr
  refine ⟨h1, by rw [Dev.ctx_setCtx, if_pos rfl]; exact h2, (d.raised_fault 23).of_faultQ ?_⟩
  rw [Dev.setCtx_faultQ, h3, ← hf]
  rfl

/-- A DMA channel that is forced to stop marks its descriptor inexact and raises source 23 (R89). -/
theorem Dev.stopChan_forced {d : Dev} {i : Nat} {c : Desc} (h : (d.ch i).desc = some c) :
    (∃ c', ((d.stopChan i true).ch i).desc = some c' ∧ c'.flags.testBit 2 = true) ∧ (d.stopChan i true).Raised 23 := by
  have hch : ∀ x, ((d.setCh i x).fault 23).ch i = x := fun x => (Dev.ch_setCh d i i x).trans (if_pos rfl)
  unfold Dev.stopChan
  simp only [h, if_true]
  refine ⟨⟨_, congrArg Channel.desc (hch _), ?_⟩, Dev.raised_fault _ 23⟩
  exact testBit_setBit_same _ 2 true

/-- A job slot after a write of a job slot. -/
theorem Dev.slot_setSlot (d : Dev) (i j : Nat) (x : JobSlot) : (d.setSlot i x).slot j = if j = i then x else d.slot j := by
  simp [Dev.slot, storeGet_set]

/-- A job slot that is forced to stop marks its job inexact and raises source 23 (R89). -/
theorem Dev.stopSlot_forced {d : Dev} {i : Nat} {j : Job} (h : (d.slot i).job = some j) :
    (∃ j', ((d.stopSlot i true).slot i).job = some j' ∧ j'.flags.testBit 2 = true) ∧ ((d.stopSlot i true).slot i).inexact = true ∧
      (d.stopSlot i true).Raised 23 := by
  have hslot : ∀ x, (((d.setSlot i x).incU (slotUnit i) oForcedStops).fault 23).slot i = x := fun x => (Dev.slot_setSlot d i i x).trans (if_pos rfl)
  unfold Dev.stopSlot
  simp only [h, if_true]
  refine ⟨⟨_, congrArg JobSlot.job (hslot _), ?_⟩, congrArg JobSlot.inexact (hslot _), Dev.raised_fault _ 23⟩
  exact testBit_setBit_same _ 2 true

/-! ### SHED (R88, R328) -/

/-- The end of SHED. -/
theorem Dev.shedComplete_shedDone {d : Dev} (hv : d.vst = 4) (hs : d.vault.shedDone = false) : d.shedComplete.vault.shedDone = true := by
  unfold Dev.shedComplete
  rw [if_neg (by simp [hv, hs])]
  exact congrArg VaultRun.shedDone (Dev.powerDown_keepsPlan ..).vault

/-! ### The plan (R92, R94, R127) -/

/-- A NOTIFY changes no object and no DRAM channel. -/
theorem Dev.notify_dict_dram (d : Dev) (kind code unit : Nat) : (d.notify kind code unit).dict = d.dict ∧ (d.notify kind code unit).dram = d.dram := by
  unfold Dev.notify
  refine List.foldlRecOn _ _ (motive := fun e : Dev => e.dict = d.dict ∧ e.dram = d.dram) ⟨rfl, rfl⟩ fun e he i _ => ?_
  split
  · unfold Dev.notifyTo
    dsimp only
    split
    · exact he
    · exact he
  · exact he

/-- VaultState is the one object that a step of the sequence writes. -/
theorem Dev.setVaultState_g (d : Dev) (v : Nat) {o : Nat} (ho : o ≠ oVaultState) : (d.setVaultState v).g o = d.g o := by
  have hset : (((d.s oVaultState v).record 0x501 0 uChip d.vst v (byteOf (d.g oLastOutage) 2) 0).notify 0x03 v uChip).g o = d.g o := by
    rw [Dev.g_of_dict (Dev.notify_dict_dram ..).1, Dev.g_record, Dev.g_s_ne _ _ _ _ (dkey_ne_of_chip (by decide) (by decide) ho)]
  unfold Dev.setVaultState
  dsimp only
  split
  · rfl
  · split
    · rw [Dev.nextImage_g, hset]
    · exact hset

theorem Dev.nextImage_dram (d : Dev) : d.nextImage.dram = d.dram := rfl

theorem Dev.setVaultState_dram (d : Dev) (v : Nat) : (d.setVaultState v).dram = d.dram := by
  have hset : (((d.s oVaultState v).record 0x501 0 uChip d.vst v (byteOf (d.g oLastOutage) 2) 0).notify 0x03 v uChip).dram = d.dram := by
    rw [(Dev.notify_dict_dram ..).2, Dev.record_dram]
    rfl
  unfold Dev.setVaultState
  dsimp only
  split
  · rfl
  · split
    · rw [Dev.nextImage_dram, hset]
    · exact hset

theorem Dev.furthest_g (d : Dev) (n : Nat) {o : Nat} (ho : o ≠ oLastOutage) : (d.furthest n).g o = d.g o := by
  unfold Dev.furthest
  split
  · exact Dev.g_s_ne _ _ _ _ (dkey_ne_of_chip (by decide) (by decide) ho)
  · rfl

theorem Dev.furthest_dram (d : Dev) (n : Nat) : (d.furthest n).dram = d.dram := by
  unfold Dev.furthest
  split
  · exact Dev.s_dram _ _ _
  · rfl

theorem Dev.keyOk_congr {d e : Dev} (hk : e.kennel = d.kennel) : e.keyOk = d.keyOk := by rw [Dev.keyOk, hk, Dev.keyOk]

/-- The slot that a vault targets depends on the Kennel, the DRAM channels, fixed_bytes and the cache mode asked for. -/
theorem Dev.vaultTarget_congr {d e : Dev} (hk : e.kennel = d.kennel) (hdram : e.dram = d.dram) (hfx : e.g oFixedBytes = d.g oFixedBytes)
    (hmode : e.g oCacheModeRequested = d.g oCacheModeRequested) : e.vaultTarget = d.vaultTarget := by
  have hbytes : e.modeBytes = d.modeBytes := by
    rw [Dev.modeBytes, Dev.mirrorNew, Dev.mirrorPossible, Dev.chansIn_congr hdram, hmode, Dev.modeBytes, Dev.mirrorNew, Dev.mirrorPossible]
  have husable : ∀ i, e.slotUsable i = d.slotUsable i := fun i => by
    rw [Dev.slotUsable, Dev.usableLuns, Dev.slotRows, Dev.slotK_congr hk, Dev.keyOk_congr hk, hbytes, hfx, hk, Dev.slotUsable, Dev.usableLuns, Dev.slotRows]
  rw [Dev.vaultTarget, husable, husable, hk, Dev.vaultTarget]

section Begin
variable {d : Dev} (hv : d.vst = 4) (hs : d.vault.shedDone = true) (ho : d.offsetPassed = true)
include hv hs ho

/-- With nothing to save the plan is empty (R104, R105). -/
theorem Dev.vaultBegin_empty (he : d.vault.empty = true) : d.vaultBegin.vst = 5 ∧ d.vaultBegin.vault.empty = true := by
  unfold Dev.vaultBegin
  rw [if_neg (by simp [hv, hs, ho])]
  have hmoves := (d.setVaultState_moves (v := 5) (by decide)).keeps (Dev.furthest_keepsRun _ 5)
  dsimp only
  rw [hmoves.vault, he, if_pos rfl]
  exact ⟨hmoves.vst, rfl⟩

/-- A usable slot becomes the target of a new image, with the plan in it. -/
theorem Dev.vaultBegin_target (he : d.vault.empty = false) {t : Nat} (ht : d.vaultTarget = some t) :
    d.vaultBegin.vst = 5 ∧ d.vaultBegin.vault.slot = t ∧ (d.vaultBegin.slotK t).target = true ∧ (d.vaultBegin.slotK t).image.isSome = true := by
  unfold Dev.vaultBegin
  rw [if_neg (by simp [hv, hs, ho])]
  have hmoves := (d.setVaultState_moves (v := 5) (by decide)).keeps (Dev.furthest_keepsRun _ 5)
  have htarget : ((d.setVaultState 5).furthest 5).vaultTarget = some t := by
    rw [Dev.vaultTarget_congr hmoves.kennel ((Dev.furthest_dram _ 5).trans (d.setVaultState_dram 5))
      ((Dev.furthest_g _ 5 (by decide)).trans (d.setVaultState_g 5 (by decide)))
      ((Dev.furthest_g _ 5 (by decide)).trans (d.setVaultState_g 5 (by decide))), ht]
  dsimp only
  rw [hmoves.vault, he, if_neg Bool.false_ne_true, htarget]
  dsimp only
  generalize (d.setVaultState 5).furthest 5 = f at hmoves ⊢
  have hout := (((f.setSlotK t { f.slotK t with image := some f.newImage, target := true }).setRun
    { (f.setSlotK t { f.slotK t with image := some f.newImage, target := true }).vault with slot := t }).outage_keepsRun 3 1 t)
  have hnew := (Dev.slotK_congr hout.kennel t).trans (f.slotK_setSlotK_same t { f.slotK t with image := some f.newImage, target := true })
  exact ⟨by rw [hout.vst]; exact (f.setSlotK_writesSlots ..).vst.trans hmoves.vst, by rw [hout.vault]; rfl, by rw [hnew], by rw [hnew]; rfl⟩

end Begin

/-! ### The spill (R95) -/

theorem Dev.setRetBytes_keepsRun (d : Dev) (u : Nat) (l : List (Nat × Byte)) : d.KeepsRun (d.setRetBytes u l) := by
  unfold Dev.setRetBytes
  exact .ite (.of_dict rfl) (.of_dict rfl)

theorem Dev.setRetBytes_doms (d : Dev) (u : Nat) (l : List (Nat × Byte)) : (d.setRetBytes u l).doms = d.doms := by
  unfold Dev.setRetBytes
  dsimp only
  split <;> rfl

/-- A domain in RET is spilled: beside memory and the inrush level, only the domain and the run's list of spilled domains change. -/
theorem Dev.spillOne_ret {d : Dev} {u : Nat} (h : d.domSt u = 1) : ∃ f : Dev, d.KeepsRun f ∧ f.doms.doms = d.doms.doms ∧
    d.spillOne u = (f.setDom u { st := 2 }).setRun { d.vault with spilled := d.vault.spilled ++ [u] } := by
  unfold Dev.spillOne
  rw [if_neg (by simp [h])]
  obtain ⟨base, n⟩ := spillPlace u
  dsimp only
  generalize hf : Dev.setRetBytes _ u [] = f
  have hkept : d.KeepsRun f := by
    rw [← hf]
    refine KeepsRun.trans ?_ (Dev.setRetBytes_keepsRun _ u [])
    exact .of_dict rfl
  refine ⟨f, hkept, ?_, by rw [hkept.vault]⟩
  rw [← hf, Dev.setRetBytes_doms]
  rfl

/-- The spill of a domain keeps VaultState, the plan and whether a return of power waits. -/
theorem Dev.spillOne_run (d : Dev) (u : Nat) :
    (d.spillOne u).vst = d.vst ∧ (d.spillOne u).vault.wakeDue = d.vault.wakeDue ∧ (d.spillOne u).vault.empty = d.vault.empty := by
  by_cases h : d.domSt u = 1
  · obtain ⟨f, hkept, -, he⟩ := Dev.spillOne_ret h
    rw [he]
    exact ⟨hkept.vst, rfl, rfl⟩
  · rw [Dev.spillOne, if_pos h]
    exact ⟨rfl, rfl, rfl⟩

/-- A domain that is spilled goes from RET to OFF, and no other domain changes. -/
theorem Dev.spillOne_domSt (d : Dev) (u w : Nat) : (d.spillOne u).domSt w = if w = u ∧ d.domSt u = 1 then 2 else d.domSt w := by
  by_cases h : d.domSt u = 1
  · obtain ⟨f, -, hdoms, he⟩ := Dev.spillOne_ret h
    have hset : ((f.setDom u { st := 2 }).setRun { d.vault with spilled := d.vault.spilled ++ [u] }).dom w = if w = u then { st := 2 } else d.dom w := by
      rw [Dev.dom, Dev.setRun_doms, ← Dev.dom, Dev.dom_setDom, Dev.dom, hdoms, ← Dev.dom]
    rw [he, Dev.domSt, hset]
    by_cases hw : w = u
    · rw [if_pos hw, if_pos ⟨hw, h⟩]
    · rw [if_neg hw, if_neg (fun hc => hw hc.1), Dev.domSt]
  · rw [Dev.spillOne, if_pos h, if_neg (fun hw => h hw.2)]

/-- The domains of a list that are spilled in turn: each that stood in RET is OFF. -/
theorem Dev.spillAll_domSt (l : List Nat) : ∀ (d : Dev), ∀ w, (l.foldl Dev.spillOne d).domSt w = if w ∈ l ∧ d.domSt w = 1 then 2 else d.domSt w := by
  induction l with
  | nil => intro d w; simp
  | cons u l ih =>
    intro d w
    rw [List.foldl_cons, ih, Dev.spillOne_domSt]
    by_cases hw : w = u <;> by_cases h1 : d.domSt w = 1 <;> simp_all

theorem Dev.spillAll_run (l : List Nat) (d : Dev) :
    (l.foldl Dev.spillOne d).vst = d.vst ∧ (l.foldl Dev.spillOne d).vault.wakeDue = d.vault.wakeDue ∧ (l.foldl Dev.spillOne d).vault.empty = d.vault.empty := by
  refine List.foldlRecOn l _ (motive := fun e : Dev => e.vst = d.vst ∧ e.vault.wakeDue = d.vault.wakeDue ∧ e.vault.empty = d.vault.empty)
    ⟨rfl, rfl, rfl⟩ fun e ⟨hv, hw, he⟩ u _ => ?_
  obtain ⟨hv', hw', he'⟩ := e.spillOne_run u
  exact ⟨hv'.trans hv, hw'.trans hw, he'.trans he⟩

/-- RETAIN without a seal is reached where no return of power waits. -/
theorem Dev.retainBare_vst {d : Dev} (h : d.vault.wakeDue = false) (res : Nat) : (d.retainBare res).vst = 7 := by
  have hcounted : d.KeepsRun ((d.outage 2 1 res).inc oVaultsPartial 32) := (d.outage_keepsRun 2 1 res).trans (Dev.su_keepsRun _ _ (by decide))
  refine (Dev.retain_moves ?_).vst
  rw [hcounted.vault, h]

section Spill
variable {d : Dev} (hv : d.vst = 5) (hs : d.vault.spill = false)
include hv hs

theorem Dev.spillComplete_plan (he : d.vault.empty = false) :
    d.spillComplete.vst = 5 ∧ d.spillComplete.vault.spill = true ∧ ∀ u ∈ d.shedRet, d.domSt u = 1 → d.spillComplete.domSt u = 2 := by
  obtain ⟨hvst, -, hempty⟩ := Dev.spillAll_run d.shedRet d
  unfold Dev.spillComplete
  rw [if_neg (by simp [hv, hs])]
  dsimp only
  have hoff := Dev.spillAll_domSt d.shedRet d
  generalize d.shedRet = l at hvst hempty hoff ⊢
  rw [if_neg (by simp [hempty, he])]
  exact ⟨hvst.trans hv, rfl, fun u hu h1 => (hoff u).trans (if_pos ⟨hu, h1⟩)⟩

/-- An empty plan ends with the spill (R104). -/
theorem Dev.spillComplete_empty (he : d.vault.empty = true) (hw : d.vault.wakeDue = false) : d.spillComplete.vst = 7 := by
  obtain ⟨-, hwake, hempty⟩ := Dev.spillAll_run d.shedRet d
  unfold Dev.spillComplete
  rw [if_neg (by simp [hv, hs])]
  dsimp only
  generalize d.shedRet = l at hwake hempty ⊢
  rw [if_pos (by simp [hempty, he])]
  refine Dev.retainBare_vst ?_ 4
  exact hwake.trans hw

end Spill

end Sys2Proof.Machine
end

section
open Sys2Proof Sys2Proof.Machine

/-- Settles O37: each step by the lemma of its command. -/
theorem vaultStepsAdvance : Obligations.VaultStepsAdvance := by
  unfold Obligations.VaultStepsAdvance
  rintro s d hp rfl
  refine ⟨?quiesced, ?overrun, ?shed, ?begun, ?spilled⟩
  case quiesced => exact fun hv => ⟨_, exec_quiesceComplete hp, Dev.quiesceComplete_vst hv⟩
  case overrun =>
    intro hv
    refine ⟨fun n hn hpres hstop hctx => ⟨_, exec_quiesceOverrun hp 0 n, ?core⟩, fun n c hn hc => ⟨_, exec_quiesceOverrun hp 1 n, ?channel⟩,
      fun n j hn hj => ⟨_, exec_quiesceOverrun hp 2 n, ?slot⟩⟩
    case core =>
      have heq : s.dev.quiesceOverrun 0 n = s.dev.stopCore n 0x02 true := by simp [Dev.quiesceOverrun, hv, hn, hstop]
      rw [heq]
      exact Dev.stopCore_forced hpres hstop hctx 0x02
    case channel =>
      have heq : s.dev.quiesceOverrun 1 n = s.dev.stopChan n true := by simp [Dev.quiesceOverrun, hv, hn]
      rw [heq]
      exact Dev.stopChan_forced hc
    case slot =>
      have heq : s.dev.quiesceOverrun 2 n = s.dev.stopSlot n true := by simp [Dev.quiesceOverrun, hv, hn]
      rw [heq]
      exact Dev.stopSlot_forced hj
  case shed => exact fun hv hs => ⟨_, exec_shedComplete hp, Dev.shedComplete_shedDone hv hs⟩
  case begun =>
    intro hv hs ho
    exact ⟨fun he => ⟨_, exec_vaultBegin hp, Dev.vaultBegin_empty hv hs ho he⟩,
      fun t he ht _ => ⟨_, exec_vaultBegin hp, Dev.vaultBegin_target hv hs ho he ht⟩⟩
  case spilled =>
    intro hv hs
    exact ⟨fun he => ⟨_, exec_spillComplete hp, Dev.spillComplete_plan hv hs he⟩,
      fun he hw => ⟨_, exec_spillComplete hp, Dev.spillComplete_empty hv hs he hw⟩⟩

end

section
/-! PROOFS. The segments of a vault, its seal, its failures and the energy guard (R96 to R100, R116, R125). -/
namespace Sys2Proof.Machine
open Sys2Proof

/-! ### The commands, at a powered device -/

section Commands
variable {s : State} (h : s.Powered)
include h

theorem exec_segmentProgramDone (i issued mask : Nat) :
    exec (.segmentProgramDone i issued mask) s = .next (s.leaves (s.dev.segDone i issued mask)) := act_on s (Dev.segDone · i issued mask) h

theorem exec_sealDurable : exec .sealDurable s = .next (s.leaves s.dev.sealDurable) := act_on s Dev.sealDurable h

theorem exec_flashProgramFail (i : Nat) (rec : Bool) : exec (.flashProgramFail i rec) s = .next (s.leaves (s.dev.programFail i rec)) :=
  act_on s (Dev.programFail · i rec) h

theorem exec_lunFailDuringVault {lun : Nat} (hl : lun < 256) : exec (.lunFailDuringVault lun) s = .next (s.leaves (s.dev.lunFailVault lun)) :=
  act_if _ s (Dev.lunFailVault · lun) h (by simpa using hl)

theorem exec_energyGuardCheck {v : Nat} (hv : v < 65536) : exec (.energyGuardCheck v) s = .next (s.leaves (s.dev.energyGuard v)) :=
  act_if _ s (Dev.energyGuard · v) h (by simpa using hv)

end Commands

/-! ### The end that waits for the segments in flight (R98, R101) -/

/-- A rescind that no segment holds up releases HOLD_EN, and VaultState stays (R101). -/
theorem Dev.rescindGo_result {d : Dev} (h : d.vst ≠ 0) :
    d.rescindGo.vst = d.vst ∧ d.rescindGo.aon = { d.aon with holdEn := false } ∧ d.rescindGo.vault = { d.vault with ending := 0 } := by
  unfold Dev.rescindGo
  dsimp only
  have hvoid := d.voidTarget_writesSlots
  generalize d.voidTarget = f at hvoid ⊢
  generalize hg : Dev.setRun _ _ = g
  have hgvst : g.vst = d.vst := by rw [← hg]; exact hvoid.vst
  have hgaon : g.aon = { d.aon with holdEn := false } := by rw [← hg, ← hvoid.aon]; rfl
  have hgvault : g.vault = { d.vault with ending := 0 } := by rw [← hg, ← hvoid.vault]; rfl
  have hup := ((KeepsRun.ite (p := g.chargeWanted = true) g.chargeStart_keepsRun (.refl g)).trans (Dev.s_keepsRun _ oSupervisorState 1 (by decide))).trans
    (Dev.beginUp_keepsRun _)
  have hsettled := hup.trans (Dev.settleUp_keepsRun (by rw [hup.vst, hgvst]; exact h))
  exact ⟨hsettled.vst.trans hgvst, hsettled.aon.trans hgaon, hsettled.vault.trans hgvault⟩

/-- Segments of the image being written that are in flight; 0 while none is written. -/
def Dev.flight (d : Dev) : Nat := match d.target_ with | some m => d.inFlight m | none => 0

/-- The energy guard's end once no segment is in flight: a last progress record of the image, and RETAIN without a seal (R98). -/
def Dev.guardEnd (d : Dev) : Dev :=
  match d.target_ with
  | some m => ((d.progress d.vault.slot m).2.setTarget (d.progress d.vault.slot m).1).retainBare 2
  | none => d.retainBare 2

theorem Dev.endFlight_eq (d : Dev) : d.endFlight = if d.vault.ending = 0 ∨ 0 < d.flight then d else if d.vault.ending = 2 then d.rescindGo else
    (d.setRun { d.vault with ending := 0 }).guardEnd := rfl

section EndFlight
variable {d : Dev}

theorem Dev.flight_of_target {m : Image} (h : d.target_ = some m) : d.flight = d.inFlight m := by
  rw [Dev.flight, h]

theorem Dev.flight_eq_zero (h : ∀ m, d.target_ = some m → d.inFlight m = 0) : d.flight = 0 := by
  unfold Dev.flight
  split
  next m hm => exact h m hm
  next => rfl

/-- Where nothing waits, nothing ends. -/
theorem Dev.endFlight_none (h : d.vault.ending = 0) : d.endFlight = d := by
  rw [Dev.endFlight_eq, if_pos (.inl h)]

/-- Segments in flight are waited for. -/
theorem Dev.endFlight_waits (h : 0 < d.flight) : d.endFlight = d := by
  rw [Dev.endFlight_eq, if_pos (.inr h)]

/-- With none in flight a rescind goes on. -/
theorem Dev.endFlight_rescind (hn : d.flight = 0) (h : d.vault.ending = 2) : d.endFlight = d.rescindGo := by
  rw [Dev.endFlight_eq, if_neg (by omega), if_pos h]

/-- With none in flight the guard's end comes. -/
theorem Dev.endFlight_guard (hn : d.flight = 0) (h : d.vault.ending = 1) : d.endFlight = (d.setRun { d.vault with ending := 0 }).guardEnd := by
  rw [Dev.endFlight_eq, if_neg (by omega), if_neg (by omega)]

end EndFlight

/-- What a progress record of a written image keeps. -/
theorem Dev.setProgress_writesSlots (d : Dev) (slot : Nat) (m : Image) : d.WritesSlots ((d.progress slot m).2.setTarget (d.progress slot m).1) :=
  (Dev.writeRec_keepsRun ..).slots.trans (Dev.setTarget_writesSlots ..)

/-- The guard's end is a RETAIN without a seal, of a device that differs in the slots of the Kennel at most. -/
theorem Dev.guardEnd_cases (d : Dev) : ∃ f : Dev, d.WritesSlots f ∧ d.guardEnd = f.retainBare 2 := by
  unfold Dev.guardEnd
  split
  next m _ => exact ⟨_, d.setProgress_writesSlots _ m, rfl⟩
  next => exact ⟨d, (KeepsRun.refl d).slots, rfl⟩

/-- The occurrences raised and the usable LUNs are as they were. -/
structure Dev.KeepsLuns (d e : Dev) : Prop where
  faultQ : e.faultQ = d.faultQ
  map : e.kennel.map = d.kennel.map

theorem Dev.KeepsPlan.luns {d e : Dev} (h : d.KeepsPlan e) : d.KeepsLuns e := ⟨h.faultQ, h.map⟩

theorem Dev.WritesSlots.luns {d e : Dev} (h : d.WritesSlots e) : d.KeepsLuns e := ⟨h.faultQ, h.map⟩

theorem Dev.KeepsLuns.trans {d e f : Dev} (h : d.KeepsLuns e) (h' : e.KeepsLuns f) : d.KeepsLuns f := ⟨h'.faultQ.trans h.faultQ, h'.map.trans h.map⟩

theorem Dev.setRun_keepsLuns (d : Dev) (v : VaultRun) : d.KeepsLuns (d.setRun v) := ⟨rfl, rfl⟩

theorem Dev.rescindGo_keepsLuns (d : Dev) : d.KeepsLuns d.rescindGo := by
  unfold Dev.rescindGo
  dsimp only
  generalize hg : Dev.setRun _ _ = g
  have hvoid : d.KeepsLuns g := by
    rw [← hg]
    exact d.voidTarget_writesSlots.luns.trans ⟨rfl, rfl⟩
  have hcharge : g.KeepsPlan (if g.chargeWanted then g.chargeStart else g) := .ite g.chargeStart_keepsRun.plan (.refl g)
  exact hvoid.trans (((hcharge.trans (Dev.s_keepsPlan ..)).trans (Dev.beginUp_keepsRun _).plan).trans (Dev.settleUp_keepsPlan _)).luns

theorem Dev.endFlight_keepsLuns (d : Dev) : d.KeepsLuns d.endFlight := by
  rw [Dev.endFlight_eq]
  split
  · exact ⟨rfl, rfl⟩
  · split
    · exact d.rescindGo_keepsLuns
    · obtain ⟨f, hslots, he⟩ := (d.setRun { d.vault with ending := 0 }).guardEnd_cases
      rw [he]
      exact ((d.setRun_keepsLuns _).trans hslots.luns).trans (Dev.retainBare_keepsPlan ..).luns

/-! ### A segment is programmed (R96, R97) -/

/-- The image once segment `i` has reported success, with `mask` its units that DRAM did not give. -/
def Image.withSegment (m : Image) (i mask : Nat) : Image :=
  let marks := m.markers i mask
  let m := { m with poison := if marks = 0 then m.poison else m.poison ++ [(i, marks)] }
  let m := { m with done := m.done ++ [i], manifest := m.manifest || decide (i = 0) }
  let n := prefixOf m.done m.done.length m.durable
  { m with durable := n, done := m.done.filter fun j => n ≤ j }

/-- The image being written with a progress record, where one is due for its durable prefix or for its relocations. -/
def Dev.recorded (d : Dev) (m : Image) : Image × Dev :=
  if d.recordDue m m.durable ∨ 227 < m.waitRelocs.length then d.progress d.vault.slot m else (m, d)

/-- The device once the image being written is `m`, with the record that is due. -/
def Dev.noteSegment (d : Dev) (m : Image) : Dev :=
  let e := (d.recorded m).2
  let e := if d.recordDue m m.durable then e.setRun { e.vault with mark := (m.durable * 65536 / 268435456 + 1) * 268435456 } else e
  (e.setTarget (d.recorded m).1).outage 8 8 (m.durable * 65536)

/-- The durable prefix takes in a segment, and what follows it in the list of those programmed (R96). -/
theorem Image.withSegment_durable (m : Image) (i mask : Nat) :
    (m.withSegment i mask).durable = prefixOf (m.done ++ [i]) (m.done.length + 1) m.durable ∧ (m.withSegment i mask).plan = m.plan := by
  refine ⟨?_, rfl⟩
  have hlen : m.done.length + 1 = (m.done ++ [i]).length := by simp
  rw [hlen]
  rfl

/-- A record of the image being written changes of the image its records alone. -/
theorem Dev.recorded_spec (d : Dev) (m : Image) :
    (d.recorded m).1.durable = m.durable ∧ (d.recorded m).1.plan = m.plan ∧ d.KeepsRun (d.recorded m).2 := by
  unfold Dev.recorded
  split
  · obtain ⟨recs, num, pages, h⟩ := d.writeRec_image d.vault.slot m { kind := 1, durable := m.durable, evLast := d.evFlushed, restripe := m.restripe, reloc := m.waitRelocs.take 227 }
    refine ⟨?_, ?_, Dev.writeRec_keepsRun ..⟩ <;> rw [Dev.progress, h]
  · exact ⟨rfl, rfl, .refl d⟩

theorem Dev.noteSegment_spec {d : Dev} {m₀ : Image} (ht : d.target_ = some m₀) (m : Image) :
    (d.noteSegment m).target_ = some (d.recorded m).1 ∧ (d.noteSegment m).vst = d.vst ∧ (d.noteSegment m).vault.issued = d.vault.issued ∧
      (d.noteSegment m).vault.ending = d.vault.ending := by
  obtain ⟨-, -, hkept⟩ := d.recorded_spec m
  unfold Dev.noteSegment
  dsimp only
  generalize hf : (if d.recordDue m m.durable = true then (d.recorded m).2.setRun _ else (d.recorded m).2) = f
  have hf' : f.target_ = some m₀ ∧ f.vst = d.vst ∧ f.vault.issued = d.vault.issued ∧ f.vault.ending = d.vault.ending := by
    have htarget := (Dev.target_congr hkept.vault hkept.kennel).trans ht
    have hissued := congrArg VaultRun.issued hkept.vault
    have hending := congrArg VaultRun.ending hkept.vault
    rw [← hf]
    split <;> exact ⟨htarget, hkept.vst, hissued, hending⟩
  obtain ⟨h1, h2, h3, h4⟩ := hf'
  have hout := (f.setTarget (d.recorded m).1).outage_keepsRun 8 8 (m.durable * 65536)
  have hslots := f.setTarget_writesSlots (d.recorded m).1
  exact ⟨(Dev.target_congr hout.vault hout.kennel).trans (Dev.target_setTarget h1 _), hout.vst.trans (hslots.vst.trans h2),
    by rw [hout.vault, hslots.vault, h3], by rw [hout.vault, hslots.vault, h4]⟩

/-- A segment in flight that reports success joins the image; the seal is issued when the durable prefix reaches it, and otherwise an end that waits may
come. -/
theorem Dev.segDone_eq {d : Dev} {m : Image} {i issued mask top a : Nat} (ht : d.target_ = some m) (hw : d.writes = true) (hcut : i ∉ d.vault.cut)
    (htop : top = if d.vault.stop then d.vault.issued else min (if d.vault.spill then m.plan - 1 else m.upTo 3) (max d.vault.issued issued))
    (hi : i < top) (hdur : m.durable ≤ i) (hdone : i ∉ m.done) (ha : d.segAddr m d.vault.slot i = some a) :
    ∃ g : Dev, (d.setRun { d.vault with issued := top }).KeepsRun g ∧ d.segDone i issued mask =
      if (m.withSegment i mask).durable = (g.recorded (m.withSegment i mask)).1.plan - 1 ∧ (g.noteSegment (m.withSegment i mask)).vault.ending = 0 then
        (g.noteSegment (m.withSegment i mask)).sealIssue (g.recorded (m.withSegment i mask)).1 else (g.noteSegment (m.withSegment i mask)).endFlight := by
  have ha' : (d.setRun { d.vault with issued := top }).segAddr m (d.setRun { d.vault with issued := top }).vault.slot i = some a := ha
  have hgo : ¬ (top ≤ i ∨ i < m.durable ∨ m.done.contains i = true ∨ (d.setRun { d.vault with issued := top }).vault.cut.contains i = true) := by
    simp only [List.contains_iff_mem, not_or]
    exact ⟨by omega, by omega, hdone, hcut⟩
  subst htop
  unfold Dev.segDone
  rw [if_pos hw, ht]
  generalize he : d.setRun _ = e at ha' hgo ⊢
  refine ⟨e.emit .flash [a, m.stepOf i]
    (e.segData { m with poison := if m.markers i mask = 0 then m.poison else m.poison ++ [(i, m.markers i mask)] } e.vault.slot i), Dev.emit_keepsRun .., ?_⟩
  subst he
  refine (if_neg hgo).trans ?_
  rw [ha']
  rfl

/-- The issue of the seal begins SEAL, and is the commit point (R97, R125). -/
theorem Dev.sealIssue_result (d : Dev) (m : Image) : (d.sealIssue m).vst = 6 ∧ (d.sealIssue m).vault.commit = true := by
  unfold Dev.sealIssue
  dsimp only
  generalize Dev.step5Durable _ = e
  exact ⟨((e.setVaultState_moves (v := 6) (by decide)).keeps (Dev.furthest_keepsRun _ 6)).vst, rfl⟩

section SegmentDone
variable {d : Dev} {m : Image} {i issued mask top a : Nat} (ht : d.target_ = some m) (hv : d.vst = 5) (hcut : i ∉ d.vault.cut)
  (htop : top = if d.vault.stop then d.vault.issued else min (if d.vault.spill then m.plan - 1 else m.upTo 3) (max d.vault.issued issued))
  (hi : i < top) (hdur : m.durable ≤ i) (hdone : i ∉ m.done) (ha : d.segAddr m d.vault.slot i = some a) (he : d.vault.ending = 0)
include ht hv hcut htop hi hdur hdone ha he

/-- A segment before the last joins the durable prefix, and VAULT goes on. -/
theorem Dev.segDone_middle (hn : (m.withSegment i mask).durable ≠ m.plan - 1) :
    (d.segDone i issued mask).vst = 5 ∧ (d.segDone i issued mask).vault.issued = top ∧
      ∃ m', (d.segDone i issued mask).target_ = some m' ∧ m'.durable = (m.withSegment i mask).durable := by
  obtain ⟨g, hg, heq⟩ := Dev.segDone_eq (mask := mask) ht (by simp [Dev.writes, hv]) hcut htop hi hdur hdone ha
  obtain ⟨hdurable, hplan, -⟩ := g.recorded_spec (m.withSegment i mask)
  obtain ⟨htarget, hvst, hissued, hending⟩ := Dev.noteSegment_spec ((Dev.target_congr hg.vault hg.kennel).trans ht) (m.withSegment i mask)
  rw [heq, if_neg (fun h => hn (h.1.trans (congrArg (· - 1) hplan))), Dev.endFlight_none (by rw [hending, hg.vault]; exact he)]
  exact ⟨by rw [hvst, hg.vst]; exact hv, by rw [hissued, hg.vault]; rfl, _, htarget, hdurable⟩

/-- With the last segment before the seal durable, the seal is issued. -/
theorem Dev.segDone_last (hn : (m.withSegment i mask).durable = m.plan - 1) :
    (d.segDone i issued mask).vst = 6 ∧ (d.segDone i issued mask).vault.commit = true := by
  obtain ⟨g, hg, heq⟩ := Dev.segDone_eq (mask := mask) ht (by simp [Dev.writes, hv]) hcut htop hi hdur hdone ha
  obtain ⟨-, hplan, -⟩ := g.recorded_spec (m.withSegment i mask)
  obtain ⟨-, -, -, hending⟩ := Dev.noteSegment_spec ((Dev.target_congr hg.vault hg.kennel).trans ht) (m.withSegment i mask)
  rw [heq, if_pos ⟨hn.trans (congrArg (· - 1) hplan).symm, by rw [hending, hg.vault]; exact he⟩]
  exact Dev.sealIssue_result ..

end SegmentDone

/-! ### The seal is durable (R97, R102) -/

theorem Dev.sealDurable_result {d : Dev} {m : Image} (ht : d.target_ = some m) (hv : d.vst = 6) (hc : d.vault.commit = true) (hp : d.power.full = false)
    (hw : d.vault.wakeDue = false) (h3 : d.vault.trigger ≠ 3) (h5 : d.vault.trigger ≠ 5) :
    d.sealDurable.vst = 7 ∧ ∃ m', (d.sealDurable.slotK d.vault.slot).image = some m' ∧ m'.sealOk = true ∧ m'.durable = m.plan - 1 := by
  have hs := Dev.slot_le_of_target ht
  unfold Dev.sealDurable
  rw [if_pos (by simp [hv, hc, hp]), ht]
  dsimp only
  have hset : d.setTarget { m with sealOk := true, durable := m.plan - 1 } =
      d.setSlotK d.vault.slot { d.slotK d.vault.slot with image := some { m with sealOk := true, durable := m.plan - 1 } } := if_pos hs
  rw [hset]
  generalize hf : Dev.setSlotK d d.vault.slot _ = f
  have hvault : f.vault = d.vault := by rw [← hf]; exact (d.setSlotK_writesSlots ..).vault
  have himage : (f.slotK d.vault.slot).image = some { m with sealOk := true, durable := m.plan - 1 } := by rw [← hf, Dev.slotK_setSlotK_same]
  have hcounted : f.KeepsRun ((f.inc oVaultsSealed 32).outage 2 1 1) := KeepsRun.trans (Dev.su_keepsRun _ _ (by decide)) (Dev.outage_keepsRun ..)
  have hout := hcounted.trans (Dev.outage_keepsRun _ 8 8 (m.plan * 65536))
  generalize (((f.inc oVaultsSealed).outage 2 1 1).outage 8 8 (m.plan * 65536)) = g at hout ⊢
  have hmoves := Dev.retain_moves (d := g) (by rw [hout.vault, hvault, hw])
  rw [Dev.afterSeal, if_neg (by rw [hout.vault, hvault]; simp [h3, h5])]
  refine ⟨hmoves.vst, { m with sealOk := true, durable := m.plan - 1 }, ?_, rfl, rfl⟩
  rw [Dev.slotK_congr hmoves.kennel, Dev.noTarget_image, Dev.slotK_congr hout.kennel, himage]

/-! ### Failures on the way (R100, R116) -/

/-- Both copies of the latest progress record are lost: the records before it stay. -/
theorem Dev.programFail_record {d : Dev} {m : Image} (ht : d.target_ = some m) (hv : d.vst = 5) (i : Nat) :
    d.programFail i true = d.recordLost m := by
  unfold Dev.programFail
  rw [if_pos (by simp [Dev.writes, hv]), ht]
  rfl

theorem Dev.recordLost_none {d : Dev} {m : Image} (h : ∀ r ∈ m.recs, r.kind ≠ 1) : d.recordLost m = d := by
  have hnone : (m.recs.filter (·.kind = 1)).getLast? = none := by simpa using h
  rw [Dev.recordLost, hnone]

theorem Dev.recordLost_some {d : Dev} {m : Image} {r : KRec} (ht : d.target_ = some m) (h : (m.recs.filter (·.kind = 1)).getLast? = some r) :
    ∃ m', (d.recordLost m).target_ = some m' ∧ m'.recs = m.recs.filter (· ≠ r) ∧ m'.durable = m.durable := by
  rw [Dev.recordLost, h]
  exact ⟨_, Dev.target_setTarget ht _, rfl, rfl⟩

/-- A relocation writes the Kennel's LUNs alone, and gives the segment an address. -/
theorem Dev.relocate_some {d : Dev} {m : Image} {i : Nat} {p : Image × Dev} (h : d.relocate m i = some p) :
    ∃ a n x, (i, a) ∈ p.1.reloc ∧ p.2 = d.setLun n x := by
  unfold Dev.relocate at h
  obtain ⟨n, -, h⟩ := Option.bind_eq_some_iff.1 h
  obtain ⟨⟨b, row, x⟩, -, rfl⟩ := Option.map_eq_some_iff.1 h
  exact ⟨kennelAddr n b row, n, x, by simp, rfl⟩

theorem Dev.relocate_keepsLuns {d : Dev} {m : Image} {i : Nat} {p : Image × Dev} (h : d.relocate m i = some p) : d.KeepsLuns p.2 := by
  obtain ⟨a, n, x, -, hp⟩ := Dev.relocate_some h
  rw [hp]
  exact ⟨rfl, rfl⟩

/-- With a reserve block left on a usable LUN, a segment can be relocated. -/
theorem Dev.relocate_isSome {d : Dev} {lun : Nat} (hm : lun ∈ d.kennel.map) (hr : (d.reserveFree lun).isSome = true) (m : Image) (i : Nat) :
    (d.relocate m i).isSome = true := by
  have hrow : (d.relocRow lun).isSome = true := by
    unfold Dev.relocRow
    dsimp only
    split
    · split
      · rfl
      · simpa using hr
    · simpa using hr
  have hfound : (d.kennel.map.find? fun n => (d.relocRow n).isSome).isSome = true := List.find?_isSome.2 ⟨lun, hm, hrow⟩
  obtain ⟨n, hn⟩ := Option.isSome_iff_exists.1 hfound
  have hnrow : (d.relocRow n).isSome = true := by simpa using List.find?_some hn
  rw [Dev.relocate, hn]
  simpa using hnrow

theorem Dev.relocateAll_keepsLuns (d : Dev) (m : Image) (l : List Nat) : ∀ p, d.relocateAll m l = some p → d.KeepsLuns p.2 := by
  unfold Dev.relocateAll
  refine List.foldlRecOn l _ (motive := fun o => ∀ p : Image × Dev, o = some p → d.KeepsLuns p.2) ?_ fun o ho i _ p hp => ?_
  · rintro _ ⟨⟩
    exact ⟨rfl, rfl⟩
  · obtain ⟨q, hq, hq'⟩ := Option.bind_eq_some_iff.1 hp
    exact (ho q hq).trans (Dev.relocate_keepsLuns hq')

theorem Dev.retainBare_keepsLuns (d : Dev) (res : Nat) : d.KeepsLuns (d.retainBare res) := (d.retainBare_keepsPlan res).luns

/-- However a LUN leaves the plan, it leaves the map as a failed LUN does, and no further source is raised. -/
theorem Dev.lunOut_keepsLuns (d : Dev) (m : Image) (lun : Nat) : (d.lunFail lun).KeepsLuns (d.lunOut m lun) := by
  unfold Dev.lunOut
  dsimp only
  generalize d.lunFail lun = e
  split
  · exact e.retainBare_keepsLuns 2
  · split
    · exact (e.setRun_keepsLuns _).trans (Dev.endFlight_keepsLuns _)
    · split
      · exact e.retainBare_keepsLuns 2
      next m' f hf => exact (Dev.relocateAll_keepsLuns _ _ _ _ hf).trans (f.setTarget_writesSlots _).luns

/-- The failed program of a segment on LUN `lun`: the channel's source is raised, and the segment has been issued. -/
def Dev.noteFail (d : Dev) (i lun : Nat) : Dev :=
  let d := d.fault (496 + lun / 16)
  d.setRun { d.vault with issued := if d.vault.stop then d.vault.issued else max d.vault.issued (i + 1) }

/-- Until the sequence ends, the failed segment counts as issued. -/
theorem Dev.noteFail_issued {d : Dev} (h : d.vault.stop = false) (i lun : Nat) : i < (d.noteFail i lun).vault.issued := by
  have heq : (d.noteFail i lun).vault.issued = if d.vault.stop = true then d.vault.issued else max d.vault.issued (i + 1) := rfl
  rw [heq, if_neg (by simp [h])]
  omega

/-- A failed segment that was issued is relocated, or its LUN leaves the plan; once the sequence ends it is written no more. -/
def Dev.reissue (d : Dev) (m : Image) (i lun : Nat) : Dev :=
  if d.vault.issued ≤ i then d
  else if (d.reserveFree lun).isNone then d.lunOut m lun
  else if d.vault.ending ≠ 0 then (d.setRun { d.vault with cut := d.vault.cut ++ [i] }).endFlight
  else match d.relocate m i with
    | some (m, d) => d.setTarget m
    | none => d.vaultLost

theorem Dev.programFail_segment {d : Dev} {m : Image} {i : Nat} (ht : d.target_ = some m) (hv : d.vst = 5) (hdur : m.durable ≤ i) (hi : i < m.plan - 1)
    (hdone : i ∉ m.done) (hcut : i ∉ d.vault.cut) : d.programFail i false = (d.noteFail i (d.segLun m i)).reissue m i (d.segLun m i) := by
  unfold Dev.programFail
  rw [if_pos (by simp [Dev.writes, hv]), ht]
  refine (if_neg Bool.false_ne_true).trans ((if_neg (by omega)).trans ((if_pos ⟨hdur, hi, by simpa using hdone, by simpa using hcut⟩).trans ?_))
  rfl

theorem Dev.reissue_faultQ (d : Dev) (m : Image) (i lun : Nat) : (d.reissue m i lun).faultQ = d.faultQ := by
  unfold Dev.reissue
  split
  · rfl
  · split
    · exact (d.lunOut_keepsLuns m lun).faultQ
    · split
      · exact ((d.setRun_keepsLuns _).trans (Dev.endFlight_keepsLuns _)).faultQ
      · cases hr : d.relocate m i with
        | none => exact (d.retainBare_keepsLuns 2).faultQ
        | some p => exact ((Dev.relocate_keepsLuns hr).trans (p.2.setTarget_writesSlots _).luns).faultQ

/-- With a reserve block left on its LUN, a failed segment is relocated, and VAULT goes on. -/
theorem Dev.reissue_relocates {d : Dev} {m : Image} {i lun : Nat} (ht : d.target_ = some m) (hi : i < d.vault.issued) (he : d.vault.ending = 0)
    (hm : lun ∈ d.kennel.map) (hr : (d.reserveFree lun).isSome = true) :
    (d.reissue m i lun).vst = d.vst ∧ ∃ m' a, (d.reissue m i lun).target_ = some m' ∧ (i, a) ∈ m'.reloc := by
  obtain ⟨p, hp⟩ := Option.isSome_iff_exists.1 (Dev.relocate_isSome hm hr m i)
  obtain ⟨a, n, x, hmem, hdev⟩ := Dev.relocate_some hp
  have heq : d.reissue m i lun = (d.setLun n x).setTarget p.1 := by
    rw [Dev.reissue, if_neg (by omega), if_neg (by simp [Option.isSome_iff_ne_none.1 hr]), if_neg (by simp [he]), hp, ← hdev]
  rw [heq]
  exact ⟨(Dev.setTarget_writesSlots ..).vst, p.1, a, Dev.target_setTarget (show (d.setLun n x).target_ = some m from ht) _, hmem⟩

/-- A LUN that fails during a vault leaves the map, and its channel's source is raised. -/
theorem Dev.lunFailVault_result {d : Dev} {m : Image} {lun : Nat} (ht : d.target_ = some m) (hv : d.vst = 5 ∨ d.vst = 6) (hm : lun ∈ d.kennel.map) :
    lun ∉ (d.lunFailVault lun).kennel.map ∧ (d.lunFailVault lun).Raised (496 + lun / 16) := by
  have heq : d.lunFailVault lun = (d.fault (496 + lun / 16)).lunOut m lun := by
    unfold Dev.lunFailVault
    rw [if_neg (by simp [hm]; omega)]
    dsimp only
    have hwrites : (d.fault (496 + lun / 16)).writes = true ∨ (d.fault (496 + lun / 16)).vst = 6 := hv.imp (fun h => by
      change d.writes = true
      simp [Dev.writes, h]) id
    have htarget : (d.fault (496 + lun / 16)).target_ = some m := ht
    rw [if_pos hwrites, htarget]
  have hkept := (d.fault (496 + lun / 16)).lunOut_keepsLuns m lun
  rw [heq]
  refine ⟨?_, (d.raised_fault _).of_faultQ hkept.faultQ⟩
  rw [hkept.map]
  change lun ∉ d.kennel.map.filter (· ≠ lun)
  simp

/-! ### The energy guard (R98) -/

/-- The guard's check draws one free value; what it finds is decided before that. -/
def Dev.guardDrawn (d : Dev) : Dev := { d with free := d.free + 1 }

section Guard
variable {d : Dev} {m : Image} {v : Nat}

theorem Dev.energyGuard_idle (h : d.vault.guard = false ∨ d.vault.empty = true ∨ d.g oERetainMin * 1000 ≤ d.guardEnergy v) :
    d.energyGuard v = d.guardDrawn := by
  have hlow : ¬ (d.vault.guard = true ∧ ¬ d.vault.empty = true ∧ d.guardEnergy v < d.g oERetainMin * 1000) := by
    rintro ⟨hg, he, hl⟩
    rcases h with h | h | h
    · simp [h] at hg
    · exact he h
    · omega
  unfold Dev.energyGuard
  exact if_neg fun hc => hlow ⟨hc.1, hc.2.2.1, of_decide_eq_true hc.2.2.2.2⟩

variable (ht : d.target_ = some m) (hg : d.vault.guard = true) (hv : d.vst = 5) (he : d.vault.empty = false) (hn : d.vault.ending = 0)
  (hl : d.guardEnergy v < d.g oERetainMin * 1000)
include hg hv he hn hl

/-- With too little energy no further segment is issued, and the end waits for those in flight. -/
theorem Dev.energyGuard_low : d.energyGuard v = (d.guardDrawn.setRun { d.vault with stop := true, ending := 1 }).endFlight := by
  unfold Dev.energyGuard
  exact if_pos ⟨hg, .inl hv, by simp [he], hn, decide_eq_true hl⟩

include ht

theorem Dev.energyGuard_waits (hf : 0 < d.inFlight m) :
    (d.energyGuard v).vst = 5 ∧ (d.energyGuard v).vault.stop = true ∧ (d.energyGuard v).target_ = some m := by
  have htarget : (d.guardDrawn.setRun { d.vault with stop := true, ending := 1 }).target_ = some m := ht
  rw [Dev.energyGuard_low hg hv he hn hl, Dev.endFlight_waits (by rw [Dev.flight_of_target htarget]; exact hf)]
  exact ⟨hv, rfl, htarget⟩

theorem Dev.energyGuard_retains (hf : d.inFlight m = 0) (hw : d.vault.wakeDue = false) : (d.energyGuard v).vst = 7 ∧ (d.energyGuard v).vault.stop = true := by
  have htarget : (d.guardDrawn.setRun { d.vault with stop := true, ending := 1 }).target_ = some m := ht
  rw [Dev.energyGuard_low hg hv he hn hl, Dev.endFlight_guard (by rw [Dev.flight_of_target htarget]; exact hf) rfl]
  obtain ⟨f, hslots, hend⟩ := ((d.guardDrawn.setRun { d.vault with stop := true, ending := 1 }).setRun { d.vault with stop := true, ending := 0 }).guardEnd_cases
  have hend' : Dev.guardEnd (Dev.setRun _ _) = f.retainBare 2 := hend
  refine hend' ▸ ⟨Dev.retainBare_vst (by rw [hslots.vault]; exact hw) 2, ?_⟩
  rw [(f.retainBare_keepsPlan 2).vault, hslots.vault]
  rfl

end Guard

end Sys2Proof.Machine
end

section
open Sys2Proof Sys2Proof.Machine

/-- Settles O38: each command by the lemmas of its outcomes. -/
theorem segmentsSealAndEnergyGuard : Obligations.SegmentsSealAndEnergyGuard := by
  unfold Obligations.SegmentsSealAndEnergyGuard
  rintro s d m hp rfl ht
  refine ⟨?done, ?sealed, ?record, ?failed, ?lun, ?low, ?idle⟩
  case done =>
    intro i issued mask top n a hv he hcut htop hi hdur hdone ha hn
    rw [← (m.withSegment_durable i mask).1] at hn
    subst hn
    exact ⟨fun hmiddle => ⟨_, exec_segmentProgramDone hp i issued mask, Dev.segDone_middle ht hv hcut htop hi hdur hdone ha he hmiddle⟩,
      fun hlast => ⟨_, exec_segmentProgramDone hp i issued mask, Dev.segDone_last ht hv hcut htop hi hdur hdone ha he hlast⟩⟩
  case sealed => exact fun hv hc hfull hw h3 h5 => ⟨_, exec_sealDurable hp, Dev.sealDurable_result ht hv hc hfull hw h3 h5⟩
  case record =>
    intro hv i
    refine ⟨fun hnone => ?_, fun r hr => ⟨_, exec_flashProgramFail hp i true, ?_⟩⟩
    · rw [exec_flashProgramFail hp, Dev.programFail_record ht hv, Dev.recordLost_none hnone]
    · rw [Dev.programFail_record ht hv]
      exact Dev.recordLost_some ht hr
  case failed =>
    intro i lun hv hdur hi hdone hcut hlun
    have heq := Dev.programFail_segment ht hv hdur hi hdone hcut
    subst hlun
    refine ⟨⟨_, exec_flashProgramFail hp i false, ?_⟩, fun hstop he hm hr => ⟨_, exec_flashProgramFail hp i false, ?_⟩⟩
    · rw [heq]
      exact (s.dev.raised_fault _).of_faultQ (Dev.reissue_faultQ ..)
    · rw [heq]
      obtain ⟨hvst, hreloc⟩ := Dev.reissue_relocates (d := s.dev.noteFail i (s.dev.segLun m i)) ht (Dev.noteFail_issued hstop i _) he hm hr
      exact ⟨hvst.trans hv, hreloc⟩
  case lun => exact fun lun hl hv hm _ => ⟨_, exec_lunFailDuringVault hp hl, Dev.lunFailVault_result ht hv hm⟩
  case low =>
    intro v hv hg h5 he hn hlow
    exact ⟨fun hf hw => ⟨_, exec_energyGuardCheck hp hv, Dev.energyGuard_retains ht hg h5 he hn hlow hf hw⟩,
      fun hf => ⟨_, exec_energyGuardCheck hp hv, Dev.energyGuard_waits ht hg h5 he hn hlow hf⟩⟩
  case idle =>
    intro v hv hidle
    rw [exec_energyGuardCheck hp hv, Dev.energyGuard_idle hidle]
    rfl

end

section
/-! PROOFS. Power that returns in a vault, DARK, and what waits for the supervisor (R101, R102, R103, R171, R419). -/
namespace Sys2Proof.Machine
open Sys2Proof

/-! ### The commands, at a powered device -/

section Commands
variable {s : State} (h : s.Powered)
include h

theorem exec_rescindTimerExpire : exec .rescindTimerExpire s = .next (s.leaves s.dev.rescindTimer) := act_on s Dev.rescindTimer h

theorem exec_rescindResumeComplete : exec .rescindResumeComplete s = .next (s.leaves s.dev.rescindResume) := act_on s Dev.rescindResume h

theorem exec_retainToDark : exec .retainToDark s = .next (s.leaves s.dev.retainToDark) := act_on s Dev.retainToDark h

theorem exec_supervisorRestartComplete : exec .supervisorRestartComplete s = .next (s.leaves s.dev.supRestarted) := act_on s Dev.supRestarted h

theorem exec_lshSyncStuck : exec .lshSyncStuck s = .next (s.leaves s.dev.syncStuck) := act_on s Dev.syncStuck h

end Commands

/-! ### The rescind (R101) -/

section Rescind
variable {d : Dev}

/-- What a rescind begins with. -/
theorem Dev.rescind_begins (d : Dev) : ∃ g : Dev, g.vst = 9 ∧ g.aon = d.aon ∧ g.vault = { d.vault with stop := true, ending := 2 } ∧ g.flight = d.flight ∧
    d.rescind = g.endFlight := by
  have hmoves := d.setVaultState_moves (v := 9) (by decide)
  have htarget := Dev.target_congr hmoves.vault hmoves.kennel
  refine ⟨(d.setVaultState 9).setRun { d.vault with stop := true, ending := 2 }, hmoves.vst, hmoves.aon, rfl, ?_, rfl⟩
  have hflight : (d.setVaultState 9).flight = d.flight := by
    simp only [Dev.flight, htarget, Dev.inFlight, hmoves.vault]
  rw [← hflight, ← hmoves.vault]
  rfl

/-- With no segment in flight a rescind releases HOLD_EN. -/
theorem Dev.rescind_done (h : d.flight = 0) :
    d.rescind.vst = 9 ∧ d.rescind.aon = { d.aon with holdEn := false } ∧ d.rescind.vault = { d.vault with stop := true, ending := 0 } := by
  obtain ⟨g, hvst, haon, hvault, hflight, heq⟩ := d.rescind_begins
  obtain ⟨h1, h2, h3⟩ := Dev.rescindGo_result (d := g) (by rw [hvst]; decide)
  rw [heq, Dev.endFlight_rescind (hflight.trans h) (by rw [hvault])]
  exact ⟨h1.trans hvst, by rw [h2, haon], by rw [h3, hvault]⟩

/-- A rescind waits for the segments in flight. -/
theorem Dev.rescind_waits (h : 0 < d.flight) :
    d.rescind.vst = 9 ∧ d.rescind.aon = d.aon ∧ d.rescind.vault = { d.vault with stop := true, ending := 2 } := by
  obtain ⟨g, hvst, haon, hvault, hflight, heq⟩ := d.rescind_begins
  rw [heq, Dev.endFlight_waits (hflight ▸ h)]
  exact ⟨hvst, haon, hvault⟩

/-- The return of power releases LSH_SYNC_N (R171). -/
def Dev.lineReleased (d : Dev) : Dev :=
  let d := d.releaseSync
  ({ d with aon := { d.aon with lshSyncN := true } }).unlive 30

theorem Dev.rescindTimer_eq (d : Dev) : d.rescindTimer =
    if 2 < d.vault.trigger ∨ d.vault.trigger = 0 then d.lineReleased
    else if (2 ≤ d.vst ∧ d.vst ≤ 5) ∨ (d.vst = 6 ∧ ¬ d.vault.commit) then d.lineReleased.rescind
    else if d.vst = 6 then d.lineReleased.setRun { d.lineReleased.vault with wakeDue := true }
    else if d.vst = 7 then d.lineReleased.wakeFromRetain
    else d.lineReleased := rfl

section PowerTrigger
variable (ht : d.vault.trigger = 1 ∨ d.vault.trigger = 2)
include ht

theorem Dev.rescindTimer_rescinds (hv : (2 ≤ d.vst ∧ d.vst ≤ 5) ∨ (d.vst = 6 ∧ d.vault.commit = false)) :
    d.rescindTimer = d.lineReleased.rescind := by
  rw [Dev.rescindTimer_eq, if_neg (by omega), if_pos (by simpa using hv)]

theorem Dev.rescindTimer_seal (hv : d.vst = 6) (hc : d.vault.commit = true) :
    d.rescindTimer = d.lineReleased.setRun { d.lineReleased.vault with wakeDue := true } := by
  rw [Dev.rescindTimer_eq, if_neg (by omega), if_neg (by simp [hv, hc]), if_pos hv]

theorem Dev.rescindTimer_retain (hv : d.vst = 7) : d.rescindTimer = d.lineReleased.wakeFromRetain := by
  rw [Dev.rescindTimer_eq, if_neg (by omega), if_neg (by omega), if_neg (by omega), if_pos hv]

end PowerTrigger

theorem Dev.rescindTimer_other (ht : 3 ≤ d.vault.trigger) : d.rescindTimer = d.lineReleased := by
  rw [Dev.rescindTimer_eq, if_pos (by omega)]

/-! ### The end of a rescind (R101) -/

theorem Dev.nextImage_vault (d : Dev) : d.nextImage.vault = d.vault := rfl

/-- A change of VaultState leaves the run of the sequence as it is. -/
theorem Dev.setVaultState_vault (d : Dev) (v : Nat) : (d.setVaultState v).vault = d.vault := by
  have hset := ((Dev.record_keepsRun (d.s oVaultState v) 0x501 0 uChip d.vst v (byteOf (d.g oLastOutage) 2) 0).trans (Dev.notify_keepsRun _ 0x03 v uChip)).vault
  unfold Dev.setVaultState
  dsimp only
  split
  · rfl
  · split
    · rw [Dev.nextImage_vault, hset]
      rfl
    · exact hset

/-- Once the rails have settled and nothing is in flight, FREEZE is released in the state that the outage returns to. -/
theorem Dev.rescindResume_eq (hv : d.vst = 9) (hs : d.power.seqUp = false) (he : d.vault.ending = 0) :
    ∃ f : Dev, f.vst = d.afterOutage ∧ f.vault.shed = [] ∧ d.rescindResume =
      (let g := f.unfreeze.reissuePages.drainAgain; if f.vault.slot ≤ 1 then g.eraseSlot f.vault.slot else g).armEval := by
  unfold Dev.rescindResume
  rw [if_neg (by simp [hv, hs, he])]
  dsimp only
  generalize hg : Dev.setRun _ _ = g
  have hvault := g.setVaultState_vault d.afterOutage
  refine ⟨g.setVaultState d.afterOutage, Dev.setVaultState_vst .., ?_, by rw [hvault]⟩
  rw [hvault, ← hg]
  rfl

end Rescind

/-! ### DARK (R103) -/

theorem Dev.rail_of_power {d e : Dev} (h : e.power = d.power) (r : Nat) : e.rail r = d.rail r := by rw [Dev.rail, h, Dev.rail]

/-- A rail that moves keeps its enable, and so does every other. -/
theorem Dev.setRst_en (d : Dev) (r t w : Nat) : ((d.setRst r t).rail w).en = (d.rail w).en := by
  unfold Dev.setRst
  dsimp only
  generalize hf : ((d.sr oRailState r t).setRail r _).record 0x100 0 uSup r (d.rst r) t (d.gr oRailVoltage r) = f
  have hset : (f.rail w).en = (d.rail w).en := by
    rw [← hf, Dev.rail_of_power (Dev.record_power ..), Dev.rail_setRail]
    split
    next h => rw [h]
    next => rfl
  generalize hg : (if d.rst r = 3 then f.unlive (528 + r) else if d.rst r = 4 then f.unlive (552 + r) else f) = g
  have hkept : g.power = f.power := by
    rw [← hg]
    split
    · rfl
    · split <;> rfl
  split
  · rfl
  · rw [← hset]
    split
    · exact congrArg Rail.en (Dev.rail_of_power hkept w)
    · exact congrArg Rail.en (Dev.rail_of_power hkept w)

/-- Rails that fall have their enables released. -/
theorem Dev.dropped_en (l : List Nat) : ∀ (d : Dev) (r : Nat),
    ((l.foldl (fun d r => (d.releaseRail r).setRst r 0) d).rail r).en = if r ∈ l then false else (d.rail r).en := by
  induction l with
  | nil => intro d r; simp
  | cons u l ih =>
    intro d r
    rw [List.foldl_cons, ih, Dev.setRst_en, Dev.releaseRail, Dev.rail_setRail]
    by_cases hu : r = u <;> simp [hu]

theorem Dev.dark_result (d : Dev) :
    d.dark.vst = 0 ∧ d.dark.sup = 0 ∧ d.dark.aon.holdEn = false ∧ d.dark.aon.powered = false ∧ ∀ r < 16, (d.dark.rail r).en = false := by
  unfold Dev.dark
  dsimp only
  generalize d.furthest 8 = e
  have hdropped : ∀ r < 16, (e.dropRails.rail r).en = false := fun r hr => by
    have hmem : r ∈ cmdRails := List.mem_range.2 hr
    rw [Dev.dropRails, Dev.dropped_en, if_pos hmem]
  generalize e.dropRails = f at hdropped ⊢
  generalize hg : ({ f with aon := _ } : Dev) = g
  have haon : g.aon.holdEn = false ∧ g.aon.powered = false := by
    rw [← hg]
    exact ⟨rfl, rfl⟩
  have hpower : g.power = f.power := by rw [← hg]
  have hvst : (g.s oVaultState 0).vst = 0 := Dev.g_s_same ..
  exact ⟨((g.s oVaultState 0).s_keepsRun oSupervisorState 0 (by decide)).vst.trans hvst, Dev.g_s_same .., haon.1, haon.2,
    fun r hr => (congrArg Rail.en (Dev.rail_of_power hpower r)).trans (hdropped r hr)⟩

/-! ### The supervisor's restart, and a stuck line (R171, R419) -/

/-- The supervisor runs again. -/
def Dev.supRunning (d : Dev) : Dev := { d with aon := { d.aon with wdRestart := false } }

/-- The restart of the supervisor lets a vault that hardware held go on. -/
theorem Dev.supRestarted_result (d : Dev) :
    d.supRestarted.aon.wdRestart = false ∧ (d.vault.held = true → d.vst = 2 → d.supRestarted.vst = 3 ∧ d.supRestarted.vault.held = false) := by
  by_cases h : d.vault.held = true ∧ d.vst = 2
  · have heq : d.supRestarted = ((d.supRunning.setRun { d.vault with held := false }).setVaultState 3).furthest 3 := if_pos h
    have hmoves := ((d.supRunning.setRun { d.vault with held := false }).setVaultState_moves (v := 3) (by decide)).keeps (Dev.furthest_keepsRun _ 3)
    rw [heq]
    exact ⟨by rw [hmoves.aon]; rfl, fun _ _ => ⟨hmoves.vst, by rw [hmoves.vault]; rfl⟩⟩
  · have heq : d.supRestarted = d.supRunning := if_neg h
    rw [heq]
    exact ⟨rfl, fun hheld h2 => absurd ⟨hheld, h2⟩ h⟩

/-- The line is stuck where no roster node accounts for it. -/
theorem Dev.syncStuck_raises {d : Dev} (hl : d.aon.lshEn = true) (hs : d.aon.lshSyncDrive = false)
    (hp : ∀ p ∈ d.pack.nodes, (d.g oRoster).testBit p.1 = false ∨ p.2.flags.testBit 0 = false) : d.syncStuck.Raised 30 := by
  have hnone : ¬ (d.pack.nodes.any fun p => bit (d.g oRoster) p.1 ∧ bit p.2.flags 0) = true := by
    simp only [List.any_eq_true, not_exists, not_and]
    intro p hmem hboth
    have := hp p hmem
    simp [bit] at hboth
    simp_all
  unfold Dev.syncStuck
  rw [if_pos ⟨hl, by simp [hs], hnone⟩]
  exact ⟨_, List.mem_append_right _ (List.mem_singleton_self _), rfl⟩

end Sys2Proof.Machine
end

section
open Sys2Proof Sys2Proof.Machine

/-- Settles O39: each return or loss of power by the lemma of what it does. -/
theorem powerReturnsOrFallsAway : Obligations.PowerReturnsOrFallsAway := by
  unfold Obligations.PowerReturnsOrFallsAway
  rintro s d hp rfl
  refine ⟨fun ht => ⟨fun hv => ⟨_, exec_rescindTimerExpire hp, ?rescinds⟩, fun hv hc => ⟨_, exec_rescindTimerExpire hp, ?waits⟩,
      fun hv => ⟨_, exec_rescindTimerExpire hp, ?wakes⟩⟩,
    fun ht => ⟨_, exec_rescindTimerExpire hp, ?other⟩, fun hv hs he => ?resumes, fun hv => ⟨_, exec_retainToDark hp, ?dark⟩, fun hv => ?stays,
    ⟨_, exec_supervisorRestartComplete hp, s.dev.supRestarted_result⟩, fun hl hs hn => ⟨_, exec_lshSyncStuck hp, Dev.syncStuck_raises hl hs hn⟩⟩
  case rescinds =>
    rw [Dev.rescindTimer_rescinds ht hv]
    rcases Nat.eq_zero_or_pos s.dev.flight with hf | hf
    · obtain ⟨h9, haon, hvault⟩ := Dev.rescind_done (d := s.dev.lineReleased) hf
      rw [h9, haon, hvault]
      exact ⟨rfl, rfl, rfl, fun _ => ⟨rfl, rfl⟩, fun m hm hpos => by rw [Dev.flight_of_target hm] at hf; omega⟩
    · obtain ⟨h9, haon, hvault⟩ := Dev.rescind_waits (d := s.dev.lineReleased) hf
      rw [h9, haon, hvault]
      exact ⟨rfl, rfl, rfl, fun hnone => by rw [Dev.flight_eq_zero hnone] at hf; omega, fun _ _ _ => ⟨rfl, rfl⟩⟩
  case waits =>
    rw [Dev.rescindTimer_seal ht hv hc]
    exact ⟨hv, rfl⟩
  case wakes =>
    rw [Dev.rescindTimer_retain ht hv]
    exact Dev.wakeFromRetain_result _
  case other =>
    rw [Dev.rescindTimer_other ht]
    exact ⟨rfl, rfl, rfl, rfl⟩
  case resumes =>
    obtain ⟨f, hvst, hshed, heq⟩ := Dev.rescindResume_eq hv hs he
    exact ⟨f, hvst, hshed, by rw [exec_rescindResumeComplete hp, heq]⟩
  case dark =>
    rw [Dev.retainToDark, if_pos hv]
    exact Dev.dark_result _
  case stays => rw [exec_retainToDark hp, Dev.retainToDark, if_neg hv]

end

section
/-! PROOFS. The triggers of a vault sequence (R81 to R86, R88, R171). -/
namespace Sys2Proof.Machine
open Sys2Proof

/-! ### The commands, at a powered device -/

section Commands
variable {s : State} (h : s.Powered)
include h

theorem exec_pfailT0 : exec .pfailT0 s = .next (s.leaves (s.dev.t0 1)) := act_on s (Dev.t0 · 1) h

theorem exec_lshSyncTrigger : exec .lshSyncTrigger s = .next (s.leaves s.dev.syncTrigger) := act_on s Dev.syncTrigger h

theorem exec_vaultThenOff : exec .vaultThenOff s = .next (s.leaves (s.dev.mgrWrite uChip oVaultCommand 1)) :=
  act_on s (Dev.mgrWrite · uChip oVaultCommand 1) h

theorem exec_vaultThenHold : exec .vaultThenHold s = .next (s.leaves (s.dev.mgrWrite uChip oVaultCommand 2)) :=
  act_on s (Dev.mgrWrite · uChip oVaultCommand 2) h

end Commands

/-! ### LastOutage (Table 4.9) -/

/-- The lowest byte of a number after a write of bytes above it. -/
theorem byteOf_zero_setField (n len v : Nat) {off : Nat} (h : 1 ≤ off) : byteOf (setField n off len v) 0 = byteOf n 0 := by
  have hbyte : ∀ m : Nat, byteOf m 0 = m % 2 ^ 8 := fun m => by simp [byteOf]
  rw [hbyte, hbyte]
  refine Nat.eq_of_testBit_eq fun i => ?_
  rw [Nat.testBit_mod_two_pow, Nat.testBit_mod_two_pow, testBit_setField]
  by_cases hi : i < 8
  · rw [if_neg (by omega)]
  · simp [hi]

/-- The Check of LastOutage leaves its trigger. -/
theorem byteOf_zero_withCheck (n : Nat) : byteOf (withCheck n) 0 = byteOf n 0 := byteOf_zero_setField _ _ _ (by decide)

/-- The trigger of LastOutage and the always-on part are as they were. -/
structure Dev.KeepsOutage (d e : Dev) : Prop where
  aon : e.aon = d.aon
  opened : e.gb oLastOutage 0 = d.gb oLastOutage 0

theorem Dev.KeepsOutage.refl (d : Dev) : d.KeepsOutage d := ⟨rfl, rfl⟩

theorem Dev.KeepsOutage.trans {d e f : Dev} (h : d.KeepsOutage e) (h' : e.KeepsOutage f) : d.KeepsOutage f := ⟨h'.aon.trans h.aon, h'.opened.trans h.opened⟩

theorem Dev.KeepsOutage.ite {p : Prop} [Decidable p] {d e f : Dev} (he : d.KeepsOutage e) (hf : d.KeepsOutage f) : d.KeepsOutage (if p then e else f) := by
  split
  · exact he
  · exact hf

/-- Whatever changes neither the always-on part nor LastOutage. -/
theorem Dev.KeepsOutage.of_g {d e : Dev} (haon : e.aon = d.aon) (hg : e.g oLastOutage = d.g oLastOutage) : d.KeepsOutage e :=
  ⟨haon, by rw [Dev.gb, hg, Dev.gb]⟩

theorem Dev.KeepsOutage.of_dict {d e : Dev} (haon : e.aon = d.aon) (hdict : e.dict = d.dict) : d.KeepsOutage e := .of_g haon (Dev.g_of_dict hdict _)

theorem Dev.emit_keepsOutage (d : Dev) (k : OutKind) (a : List Nat) (b : List Byte) : d.KeepsOutage (d.emit k a b) := .of_dict rfl rfl

theorem Dev.record_keepsOutage (d : Dev) (code sev unit p0 p1 p2 p3 : Nat) : d.KeepsOutage (d.record code sev unit p0 p1 p2 p3) := .of_dict (by simp) (by simp)

/-- A write of another object. -/
theorem Dev.s_keepsOutage (d : Dev) {o : Nat} (v : Nat) (h : dkey (homeOf oLastOutage) oLastOutage ≠ dkey (homeOf o) o) : d.KeepsOutage (d.s o v) :=
  .of_g rfl (Dev.g_s_ne _ _ _ _ h)

theorem Dev.setVaultState_keepsOutage (d : Dev) {v : Nat} (hv : 2 ≤ v) : d.KeepsOutage (d.setVaultState v) :=
  .of_g (d.setVaultState_moves hv).aon (d.setVaultState_g v (by decide))

theorem Dev.furthest_keepsOutage (d : Dev) (n : Nat) : d.KeepsOutage (d.furthest n) := by
  refine ⟨(d.furthest_keepsRun n).aon, ?_⟩
  unfold Dev.furthest
  split
  · rw [Dev.gb, Dev.outage, Dev.g_s_same, byteOf_zero_withCheck, byteOf_zero_setField _ _ _ (by decide), Dev.gb]
  · rfl

theorem Dev.writeTarget_keepsOutage (d : Dev) (r : Nat) : d.KeepsOutage (d.writeTarget r) := by
  unfold Dev.writeTarget
  have hscale : d.KeepsOutage (if d.power.scaled.contains r then d
      else { d.emit .pmbus [d.ra oBusAddress r, 0x20, 0] with power := { d.power with scaled := d.power.scaled ++ [r] } }) := .ite (.refl d) (.of_dict rfl rfl)
  exact .ite (hscale.trans (Dev.emit_keepsOutage ..)) (.ite (d.emit_keepsOutage ..) (.refl d))

theorem Dev.restoreTargets_keepsOutage (d : Dev) : d.KeepsOutage d.restoreTargets :=
  List.foldlRecOn _ Dev.writeTarget (motive := d.KeepsOutage) (.refl d) fun _ h r _ => h.trans (Dev.writeTarget_keepsOutage _ r)

/-- A count of another object. -/
theorem Dev.inc_keepsOutage (d : Dev) {o : Nat} (w : Nat) (h : dkey (homeOf oLastOutage) oLastOutage ≠ dkey (homeOf o) o) : d.KeepsOutage (d.inc o w) :=
  d.s_keepsOutage _ h

/-- An image sequence that is used up (R123). -/
theorem Dev.useSeq_keepsOutage (d : Dev) : d.KeepsOutage d.useSeq := d.s_keepsOutage (o := oImageSeqHigh) _ (by decide)

/-- BANK_LOAD_EN is released, and LastOutage keeps its trigger. -/
structure Dev.Unloads (d e : Dev) : Prop where
  aon : e.aon = { d.aon with bankLoad := false }
  opened : e.gb oLastOutage 0 = d.gb oLastOutage 0

/-- A capacitance test that is abandoned. -/
theorem Dev.capAbandon_unloads (d : Dev) : d.Unloads d.capAbandon := by
  unfold Dev.capAbandon
  dsimp only
  generalize hf : Dev.setCap _ _ = f
  have haon : f.aon = { d.aon with bankLoad := false } := by rw [← hf]; rfl
  have hg : f.gb oLastOutage 0 = d.gb oLastOutage 0 := by rw [← hf]; rfl
  rw [if_pos rfl]
  have hkept := (f.inc_keepsOutage (o := oCapTestsAbandoned) 16 (by decide)).trans
    (Dev.record_keepsOutage _ 0x400 0 uChip (f.g oCapMeasured) (f.g oEsrMeasured) 2 0)
  exact ⟨hkept.aon.trans haon, hkept.opened.trans hg⟩

/-- What every t0 ends leaves the bank unloaded. -/
theorem Dev.lossCuts_unloads (d : Dev) : d.Unloads d.lossCuts := by
  unfold Dev.lossCuts
  dsimp only
  generalize hf : (if 2 ≤ d.energy.cap.step then d.capAbandon else d) = f
  have hfrom : { f.aon with bankLoad := false } = { d.aon with bankLoad := false } ∧ f.gb oLastOutage 0 = d.gb oLastOutage 0 := by
    rw [← hf]
    split
    · rw [d.capAbandon_unloads.aon]
      exact ⟨rfl, d.capAbandon_unloads.opened⟩
    · exact ⟨rfl, rfl⟩
  generalize hg : (if f.energy.drill.step = 0 then f else _) = g
  have hkept : f.KeepsOutage g := by
    rw [← hg]
    exact .ite (.refl f) (.of_dict rfl rfl)
  refine ⟨?_, ?_⟩
  · rw [← hfrom.1, ← hkept.aon]
  · exact hkept.opened.trans hfrom.2

/-! ### The sequence begins (R84 to R88) -/

/-- HOLD asserts HOLD_EN, and leaves the rest of what a sequence goes by as it is. -/
theorem Dev.holdOn_keepsRun (d : Dev) : ({ d with aon := { d.aon with holdEn := true } } : Dev).KeepsRun d.holdOn := Dev.charger_keepsRun _ 0x00

theorem Dev.holdOn_dict (d : Dev) : d.holdOn.dict = d.dict := Dev.charger_dict ..

/-- The trigger is the lowest byte of the LastOutage that a sequence opens. -/
theorem byteOf_zero_opened {trig : Nat} (slot dirty now : Nat) (h : trig < 256) :
    byteOf (trig + 2 * 256 + slot * 256 ^ 3 + dirty * 256 ^ 4 + now * 256 ^ 0x10 + 0xFFFF * 256 ^ 0x18) 0 = trig := by
  rw [byteOf]
  omega

/-- The device `e` stands in QUIESCE of a sequence that began in `d` by trigger `trig`. -/
structure Dev.Started (d e : Dev) (trig : Nat) : Prop where
  vst : e.vst = 3
  frozen : e.cache.frozen = true
  aon : e.aon = { d.aon with bankLoad := false, holdEn := d.aon.holdEn || decide (trig ≤ 2) }
  trigger : e.vault.trigger = trig
  t0 : e.vault.t0 = d.now
  opened : e.gb oLastOutage 0 = trig

theorem Dev.Started.keeps {d e f : Dev} {trig : Nat} (h : d.Started e trig) (h' : e.KeepsRun f) (hg : e.KeepsOutage f) : d.Started f trig :=
  ⟨h'.vst.trans h.vst, by rw [h'.cache]; exact h.frozen, h'.aon.trans h.aon, by rw [h'.vault]; exact h.trigger, by rw [h'.vault]; exact h.t0,
    hg.opened.trans h.opened⟩

/-- A power trigger asserts HOLD_EN (R88). -/
theorem Dev.holdFor_result (d : Dev) (trig : Nat) : ∃ e : Dev, e.KeepsRun (if trig ≤ 2 then d.holdOn else d) ∧
    (if trig ≤ 2 then d.holdOn else d).dict = d.dict ∧ e.cache = d.cache ∧ e.vault = d.vault ∧
    e.aon = { d.aon with holdEn := d.aon.holdEn || decide (trig ≤ 2) } := by
  by_cases h : trig ≤ 2
  · rw [if_pos h]
    refine ⟨_, d.holdOn_keepsRun, d.holdOn_dict, rfl, rfl, ?_⟩
    simp [h]
  · rw [if_neg h]
    refine ⟨d, .refl d, rfl, rfl, rfl, ?_⟩
    simp [h]

/-- With no drill under way, a sequence that begins comes to QUIESCE. -/
theorem Dev.vaultStart_started {d : Dev} {trig : Nat} (hw : d.aon.wdRestart = false) (hs : d.energy.drill.step = 0) (ht : trig < 256) :
    d.Started (d.vaultStart trig) trig := by
  generalize he : d.vaultStart trig = e
  unfold Dev.vaultStart at he
  extract_lets v drill empty dirty untargeted recorded opened cut nominal seqUsed e0 cacheWas packWas frozen run held faultsWas ready begun quiesced at he
  have huntargeted : d.WritesSlots untargeted := .ite d.voidTarget_writesSlots d.noTarget_writesSlots
  have hrecorded : untargeted.KeepsOutage recorded := untargeted.record_keepsOutage ..
  clear_value recorded
  obtain ⟨w, hbyte, hset⟩ : ∃ w, byteOf (withCheck w) 0 = trig ∧ opened = recorded.s oLastOutage (withCheck w) := by
    refine ⟨_, ?_, rfl⟩
    rw [byteOf_zero_withCheck]
    exact byteOf_zero_opened _ _ _ ht
  clear_value opened
  have hopened : opened.aon = d.aon := by
    rw [hset, Dev.s_aon, hrecorded.aon, huntargeted.aon]
  have htrig : opened.gb oLastOutage 0 = trig := by rw [hset, Dev.gb, Dev.g_s_same, hbyte]
  have hcut : opened.Unloads cut := opened.lossCuts_unloads
  clear_value cut
  have hnominal : cut.KeepsOutage nominal := .ite ((cut.s_keepsOutage 0 (by decide)).trans (Dev.restoreTargets_keepsOutage _)) (.refl cut)
  clear_value nominal
  have hseq : nominal.KeepsOutage seqUsed := nominal.useSeq_keepsOutage
  clear_value seqUsed
  have hrunning : seqUsed.KeepsOutage run := .of_dict rfl rfl
  have hrun : run.cache.frozen = true ∧ run.vault.trigger = trig ∧ run.vault.t0 = run.now := ⟨rfl, rfl, rfl⟩
  clear_value run
  have haon : run.aon = { d.aon with bankLoad := false } := by rw [hrunning.aon, hseq.aon, hnominal.aon, hcut.aon, hopened]
  obtain ⟨f, hheld, hdict, hfcache, hfvault, hfaon⟩ := run.holdFor_result trig
  have hready : held.KeepsRun ready := .of_dict rfl
  have hrdict : ready.dict = run.dict := hdict
  have hall := hheld.trans hready
  clear_value ready
  have hbegun := hall.moves (ready.setVaultState_moves (v := 2) (by decide))
  have hbout := ready.setVaultState_keepsOutage (v := 2) (by decide)
  have hwd : begun.aon.wdRestart = false := by
    rw [hbegun.aon, hfaon, haon]
    exact hw
  rw [if_neg (by simp [hwd]), if_neg (by simp [drill, hs])] at he
  subst he
  have hquiesced := (begun.setVaultState_moves (v := 3) (by decide)).keeps (Dev.furthest_keepsRun _ 3)
  have hqout := (begun.setVaultState_keepsOutage (v := 3) (by decide)).trans (Dev.furthest_keepsOutage _ 3)
  obtain ⟨hfrozen, htrigger, ht0⟩ := hrun
  refine ⟨hquiesced.vst, ?_, ?_, ?_, ?_, ?_⟩
  · rw [hquiesced.cache, hbegun.cache, hfcache, hfrozen]
  · rw [hquiesced.aon, hbegun.aon, hfaon, haon]
  · rw [hquiesced.vault, hbegun.vault, hfvault, htrigger]
  · rw [hquiesced.vault, hbegun.vault, hfvault, ht0]
    rw [Dev.now, haon, Dev.now]
  · rw [hqout.opened, hbout.opened, Dev.gb, Dev.g_of_dict hrdict, ← Dev.gb, hrunning.opened, hseq.opened, hnominal.opened, hcut.opened, htrig]

/-! ### The triggers (R81 to R84, R171) -/

/-- The sequence can begin: power is good, no vault runs, and no halt is in force. -/
structure Dev.Ready (d : Dev) : Prop where
  up : d.vst = 1 ∨ d.vst = 0 ∧ d.sup = 2 ∧ d.power.full = false
  running : d.faults.haltDone = false
  supervised : d.aon.wdRestart = false
  noDrill : d.energy.drill.step = 0

/-- A device that differs in the lines of the Pack alone is as ready. -/
theorem Dev.Ready.withAon {d : Dev} (h : d.Ready) {a : Aon} (ha : a.wdRestart = false) : ({ d with aon := a } : Dev).Ready := ⟨h.up, h.running, ha, h.noDrill⟩

/-- The device once a Pack member has driven LSH_SYNC_N, which it does at its own PFAIL. -/
def Dev.driven (d : Dev) (trig : Nat) : Dev := if trig = 1 then d.driveSync else d

theorem Dev.driven_eq (d : Dev) (trig : Nat) : ∃ drive : Bool, d.driven trig = { d with aon := { d.aon with lshSyncDrive := drive } } ∧
    (trig = 1 → d.aon.lshEn = true → drive = true) := by
  unfold Dev.driven Dev.driveSync
  by_cases h1 : trig = 1
  · by_cases hl : d.aon.lshEn = true
    · exact ⟨true, by rw [if_pos h1, if_pos hl], fun _ _ => rfl⟩
    · exact ⟨d.aon.lshSyncDrive, by rw [if_pos h1, if_neg hl], fun _ h => absurd h hl⟩
  · exact ⟨d.aon.lshSyncDrive, by rw [if_neg h1], fun h => absurd h h1⟩

/-- A trigger of a ready device begins the sequence. -/
theorem Dev.t0_started {d : Dev} (h : d.Ready) {trig : Nat} (ht : trig < 256) : (d.driven trig).Started (d.t0 trig) trig := by
  obtain ⟨drive, hdriven, -⟩ := d.driven_eq trig
  have hready : (d.driven trig).Ready := by
    rw [hdriven]
    exact h.withAon h.supervised
  have heq : d.t0 trig = (d.driven trig).vaultStart trig := by
    have hup := h.up
    have hsup : (d.driven trig).sup = d.sup := by
      rw [hdriven]
      rfl
    have hfull : (d.driven trig).power = d.power := by rw [hdriven]
    unfold Dev.t0
    rw [← Dev.driven]
    dsimp only
    rw [if_neg (by simp [hready.running]), if_neg (by omega), if_neg ?busy, if_neg (by omega)]
    case busy =>
      rintro ⟨h0, hs⟩
      rw [hsup, hfull] at hs
      rcases hup with h1 | ⟨-, h2, hf⟩
      · omega
      · simp [h2, hf] at hs
  rw [heq]
  exact Dev.vaultStart_started hready.supervised hready.noDrill ht

/-- The own PFAIL of a ready device begins the sequence with HOLD_EN asserted, and drives the line in a Pack. -/
theorem Dev.pfail_started {d : Dev} (h : d.Ready) :
    ∃ e : Dev, e.now = d.now ∧ e.Started (d.t0 1) 1 ∧ (d.t0 1).aon.holdEn = true ∧ (d.aon.lshEn = true → (d.t0 1).aon.lshSyncDrive = true) := by
  have hstarted := Dev.t0_started h (trig := 1) (by decide)
  obtain ⟨drive, hdriven, hdrive⟩ := d.driven_eq 1
  rw [hdriven] at hstarted
  refine ⟨_, ?_, hstarted, ?_, ?_⟩
  · rfl
  · simp [hstarted.aon]
  · rw [hstarted.aon]
    exact hdrive rfl

/-- Another trigger of a ready device. -/
theorem Dev.t0_other {d : Dev} (h : d.Ready) {trig : Nat} (h1 : trig ≠ 1) (ht : trig < 256) : d.Started (d.t0 trig) trig := by
  have hstarted := Dev.t0_started h ht
  rwa [Dev.driven, if_neg h1] at hstarted

/-- A fall of LSH_SYNC_N at a ready Pack member. -/
theorem Dev.syncTrigger_started {d : Dev} (h : d.Ready) (hl : d.aon.lshEn = true) :
    ({ d with aon := { d.aon with lshSyncN := false } } : Dev).Started d.syncTrigger 2 := by
  rw [Dev.syncTrigger, if_pos hl]
  have hready : ({ d with aon := { d.aon with lshSyncN := false } } : Dev).Ready := h.withAon h.supervised
  exact Dev.t0_other hready (by decide) (by decide)

/-- A record that is put before the recorder. -/
theorem Dev.record_recorded (d : Dev) (code sev unit p0 p1 p2 p3 : Nat) : (d.record code sev unit p0 p1 p2 p3).Recorded code := by
  unfold Dev.record
  split
  · exact .inl ⟨_, List.mem_append_right _ (List.mem_singleton_self _), rfl⟩
  next h => exact .inr (Nat.le_of_not_lt h)

theorem Dev.charger_faults (d : Dev) (op : Nat) : (d.charger op).faults = d.faults := by
  unfold Dev.charger
  dsimp only
  split <;> rfl

/-- The first power trigger within a sequence is recorded, asserts HOLD_EN and arms the energy guard (R84). -/
theorem Dev.t0_within {d : Dev} (hh : d.faults.haltDone = false) (hlo : 2 ≤ d.vst) (hhi : d.vst ≤ 7) (hold : d.aon.holdEn = false) (hl : d.aon.lshEn = false) :
    (d.t0 1).vst = d.vst ∧ (d.t0 1).aon.holdEn = true ∧ (d.t0 1).vault.guard = true ∧ (d.t0 1).Recorded 0x500 := by
  have hdrive : d.driveSync = d := by rw [Dev.driveSync, if_neg (by simp [hl])]
  have hrec := d.record_keepsRun 0x500 0 uChip 1 d.vst 0 0
  have heq : d.t0 1 = ((d.record 0x500 0 uChip 1 d.vst 0 0).holdOn).setRun { (d.record 0x500 0 uChip 1 d.vst 0 0).vault with guard := true } := by
    unfold Dev.t0
    rw [if_pos rfl, hdrive]
    dsimp only
    rw [if_neg (by simp [hh]), if_pos ⟨hlo, hhi⟩, if_pos (by simp [hold])]
  rw [heq]
  have hrecorded := d.record_recorded 0x500 0 uChip 1 d.vst 0 0
  generalize d.record 0x500 0 uChip 1 d.vst 0 0 = e at hrec hrecorded ⊢
  have hon := e.holdOn_keepsRun
  have hfaults : e.holdOn.faults = e.faults := Dev.charger_faults ..
  refine ⟨hon.vst.trans hrec.vst, by rw [Dev.setRun_aon, hon.aon], rfl, ?_⟩
  unfold Dev.Recorded at hrecorded ⊢
  rwa [Dev.setRun_faults, hfaults]

/-! ### A write of VaultCommand (R83, R91) -/

/-- The row of VaultCommand. -/
def vaultCommandRow : ObjRow := ⟨oVaultCommand, 8, 1, 1, 1, 2, 2, 0, 0, false, 0, some (1, 2), false⟩

theorem objRow_vaultCommand : objRow oVaultCommand = some vaultCommandRow := by decide +kernel

/-- The chip is the only unit with objects of its own location. -/
theorem chip_of_upOrder : (upOrder uChip).filter (locAt 0) = [uChip] := by decide +kernel

theorem Dev.present_chip (d : Dev) : d.present uChip = true := rfl

/-- A write of VaultCommand names the chip. -/
theorem Dev.namedUnits_vaultCommand (d : Dev) : d.namedUnits vaultCommandRow uChip oVaultCommand = [uChip] := by
  rw [Dev.namedUnits, if_pos (by decide)]
  have hloc : vaultCommandRow.loc = 0 := rfl
  rw [hloc, ← List.filter_filter, chip_of_upOrder]
  simp [d.present_chip]

theorem Dev.applyOne_vaultCommand (d : Dev) (sid v : Nat) : d.applyOne sid uChip oVaultCommand v = d.fxVaultCommand v := rfl

theorem Dev.applyWrite_vaultCommand (d : Dev) (sid v : Nat) : d.applyWrite vaultCommandRow sid uChip oVaultCommand v = d.fxVaultCommand v := by
  rw [Dev.applyWrite, d.namedUnits_vaultCommand]
  exact d.applyOne_vaultCommand sid v

section VaultCommand
variable {d : Dev} {v : Nat} (hp : d.aon.auxUp = true) (hs : d.supAway = false) (hc : d.writesClosed = false) (hv : v = 1 ∨ v = 2)
include hs hc hv

/-- A write of VaultCommand runs its effect, and answers. -/
theorem Dev.mgrWrite_vaultCommand {r : Reply} (hr : d.fxVaultCommand v = r) : d.mgrWrite uChip oVaultCommand v =
    let r := if r.st = 0 then { r with d := r.d.noteChange oVaultCommand } else r
    if r.d.aon.auxUp then r.d.refuses r.st r.unit else r.d := by
  have hrow : rowOk vaultCommandRow v = true := by rcases hv with rfl | rfl <;> decide
  have hpre : d.precond oVaultCommand v = true := rfl
  have hholds : d.holds vaultCommandRow uChip = true := rfl
  have hchecked : d.writeChecked vaultCommandRow uChip oVaultCommand v (Dev.applyWrite · vaultCommandRow 0xFF uChip oVaultCommand v) =
      if r.st = 0 then { r with d := r.d.noteChange oVaultCommand } else r := by
    unfold Dev.writeChecked
    rw [if_neg (by simp [hc]), if_neg (by simp [hrow]), if_neg (by simp [hpre])]
    dsimp only
    rw [d.applyWrite_vaultCommand, hr]
    by_cases h0 : r.st = 0
    · rw [if_pos h0, if_pos ⟨h0, by decide⟩]
    · rw [if_neg h0, if_neg (fun h => h0 h.1)]
  have hreply : (if ¬ d.present uChip then notPresent d else if ¬ d.holds vaultCommandRow uChip then refuse 5 d uChip
      else d.writeChecked vaultCommandRow uChip oVaultCommand v (Dev.applyWrite · vaultCommandRow 0xFF uChip oVaultCommand v)) =
      if r.st = 0 then { r with d := r.d.noteChange oVaultCommand } else r := by
    rw [if_neg (by simp [d.present_chip]), if_neg (by simp [hholds]), hchecked]
  rw [Dev.mgrWrite, objRow_vaultCommand]
  dsimp only
  rw [Dev.mgrRun, objRow_vaultCommand]
  refine (if_neg (by simp [hs])).trans ?_
  rw [hreply]
  rfl

/-- While ARMED the command is a trigger, and is accepted. -/
theorem Dev.vaultCommand_armed (ha : d.armed = true) : d.mgrWrite uChip oVaultCommand v = (d.t0 (4 + v)).accepts oVaultCommand := by
  have hfx : d.fxVaultCommand v = okR (d.t0 (4 + v)) := by
    simp only [Dev.writesClosed, Bool.or_eq_false_iff] at hc
    rw [Dev.fxVaultCommand, if_neg (by omega), if_neg (by simp [ha, hc.1, hc.2])]
  rw [Dev.mgrWrite_vaultCommand hs hc hv hfx]
  rfl

include hp

/-- While UNARMED the command is refused with STATE_CONFLICT. -/
theorem Dev.vaultCommand_unarmed (ha : d.armed = false) : d.mgrWrite uChip oVaultCommand v = d.refuses 4 uChip := by
  have hfx : d.fxVaultCommand v = conflict d uChip := by
    rw [Dev.fxVaultCommand, if_neg (by omega), if_pos (by simp [ha])]
  rw [Dev.mgrWrite_vaultCommand hs hc hv hfx]
  exact if_pos hp

end VaultCommand

/-- A change that is counted is of what a sequence goes by none. -/
theorem Dev.noteChange_keepsRun (d : Dev) (o : Nat) : d.KeepsRun (d.noteChange o) := by
  unfold Dev.noteChange
  exact KeepsRun.trans (d.su_keepsRun (o := oDictChangeCounter) _ (by decide)) (.of_dict rfl)

theorem Dev.noteChange_keepsOutage (d : Dev) (o : Nat) : d.KeepsOutage (d.noteChange o) := by
  unfold Dev.noteChange
  exact (d.inc_keepsOutage 48 (by decide)).trans (.of_dict rfl rfl)

/-- A sequence that an accepted command begins is counted and answered. -/
theorem Dev.Started.accepts {d e : Dev} {trig : Nat} (h : d.Started e trig) (hp : d.aon.auxUp = true) (o : Nat) :
    d.Started (e.accepts o) trig ∧ (e.accepts o).Answers 4 0 0xFFFF := by
  have hnoted := h.keeps (e.noteChange_keepsRun o) (e.noteChange_keepsOutage o)
  rw [Dev.accepts, if_pos (by rw [hnoted.aon]; exact hp)]
  exact ⟨hnoted.keeps (Dev.emit_keepsRun ..) (Dev.emit_keepsOutage ..), by simp [Dev.Answers, Dev.refuses, Dev.emit]⟩

/-- A command that triggers leaves HOLD_EN as it is. -/
theorem Dev.vaultCommand_started {d : Dev} (h : d.Ready) (hp : d.aon.auxUp = true) (hs : d.supAway = false) (hc : d.writesClosed = false) (ha : d.armed = true)
    {v : Nat} (hv : v = 1 ∨ v = 2) : d.Started (d.mgrWrite uChip oVaultCommand v) (4 + v) ∧ (d.mgrWrite uChip oVaultCommand v).aon.holdEn = d.aon.holdEn ∧
      (d.mgrWrite uChip oVaultCommand v).Answers 4 0 0xFFFF := by
  rw [Dev.vaultCommand_armed hs hc hv ha]
  obtain ⟨hstarted, hanswers⟩ := (Dev.t0_other h (trig := 4 + v) (by omega) (by omega)).accepts hp oVaultCommand
  refine ⟨hstarted, ?_, hanswers⟩
  rw [hstarted.aon]
  have hlate : ¬ 4 + v ≤ 2 := by omega
  simp [hlate]

end Sys2Proof.Machine
end

section
open Sys2Proof Sys2Proof.Machine

/-- Settles O36: each trigger by the lemma of the sequence it begins. -/
theorem vaultTriggersBeginTheSequence : Obligations.VaultTriggersBeginTheSequence := by
  unfold Obligations.VaultTriggersBeginTheSequence
  rintro s d hp rfl hh
  refine ⟨fun hup hw hdrill started hstarted => ?begins, fun ht ha => ?refused, fun hlo hhi hold hl => ⟨_, exec_pfailT0 hp, Dev.t0_within hh hlo hhi hold hl⟩⟩
  case begins =>
    have hready : s.dev.Ready := ⟨hup, hh, hw, hdrill⟩
    have hof : ∀ {d₀ e : Dev} {k : Nat}, d₀.Started e k → d₀.now = s.dev.now → started k e := fun {d₀ e k} h hnow =>
      (hstarted k e).2 ⟨h.vst, h.frozen, congrArg Aon.bankLoad h.aon, h.trigger, h.t0.trans hnow, h.opened⟩
    refine ⟨⟨_, exec_pfailT0 hp, ?pfail⟩, fun hl _ => ⟨_, exec_lshSyncTrigger hp, ?sync⟩, fun ht ha => ⟨_, exec_vaultThenOff hp, ?off⟩,
      fun ht ha => ⟨_, exec_vaultThenHold hp, ?hold⟩⟩
    case pfail =>
      obtain ⟨d₀, hnow, hbegun, hhold, hdrive⟩ := Dev.pfail_started hready
      exact ⟨hof hbegun hnow, hhold, hdrive⟩
    case sync =>
      have hbegun := Dev.syncTrigger_started hready hl
      exact ⟨hof hbegun rfl, by simp [hbegun.aon]⟩
    case off =>
      obtain ⟨hbegun, hrest⟩ := Dev.vaultCommand_started hready hp ht.present ht.openNow ha (.inl rfl)
      exact ⟨hof hbegun rfl, hrest⟩
    case hold =>
      obtain ⟨hbegun, hrest⟩ := Dev.vaultCommand_started hready hp ht.present ht.openNow ha (.inr rfl)
      exact ⟨hof hbegun rfl, hrest⟩
  case refused =>
    rw [exec_vaultThenOff hp, exec_vaultThenHold hp, Dev.vaultCommand_unarmed hp ht.present ht.openNow (.inl rfl) ha,
      Dev.vaultCommand_unarmed hp ht.present ht.openNow (.inr rfl) ha]
    exact ⟨rfl, rfl⟩

end

section
/-! PROOFS. The Kennel (05_kennel.md): formats, blocks and LUNs that fail, erases and the usability of the slots. -/
namespace Sys2Proof.Machine
open Sys2Proof

/-! ### The commands, at a powered device -/

section Commands
variable {s : State} (h : s.Powered)
include h

theorem exec_kennelFormat (force : Bool) : exec (if force then .kennelFormatForce else .kennelFormat) s =
    .next (s.leaves (s.dev.mgrWrite uVault (if force then oKennelFormatForce else oKennelFormat) 1)) := by
  cases force
  · exact act_on s (Dev.mgrWrite · uVault oKennelFormat 1) h
  · exact act_on s (Dev.mgrWrite · uVault oKennelFormatForce 1) h

theorem exec_kennelFormatComplete (found : List LunInfo) : exec (.kennelFormatComplete found) s = .next (s.leaves (s.dev.formatComplete found)) :=
  act_on s (Dev.formatComplete · found) h

theorem exec_flashBlockFail {n : Nat} (hn : n < 256) (block : Nat) (dead : Bool) :
    exec (.flashBlockFail n block dead) s = .next (s.leaves (s.dev.flashBlockFail n block dead)) :=
  act_if _ s (Dev.flashBlockFail · n block dead) h (by simpa using hn)

theorem exec_slotEraseComplete {i : Nat} (hi : i < 2) : exec (.slotEraseComplete i) s = .next (s.leaves (s.dev.slotErased i)) :=
  act_if _ s (Dev.slotErased · i) h (by simpa using hi)

theorem exec_scratchEraseComplete : exec .scratchEraseComplete s = .next (s.leaves s.dev.scratchErased) := act_on s Dev.scratchErased h

theorem exec_slotUsabilityCheck : exec .slotUsabilityCheck s = .next (s.leaves s.dev.usabilityCheck) := act_on s Dev.usabilityCheck h

end Commands

/-! ### A command row that is one write (R360, R377) -/

/-- A write of `v` to object `o`, of row `row`, at unit `u` passes every check of its own, and names unit `u` alone. -/
structure Dev.Passes (d : Dev) (row : ObjRow) (u o v : Nat) : Prop where
  isRow : objRow o = some row
  present : d.present u = true
  holds : d.holds row u = true
  ok : rowOk row v = true
  pre : d.precond o v = true
  named : d.namedUnits row u o = [u]
  notCursor : o ≠ oEventCursor

section Write
variable {d : Dev} {row : ObjRow} {u o v : Nat} (h : d.Passes row u o v) (hs : d.supAway = false) (hc : d.writesClosed = false)
include h hs hc

/-- A write that passes runs its effect, and answers. -/
theorem Dev.Passes.mgrWrite {r : Reply} (hr : d.applyOne 0xFF u o v = r) : d.mgrWrite u o v =
    let r := if r.st = 0 then { r with d := r.d.noteChange o } else r
    if r.d.aon.auxUp then r.d.refuses r.st r.unit else r.d := by
  have happly : d.applyWrite row 0xFF u o v = r := by rw [Dev.applyWrite, h.named]; exact hr
  have hchecked : d.writeChecked row u o v (Dev.applyWrite · row 0xFF u o v) = if r.st = 0 then { r with d := r.d.noteChange o } else r := by
    unfold Dev.writeChecked
    rw [if_neg (by simp [hc]), if_neg (by simp [h.ok]), if_neg (by simp [h.pre])]
    simp only [happly, h.notCursor, ne_eq, not_false_eq_true, and_true]
  have hreply : (if ¬ d.present u then notPresent d else if ¬ d.holds row u then refuse 5 d u
      else d.writeChecked row u o v (Dev.applyWrite · row 0xFF u o v)) = if r.st = 0 then { r with d := r.d.noteChange o } else r := by
    rw [if_neg (by simp [h.present]), if_neg (by simp [h.holds]), hchecked]
  rw [Dev.mgrWrite, h.isRow]
  dsimp only
  rw [Dev.mgrRun, h.isRow]
  refine (if_neg (by simp [hs])).trans ?_
  rw [hreply]
  rfl

/-- A write whose effect succeeds is accepted. -/
theorem Dev.Passes.accepted {f : Dev} (hr : d.applyOne 0xFF u o v = okR f) : d.mgrWrite u o v = f.accepts o := h.mgrWrite hs hc hr

/-- A write whose effect refuses changes nothing. -/
theorem Dev.Passes.refused (hp : d.aon.auxUp = true) {st x : Nat} (hst : st ≠ 0) (hr : d.applyOne 0xFF u o v = { st := st, unit := x, d := d }) :
    d.mgrWrite u o v = d.refuses st x := by
  rw [h.mgrWrite hs hc hr]
  simp only [if_neg hst]
  exact if_pos hp

end Write

/-- An accepted effect is answered with SUCCESS, and but for the count of changes the device is the one the effect left. -/
theorem Dev.accepts_result {f : Dev} (hp : f.aon.auxUp = true) (o : Nat) : (f.accepts o).Answers 4 0 0xFFFF ∧ (f.accepts o).kennel = f.kennel ∧
    ∀ x, x ≠ oDictChangeCounter → (f.accepts o).g x = f.g x := by
  have haux : (f.noteChange o).aon.auxUp = true := hp
  rw [Dev.accepts, if_pos haux]
  refine ⟨by simp [Dev.Answers, Dev.refuses, Dev.emit], rfl, fun x hx => ?_⟩
  have hcount : f.inc oDictChangeCounter 48 = f.s oDictChangeCounter (min (2 ^ 48 - 1) (f.g oDictChangeCounter + 1)) := rfl
  rw [← Dev.g_s_ne f oDictChangeCounter x (min (2 ^ 48 - 1) (f.g oDictChangeCounter + 1)) (dkey_ne_of_chip (by decide) (by decide) hx), ← hcount]
  exact Dev.g_of_dict rfl x

/-! ### A format begins (R115, R424) -/

/-- The row of KennelFormat, or of KennelFormatForce. -/
def kennelFormatRow (force : Bool) : ObjRow :=
  ⟨if force then oKennelFormatForce else oKennelFormat, 1, 1, 1, 1, if force then 1 else 2, 2, 0, 0, false, 6, none, false⟩

/-- The vault complex is the only unit with objects of its own location. -/
theorem vault_of_upOrder : (upOrder uVault).filter (locAt 6) = [uVault] := by decide +kernel

theorem Dev.present_vault (d : Dev) : d.present uVault = true := rfl

/-- A write of 1 to KennelFormat or KennelFormatForce passes. -/
theorem Dev.kennelFormat_passes (d : Dev) (force : Bool) : d.Passes (kennelFormatRow force) uVault (if force then oKennelFormatForce else oKennelFormat) 1 where
  isRow := by cases force <;> decide +kernel
  present := d.present_vault
  holds := rfl
  ok := by cases force <;> decide
  pre := by cases force <;> rfl
  named := by
    have hloc : (kennelFormatRow force).loc = 6 := rfl
    rw [Dev.namedUnits, if_pos (by cases force <;> decide), hloc, ← List.filter_filter, vault_of_upOrder]
    simp [d.present_vault]
  notCursor := by cases force <;> decide

theorem Dev.applyOne_kennelFormat (d : Dev) (sid v : Nat) (force : Bool) :
    d.applyOne sid uVault (if force then oKennelFormatForce else oKennelFormat) v = d.fxKennelFormat force v := by
  cases force <;> rfl

section FormatWrite
variable {d : Dev} (hs : d.supAway = false) (hc : d.writesClosed = false) (force : Bool)
include hs hc

/-- A format that the rules allow begins, and is accepted. -/
theorem Dev.kennelFormat_accepted (h : d.fxKennelFormat force 1 = okR d.formatBegin) :
    d.mgrWrite uVault (if force then oKennelFormatForce else oKennelFormat) 1 = d.formatBegin.accepts (if force then oKennelFormatForce else oKennelFormat) :=
  (d.kennelFormat_passes force).accepted hs hc ((d.applyOne_kennelFormat 0xFF 1 force).trans h)

/-- Any other is refused with STATE_CONFLICT. -/
theorem Dev.kennelFormat_refused (hp : d.aon.auxUp = true) (h : d.fxKennelFormat force 1 = conflict d uVault) :
    d.mgrWrite uVault (if force then oKennelFormatForce else oKennelFormat) 1 = d.refuses 4 uVault :=
  (d.kennelFormat_passes force).refused hs hc hp (by decide) ((d.applyOne_kennelFormat 0xFF 1 force).trans h)

end FormatWrite

theorem Dev.fxKennelFormat_busy {d : Dev} (force : Bool) (h : d.seqBusy = true ∨ d.kennel.formatting = true) :
    d.fxKennelFormat force 1 = conflict d uVault := by
  rw [Dev.fxKennelFormat, if_neg (by decide), if_pos h]

section FormatIdle
variable {d : Dev} (hq : d.seqBusy = false) (hf : d.kennel.formatting = false)
include hq hf

/-- A sealed image that the key opens holds a format off. -/
theorem Dev.fxKennelFormat_sealed (ha : slotState d.kennel.a = 4) (hk : d.keyOk = true) : d.fxKennelFormat false 1 = conflict d uVault := by
  rw [Dev.fxKennelFormat, if_neg (by decide), if_neg (by simp [hq, hf]), if_pos (by simp [ha, hk])]

/-- With no image, or by force, a format begins. -/
theorem Dev.fxKennelFormat_begins {force : Bool} (h : force = true ∨ (slotState d.kennel.a ≤ 2 ∧ slotState d.kennel.b ≤ 2)) :
    d.fxKennelFormat force 1 = okR d.formatBegin := by
  rw [Dev.fxKennelFormat, if_neg (by decide), if_neg (by simp [hq, hf]), if_neg]
  rintro ⟨hforce, hbusy, -⟩
  rcases h with h | ⟨ha, hb⟩
  · exact hforce h
  · simp only [Bool.decide_or, Bool.or_eq_true, decide_eq_true_eq] at hbusy
    omega

end FormatIdle

/-- A format empties both slots. -/
theorem Dev.formatBegin_result {d : Dev} (h : d.restore.held = none) : d.formatBegin.aon = d.aon ∧ d.formatBegin.kennel.formatting = true ∧
    d.formatBegin.kennel.a.image = none ∧ d.formatBegin.kennel.b.image = none ∧ d.formatBegin.g oDrillValid = 0 := by
  have hheld : d.discardHeld = d := by simp [Dev.discardHeld, h]
  unfold Dev.formatBegin
  rw [hheld]
  exact ⟨rfl, rfl, rfl, rfl, Dev.g_s_same ..⟩

/-- A format that begins is answered with SUCCESS. -/
theorem Dev.formatBegin_accepted {d : Dev} (hp : d.aon.auxUp = true) (h : d.restore.held = none) (o : Nat) : (d.formatBegin.accepts o).kennel.formatting = true ∧
    (d.formatBegin.accepts o).kennel.a.image = none ∧ (d.formatBegin.accepts o).kennel.b.image = none ∧ (d.formatBegin.accepts o).g oDrillValid = 0 ∧
      (d.formatBegin.accepts o).Answers 4 0 0xFFFF := by
  obtain ⟨haon, hrun, ha, hb, hdrill⟩ := Dev.formatBegin_result h
  obtain ⟨hanswers, hkennel, hg⟩ := Dev.accepts_result (f := d.formatBegin) (by rw [haon]; exact hp) o
  rw [hkennel, hg _ (by decide)]
  exact ⟨hrun, ha, hb, hdrill, hanswers⟩

/-! ### Headers (R113) -/

/-- The device `e` differs from `d` in what it has written, and in where the headers of its LUNs stand. -/
structure Dev.Reheaded (d e : Dev) : Prop where
  kennel : ∃ luns, e.kennel = { d.kennel with luns := luns }
  lunOf : ∀ n, ∃ gen h0 h1, e.lunOf n = { d.lunOf n with gen := gen, hdr0 := h0, hdr1 := h1 }
  faultQ : e.faultQ = d.faultQ
  dict : e.dict = d.dict

theorem Dev.Reheaded.refl (d : Dev) : d.Reheaded d := ⟨⟨_, rfl⟩, fun _ => ⟨_, _, _, rfl⟩, rfl, rfl⟩

theorem Dev.Reheaded.trans {d e f : Dev} (h : d.Reheaded e) (h' : e.Reheaded f) : d.Reheaded f := by
  obtain ⟨l, hl⟩ := h.kennel
  obtain ⟨l', hl'⟩ := h'.kennel
  refine ⟨⟨l', by rw [hl', hl]⟩, fun n => ?_, h'.faultQ.trans h.faultQ, h'.dict.trans h.dict⟩
  obtain ⟨g, a, b, hn⟩ := h.lunOf n
  obtain ⟨g', a', b', hn'⟩ := h'.lunOf n
  exact ⟨g', a', b', by rw [hn', hn]⟩

theorem Dev.lunOf_congr {d e : Dev} (h : e.kennel = d.kennel) (n : Nat) : e.lunOf n = d.lunOf n := by rw [Dev.lunOf, h, Dev.lunOf]

/-- A LUN after a write of a LUN. -/
theorem Dev.lunOf_setLun (d : Dev) (n m : Nat) (x : Lun) : (d.setLun n x).lunOf m = if m = n then x else d.lunOf m := by
  simp [Dev.lunOf, Dev.setLun, storeGet_set]

/-- A header that is written moves the header of its LUN. -/
theorem Dev.headerTo_reheaded (d : Dev) (n : Nat) : d.Reheaded (d.headerTo n) := by
  have hset : ∀ {e : Dev} {x : Lun}, e.kennel = d.kennel → e.faultQ = d.faultQ → e.dict = d.dict →
      (∃ gen h0 h1, x = { d.lunOf n with gen := gen, hdr0 := h0, hdr1 := h1 }) → d.Reheaded (e.setLun n x) := by
    rintro e x hk hq hd ⟨gen, h0, h1, rfl⟩
    refine ⟨⟨_, by rw [Dev.setLun, Dev.setKennel_kennel, hk]⟩, fun m => ?_, hq, hd⟩
    rw [Dev.lunOf_setLun]
    split
    next hm => exact ⟨_, _, _, by rw [hm]⟩
    next => exact ⟨_, _, _, Dev.lunOf_congr hk m⟩
  have herase : ∀ (full : Bool) (a : List Nat), (if full then d.emit .flash a else d).kennel = d.kennel ∧
      (if full then d.emit .flash a else d).faultQ = d.faultQ ∧ (if full then d.emit .flash a else d).dict = d.dict := by
    intro full a
    split <;> exact ⟨rfl, rfl, rfl⟩
  unfold Dev.headerTo
  dsimp only
  obtain ⟨hk, hq, hd⟩ := herase _ _
  exact hset hk hq hd (by split <;> exact ⟨_, _, _, rfl⟩)

/-- A rewrite of headers begins a new generation. -/
theorem Dev.rewriteHeaders_reheaded (d : Dev) (l : List Nat) : (d.setKennel { d.kennel with gen := d.kennel.gen + 1 }).Reheaded (d.rewriteHeaders l) :=
  List.foldlRecOn l Dev.headerTo (motive := Dev.Reheaded _) (.refl _) fun _ h n _ => h.trans (Dev.headerTo_reheaded _ n)

/-- A rewrite of headers changes of the directory the generation alone. -/
theorem Dev.rewriteHeaders_kennel (d : Dev) (l : List Nat) : ∃ luns, (d.rewriteHeaders l).kennel = { d.kennel with gen := d.kennel.gen + 1, luns := luns } :=
  (d.rewriteHeaders_reheaded l).kennel

theorem Dev.rewriteHeaders_faultQ (d : Dev) (l : List Nat) : (d.rewriteHeaders l).faultQ = d.faultQ := (d.rewriteHeaders_reheaded l).faultQ

/-- A rewrite of headers keeps a LUN's bad blocks and remaps. -/
theorem Dev.rewriteHeaders_lunOf (d : Dev) (l : List Nat) (n : Nat) : ((d.rewriteHeaders l).lunOf n).failed = (d.lunOf n).failed ∧
    ((d.rewriteHeaders l).lunOf n).bad = (d.lunOf n).bad ∧ ((d.rewriteHeaders l).lunOf n).remap = (d.lunOf n).remap := by
  obtain ⟨gen, h0, h1, h⟩ := (d.rewriteHeaders_reheaded l).lunOf n
  rw [h]
  exact ⟨rfl, rfl, rfl⟩

/-! ### A format ends (R115) -/

/-- What populated LUNs report has a reference LUN. -/
theorem refLun_of_ne_nil {l : List LunInfo} (h : l ≠ []) : ∃ ref, refLun l = some ref := by
  obtain ⟨x, r, rfl⟩ := List.exists_cons_of_ne_nil h
  refine List.foldlRecOn r _ (motive := fun o : Option LunInfo => ∃ ref, o = some ref) ⟨x, rfl⟩ ?_
  rintro _ ⟨y, rfl⟩ z -
  dsimp only
  split <;> exact ⟨_, rfl⟩

/-- The initialisation of LUNs leaves the Kennel as it is. -/
theorem Dev.onfiInits_kennel (l : List LunInfo) (slc : Nat) (d : Dev) : (l.foldl (Dev.onfiInit · slc) d).kennel = d.kennel :=
  List.foldlRecOn l _ (motive := fun e : Dev => e.kennel = d.kennel) rfl fun _ h _ _ => h

/-- The device `e` holds the Kennel that a format of `d` leaves. -/
structure Dev.Formatted (d e : Dev) : Prop where
  valid : e.kennel.valid = true
  idle : e.kennel.formatting = false
  gen : e.kennel.gen = d.kennel.gen + 1
  a : e.kennel.a = {}
  b : e.kennel.b = {}
  key : e.kennel.key.isSome = true
  drill : e.g oDrillValid = 0

/-- A source that is raised changes nothing of it. -/
theorem Dev.Formatted.faultIf {d e : Dev} (h : d.Formatted e) (p : Prop) [Decidable p] (n : Nat) : d.Formatted (if p then e.fault n else e) := by
  split
  · exact ⟨h.valid, h.idle, h.gen, h.a, h.b, h.key, h.drill⟩
  · exact h

/-- The headers of a new directory are written, and then its key is kept. -/
theorem Dev.Formatted.of_directory {d f e : Dev} {k : Kennel} {l : List Nat} {key : BitVec 512} (hv : k.valid = true) (hi : k.formatting = false)
    (hg : k.gen = d.kennel.gen) (ha : k.a = {}) (hb : k.b = {})
    (he : e.kennel = { ((f.setKennel k).rewriteHeaders l).kennel with key := some key, nextSeq := e.kennel.nextSeq }) (hdrill : e.g oDrillValid = 0) :
    d.Formatted e := by
  obtain ⟨luns, hluns⟩ := (f.setKennel k).rewriteHeaders_kennel l
  rw [hluns, Dev.setKennel_kennel] at he
  exact ⟨by rw [he]; exact hv, by rw [he]; exact hi, by rw [he]; exact congrArg (· + 1) hg, by rw [he]; exact ha, by rw [he]; exact hb, by rw [he]; rfl, hdrill⟩

theorem Dev.formatComplete_idle {d : Dev} (h : d.kennel.formatting = false) (found : List LunInfo) : d.formatComplete found = d := by
  unfold Dev.formatComplete
  rw [if_neg (by simp [h])]

/-- The end of a format leaves an empty Kennel that is valid, of a new key. -/
theorem Dev.formatComplete_formatted {d : Dev} {found : List LunInfo} (hf : d.kennel.formatting = true) (hi : d.inVault = false) (hs : d.sup = 2)
    (hv : d.vst ≠ 0x0A) (hfound : found ≠ []) : d.Formatted (d.formatComplete found) := by
  obtain ⟨ref, href⟩ := refLun_of_ne_nil hfound
  unfold Dev.formatComplete
  rw [if_pos ⟨hf, by simp [hi], hs, hv⟩, href]
  dsimp only
  refine ((Dev.Formatted.of_directory ?valid ?idle ?gen rfl rfl rfl (Dev.g_s_same ..)).faultIf _ 24).faultIf _ 26
  case valid => dsimp only; split <;> rfl
  case idle => rfl
  case gen =>
    rw [← Dev.onfiInits_kennel found (d.g oSlcFeature) d]
    dsimp only
    split <;> rfl

/-! ### LUNs and blocks that fail (R114) -/

/-- LUN `n` leaves LunMap for good, and the Kennel-LUN source is raised. -/
theorem Dev.lunLost_result (d : Dev) (n : Nat) : n ∉ (d.lunLost n).kennel.map ∧ ((d.lunLost n).lunOf n).failed = true ∧
    ((d.lunLost n).lunOf n).bad = (d.lunOf n).bad ∧ ((d.lunLost n).lunOf n).remap = (d.lunOf n).remap ∧
    (d.lunLost n).kennel.gen = d.kennel.gen + 1 ∧ (d.lunLost n).faultQ = d.faultQ ++ [{ src := 26 }] := by
  have hlun : (d.lunFail n).lunOf n = { d.lunOf n with failed := true } := (Dev.lunOf_setLun d n n _).trans (if_pos rfl)
  obtain ⟨hfailed, hbad, hremap⟩ := (d.lunFail n).rewriteHeaders_lunOf d.allLuns n
  obtain ⟨luns, hk⟩ := (d.lunFail n).rewriteHeaders_kennel d.allLuns
  have hq := (d.lunFail n).rewriteHeaders_faultQ d.allLuns
  rw [hlun] at hfailed hbad hremap
  unfold Dev.lunLost
  refine ⟨?map, hfailed, hbad, hremap, by rw [Dev.fault, Dev.raise_kennel, hk]; rfl, by rw [Dev.fault, Dev.raise_faultQ, hq]; rfl⟩
  case map =>
    rw [Dev.fault, Dev.raise_kennel, hk]
    simp [Dev.lunFail]

/-- LUN `n` with `block` among its bad blocks, and its channel's source raised. -/
def Dev.blockBad (d : Dev) (n block : Nat) : Dev :=
  (d.fault (496 + n / 16)).setLun n { d.lunOf n with bad := if (d.lunOf n).bad.contains block then (d.lunOf n).bad else (d.lunOf n).bad ++ [block] }

/-- The block whose part `block` of LUN `n` plays. -/
def Dev.blockOrigin (d : Dev) (n block : Nat) : Nat := (((d.lunOf n).remap.find? (·.2 = block)).map (·.1)).getD block

/-- LUN `n` once `block` has failed: a reserve block stands in for it where one is left. -/
def Dev.blockRetired (d : Dev) (n block : Nat) : Dev :=
  match (if d.kennel.reserveBase ≤ d.blockOrigin n block then none else (d.blockBad n block).reserveFree n) with
  | some b => (d.blockBad n block).setLun n { (d.blockBad n block).lunOf n with
      remap := (d.blockOrigin n block, b) :: ((d.blockBad n block).lunOf n).remap.filter (·.1 ≠ d.blockOrigin n block) }
  | none => d.blockBad n block

section BlockFail
variable {d : Dev} {n block : Nat}

theorem Dev.flashBlockFail_ignored (h : n ∉ d.kennel.map ∨ d.inVault = true) (dead : Bool) : d.flashBlockFail n block dead = d := by
  rw [Dev.flashBlockFail, if_pos (by simpa using h)]

theorem Dev.flashBlockFail_eq (hm : n ∈ d.kennel.map) (hv : d.inVault = false) (dead : Bool) : d.flashBlockFail n block dead =
    if dead ∨ ((d.blockRetired n block).reserveFree n).isNone then (d.blockRetired n block).lunLost n else (d.blockRetired n block).rewriteHeaders [n] := by
  rw [Dev.flashBlockFail, if_neg (by simp [hm, hv])]
  rfl

/-- A block that fails raises its channel's source, and changes of the Kennel the LUNs alone. -/
theorem Dev.blockRetired_frame (d : Dev) (n block : Nat) : (d.blockRetired n block).faultQ = d.faultQ ++ [{ src := 496 + n / 16 }] ∧
    ∃ luns, (d.blockRetired n block).kennel = { d.kennel with luns := luns } := by
  unfold Dev.blockRetired
  split <;> exact ⟨rfl, _, rfl⟩

/-- A dead LUN leaves LunMap. -/
theorem Dev.flashBlockFail_dead (hm : n ∈ d.kennel.map) (hv : d.inVault = false) : n ∉ (d.flashBlockFail n block true).kennel.map ∧
    ((d.flashBlockFail n block true).lunOf n).failed = true ∧ (d.flashBlockFail n block true).Raised (496 + n / 16) ∧
      (d.flashBlockFail n block true).Raised 26 := by
  obtain ⟨hmap, hfailed, -, -, -, hq⟩ := (d.blockRetired n block).lunLost_result n
  rw [(d.blockRetired_frame n block).1] at hq
  rw [Dev.flashBlockFail_eq hm hv, if_pos (.inl rfl)]
  exact ⟨hmap, hfailed, ⟨{ src := 496 + n / 16 }, by simp [hq], rfl⟩, ⟨{ src := 26 }, by simp [hq], rfl⟩⟩

end BlockFail

/-- The blocks of LUN `n` that stand in for others, are taken by relocations, or are bad. -/
def Dev.blocksTaken (d : Dev) (n : Nat) : List Nat := (d.lunOf n).remap.map (·.2) ++ (d.lunOf n).relUsed ++ (d.lunOf n).bad

/-- The unused reserve block is the lowest that is not taken. -/
theorem Dev.reserveFree_eq (d : Dev) (n : Nat) : d.reserveFree n =
    ((List.range d.kennel.reserveBlocks).map (d.kennel.reserveBase + ·)).find? fun b => ¬ (d.blocksTaken n).contains b := rfl

/-- LUN `n` has no unused reserve block when every one is taken. -/
theorem Dev.reserveFree_isNone {d : Dev} {n : Nat} : (d.reserveFree n).isNone = true ↔
    ∀ c, d.kennel.reserveBase ≤ c → c < d.kennel.reserveBase + d.kennel.reserveBlocks → c ∈ d.blocksTaken n := by
  rw [Option.isNone_iff_eq_none, Dev.reserveFree_eq, List.find?_eq_none]
  simp only [List.mem_map, List.mem_range, List.contains_eq_mem, decide_eq_true_eq, not_not]
  constructor
  · intro h c hlo hhi
    exact h c ⟨c - d.kennel.reserveBase, by omega, by omega⟩
  · rintro h _ ⟨i, hi, rfl⟩
    exact h _ (by omega) (by omega)

/-- Which reserve block is unused goes by the reserve band and by what of it is taken. -/
theorem Dev.reserveFree_congr {d e : Dev} {n : Nat} (hbase : e.kennel.reserveBase = d.kennel.reserveBase) (hblocks : e.kennel.reserveBlocks = d.kennel.reserveBlocks)
    (h : ∀ c, d.kennel.reserveBase ≤ c → (c ∈ e.blocksTaken n ↔ c ∈ d.blocksTaken n)) : e.reserveFree n = d.reserveFree n := by
  rw [Dev.reserveFree_eq, Dev.reserveFree_eq, hbase, hblocks]
  refine List.find?_congr fun c hc => ?_
  obtain ⟨i, -, rfl⟩ := List.mem_map.1 hc
  simp [h _ (Nat.le_add_right _ i)]

/-- A block outside the reserve that fails takes none of it. -/
theorem Dev.blockBad_reserveFree {d : Dev} {block : Nat} (hlt : block < d.kennel.reserveBase) (n : Nat) : (d.blockBad n block).reserveFree n = d.reserveFree n := by
  refine Dev.reserveFree_congr rfl rfl fun c hc => ?_
  have hlun : (d.blockBad n block).lunOf n = _ := (Dev.lunOf_setLun _ n n _).trans (if_pos rfl)
  simp only [Dev.blocksTaken, hlun, List.mem_append]
  split <;> simp [show c ≠ block by omega]

section Remap
variable {d : Dev} {n block b : Nat} (hlt : block < d.kennel.reserveBase) (hnew : ∀ p ∈ (d.lunOf n).remap, p.1 ≠ block ∧ p.2 ≠ block)
  (hfree : d.reserveFree n = some b)
include hlt hnew hfree

/-- The lowest unused reserve block stands in for a block outside the reserve that fails. -/
theorem Dev.blockRetired_lun : ((d.blockRetired n block).lunOf n).remap = (block, b) :: (d.lunOf n).remap ∧
    ((d.blockRetired n block).lunOf n).relUsed = (d.lunOf n).relUsed ∧
    ∀ c, c ∈ ((d.blockRetired n block).lunOf n).bad ↔ c ∈ (d.lunOf n).bad ∨ c = block := by
  have horigin : d.blockOrigin n block = block := by
    rw [Dev.blockOrigin, List.find?_eq_none.2 fun p hp => by simpa using (hnew p hp).2]
    rfl
  have hkept : (d.lunOf n).remap.filter (·.1 ≠ block) = (d.lunOf n).remap := List.filter_eq_self.2 fun p hp => by simpa using (hnew p hp).1
  have hlun : (d.blockBad n block).lunOf n = _ := (Dev.lunOf_setLun _ n n _).trans (if_pos rfl)
  rw [Dev.blockRetired, horigin, if_neg (by omega), Dev.blockBad_reserveFree hlt n, hfree]
  dsimp only
  rw [Dev.lunOf_setLun, if_pos rfl, hlun]
  refine ⟨congrArg _ hkept, rfl, fun c => ?_⟩
  dsimp only
  split
  next h =>
    rw [List.contains_iff_mem] at h
    exact ⟨.inl, fun hc => hc.elim id fun hc => hc ▸ h⟩
  next => simp

/-- After that, LUN `n` has an unused reserve block when the reserve holds another one that was not taken. -/
theorem Dev.blockRetired_exhausted : ((d.blockRetired n block).reserveFree n).isNone = true ↔
    ¬ ∃ c, c ≠ b ∧ d.kennel.reserveBase ≤ c ∧ c < d.kennel.reserveBase + d.kennel.reserveBlocks ∧ c ∉ d.blocksTaken n := by
  obtain ⟨luns, hk⟩ := (d.blockRetired_frame n block).2
  obtain ⟨hremap, hused, hbad⟩ := Dev.blockRetired_lun hlt hnew hfree
  have htaken : ∀ c, d.kennel.reserveBase ≤ c → (c ∈ (d.blockRetired n block).blocksTaken n ↔ c = b ∨ c ∈ d.blocksTaken n) := by
    intro c hc
    simp only [Dev.blocksTaken, hremap, hused, List.mem_append, hbad, List.map_cons, List.mem_cons]
    have hne : c ≠ block := by omega
    tauto
  rw [Dev.reserveFree_isNone, hk]
  constructor
  · rintro h ⟨c, hne, hlo, hhi, hfree⟩
    exact ((htaken c hlo).1 (h c hlo hhi)).elim hne hfree
  · intro h c hlo hhi
    rw [htaken c hlo]
    by_contra hc
    exact h ⟨c, fun hb => hc (.inl hb), hlo, hhi, fun ht => hc (.inr ht)⟩

/-- A block that fails is remapped, and its LUN leaves LunMap when that takes its last unused reserve block. -/
theorem Dev.flashBlockFail_remaps (hm : n ∈ d.kennel.map) (hv : d.inVault = false) {more : Prop}
    (hmore : more ↔ ∃ c, c ≠ b ∧ d.kennel.reserveBase ≤ c ∧ c < d.kennel.reserveBase + d.kennel.reserveBlocks ∧ c ∉ d.blocksTaken n) :
    ∃ e : Dev, d.flashBlockFail n block false = e ∧ e.Raised (496 + n / 16) ∧ block ∈ (e.lunOf n).bad ∧ (e.lunOf n).remap.head? = some (block, b) ∧
      e.kennel.gen = d.kennel.gen + 1 ∧ (more → e.kennel.map = d.kennel.map) ∧ (¬ more → n ∉ e.kennel.map ∧ e.Raised 26) := by
  obtain ⟨hq, luns, hk⟩ := d.blockRetired_frame n block
  obtain ⟨hremap, -, hbad⟩ := Dev.blockRetired_lun hlt hnew hfree
  have hexhausted := (Dev.blockRetired_exhausted hlt hnew hfree).trans (not_congr hmore.symm)
  refine ⟨_, rfl, ?_⟩
  rw [Dev.flashBlockFail_eq hm hv]
  by_cases h : more
  · rw [if_neg (by simp [hexhausted, h])]
    obtain ⟨-, hbad', hremap'⟩ := (d.blockRetired n block).rewriteHeaders_lunOf [n] n
    obtain ⟨luns', hk'⟩ := (d.blockRetired n block).rewriteHeaders_kennel [n]
    rw [hbad', hremap', hremap, hbad, hk', hk]
    exact ⟨⟨{ src := 496 + n / 16 }, by simp [Dev.rewriteHeaders_faultQ, hq], rfl⟩, .inr rfl, rfl, rfl, fun _ => rfl, fun hn => absurd h hn⟩
  · rw [if_pos (.inr (hexhausted.2 h))]
    obtain ⟨hmap, -, hbad', hremap', hgen, hq'⟩ := (d.blockRetired n block).lunLost_result n
    rw [hbad', hremap', hremap, hbad, hgen, hk]
    exact ⟨⟨{ src := 496 + n / 16 }, by simp [hq', hq], rfl⟩, .inr rfl, rfl, rfl, fun hn => absurd hn h,
      fun _ => ⟨hmap, ⟨{ src := 26 }, by simp [hq'], rfl⟩⟩⟩

end Remap

/-! ### Erases, and the usability of the slots (R127, R128) -/

section Erase
variable {d : Dev} {i : Nat}

theorem Dev.slotErased_ignored (h : d.inVault = true ∨ d.kennel.formatting = true ∨ (d.slotK i).erasing = false) : d.slotErased i = d := by
  rw [Dev.slotErased, if_pos (by simpa using .inr h)]

/-- The erase of a slot ends. -/
theorem Dev.slotErased_result (hi : i < 2) (hv : d.inVault = false) (hf : d.kennel.formatting = false) (he : (d.slotK i).erasing = true) :
    ((d.slotErased i).slotK i).erasing = false ∧ ((d.slotErased i).slotK i).corrupt = false := by
  have hslot : ¬ 1 < i := by omega
  rw [Dev.slotErased, if_neg (by simp [hslot, hv, hf, he]), Dev.slotK_setSlotK_same]
  exact ⟨rfl, rfl⟩

end Erase

/-- The erase of the scratch band ends. -/
theorem Dev.scratchErased_result {d : Dev} (hv : d.inVault = false) (hd : d.energy.drill.due = false) : d.scratchErased.kennel.scratchErase = false := by
  unfold Dev.scratchErased
  by_cases h : d.kennel.scratchErase = true
  · rw [if_neg (by simp [h, hv])]
    simp [hd]
  · rw [if_pos (.inl h)]
    simpa using h

theorem Dev.usabilityCheck_same {d : Dev} (h : bit (d.g oWriteThroughCause) 2 = d.vaultTarget.isNone) : d.usabilityCheck = d := if_pos h

/-- Bit 2 of WriteThroughCause follows whether a slot is usable. -/
theorem Dev.usabilityCheck_changes {d : Dev} (h : bit (d.g oWriteThroughCause) 2 ≠ d.vaultTarget.isNone) :
    ∃ f : Dev, d.usabilityCheck = f.armEval ∧ bit (f.g oWriteThroughCause) 2 = d.vaultTarget.isNone := by
  refine ⟨d.wtCause 2 d.vaultTarget.isNone, if_neg h, ?_⟩
  rw [Dev.wtCause, Dev.modeUpdate, Dev.g_s_ne _ _ _ _ (by decide), Dev.g_sbit_same]
  exact testBit_setBit_same ..

end Sys2Proof.Machine
end

section
/-! PROOFS. Restore and Fetch (06_restore_and_fetch.md): the source that WAKE chooses, the end of the read, segments that come in, and lost ranges. -/
namespace Sys2Proof.Machine
open Sys2Proof

/-! ### The commands, at a powered device -/

section Commands
variable {s : State} (h : s.Powered)
include h

theorem exec_wakeComplete (found : WakeFound) (speed : Nat) (failed marginal : List Nat) (metaOk : Bool) (bad : List Nat) (readA readB : Option (List Nat)) :
    exec (.wakeComplete found speed failed marginal metaOk bad readA readB) s =
      .next (s.leaves (s.dev.wakeComplete found speed failed marginal metaOk bad readA readB)) :=
  act_on s (Dev.wakeComplete · found speed failed marginal metaOk bad readA readB) h

theorem exec_restoreReadComplete (lost : List Nat) : exec (.restoreReadComplete lost) s = .next (s.leaves (s.dev.restoreRead lost)) :=
  act_on s (Dev.restoreRead · lost) h

theorem exec_restoreRebuildComplete : exec .restoreRebuildComplete s = .next (s.leaves s.dev.restoreRebuilt) := act_on s Dev.restoreRebuilt h

theorem exec_fetchHostAdmit : exec .fetchHostAdmit s = .next (s.leaves s.dev.fetchAdmit) := act_on s Dev.fetchAdmit h

theorem exec_restoreSegmentInstalled (i : Nat) (ok : Bool) (latency : Nat) :
    exec (.restoreSegmentInstalled i ok latency) s = .next (s.leaves (s.dev.segInstalled i ok latency)) := act_on s (Dev.segInstalled · i ok latency) h

theorem exec_backgroundSegmentRestored (ok : Bool) : exec (.backgroundSegmentRestored ok) s = .next (s.leaves (s.dev.segBackground ok)) :=
  act_on s (Dev.segBackground · ok) h

theorem exec_configRetryLimitExpire : exec .configRetryLimitExpire s = .next (s.leaves s.dev.configRetry) := act_on s Dev.configRetry h

theorem exec_lostRangeRelease {v : Nat} (hv : v < 65536) :
    exec (.lostRangeRelease v) s = .next (s.leaves (s.dev.mgrWrite uChip oLostRangeRelease v)) :=
  act_if _ s (Dev.mgrWrite · uChip oLostRangeRelease v) h (by simpa using hv)

end Commands

/-! ### WAKE (R133, R134, R136) -/

section Wake
variable {d : Dev} (found : WakeFound) (speed : Nat) {failed : List Nat} (marginal : List Nat) (bad : List Nat) (readA readB : Option (List Nat))

theorem Dev.wakeComplete_elsewhere (h : d.vst ≠ 0x0A) (metaOk : Bool) :
    d.wakeComplete found speed failed marginal metaOk bad readA readB = d := by
  rw [Dev.wakeComplete, if_pos (.inl h)]

variable (hv : d.vst = 0x0A) (hs : d.sup = 2) (hu : d.power.seqUp = false) (hl : d.aon.lshEn = false) (hr : d.g oPackRole = 0)
include hv hs hu hl hr

/-- Outside a Pack WAKE goes by whether the machine was retained. -/
theorem Dev.wakeComplete_alone (metaOk : Bool) : d.wakeComplete found speed failed marginal metaOk bad readA readB =
    if d.restore.fromRetain then
      if metaOk = true ∧ ¬ ((List.range 8).any fun n => (d.chan n).st = 3 ∧ failed.contains n) = true then
        ((d.dramWake failed marginal).lunsWake found.luns).dramResume bad
      else ((((d.dramWake failed marginal).lunsWake found.luns).loseMachine).setRun {}).chooseSlot readA readB
    else (((d.dramBringUp found.chans speed failed).lunsWake found.luns).kennelWake).chooseSlot readA readB := by
  have hauto : (if d.g oPackRole = 1 then d.slotsAuto else d) = d := if_neg (by simp [hr])
  rw [Dev.wakeComplete, if_neg (by simp [hv, hs, hu, hl])]
  dsimp only
  rw [hauto]

/-- A retained machine that reads without error resumes from DRAM. -/
theorem Dev.wakeComplete_resumes (hf : d.restore.fromRetain = true) (hchans : ∀ n < 8, (d.chan n).st = 3 → n ∉ failed) :
    d.wakeComplete found speed failed marginal true bad readA readB = ((d.dramWake failed marginal).lunsWake found.luns).dramResume bad := by
  have hnone : ¬ ((List.range 8).any fun n => (d.chan n).st = 3 ∧ failed.contains n) = true := by
    simpa using hchans
  rw [Dev.wakeComplete_alone found speed marginal bad readA readB hv hs hu hl hr, if_pos hf, if_pos ⟨rfl, hnone⟩]

/-- A retained machine that does not is lost, and a slot is chosen. -/
theorem Dev.wakeComplete_loses (hf : d.restore.fromRetain = true) : d.wakeComplete found speed failed marginal false bad readA readB =
    ((((d.dramWake failed marginal).lunsWake found.luns).loseMachine).setRun {}).chooseSlot readA readB := by
  rw [Dev.wakeComplete_alone found speed marginal bad readA readB hv hs hu hl hr, if_pos hf, if_neg (by simp)]

/-- With no machine retained DRAM is brought up, and a slot is chosen. -/
theorem Dev.wakeComplete_chooses (hf : d.restore.fromRetain = false) (metaOk : Bool) : d.wakeComplete found speed failed marginal metaOk bad readA readB =
    (((d.dramBringUp found.chans speed failed).lunsWake found.luns).kennelWake).chooseSlot readA readB := by
  rw [Dev.wakeComplete_alone found speed marginal bad readA readB hv hs hu hl hr, if_neg (by simp [hf])]

end Wake

/-! ### The end of the read (R139, R141) -/

/-- A restore stands where it stood: VaultState and the end of its read are as they were. -/
structure Dev.KeepsStage (d e : Dev) : Prop where
  vst : e.vst = d.vst
  readDone : e.restore.readDone = d.restore.readDone

theorem Dev.KeepsStage.refl (d : Dev) : d.KeepsStage d := ⟨rfl, rfl⟩

theorem Dev.KeepsStage.trans {d e f : Dev} (h : d.KeepsStage e) (h' : e.KeepsStage f) : d.KeepsStage f :=
  ⟨h'.vst.trans h.vst, h'.readDone.trans h.readDone⟩

theorem Dev.KeepsStage.of_dict {d e : Dev} (hdict : e.dict = d.dict) (hr : e.restore.readDone = d.restore.readDone) : d.KeepsStage e :=
  ⟨Dev.g_of_dict hdict _, hr⟩

theorem Dev.takeFrame_keepsStage (d : Dev) (n : Nat) : d.KeepsStage (d.takeFrame n).2 := by
  rcases (d.takeFrame_cases n).1 with h | ⟨v, -, h⟩ <;> rw [h] <;> exact .of_dict rfl rfl

theorem Dev.KeepsStage.loseVersion {d e : Dev} (h : d.KeepsStage e) (v : Version) (kind : Nat) : d.KeepsStage (e.loseVersion v kind) := by
  refine h.trans ?_
  unfold Dev.loseVersion
  split
  · split <;> exact .of_dict rfl rfl
  · exact .of_dict rfl rfl

/-- The frame in which version `v`, the `k`-th of an image, comes back: its own, one of its pool, or none that is populated. -/
def Dev.frameBack (d : Dev) (v : Version) (k : Nat) : Nat × Dev :=
  if d.inService (frameChan v.frame) ∧ v.frame % 2 ^ 28 < d.poolFrames (frameChan v.frame) then (v.frame, d)
  else match d.poolFor v.vol v.blk with
  | some n => d.takeFrame n
  | none => (8 * 2 ^ 28 + k, d)

theorem Dev.frameBack_keepsStage (d : Dev) (v : Version) (k : Nat) : d.KeepsStage (d.frameBack v k).2 := by
  unfold Dev.frameBack
  split
  · exact .refl d
  · split
    · exact d.takeFrame_keepsStage _
    · exact .refl d

/-- The versions of an image come in without the restore going on. -/
theorem Dev.installVersions_keepsStage (d : Dev) (m : Image) : d.KeepsStage (d.installVersions m) := by
  unfold Dev.installVersions
  refine List.foldlRecOn _ _ (motive := d.KeepsStage) (.refl d) fun e he x _ => he.trans ?_
  have hframe := e.frameBack_keepsStage x.1 x.2
  dsimp only
  split
  · exact ⟨hframe.vst, hframe.readDone⟩
  · refine Dev.KeepsStage.loseVersion ?_ _ _
    exact ⟨hframe.vst, hframe.readDone⟩

/-- So does its machine state. -/
theorem Dev.installMachine_keepsStage (d : Dev) (m : Image) : d.KeepsStage (d.installMachine m) := by
  unfold Dev.installMachine
  dsimp only
  generalize hf : ({ d with mem := _, eng := _, insts := _, cores := _ } : Dev) = f
  have hfilled : d.KeepsStage f := by
    rw [← hf]
    exact .of_dict rfl rfl
  have hsums := (f.s_keepsRun oMustPageBytes (f.pageBytes 0) (by decide)).trans
    ((f.s oMustPageBytes (f.pageBytes 0)).s_keepsRun oMayDropBytes ((f.s oMustPageBytes (f.pageBytes 0)).pageBytes 1) (by decide))
  exact ⟨hsums.vst.trans hfilled.vst, rfl⟩

theorem Image.addLost_nil (m : Image) : m.addLost [] = m := by simp [Image.addLost]

theorem Dev.modHeld_keepsStage (d : Dev) (f : Image → Image) : d.KeepsStage (d.modHeld f) := by
  unfold Dev.modHeld Dev.setSlotK
  dsimp only
  split
  · split <;> exact .of_dict rfl rfl
  · exact .refl d

/-- The held image `m` with its read at an end: its volumes, its versions and, where it resumes, its machine state are in. -/
def Dev.readIn (d : Dev) (m : Image) : Dev :=
  let d := d.modHeld (Image.addLost · [])
  let d := d.setRestore { d.restore with readDone := true }
  let d := { d with cache := { d.cache with volumes := m.snap.volumes, nextSeq := m.snap.nextSeq, versions := [] } }
  let d := d.installVersions m
  if m.resumes then d.installMachine m else d

/-- A read that has ended leaves VaultState as it is. -/
theorem Dev.readIn_stage (d : Dev) (m : Image) : (d.readIn m).vst = d.vst ∧ (d.readIn m).restore.readDone = true := by
  unfold Dev.readIn
  dsimp only
  generalize hf : ({ Dev.setRestore _ _ with cache := _ } : Dev) = f
  have hread : f.vst = d.vst ∧ f.restore.readDone = true := by
    rw [← hf]
    exact ⟨(d.modHeld_keepsStage _).vst, rfl⟩
  have hvers := f.installVersions_keepsStage m
  have hmachine := hvers.trans (Dev.installMachine_keepsStage _ m)
  split
  · exact ⟨hmachine.vst.trans hread.1, hmachine.readDone.trans hread.2⟩
  · exact ⟨hvers.vst.trans hread.1, hvers.readDone.trans hread.2⟩

/-- The segments of an image that a fetch reads first: those of steps 1 and 2 and of the machine-state region. -/
def Image.fetchPrefix (m : Image) : List Nat :=
  (List.range (min m.pfx (m.upTo 4))).filter fun i => match m.item i with | some x => decide (x.step ≤ 2 ∨ x.id = 5) | none => false

section Read
variable {d : Dev} {m : Image}

/-- In Fetch a read that found every segment ends with the first segments resident. -/
theorem Dev.restoreRead_fetch (hm : d.heldImage = some m) (hv : d.vst = 0x0C) (hr : d.restore.readDone = false) :
    d.restoreRead [] = (d.readIn m).s oResidentBytes (m.fetchPrefix.length * 65536) := by
  have hstage : ∀ n : Image, ((d.readIn n).s oResidentBytes (n.fetchPrefix.length * 65536)).vst = 0x0C := fun n =>
    ((Dev.s_keepsRun _ oResidentBytes _ (by decide)).vst.trans (d.readIn_stage n).1).trans hv
  have hread : d.restoreRead [] = (d.readIn (m.addLost [])).s oResidentBytes ((m.addLost []).fetchPrefix.length * 65536) := by
    unfold Dev.restoreRead
    rw [if_pos ⟨.inr hv, by simp [hr]⟩, hm]
    exact (if_neg (by simp)).trans (if_pos (hstage (m.addLost [])))
  rwa [Image.addLost_nil] at hread

end Read

/-- With no held image there is nothing to read, to resume or to install. -/
theorem Dev.heldImage_of_none {d : Dev} (h : d.restore.held = none) : d.heldImage = none := by rw [Dev.heldImage, h]

theorem Dev.restoreRead_none {d : Dev} (h : d.heldImage = none) (lost : List Nat) : d.restoreRead lost = d := by
  rw [Dev.restoreRead, h, ite_self]

theorem Dev.restoreRebuilt_none {d : Dev} (h : d.heldImage = none) : d.restoreRebuilt = d := by rw [Dev.restoreRebuilt, h, ite_self]

theorem Dev.fetchAdmit_none {d : Dev} (h : d.heldImage = none) : d.fetchAdmit = d := by rw [Dev.fetchAdmit, h, ite_self]

theorem Dev.segInstalled_none {d : Dev} (h : d.heldImage = none) (i : Nat) (ok : Bool) (latency : Nat) : d.segInstalled i ok latency = d := by
  rw [Dev.segInstalled, h, ite_self]

theorem Dev.segBackground_none {d : Dev} (h : d.heldImage = none) (ok : Bool) : d.segBackground ok = d := by rw [Dev.segBackground, h, ite_self]

/-! ### A restore ends, and segments come in (R139, R141, R142) -/

section Held
variable {d : Dev} {m : Image} (hm : d.heldImage = some m)
include hm

theorem Dev.restoreRebuilt_ends (hv : d.vst = 0x0B) (hr : d.restore.readDone = true) :
    d.restoreRebuilt = (((d.setVaultState d.armState).restoreResume m).armEval).heldCheck := by
  rw [Dev.restoreRebuilt, if_pos ⟨hv, hr⟩, hm]

theorem Dev.fetchAdmit_admits (hv : d.vst = 0x0C) (hr : d.restore.readDone = true) (hio : d.restore.hostIo = false) (hp : d.aon.perstN = true) :
    d.fetchAdmit = ((d.restoreResume m).armEval).heldCheck := by
  rw [Dev.fetchAdmit, if_pos ⟨hv, hr, by simp [hio], hp⟩, hm]

theorem Dev.segInstalled_unwanted (hv : d.inVault = false) {i : Nat} (hw : d.segWanted m i = false) (ok : Bool) (latency : Nat) :
    d.segInstalled i ok latency = d := by
  rw [Dev.segInstalled, if_neg (by simp [hv]), hm]
  simp [hw]

/-- A demanded segment comes in, and its longest miss is recorded. -/
theorem Dev.segInstalled_wanted (hv : d.inVault = false) {i : Nat} (hw : d.segWanted m i = true) {ok : Bool} {f : Dev} (hf : d.segInstall i ok = some f)
    (latency : Nat) : d.segInstalled i ok latency = (f.s oFetchMissMax (min (2 ^ 32 - 1) (max (f.g oFetchMissMax) latency))).segKick := by
  rw [Dev.segInstalled, if_neg (by simp [hv]), hm]
  simp [hw, hf]

section Background
variable (hv : d.vst = 0x0C) (hio : d.restore.hostIo = true) (ok : Bool)
include hv hio

/-- With every segment in, the image is looked at for its end. -/
theorem Dev.segBackground_done (hw : ∀ i < m.pfx, d.segWanted m i = false) : d.segBackground ok = d.heldCheck := by
  have hnone : (List.range m.pfx).find? (fun i => d.segWanted m i) = none := List.find?_eq_none.2 fun i hi => by simp [hw i (List.mem_range.1 hi)]
  rw [Dev.segBackground, if_pos ⟨hv, hio⟩, hm]
  simp only [hnone]

/-- The next segment in the plan's order comes in. -/
theorem Dev.segBackground_next {i : Nat} {f : Dev} (hi : (List.range m.pfx).find? (fun i => d.segWanted m i) = some i) (hf : d.segInstall i ok = some f) :
    d.segBackground ok = f.segKick := by
  rw [Dev.segBackground, if_pos ⟨hv, hio⟩, hm]
  simp only [hi, hf]

end Background

end Held

/-! ### Lost ranges (R152) -/

/-- The row of LostRangeRelease. -/
def lostRangeReleaseRow : ObjRow := ⟨oLostRangeRelease, 3, 2, 1, 1, 2, 2, 0xFFFF, 0, false, 0, none, false⟩

/-- A write of LostRangeRelease passes. -/
theorem Dev.lostRangeRelease_passes (d : Dev) (v : Nat) : d.Passes lostRangeReleaseRow uChip oLostRangeRelease v where
  isRow := by decide +kernel
  present := d.present_chip
  holds := rfl
  ok := rfl
  pre := rfl
  named := by
    have hloc : lostRangeReleaseRow.loc = 0 := rfl
    rw [Dev.namedUnits, if_pos (by decide), hloc, ← List.filter_filter, chip_of_upOrder]
    simp [d.present_chip]
  notCursor := by decide

theorem Dev.applyOne_lostRangeRelease (d : Dev) (sid v : Nat) : d.applyOne sid uChip oLostRangeRelease v = d.fxLostRangeRelease v := rfl

/-- Volume `v` without its lost ranges and its versions that are known bad. -/
def Dev.rangesReleased (d : Dev) (v : Nat) : Dev :=
  let d := (d.cache.versions.filter fun x => x.vol = v ∧ x.poison).foldl (fun d x => d.freeVer x.frame) d
  d.setRestore { d.restore with lost := d.restore.lost.filter (·.vol ≠ v) }

/-- A release drops the ranges of its volume, and leaves no version of it known bad. -/
theorem Dev.rangesReleased_result (d : Dev) (v : Nat) : (d.rangesReleased v).restore.lost = d.restore.lost.filter (·.vol ≠ v) ∧
    ∀ x ∈ (d.rangesReleased v).cache.versions, x.vol = v → x.poison = false := by
  have hrestore : ∀ l : List Version, (l.foldl (fun d x => d.freeVer x.frame) d).restore = d.restore := fun l =>
    List.foldlRecOn l _ (motive := fun e : Dev => e.restore = d.restore) rfl fun _ h _ _ => h
  refine ⟨?lost, fun x hx hvol => ?clean⟩
  case lost =>
    unfold Dev.rangesReleased
    rw [Dev.setRestore_restore, hrestore]
  case clean =>
    obtain ⟨hmem, hgone⟩ := Dev.mem_freeVers.1 hx
    exact Bool.eq_false_iff.2 fun hp => hgone x (List.mem_filter.2 ⟨hmem, by simp [hvol, hp]⟩) rfl

section Release
variable {d : Dev} {v : Nat} (hs : d.supAway = false) (hc : d.writesClosed = false)
include hs hc

theorem Dev.lostRangeRelease_refused (hp : d.aon.auxUp = true) (hv : 4096 ≤ v) : d.mgrWrite uChip oLostRangeRelease v = d.refuses 3 uChip :=
  (d.lostRangeRelease_passes v).refused hs hc hp (by decide) ((d.applyOne_lostRangeRelease 0xFF v).trans (if_pos hv))

theorem Dev.lostRangeRelease_accepted (hv : v < 4096) :
    d.mgrWrite uChip oLostRangeRelease v = (d.rangesReleased v).segKick.accepts oLostRangeRelease :=
  (d.lostRangeRelease_passes v).accepted hs hc ((d.applyOne_lostRangeRelease 0xFF v).trans (if_neg (by omega)))

end Release

end Sys2Proof.Machine
end

section
open Sys2Proof Sys2Proof.Machine

/-- Settles O56: each command by the lemma of what it does. -/
theorem restoreAndKennelCommands : Obligations.RestoreAndKennelCommands := by
  unfold Obligations.RestoreAndKennelCommands
  rintro s d hp rfl
  refine ⟨fun found speed failed marginal metaOk bad readA readB => ⟨fun hv => ?elsewhere, fun hv hs hu hl hr => ?wake⟩, fun m hm => ?held,
    fun hnone => ?nothing, ⟨_, exec_configRetryLimitExpire hp, rfl⟩, fun ht => ⟨fun v hlt => ?lost, fun hbusy => ?busy, fun hq hf => ?format⟩,
    fun found => ⟨fun hf => ?idle, fun hf hi hs hv hfound => ⟨_, exec_kennelFormatComplete hp found, ?formatted⟩⟩, fun n block hn => ?block,
    fun i hi => ⟨fun h => ?ignored, fun hv hf he => ⟨_, exec_slotEraseComplete hp hi, Dev.slotErased_result hi hv hf he⟩⟩,
    fun hv hd => ⟨_, exec_scratchEraseComplete hp, Dev.scratchErased_result hv hd⟩, fun h => ?same, fun h => ?changes⟩
  case elsewhere => rw [exec_wakeComplete hp, Dev.wakeComplete_elsewhere _ _ _ _ _ _ hv]
  case wake =>
    refine ⟨fun hf hmeta hchans => ?resumes, fun hf hmeta => ?loses, fun hf => ?chooses⟩
    case resumes => rw [exec_wakeComplete hp, hmeta, Dev.wakeComplete_resumes _ _ _ _ _ _ hv hs hu hl hr hf hchans]
    case loses => rw [exec_wakeComplete hp, hmeta, Dev.wakeComplete_loses _ _ _ _ _ _ hv hs hu hl hr hf]
    case chooses => rw [exec_wakeComplete hp, Dev.wakeComplete_chooses _ _ _ _ _ _ hv hs hu hl hr hf]
  case held =>
    refine ⟨fun hv hr => ⟨_, exec_restoreReadComplete hp [], ?read⟩, fun hv hr => ?rebuilt, fun hv hr hio hperst => ?admitted, fun i ok latency hv => ?demanded,
      fun ok hv hio => ?background⟩
    case read =>
      rw [Dev.restoreRead_fetch hm hv hr]
      exact ⟨(s.dev.readIn_stage m).2, Dev.g_s_same ..⟩
    case rebuilt => rw [exec_restoreRebuildComplete hp, Dev.restoreRebuilt_ends hm hv hr]
    case admitted => rw [exec_fetchHostAdmit hp, Dev.fetchAdmit_admits hm hv hr hio hperst]
    case demanded =>
      rw [exec_restoreSegmentInstalled hp]
      refine ⟨fun hw => by rw [Dev.segInstalled_unwanted hm hv hw], fun f hw hf => ⟨_, by rw [Dev.segInstalled_wanted hm hv hw hf], Dev.g_s_same .., rfl⟩⟩
    case background =>
      rw [exec_backgroundSegmentRestored hp]
      exact ⟨fun hw => by rw [Dev.segBackground_done hm hv hio ok hw], fun i f hi hf => by rw [Dev.segBackground_next hm hv hio ok hi hf]⟩
  case nothing =>
    have himage := Dev.heldImage_of_none hnone
    refine ⟨?_, ?_, fun l => ?_, fun i ok n => ?_, fun ok => ?_⟩
    · rw [exec_restoreRebuildComplete hp, Dev.restoreRebuilt_none himage]
    · rw [exec_fetchHostAdmit hp, Dev.fetchAdmit_none himage]
    · rw [exec_restoreReadComplete hp, Dev.restoreRead_none himage]
    · rw [exec_restoreSegmentInstalled hp, Dev.segInstalled_none himage]
    · rw [exec_backgroundSegmentRestored hp, Dev.segBackground_none himage]
  case lost =>
    rw [exec_lostRangeRelease hp hlt]
    exact ⟨fun hv => by rw [Dev.lostRangeRelease_refused ht.present ht.openNow hp hv], fun hv => ⟨s.dev.rangesReleased v,
      by rw [Dev.lostRangeRelease_accepted ht.present ht.openNow hv], s.dev.rangesReleased_result v⟩⟩
  case busy =>
    have hrefused : ∀ force : Bool, exec (if force then .kennelFormatForce else .kennelFormat) s = .next (s.leaves (s.dev.refuses 4 uVault)) := fun force => by
      rw [exec_kennelFormat hp, Dev.kennelFormat_refused ht.present ht.openNow force hp (Dev.fxKennelFormat_busy force hbusy)]
    exact ⟨hrefused false, hrefused true⟩
  case format =>
    refine ⟨fun ha hk => ?_, fun ha hb hnone => ?_, fun hnone => ?_⟩
    · exact (exec_kennelFormat hp false).trans
        (by rw [Dev.kennelFormat_refused ht.present ht.openNow false hp (Dev.fxKennelFormat_sealed hq hf ha hk)])
    · exact ⟨_, exec_kennelFormat hp false, by
        rw [Dev.kennelFormat_accepted ht.present ht.openNow false (Dev.fxKennelFormat_begins hq hf (.inr ⟨ha, hb⟩))]
        exact Dev.formatBegin_accepted hp hnone _⟩
    · exact ⟨_, exec_kennelFormat hp true, by
        rw [Dev.kennelFormat_accepted ht.present ht.openNow true (Dev.fxKennelFormat_begins hq hf (.inl rfl))]
        exact Dev.formatBegin_accepted hp hnone _⟩
  case idle => rw [exec_kennelFormatComplete hp, Dev.formatComplete_idle hf]
  case formatted =>
    have h := Dev.formatComplete_formatted hf hi hs hv hfound
    exact ⟨h.valid, h.idle, h.gen, h.a, h.b, h.key, h.drill⟩
  case block =>
    refine ⟨fun h dead => ?_, fun hm hv => ⟨⟨_, exec_flashBlockFail hp hn block true, Dev.flashBlockFail_dead hm hv⟩,
      fun b hlt hnew hfree more hmore => ?_⟩⟩
    · rw [exec_flashBlockFail hp hn, Dev.flashBlockFail_ignored h]
    · obtain ⟨e, he, hremaps⟩ := Dev.flashBlockFail_remaps hlt hnew hfree hm hv hmore
      exact ⟨e, by rw [exec_flashBlockFail hp hn, he], hremaps⟩
  case ignored => rw [exec_slotEraseComplete hp hi, Dev.slotErased_ignored h]
  case same => rw [exec_slotUsabilityCheck hp, Dev.usabilityCheck_same h]
  case changes =>
    obtain ⟨f, hf, hbit⟩ := Dev.usabilityCheck_changes h
    exact ⟨f, by rw [exec_slotUsabilityCheck hp, hf], hbit⟩

end

section
/-! PROOFS. The admin queue (11_instances_and_queues.md): what each admin command answers, and what a controller does on its own. The owner `i` is the one of
the device's instances with that number. -/
namespace Sys2Proof.Machine
open Sys2Proof

/-! ### The commands, at a powered device -/

section Commands
variable {s : State} {i cid : Nat} (h : s.Powered) (hi : i < 4096) (hcid : cid < 65536)
include h hi

theorem exec_ccEnSet (cc aqa asq acq : Nat) : exec (.ccEnSet i cc aqa asq acq) s = .next (s.leaves (s.dev.ccSet i cc aqa asq acq)) :=
  act_if _ s (Dev.ccSet · i cc aqa asq acq) h (by simp [hi])

theorem exec_ccEnClear : exec (.ccEnClear i) s = .next (s.leaves (s.dev.ccClear i)) := act_if _ s (Dev.ccClear · i) h (by simp [hi])

theorem exec_keepAliveTimeout : exec (.keepAliveTimeout i) s = .next (s.leaves (s.dev.keepAliveTimeout i)) :=
  act_if _ s (Dev.keepAliveTimeout · i) h (by simp [hi])

include hcid

theorem exec_createIoSq {qid size cqid : Nat} (hqid : qid < 65536) (hsize : size < 65536) (hcq : cqid < 65536) (prp : Nat) (contig : Bool) :
    exec (.createIoSq i cid qid size prp contig cqid) s = .next (s.leaves (s.dev.createSq i cid qid size prp contig cqid)) :=
  act_if _ s (Dev.createSq · i cid qid size prp contig cqid) h (by simp [hi, hcid, hqid, hsize, hcq])

theorem exec_createIoCq {qid size : Nat} (hqid : qid < 65536) (hsize : size < 65536) (prp : Nat) (contig : Bool) (vec : Option Nat) :
    exec (.createIoCq i cid qid size prp contig vec) s = .next (s.leaves (s.dev.createCq i cid qid size prp contig vec)) :=
  act_if _ s (Dev.createCq · i cid qid size prp contig vec) h (by simp [hi, hcid, hqid, hsize])

theorem exec_deleteIoSq {qid : Nat} (hqid : qid < 65536) : exec (.deleteIoSq i cid qid) s = .next (s.leaves (s.dev.deleteSq i cid qid)) :=
  act_if _ s (Dev.deleteSq · i cid qid) h (by simp [hi, hcid, hqid])

theorem exec_deleteIoCq {qid : Nat} (hqid : qid < 65536) : exec (.deleteIoCq i cid qid) s = .next (s.leaves (s.dev.deleteCq i cid qid)) :=
  act_if _ s (Dev.deleteCq · i cid qid) h (by simp [hi, hcid, hqid])

theorem exec_getLogPage {lid : Nat} (hlid : lid < 256) (off len dst : Nat) :
    exec (.getLogPage i cid lid off len dst) s = .next (s.leaves (s.dev.getLogPage i cid lid off len dst)) :=
  act_if _ s (Dev.getLogPage · i cid lid off len dst) h (by simp [hi, hcid, hlid])

theorem exec_identify {cns : Nat} (hcns : cns < 256) (nsid dst : Nat) :
    exec (.identify i cid cns nsid dst) s = .next (s.leaves (s.dev.identify i cid cns nsid dst)) :=
  act_if _ s (Dev.identify · i cid cns nsid dst) h (by simp [hi, hcid, hcns])

theorem exec_abort {sqid tgt : Nat} (hsqid : sqid < 65536) (htgt : tgt < 65536) :
    exec (.abort i cid sqid tgt) s = .next (s.leaves (s.dev.abortCmd i cid sqid tgt)) :=
  act_if _ s (Dev.abortCmd · i cid sqid tgt) h (by simp [hi, hcid, hsqid, htgt])

theorem exec_setFeatures {f : Nat} (hf : f < 256) (v : Nat) : exec (.setFeatures i cid f v) s = .next (s.leaves (s.dev.setFeatures i cid f v)) :=
  act_if _ s (Dev.setFeatures · i cid f v) h (by simp [hi, hcid, hf])

theorem exec_getFeatures {f : Nat} (hf : f < 256) : exec (.getFeatures i cid f) s = .next (s.leaves (s.dev.getFeatures i cid f)) :=
  act_if _ s (Dev.getFeatures · i cid f) h (by simp [hi, hcid, hf])

theorem exec_asynchronousEventRequest : exec (.asynchronousEventRequest i cid) s = .next (s.leaves (s.dev.asyncRequest i cid)) :=
  act_if _ s (Dev.asyncRequest · i cid) h (by simp [hi, hcid])

theorem exec_keepAlive : exec (.keepAlive i cid) s = .next (s.leaves (s.dev.keepAlive i cid)) := act_if _ s (Dev.keepAlive · i cid) h (by simp [hi, hcid])

end Commands

/-! ### Fields of descriptors and controllers -/

theorem Dev.ctrl_setCtrl (d : Dev) (i j : Nat) (c : Ctrl) : (d.setCtrl i c).ctrl j = if j = i then c else d.ctrl j := by
  simp [Dev.ctrl, storeGet_set]

@[simp] theorem Dev.ctrl_setCtrl_same (d : Dev) (i : Nat) (c : Ctrl) : (d.setCtrl i c).ctrl i = c := by simp [Dev.ctrl_setCtrl]

@[simp] theorem Dev.q_setQ_same (d : Dev) (q : Nat) (e : BitVec 512) : (d.setQ q e).q q = e := by simp [Dev.q_setQ]

@[simp] theorem Dev.q_setCtrl (d : Dev) (i q : Nat) (c : Ctrl) : (d.setCtrl i c).q q = d.q q := rfl

@[simp] theorem Dev.qs_setQs_same (d : Dev) (q : Nat) (x : QState) : (d.setQs q x).qs q = x := by simp [Dev.qs_setQs]

@[simp] theorem Dev.q_setQf_same (d : Dev) (q off len v : Nat) : (d.setQf q off len v).q q = setEnt (d.q q) off len v := d.q_setQ_same q _

/-! ### An admin queue that is not served, or that aborts first (R148) -/

/-- A command of a queue that is not ready is aborted or left. -/
theorem exec_admin_unready {s : State} {i cid : Nat} {c : Instr} (h : s.Powered) (hi : i < 4096) (hcid : cid < 65536)
    (hc : c = .keepAlive i cid ∨ c = .asynchronousEventRequest i cid ∨ ∃ f < 256, c = .getFeatures i cid f) (hr : s.dev.adminReady i = none) :
    exec c s = .next (s.leaves (s.dev.adminAbort i cid)) := by
  rcases hc with rfl | rfl | ⟨f, hf, rfl⟩
  · rw [exec_keepAlive h hi hcid, Dev.keepAlive, hr]
  · rw [exec_asynchronousEventRequest h hi hcid, Dev.asyncRequest, hr]
  · rw [exec_getFeatures h hi hcid hf, Dev.getFeatures, hr]

theorem Dev.adminReady_of_due {d : Dev} {i : Nat} (h : (d.ctrl i).abortDue ≠ 0) : d.adminReady i = none := if_neg h

theorem Dev.adminReady_of_down {d : Dev} {i : Nat} (h : d.adminUp i = none) : d.adminReady i = none := by rw [Dev.adminReady, h, ite_self]

theorem Dev.adminAbort_down {d : Dev} {i : Nat} (h : d.adminUp i = none) (cid : Nat) : d.adminAbort i cid = d := by rw [Dev.adminAbort, h]

theorem Dev.adminAbort_due {d : Dev} {i q : Nat} (h : d.adminUp i = some q) (hdue : (d.ctrl i).abortDue ≠ 0) (cid : Nat) :
    d.adminAbort i cid = (d.setCtrl i { d.ctrl i with abortDue := (d.ctrl i).abortDue - 1 }).nvmeDone q cid scPowerLoss 0 := by
  rw [Dev.adminAbort, h]
  exact if_neg hdue

/-! ### What the commands leave -/

/-- An identifier in range that no pair has is taken by neither half of a pair. -/
theorem Dev.queueId_free {d : Dev} {i qid : Nat} (h0 : 0 < qid) (h511 : qid ≤ 511) (hq : d.hostQ i qid = none) : ¬ (qid = 0 ∨ 511 < qid ∨ d.sqExists i qid = true) ∧
    ¬ (qid = 0 ∨ 511 < qid ∨ d.cqExists i qid = true) := by
  rw [Dev.sqExists, Dev.cqExists, hq]
  simp only [Bool.false_eq_true, or_false]
  omega

/-- Pair `q` with a submission queue of `size + 1` entries at `prp`, which completes on `cqid`. -/
def Dev.sqMade (d : Dev) (q size prp cqid : Nat) : Dev :=
  (d.setQ q (setEnt (setEnt (d.q q) 8 8 prp) 0x18 4 (size + 1))).setQs q { d.qs q with sqHead := 0, sqTail := 0, cq := cqid }

/-- Pair `q` with a completion queue of `size + 1` entries at `prp`, with its vector. -/
def Dev.cqMade (d : Dev) (q size prp : Nat) (vec : Option Nat) : Dev :=
  (d.setQ q (setEnt (setEnt (setEnt (d.q q) 0x10 8 prp) 0x1C 4 (size + 1)) 0x22 2 (vec.getD 0xFFFF))).setQs q
    { d.qs q with cqTail := 0, cqHead := 0, phase := true }

theorem Dev.sqMade_queue (d : Dev) (q prp cqid : Nat) {size : Nat} (hsize : size < 65536) : qSqEntries ((d.sqMade q size prp cqid).q q) = size + 1 ∧
    ((d.sqMade q size prp cqid).qs q).cq = cqid ∧ ((d.sqMade q size prp cqid).qs q).sqHead = 0 ∧ ((d.sqMade q size prp cqid).qs q).sqTail = 0 := by
  have hentries : qSqEntries ((d.sqMade q size prp cqid).q q) = (size + 1) % 256 ^ 4 := by
    rw [Dev.sqMade, Dev.q_setQs, Dev.q_setQ_same]
    exact ent_setEnt_same _ 0x18 4 _ (by decide)
  rw [hentries, Dev.sqMade, Dev.qs_setQs_same]
  exact ⟨Nat.mod_eq_of_lt (by omega), rfl, rfl, rfl⟩

theorem Dev.cqMade_queue (d : Dev) (q prp : Nat) (vec : Option Nat) {size : Nat} (hsize : size < 65536) : qCqEntries ((d.cqMade q size prp vec).q q) = size + 1 ∧
    ((d.cqMade q size prp vec).qs q).phase = true := by
  have hentries : qCqEntries ((d.cqMade q size prp vec).q q) = (size + 1) % 256 ^ 4 := by
    rw [Dev.cqMade, Dev.q_setQs, Dev.q_setQ_same, qCqEntries, ent_setEnt_ne _ _ (by decide)]
    exact ent_setEnt_same _ 0x1C 4 _ (by decide)
  rw [hentries, Dev.cqMade, Dev.qs_setQs_same]
  exact ⟨Nat.mod_eq_of_lt (by omega), rfl⟩

/-- Pair `q` without its submission queue, whose commands are aborted. -/
def Dev.sqGone (d : Dev) (q : Nat) : Dev := ((d.abortQueue q 0x008).setQf q 0x18 4 0).setQf q 8 8 0

/-- Pair `q` without its completion queue. -/
def Dev.cqGone (d : Dev) (q : Nat) : Dev := ((d.setQf q 0x1C 4 0).setQf q 0x10 8 0).setQf q 0x22 2 0xFFFF

theorem Dev.sqGone_entries (d : Dev) (q : Nat) : qSqEntries ((d.sqGone q).q q) = 0 := by
  rw [Dev.sqGone, Dev.q_setQf_same, qSqEntries, ent_setEnt_ne _ _ (by decide), Dev.q_setQf_same]
  exact ent_setEnt_same _ 0x18 4 0 (by decide)

theorem Dev.cqGone_entries (d : Dev) (q : Nat) : qCqEntries ((d.cqGone q).q q) = 0 := by
  rw [Dev.cqGone, Dev.q_setQf_same, qCqEntries, ent_setEnt_ne _ _ (by decide), Dev.q_setQf_same, ent_setEnt_ne _ _ (by decide), Dev.q_setQf_same]
  exact ent_setEnt_same _ 0x1C 4 0 (by decide)

/-- Every page but those of Table 11.4 is none. -/
theorem Dev.logPage_none (d : Dev) {lid : Nat} (h : lid ∉ [0x01, 0x02, 0x04, 0x05, 0xC0]) (i k : Nat) : d.logPage i lid k = none := by
  unfold Dev.logPage
  split
  case h_6 => rfl
  all_goals exact absurd (by decide) h

theorem Dev.logPage_fresh (d : Dev) (i lid k n : Nat) : ({ d with free := n } : Dev).logPage i lid k = d.logPage i lid k := rfl

/-- Owner `i` with feature `f` stored as `v`. -/
def Dev.withFeature (d : Dev) (i f v : Nat) : Dev :=
  d.setCtrl i { d.ctrl i with features := storeSet (fun _ => 0) (d.ctrl i).features f (v % 2 ^ 32), kaTick := if f = 0x0F then d.now else (d.ctrl i).kaTick }

theorem Dev.feature_withFeature (d : Dev) (i f : Nat) {v : Nat} (hv : v < 2 ^ 32) : (d.withFeature i f v).feature i f = v := by
  rw [Dev.feature, Dev.withFeature, Dev.ctrl_setCtrl_same, storeGet_set_same, Nat.mod_eq_of_lt hv]

section Ready
variable {d : Dev} {i a : Nat} (ha : d.adminReady i = some a) (cid : Nat)
include ha

/-! ### Queues are created (R261) -/

section Create
variable {qid : Nat}

theorem Dev.createSq_bad_id (h : qid = 0 ∨ 511 < qid) (size prp : Nat) (contig : Bool) (cqid : Nat) :
    d.createSq i cid qid size prp contig cqid = d.nvmeDone a cid scQueueId 0 := by
  rw [Dev.createSq, ha]
  exact if_pos (h.imp_right .inl)

theorem Dev.createCq_bad_id (h : qid = 0 ∨ 511 < qid) (size prp : Nat) (contig : Bool) (vec : Option Nat) :
    d.createCq i cid qid size prp contig vec = d.nvmeDone a cid scQueueId 0 := by
  rw [Dev.createCq, ha]
  exact if_pos (h.imp_right .inl)

variable {size : Nat} (h0 : 0 < qid) (h511 : qid ≤ 511) (hq : d.hostQ i qid = none)
include h0 h511 hq

theorem Dev.createSq_bad_size (prp : Nat) (contig : Bool) (cqid : Nat) :
    d.createSq i cid qid 0 prp contig cqid = d.nvmeDone a cid scQueueSize 0 := by
  rw [Dev.createSq, ha]
  exact (if_neg (Dev.queueId_free h0 h511 hq).1).trans (if_pos (.inl rfl))

theorem Dev.createCq_bad_size (prp : Nat) (contig : Bool) (vec : Option Nat) :
    d.createCq i cid qid 0 prp contig vec = d.nvmeDone a cid scQueueSize 0 := by
  rw [Dev.createCq, ha]
  exact (if_neg (Dev.queueId_free h0 h511 hq).2).trans (if_pos (.inl rfl))

variable (hpos : 0 < size) (hsize : size < 65536)
include hpos hsize

theorem Dev.createSq_scattered (prp cqid : Nat) : d.createSq i cid qid size prp false cqid = d.nvmeDone a cid scField 0 := by
  rw [Dev.createSq, ha]
  exact (if_neg (Dev.queueId_free h0 h511 hq).1).trans ((if_neg (by omega)).trans (if_pos Bool.false_ne_true))

theorem Dev.createSq_no_cq {cqid : Nat} (hcq : d.cqExists i cqid = false) (prp : Nat) :
    d.createSq i cid qid size prp true cqid = d.nvmeDone a cid scCqInvalid 0 := by
  rw [Dev.createSq, ha]
  exact (if_neg (Dev.queueId_free h0 h511 hq).1).trans ((if_neg (by omega)).trans ((if_neg (by simp)).trans (if_pos (.inr (by simp [hcq])))))

/-- A submission queue on a completion queue that exists is made in the pair it takes. -/
theorem Dev.createSq_ok {cqid q : Nat} {e : Dev} (hcq0 : cqid ≠ 0) (hcq : d.cqExists i cqid = true) (ht : d.takePair i qid = .ok (q, e)) (prp : Nat) :
    d.createSq i cid qid size prp true cqid = (e.sqMade q size prp cqid).nvmeDone a cid scSuccess 0 := by
  rw [Dev.createSq, ha]
  refine (if_neg (Dev.queueId_free h0 h511 hq).1).trans ((if_neg (by omega)).trans ((if_neg (by simp)).trans ((if_neg (by simp [hcq0, hcq])).trans ?_)))
  rw [ht]
  rfl

theorem Dev.createCq_bad_vector {v : Nat} (hv : ent (d.inst i) 0x1A 2 ≤ v) (prp : Nat) :
    d.createCq i cid qid size prp true (some v) = d.nvmeDone a cid 0x108 0 := by
  rw [Dev.createCq, ha]
  exact (if_neg (Dev.queueId_free h0 h511 hq).2).trans ((if_neg (by omega)).trans ((if_neg (by simp)).trans (if_pos (by simpa using hv))))

/-- A completion queue whose vector the owner has is made in the pair it takes. -/
theorem Dev.createCq_ok {vec : Option Nat} {q : Nat} {e : Dev} (hv : ∀ v, vec = some v → v < ent (d.inst i) 0x1A 2) (ht : d.takePair i qid = .ok (q, e))
    (prp : Nat) : d.createCq i cid qid size prp true vec = (e.cqMade q size prp vec).nvmeDone a cid scSuccess 0 := by
  have hvec : ¬ (vec.any fun v => decide (ent (d.inst i) 0x1A 2 ≤ v)) = true := by
    cases vec with
    | none => exact Bool.false_ne_true
    | some v => simpa using hv v rfl
  rw [Dev.createCq, ha]
  refine (if_neg (Dev.queueId_free h0 h511 hq).2).trans ((if_neg (by omega)).trans ((if_neg (by simp)).trans ((if_neg hvec).trans ?_)))
  rw [ht]
  rfl

end Create

/-! ### Queues are deleted (R261) -/

section Delete
variable {qid : Nat}

theorem Dev.deleteSq_none (h : qid = 0 ∨ d.hostQ i qid = none) : d.deleteSq i cid qid = d.nvmeDone a cid scQueueId 0 := by
  have hnone : (if qid = 0 then none else d.hostQ i qid) = none := ite_eq_left_iff.2 h.resolve_left
  rw [Dev.deleteSq, ha]
  simp only [hnone]

theorem Dev.deleteCq_none (h : qid = 0 ∨ d.hostQ i qid = none) : d.deleteCq i cid qid = d.nvmeDone a cid scQueueId 0 := by
  have hnone : (if qid = 0 then none else d.hostQ i qid) = none := ite_eq_left_iff.2 h.resolve_left
  rw [Dev.deleteCq, ha]
  simp only [hnone]

variable (h0 : qid ≠ 0) {q : Nat} (hq : d.hostQ i qid = some q)
include h0 hq

theorem Dev.deleteSq_some (hs : qSqEntries (d.q q) ≠ 0) : d.deleteSq i cid qid = ((d.sqGone q).pairCheck i q).nvmeDone a cid scSuccess 0 := by
  rw [Dev.deleteSq, ha]
  simp only [if_neg h0, hq, if_neg hs]
  rfl

variable (hs : qCqEntries (d.q q) ≠ 0)
include hs

/-- A completion queue that a submission queue completes on stays. -/
theorem Dev.deleteCq_used {p : Nat} (hp : p ∈ d.queuesOf i) (hkind : qKind (d.q p) = 1) (hslot : qSlot (d.q p) ≠ 0) (hsq : qSqEntries (d.q p) ≠ 0)
    (hcq : (d.qs p).cq = qid) : d.deleteCq i cid qid = d.nvmeDone a cid scQueueDelete 0 := by
  rw [Dev.deleteCq, ha]
  simp only [if_neg h0, hq, if_neg hs]
  exact if_pos (List.any_eq_true.2 ⟨p, hp, decide_eq_true ⟨hkind, hslot, hsq, hcq⟩⟩)

theorem Dev.deleteCq_unused (hfree : ∀ p ∈ d.queuesOf i, (d.qs p).cq ≠ qid) :
    d.deleteCq i cid qid = ((d.cqGone q).pairCheck i q).nvmeDone a cid scSuccess 0 := by
  rw [Dev.deleteCq, ha]
  simp only [if_neg h0, hq, if_neg hs]
  refine (if_neg fun hany => ?_).trans rfl
  obtain ⟨p, hp, huse⟩ := List.any_eq_true.1 hany
  exact hfree p hp (of_decide_eq_true huse).2.2.2

end Delete

/-! ### Log pages and Identify (R151, R260) -/

theorem Dev.getLogPage_none {lid : Nat} (h : lid ∉ [0x01, 0x02, 0x04, 0x05, 0xC0]) (off len dst : Nat) :
    d.getLogPage i cid lid off len dst = { d with free := d.free + 1 }.nvmeDone a cid scLogPage 0 := by
  rw [Dev.getLogPage, ha]
  simp only [Dev.fresh, Dev.logPage_none _ h]

/-- A page goes to the host; that of changed namespaces is cleared. -/
theorem Dev.getLogPage_some {lid off : Nat} {l : List Byte} (hl : d.logPage i lid d.free = some l) (hoff : off ≤ l.length) (len dst : Nat) {e : Dev}
    (he : e = { d with free := d.free + 1 }.hostData i dst ((l.drop off ++ List.replicate len 0).take len)) :
    d.getLogPage i cid lid off len dst = (if lid = 4 then e.setCtrl i { e.ctrl i with changedNs := [] } else e).nvmeDone a cid scSuccess 0 := by
  rw [Dev.getLogPage, ha]
  simp only [Dev.fresh, Dev.logPage_fresh, hl, if_neg (Nat.not_lt.2 hoff), he]

section Identify
variable (nsid dst : Nat)

theorem Dev.identify_ctrl : d.identify i cid 1 nsid dst =
    ({ d with free := d.free + 1 }.hostData i dst (d.identCtrl d.free)).nvmeDone a cid scSuccess 0 := by
  rw [Dev.identify, ha]
  rfl

theorem Dev.identify_list : d.identify i cid 2 nsid dst =
    ({ d with free := d.free + 1 }.hostData i dst (d.identList i nsid)).nvmeDone a cid scSuccess 0 := by
  rw [Dev.identify, ha]
  rfl

theorem Dev.identify_other : d.identify i cid 3 nsid dst = { d with free := d.free + 1 }.nvmeDone a cid scField 0 := by
  rw [Dev.identify, ha]
  rfl

theorem Dev.identify_ns {nsid : Nat} {n : BitVec 128} (hn : d.nsFind i nsid = some n) : d.identify i cid 0 nsid dst =
    ({ d with free := d.free + 1 }.hostData i dst (d.identNs n d.free)).nvmeDone a cid scSuccess 0 := by
  have hfind : ({ d with free := d.free + 1 } : Dev).nsFind i nsid = some n := hn
  rw [Dev.identify, ha]
  simp only [Dev.fresh, hfind]
  rfl

theorem Dev.identify_no_ns {nsid : Nat} (hid : nsid = 0 ∨ 1024 < nsid) (hn : d.nsFind i nsid = none) :
    d.identify i cid 0 nsid dst = { d with free := d.free + 1 }.nvmeDone a cid scNamespace 0 := by
  have hfind : ({ d with free := d.free + 1 } : Dev).nsFind i nsid = none := hn
  rw [Dev.identify, ha]
  simp only [Dev.fresh, hfind, if_pos hid]

end Identify

/-! ### Abort, features, events and the keep-alive timer (R260) -/

theorem Dev.abortCmd_no_queue {sqid : Nat} (hq : d.hostQ i sqid = none) (tgt : Nat) : d.abortCmd i cid sqid tgt = d.nvmeDone a cid scSuccess 1 := by
  rw [Dev.abortCmd, ha]
  simp only [hq]

/-- The one read that is outstanding is aborted. -/
theorem Dev.abortCmd_read {sqid q : Nat} {c : HostCmd} (hq : d.hostQ i sqid = some q) (hc : d.insts.cmds = [c]) (horg : c.org = 0) (href : c.ref = q) :
    d.abortCmd i cid sqid c.cid = (d.readAck c 0x007 0).nvmeDone a cid scSuccess 0 := by
  have hfind : d.insts.cmds.find? (fun x => decide (x.org = 0 ∧ x.ref = q ∧ x.cid = c.cid)) = some c := by
    rw [hc, List.find?_cons_of_pos (by simp [horg, href])]
  rw [Dev.abortCmd, ha]
  simp only [hq, hfind]

section Features
variable {f : Nat}

theorem Dev.setFeatures_unknown (hf : featureOk f = false) (v : Nat) : d.setFeatures i cid f v = d.nvmeDone a cid scField 0 := by
  rw [Dev.setFeatures, ha]
  exact if_pos (by simp [hf])

theorem Dev.getFeatures_unknown (hf : featureOk f = false) : d.getFeatures i cid f = d.nvmeDone a cid scField 0 := by
  rw [Dev.getFeatures, ha]
  exact if_pos (by simp [hf])

theorem Dev.setFeatures_queues (v : Nat) : d.setFeatures i cid 7 v = d.nvmeDone a cid scSuccess (d.numQueues i) := by
  rw [Dev.setFeatures, ha]
  rfl

variable (hf : featureOk f = true) (h7 : f ≠ 7)
include hf h7

theorem Dev.setFeatures_stored (v : Nat) : d.setFeatures i cid f v = (d.withFeature i f v).nvmeDone a cid scSuccess 0 := by
  rw [Dev.setFeatures, ha]
  exact (if_neg (by simp [hf])).trans (if_neg h7)

theorem Dev.getFeatures_stored : d.getFeatures i cid f = d.nvmeDone a cid scSuccess (d.feature i f) := by
  rw [Dev.getFeatures, ha]
  simp only [hf, h7, not_true_eq_false, if_false]

end Features

/-- With no event waiting, a request for one is held. -/
theorem Dev.asyncRequest_held (he : (d.ctrl i).events = []) : d.asyncRequest i cid = d.setCtrl i { d.ctrl i with aers := (d.ctrl i).aers ++ [cid] } := by
  rw [Dev.asyncRequest, ha]
  simp only [he]

/-- A waiting event completes the request. -/
theorem Dev.asyncRequest_event {t w : Nat} {r : List (Nat × Nat)} (he : (d.ctrl i).events = (t, w) :: r) :
    d.asyncRequest i cid = (d.setCtrl i { d.ctrl i with events := r }).nvmeDone a cid scSuccess w := by
  rw [Dev.asyncRequest, ha]
  simp only [he]

theorem Dev.keepAlive_restarts : d.keepAlive i cid = (d.setCtrl i { d.ctrl i with kaTick := d.now }).nvmeDone a cid scSuccess 0 := by
  rw [Dev.keepAlive, ha]

end Ready

/-! ### The controller is enabled, is disabled, and times out (R149, R260, R262) -/

/-- The admin queue pair of AQA, ASQ and ACQ. -/
def adminEntry (q i aqa asq acq : Nat) : BitVec 512 :=
  setEnt (setEnt (setEnt (setEnt (setEnt (setEnt (setEnt (setEnt (queueDefault q) 2 1 1) 3 1 1) 4 2 i) 8 8 asq) 0x10 8 acq) 0x18 4 (aqa % 4096 + 1)) 0x1C 4
    (aqa / 65536 % 4096 + 1)) 0x26 2 0xFFFF

/-- The admin queue of AQA is LIVE, with its two sizes. -/
theorem adminEntry_live (q i aqa asq acq : Nat) : qState (adminEntry q i aqa asq acq) = 1 ∧ qSqEntries (adminEntry q i aqa asq acq) = aqa % 4096 + 1 ∧
    qCqEntries (adminEntry q i aqa asq acq) = aqa / 65536 % 4096 + 1 := by
  simp only [qState, qSqEntries, qCqEntries, adminEntry]
  refine ⟨?_, ?_, ?_⟩ <;> simp (disch := omega) only [ent_setEnt_ne, ent_setEnt_same, Nat.mod_eq_of_lt]

/-- The controller of owner `i`, enabled with the admin queue pair `q`. -/
def Dev.enabled (d : Dev) (i q cc aqa asq acq : Nat) : Dev :=
  ((d.setQ q (adminEntry q i aqa asq acq)).setQs q {}).setCtrl i
    { d.ctrl i with cc := cc % 2 ^ 32, csts := 0, aqa := aqa % 2 ^ 32, asq := asq % 2 ^ 64, acq := acq % 2 ^ 64, kaTick := d.now }

theorem Dev.ccSet_enables {d : Dev} {i cc q : Nat} (hsup : d.sup = 2) (hst : d.instState i = 1) (hrun : (d.irun i).step = 0) (hoff : bit (d.ctrl i).cc 0 = false)
    (hon : bit cc 0 = true) (hq : d.adminQueue i = some q) (aqa asq acq : Nat) :
    d.ccSet i cc aqa asq acq = (((d.enabled i q cc aqa asq acq).recount i).readyCtrl i).outageEvent i := by
  rw [Dev.ccSet, if_neg (by simp [hsup, hst, hrun, hoff, hon])]
  simp only [hq]
  rfl

theorem Dev.enabled_result (d : Dev) (i q : Nat) {cc : Nat} (hon : bit cc 0 = true) (aqa asq acq : Nat) :
    bit ((d.enabled i q cc aqa asq acq).ctrl i).cc 0 = true ∧ ((d.enabled i q cc aqa asq acq).ctrl i).csts = 0 ∧
      (d.enabled i q cc aqa asq acq).q q = adminEntry q i aqa asq acq := by
  refine ⟨?_, ?_, by rw [Dev.enabled, Dev.q_setCtrl, Dev.q_setQs, Dev.q_setQ_same]⟩
  · rw [Dev.enabled, Dev.ctrl_setCtrl_same, bit, Nat.testBit_mod_two_pow]
    exact hon
  · rw [Dev.enabled, Dev.ctrl_setCtrl_same]

section Clear
variable {d : Dev} {i : Nat}

theorem Dev.ccClear_resets (hst : d.instState i = 1) (hv : d.inVault = false) (hon : bit (d.ctrl i).cc 0 = true) : d.ccClear i = d.instReset i false :=
  if_pos ⟨hon, hst, by simp [hv]⟩

theorem Dev.ccClear_disabled (hoff : bit (d.ctrl i).cc 0 = false) : d.ccClear i = d := if_neg (by simp [hoff])

/-- A controller that is due stops with CSTS.CFS. -/
theorem Dev.keepAliveTimeout_stops (hrdy : bit (d.ctrl i).csts 0 = true) (hcfs : bit (d.ctrl i).csts 1 = false) (hka : d.feature i 0x0F ≠ 0)
    (hdue : (d.ctrl i).kaTick + d.feature i 0x0F * 1000 ≤ d.now) : bit ((d.keepAliveTimeout i).ctrl i).csts 1 = true := by
  rw [Dev.keepAliveTimeout, if_pos ⟨hrdy, by simp [hcfs], hka, hdue⟩, Dev.ctrl_setCtrl_same]
  exact testBit_setBit_same _ 1 true

end Clear

end Sys2Proof.Machine
end

section
open Sys2Proof Sys2Proof.Machine

/-- Settles O45: each admin command by the lemma of what it answers. -/
theorem adminCommandsComplete : Obligations.AdminCommandsComplete := by
  unfold Obligations.AdminCommandsComplete
  rintro s d i cid hp rfl hi hcid
  refine ⟨fun c hc => ⟨fun hdown => ?unserved, fun q hup hdue => ?aborted⟩, fun a ha => ⟨fun qid size prp cqid contig vec hqid hsize hcq => ?create,
    fun qid hqid => ?delete, fun lid off len dst hlid => ?log, fun nsid dst => ?identify, fun sqid hsqid tgt htgt => ?abort, fun f hf v hv => ?features,
    fun he => ?held, fun t w r he => ?event, ?alive⟩, fun cc aqa asq acq q hsup hst hrun hoff hon hq => ?enable, fun hst hv => ?clear,
    fun hrdy hcfs hka hdue => ⟨_, exec_keepAliveTimeout hp hi, Dev.keepAliveTimeout_stops hrdy hcfs hka hdue⟩⟩
  case unserved => rw [exec_admin_unready hp hi hcid hc (Dev.adminReady_of_down hdown), Dev.adminAbort_down hdown]
  case aborted => rw [exec_admin_unready hp hi hcid hc (Dev.adminReady_of_due hdue), Dev.adminAbort_due hup hdue]
  case create =>
    rw [exec_createIoSq hp hi hcid hqid hsize hcq, exec_createIoCq hp hi hcid hqid hsize]
    refine ⟨fun hbad => ?_, fun h0 h511 hfree => ⟨?_, ?_, ?_, ?_, ?_, ?_⟩⟩
    · rw [Dev.createSq_bad_id ha cid hbad, Dev.createCq_bad_id ha cid hbad]
      exact ⟨rfl, rfl⟩
    · rintro rfl
      rw [Dev.createSq_bad_size ha cid h0 h511 hfree]
    · rintro hpos rfl
      rw [Dev.createSq_scattered ha cid h0 h511 hfree hpos hsize]
    · rintro hpos rfl hno
      rw [Dev.createSq_no_cq ha cid h0 h511 hfree hpos hsize hno]
    · rintro hpos rfl hcq0 hex q e ht
      exact ⟨e.sqMade q size prp cqid, by rw [Dev.createSq_ok ha cid h0 h511 hfree hpos hsize hcq0 hex ht], e.sqMade_queue q prp cqid hsize⟩
    · rintro v hpos rfl rfl hv
      rw [Dev.createCq_bad_vector ha cid h0 h511 hfree hpos hsize hv]
    · rintro hpos rfl hv q e ht
      exact ⟨e.cqMade q size prp vec, by rw [Dev.createCq_ok ha cid h0 h511 hfree hpos hsize hv ht], e.cqMade_queue q prp vec hsize⟩
  case delete =>
    rw [exec_deleteIoSq hp hi hcid hqid, exec_deleteIoCq hp hi hcid hqid]
    refine ⟨fun hno => ?_, fun q h0 hq hs => ⟨s.dev.sqGone q, s.dev.sqGone_entries q, ?_⟩, fun q h0 hq hs => ⟨fun p hpq hk hsl hsq hc => ?_,
      fun hfree => ⟨s.dev.cqGone q, s.dev.cqGone_entries q, ?_⟩⟩⟩
    · rw [Dev.deleteSq_none ha cid hno, Dev.deleteCq_none ha cid hno]
      exact ⟨rfl, rfl⟩
    · rw [Dev.deleteSq_some ha cid h0 hq hs]
    · rw [Dev.deleteCq_used ha cid h0 hq hs hpq hk hsl hsq hc]
    · rw [Dev.deleteCq_unused ha cid h0 hq hs hfree]
  case log =>
    rw [exec_getLogPage hp hi hcid hlid]
    refine ⟨fun hno => by rw [Dev.getLogPage_none ha cid hno], fun l e hl hoff he => ?_⟩
    rw [Dev.getLogPage_some ha cid hl hoff len dst he]
    exact ⟨fun h4 => by rw [if_neg h4], fun h4 => by rw [if_pos h4]⟩
  case identify =>
    refine ⟨?_, fun n hn => ?_, fun hid hn => ?_, ?_, ?_⟩ <;> rw [exec_identify hp hi hcid (by decide)]
    · rw [Dev.identify_ctrl ha cid]
    · rw [Dev.identify_ns ha cid dst hn]
    · rw [Dev.identify_no_ns ha cid dst hid hn]
    · rw [Dev.identify_list ha cid]
    · rw [Dev.identify_other ha cid]
  case abort =>
    rw [exec_abort hp hi hcid hsqid htgt]
    refine ⟨fun hq => by rw [Dev.abortCmd_no_queue ha cid hq], ?_⟩
    rintro q c hq hcmds horg href rfl
    rw [Dev.abortCmd_read ha cid hq hcmds horg href]
  case features =>
    rw [exec_setFeatures hp hi hcid hf, exec_getFeatures hp hi hcid hf]
    refine ⟨fun hno => ?_, fun hok h7 => ⟨⟨s.dev.withFeature i f v, ?_, s.dev.feature_withFeature i f hv⟩, ?_⟩, ?_⟩
    · rw [Dev.setFeatures_unknown ha cid hno, Dev.getFeatures_unknown ha cid hno]
      exact ⟨rfl, rfl⟩
    · rw [Dev.setFeatures_stored ha cid hok h7]
    · rw [Dev.getFeatures_stored ha cid hok h7]
    · rintro rfl
      rw [Dev.setFeatures_queues ha cid]
  case held =>
    exact ⟨s.dev.setCtrl i { s.dev.ctrl i with aers := (s.dev.ctrl i).aers ++ [cid] },
      by rw [exec_asynchronousEventRequest hp hi hcid, Dev.asyncRequest_held ha cid he], congrArg Ctrl.aers (Dev.ctrl_setCtrl_same ..)⟩
  case event =>
    exact ⟨s.dev.setCtrl i { s.dev.ctrl i with events := r }, by rw [exec_asynchronousEventRequest hp hi hcid, Dev.asyncRequest_event ha cid he],
      by rw [Dev.ctrl_setCtrl_same]⟩
  case alive =>
    exact ⟨s.dev.setCtrl i { s.dev.ctrl i with kaTick := s.dev.now }, by rw [exec_keepAlive hp hi hcid, Dev.keepAlive_restarts ha cid],
      by rw [Dev.ctrl_setCtrl_same]⟩
  case enable =>
    obtain ⟨hcc, hcsts, hentry⟩ := s.dev.enabled_result i q hon aqa asq acq
    refine ⟨s.dev.enabled i q cc aqa asq acq, by rw [exec_ccEnSet hp hi, Dev.ccSet_enables hsup hst hrun hoff hon hq], hcc, hcsts, ?_⟩
    rw [hentry]
    exact adminEntry_live q i aqa asq acq
  case clear =>
    rw [exec_ccEnClear hp hi]
    exact ⟨fun hon => by rw [Dev.ccClear_resets hst hv hon], fun hoff => by rw [Dev.ccClear_disabled hoff]⟩

end

section
/-! PROOFS. Instances and the host link (R140, R149, R253, R254, R258, R272, R274, R415). The owner `i` is the one of the device's instances with that number. -/
namespace Sys2Proof.Machine
open Sys2Proof

/-! ### The commands, at a powered device -/

section Commands
variable {s : State} {i : Nat} (h : s.Powered)
include h

theorem exec_instanceCreate (hi : i < 65536) :
    exec (.instanceCreate i) s = .next (s.leaves (s.dev.mgrWrite uChip oInstanceCommand (i + 0x10000))) :=
  act_if _ s (Dev.mgrWrite · uChip oInstanceCommand (i + 0x10000)) h (by simpa using hi)

theorem exec_instanceReset (hi : i < 65536) :
    exec (.instanceReset i) s = .next (s.leaves (s.dev.mgrWrite uChip oInstanceCommand (i + 0x20000))) :=
  act_if _ s (Dev.mgrWrite · uChip oInstanceCommand (i + 0x20000)) h (by simpa using hi)

theorem exec_instanceRemove (hi : i < 65536) :
    exec (.instanceRemove i) s = .next (s.leaves (s.dev.mgrWrite uChip oInstanceCommand (i + 0x30000))) :=
  act_if _ s (Dev.mgrWrite · uChip oInstanceCommand (i + 0x30000)) h (by simpa using hi)

theorem exec_fenceWaitEnd (hi : i < 4096) : exec (.fenceWaitEnd i) s = .next (s.leaves (s.dev.fenceWaitEnd i)) :=
  act_if _ s (Dev.fenceWaitEnd · i) h (by simpa using hi)

theorem exec_instanceHaltComplete (hi : i < 4096) (n : Nat) : exec (.instanceHaltComplete i n) s = .next (s.leaves (s.dev.instHalt i n)) :=
  act_if _ s (Dev.instHalt · i n) h (by simpa using hi)

theorem exec_instanceDrainEnd (hi : i < 4096) (k : Nat) : exec (.instanceDrainEnd i k) s = .next (s.leaves (s.dev.instDrain i k)) :=
  act_if _ s (Dev.instDrain · i k) h (by simpa using hi)

theorem exec_hostCompletionTimeout (hi : i < 4096) : exec (.hostCompletionTimeout i) s = .next (s.leaves (s.dev.hostTimeout i)) :=
  act_if _ s (Dev.hostTimeout · i) h (by simpa using hi)

theorem exec_flr : exec .flr s = .next (s.leaves s.dev.functionReset.resetInsts) := act_on s Dev.flr h

theorem exec_busMasterEnableSet : exec .busMasterEnableSet s = .next (s.leaves s.dev.hostEnables) := act_on s Dev.hostEnables h

theorem exec_hostLinkTrained {gen width : Nat} (hg : gen < 256) (hw : width < 256) :
    exec (.hostLinkTrained gen width) s = .next (s.leaves (s.dev.hostTrained gen width)) :=
  act_if _ s (Dev.hostTrained · gen width) h (by simp [hg, hw])

theorem exec_perstNRelease : exec .perstNRelease s = .next (s.leaves s.dev.perstRelease) := act_on s Dev.perstRelease h

end Commands

/-! ### A write of InstanceCommand (R258) -/

/-- The row of InstanceCommand. -/
def instanceCommandRow : ObjRow := ⟨oInstanceCommand, 10, 4, 1, 1, 2, 2, 0, 0, false, 0, none, false⟩

/-- A write of InstanceCommand passes. -/
theorem Dev.instanceCommand_passes (d : Dev) (v : Nat) : d.Passes instanceCommandRow uChip oInstanceCommand v where
  isRow := by decide +kernel
  present := d.present_chip
  holds := rfl
  ok := rfl
  pre := rfl
  named := by
    have hloc : instanceCommandRow.loc = 0 := rfl
    rw [Dev.namedUnits, if_pos (by decide), hloc, ← List.filter_filter, chip_of_upOrder]
    simp [d.present_chip]
  notCursor := by decide

theorem Dev.applyOne_instanceCommand (d : Dev) (sid v : Nat) : d.applyOne sid uChip oInstanceCommand v = d.fxInstanceCommand v := rfl

/-- The parts of a command value: the owner, the act, and no more. -/
theorem instanceCommand_fields {i act : Nat} (hi : i < 65536) (hact : act < 256) : fieldOf (i + act * 0x10000) 0 2 = i ∧
    byteOf (i + act * 0x10000) 2 = act ∧ byteOf (i + act * 0x10000) 3 = 0 := by
  simp only [fieldOf, byteOf]
  omega

section InstanceCommand
variable {d : Dev} {i : Nat}

/-- An owner number above 4,095 is out of range. -/
theorem Dev.fxInstanceCommand_range (hi : 4095 < i) (hi' : i < 65536) {act : Nat} (hact : act < 256) :
    d.fxInstanceCommand (i + act * 0x10000) = badValue d uChip := by
  obtain ⟨hinst, -, -⟩ := instanceCommand_fields hi' hact
  rw [Dev.fxInstanceCommand, hinst]
  exact if_pos (.inl hi)

variable (hi : i ≤ 4095)
include hi

theorem Dev.fxInstanceCommand_create : d.fxInstanceCommand (i + 1 * 0x10000) =
    if d.instState i ≠ 0 ∨ d.hasDirty i = true then conflict d uChip else okR ((d.setInst i 2 1 1).recount i) := by
  obtain ⟨hinst, hact, hrest⟩ := instanceCommand_fields (i := i) (act := 1) (by omega) (by decide)
  rw [Dev.fxInstanceCommand, hinst, hact, hrest]
  exact if_neg (by omega)

theorem Dev.fxInstanceCommand_reset : d.fxInstanceCommand (i + 2 * 0x10000) =
    if d.instState i = 0 then conflict d uChip else okR (d.instReset i false) := by
  obtain ⟨hinst, hact, hrest⟩ := instanceCommand_fields (i := i) (act := 2) (by omega) (by decide)
  rw [Dev.fxInstanceCommand, hinst, hact, hrest]
  refine (if_neg (by omega)).trans ((if_neg (by decide)).trans ?_)
  simp

theorem Dev.fxInstanceCommand_remove : d.fxInstanceCommand (i + 3 * 0x10000) =
    if d.instState i = 0 ∨ i = 0 then conflict d uChip else okR (d.instReset i true) := by
  obtain ⟨hinst, hact, hrest⟩ := instanceCommand_fields (i := i) (act := 3) (by omega) (by decide)
  rw [Dev.fxInstanceCommand, hinst, hact, hrest]
  refine (if_neg (by omega)).trans ((if_neg (by decide)).trans ?_)
  simp

end InstanceCommand

/-! ### What a reset goes by -/

/-- What a reset of owner `i` goes by is as it was: the tick, the owner's state and generation, its reset, and its controller. -/
structure Dev.KeepsOwner (d e : Dev) (i : Nat) : Prop where
  aon : e.aon = d.aon
  state : e.instState i = d.instState i
  gen : e.instGen i = d.instGen i
  run : e.irun i = d.irun i
  ctrl : e.ctrl i = d.ctrl i

theorem Dev.KeepsOwner.trans {d e f : Dev} {i : Nat} (h : d.KeepsOwner e i) (h' : e.KeepsOwner f i) : d.KeepsOwner f i :=
  ⟨h'.aon.trans h.aon, h'.state.trans h.state, h'.gen.trans h.gen, h'.run.trans h.run, h'.ctrl.trans h.ctrl⟩

theorem Dev.inst_congr {d e : Dev} (h : e.insts.table = d.insts.table) (i : Nat) : e.inst i = d.inst i := by rw [Dev.inst, h, Dev.inst]

theorem Dev.irun_congr {d e : Dev} (h : e.insts.run = d.insts.run) (i : Nat) : e.irun i = d.irun i := by rw [Dev.irun, h, Dev.irun]

theorem Dev.ctrl_congr {d e : Dev} (h : e.insts.ctrl = d.insts.ctrl) (i : Nat) : e.ctrl i = d.ctrl i := by rw [Dev.ctrl, h, Dev.ctrl]

theorem Dev.KeepsOwner.of_parts {d e : Dev} (i : Nat) (haon : e.aon = d.aon) (hinst : e.inst i = d.inst i) (hrun : e.irun i = d.irun i) (hctrl : e.ctrl i = d.ctrl i) :
    d.KeepsOwner e i := ⟨haon, congrArg (ent · 2 1) hinst, congrArg (ent · 3 1) hinst, hrun, hctrl⟩

theorem Dev.KeepsOwner.of_insts {d e : Dev} (i : Nat) (haon : e.aon = d.aon := by rfl) (h : e.insts = d.insts := by rfl) : d.KeepsOwner e i :=
  .of_parts i haon (Dev.inst_congr (by rw [h]) i) (Dev.irun_congr (by rw [h]) i) (Dev.ctrl_congr (by rw [h]) i)

/-- An accepted effect is counted and answered. -/
theorem Dev.accepts_keepsOwner (d : Dev) (o i : Nat) : d.KeepsOwner (d.accepts o) i := by
  unfold Dev.accepts
  split
  · exact .of_insts i
  · exact .of_insts i

theorem Dev.KeepsOwner.fenceWaits {d e : Dev} {i : Nat} (h : d.KeepsOwner e i) : e.fenceWaits i = d.fenceWaits i := by
  unfold Dev.fenceWaits Dev.now
  rw [h.run, h.gen, h.aon]

theorem Dev.inst_setInst_ne (d : Dev) {i j : Nat} (h : j ≠ i) (off len v : Nat) : (d.setInst i off len v).inst j = d.inst j := by
  simp [Dev.inst, storeMod, storeGet_set, h]

theorem Dev.inst_setIrun (d : Dev) (i j : Nat) (x : InstRun) : (d.setIrun i x).inst j = d.inst j := rfl

theorem Dev.irun_setInst (d : Dev) (i off len v j : Nat) : (d.setInst i off len v).irun j = d.irun j := rfl

/-- A field of another owner's entry. -/
theorem Dev.setInst_keepsOwner (d : Dev) {i j : Nat} (h : j ≠ i) (off len v : Nat) : d.KeepsOwner (d.setInst i off len v) j :=
  ⟨rfl, by rw [Dev.instState, Dev.inst_setInst_ne d h, Dev.instState], by rw [Dev.instGen, Dev.inst_setInst_ne d h, Dev.instGen], rfl, rfl⟩

theorem Dev.setIrun_keepsOwner (d : Dev) {i j : Nat} (h : j ≠ i) (x : InstRun) : d.KeepsOwner (d.setIrun i x) j :=
  ⟨rfl, rfl, rfl, (d.irun_setIrun i j x).trans (if_neg h), rfl⟩

theorem Dev.setCtrl_keepsOwner (d : Dev) {i j : Nat} (h : j ≠ i) (c : Ctrl) : d.KeepsOwner (d.setCtrl i c) j :=
  ⟨rfl, rfl, rfl, rfl, (d.ctrl_setCtrl i j c).trans (if_neg h)⟩

/-! ### FENCE (R272, R274) -/

/-- Owner `i` has been fenced: it is RESETTING or REMOVING in its next generation, and waits for HALT. -/
structure Dev.Fenced (d e : Dev) (i : Nat) (remove : Bool) : Prop where
  aon : e.aon = d.aon
  state : e.instState i = if remove then 3 else 2
  gen : e.instGen i = (d.instGen i + 1) % 256
  step : (e.irun i).step = 2
  remove : (e.irun i).remove = remove

theorem Dev.Fenced.keeps {d e f : Dev} {i : Nat} {remove : Bool} (h : d.Fenced e i remove) (h' : e.KeepsOwner f i) : d.Fenced f i remove :=
  ⟨h'.aon.trans h.aon, h'.state.trans h.state, h'.gen.trans h.gen, by rw [h'.run, h.step], by rw [h'.run, h.remove]⟩

/-- The entry of owner `i` after FENCE. -/
def Dev.entryFenced (d : Dev) (i : Nat) (remove : Bool) : Dev := (d.setInst i 3 1 ((d.instGen i + 1) % 256)).setInst i 2 1 (if remove then 3 else 2)

theorem Dev.inst_entryFenced (d : Dev) (i : Nat) (remove : Bool) :
    (d.entryFenced i remove).inst i = setEnt (setEnt (d.inst i) 3 1 ((d.instGen i + 1) % 256)) 2 1 (if remove then 3 else 2) := by
  rw [Dev.entryFenced, Dev.inst_setInst, Dev.inst_setInst]

theorem Dev.entryFenced_aon (d : Dev) (i : Nat) (remove : Bool) : (d.entryFenced i remove).aon = d.aon := (Dev.setInst_aon ..).trans (Dev.setInst_aon ..)

theorem Dev.entryFenced_dict (d : Dev) (i : Nat) (remove : Bool) : (d.entryFenced i remove).dict = d.dict := (Dev.setInst_dict ..).trans (Dev.setInst_dict ..)

/-- A field of an entry is of the host view its table alone. -/
theorem Dev.setInst_table (d : Dev) (i off len v : Nat) : ∃ table, (d.setInst i off len v).insts = { d.insts with table := table } := ⟨_, rfl⟩

theorem Dev.entryFenced_insts (d : Dev) (i : Nat) (remove : Bool) : ∃ table, (d.entryFenced i remove).insts = { d.insts with table := table } := by
  obtain ⟨_, hgen⟩ := d.setInst_table i 3 1 ((d.instGen i + 1) % 256)
  obtain ⟨table, hstate⟩ := (d.setInst i 3 1 ((d.instGen i + 1) % 256)).setInst_table i 2 1 (if remove then 3 else 2)
  exact ⟨table, by rw [Dev.entryFenced, hstate, hgen]⟩

/-- What FENCE goes by, and the function's enables, are as they were. -/
structure Dev.KeepsHost (d e : Dev) : Prop where
  aon : e.aon = d.aon
  dict : e.dict = d.dict
  table : e.insts.table = d.insts.table
  run : e.insts.run = d.insts.run
  ctrl : e.insts.ctrl = d.insts.ctrl
  msix : e.insts.msix = d.insts.msix
  busMaster : e.insts.busMaster = d.insts.busMaster

theorem Dev.withheld_keepsHost (d : Dev) (held : List Output) : d.KeepsHost { d with insts := { d.insts with withheld := held } } :=
  ⟨rfl, rfl, rfl, rfl, rfl, rfl, rfl⟩

theorem Dev.KeepsHost.owner {d e : Dev} (h : d.KeepsHost e) (i : Nat) : d.KeepsOwner e i :=
  .of_parts i h.aon (Dev.inst_congr h.table i) (Dev.irun_congr h.run i) (Dev.ctrl_congr h.ctrl i)

theorem Dev.inc_insts (d : Dev) (o w n : Nat) : (d.inc o w n).insts = d.insts := rfl

theorem Dev.inc_keepsOwner (d : Dev) (o w n i : Nat) : d.KeepsOwner (d.inc o w n) i := .of_insts i

/-- FENCE writes the entry of owner `i`, drops and counts what was withheld for it, and then waits for HALT. -/
theorem Dev.fence_eq (d : Dev) (i : Nat) (remove : Bool) : ∃ (e : Dev) (n : Nat), (d.entryFenced i remove).KeepsHost e ∧
    d.fence i remove = (e.inc oFencedDrops 64 n).setIrun i
      { (e.inc oFencedDrops 64 n).irun i with step := 2, remove := remove, start := (e.inc oFencedDrops 64 n).now } := by
  unfold Dev.fence Dev.entryFenced
  exact ⟨_, _, Dev.withheld_keepsHost _ _, rfl⟩

theorem Dev.fence_fenced (d : Dev) (i : Nat) (remove : Bool) : d.Fenced (d.fence i remove) i remove := by
  obtain ⟨e, n, he, hf⟩ := d.fence_eq i remove
  have hinst : (d.fence i remove).inst i = setEnt (setEnt (d.inst i) 3 1 ((d.instGen i + 1) % 256)) 2 1 (if remove then 3 else 2) := by
    rw [hf, Dev.inst_setIrun, ← d.inst_entryFenced i remove]
    exact Dev.inst_congr (by rw [Dev.inc_insts, he.table]) i
  have hrun : (d.fence i remove).irun i = { (e.inc oFencedDrops 64 n).irun i with step := 2, remove := remove, start := (e.inc oFencedDrops 64 n).now } := by
    rw [hf, Dev.irun_setIrun, if_pos rfl]
  refine ⟨?_, ?_, ?_, by rw [hrun], by rw [hrun]⟩
  · rw [hf, Dev.setIrun_aon, (e.inc_keepsOwner _ _ _ i).aon, he.aon, d.entryFenced_aon]
  · rw [Dev.instState, hinst, ent_setEnt_same _ _ _ _ (by decide)]
    cases remove <;> rfl
  · rw [Dev.instGen, hinst, ent_setEnt_ne _ _ (by decide), ent_setEnt_same _ _ _ _ (by decide), Nat.pow_one, Nat.mod_mod]

/-- The fence of another owner. -/
theorem Dev.fence_keepsOwner (d : Dev) {i j : Nat} (h : j ≠ i) (remove : Bool) : d.KeepsOwner (d.fence i remove) j := by
  obtain ⟨e, n, he, hf⟩ := d.fence_eq i remove
  rw [hf]
  exact (((d.setInst_keepsOwner h _ _ _).trans (Dev.setInst_keepsOwner _ h _ _ _)).trans (he.owner j)).trans
    ((e.inc_keepsOwner _ _ _ j).trans (Dev.setIrun_keepsOwner _ h _))

/-- Of the chip's objects FENCE writes the count of what it drops. -/
theorem Dev.fence_g (d : Dev) (i : Nat) (remove : Bool) {o : Nat} (ho : o ≠ oFencedDrops) : (d.fence i remove).g o = d.g o := by
  obtain ⟨e, n, he, hf⟩ := d.fence_eq i remove
  rw [hf, Dev.inc, Dev.incU, Dev.g_of_dict (Dev.setIrun_dict ..), ← Dev.g_of_dict (he.dict.trans (d.entryFenced_dict i remove)) o]
  exact Dev.g_s_ne e oFencedDrops o _ (dkey_ne_of_chip (by decide) (by decide) ho)

/-- FENCE leaves the controllers and the function's enables. -/
theorem Dev.fence_insts (d : Dev) (i : Nat) (remove : Bool) : (d.fence i remove).insts.ctrl = d.insts.ctrl ∧
    (d.fence i remove).insts.msix = d.insts.msix ∧ (d.fence i remove).insts.busMaster = d.insts.busMaster := by
  obtain ⟨e, n, he, hf⟩ := d.fence_eq i remove
  obtain ⟨table, hentry⟩ := d.entryFenced_insts i remove
  rw [hf, Dev.setIrun_insts, Dev.inc_insts]
  exact ⟨he.ctrl.trans (by rw [hentry]), he.msix.trans (by rw [hentry]), he.busMaster.trans (by rw [hentry])⟩

theorem Dev.fenceWaitEnd_waits {d : Dev} {i : Nat} (hw : d.fenceWaits i = true) : d.fenceWaitEnd i = d := if_neg (by simp [hw])

theorem Dev.fenceWaitEnd_fences {d : Dev} {i : Nat} (hstep : (d.irun i).step = 1) (hw : d.fenceWaits i = false) :
    d.fenceWaitEnd i = d.fence i (d.irun i).remove := if_pos ⟨hstep, by simp [hw]⟩

/-! ### A reset begins, or is joined (R272) -/

/-- Owner `i` with its controller reset and the reset counted. -/
def Dev.ctrlReset (d : Dev) (i : Nat) : Dev := (d.setCtrl i {}).resetKind 4

theorem Dev.ctrlReset_aon (d : Dev) (i : Nat) : (d.ctrlReset i).aon = d.aon := (Dev.s_aon ..).trans (Dev.s_aon ..)

theorem Dev.ctrlReset_insts (d : Dev) (i : Nat) : (d.ctrlReset i).insts = (d.setCtrl i {}).insts := (Dev.s_insts _ _ _).trans (Dev.s_insts _ _ _)

theorem Dev.ctrlReset_inst (d : Dev) (i j : Nat) : (d.ctrlReset i).inst j = d.inst j := Dev.inst_congr (by rw [d.ctrlReset_insts, Dev.setCtrl_insts]) j

theorem Dev.ctrlReset_irun (d : Dev) (i j : Nat) : (d.ctrlReset i).irun j = d.irun j := Dev.irun_congr (by rw [d.ctrlReset_insts, Dev.setCtrl_insts]) j

theorem Dev.ctrlReset_ctrl (d : Dev) (i : Nat) : (d.ctrlReset i).ctrl i = {} := by
  rw [Dev.ctrl_congr (congrArg Insts.ctrl (d.ctrlReset_insts i)), Dev.ctrl_setCtrl_same]

theorem Dev.ctrlReset_kind (d : Dev) (i : Nat) : (d.ctrlReset i).g oLastResetKind = 4 :=
  (Dev.g_s_ne _ oResetCounts oLastResetKind _ (dkey_ne_of_chip (by decide) (by decide) (by decide))).trans (Dev.g_s_same _ _ _)

theorem Dev.ctrlReset_keepsOwner (d : Dev) {i j : Nat} (h : j ≠ i) : d.KeepsOwner (d.ctrlReset i) j :=
  (d.setCtrl_keepsOwner h {}).trans (.of_insts j (d.ctrlReset_aon i) (d.ctrlReset_insts i))

theorem Dev.ctrlReset_fenceWaits (d : Dev) (i : Nat) : (d.ctrlReset i).fenceWaits i = d.fenceWaits i := by
  unfold Dev.fenceWaits Dev.now Dev.instGen
  rw [d.ctrlReset_irun, d.ctrlReset_inst, d.ctrlReset_aon]

section Reset
variable {d : Dev} {i : Nat}

/-- A reset joins the one under way. -/
theorem Dev.instReset_joins (hstep : (d.irun i).step ≠ 0) : d.instReset i false = d := by
  rw [Dev.instReset]
  exact (if_pos hstep).trans (if_neg Bool.false_ne_true)

/-- A removal turns the reset under way into one. -/
theorem Dev.instReset_turns (hstep : (d.irun i).step ≠ 0) : d.instReset i true =
    if (d.irun i).step = 1 then d.setIrun i { d.irun i with remove := true } else (d.setIrun i { d.irun i with remove := true }).setInst i 2 1 3 := by
  rw [Dev.instReset]
  exact if_pos hstep

theorem Dev.instReset_turned (hstep : (d.irun i).step ≠ 0) : (d.instReset i true).aon = d.aon ∧
    (d.instReset i true).irun i = { d.irun i with remove := true } ∧ (d.instReset i true).instGen i = d.instGen i ∧
    (d.instReset i true).instState i = if (d.irun i).step = 1 then d.instState i else 3 := by
  have hrun : (d.setIrun i { d.irun i with remove := true }).irun i = { d.irun i with remove := true } := (d.irun_setIrun i i _).trans (if_pos rfl)
  rw [Dev.instReset_turns hstep, Dev.instGen, Dev.instState, Dev.instState, Dev.instGen]
  split
  · exact ⟨Dev.setIrun_aon .., hrun, congrArg (ent · 3 1) (d.inst_setIrun i i _), congrArg (ent · 2 1) (d.inst_setIrun i i _)⟩
  · rw [Dev.inst_setInst, Dev.inst_setIrun, Dev.irun_setInst]
    exact ⟨(Dev.setInst_aon ..).trans (Dev.setIrun_aon ..), hrun, ent_setEnt_ne _ _ (by decide), ent_setEnt_same _ 2 1 3 (by decide)⟩

variable (hstep : (d.irun i).step = 0)
include hstep

theorem Dev.instReset_fences (hw : d.fenceWaits i = false) (remove : Bool) : d.instReset i remove = (d.ctrlReset i).fence i remove := by
  rw [Dev.instReset]
  exact (if_neg (not_not.2 hstep)).trans (if_neg (Bool.eq_false_iff.1 ((d.ctrlReset_fenceWaits i).trans hw)))

theorem Dev.instReset_waits (hw : d.fenceWaits i = true) (remove : Bool) :
    d.instReset i remove = (d.ctrlReset i).setIrun i { d.irun i with step := 1, remove := remove, start := (d.ctrlReset i).now } := by
  rw [Dev.instReset]
  exact (if_neg (not_not.2 hstep)).trans (if_pos ((d.ctrlReset_fenceWaits i).trans hw))

theorem Dev.instReset_fenced (hw : d.fenceWaits i = false) (remove : Bool) : d.Fenced (d.instReset i remove) i remove ∧
    (d.instReset i remove).ctrl i = {} ∧ (d.instReset i remove).g oLastResetKind = 4 := by
  rw [Dev.instReset_fences hstep hw]
  obtain ⟨haon, hstate, hgen, hst, hrem⟩ := (d.ctrlReset i).fence_fenced i remove
  refine ⟨⟨haon.trans (d.ctrlReset_aon i), hstate, ?_, hst, hrem⟩, ?_, ?_⟩
  · rw [hgen, Dev.instGen, d.ctrlReset_inst, Dev.instGen]
  · rw [Dev.ctrl_congr (Dev.fence_insts ..).1, d.ctrlReset_ctrl]
  · rw [Dev.fence_g _ _ _ (by decide), d.ctrlReset_kind]

/-- A reset whose fence waits changes neither the state nor the generation. -/
theorem Dev.instReset_waiting (hw : d.fenceWaits i = true) (remove : Bool) : (d.instReset i remove).aon = d.aon ∧
    ((d.instReset i remove).irun i).step = 1 ∧ ((d.instReset i remove).irun i).remove = remove ∧
    (d.instReset i remove).instState i = d.instState i ∧ (d.instReset i remove).instGen i = d.instGen i := by
  rw [Dev.instReset_waits hstep hw, Dev.irun_setIrun, if_pos rfl, Dev.instState, Dev.instGen, Dev.inst_setIrun, d.ctrlReset_inst, Dev.setIrun_aon, d.ctrlReset_aon]
  exact ⟨rfl, rfl, rfl, rfl, rfl⟩

end Reset

/-- A reset leaves the other owners as they were. -/
theorem Dev.instReset_keepsOwner (d : Dev) {i j : Nat} (h : j ≠ i) : d.KeepsOwner (d.instReset i false) j := by
  by_cases hstep : (d.irun i).step = 0
  · cases hw : d.fenceWaits i with
    | true =>
      rw [Dev.instReset_waits hstep hw]
      exact (d.ctrlReset_keepsOwner h).trans (Dev.setIrun_keepsOwner _ h _)
    | false =>
      rw [Dev.instReset_fences hstep hw]
      exact (d.ctrlReset_keepsOwner h).trans (Dev.fence_keepsOwner _ h _)
  · rw [Dev.instReset_joins hstep]
    exact .of_insts j

/-! ### Creation (R258) -/

/-- Owner `i`, created. -/
def Dev.created (d : Dev) (i : Nat) : Dev := (d.setInst i 2 1 1).recount i

theorem Dev.created_state (d : Dev) (i : Nat) : (d.created i).instState i = 1 := by
  have hinst : (d.created i).inst i = setEnt (setEnt (d.inst i) 2 1 1) 0x16 2 ((d.setInst i 2 1 1).queuesOf i).length := by
    rw [← Dev.inst_setInst, ← Dev.inst_setInst]
    exact Dev.inst_congr (congrArg Insts.table ((d.setInst i 2 1 1).recount_insts i)) i
  rw [Dev.instState, hinst, ent_setEnt_ne _ _ (by decide)]
  exact ent_setEnt_same _ 2 1 1 (by decide)

theorem Dev.created_aon (d : Dev) (i : Nat) : (d.created i).aon = d.aon := (Dev.s_aon ..).trans ((Dev.s_aon ..).trans ((Dev.setInst_aon ..).trans (Dev.setInst_aon ..)))

/-! ### The commands of an owner (R258, R272) -/

section Command
variable {d : Dev} {i : Nat} (hs : d.supAway = false) (hc : d.writesClosed = false)
include hs hc

theorem Dev.instanceCommand_accepted {v : Nat} {f : Dev} (h : d.fxInstanceCommand v = okR f) : d.mgrWrite uChip oInstanceCommand v = f.accepts oInstanceCommand :=
  (d.instanceCommand_passes v).accepted hs hc h

section Refused
variable (hp : d.aon.auxUp = true)
include hp

theorem Dev.instanceCommand_range (hi : 4095 < i) (hi' : i < 65536) {act : Nat} (hact : act < 256) :
    d.mgrWrite uChip oInstanceCommand (i + act * 0x10000) = d.refuses 3 uChip :=
  (d.instanceCommand_passes _).refused hs hc hp (by decide) (Dev.fxInstanceCommand_range hi hi' hact)

theorem Dev.instanceCommand_conflict {v : Nat} (h : d.fxInstanceCommand v = conflict d uChip) : d.mgrWrite uChip oInstanceCommand v = d.refuses 4 uChip :=
  (d.instanceCommand_passes v).refused hs hc hp (by decide) h

variable (hi : i ≤ 4095)
include hi

theorem Dev.instanceCreate_refused (h : d.instState i ≠ 0 ∨ d.hasDirty i = true) : d.mgrWrite uChip oInstanceCommand (i + 0x10000) = d.refuses 4 uChip :=
  Dev.instanceCommand_conflict hs hc hp ((Dev.fxInstanceCommand_create hi).trans (if_pos h))

theorem Dev.instanceReset_refused (h : d.instState i = 0) : d.mgrWrite uChip oInstanceCommand (i + 0x20000) = d.refuses 4 uChip :=
  Dev.instanceCommand_conflict hs hc hp ((Dev.fxInstanceCommand_reset hi).trans (if_pos h))

theorem Dev.instanceRemove_refused (h : d.instState i = 0 ∨ i = 0) : d.mgrWrite uChip oInstanceCommand (i + 0x30000) = d.refuses 4 uChip :=
  Dev.instanceCommand_conflict hs hc hp ((Dev.fxInstanceCommand_remove hi).trans (if_pos h))

end Refused

variable (hi : i ≤ 4095)
include hi

theorem Dev.instanceCreate_accepted (h : d.instState i = 0) (hd : d.hasDirty i = false) :
    d.mgrWrite uChip oInstanceCommand (i + 0x10000) = (d.created i).accepts oInstanceCommand :=
  Dev.instanceCommand_accepted hs hc ((Dev.fxInstanceCommand_create hi).trans (if_neg (by simp [h, hd])))

variable (hst : d.instState i ≠ 0)
include hst

theorem Dev.instanceReset_accepted : d.mgrWrite uChip oInstanceCommand (i + 0x20000) = (d.instReset i false).accepts oInstanceCommand :=
  Dev.instanceCommand_accepted hs hc ((Dev.fxInstanceCommand_reset hi).trans (if_neg hst))

theorem Dev.instanceRemove_accepted (h0 : i ≠ 0) : d.mgrWrite uChip oInstanceCommand (i + 0x30000) = (d.instReset i true).accepts oInstanceCommand :=
  Dev.instanceCommand_accepted hs hc ((Dev.fxInstanceCommand_remove hi).trans (if_neg (by simp [hst, h0])))

end Command

/-! ### A function-level reset (R272, R415) -/

/-- A key that reads as something else than its default is listed. -/
theorem storeGet_mem {V : Type} {def_ : Nat → V} {k : Nat} : ∀ {m : List (Nat × V)}, storeGet def_ m k ≠ def_ k → (k, storeGet def_ m k) ∈ m
  | [], h => absurd rfl h
  | (a, v) :: r, h => by
    by_cases ha : a = k
    · rw [storeGet, if_pos ha, ha]
      exact List.mem_cons_self
    · rw [storeGet, if_neg ha] at h ⊢
      exact List.mem_cons_of_mem _ (storeGet_mem h)

/-- An entry that was never written is that of a FREE owner, but for owner 0. -/
theorem instDefault_free {i : Nat} (h0 : i ≠ 0) (hi : i < 4096) : ent (instDefault i) 2 1 = 0 := by
  have hlow : (BitVec.ofNat 512 i).toNat < 256 ^ 2 := (Nat.mod_le i _).trans_lt (by omega)
  rw [instDefault, if_neg h0, ent, fieldOf, Nat.div_eq_of_lt hlow, Nat.zero_mod]

theorem Dev.mem_liveInsts {d : Dev} {i : Nat} (hi : i < 4096) (h : d.instState i ≠ 0) : i ∈ d.liveInsts := by
  unfold Dev.liveInsts
  by_cases h0 : i = 0
  · subst h0
    exact List.mem_append_left _ (by rw [if_neg h]; exact List.mem_cons_self)
  · have hlisted : (i, d.inst i) ∈ d.insts.table := storeGet_mem fun heq => h (by rw [Dev.instState, Dev.inst, heq, instDefault_free h0 hi])
    exact List.mem_append_right _ (List.mem_map.2 ⟨_, List.mem_filter.2 ⟨hlisted, decide_eq_true ⟨h0, h⟩⟩, rfl⟩)

theorem Dev.functionReset_keepsOwner (d : Dev) (i : Nat) : d.KeepsOwner d.functionReset i := ⟨rfl, rfl, rfl, rfl, rfl⟩

/-- Resets of any instances join the one under way at owner `i`. -/
theorem Dev.instResets_join {i : Nat} (l : List Nat) : ∀ {d : Dev}, (d.irun i).step ≠ 0 → d.KeepsOwner (l.foldl (fun d j => d.instReset j false) d) i := by
  induction l with
  | nil => exact fun _ => .of_insts i
  | cons j l ih =>
    intro d hstep
    have hkeep : d.KeepsOwner (d.instReset j false) i := by
      by_cases hj : i = j
      · subst hj
        rw [Dev.instReset_joins hstep]
        exact .of_insts i
      · exact d.instReset_keepsOwner hj
    exact hkeep.trans (ih (by rw [hkeep.run]; exact hstep))

/-- Resets of instances of which `i` is one fence it. -/
theorem Dev.instResets_fence {i : Nat} (l : List Nat) (hl : i ∈ l) : ∀ {d : Dev}, (d.irun i).step = 0 → d.fenceWaits i = false →
    d.Fenced (l.foldl (fun d j => d.instReset j false) d) i false := by
  induction l with
  | nil => cases hl
  | cons j l ih =>
    intro d hstep hw
    by_cases hj : i = j
    · subst hj
      obtain ⟨hfenced, -⟩ := Dev.instReset_fenced hstep hw false
      exact hfenced.keeps (Dev.instResets_join l (by rw [hfenced.step]; decide))
    · have hkeep := d.instReset_keepsOwner hj
      obtain ⟨haon, hstate, hgen, hst, hrem⟩ := ih ((List.mem_cons.1 hl).resolve_left hj) (d := d.instReset j false) (by rw [hkeep.run, hstep]) (by rw [hkeep.fenceWaits, hw])
      exact ⟨haon.trans hkeep.aon, hstate, hgen.trans (by rw [hkeep.gen]), hst, hrem⟩

/-- A reset leaves the function's enables. -/
theorem Dev.instReset_enables (d : Dev) (i : Nat) : (d.instReset i false).insts.msix = d.insts.msix ∧
    (d.instReset i false).insts.busMaster = d.insts.busMaster := by
  have hctrl : (d.ctrlReset i).insts.msix = d.insts.msix ∧ (d.ctrlReset i).insts.busMaster = d.insts.busMaster := by
    rw [d.ctrlReset_insts, Dev.setCtrl_insts]
    exact ⟨rfl, rfl⟩
  by_cases hstep : (d.irun i).step = 0
  · cases hw : d.fenceWaits i with
    | true =>
      rw [Dev.instReset_waits hstep hw, Dev.setIrun_insts]
      exact hctrl
    | false =>
      rw [Dev.instReset_fences hstep hw]
      obtain ⟨-, hmsix, hmaster⟩ := (d.ctrlReset i).fence_insts i false
      exact ⟨hmsix.trans hctrl.1, hmaster.trans hctrl.2⟩
  · rw [Dev.instReset_joins hstep]
    exact ⟨rfl, rfl⟩

theorem Dev.resetInsts_enables (d : Dev) : d.resetInsts.insts.msix = d.insts.msix ∧ d.resetInsts.insts.busMaster = d.insts.busMaster :=
  List.foldlRecOn (motive := fun e : Dev => e.insts.msix = d.insts.msix ∧ e.insts.busMaster = d.insts.busMaster) _ _ ⟨rfl, rfl⟩ fun e he i _ =>
    ⟨(e.instReset_enables i).1.trans he.1, (e.instReset_enables i).2.trans he.2⟩

/-- A function-level reset fences every ACTIVE owner, and clears the function's enables. -/
theorem Dev.flr_fences {d : Dev} {i : Nat} (hi : i < 4096) (hst : d.instState i = 1) (hstep : (d.irun i).step = 0) (hw : d.fenceWaits i = false) :
    d.Fenced d.functionReset.resetInsts i false ∧ d.functionReset.resetInsts.insts.msix = false ∧ d.functionReset.resetInsts.insts.busMaster = false := by
  have hlive : i ∈ d.functionReset.liveInsts.filter fun i => d.functionReset.instState i = 1 :=
    List.mem_filter.2 ⟨Dev.mem_liveInsts (d := d) hi (by omega), decide_eq_true hst⟩
  have hkeep := d.functionReset_keepsOwner i
  obtain ⟨haon, hstate, hgen, hst, hrem⟩ := Dev.instResets_fence _ hlive (d := d.functionReset) hstep (hkeep.fenceWaits.trans hw)
  exact ⟨⟨haon, hstate, hgen, hst, hrem⟩, d.functionReset.resetInsts_enables⟩

/-- With no owner ACTIVE it resets none. -/
theorem Dev.resetInsts_none {d : Dev} (h : d.liveInsts.filter (fun i => d.instState i = 1) = []) : d.functionReset.resetInsts = d.functionReset := by
  have hnone : d.functionReset.liveInsts.filter (fun i => d.functionReset.instState i = 1) = [] := h
  rw [Dev.resetInsts, hnone, List.foldl_nil]

/-! ### HALT and DRAIN (R253, R272) -/

section Halt
variable {d : Dev} {i : Nat}

/-- HALT holds the count of requests outstanding. -/
theorem Dev.instHalt_halts (hstep : (d.irun i).step = 2) {n : Nat} (hn : n < 2 ^ 32) :
    ∃ f : Dev, d.instHalt i n = f.rejudge.throughKick ∧ (f.irun i).step = 3 ∧ ent (f.inst i) 0x20 4 = n := by
  rw [Dev.instHalt]
  refine ⟨_, if_neg (not_not.2 hstep), ?_, ?_⟩
  · rw [Dev.irun_setIrun, if_pos rfl]
  · rw [Dev.inst_setIrun, Dev.inst_setInst, ent_setEnt_same _ _ _ _ (by decide)]
    exact Nat.mod_eq_of_lt hn

theorem Dev.hostTimeout_counts (hstep : (d.irun i).step = 3) (hn : 0 < ent (d.inst i) 0x20 4) :
    ent ((d.hostTimeout i).inst i) 0x20 4 = ent (d.inst i) 0x20 4 - 1 := by
  have hlt : ent (d.inst i) 0x20 4 < 256 ^ 4 := Nat.mod_lt _ (by decide)
  rw [Dev.hostTimeout, if_pos ⟨hstep, hn⟩, Dev.inst_setInst, ent_setEnt_same _ _ _ _ (by decide), Nat.mod_eq_of_lt (by omega)]

end Halt

/-- Owner `i` with `k` completions of its earlier generations come in. -/
def Dev.drained (d : Dev) (i k : Nat) : Dev := (d.setInst i 0x20 4 (ent (d.inst i) 0x20 4 - k)).inc oFencedDrops 64 k

theorem Dev.drained_irun (d : Dev) (i k : Nat) : (d.drained i k).irun i = d.irun i := by
  rw [Dev.drained, (Dev.inc_keepsOwner _ _ _ _ i).run, Dev.irun_setInst]

theorem Dev.drained_now (d : Dev) (i k : Nat) : (d.drained i k).now = d.now := by
  rw [Dev.now, Dev.drained, (Dev.inc_keepsOwner _ _ _ _ i).aon, Dev.setInst_aon, Dev.now]

theorem Dev.drained_count (d : Dev) (i k : Nat) : ent ((d.drained i k).inst i) 0x20 4 = ent (d.inst i) 0x20 4 - k := by
  have hlt : ent (d.inst i) 0x20 4 < 256 ^ 4 := Nat.mod_lt _ (by decide)
  have hinst : (d.drained i k).inst i = (d.setInst i 0x20 4 (ent (d.inst i) 0x20 4 - k)).inst i := Dev.inst_congr (congrArg Insts.table (Dev.inc_insts ..)) i
  rw [hinst, Dev.inst_setInst, ent_setEnt_same _ _ _ _ (by decide), Nat.mod_eq_of_lt (by omega)]

/-- A drain of owner `i` under way: what comes in is counted, and the reset ends at none outstanding or at its bound. -/
theorem Dev.instDrain_eq {d : Dev} {i : Nat} (hstep : (d.irun i).step = 3) (k : Nat) : d.instDrain i k =
    (if ent (d.inst i) 0x20 4 = min (ent (d.inst i) 0x20 4) k then (d.drained i (min (ent (d.inst i) 0x20 4) k)).instClean i false
    else if (d.irun i).start + 10000 ≤ (d.drained i (min (ent (d.inst i) 0x20 4) k)).now then
      ((d.drained i (min (ent (d.inst i) 0x20 4) k)).inc oResetTimeouts).instClean i true
    else d.drained i (min (ent (d.inst i) 0x20 4) k)) := by
  rw [Dev.instDrain, if_neg (not_not.2 hstep), Dev.drained]

section Drain
variable {d : Dev} {i : Nat} (hstep : (d.irun i).step = 3) {n k : Nat} (hn : n = ent (d.inst i) 0x20 4)
include hstep hn

theorem Dev.instDrain_counts (hk : k < n) (hnow : d.now < (d.irun i).start + 10000) : d.instDrain i k = d.drained i k := by
  rw [Dev.instDrain_eq hstep, ← hn, Nat.min_eq_right hk.le, if_neg hk.ne', Dev.drained_now, if_neg (Nat.not_le.2 hnow)]

theorem Dev.instDrain_ends (hk : n ≤ k) : d.instDrain i k = (d.drained i n).instClean i false := by
  rw [Dev.instDrain_eq hstep, ← hn, Nat.min_eq_left hk, if_pos rfl]

theorem Dev.instDrain_late (hk : k < n) (hnow : (d.irun i).start + 10000 ≤ d.now) :
    d.instDrain i k = ((d.drained i k).inc oResetTimeouts).instClean i true := by
  rw [Dev.instDrain_eq hstep, ← hn, Nat.min_eq_right hk.le, if_neg hk.ne', Dev.drained_now, if_pos hnow]

end Drain

/-! ### CLEAN and REPORT (R272) -/

theorem Dev.notify_insts (d : Dev) (kind code unit : Nat) : (d.notify kind code unit).insts = d.insts ∧ (d.notify kind code unit).faults = d.faults := by
  unfold Dev.notify
  refine List.foldlRecOn _ _ (motive := fun e : Dev => e.insts = d.insts ∧ e.faults = d.faults) ⟨rfl, rfl⟩ fun e he i _ => ?_
  split
  · unfold Dev.notifyTo
    dsimp only
    split
    · exact he
    · exact he
  · exact he

theorem Dev.vector_frame (d : Dev) (i v : Nat) : (d.vector i v).insts.run = d.insts.run ∧ (d.vector i v).faults = d.faults := by
  unfold Dev.vector
  split
  · dsimp only
    split <;> exact ⟨rfl, rfl⟩
  · exact ⟨rfl, rfl⟩

/-- The owner, reported with its reset over. -/
def Dev.reported (d : Dev) (i : Nat) (x : InstRun) (g p q : Nat) : Dev :=
  ((((((d.setIrun i x).setInst i 0x20 4 0).recount i).tlbEmpty.record 0x600 0 uChip i g p q).notify 0x05 i uChip).vector 0 0)

theorem Dev.reported_result (d : Dev) (i : Nat) (x : InstRun) (g p q : Nat) : (d.reported i x g p q).irun i = x ∧
    (d.reported i x g p q).instState i = d.instState i ∧ (d.reported i x g p q).Recorded 0x600 := by
  unfold Dev.reported
  set c := ((d.setIrun i x).setInst i 0x20 4 0).recount i with hc
  set r := c.tlbEmpty.record 0x600 0 uChip i g p q with hr
  obtain ⟨hinsts, hfaults⟩ := r.notify_insts 0x05 i uChip
  obtain ⟨hrun, hfaults'⟩ := (r.notify 0x05 i uChip).vector_frame 0 0
  have htable := ((r.notify 0x05 i uChip).vector_keepsTables 0 0).table
  have hrc : r.insts = c.insts := by rw [hr, Dev.record_insts, Dev.tlbEmpty_insts]
  have hirun : ((r.notify 0x05 i uChip).vector 0 0).irun i = c.irun i := Dev.irun_congr (hrun.trans (by rw [hinsts, hrc])) i
  have hinst : ((r.notify 0x05 i uChip).vector 0 0).inst i = c.inst i := Dev.inst_congr (htable.trans (by rw [hinsts, hrc])) i
  refine ⟨?run, ?state, ?recorded⟩
  case run =>
    rw [hirun, hc, Dev.irun_congr (congrArg Insts.run (Dev.recount_insts ..)), Dev.irun_setInst, Dev.irun_setInst,
      Dev.irun_setIrun, if_pos rfl]
  case state =>
    rw [Dev.instState, hinst, hc, Dev.inst_congr (congrArg Insts.table (Dev.recount_insts ..)), Dev.inst_setInst,
      Dev.inst_setInst, Dev.inst_setIrun, ent_setEnt_ne _ _ (by decide), ent_setEnt_ne _ _ (by decide), Dev.instState]
  case recorded =>
    have hrecorded := Dev.record_recorded c.tlbEmpty 0x600 0 uChip i g p q
    rw [← hr] at hrecorded
    unfold Dev.Recorded at hrecorded ⊢
    rwa [hfaults', hfaults]

/-- CLEAN makes the owner ACTIVE again, or FREE, and reports it. -/
theorem Dev.instClean_eq (d : Dev) (i : Nat) (late : Bool) : ∃ (e : Dev) (g p q : Nat), e.instState i = (if (d.irun i).remove then 0 else 1) ∧
    d.instClean i late = e.reported i { d.irun i with step := 0, remove := false } g p q := by
  unfold Dev.instClean
  refine ⟨_, _, _, _, ?_, rfl⟩
  split
  · rw [Dev.instState, Dev.inst_setInst]
    exact ent_setEnt_same _ 2 1 0 (by decide)
  · rw [Dev.instState, Dev.inst_setInst]
    exact ent_setEnt_same _ 2 1 1 (by decide)

theorem Dev.instClean_result (d : Dev) (i : Nat) (late : Bool) : ((d.instClean i late).irun i).step = 0 ∧ (d.instClean i late).Recorded 0x600 ∧
    (d.instClean i late).instState i = if (d.irun i).remove then 0 else 1 := by
  obtain ⟨e, g, p, q, hstate, heq⟩ := d.instClean_eq i late
  obtain ⟨hrun, hst, hrec⟩ := e.reported_result i { d.irun i with step := 0, remove := false } g p q
  rw [heq, hrun, hst]
  exact ⟨rfl, hrec, hstate⟩

/-- A drain with nothing outstanding, or at its bound, ends the reset. -/
theorem Dev.instDrain_over {d : Dev} {i n k : Nat} (hstep : (d.irun i).step = 3) (hn : n = ent (d.inst i) 0x20 4)
    (h : n ≤ k ∨ (d.irun i).start + 10000 ≤ d.now) : ((d.instDrain i k).irun i).step = 0 ∧ (d.instDrain i k).Recorded 0x600 ∧
    (d.instDrain i k).instState i = if (d.irun i).remove then 0 else 1 := by
  by_cases hk : n ≤ k
  · have hclean := (d.drained i n).instClean_result i false
    rwa [← Dev.instDrain_ends hstep hn hk, d.drained_irun] at hclean
  · have hclean := ((d.drained i k).inc oResetTimeouts).instClean_result i true
    rwa [← Dev.instDrain_late hstep hn (Nat.not_le.1 hk) (h.resolve_left hk), (Dev.inc_keepsOwner _ _ _ _ i).run, d.drained_irun] at hclean

/-! ### The host link (R140, R149, R254) -/

/-- The link, and the sources that it raises, are as they were. -/
structure Dev.KeepsLink (d e : Dev) : Prop where
  link : e.insts.link = d.insts.link
  gen : e.insts.linkGen = d.insts.linkGen
  width : e.insts.linkWidth = d.insts.linkWidth
  faults : e.faults = d.faults
  faultQ : e.faultQ = d.faultQ

theorem Dev.KeepsLink.trans {d e f : Dev} (h : d.KeepsLink e) (h' : e.KeepsLink f) : d.KeepsLink f :=
  ⟨h'.link.trans h.link, h'.gen.trans h.gen, h'.width.trans h.width, h'.faults.trans h.faults, h'.faultQ.trans h.faultQ⟩

theorem Dev.askPage_keepsLink (d : Dev) (r : PageReq) : d.KeepsLink (d.askPage r) := ⟨rfl, rfl, rfl, rfl, rfl⟩

/-- Page requests that are made again change nothing of the link. -/
theorem Dev.reissuePages_keepsLink (d : Dev) : d.KeepsLink d.reissuePages := by
  unfold Dev.reissuePages
  split
  · refine List.foldlRecOn _ _ (motive := fun e : Dev => d.KeepsLink e) ⟨rfl, rfl, rfl, rfl, rfl⟩ fun e he r _ => he.trans (e.askPage_keepsLink r)
  · exact ⟨rfl, rfl, rfl, rfl, rfl⟩

/-- A source whose condition has ended is not live. -/
theorem Dev.unlive_live (d : Dev) (n : Nat) : (d.unlive n).faults.live.testBit n = false := by
  have hset : (d.unlive n).faults.live = setBit d.faults.live n false := by
    rw [Dev.unlive_faults, setBit]
    cases d.faults.live.testBit n <;> rfl
  rw [hset, testBit_setBit_same]

/-- The link, trained to `gen` and `width`. -/
def Dev.linkUp (d : Dev) (gen width : Nat) : Dev := { d with insts := { d.insts with link := 1, linkGen := gen, linkWidth := width, detectHeld := false } }

/-- The link, held in Detect. -/
def Dev.linkHeld (d : Dev) : Dev := { d with insts := { d.insts with link := 0, linkGen := 0, linkWidth := 0, detectHeld := true } }

theorem Dev.fault_raised (d : Dev) (n : Nat) : (d.fault n).Raised n := ⟨_, List.mem_append_right _ List.mem_cons_self, rfl⟩

theorem Dev.faultLive_raised (d : Dev) (n : Nat) : (d.faultLive n).Raised n := ⟨_, List.mem_append_right _ List.mem_cons_self, rfl⟩

theorem Dev.hostTrained_reset {d : Dev} (h : d.aon.perstN = false) (gen width : Nat) : d.hostTrained gen width = d := if_pos (.inl (by simp [h]))

section Train
variable {d : Dev} (hperst : d.aon.perstN = true) (hsup : d.sup = 2) (hpath : d.pathOn uHost = true) (hheld : d.insts.detectHeld = false)
  (hiso : d.isolated uHost = false) (hhalt : d.halted = false) {gen width : Nat}
include hperst hsup hpath hheld hiso hhalt

theorem Dev.hostTrained_held (h : gen < 3 ∨ width < 4) : d.hostTrained gen width = d.linkHeld.fault 13 := by
  rw [Dev.hostTrained, if_neg (by simp [hperst, hsup, hpath, hheld, hiso, hhalt])]
  exact if_pos h

theorem Dev.hostTrained_up (hgen : 3 ≤ gen) (hwidth : 4 ≤ width) : d.hostTrained gen width =
    (if gen < 6 ∨ width < 16 then (d.linkUp gen width).faultLive 14 else (d.linkUp gen width).unlive 14).reissuePages := by
  rw [Dev.hostTrained, if_neg (by simp [hperst, hsup, hpath, hheld, hiso, hhalt])]
  exact if_neg (by omega)

/-- A trained link is up at what it reached; one below full width or speed is a live source, a full one is none. -/
theorem Dev.hostTrained_result (hgen : 3 ≤ gen) (hwidth : 4 ≤ width) : (d.hostTrained gen width).insts.link = 1 ∧ (d.hostTrained gen width).insts.linkGen = gen ∧
    (d.hostTrained gen width).insts.linkWidth = width ∧ (gen < 6 ∨ width < 16 → (d.hostTrained gen width).Raised 14) ∧
    (6 ≤ gen → 16 ≤ width → (d.hostTrained gen width).faultQ = d.faultQ ∧ (d.hostTrained gen width).faults.live.testBit 14 = false) := by
  rw [Dev.hostTrained_up hperst hsup hpath hheld hiso hhalt hgen hwidth]
  split
  next hlow =>
    have hkeep := ((d.linkUp gen width).faultLive 14).reissuePages_keepsLink
    obtain ⟨o, ho, hsrc⟩ := (d.linkUp gen width).faultLive_raised 14
    exact ⟨hkeep.link, hkeep.gen, hkeep.width, fun _ => ⟨o, by rw [hkeep.faultQ]; exact ho, hsrc⟩, fun h h' => by omega⟩
  next hfull =>
    have hkeep := ((d.linkUp gen width).unlive 14).reissuePages_keepsLink
    exact ⟨hkeep.link, hkeep.gen, hkeep.width, fun h => absurd h hfull, fun _ _ => ⟨hkeep.faultQ, by rw [hkeep.faults, Dev.unlive_live]⟩⟩

end Train

/-- The function with MSI-X and Bus Master enabled, and the host port not held. -/
def Dev.hostEnabled (d : Dev) : Dev := { d with insts := { d.insts with msix := true, busMaster := true }, restore := { d.restore with hold := false } }

theorem Dev.hostEnables_rrs {d : Dev} (h : d.rrs = true) : d.hostEnables = d := if_pos h

theorem Dev.hostEnables_releases {d : Dev} (h : d.rrs = false) : d.hostEnables = d.hostEnabled.releaseHost.redoKick.readKick := if_neg (by simp [h])

/-- The device out of PERST_N, its link free to train. -/
def Dev.perstReleased (d : Dev) : Dev :=
  { d with aon := { d.aon with perstN := true }, restore := { d.restore with configRetryOver := false }, insts := { d.insts with detectHeld := false } }

theorem Dev.perstRelease_released {d : Dev} (h : d.aon.perstN = true) : d.perstRelease = d := if_pos h

theorem Dev.perstRelease_releases {d : Dev} (h : d.aon.perstN = false) : d.perstRelease = d.perstReleased.hostReady := if_neg (by simp [h])

end Sys2Proof.Machine
end

section
open Sys2Proof Sys2Proof.Machine

/-- Settles O46: each command by the lemma of what it does to the owner or the link. -/
theorem instanceResetsAndHostLink : Obligations.InstanceResetsAndHostLink := by
  unfold Obligations.InstanceResetsAndHostLink
  rintro s d hp rfl
  refine ⟨fun ht => ⟨fun i hi hi' c hc => ?range, ?zero, fun i hi => ⟨fun h => ?used, fun hst hd => ?create, fun hst => ?free, fun hst hstep => ?joins,
    fun hst hstep => ⟨fun hw => ?fenced, fun hw c b hc => ?waits⟩⟩⟩, fun i hi => ⟨fun hstep => ⟨fun hw => ?waiting, fun hw => ?waited⟩, fun n hn hstep => ?halt,
    fun n k hstep hn => ⟨fun hk hnow => ?drains, fun h => ⟨_, exec_instanceDrainEnd hp hi k, Dev.instDrain_over hstep hn h⟩, fun hpos => ?timeout⟩⟩,
    ⟨fun i hi hst hstep hw => ⟨_, exec_flr hp, ?flr⟩, exec_flr hp, fun hnone => by rw [exec_flr hp, Dev.resetInsts_none hnone]⟩,
    ⟨fun hrrs => ?rrs, fun hrrs => ?enables⟩, fun gen hgen width hwidth => ⟨fun h => ?inReset, fun hperst hsup hpath hheld hiso hhalt => ⟨fun hlow => ?detect,
    fun hg hw => ⟨_, exec_hostLinkTrained hp hgen hwidth, Dev.hostTrained_result hperst hsup hpath hheld hiso hhalt hg hw⟩⟩⟩,
    fun h => ?released, fun h => ?releases⟩
  case range =>
    simp only [List.mem_cons, List.not_mem_nil, or_false] at hc
    rcases hc with rfl | rfl | rfl
    · rw [exec_instanceCreate hp hi']
      exact congrArg (fun e : Dev => Host.Outcome.next (s.leaves e)) (Dev.instanceCommand_range ht.present ht.openNow hp hi hi' (act := 1) (by decide))
    · rw [exec_instanceReset hp hi']
      exact congrArg (fun e : Dev => Host.Outcome.next (s.leaves e)) (Dev.instanceCommand_range ht.present ht.openNow hp hi hi' (act := 2) (by decide))
    · rw [exec_instanceRemove hp hi']
      exact congrArg (fun e : Dev => Host.Outcome.next (s.leaves e)) (Dev.instanceCommand_range ht.present ht.openNow hp hi hi' (act := 3) (by decide))
  case zero => rw [exec_instanceRemove hp (by decide), Dev.instanceRemove_refused ht.present ht.openNow hp (by decide) (.inr rfl)]
  case used => rw [exec_instanceCreate hp (by omega), Dev.instanceCreate_refused ht.present ht.openNow hp hi h]
  case create =>
    refine ⟨(s.dev.created i).accepts oInstanceCommand, by rw [exec_instanceCreate hp (by omega), Dev.instanceCreate_accepted ht.present ht.openNow hi hst hd], ?_, ?_⟩
    · rw [(Dev.accepts_keepsOwner _ _ i).state, Dev.created_state]
    · exact (Dev.accepts_result (by rw [Dev.created_aon]; exact hp) _).1
  case free =>
    rw [exec_instanceReset hp (by omega), exec_instanceRemove hp (by omega), Dev.instanceReset_refused ht.present ht.openNow hp hi hst,
      Dev.instanceRemove_refused ht.present ht.openNow hp hi (.inl hst)]
    exact ⟨rfl, rfl⟩
  case joins =>
    refine ⟨by rw [exec_instanceReset hp (by omega), Dev.instanceReset_accepted ht.present ht.openNow hi hst, Dev.instReset_joins hstep], fun h0 => ?_⟩
    obtain ⟨haon, hrun, hgen, hstate⟩ := Dev.instReset_turned hstep
    have hkeep := (s.dev.instReset i true).accepts_keepsOwner oInstanceCommand i
    refine ⟨_, by rw [exec_instanceRemove hp (by omega), Dev.instanceRemove_accepted ht.present ht.openNow hi hst h0], ?_⟩
    exact ⟨by rw [hkeep.run, hrun], by rw [hkeep.run, hrun], hkeep.gen.trans hgen, hkeep.state.trans hstate, (Dev.accepts_result (by rw [haon]; exact hp) _).1⟩
  case fenced =>
    refine ⟨?_, fun h0 => ?_⟩
    · obtain ⟨hfenced, hctrl, hkind⟩ := Dev.instReset_fenced hstep hw false
      have hkeep := (s.dev.instReset i false).accepts_keepsOwner oInstanceCommand i
      have hdone := hfenced.keeps hkeep
      obtain ⟨hanswers, -, hobjects⟩ := Dev.accepts_result (f := s.dev.instReset i false) (by rw [hfenced.aon]; exact hp) oInstanceCommand
      refine ⟨_, by rw [exec_instanceReset hp (by omega), Dev.instanceReset_accepted ht.present ht.openNow hi hst], hdone.state, hdone.gen, hdone.step, hdone.remove,
        hkeep.ctrl.trans hctrl, (hobjects _ (by decide)).trans hkind, hanswers⟩
    · obtain ⟨hfenced, -⟩ := Dev.instReset_fenced hstep hw true
      have hdone := hfenced.keeps ((s.dev.instReset i true).accepts_keepsOwner oInstanceCommand i)
      exact ⟨_, by rw [exec_instanceRemove hp (by omega), Dev.instanceRemove_accepted ht.present ht.openNow hi hst h0], hdone.state, hdone.gen, hdone.step, hdone.remove,
        (Dev.accepts_result (by rw [hfenced.aon]; exact hp) _).1⟩
  case waits =>
    obtain ⟨haon, hst1, hrem, hstate, hgen⟩ := Dev.instReset_waiting hstep hw b
    have hkeep := (s.dev.instReset i b).accepts_keepsOwner oInstanceCommand i
    have hexec : exec c s = .next (s.leaves ((s.dev.instReset i b).accepts oInstanceCommand)) := by
      rcases hc with ⟨rfl, rfl⟩ | ⟨h0, rfl, rfl⟩
      · rw [exec_instanceReset hp (by omega), Dev.instanceReset_accepted ht.present ht.openNow hi hst]
      · rw [exec_instanceRemove hp (by omega), Dev.instanceRemove_accepted ht.present ht.openNow hi hst h0]
    exact ⟨_, hexec, by rw [hkeep.run, hst1], by rw [hkeep.run, hrem], hkeep.state.trans hstate, hkeep.gen.trans hgen, (Dev.accepts_result (by rw [haon]; exact hp) _).1⟩
  case waiting => rw [exec_fenceWaitEnd hp hi, Dev.fenceWaitEnd_waits hw]
  case waited =>
    have hfenced := s.dev.fence_fenced i (s.dev.irun i).remove
    exact ⟨_, by rw [exec_fenceWaitEnd hp hi, Dev.fenceWaitEnd_fences hstep hw], hfenced.step, hfenced.gen, hfenced.state⟩
  case halt =>
    obtain ⟨f, hf, hfields⟩ := Dev.instHalt_halts hstep hn
    exact ⟨f, by rw [exec_instanceHaltComplete hp hi, hf], hfields⟩
  case drains =>
    refine ⟨_, by rw [exec_instanceDrainEnd hp hi, Dev.instDrain_counts hstep hn hk hnow], ?_, ?_⟩
    · rw [s.dev.drained_irun, hstep]
    · rw [s.dev.drained_count, hn]
  case timeout => exact ⟨_, exec_hostCompletionTimeout hp hi, by rw [hn] at hpos ⊢; exact Dev.hostTimeout_counts hstep hpos⟩
  case flr =>
    obtain ⟨hfenced, hmsix, hmaster⟩ := Dev.flr_fences hi hst hstep hw
    exact ⟨hfenced.state, hfenced.gen, hfenced.step, hfenced.remove, hmsix, hmaster⟩
  case rrs => rw [exec_busMasterEnableSet hp, Dev.hostEnables_rrs hrrs]
  case enables => exact ⟨s.dev.hostEnabled, by rw [exec_busMasterEnableSet hp, Dev.hostEnables_releases hrrs], rfl, rfl, rfl, rfl, rfl⟩
  case inReset => rw [exec_hostLinkTrained hp hgen hwidth, Dev.hostTrained_reset h]
  case detect =>
    exact ⟨_, by rw [exec_hostLinkTrained hp hgen hwidth, Dev.hostTrained_held hperst hsup hpath hheld hiso hhalt hlow], rfl, rfl, s.dev.linkHeld.fault_raised 13⟩
  case released => rw [exec_perstNRelease hp, Dev.perstRelease_released h]
  case releases => exact ⟨s.dev.perstReleased, by rw [exec_perstNRelease hp, Dev.perstRelease_releases h], rfl, rfl, rfl⟩

end

section
/-! PROOFS. Downstream ports (12_downstream_ports.md): presence, training, binding, loss, rebuild, removal and slot power. -/
namespace Sys2Proof.Machine
open Sys2Proof

/-! ### The commands, at a powered device -/

section Commands
variable {s : State} (h : s.Powered)
include h

theorem exec_rebuildComplete {v i : Nat} (hv : v < 4096) (hi : i < 64) : exec (.rebuildComplete v i) s = .next (s.leaves (s.dev.rebuildComplete v i)) :=
  act_if _ s (Dev.rebuildComplete · v i) h (by simp [hv, hi])

theorem exec_powerOn {slot : Nat} (hslot : slot < 128) :
    exec (.powerOn slot) s = .next (s.leaves (s.dev.mgrWrite uDown oPortCommand (4 * 0x100 + slot * 0x10000))) :=
  act_if _ s (Dev.mgrWrite · uDown oPortCommand (4 * 0x100 + slot * 0x10000)) h (by simpa using hslot)

theorem exec_powerOff {slot : Nat} (hslot : slot < 128) :
    exec (.powerOff slot) s = .next (s.leaves (s.dev.mgrWrite uDown oPortCommand (5 * 0x100 + slot * 0x10000))) :=
  act_if _ s (Dev.mgrWrite · uDown oPortCommand (5 * 0x100 + slot * 0x10000)) h (by simpa using hslot)

variable {n : Nat} (hn : n < 64)
include hn

theorem exec_drivePresenceDetect (here : Bool) : exec (.drivePresenceDetect n here) s = .next (s.leaves (s.dev.drivePresence n here)) :=
  act_if _ s (Dev.drivePresence · n here) h (by simpa using hn)

theorem exec_portLinkUp {speed width ds dw : Nat} (hspeed : speed < 256) (hwidth : width < 256) (hds : ds < 256) (hdw : dw < 256) :
    exec (.portLinkUp n speed width ds dw) s = .next (s.leaves (s.dev.portLinkUp n speed width ds dw)) :=
  act_if _ s (Dev.portLinkUp · n speed width ds dw) h (by simp [hn, hspeed, hwidth, hds, hdw])

theorem exec_portTrainTimeout : exec (.portTrainTimeout n) s = .next (s.leaves (s.dev.portTrainTimeout n)) :=
  act_if _ s (Dev.portTrainTimeout · n) h (by simpa using hn)

theorem exec_driveReadyTimeout : exec (.driveReadyTimeout n) s = .next (s.leaves (s.dev.driveReadyTimeout n)) :=
  act_if _ s (Dev.driveReadyTimeout · n) h (by simpa using hn)

theorem exec_driveBind (fits : Bool) (serial : Nat) (vwc : Bool) (ns : List DriveNs) :
    exec (.driveBind n fits serial vwc ns) s = .next (s.leaves (s.dev.driveBind n fits serial vwc ns)) :=
  act_if _ s (Dev.driveBind · n fits serial vwc ns) h (by simpa using hn)

theorem exec_driveLost : exec (.driveLost n) s = .next (s.leaves (s.dev.driveGone n)) := act_if _ s (Dev.driveGone · n) h (by simpa using hn)

theorem exec_portReadyTimeout : exec (.portReadyTimeout n) s = .next (s.leaves (s.dev.portReadyTimeout n)) :=
  act_if _ s (Dev.portReadyTimeout · n) h (by simpa using hn)

theorem exec_prepareRemoveDrainEnd : exec (.prepareRemoveDrainEnd n) s = .next (s.leaves (s.dev.prepareEnd n)) :=
  act_if _ s (Dev.prepareEnd · n) h (by simpa using hn)

theorem exec_rebuild : exec (.rebuild n) s = .next (s.leaves (s.dev.mgrWrite uDown oPortCommand (n + 1 * 0x100))) :=
  act_if _ s (Dev.mgrWrite · uDown oPortCommand (n + 1 * 0x100)) h (by simpa using hn)

theorem exec_prepareRemove (force : Bool) : exec (if force then .prepareRemoveForce n else .prepareRemove n) s =
    .next (s.leaves (s.dev.mgrWrite uDown oPortCommand (n + (if force then 3 else 2) * 0x100))) := by
  cases force
  · exact act_if _ s (Dev.mgrWrite · uDown oPortCommand (n + 2 * 0x100)) h (by simpa using hn)
  · exact act_if _ s (Dev.mgrWrite · uDown oPortCommand (n + 3 * 0x100)) h (by simpa using hn)

end Commands

/-! ### A port after a write of it -/

@[simp] theorem Dev.port_setPort_same (d : Dev) (n : Nat) (p : Port) : (d.setPort n p).port n = p := by simp [Dev.port_setPort]

@[simp] theorem Dev.setPort_dict (d : Dev) (n : Nat) (p : Port) : (d.setPort n p).dict = d.dict := by
  simp only [Dev.setPort]; split <;> simp

@[simp] theorem Dev.setPort_eff (d : Dev) (n : Nat) (p : Port) : (d.setPort n p).eff = d.eff := by
  simp only [Dev.setPort]; split <;> simp

@[simp] theorem Dev.setPort_faultQ (d : Dev) (n : Nat) (p : Port) : (d.setPort n p).faultQ = d.faultQ := by
  simp only [Dev.setPort]; split <;> simp

/-! ### Presence (R282, R286) -/

section Presence
variable {d : Dev} {n : Nat}

theorem Dev.drivePresence_ignored {here : Bool} (h : (d.port n).present = here ∨ d.present (uPort n) = false ∨ (2 ≤ d.vst ∧ d.vst ≤ 6)) :
    d.drivePresence n here = d := if_pos (by rcases h with h | h | h <;> simp [h])

variable (hpres : d.present (uPort n) = true) (hv : d.vst < 2 ∨ 6 < d.vst)
include hpres hv

/-- A change of presence at a port that is there counts outside FREEZE to SEAL. -/
theorem Dev.presence_counts {here : Bool} (hp : (d.port n).present = !here) :
    ¬ (¬ d.present (uPort n) = true ∨ (2 ≤ d.vst ∧ d.vst ≤ 6) ∨ (d.port n).present = here) := by
  rintro (h | h | h)
  · exact h hpres
  · omega
  · simp [hp] at h

/-- A drive that appears begins training, once its port and its slot's power are there. -/
theorem Dev.drivePresence_appears (hp : (d.port n).present = false) (hsup : d.sup = 2) (hpath : d.pathOn (uPort n) = true)
    (hslot : d.g oPackRole = 2 ∨ d.portSlot n = 0xFFFF ∨ d.packSlotState (d.portSlot n) = 2) :
    d.drivePresence n true = d.setPort n { d.port n with present := true, state := 1, speed := 0, width := 0 } := by
  refine (if_neg (Dev.presence_counts hpres hv (by rw [hp]; rfl))).trans ((if_pos rfl).trans (if_neg ?_))
  rintro (h | h | ⟨hrole, hfixed, hoff⟩)
  · exact h hsup
  · exact h hpath
  · exact hslot.elim hrole fun h => h.elim hfixed hoff

/-- A bound drive that goes is lost before its port reads empty. -/
theorem Dev.drivePresence_lost (hp : (d.port n).present = true) (h : (d.port n).state = 2 ∨ (d.port n).again = true) :
    d.drivePresence n false = (d.driveLost n).throughKick.readKick.setPort n
      { (d.driveLost n).throughKick.readKick.port n with present := false, removing := 0, offAfter := none } := by
  refine (if_neg (Dev.presence_counts hpres hv (by rw [hp]; rfl))).trans ((if_neg (by decide)).trans (if_pos ?_))
  rcases h with h | h
  · exact .inl h
  · exact .inr (.inl h)

theorem Dev.drivePresence_gone (hp : (d.port n).present = true) (h2 : (d.port n).state ≠ 2) (ha : (d.port n).again = false) (h5 : (d.port n).state ≠ 5) :
    d.drivePresence n false = d.setPort n { d.port n with present := false, state := 0, removing := 0, speed := 0, width := 0, again := false } :=
  (if_neg (Dev.presence_counts hpres hv (by rw [hp]; rfl))).trans ((if_neg (by decide)).trans (if_neg (by simp [h2, ha, h5])))

end Presence

/-! ### Training and binding (R282 to R284) -/

section Training
variable {d : Dev} {n : Nat}

theorem Dev.portLinkUp_ignored {speed width ds dw : Nat} (h : (d.port n).state ≠ 1 ∨ (d.port n).speed ≠ 0 ∨ d.pathOn (uPort n) = false) :
    d.portLinkUp n speed width ds dw = d := if_pos (by rcases h with h | h | h <;> simp [h])

/-- Port `n` in L0 at `speed` and `width`. -/
def Dev.linkedPort (d : Dev) (n speed width : Nat) : Dev := d.setPort n { d.port n with speed := speed, width := width }

/-- A port in L0 below what it and its drive offer has its source live; at what they offer, not. -/
theorem Dev.portLinkUp_links {speed width : Nat} (hst : (d.port n).state = 1) (h0 : (d.port n).speed = 0) (hpath : d.pathOn (uPort n) = true) (hs : 0 < speed)
    (ds dw : Nat) : d.portLinkUp n speed width ds dw = if speed < min (d.maxSpeed n) ds ∨ width < min (d.groupWidth n) dw
      then (d.linkedPort n speed width).faultLive (400 + n) else (d.linkedPort n speed width).unlive (400 + n) := by
  have hmax : (d.linkedPort n speed width).maxSpeed n = d.maxSpeed n := congrArg (byteOf · _) (Dev.g_of_dict (Dev.setPort_dict ..) _)
  have hwidth : (d.linkedPort n speed width).groupWidth n = d.groupWidth n := by
    rw [Dev.groupWidth, Dev.ge, Dev.linkedPort, Dev.setPort_eff, Dev.groupWidth, Dev.ge]
  rw [← hmax, ← hwidth]
  exact if_neg (by simp [hst, h0, hpath, hs.ne'])

theorem Dev.portLinkUp_result {speed width ds dw : Nat} (hst : (d.port n).state = 1) (h0 : (d.port n).speed = 0) (hpath : d.pathOn (uPort n) = true) (hs : 0 < speed) :
    ((d.portLinkUp n speed width ds dw).port n).speed = speed ∧ ((d.portLinkUp n speed width ds dw).port n).width = width ∧
    ((d.portLinkUp n speed width ds dw).port n).state = 1 ∧ (if speed < min (d.maxSpeed n) ds ∨ width < min (d.groupWidth n) dw
      then (d.portLinkUp n speed width ds dw).Raised (400 + n)
      else (d.portLinkUp n speed width ds dw).faults.live.testBit (400 + n) = false ∧ (d.portLinkUp n speed width ds dw).faultQ = d.faultQ) := by
  have hport : (d.linkedPort n speed width).port n = { d.port n with speed := speed, width := width } := d.port_setPort_same n _
  rw [Dev.portLinkUp_links hst h0 hpath hs]
  split
  · have hkeep : ((d.linkedPort n speed width).faultLive (400 + n)).port n = (d.linkedPort n speed width).port n := rfl
    rw [hkeep, hport]
    exact ⟨rfl, rfl, hst, Dev.faultLive_raised _ _⟩
  · have hkeep : ((d.linkedPort n speed width).unlive (400 + n)).port n = (d.linkedPort n speed width).port n := rfl
    rw [hkeep, hport]
    exact ⟨rfl, rfl, hst, Dev.unlive_live _ _, by rw [Dev.unlive_faultQ, Dev.linkedPort, Dev.setPort_faultQ]⟩

/-- A port that reaches no L0 reads DOWN, and raises its source. -/
theorem Dev.portTrainTimeout_down (h : (d.port n).state = 1 ∧ (d.port n).speed = 0 ∧ (d.port n).present = true) :
    ((d.portTrainTimeout n).port n).state = 4 ∧ (d.portTrainTimeout n).Raised (336 + n) := by
  rw [show d.portTrainTimeout n = (d.setPort n { d.port n with state := 4 }).fault (336 + n) from if_pos h]
  refine ⟨?_, Dev.fault_raised _ _⟩
  change ((d.setPort n { d.port n with state := 4 }).port n).state = 4
  rw [Dev.port_setPort_same]

/-- A port whose drive is not ready reads DOWN, and raises no source. -/
theorem Dev.driveReadyTimeout_down (h : (d.port n).state = 1 ∧ (d.port n).speed ≠ 0) : ((d.driveReadyTimeout n).port n).state = 4 ∧
    ((d.driveReadyTimeout n).port n).speed = 0 ∧ (d.driveReadyTimeout n).faultQ = d.faultQ := by
  rw [show d.driveReadyTimeout n = d.setPort n { d.port n with state := 4, speed := 0, width := 0 } from if_pos h]
  simp

theorem Dev.driveBind_ignored (h : (d.port n).state ≠ 1 ∨ (d.port n).speed = 0) (fits : Bool) (serial : Nat) (vwc : Bool) (ns : List DriveNs) :
    d.driveBind n fits serial vwc ns = d := if_pos h

/-- Port `n` BOUND to a drive. -/
def Dev.boundPort (d : Dev) (n serial : Nat) (vwc : Bool) (ns : List DriveNs) : Dev :=
  d.setPort n { d.port n with state := 2, serial := serial % 2 ^ 160, vwc := vwc, again := false, ns := ns.filter fun x => x.lba = 512 ∨ x.lba = 4096 }

/-- The members on port `n` whose extent its drive does not hold, MISSING. -/
def Dev.extentsChecked (d : Dev) (n : Nat) : Dev :=
  (d.membersOn n).foldl (fun d m => if xState (d.vol m.1) m.2 ≠ 1 ∧ d.extentOk m.1 m.2 = false then d.setMember m.1 m.2 1 else d) d

variable (hst : (d.port n).state = 1) (hs : (d.port n).speed ≠ 0)
include hst hs

theorem Dev.driveBind_unfit (serial : Nat) (vwc : Bool) (ns : List DriveNs) : d.driveBind n false serial vwc ns = d.setPort n { d.port n with state := 3 } :=
  (if_neg (by simp [hst, hs])).trans (if_pos (by decide))

theorem Dev.driveBind_binds (serial : Nat) (vwc : Bool) (ns : List DriveNs) :
    d.driveBind n true serial vwc ns = ((d.boundPort n serial vwc ns).extentsChecked n).rebuildStop.throughKick.readKick := by
  unfold Dev.extentsChecked
  simp only [← Bool.not_eq_true]
  exact (if_neg (by simp [hst, hs])).trans (if_neg (by decide))

end Training

/-! ### Loss (R286) -/

section Loss
variable {d : Dev} {n : Nat}

theorem Dev.driveGone_ignored (h2 : (d.port n).state ≠ 2) (h5 : (d.port n).state ≠ 5) : d.driveGone n = d := if_neg (by simp [h2, h5])

theorem Dev.driveGone_loses (h2 : (d.port n).state = 2) (hpath : d.pathOn (uPort n) = true) :
    d.driveGone n = (d.driveLost n).throughKick.readKick.setPort n { (d.driveLost n).throughKick.readKick.port n with removing := 0, offAfter := none } :=
  if_pos ⟨hpath, .inl h2⟩

end Loss

/-! ### A write of PortCommand (R290) -/

/-- The row of PortCommand. -/
def portCommandRow : ObjRow := ⟨oPortCommand, 10, 4, 1, 1, 2, 2, 0, 0, false, 3, none, false⟩

/-- The downstream complex is the only unit with objects of its own location. -/
theorem down_of_upOrder : (upOrder uDown).filter (locAt 3) = [uDown] := by decide +kernel

theorem Dev.present_down (d : Dev) : d.present uDown = true := rfl

/-- A write of PortCommand passes. -/
theorem Dev.portCommand_passes (d : Dev) (v : Nat) : d.Passes portCommandRow uDown oPortCommand v where
  isRow := by decide +kernel
  present := d.present_down
  holds := rfl
  ok := rfl
  pre := rfl
  named := by
    have hloc : portCommandRow.loc = 3 := rfl
    rw [Dev.namedUnits, if_pos (by decide), hloc, ← List.filter_filter, down_of_upOrder]
    simp [d.present_down]
  notCursor := by decide

theorem Dev.applyOne_portCommand (d : Dev) (sid v : Nat) : d.applyOne sid uDown oPortCommand v = d.fxPortCommand v := rfl

/-- The parts of a command value: the port, the act and the slot. -/
theorem portCommand_fields {n act slot : Nat} (hn : n < 256) (hact : act < 256) (hslot : slot < 65536) :
    byteOf (n + act * 0x100 + slot * 0x10000) 0 = n ∧ byteOf (n + act * 0x100 + slot * 0x10000) 1 = act ∧ fieldOf (n + act * 0x100 + slot * 0x10000) 2 2 = slot := by
  simp only [fieldOf, byteOf]
  omega

section PortCommand
variable {d : Dev}

/-- A command to a port. -/
theorem Dev.fxPortCommand_port {n act : Nat} (hn : n < 64) (hpos : 0 < act) (hact : act ≤ 3) : d.fxPortCommand (n + act * 0x100) =
    if d.present (uPort n) = false then notPresent d else if act = 1 then d.cmdRebuild n else d.cmdPrepare n (decide (act = 3)) := by
  obtain ⟨hport, hdo, hslot⟩ := portCommand_fields (n := n) (act := act) (slot := 0) (by omega) (by omega) (by decide)
  simp only [Nat.zero_mul, Nat.add_zero] at hport hdo hslot
  rw [Dev.fxPortCommand, hport, hdo, hslot]
  refine (if_neg (by omega)).trans ((if_pos hact).trans ((if_neg (by decide)).trans ?_))
  simp

theorem Dev.fxPortCommand_rebuild {n : Nat} (hn : n < 64) (hpres : d.present (uPort n) = true) : d.fxPortCommand (n + 1 * 0x100) = d.cmdRebuild n :=
  (Dev.fxPortCommand_port hn (by decide) (by decide)).trans ((if_neg (by simp [hpres])).trans (if_pos rfl))

theorem Dev.fxPortCommand_prepare {n : Nat} (hn : n < 64) (hpres : d.present (uPort n) = true) (force : Bool) :
    d.fxPortCommand (n + (if force then 3 else 2) * 0x100) = d.cmdPrepare n force := by
  rw [Dev.fxPortCommand_port hn (by cases force <;> decide) (by cases force <;> decide), if_neg (by simp [hpres]), if_neg (by cases force <;> decide)]
  cases force <;> rfl

/-- A command to a slot. -/
theorem Dev.fxPortCommand_slot {slot : Nat} (hslot : slot < 128) (act : Nat) (hact : act = 4 ∨ act = 5) :
    d.fxPortCommand (act * 0x100 + slot * 0x10000) = if act = 4 then d.cmdPowerOn slot else d.cmdPowerOff slot := by
  obtain ⟨hport, hdo, hs⟩ := portCommand_fields (n := 0) (act := act) (slot := slot) (by decide) (by omega) (by omega)
  rw [Nat.zero_add] at hport hdo hs
  rw [Dev.fxPortCommand, hport, hdo, hs]
  exact (if_neg (by omega)).trans ((if_neg (by omega)).trans (if_neg (by omega)))

variable (hs : d.supAway = false) (hc : d.writesClosed = false)
include hs hc

theorem Dev.portCommand_accepted {v : Nat} {f : Dev} (h : d.fxPortCommand v = okR f) : d.mgrWrite uDown oPortCommand v = f.accepts oPortCommand :=
  (d.portCommand_passes v).accepted hs hc ((d.applyOne_portCommand 0xFF v).trans h)

theorem Dev.portCommand_refused (hp : d.aon.auxUp = true) {v st x : Nat} (hst : st ≠ 0) (h : d.fxPortCommand v = { st := st, unit := x, d := d }) :
    d.mgrWrite uDown oPortCommand v = d.refuses st x :=
  (d.portCommand_passes v).refused hs hc hp hst ((d.applyOne_portCommand 0xFF v).trans h)

end PortCommand

/-! ### REBUILD (R289) -/

section Rebuild
variable {d : Dev} {n : Nat}

/-- The members on port `n` that are MISSING. -/
def Dev.missingOn (d : Dev) (n : Nat) : List (Nat × Nat) := (d.membersOn n).filter fun m => xState (d.vol m.1) m.2 = 1

theorem Dev.cmdRebuild_refused (h : (d.port n).state ≠ 2 ∨ ∃ m ∈ d.missingOn n, d.extentOk m.1 m.2 = false) : d.cmdRebuild n = conflict d uDown := by
  refine if_pos (h.imp_right ?_)
  rintro ⟨m, hm, hext⟩ hall
  exact Bool.false_ne_true (hext.symm.trans (List.all_eq_true.1 hall m hm))

theorem Dev.cmdRebuild_ok (hst : (d.port n).state = 2) (hall : ∀ m ∈ d.missingOn n, d.extentOk m.1 m.2 = true) :
    d.cmdRebuild n = okR (((d.missingOn n).foldl (fun d m => d.rebuildMember m.1 m.2) d).throughKick.readKick) :=
  if_neg fun h => h.elim (· hst) (· (List.all_eq_true.2 hall))

/-- The rebuild of member `i` of volume `v` is under way. -/
def Dev.rebuilding (d : Dev) (v i : Nat) : Dev := { d with ports := { d.ports with rebuilds := d.ports.rebuilds ++ [(⟨v, i, 0⟩ : Rebuild)] } }

theorem Dev.rebuildMember_stripe {v : Nat} (h : vLayout (d.vol v) = 1) (i : Nat) : d.rebuildMember v i = d.setMember v i 0 := if_pos h

theorem Dev.rebuildMember_other {v : Nat} (h : vLayout (d.vol v) ≠ 1) (i : Nat) : d.rebuildMember v i = (d.rebuilding v i).setMember v i 2 := if_neg h

/-- The rebuild of member `i` of volume `v` is over, its last block on its way to the drive. -/
def Dev.rebuilt (d : Dev) (v i : Nat) : Dev :=
  ({ d with ports := { d.ports with rebuilds := d.ports.rebuilds.filter fun r => ¬ (r.vol = v ∧ r.pos = i) } } : Dev).emit .drive
    [xPort (d.vol v) i, xNsid (d.vol v) i, 0x01, xLba (d.vol v) i, extentBlocks (d.vol v) * d.spb v i, 6]

theorem Dev.rebuildComplete_eq (d : Dev) (v i : Nat) : d.rebuildComplete v i =
    if (∃ r ∈ d.ports.rebuilds, r.vol = v ∧ r.pos = i) ∧ d.memberBound v i = true then (d.rebuilt v i).setMember v i 0 else d := by
  refine if_congr ?_ rfl rfl
  simp [List.any_eq_true]

theorem Dev.rebuilt_ends {v i : Nat} {r : Rebuild} (hr : r ∈ (d.rebuilt v i).ports.rebuilds) (hv : r.vol = v) : r.pos ≠ i := by
  have hkept := (List.mem_filter.1 hr).2
  simpa [hv] using hkept

end Rebuild

/-! ### PREPARE_REMOVE (R290) -/

section Prepare
variable {d : Dev} {n : Nat}

theorem Dev.cmdPrepare_refused (h : d.wouldFail n = true) : d.cmdPrepare n false = conflict d uDown := if_pos ⟨by decide, h⟩

theorem Dev.cmdPrepare_idle {force : Bool} (hok : force = true ∨ d.wouldFail n = false) (h : (d.port n).state = 0 ∨ (d.port n).state = 5) :
    d.cmdPrepare n force = okR d := (if_neg (by rcases hok with hok | hok <;> simp [hok])).trans (if_pos h)

theorem Dev.cmdPrepare_removes {force : Bool} (hok : force = true ∨ d.wouldFail n = false) (h0 : (d.port n).state ≠ 0) (h5 : (d.port n).state ≠ 5) :
    d.cmdPrepare n force = okR (d.setPort n { d.port n with state := 5, removing := 1 }) :=
  (if_neg (by rcases hok with hok | hok <;> simp [hok])).trans (if_neg (by simp [h0, h5]))

/-- Port `n` REMOVING with its link disabled, its members MISSING. -/
def Dev.linkDisabled (d : Dev) (n : Nat) : Dev :=
  (d.driveLost n 5 false).throughKick.readKick.setPort n { (d.driveLost n 5 false).throughKick.readKick.port n with removing := 2, offAfter := none }

/-- A slot that was to be switched off is requested once the link is disabled. -/
theorem Dev.prepareEnd_ends (h : (d.port n).state = 5 ∧ (d.port n).removing = 1 ∧ d.inVault = false) : d.prepareEnd n =
    match (d.port n).offAfter with | some slot => (d.linkDisabled n).slotRequest slot 2 true | none => d.linkDisabled n :=
  if_pos (by simp [h])

theorem Dev.prepareEnd_ignored (h : ¬ ((d.port n).state = 5 ∧ (d.port n).removing = 1 ∧ d.inVault = false)) : d.prepareEnd n = d :=
  if_neg (by simpa using h)

end Prepare

/-! ### Slot power (R291) -/

section Slots
variable {d : Dev}

theorem Dev.cmdPower_member (h : d.g oPackRole ≠ 1) (slot : Nat) : d.cmdPowerOn slot = conflict d uDown ∧ d.cmdPowerOff slot = conflict d uDown :=
  ⟨if_pos h, if_pos h⟩

theorem Dev.cmdPowerOn_master (h : d.g oPackRole = 1) (slot : Nat) : d.cmdPowerOn slot = okR (d.slotRequest slot 1 true) := if_neg (by simp [h])

/-- A slot with no BOUND port is switched off at once. -/
theorem Dev.cmdPowerOff_master (h : d.g oPackRole = 1) {slot : Nat} (hfree : ∀ m < 64, d.portSlot m = slot → (d.port m).state ≠ 2) :
    d.cmdPowerOff slot = okR (d.slotRequest slot 2 true) := by
  have hnone : ((List.range 64).find? fun n => d.portSlot n = slot ∧ (d.port n).state = 2 ∧ d.present (uPort n)) = none := by
    refine List.find?_eq_none.2 fun m hm => ?_
    have hm' := hfree m (List.mem_range.1 hm)
    simp only [decide_eq_true_eq]
    exact fun hbound => hm' hbound.1 hbound.2.1
  rw [Dev.cmdPowerOff, hnone]
  exact if_neg (by simp [h])

theorem Dev.accepts_pack (f : Dev) (o : Nat) : (f.accepts o).pack = f.pack := by
  unfold Dev.accepts
  split <;> rfl

/-- A request that is accepted waits at the master behind those that came before. -/
theorem Dev.slotRequest_accepts (h : d.aon.auxUp = true) (slot act o : Nat) : ((d.slotRequest slot act true).accepts o).pack.slotReqs =
    d.pack.slotReqs ++ [⟨slot, act, true, 0, 0⟩] ∧ ((d.slotRequest slot act true).accepts o).Answers 4 0 0xFFFF :=
  ⟨by rw [Dev.accepts_pack]; rfl, (Dev.accepts_result (f := d.slotRequest slot act true) h o).1⟩

end Slots

end Sys2Proof.Machine
end

section
open Sys2Proof Sys2Proof.Machine

/-- Settles O57: each command by the lemma of what it does to its port, its members or its slot. -/
theorem downstreamPortsFollowTheirRules : Obligations.DownstreamPortsFollowTheirRules := by
  unfold Obligations.DownstreamPortsFollowTheirRules
  rintro s _ n _ hp rfl hn rfl
  refine ⟨⟨fun h => ?ignored, fun hp0 hpres hv hsup hpath hslot => ?appears, fun hp1 hpres hv => ⟨fun h => ?surprise, fun h2 ha h5 => ?gone⟩⟩,
    fun speed width ds dw hpos hspeed hwidth hds hdw => ⟨fun h => ?noLink, fun hst h0 hpath => ?link⟩, ?trainTimeout, ?readyTimeout,
    fun fits serial vwc ns => ⟨fun h => ?noBind, fun hst hs => ⟨?unfit, ?binds⟩⟩, fun h2 h5 => ?notLost, fun h2 hpath => ?lost, ?portReady,
    fun ht => ⟨fun hpres c hc => ?notPresent, fun hpres l hl => ⟨fun h => ?rebuildRefused, fun hst hall => ⟨fun hnil => ?rebuildNone, fun v i hone => ?rebuildOne⟩⟩,
      fun hpres => ⟨fun hfail => ?prepareRefused, fun c hc hok => ?prepare⟩⟩, ?drainEnd, fun v hv i hi => ?rebuildComplete,
    fun ht slot hslot => ⟨fun hrole => ?powerRefused, fun hrole => ⟨?powerOn, fun hfree => ?powerOff⟩⟩⟩
  case ignored => rw [exec_drivePresenceDetect hp hn, Dev.drivePresence_ignored h]
  case appears => rw [exec_drivePresenceDetect hp hn, Dev.drivePresence_appears hpres hv hp0 hsup hpath hslot]
  case surprise =>
    have hlost := Dev.drivePresence_lost hpres hv hp1 h
    exact ⟨_, exec_drivePresenceDetect hp hn false, by rw [hlost, Dev.port_setPort_same], by rw [hlost, Dev.port_setPort_same]⟩
  case gone => rw [exec_drivePresenceDetect hp hn, Dev.drivePresence_gone hpres hv hp1 h2 ha h5]
  case noLink => rw [exec_portLinkUp hp hn hspeed hwidth hds hdw, Dev.portLinkUp_ignored h]
  case link => exact ⟨_, exec_portLinkUp hp hn hspeed hwidth hds hdw, Dev.portLinkUp_result hst h0 hpath hpos⟩
  case trainTimeout =>
    split
    next h => exact ⟨_, exec_portTrainTimeout hp hn, Dev.portTrainTimeout_down h⟩
    next h => rw [exec_portTrainTimeout hp hn, Dev.portTrainTimeout, if_neg h]
  case readyTimeout =>
    split
    next h => exact ⟨_, exec_driveReadyTimeout hp hn, Dev.driveReadyTimeout_down h⟩
    next h => rw [exec_driveReadyTimeout hp hn, Dev.driveReadyTimeout, if_neg h]
  case noBind => rw [exec_driveBind hp hn, Dev.driveBind_ignored h]
  case unfit => rw [exec_driveBind hp hn, Dev.driveBind_unfit hst hs]
  case binds =>
    have hport : (s.dev.boundPort n serial vwc ns).port n = _ := s.dev.port_setPort_same n _
    exact ⟨s.dev.boundPort n serial vwc ns, (s.dev.boundPort n serial vwc ns).extentsChecked n, by rw [exec_driveBind hp hn, Dev.driveBind_binds hst hs],
      by rw [hport], by rw [hport], by rw [hport], rfl⟩
  case notLost => rw [exec_driveLost hp hn, Dev.driveGone_ignored h2 h5]
  case lost => exact ⟨_, rfl, by rw [exec_driveLost hp hn, Dev.driveGone_loses h2 hpath]⟩
  case portReady =>
    split
    next h => rw [exec_portReadyTimeout hp hn, Dev.portReadyTimeout, if_pos h]
    next h => rw [exec_portReadyTimeout hp hn, Dev.portReadyTimeout, if_neg h]
  case notPresent =>
    have hnone : ∀ {act : Nat}, 0 < act → act ≤ 3 → s.dev.mgrWrite uDown oPortCommand (n + act * 0x100) = s.dev.refuses 1 0xFFFF := fun hpos hact =>
      Dev.portCommand_refused ht.present ht.openNow hp (by decide) ((Dev.fxPortCommand_port hn hpos hact).trans (if_pos hpres))
    simp only [List.mem_cons, List.not_mem_nil, or_false] at hc
    rcases hc with rfl | rfl | rfl
    · rw [exec_rebuild hp hn, hnone (by decide) (by decide)]
    · rw [← hnone (act := 2) (by decide) (by decide)]; exact exec_prepareRemove hp hn false
    · rw [← hnone (act := 3) (by decide) (by decide)]; exact exec_prepareRemove hp hn true
  case rebuildRefused =>
    subst hl
    rw [exec_rebuild hp hn, Dev.portCommand_refused ht.present ht.openNow hp (by decide) ((Dev.fxPortCommand_rebuild hn hpres).trans (Dev.cmdRebuild_refused h))]
  case rebuildNone =>
    subst hl
    rw [exec_rebuild hp hn, Dev.portCommand_accepted ht.present ht.openNow ((Dev.fxPortCommand_rebuild hn hpres).trans (Dev.cmdRebuild_ok hst hall)), show s.dev.missingOn n = [] from hnil]
    rfl
  case rebuildOne =>
    subst hl
    have hexec : exec (.rebuild n) s = .next (s.leaves ((s.dev.rebuildMember v i).throughKick.readKick.accepts oPortCommand)) := by
      rw [exec_rebuild hp hn, Dev.portCommand_accepted ht.present ht.openNow ((Dev.fxPortCommand_rebuild hn hpres).trans (Dev.cmdRebuild_ok hst hall)), show s.dev.missingOn n = [(v, i)] from hone]
      rfl
    exact ⟨fun hstripe => by rw [hexec, Dev.rebuildMember_stripe hstripe],
      fun hother => ⟨s.dev.rebuilding v i, by rw [hexec, Dev.rebuildMember_other hother], rfl, rfl⟩⟩
  case prepareRefused =>
    rw [← Dev.portCommand_refused ht.present ht.openNow hp (by decide) ((Dev.fxPortCommand_prepare hn hpres false).trans (Dev.cmdPrepare_refused hfail))]
    exact exec_prepareRemove hp hn false
  case prepare =>
    obtain ⟨force, rfl, hallowed⟩ : ∃ force, c = (if force then .prepareRemoveForce n else .prepareRemove n) ∧ (force = true ∨ s.dev.wouldFail n = false) := by
      simp only [List.mem_cons, List.not_mem_nil, or_false] at hc
      rcases hc with rfl | rfl
      · exact ⟨false, rfl, .inr (hok.resolve_left (by simp))⟩
      · exact ⟨true, rfl, .inl rfl⟩
    refine ⟨fun h => ?_, fun h0 h5 => ?_⟩
    · rw [exec_prepareRemove hp hn force,
        Dev.portCommand_accepted ht.present ht.openNow ((Dev.fxPortCommand_prepare hn hpres force).trans (Dev.cmdPrepare_idle hallowed h))]
    · rw [exec_prepareRemove hp hn force,
        Dev.portCommand_accepted ht.present ht.openNow ((Dev.fxPortCommand_prepare hn hpres force).trans (Dev.cmdPrepare_removes hallowed h0 h5))]
  case drainEnd =>
    split
    next h =>
      exact ⟨_, rfl, s.dev.linkDisabled n, rfl,
        (exec_prepareRemoveDrainEnd hp hn).trans (congrArg (fun e : Dev => Host.Outcome.next (s.leaves e)) (Dev.prepareEnd_ends h))⟩
    next h => rw [exec_prepareRemoveDrainEnd hp hn, Dev.prepareEnd_ignored h]
  case rebuildComplete =>
    rw [exec_rebuildComplete hp hv hi, Dev.rebuildComplete_eq]
    split
    next h => exact ⟨s.dev.rebuilt v i, rfl, rfl, fun r hr => Dev.rebuilt_ends hr⟩
    next h => rfl
  case powerRefused =>
    obtain ⟨hon, hoff⟩ := Dev.cmdPower_member hrole slot
    rw [exec_powerOn hp hslot, exec_powerOff hp hslot,
      Dev.portCommand_refused ht.present ht.openNow hp (by decide) ((Dev.fxPortCommand_slot hslot 4 (.inl rfl)).trans hon),
      Dev.portCommand_refused ht.present ht.openNow hp (by decide) ((Dev.fxPortCommand_slot hslot 5 (.inr rfl)).trans hoff)]
    exact ⟨rfl, rfl⟩
  case powerOn =>
    have hdone := Dev.portCommand_accepted ht.present ht.openNow ((Dev.fxPortCommand_slot hslot 4 (.inl rfl)).trans (Dev.cmdPowerOn_master hrole slot))
    exact ⟨_, by rw [exec_powerOn hp hslot, hdone], Dev.slotRequest_accepts hp slot 1 oPortCommand⟩
  case powerOff =>
    have hdone := Dev.portCommand_accepted ht.present ht.openNow ((Dev.fxPortCommand_slot hslot 5 (.inr rfl)).trans (Dev.cmdPowerOff_master hrole hfree))
    exact ⟨_, by rw [exec_powerOff hp hslot, hdone], Dev.slotRequest_accepts hp slot 2 oPortCommand⟩

end

section
/-! PROOFS. The Leash (07_pack_and_leash.md): the commands of the Pack, the objects of mastership, frames, and what a member does with them. -/
namespace Sys2Proof.Machine
open Sys2Proof

/-! ### The commands, at a powered device -/

section Commands
variable {s : State} (h : s.Powered)
include h

theorem exec_leashCycle : exec .leashCycle s = .next (s.leaves s.dev.leashCycle) := act_on s Dev.leashCycle h

theorem exec_pollMissed {n : Nat} (hn : n < 16) : exec (.pollMissed n) s = .next (s.leaves (s.dev.pollMissed n)) :=
  act_if _ s (Dev.pollMissed · n) h (by simpa using hn)

theorem exec_forwardTimeout {id : Nat} (hid : id < 256) : exec (.forwardTimeout id) s = .next (s.leaves (s.dev.forwardTimeout id)) :=
  act_if _ s (Dev.forwardTimeout · id) h (by simpa using hid)

theorem exec_mastershipTakeover : exec .mastershipTakeover s = .next (s.leaves s.dev.takeover) := act_on s Dev.takeover h

theorem exec_grantExpire : exec .grantExpire s = .next (s.leaves s.dev.grantExpire) := act_on s Dev.grantExpire h

theorem exec_budgetCompute : exec .budgetCompute s = .next (s.leaves s.dev.budget) := act_on s Dev.budget h

theorem exec_absentHoldExpire {n : Nat} (hn : n < 16) : exec (.absentHoldExpire n) s = .next (s.leaves (s.dev.absentExpire n)) :=
  act_if _ s (Dev.absentExpire · n) h (by simpa using hn)

theorem exec_waveStart : exec .waveStart s = .next (s.leaves s.dev.waveStart) := act_on s Dev.waveStart h

theorem exec_slotCmdSend : exec .slotCmdSend s = .next (s.leaves s.dev.slotSend) := act_on s Dev.slotSend h

theorem exec_packResetMember {v : Nat} (hv : v < 256) : exec (.packResetMember v) s = .next (s.leaves (s.dev.mgrWrite uChip oPackResetMember v)) :=
  act_if _ s (Dev.mgrWrite · uChip oPackResetMember v) h (by simpa using hv)

variable {f : List Byte} (hf : f.length ≤ 263)
include hf

theorem exec_beacon : exec (.beacon f) s = .next (s.leaves (s.dev.rxBeacon f)) := act_if _ s (Dev.rxBeacon · f) h (by simpa using hf)

theorem exec_poll : exec (.poll f) s = .next (s.leaves (s.dev.rxPoll f)) := act_if _ s (Dev.rxPoll · f) h (by simpa using hf)

theorem exec_status : exec (.status f) s = .next (s.leaves (s.dev.rxStatus f)) := act_if _ s (Dev.rxStatus · f) h (by simpa using hf)

theorem exec_grant : exec (.grant f) s = .next (s.leaves (s.dev.rxGrant f)) := act_if _ s (Dev.rxGrant · f) h (by simpa using hf)

theorem exec_slotAck : exec (.slotAck f) s = .next (s.leaves (s.dev.rxSlotAck f)) := act_if _ s (Dev.rxSlotAck · f) h (by simpa using hf)

theorem exec_leashReset : exec (.leashReset f) s = .next (s.leaves (s.dev.rxReset f)) := act_if _ s (Dev.rxReset · f) h (by simpa using hf)

theorem exec_dictReq : exec (.dictReq f) s = .next (s.leaves (s.dev.rxDictReq f)) := act_if _ s (Dev.rxDictReq · f) h (by simpa using hf)

theorem exec_dictRsp : exec (.dictRsp f) s = .next (s.leaves (s.dev.rxDictRsp f)) := act_if _ s (Dev.rxDictRsp · f) h (by simpa using hf)

/-- Every command of a frame is the arrival of its frame. -/
theorem exec_frame {c : Instr} {typ : Nat} {cast : Bool} (hc : (c, typ, cast) ∈ ([(.beacon f, 1, true), (.poll f, 2, false), (.status f, 3, false),
    (.grant f, 4, false), (.slotAck f, 6, false), (.leashReset f, 7, false), (.dictReq f, 8, false), (.dictRsp f, 9, false)] : List (Instr × Nat × Bool))) :
    ∃ k, exec c s = .next (s.leaves (s.dev.onFrame typ f cast k)) := by
  simp only [List.mem_cons, List.not_mem_nil, or_false, Prod.mk.injEq] at hc
  rcases hc with ⟨rfl, rfl, rfl⟩ | ⟨rfl, rfl, rfl⟩ | ⟨rfl, rfl, rfl⟩ | ⟨rfl, rfl, rfl⟩ | ⟨rfl, rfl, rfl⟩ | ⟨rfl, rfl, rfl⟩ | ⟨rfl, rfl, rfl⟩ | ⟨rfl, rfl, rfl⟩
  · exact ⟨_, exec_beacon h hf⟩
  · exact ⟨_, exec_poll h hf⟩
  · exact ⟨_, exec_status h hf⟩
  · exact ⟨_, exec_grant h hf⟩
  · exact ⟨_, exec_slotAck h hf⟩
  · exact ⟨_, exec_leashReset h hf⟩
  · exact ⟨_, exec_dictReq h hf⟩
  · exact ⟨_, exec_dictRsp h hf⟩

end Commands

/-! ### The objects and nodes of the Pack after a write -/

/-- Another object after a write of one of the chip's. -/
theorem Dev.g_s_chip (d : Dev) {o o' : Nat} (v : Nat) (hu : homeOf o = uChip) (ho : o < 0x1000000) (h : o' ≠ o) : (d.s o v).g o' = d.g o' :=
  Dev.g_s_ne d o o' v (dkey_ne_of_chip hu ho h)

@[simp] theorem Dev.g_setPack (d : Dev) (p : Pack) (o : Nat) : (d.setPack p).g o = d.g o := rfl

@[simp] theorem Dev.g_setNode (d : Dev) (n : Nat) (x : Node) (o : Nat) : (d.setNode n x).g o = d.g o := rfl

theorem Dev.node_congr {d e : Dev} (h : e.pack.nodes = d.pack.nodes) (n : Nat) : e.node n = d.node n := by rw [Dev.node, h, Dev.node]

theorem Dev.node_setNode (d : Dev) (n m : Nat) (x : Node) : (d.setNode n x).node m = if m = n then x else d.node m := by
  simp [Dev.node, Dev.setNode, storeGet_set]

@[simp] theorem Dev.node_setNode_same (d : Dev) (n : Nat) (x : Node) : (d.setNode n x).node n = x := by simp [Dev.node_setNode]

/-- The roster is what it was set to; of the rest of the device a change is put before the recorder. -/
@[simp] theorem Dev.setRoster_roster (d : Dev) (r : Nat) : (d.setRoster r).g oRoster = r := by
  unfold Dev.setRoster
  dsimp only
  split
  next h => exact h
  next => simp

theorem Dev.setRoster_g (d : Dev) (r : Nat) {o : Nat} (h : o ≠ oRoster) : (d.setRoster r).g o = d.g o := by
  unfold Dev.setRoster
  dsimp only
  split
  · rfl
  · rw [Dev.g_record, Dev.g_s_chip _ _ (by decide) (by decide) h]

@[simp] theorem Dev.setRoster_pack (d : Dev) (r : Nat) : (d.setRoster r).pack = d.pack := by
  unfold Dev.setRoster
  dsimp only
  split
  · rfl
  · simp

@[simp] theorem Dev.setMaster_master (d : Dev) (m : Nat) : (d.setMaster m).g oMasterAddress = m := by
  unfold Dev.setMaster
  dsimp only
  split
  next h => exact h
  next =>
    have hcount : ∀ e : Dev, (e.inc oTakeovers 16).g oMasterAddress = e.g oMasterAddress := fun e =>
      Dev.g_s_chip e _ (o := oTakeovers) (by decide) (by decide) (by decide)
    rw [Dev.g_record, hcount, Dev.g_s_same]

theorem Dev.setMaster_g (d : Dev) (m : Nat) {o : Nat} (h : o ≠ oMasterAddress) (h' : o ≠ oTakeovers) : (d.setMaster m).g o = d.g o := by
  unfold Dev.setMaster
  dsimp only
  split
  · rfl
  · have hcount : ∀ e : Dev, (e.inc oTakeovers 16).g o = e.g o := fun e => Dev.g_s_chip e _ (o := oTakeovers) (by decide) (by decide) h'
    rw [Dev.g_record, hcount, Dev.g_s_chip _ _ (by decide) (by decide) h]

/-! ### Frames (R158, R159) -/

section Frame
variable {d : Dev} {typ : Nat} {f : List Byte} {cast : Bool} {k : Dev → Dev}

theorem Dev.onFrame_idle (h : d.aon.lshEn = false) : d.onFrame typ f cast k = d := if_pos (by simp [h])

variable (h : d.aon.lshEn = true)
include h

theorem Dev.onFrame_wrong (hok : d.frameOk typ f cast = false) : d.onFrame typ f cast k = d.inc oLeashErrors :=
  (if_neg (by simp [h])).trans (if_neg (by simp [hok]))

theorem Dev.onFrame_right (hok : d.frameOk typ f cast = true) : d.onFrame typ f cast k = k d := (if_neg (by simp [h])).trans (if_pos hok)

end Frame

/-! ### BEACON, POLL, GRANT and RESET (R161 to R170, R175) -/

/-- A member of the master that sent the BEACON `f`, with what the BEACON says. -/
def Dev.beaconTaken (d : Dev) (f : List Byte) : Dev :=
  let p := framePay f
  let d := ((((d.s oPackRole 2).setMaster (frameAtByte f 3)).setRoster (p 2 2)).s oOpVersion (p 0 1))
  d.setPack { d.pack with
    beaconTick := some d.now, cycle := p 4 4, budgetSeq := p 8 2, waveDone := p 10 1, packVault := bit (p 1 1) 1, vFloor := p 12 2, effP := p 14 2,
    capUsed := p 16 4, esr := p 20 4, capAge := p 24 4 }

theorem Dev.takeBeacon_eq (d : Dev) (f : List Byte) : ∃ e : Dev, d.takeBeacon f = (e.beaconTaken f).recompute := ⟨_, rfl⟩

theorem Dev.beaconTaken_objects (d : Dev) (f : List Byte) : (d.beaconTaken f).g oPackRole = 2 ∧ (d.beaconTaken f).g oMasterAddress = frameAtByte f 3 ∧
    (d.beaconTaken f).g oRoster = framePay f 2 2 ∧ (d.beaconTaken f).g oOpVersion = framePay f 0 1 := by
  unfold Dev.beaconTaken
  simp only [Dev.g_setPack]
  refine ⟨?_, ?_, ?_, Dev.g_s_same _ _ _⟩
  · rw [Dev.g_s_chip _ _ (by decide) (by decide) (by decide), Dev.setRoster_g _ _ (by decide), Dev.setMaster_g _ _ (by decide) (by decide), Dev.g_s_same]
  · rw [Dev.g_s_chip _ _ (by decide) (by decide) (by decide), Dev.setRoster_g _ _ (by decide), Dev.setMaster_master]
  · rw [Dev.g_s_chip _ _ (by decide) (by decide) (by decide), Dev.setRoster_roster]

@[simp] theorem Dev.spent_pack (d : Dev) : d.spent.pack = d.pack := by
  unfold Dev.spent
  split <;> rfl

@[simp] theorem Dev.spent_out (d : Dev) : d.spent.out = d.out := by
  unfold Dev.spent
  split <;> rfl

/-- A grant in force at this Thozu. -/
def Dev.grantTaken (d : Dev) (seq : Nat) (k : List Nat) : Dev :=
  let f := listGet 0 k
  let d := ((((d.s oGrantSeq seq).s oGrantEnergy (f 2)).s oGrantOffset (f 3)).s oGrantCap (f 4)).s oGrantPower (f 5)
  d.setPack { d.pack with hasGrant := true, grantWave := f 0 }

theorem Dev.grantTaken_objects (d : Dev) (seq w fl e t c p : Nat) : (d.grantTaken seq [w, fl, e, t, c, p]).g oGrantSeq = seq ∧
    (d.grantTaken seq [w, fl, e, t, c, p]).g oGrantEnergy = e ∧ (d.grantTaken seq [w, fl, e, t, c, p]).g oGrantOffset = t ∧
    (d.grantTaken seq [w, fl, e, t, c, p]).g oGrantCap = c ∧ (d.grantTaken seq [w, fl, e, t, c, p]).g oGrantPower = p := by
  unfold Dev.grantTaken
  simp (disch := decide) only [Dev.g_setPack, Dev.g_s_chip, Dev.g_s_same, listGet, and_self]

/-- The grant that was in force, 0 (R166). -/
def Dev.grantGone (d : Dev) : Dev :=
  let d := (((d.s oGrantEnergy 0).s oGrantCap 0).s oGrantPower 0).s oGrantOffset 0
  d.setPack { d.pack with hasGrant := false, grantWave := 0xFF }

theorem Dev.grantGone_objects (d : Dev) : d.grantGone.g oGrantEnergy = 0 ∧ d.grantGone.g oGrantCap = 0 ∧ d.grantGone.g oGrantPower = 0 ∧
    d.grantGone.g oGrantOffset = 0 := by
  unfold Dev.grantGone
  simp (disch := decide) only [Dev.g_setPack, Dev.g_s_chip, Dev.g_s_same, and_self]

theorem Dev.grantExpire_kept {d : Dev} (h : d.pack.hasGrant = false ∨ d.isMaster = true ∨ d.inVault = true ∨ d.vst = 0x0A) : d.grantExpire = d :=
  if_pos (by simpa using h)

theorem Dev.grantExpire_expires {d : Dev} (hg : d.pack.hasGrant = true) (hm : d.isMaster = false) (hi : d.inVault = false) (hv : d.vst ≠ 0x0A) :
    d.grantExpire = d.grantGone.recompute := if_neg (by simp [hg, hm, hi, hv])

section Member
variable {d : Dev} {f : List Byte} (hen : d.aon.lshEn = true)
include hen

theorem Dev.rxBeacon_ignored (hok : d.frameOk 1 f true = true)
    (h : 7 < frameAtByte f 3 ∨ frameAtByte f 3 = d.own ∨ (d.isMaster = true ∧ d.own < frameAtByte f 3)) : d.rxBeacon f = d :=
  (Dev.onFrame_right hen hok).trans (if_pos h)

/-- A BEACON of a master that has not to yield is taken. -/
theorem Dev.rxBeacon_taken (hok : d.frameOk 1 f true = true) (h7 : frameAtByte f 3 ≤ 7) (hown : frameAtByte f 3 ≠ d.own)
    (hyield : d.isMaster = false ∨ frameAtByte f 3 < d.own) : ∃ e : Dev, d.rxBeacon f = (e.beaconTaken f).recompute := by
  obtain ⟨e, he⟩ := d.takeBeacon_eq f
  refine ⟨e, (Dev.onFrame_right hen hok).trans ((if_neg ?_).trans he)⟩
  rintro (h | h | ⟨hm, h⟩)
  · omega
  · exact hown h
  · rcases hyield with hyield | hyield
    · simp [hm] at hyield
    · omega

theorem Dev.rxPoll_answers (hok : d.frameOk 2 f false = true) : (d.rxPoll f).out = d.out ++ [⟨.leash, [3, frameAtByte f 3, frameAtByte f 4],
    frameBytes (frameAtByte f 0) 3 (frameAtByte f 3) d.own (frameAtByte f 4) d.statusPayload⟩] ∧ (d.rxPoll f).pack = d.pack := by
  rw [Dev.rxPoll, Dev.onFrame_right hen hok]
  simp only [Dev.spent_out, Dev.spent_pack]
  exact ⟨rfl, rfl⟩

theorem Dev.rxGrant_ignored (hok : d.frameOk 4 f false = true) {step : Nat} (hstep : step = (framePay f 0 2 + 65536 - d.g oGrantSeq) % 65536)
    (h : frameAtByte f 3 ≠ d.g oMasterAddress ∨ d.isMaster = true ∨ (d.pack.hasGrant = true ∧ ¬ (0 < step ∧ step < 32768))) : d.rxGrant f = d := by
  subst hstep
  exact (Dev.onFrame_right hen hok).trans (if_pos h)

theorem Dev.rxGrant_taken (hok : d.frameOk 4 f false = true) {step : Nat} (hstep : step = (framePay f 0 2 + 65536 - d.g oGrantSeq) % 65536)
    (hsrc : frameAtByte f 3 = d.g oMasterAddress) (hm : d.isMaster = false) (hnew : d.pack.hasGrant = false ∨ (0 < step ∧ step < 32768)) :
    d.rxGrant f = (d.grantTaken (framePay f 0 2)
      [framePay f 2 1, framePay f 3 1, framePay f 4 4, framePay f 8 4, framePay f 12 2, framePay f 16 4]).recompute := by
  subst hstep
  refine (Dev.onFrame_right hen hok).trans (if_neg ?_)
  rintro (h | h | ⟨hg, h⟩)
  · exact h hsrc
  · simp [hm] at h
  · exact hnew.elim (by simp [hg]) h

theorem Dev.rxReset_resets (hok : d.frameOk 7 f false = true) (hsrc : frameAtByte f 3 = d.g oMasterAddress) (hkind : framePay f 0 1 = 1) :
    d.rxReset f = d.packReset := (Dev.onFrame_right hen hok).trans (if_pos ⟨hsrc, hkind⟩)

theorem Dev.rxReset_ignored (hok : d.frameOk 7 f false = true) (h : frameAtByte f 3 ≠ d.g oMasterAddress ∨ framePay f 0 1 ≠ 1) : d.rxReset f = d :=
  (Dev.onFrame_right hen hok).trans (if_neg fun ⟨hsrc, hkind⟩ => h.elim (· hsrc) (· hkind))

end Member

/-! ### Mastership (R164, R165) -/

section Takeover
variable {d : Dev}

theorem Dev.takeover_idle (h : d.aon.lshEn = false ∨ d.isMaster = true) : d.takeover = d := if_pos (by simpa using h)

/-- This Thozu as master, with itself in the roster. -/
def Dev.mastered (d : Dev) : Dev := ((d.s oPackRole 1).setMaster d.own).setRoster (setBit (d.g oRoster) d.own true)

theorem Dev.mastered_objects (d : Dev) : d.mastered.g oPackRole = 1 ∧ d.mastered.g oMasterAddress = d.own ∧ bit (d.mastered.g oRoster) d.own = true := by
  unfold Dev.mastered
  refine ⟨?_, ?_, ?_⟩
  · rw [Dev.setRoster_g _ _ (by decide), Dev.setMaster_g _ _ (by decide) (by decide), Dev.g_s_same]
  · rw [Dev.setRoster_g _ _ (by decide), Dev.setMaster_master]
  · rw [Dev.setRoster_roster]
    exact testBit_setBit_same _ _ _

/-- The Pack as a new master knows it. -/
def Dev.packTaken (d : Dev) : Pack :=
  { d.pack with nodes := [], slotReqs := [], resets := [], budgetValid := false, waveDone := 0xFF, cycles := 0, heir := !decide (d.g oPackRole = 0) }

/-- What the BEACONs of the master before said of the bank. -/
def Dev.bankAdopted (d : Dev) (p : Pack) : Dev :=
  (d.s oEsrMeasured p.esr).setCap { d.energy.cap with
    adopted := some p.capUsed, tested := decide (p.capAge ≠ 0xFFFFFFFF), current := decide (p.capAge ≠ 0xFFFFFFFF),
    ageBase := p.capAge, doneTick := d.now }

section Takes
variable (hen : d.aon.lshEn = true) (hm : d.isMaster = false)
include hen hm

theorem Dev.takeover_first (h : d.g oPackRole = 0) : d.takeover = (if (d.setPack d.packTaken).mastered.g oOpVersion = 0
    then (d.setPack d.packTaken).mastered.s oOpVersion ((d.setPack d.packTaken).mastered.g oMaxVersion) else (d.setPack d.packTaken).mastered).recompute := by
  refine (if_neg (by simp [hen, hm])).trans (congrArg Dev.recompute ((if_pos h).trans (if_congr ?_ rfl rfl)))
  exact and_iff_right h

theorem Dev.takeover_next (h : d.g oPackRole ≠ 0) : d.takeover = ((d.setPack d.packTaken).mastered.bankAdopted d.pack).recompute := by
  refine (if_neg (by simp [hen, hm])).trans (congrArg Dev.recompute ((if_neg h).trans ?_))
  rw [if_neg fun hfirst => h hfirst.1]
  rfl

/-- A takeover makes this Thozu master; after another master it goes on with the resistance that the last BEACON gave. -/
theorem Dev.takeover_takes : ∃ e : Dev, d.takeover = e.recompute ∧ e.g oPackRole = 1 ∧ e.g oMasterAddress = d.own ∧ bit (e.g oRoster) d.own = true ∧
    (d.g oPackRole ≠ 0 → e.g oEsrMeasured = d.pack.esr) := by
  obtain ⟨hrole, haddr, hroster⟩ := (d.setPack d.packTaken).mastered_objects
  by_cases hfirst : d.g oPackRole = 0
  · refine ⟨_, Dev.takeover_first hen hm hfirst, ?_⟩
    split
    · rw [Dev.g_s_chip _ _ (by decide) (by decide) (by decide), Dev.g_s_chip _ _ (by decide) (by decide) (by decide),
        Dev.g_s_chip _ _ (by decide) (by decide) (by decide)]
      exact ⟨hrole, haddr, hroster, fun h => absurd hfirst h⟩
    · exact ⟨hrole, haddr, hroster, fun h => absurd hfirst h⟩
  · have hkeep : ∀ o, o ≠ oEsrMeasured → ((d.setPack d.packTaken).mastered.bankAdopted d.pack).g o = (d.setPack d.packTaken).mastered.g o := fun o ho =>
      Dev.g_s_chip _ _ (o := oEsrMeasured) (by decide) (by decide) ho
    refine ⟨_, Dev.takeover_next hen hm hfirst, ?_⟩
    rw [hkeep _ (by decide), hkeep _ (by decide), hkeep _ (by decide)]
    exact ⟨hrole, haddr, hroster, fun _ => Dev.g_s_same _ oEsrMeasured _⟩

end Takes

end Takeover

/-! ### Forwarded messages (R175, R370) -/

section Forward
variable {d : Dev} {f : List Byte}

/-- Message `id` begins at this member with the bytes `data`. -/
def Dev.fragmentTaken (d : Dev) (id : Nat) (data : List Byte) : Dev :=
  d.setPack { d.pack with memMsg := some id, memFrags := data, memNext := 1, memRsp := none, rspFrag := 0 }

theorem Dev.forwardTimeout_idle {id : Nat} (h : ∀ x ∈ d.pack.fwd, x.msgId = id → x.lastTick = none) : d.forwardTimeout id = d := by
  have hnone : (d.pack.fwd.find? fun x => x.msgId = id ∧ x.lastTick.isSome) = none := by
    refine List.find?_eq_none.2 fun x hx => ?_
    simp only [decide_eq_true_eq]
    exact fun ⟨hid, hsent⟩ => by simp [h x hx hid] at hsent
  rw [Dev.forwardTimeout, hnone]

/-- A message with no Last fragment in time is dropped, and answered with TRANSPORT_TIMEOUT. -/
theorem Dev.forwardTimeout_answers {id : Nat} (h : ∃ x ∈ d.pack.fwd, x.msgId = id ∧ x.lastTick ≠ none) :
    (d.forwardTimeout id).pack.fwd = d.pack.fwd.filter (·.msgId ≠ id) ∧
    ∃ o, (d.forwardTimeout id).out = d.out ++ [o] ∧ o.kind = .response ∧ listGet 0 o.args 3 = 0x0C := by
  obtain ⟨x, hx, hid, hsent⟩ := h
  have hsome : (d.pack.fwd.find? fun x => x.msgId = id ∧ x.lastTick.isSome).isSome = true :=
    List.find?_isSome.2 ⟨x, hx, by simpa [hid] using Option.ne_none_iff_isSome.1 hsent⟩
  obtain ⟨y, hy⟩ := Option.isSome_iff_exists.1 hsome
  rw [Dev.forwardTimeout, hy]
  exact ⟨rfl, _, rfl, rfl, rfl⟩

variable (hen : d.aon.lshEn = true)
include hen

theorem Dev.rxDictReq_ignored (hok : d.frameOk 8 f false = true) (h : frameAtByte f 3 ≠ d.g oMasterAddress ∨ d.isMaster = true ∨ d.supAway = true) :
    d.rxDictReq f = d := (Dev.onFrame_right hen hok).trans (if_pos h)

section Served
variable (hok : d.frameOk 8 f false = true) (hsrc : frameAtByte f 3 = d.g oMasterAddress) (hm : d.isMaster = false) (haway : d.supAway = false)
  {data : List Byte} (hd : data = ((f.drop 6).take (frameAtByte f 5)).drop 2)
include hok hsrc hm haway hd

/-- A first fragment is kept, and answered empty. -/
theorem Dev.rxDictReq_first (hdata : data ≠ []) (hfirst : framePay f 1 1 = 0) :
    d.rxDictReq f = (d.fragmentTaken (framePay f 0 1) data).dictReply f (leBytes 1 (framePay f 0 1) ++ leBytes 1 0) := by
  subst hd
  refine (Dev.onFrame_right hen hok).trans ((if_neg (by simp [hsrc, hm, haway])).trans ((if_neg hdata).trans ?_))
  rw [hfirst]
  rfl

/-- An empty request pulls the next 62 bytes of a response of more. -/
theorem Dev.rxDictReq_pulls (hdata : data = []) {l : List Byte} (hmsg : d.pack.memMsg = some (framePay f 0 1)) (hrsp : d.pack.memRsp = some l)
    (hlen : 62 < l.length) : d.rxDictReq f = (d.dictReply f (leBytes 1 (framePay f 0 1) ++ leBytes 1 (d.pack.rspFrag % 128) ++ l.take 62)).setPack
      { d.pack with memRsp := some (l.drop 62), rspFrag := d.pack.rspFrag + 1 } := by
  subst hd
  refine (Dev.onFrame_right hen hok).trans ((if_neg (by simp [hsrc, hm, haway])).trans ((if_pos hdata).trans ?_))
  rw [Dev.pullFragment]
  simp [hmsg, hrsp, Nat.not_le.2 hlen]

end Served

theorem Dev.rxDictRsp_ignored (hok : d.frameOk 9 f false = true) (h : d.isMaster = false ∨ d.pack.fwd = []) : d.rxDictRsp f = d := by
  have hnil : (if d.isMaster then d.pack.fwd else []) = [] := by rcases h with h | h <;> simp [h]
  rw [Dev.rxDictRsp, Dev.onFrame_right hen hok]
  dsimp only
  rw [hnil]

section Response
variable (hok : d.frameOk 9 f false = true) {x : Forward} {rest : List Forward} (hm : d.isMaster = true) (hfwd : d.pack.fwd = x :: rest)
  (hnode : x.node = frameAtByte f 3) (hid : x.msgId = framePay f 0 1) (hsent : x.lastTick ≠ none)
  {data : List Byte} (hd : data = ((f.drop 6).take (frameAtByte f 5)).drop 2) (hdata : data ≠ []) (hseq : x.rspFrag % 128 = framePay f 1 1 % 128)
include hok hm hfwd hnode hid hsent hd hdata hseq

/-- A fragment in its turn is gathered; the last one sends the response to the requester. -/
theorem Dev.rxDictRsp_gathers {b : Nat → Nat} (hb : b = frameAtByte (x.rsp ++ data)) : d.rxDictRsp f = if bit (framePay f 1 1) 7 = true
    then (d.setPack { d.pack with fwd := rest }).emit .response [x.transport, x.eid, b 1, b 2, b 4, b 6 + 256 * b 7, x.mtag] (x.rsp ++ data)
    else d.setPack { d.pack with fwd := { x with rsp := x.rsp ++ data, rspFrag := x.rspFrag + 1 } :: rest } := by
  subst hd hb
  have hcons : (if d.isMaster then d.pack.fwd else []) = x :: rest := by simp [hm, hfwd]
  refine (Dev.onFrame_right hen hok).trans ?_
  dsimp only
  rw [hcons]
  exact if_neg (by simp [hnode, hid, Option.isNone_iff_eq_none, hsent, hdata, hseq])

end Response

end Forward

end Sys2Proof.Machine
end

section
/-! PROOFS. The master of the Pack (07_pack_and_leash.md): what its nodes answer, the polling cycle, slot commands and resets of members. -/
namespace Sys2Proof.Machine
open Sys2Proof

/-! ### STATUS and missed polls (R160) -/

/-- A field of a STATUS payload is the field of its frame. -/
theorem leNat_statusPay (f : List Byte) {off len : Nat} (h : off + len ≤ 32) : leNat ((((f.drop 6).take 32).drop off).take len) = framePay f off len := by
  rw [framePay, List.drop_take, List.take_take, List.drop_drop, min_eq_left (by omega)]

/-- Node `x` with its POLL answered. -/
def Node.answered (x : Node) : Node := { x with polled := none, missed := 0 }

/-- What a report leaves of a node. -/
theorem Node.report_result (x : Node) (p : List Byte) : (x.report p).seen = true ∧ (x.report p).polled = x.polled ∧ (x.report p).missed = x.missed ∧
    (x.report p).maxVersion = leNat ((p.drop 0).take 1) ∧ (x.report p).kind = if leNat ((p.drop 1).take 1) = 1 then 1 else 2 := by
  unfold Node.report
  dsimp only
  split
  next h => exact ⟨rfl, rfl, rfl, rfl, rfl⟩
  next h => exact ⟨rfl, rfl, rfl, rfl, rfl⟩

/-- Node `n` as `y`, in the roster. -/
def Dev.nodeJoined (d : Dev) (n : Nat) (y : Node) : Dev :=
  let e := d.setNode n y
  if ¬ bit (d.g oRoster) n then (e.setPack { e.pack with absents := e.pack.absents.filter (·.node ≠ n) }).setRoster (setBit (e.g oRoster) n true) else e

theorem Dev.nodeJoined_roster (d : Dev) (n : Nat) (y : Node) : bit ((d.nodeJoined n y).g oRoster) n = true := by
  unfold Dev.nodeJoined
  dsimp only
  split
  next h => rw [Dev.setRoster_roster]; exact testBit_setBit_same _ _ _
  next h => simpa using h

theorem Dev.nodeJoined_node (d : Dev) (n : Nat) (y : Node) : (d.nodeJoined n y).node n = y := by
  unfold Dev.nodeJoined
  dsimp only
  split
  · rw [Dev.node_congr (d := d.setNode n y) (by rw [Dev.setRoster_pack]; rfl), Dev.node_setNode_same]
  · rw [Dev.node_setNode_same]

/-- Node `n` as its STATUS payload `p` makes it known; one that joins while PackVault is set gets no grant. -/
def Dev.nodeHeard (d : Dev) (n : Nat) (p : List Byte) : Node :=
  let y := (d.node n).answered.report p
  if ¬ bit (d.g oRoster) n ∨ ¬ (d.node n).seen then { y with held := decide (¬ bit (d.g oRoster) n) && d.pack.packVault && decide (n ≠ d.own) } else y

theorem Dev.nodeHeard_eq (d : Dev) (n : Nat) (p : List Byte) : ∃ held, d.nodeHeard n p = { (d.node n).answered.report p with held := held } := by
  unfold Dev.nodeHeard
  dsimp only
  split
  · exact ⟨_, rfl⟩
  · exact ⟨_, rfl⟩

/-- A STATUS is taken in at its node, which joins the roster; a change recomputes the budget. -/
theorem Dev.takeStatus_eq (d : Dev) (n : Nat) (p : List Byte) :
    d.takeStatus n p = d.nodeJoined n (d.nodeHeard n p) ∨ d.takeStatus n p = (d.nodeJoined n (d.nodeHeard n p)).budget :=
  (ite_eq_or_eq _ _ _).symm

section Status
variable {d : Dev} {f : List Byte} (hen : d.aon.lshEn = true) (hok : d.frameOk 3 f false = true)
include hen hok

theorem Dev.rxStatus_ignored (h : d.isMaster = false ∨ 15 < frameAtByte f 3 ∨ (d.node (frameAtByte f 3)).polled ≠ some (frameAtByte f 4)) :
    d.rxStatus f = d :=
  (Dev.onFrame_right hen hok).trans (if_pos (by simpa using h))

variable (hm : d.isMaster = true) (hsrc : frameAtByte f 3 ≤ 15) (hpoll : (d.node (frameAtByte f 3)).polled = some (frameAtByte f 4))
include hm hsrc hpoll

/-- A STATUS of the wrong NodeKind is an error of the Leash. -/
theorem Dev.rxStatus_wrongKind (hkind : framePay f 1 1 ≠ if frameAtByte f 3 < 8 then 1 else 2) : d.rxStatus f = d.inc oLeashErrors :=
  (Dev.onFrame_right hen hok).trans ((if_neg (by simp [hm, hpoll, hsrc])).trans (if_pos hkind))

/-- A STATUS that answers the outstanding POLL joins its node. -/
theorem Dev.rxStatus_joins (hkind : framePay f 1 1 = if frameAtByte f 3 < 8 then 1 else 2) : ∃ e : Dev, (d.rxStatus f = e ∨ d.rxStatus f = e.budget) ∧
    bit (e.g oRoster) (frameAtByte f 3) = true ∧ (e.node (frameAtByte f 3)).seen = true ∧ (e.node (frameAtByte f 3)).polled = none ∧
    (e.node (frameAtByte f 3)).missed = 0 ∧ (e.node (frameAtByte f 3)).maxVersion = framePay f 0 1 ∧ (e.node (frameAtByte f 3)).kind = framePay f 1 1 := by
  have htaken : d.rxStatus f = d.takeStatus (frameAtByte f 3) ((f.drop 6).take 32) :=
    (Dev.onFrame_right hen hok).trans ((if_neg (by simp [hm, hpoll, hsrc])).trans (if_neg (by simpa using hkind)))
  obtain ⟨held, hheard⟩ := d.nodeHeard_eq (frameAtByte f 3) ((f.drop 6).take 32)
  obtain ⟨hseen, hpolled, hmissed, hversion, hnode⟩ := (d.node (frameAtByte f 3)).answered.report_result ((f.drop 6).take 32)
  rw [leNat_statusPay f (by decide)] at hversion hnode
  refine ⟨_, by rw [htaken]; exact d.takeStatus_eq _ _, d.nodeJoined_roster _ _, ?_⟩
  rw [Dev.nodeJoined_node, hheard]
  refine ⟨hseen, hpolled, hmissed, hversion, hnode.trans ?_⟩
  rw [hkind]
  split <;> rfl

end Status

section Missed
variable {d : Dev} {n : Nat}

theorem Dev.pollMissed_idle (h : d.isMaster = false ∨ (d.node n).polled = none) : d.pollMissed n = d := if_pos (by simpa using h)

/-- Node `n` with one more POLL missed. -/
def Dev.missCounted (d : Dev) (n : Nat) : Dev := d.setNode n { d.node n with polled := none, missed := (d.node n).missed + 1 }

variable (hm : d.isMaster = true) (hpoll : (d.node n).polled ≠ none)
include hm hpoll

theorem Dev.pollMissed_counts (h : bit (d.g oRoster) n = false ∨ (d.node n).missed < 2) : d.pollMissed n = d.missCounted n := by
  refine (if_neg (by simp [hm, hpoll])).trans (if_pos (h.imp (fun h => ?_) fun h => by omega))
  rw [Dev.g_setNode, h]
  decide

/-- The roster without node `n`, of which the master forgets all but a Thozu's last grant. -/
def Dev.nodeLeft (d : Dev) (n : Nat) : Dev :=
  let e := (d.setRoster (setBit (d.g oRoster) n false)).setNode n {}
  if n < 8 then { (e.setPack { e.pack with absents := e.pack.absents ++ [{ node := n, grant := d.lastGrant n, since := e.now }] }) with free := e.free + 1 } else e

theorem Dev.pollMissed_leaves (hin : bit (d.g oRoster) n = true) (h : 2 ≤ (d.node n).missed) : d.pollMissed n = ((d.missCounted n).nodeLeft n).budget := by
  refine (if_neg (by simp [hm, hpoll])).trans (if_neg ?_)
  rintro (hout | hfew)
  · exact hout hin
  · omega

end Missed

theorem Dev.setRoster_aon (d : Dev) (r : Nat) : (d.setRoster r).aon = d.aon := by
  unfold Dev.setRoster
  dsimp only
  split
  · rfl
  · simp

theorem Dev.nodeLeft_result (d : Dev) (n : Nat) : bit ((d.nodeLeft n).g oRoster) n = false ∧ (d.nodeLeft n).node n = {} ∧
    (n < 8 → (d.nodeLeft n).pack.absents = d.pack.absents ++ [⟨n, d.lastGrant n, d.now⟩]) := by
  have hroster : bit (((d.setRoster (setBit (d.g oRoster) n false)).setNode n {}).g oRoster) n = false := by
    rw [Dev.g_setNode, Dev.setRoster_roster]
    exact testBit_setBit_same _ _ _
  have hnode := (d.setRoster (setBit (d.g oRoster) n false)).node_setNode_same n {}
  have habsents : ((d.setRoster (setBit (d.g oRoster) n false)).setNode n {}).pack.absents = d.pack.absents := by
    rw [Dev.setNode, Dev.setPack_pack, Dev.setRoster_pack]
  have hnow : ((d.setRoster (setBit (d.g oRoster) n false)).setNode n {}).now = d.now := congrArg Aon.tick (d.setRoster_aon _)
  unfold Dev.nodeLeft
  dsimp only
  split
  next h => exact ⟨hroster, hnode, fun _ => congrArg₂ (fun l t => l ++ [(⟨n, d.lastGrant n, t⟩ : Absent)]) habsents hnow⟩
  next h => exact ⟨hroster, hnode, fun hlt => absurd hlt h⟩

theorem Dev.missCounted_lastGrant (d : Dev) (n : Nat) : (d.missCounted n).lastGrant n = d.lastGrant n := by
  unfold Dev.lastGrant
  rw [Dev.missCounted, Dev.node_setNode_same]
  rfl

/-! ### Slot commands (R172, R173) -/

section Slot
variable {d : Dev} {f : List Byte}

/-- The request that a SLOT_ACK answers. -/
def Dev.ackedSlot (d : Dev) (f : List Byte) : Option SlotReq :=
  d.pack.slotReqs.find? fun r => r.sends ≠ 0 ∧ r.slot = 16 * (frameAtByte f 3 - 8) + framePay f 0 1 ∧ r.token = framePay f 2 2

/-- Request `r` settled, with node `n` as `x`. -/
def Dev.slotSettled (d : Dev) (n : Nat) (r : SlotReq) (x : Node) : Dev :=
  (d.setNode n x).setPack { d.pack with
    nodes := storeSet noNode d.pack.nodes n x, slotReqs := d.pack.slotReqs.erase r,
    slotBad := setBit d.pack.slotBad r.slot false }

theorem Dev.slotSettled_node (d : Dev) (n : Nat) (r : SlotReq) (x : Node) : (d.slotSettled n r x).node n = x := d.node_setNode_same n x

section Ack
variable (hen : d.aon.lshEn = true) (hok : d.frameOk 6 f false = true)
include hen hok

theorem Dev.rxSlotAck_ignored (h : d.isMaster = false ∨ frameAtByte f 3 < 8 ∨ 16 ≤ framePay f 0 1) : d.rxSlotAck f = d := by
  have hcond : ¬ (d.isMaster = true ∧ 8 ≤ frameAtByte f 3 ∧ framePay f 0 1 < 16) := by
    rintro ⟨hm, hsrc, hslot⟩
    rcases h with h | h | h
    · simp [hm] at h
    · omega
    · omega
  rw [Dev.rxSlotAck, Dev.onFrame_right hen hok]
  dsimp only
  rw [if_neg hcond]

/-- SLOT_ACK settles its command, and the slot's state follows its result. -/
theorem Dev.rxSlotAck_settles (hm : d.isMaster = true) (hsrc : 8 ≤ frameAtByte f 3) (hslot : framePay f 0 1 < 16) {r : SlotReq}
    (hr : d.ackedSlot f = some r) :
    ∃ x : Node, d.rxSlotAck f = d.slotSettled (frameAtByte f 3) r x ∧
      (framePay f 1 1 = 0 → r.action = 1 → bit x.slotOn (framePay f 0 1) = true) ∧ (framePay f 1 1 = 0 → r.action = 2 → bit x.slotOn (framePay f 0 1) = false) ∧
      (framePay f 1 1 = 2 → bit x.slotFault (framePay f 0 1) = true) ∧ (framePay f 1 1 = 1 → bit x.slotPresent (framePay f 0 1) = false) := by
  have hfound : (if d.isMaster ∧ 8 ≤ frameAtByte f 3 ∧ framePay f 0 1 < 16 then d.ackedSlot f else none) = some r := by
    rw [if_pos ⟨hm, hsrc, hslot⟩, hr]
  unfold Dev.ackedSlot at hfound
  rw [Dev.rxSlotAck, Dev.onFrame_right hen hok]
  dsimp only
  rw [hfound]
  refine ⟨_, rfl, fun h0 h1 => ?_, fun h0 h2 => ?_, fun h2 => ?_, fun h1 => ?_⟩
  · simp only [h0, h1]
    exact testBit_setBit_same _ _ _
  · simp only [h0, h2]
    exact testBit_setBit_same _ _ _
  · simp only [h2]
    exact testBit_setBit_same _ _ _
  · simp only [h1]
    exact testBit_setBit_same _ _ _

end Ack

/-- The ON request that goes next waits, and goes before the scheduled ones when any is a demand. -/
theorem Dev.slotNext_spec {r : SlotReq} (h : d.slotNext = some r) : r ∈ d.pack.slotReqs ∧ r.action = 1 ∧ r.sends = 0 ∧
    (r.demand = false → ∀ x ∈ d.pack.slotReqs, x.action = 1 → x.sends = 0 → x.demand = false) := by
  have hwaits : ∀ {x : SlotReq}, x ∈ d.pack.slotReqs.filter (fun r => r.action = 1 ∧ r.sends = 0) → x ∈ d.pack.slotReqs ∧ x.action = 1 ∧ x.sends = 0 :=
    fun hx => by simpa using hx
  unfold Dev.slotNext at h
  dsimp only at h
  split at h
  next x hx =>
    obtain rfl := Option.some.inj h
    obtain ⟨hmem, hact, hsends⟩ := hwaits (List.mem_of_find?_eq_some hx)
    exact ⟨hmem, hact, hsends, fun hd => absurd (List.find?_some hx) (by simp [hd])⟩
  next hnone =>
    obtain ⟨hmem, hact, hsends⟩ := hwaits (List.mem_of_mem_head? h)
    exact ⟨hmem, hact, hsends, fun _ x hx h1 h0 => by simpa using List.find?_eq_none.1 hnone x (List.mem_filter.2 ⟨hx, by simp [h1, h0]⟩)⟩

theorem mem_listSwap {V : Type} [DecidableEq V] {a : V} (b : V) : ∀ {l : List V}, a ∈ l → b ∈ listSwap a b l
  | x :: l, h => by
    rw [listSwap]
    split
    · exact List.mem_cons_self
    next hne => exact List.mem_cons_of_mem _ (mem_listSwap b ((List.mem_cons.1 h).resolve_left fun he => hne he.symm))

/-- A slot command that switches its slot on goes out on the Leash. -/
theorem Dev.sendSlot_out (d : Dev) {y : SlotReq} (hon : y.action = 1) : (d.sendSlot y).out = d.out ++ [⟨.leash, [5, 8 + y.slot / 16, d.pack.seq % 256],
    frameBytes (d.g oOpVersion) 5 (8 + y.slot / 16) d.own (d.pack.seq % 256) (leBytes 1 (y.slot % 16) ++ leBytes 1 1 ++ leBytes 2 y.token)⟩] := by
  obtain ⟨slot, action, demand, token, sends⟩ := y
  obtain rfl : action = 1 := hon
  rfl

theorem Dev.slotSend_idle (h : d.isMaster = false ∨ d.slotNext = none) : d.slotSend = d := by
  have hnone : (if d.isMaster then d.slotNext else none) = none := by rcases h with h | h <;> simp [h]
  rw [Dev.slotSend, hnone]

section Send
variable (hm : d.isMaster = true) {r : SlotReq} (hr : d.slotNext = some r)
include hm hr

/-- A command whose charge the bucket does not hold waits. -/
theorem Dev.slotSend_waits (h : d.g oSlotBucketCapacity * 1000 < d.slotDrawn + d.gb oSlotInrush r.slot * 1000) : d.slotSend = d := by
  have hnext : (if d.isMaster then d.slotNext else none) = some r := by rw [if_pos hm, hr]
  rw [Dev.slotSend, hnext]
  exact if_pos h

/-- The Pack with the charge of request `r` drawn, and the request sent as `y`. -/
def Dev.slotCharged (d : Dev) (r y : SlotReq) : Dev :=
  d.setPack { d.pack with
    bucketUsed := d.slotDrawn + d.gb oSlotInrush r.slot * 1000, bucketTick := d.now, token := y.token,
    slotReqs := listSwap r y d.pack.slotReqs }

theorem Dev.slotSend_sends (h : d.slotDrawn + d.gb oSlotInrush r.slot * 1000 ≤ d.g oSlotBucketCapacity * 1000) {y : SlotReq}
    (hy : y = { r with token := (d.pack.token + 1) % 65536, sends := 1 }) : d.slotSend = (d.slotCharged r y).sendSlot y := by
  subst hy
  have hnext : (if d.isMaster then d.slotNext else none) = some r := by rw [if_pos hm, hr]
  rw [Dev.slotSend, hnext]
  exact if_neg (Nat.not_lt.2 h)

end Send

end Slot

/-! ### A write of PackResetMember (R175) -/

/-- The row of PackResetMember. -/
def packResetRow : ObjRow := ⟨oPackResetMember, 2, 1, 1, 1, 2, 2, 255, 0, false, 0, some (0, 7), false⟩

theorem objRow_packReset : objRow oPackResetMember = some packResetRow := by decide +kernel

/-- A write of the number of a Thozu to PackResetMember passes. -/
theorem Dev.packReset_passes (d : Dev) {v : Nat} (hv : v ≤ 7) : d.Passes packResetRow uChip oPackResetMember v where
  isRow := objRow_packReset
  present := d.present_chip
  holds := rfl
  ok := by interval_cases v <;> decide
  pre := rfl
  named := by
    have hloc : packResetRow.loc = 0 := rfl
    rw [Dev.namedUnits, if_pos (by decide), hloc, ← List.filter_filter, chip_of_upOrder]
    simp [d.present_chip]
  notCursor := by decide

theorem Dev.applyOne_packReset (d : Dev) (sid v : Nat) : d.applyOne sid uChip oPackResetMember v = d.fxPackReset v := rfl

section PackReset
variable {d : Dev} {v : Nat} (hs : d.supAway = false) (hc : d.writesClosed = false)
include hs hc

/-- A number that no Thozu can have is out of the object's range. -/
theorem Dev.packReset_range (hp : d.aon.auxUp = true) (hv : 7 < v) : d.mgrWrite uChip oPackResetMember v = d.refuses 3 uChip := by
  have hrange : rowOk packResetRow v = false := by simp [rowOk, packResetRow]; omega
  have hholds : d.holds packResetRow uChip = true := rfl
  have hreply : d.writeChecked packResetRow uChip oPackResetMember v (Dev.applyWrite · packResetRow 0xFF uChip oPackResetMember v) = badValue d uChip :=
    (if_neg (by simp [hc])).trans (if_pos (by simp [hrange]))
  rw [Dev.mgrWrite, objRow_packReset]
  dsimp only
  rw [Dev.mgrRun, objRow_packReset]
  refine (if_neg (by simp [hs])).trans ?_
  rw [if_neg (not_not.2 d.present_chip), if_neg (not_not.2 hholds), hreply]
  exact if_pos hp

variable (hv : v ≤ 7)
include hv

theorem Dev.packReset_member (hp : d.aon.auxUp = true) (hm : d.isMaster = false) : d.mgrWrite uChip oPackResetMember v = d.refuses 4 uChip :=
  (d.packReset_passes hv).refused hs hc hp (by decide) ((d.applyOne_packReset 0xFF v).trans (if_pos (by simp [hm])))

theorem Dev.packReset_own (hm : d.isMaster = true) (hown : v = d.own) : d.mgrWrite uChip oPackResetMember v = d.packReset.accepts oPackResetMember :=
  (d.packReset_passes hv).accepted hs hc ((d.applyOne_packReset 0xFF v).trans ((if_neg (by simp [hm])).trans ((if_neg (by omega)).trans (if_pos hown))))

theorem Dev.packReset_other (hm : d.isMaster = true) (hown : v ≠ d.own) : d.mgrWrite uChip oPackResetMember v =
    (d.setPack { d.pack with resets := d.pack.resets ++ [v] }).accepts oPackResetMember :=
  (d.packReset_passes hv).accepted hs hc ((d.applyOne_packReset 0xFF v).trans ((if_neg (by simp [hm])).trans ((if_neg (by omega)).trans (if_neg hown))))

end PackReset

/-! ### The polling cycle (R160, R161) -/

/-- Device `e` comes after `d` by frames alone: it has the outputs of `d` and more, and its objects. -/
structure Dev.Extends (d e : Dev) : Prop where
  dict : e.dict = d.dict
  out : d.out <+: e.out

theorem Dev.Extends.refl (d : Dev) : d.Extends d := ⟨rfl, List.prefix_rfl⟩

theorem Dev.Extends.trans {d e f : Dev} (h : d.Extends e) (h' : e.Extends f) : d.Extends f := ⟨h'.dict.trans h.dict, h.out.trans h'.out⟩

theorem Dev.setPack_extends (d : Dev) (p : Pack) : d.Extends (d.setPack p) := ⟨rfl, List.prefix_rfl⟩

theorem Dev.sendFrame_extends (d : Dev) (typ dest : Nat) (payload : List Byte) : d.Extends (d.sendFrame typ dest payload) := ⟨rfl, List.prefix_append _ _⟩

theorem Dev.poll_extends (d : Dev) (n : Nat) : d.Extends (d.poll n) := (d.setPack_extends _).trans (Dev.sendFrame_extends ..)

theorem Dev.polls_extend (l : List Nat) (d : Dev) : d.Extends (l.foldl Dev.poll d) :=
  List.foldlRecOn l Dev.poll (motive := fun e : Dev => d.Extends e) (.refl d) fun e h n _ => h.trans (e.poll_extends n)

/-- Each node of a list is polled. -/
theorem Dev.polls_out {l : List Nat} {n : Nat} (h : n ∈ l) (d : Dev) : ∃ o ∈ (l.foldl Dev.poll d).out, o.kind = .leash ∧ o.args.take 2 = [2, n] := by
  induction l generalizing d with
  | nil => simp at h
  | cons m l ih =>
    rcases List.mem_cons.1 h with rfl | h
    · have hsent : (⟨.leash, [2, n, d.pack.seq % 256], frameBytes (d.g oOpVersion) 2 n d.own (d.pack.seq % 256) []⟩ : Output) ∈ (d.poll n).out :=
        List.mem_append_right _ List.mem_cons_self
      exact ⟨_, (Dev.polls_extend l (d.poll n)).out.subset hsent, rfl, rfl⟩
    · exact ih h (d.poll m)

theorem Dev.windowSlot_extends (x : Dev × Nat × List SlotReq) (r : SlotReq) : x.1.Extends (windowSlot x r).1 := by
  obtain ⟨d, t, l⟩ := x
  unfold Dev.windowSlot
  dsimp only
  split
  · exact .refl d
  · split
    · exact d.setPack_extends _
    · split
      · exact .refl d
      · split
        · exact (d.setPack_extends _).trans (Dev.sendFrame_extends ..)
        · exact d.sendFrame_extends ..

theorem Dev.windowGrant_extends (x : Dev × Nat) (n : Nat) : x.1.Extends (windowGrant x n).1 := by
  obtain ⟨d, t⟩ := x
  unfold Dev.windowGrant
  dsimp only
  split
  · exact .refl d
  · exact (d.setPack_extends _).trans (Dev.sendFrame_extends ..)

theorem Dev.windowReset_extends (k : Nat) : ∀ (t : Nat) (d : Dev), d.Extends (windowReset k t d).1 := by
  induction k with
  | zero => exact fun t d => .refl d
  | succ k ih =>
    intro t d
    unfold Dev.windowReset
    split
    · exact .refl d
    · split
      · exact .refl d
      · exact ((d.setPack_extends _).trans (Dev.sendFrame_extends ..)).trans (ih _ _)

theorem Dev.windowDict_extends (d : Dev) (t : Nat) : d.Extends (d.windowDict t) := by
  unfold Dev.windowDict
  split
  · exact .refl d
  · split
    · exact .refl d
    · split
      · exact d.sendFrame_extends ..
      · exact (d.setPack_extends _).trans (Dev.sendFrame_extends ..)

theorem Dev.windowSlots_extend {l : List SlotReq} {x y : Dev × Nat × List SlotReq} (h : l.foldl windowSlot x = y) : x.1.Extends y.1 :=
  h ▸ List.foldlRecOn l windowSlot (motive := fun y => x.1.Extends y.1) (.refl x.1) fun y h r _ => h.trans (windowSlot_extends y r)

theorem Dev.windowGrants_extend {l : List Nat} {x y : Dev × Nat} (h : l.foldl windowGrant x = y) : x.1.Extends y.1 :=
  h ▸ List.foldlRecOn l windowGrant (motive := fun y => x.1.Extends y.1) (.refl x.1) fun y h n _ => h.trans (windowGrant_extends y n)

theorem Dev.windowResets_extend {k t : Nat} {d : Dev} {y : Dev × Nat} (h : windowReset k t d = y) : d.Extends y.1 := h ▸ windowReset_extends k t d

/-- The BEACON of this master has gone out. -/
def Dev.beaconSent (d : Dev) : Dev := d.sendFrame 1 0xFF d.beaconPayload

/-- The roster nodes that a master polls. -/
def Dev.polledNodes (d : Dev) : List Nat := d.rosterNodes.filter (· ≠ d.own)

/-- A cycle sends its BEACON and polls the roster before its probe and its WINDOW. -/
theorem Dev.leashCycle_extends {d : Dev} (hm : d.isMaster = true) : ∃ f : Dev, f.pack.beaconTick = some f.now ∧
    (f.beaconSent.polledNodes.foldl Dev.poll f.beaconSent).Extends d.leashCycle := by
  have hlive : ¬ ¬ d.isMaster = true := not_not.2 hm
  rw [Dev.leashCycle, if_neg hlive]
  extract_lets _ _ _ agreed busy budgeted _ f sent nodes polled
  refine ⟨f, rfl, ?_⟩
  change polled.Extends _
  clear_value polled nodes sent f budgeted busy agreed
  split
  next e polls hprobe =>
    have he : polled.Extends e := by
      split at hprobe
      · cases hprobe
        exact (polled.setPack_extends _).trans (Dev.poll_extends ..)
      · cases hprobe
        exact .refl polled
    extract_lets left
    split
    next e₁ left₁ reqs hslots =>
      extract_lets _ e₂
      split
      next e₃ left₂ hgrants =>
        split
        next e₄ left₃ hresets =>
          have hslot : e.Extends e₁ := windowSlots_extend hslots
          have hgrant : e₂.Extends e₃ := windowGrants_extend hgrants
          have hreset : e₃.Extends e₄ := windowResets_extend hresets
          exact ((((he.trans hslot).trans (e₁.setPack_extends _)).trans hgrant).trans hreset).trans (e₄.windowDict_extends left₃)

/-- What a master's cycle sends. -/
theorem Dev.leashCycle_sends {d : Dev} (hm : d.isMaster = true) : ∃ f : Dev, f.pack.beaconTick = some f.now ∧
    (∃ rest, d.leashCycle.out = f.out ++ ⟨.leash, [1, 0xFF, f.pack.seq % 256],
      frameBytes (f.g oOpVersion) 1 0xFF f.own (f.pack.seq % 256) f.beaconPayload⟩ :: rest) ∧
    ∀ n < 16, bit (f.g oRoster) n = true → n ≠ f.own → ∃ o ∈ d.leashCycle.out, o.kind = .leash ∧ o.args.take 2 = [2, n] := by
  obtain ⟨f, htick, hext⟩ := Dev.leashCycle_extends hm
  refine ⟨f, htick, ?_, fun n hn hin hother => ?_⟩
  · obtain ⟨rest, hrest⟩ := ((Dev.polls_extend f.beaconSent.polledNodes f.beaconSent).trans hext).out
    exact ⟨rest, by rw [← hrest]; exact List.append_assoc _ _ _⟩
  · have hmem : n ∈ f.beaconSent.polledNodes :=
      List.mem_filter.2 ⟨List.mem_filter.2 ⟨List.mem_range.2 hn, hin⟩, decide_eq_true (show n ≠ f.beaconSent.own from hother)⟩
    obtain ⟨o, ho, hpoll⟩ := Dev.polls_out hmem f.beaconSent
    exact ⟨o, hext.out.subset ho, hpoll⟩

end Sys2Proof.Machine
end

section
/-! PROOFS. The vault energy budget of the Pack (R165, R168 to R170): what a budget gives out, and when it changes nothing. -/
namespace Sys2Proof.Machine
open Sys2Proof

/-! ### What a budget gives out (R168) -/

/-- Parts of `r` in proportion to `l`, each rounded down, are together no more than `r`. -/
theorem sum_parts_le (r : Nat) (l : List Nat) : (l.map fun k => r * k / l.sum).sum ≤ r := by
  have hscaled : ∀ (n : Nat) (l : List Nat), (l.map fun k => r * k / n).sum * n ≤ r * l.sum := by
    intro n l
    induction l with
    | nil => simp
    | cons k l ih =>
      have hpart : r * k / n * n ≤ r * k := Nat.div_mul_le_self _ _
      simp only [List.map_cons, List.sum_cons, Nat.add_mul, Nat.mul_add]
      omega
  rcases Nat.eq_zero_or_pos l.sum with hzero | hpos
  · simp [hzero]
  · exact Nat.le_of_mul_le_mul_right (hscaled l.sum l) hpos

/-- The grants of a list of shares, together. -/
def grantSum (l : List Share) : Int := (l.map fun t => (t.g : Int)).sum

/-- The shares of the Thozu that fit with all that they need, where `room` holds it, or else with their parts of `room`. -/
def givenShares (room : Int) (l : List Share) : List Share :=
  let full := l.map fun t => { t with g := (t.need + 999) / 1000 }
  if room < 1000 * grantSum full then l.map fun t => { t with g := room.toNat * t.need / (l.map (·.need)).sum / 1000 } else full

/-- The parts given out are within the room, or none is given. -/
theorem givenShares_within (room : Int) (l : List Share) : 1000 * grantSum (givenShares room l) ≤ room ∨ ∀ t ∈ givenShares room l, t.g = 0 := by
  unfold givenShares
  dsimp only
  split
  next hshort =>
    rcases lt_or_ge room 0 with hneg | hpos
    · refine .inr fun t ht => ?_
      obtain ⟨x, -, rfl⟩ := List.mem_map.1 ht
      simp [Int.toNat_of_nonpos hneg.le]
    · left
      have hrounded : 1000 * (l.map fun t => room.toNat * t.need / (l.map (·.need)).sum / 1000).sum ≤
          (l.map fun t => room.toNat * t.need / (l.map (·.need)).sum).sum := by
        rw [← List.sum_map_mul_left]
        exact List.sum_le_sum fun t _ => Nat.mul_div_le _ _
      have hparts : (l.map fun t => room.toNat * t.need / (l.map (·.need)).sum).sum ≤ room.toNat := by
        simpa [List.map_map, Function.comp_def] using sum_parts_le room.toNat (l.map (·.need))
      have hroom := Int.toNat_of_nonneg hpos
      have hsum : grantSum (l.map fun t => { t with g := room.toNat * t.need / (l.map (·.need)).sum / 1000 }) =
          ((l.map fun t => room.toNat * t.need / (l.map (·.need)).sum / 1000).sum : Nat) := by
        rw [grantSum, List.map_map, Nat.cast_list_sum, List.map_map]
        rfl
      rw [hsum]
      omega
  next hall => exact .inl (not_lt.1 hall)

/-- A budget is what its shares are given of the room, and shares of nothing. -/
theorem Dev.budgetPlan_eq (d : Dev) : ∃ (vf : Nat) (room : Int) (fed rest : List Share), (∀ t ∈ rest, t.g = 0) ∧
    d.budgetPlan = (vf, room - 1000 * grantSum (givenShares room fed), givenShares room fed ++ rest) := by
  unfold Dev.budgetPlan
  extract_lets _ vf _ _ _ _ base _ floor shares _ _ _ _ _ fed _ _ _ room given
  refine ⟨vf, room, fed, shares.filter fun t => !t.ok, fun t ht => ?_, ?_⟩
  · obtain ⟨n, -, rfl⟩ := List.mem_map.1 (List.mem_of_mem_filter ht)
    rfl
  · rfl

/-- A budget never gives out more than the bank holds. -/
theorem Dev.budgetPlan_within {d : Dev} {vf : Nat} {surplus : Int} {l : List Share} (h : d.budgetPlan = (vf, surplus, l)) :
    0 ≤ surplus ∨ ∀ t ∈ l, t.g = 0 := by
  obtain ⟨vf', room, fed, rest, hrest, heq⟩ := d.budgetPlan_eq
  obtain ⟨-, rfl, rfl⟩ : vf' = vf ∧ _ = surplus ∧ _ = l := by simpa using heq.symm.trans h
  refine (givenShares_within room fed).imp (fun hroom => by omega) fun hnone t ht => ?_
  exact (List.mem_append.1 ht).elim (hnone t) (hrest t)

/-! ### A computation of the budget (R165, R169) -/

section Budget
variable {d : Dev}

theorem Dev.budget_member (h : d.isMaster = false) : d.budget = d := if_pos (by simp [Dev.budgetDue, h])

/-- Before its third cycle a master waits until every node of the roster has answered it. -/
theorem Dev.budget_waits (hc : d.pack.cycles < 3) (h : ∃ n ∈ d.rosterNodes, (d.node n).seen = false) : d.budget = d := by
  obtain ⟨n, hn, hseen⟩ := h
  have hall : ¬ (d.rosterNodes.all fun n => (d.node n).seen) = true := fun hall => Bool.false_ne_true (hseen.symm.trans (List.all_eq_true.1 hall n hn))
  exact if_pos (by simp only [Dev.budgetDue, hall, Nat.not_le.2 hc]; simp)

/-- The Pack's state once a budget of floor `vf` and surplus `surplus` is known. -/
def Dev.budgetKnown (d : Dev) (vf : Nat) (surplus : Int) : Dev :=
  (d.setPack { d.pack with budgetValid := true, vFloor := min 65535 vf, effP := d.g oEfficiency, capUsed := min (2 ^ 32 - 1) d.capUsed }).s
    oPackSurplus (min (2 ^ 32 - 1) (surplus.toNat / 1000))

/-- Every grant of a budget is as its node has it, or is held back. -/
def Dev.Granted (d : Dev) (l : List Share) : Prop := ∀ t ∈ l, (d.node t.addr).held = true ∨ (d.node t.addr).key = t.key (d.g oOpVersion)

/-- The grants of a budget: those that changed become due under a new BudgetSeq. -/
def Dev.grantsDue (d : Dev) (l : List Share) : Dev :=
  let new := l.any fun t => !(d.node t.addr).held && (d.node t.addr).key != t.key (d.g oOpVersion)
  l.foldl Dev.dueGrant (if new then d.setPack { d.pack with budgetSeq := (d.pack.budgetSeq + 1) % 65536 } else d)

theorem Dev.grantsDue_granted {l : List Share} (h : d.Granted l) : d.grantsDue l = d := by
  have hnew : ¬ (l.any fun t => !(d.node t.addr).held && (d.node t.addr).key != t.key (d.g oOpVersion)) = true := by
    rw [List.any_eq_true]
    rintro ⟨t, ht, hchanged⟩
    rcases h t ht with hheld | hkey
    · simp [hheld] at hchanged
    · simp [hkey] at hchanged
  unfold Dev.grantsDue
  dsimp only
  rw [if_neg hnew]
  exact List.foldlRecOn l Dev.dueGrant (motive := fun e => e = d) rfl fun e he t ht => by
    rw [he]
    exact if_pos (h t ht)

/-- A computed budget, with source 29 live exactly when a Thozu does not fit. -/
theorem Dev.budget_eq (hm : d.isMaster = true) (hdue : 3 ≤ d.pack.cycles ∨ ∀ n ∈ d.rosterNodes, (d.node n).seen = true) {vf : Nat} {surplus : Int}
    {l : List Share} (h : d.budgetPlan = (vf, surplus, l)) : ∃ e : Dev, e = (d.budgetKnown vf surplus).grantsDue l ∧
      d.budget = if l.any fun t => !t.ok then (if e.faults.live.testBit 29 then e else e.faultLive 29) else e.unlive 29 := by
  have hall : (d.rosterNodes.all fun n => (d.node n).seen) = true ↔ ∀ n ∈ d.rosterNodes, (d.node n).seen = true := List.all_eq_true
  have hready : ¬ ¬ d.budgetDue = true := not_not.2 (decide_eq_true ⟨hm, hdue.imp_right hall.2⟩)
  rw [Dev.budget, if_neg hready, h]
  exact ⟨_, rfl, rfl⟩

theorem Dev.budgetKnown_result (d : Dev) (vf : Nat) (surplus : Int) : (d.budgetKnown vf surplus).pack.budgetSeq = d.pack.budgetSeq ∧
    (d.budgetKnown vf surplus).pack.budgetValid = true ∧ (d.budgetKnown vf surplus).g oPackSurplus = min (2 ^ 32 - 1) (surplus.toNat / 1000) ∧
    ∀ o, o ≠ oPackSurplus → (d.budgetKnown vf surplus).g o = d.g o :=
  ⟨rfl, rfl, Dev.g_s_same _ _ _, fun _ ho => Dev.g_s_chip _ _ (by decide) (by decide) ho⟩

theorem Dev.Granted.known {l : List Share} (h : d.Granted l) (vf : Nat) (surplus : Int) : (d.budgetKnown vf surplus).Granted l := by
  obtain ⟨-, -, -, hkeep⟩ := d.budgetKnown_result vf surplus
  intro t ht
  rw [hkeep _ (by decide)]
  exact h t ht

theorem Dev.absentExpire_eq (d : Dev) (n : Nat) : d.absentExpire n =
    if ∃ a ∈ d.pack.absents, a.node = n then (d.setPack { d.pack with absents := d.pack.absents.filter (·.node ≠ n) }).budget else d :=
  if_congr (by simp) rfl rfl

end Budget

end Sys2Proof.Machine
end

section
open Sys2Proof Sys2Proof.Machine

/-- Settles O60: every command of the Pack by the lemma about its function, with the device that the statement asks for named by its helper. -/
theorem packAndLeashFollowTheirRules : Obligations.PackAndLeashFollowTheirRules := by
  unfold Obligations.PackAndLeashFollowTheirRules
  rintro s _ hp rfl
  refine ⟨fun f c typ cast hf hc => ?frames, ⟨fun hm => ?member, fun hm => ?cycle⟩, ?missed,
    fun f hf hen b p src hb hpay hsrc => ?received, fun id hid => ⟨fun h => ?notForwarded, fun h => ?forwardTimeout⟩,
    ⟨fun h => ?noTakeover, fun hen hm => ?takeover⟩, ⟨fun h => ?grantKept, fun hg hm hi hv => ?grantExpires⟩,
    fun hm => ⟨fun hc hunseen => ?budgetWaits, fun hdue vf surplus l hplan => ⟨?budgetWithin, ?budget⟩⟩,
    fun n hn => ?absent, ?waveStart, fun hm => ⟨fun hnone => ?noSlot, fun r hr => ?slot⟩, fun ht v hv => ?packReset⟩
  case frames =>
    obtain ⟨k, hk⟩ := exec_frame hp hf hc
    exact ⟨fun h => by rw [hk, Dev.onFrame_idle h], fun h hok => by rw [hk, Dev.onFrame_wrong h hok]⟩
  case member =>
    refine ⟨?_, ?_, ?_, fun n hn => ?_⟩
    · rw [exec_leashCycle hp, Dev.leashCycle, if_pos (by simp [hm])]
    · rw [exec_budgetCompute hp, Dev.budget_member hm]
    · rw [exec_slotCmdSend hp, Dev.slotSend_idle (.inl hm)]
    · rw [exec_pollMissed hp hn, Dev.pollMissed_idle (.inl hm)]
  case cycle =>
    obtain ⟨f, hsent⟩ := Dev.leashCycle_sends hm
    exact ⟨f, _, exec_leashCycle hp, hsent⟩
  case missed =>
    rintro n hn _ rfl
    rw [exec_pollMissed hp hn]
    refine ⟨fun hnone => by rw [Dev.pollMissed_idle (.inr hnone)], fun hm hpoll => ⟨fun hfew => ?_, fun hin hthird => ?_⟩⟩
    · rw [Dev.pollMissed_counts hm hpoll hfew, Dev.missCounted]
    · obtain ⟨hroster, hnode, habsent⟩ := (s.dev.missCounted n).nodeLeft_result n
      rw [Dev.missCounted_lastGrant] at habsent
      exact ⟨_, by rw [Dev.pollMissed_leaves hm hpoll hin hthird], hroster, hnode, habsent⟩
  case received =>
    subst hb hpay hsrc
    refine ⟨fun hok => ⟨fun h => ?beaconIgnored, fun h7 hown hyield => ?beacon⟩, fun hok => ?poll,
      fun hok => ⟨fun h => ?statusIgnored, fun hm h15 hpoll => ⟨fun hkind => ?statusWrong, fun hkind => ?status⟩⟩,
      fun hok step hstep => ⟨fun h => ?grantIgnored, fun hsrc hm hnew => ?grant⟩, fun hok => ⟨fun h => ?ackIgnored, fun r hm h8 h16 hr => ?ack⟩,
      fun hok => ⟨fun hsrc hkind => ?reset, fun h => ?resetIgnored⟩,
      fun hok data hd => ⟨fun h => ?reqIgnored, fun hsrc hm haway => ⟨fun hdata hfirst => ?reqFirst, fun l hdata hmsg hrsp hlen => ?reqPull⟩⟩,
      fun hok data hd => ⟨fun h => ?rspIgnored, fun x rest hm hfwd hnode hid hsent hdata hseq => ?rsp⟩⟩
    case beaconIgnored => rw [exec_beacon hp hf, Dev.rxBeacon_ignored hen hok h]
    case beacon =>
      obtain ⟨e, he⟩ := Dev.rxBeacon_taken hen hok h7 hown hyield
      obtain ⟨hrole, haddr, hroster, hversion⟩ := e.beaconTaken_objects f
      exact ⟨e.beaconTaken f, by rw [exec_beacon hp hf, he], hrole, haddr, hroster, hversion, rfl, rfl, rfl, rfl⟩
    case poll => exact ⟨_, exec_poll hp hf, Dev.rxPoll_answers hen hok⟩
    case statusIgnored => rw [exec_status hp hf, Dev.rxStatus_ignored hen hok h]
    case statusWrong => rw [exec_status hp hf, Dev.rxStatus_wrongKind hen hok hm h15 hpoll hkind]
    case status =>
      obtain ⟨e, he, hjoined⟩ := Dev.rxStatus_joins hen hok hm h15 hpoll hkind
      rw [exec_status hp hf]
      exact ⟨e, he.imp (fun he => by rw [he]) fun he => by rw [he], hjoined⟩
    case grantIgnored => rw [exec_grant hp hf, Dev.rxGrant_ignored hen hok hstep h]
    case grant =>
      obtain ⟨hseq, henergy, hoffset, hcap, hpower⟩ := s.dev.grantTaken_objects (framePay f 0 2) (framePay f 2 1) (framePay f 3 1) (framePay f 4 4)
        (framePay f 8 4) (framePay f 12 2) (framePay f 16 4)
      exact ⟨_, by rw [exec_grant hp hf, Dev.rxGrant_taken hen hok hstep hsrc hm hnew], hseq, henergy, hoffset, hcap, hpower, rfl, rfl⟩
    case ackIgnored => rw [exec_slotAck hp hf, Dev.rxSlotAck_ignored hen hok h]
    case ack =>
      obtain ⟨x, hx, hslots⟩ := Dev.rxSlotAck_settles hen hok hm h8 h16 hr
      refine ⟨s.dev.slotSettled (frameAtByte f 3) r x, by rw [exec_slotAck hp hf, hx], rfl, testBit_setBit_same _ _ _, ?_⟩
      rw [Dev.slotSettled_node]
      exact hslots
    case reset => rw [exec_leashReset hp hf, Dev.rxReset_resets hen hok hsrc hkind]
    case resetIgnored => rw [exec_leashReset hp hf, Dev.rxReset_ignored hen hok h]
    case reqIgnored => rw [exec_dictReq hp hf, Dev.rxDictReq_ignored hen hok h]
    case reqFirst => exact ⟨_, by rw [exec_dictReq hp hf, Dev.rxDictReq_first hen hok hsrc hm haway hd hdata hfirst], rfl, rfl, rfl, rfl, rfl⟩
    case reqPull => exact ⟨_, by rw [exec_dictReq hp hf, Dev.rxDictReq_pulls hen hok hsrc hm haway hd hdata hmsg hrsp hlen], rfl, rfl, _, rfl, rfl⟩
    case rspIgnored => rw [exec_dictRsp hp hf, Dev.rxDictRsp_ignored hen hok h]
    case rsp =>
      have hgathers := Dev.rxDictRsp_gathers hen hok hm hfwd hnode hid hsent hd hdata hseq rfl
      refine ⟨fun hmore => ?_, fun hlast => ?_⟩
      · have hkept := hgathers.trans (if_neg (by simp [hmore]))
        exact ⟨_, (exec_dictRsp hp hf).trans (congrArg (fun e : Dev => Host.Outcome.next (s.leaves e)) hkept), rfl, rfl⟩
      · have hanswered := hgathers.trans (if_pos hlast)
        exact ⟨_, by rw [exec_dictRsp hp hf, hanswered], rfl, _, rfl, rfl, rfl⟩
  case notForwarded => rw [exec_forwardTimeout hp hid, Dev.forwardTimeout_idle h]
  case forwardTimeout => exact ⟨_, exec_forwardTimeout hp hid, Dev.forwardTimeout_answers h⟩
  case noTakeover => rw [exec_mastershipTakeover hp, Dev.takeover_idle h]
  case takeover =>
    obtain ⟨e, he, hmaster⟩ := Dev.takeover_takes hen hm
    exact ⟨e, by rw [exec_mastershipTakeover hp, he], hmaster⟩
  case grantKept => rw [exec_grantExpire hp, Dev.grantExpire_kept h]
  case grantExpires =>
    obtain ⟨henergy, hcap, hpower, hoffset⟩ := s.dev.grantGone_objects
    exact ⟨_, by rw [exec_grantExpire hp, Dev.grantExpire_expires hg hm hi hv], henergy, hcap, hpower, hoffset, rfl⟩
  case budgetWaits => rw [exec_budgetCompute hp, Dev.budget_waits hc hunseen]
  case budgetWithin => exact Dev.budgetPlan_within hplan
  case budget =>
    obtain ⟨e, rfl, hbudget⟩ := Dev.budget_eq hm hdue hplan
    obtain ⟨hseq, hvalid, hsurplus, hkeep⟩ := s.dev.budgetKnown_result vf surplus
    refine ⟨_, by rw [exec_budgetCompute hp, hbudget], fun hgranted => ?_⟩
    rw [Dev.grantsDue_granted (Dev.Granted.known hgranted vf surplus)]
    exact ⟨hseq, hvalid, hsurplus, hkeep _ (by decide)⟩
  case absent =>
    rw [exec_absentHoldExpire hp hn, Dev.absentExpire_eq]
    split
    · rfl
    · rfl
  case waveStart =>
    rw [exec_waveStart hp, Dev.waveStart]
    split
    · rfl
    · rfl
  case noSlot => rw [exec_slotCmdSend hp, Dev.slotSend_idle (.inr hnone)]
  case slot =>
    obtain ⟨hmem, hon, hunsent, hdemand⟩ := Dev.slotNext_spec hr
    refine ⟨hmem, hon, hunsent, hdemand, fun hshort => ?_, fun hholds tok htok => ?_⟩
    · rw [exec_slotCmdSend hp, Dev.slotSend_waits hm hr hshort]
    · subst htok
      exact ⟨_, by rw [exec_slotCmdSend hp, Dev.slotSend_sends hm hr hholds rfl], rfl, rfl, rfl, mem_listSwap _ hmem,
        Dev.sendSlot_out (y := { r with token := (s.dev.pack.token + 1) % 65536, sends := 1 }) (s.dev.slotCharged r _) hon⟩
  case packReset =>
    rw [exec_packResetMember hp hv]
    refine ⟨fun h7 => ?_, fun h7 => ⟨fun hm => ?_, fun hm hown => ?_, fun hm hother => ?_⟩⟩
    · rw [Dev.packReset_range ht.present ht.openNow hp h7]
    · rw [Dev.packReset_member ht.present ht.openNow h7 hp hm]
    · rw [Dev.packReset_own ht.present ht.openNow h7 hm hown]
    · rw [Dev.packReset_other ht.present ht.openNow h7 hm hother]

end

section
/-! PROOFS. The instructions of an Erril core (08_erril_cores.md): what a running core leaves when its instruction completes, goes elsewhere or traps. -/
namespace Sys2Proof.Machine
open Sys2Proof

/-! ### A running core -/

section Runs
variable {s : State} {core : BitVec 6} {d e : Dev} {c k : Core} {a : Nat} {i : Instr} {f : Dev → Core → Nat → Res}

theorem State.Runs.run_eq (h : s.Runs core d c a) (f : Dev → Core → Nat → Res) : s.dev.run core.toNat f = d.settleRes core.toNat a (f d c a) := by
  obtain ⟨_, ⟨hruns, hnone, hawake, loc, cls, hfetch⟩, rfl, rfl⟩ := h
  simp [Dev.run, hruns, hnone, hawake, hfetch, Dev.pcOf]

/-- An instruction of meaning `f`: what `f` does with the core, settled. -/
theorem State.Runs.exec_run (h : s.Runs core d c a) (hi : exec i s = act true s (·.run core.toNat f)) :
    exec i s = .next (s.leaves (d.settleRes core.toNat a (f d c a))) := by
  rw [hi, act_on s _ h.powered, h.run_eq]

theorem State.Runs.exec_seqDev (h : s.Runs core d c a) (hi : exec i s = act true s (·.run core.toNat f)) (hf : f d c a = .done (a + 4) false e) :
    exec i s = .next (s.seqDev core d a e) := by
  rw [h.exec_run hi, hf]; rfl

/-- An instruction that completes with its core as `k`. -/
theorem State.Runs.exec_seq (h : s.Runs core d c a) (hi : exec i s = act true s (·.run core.toNat f))
    (hf : f d c a = .done (a + 4) false (d.setCore core.toNat k)) : exec i s = .next (s.seq core d a k) := h.exec_seqDev hi hf

theorem State.Runs.exec_goesDev {t : Nat} (h : s.Runs core d c a) (hi : exec i s = act true s (·.run core.toNat f)) (hf : f d c a = .done t true e) :
    exec i s = .next (s.goesDev core d a t e) := by
  rw [h.exec_run hi, hf]; rfl

theorem State.Runs.exec_trapsAt {code detail value epc : Nat} (h : s.Runs core d c a) (hi : exec i s = act true s (·.run core.toNat f))
    (hf : f d c a = .trap code detail value epc false d) : exec i s = .next (s.trapsAt core d code detail value epc) := by
  rw [h.exec_run hi, hf]; rfl

/-- An instruction that changes its core alone. -/
theorem State.Runs.exec_reg {f : Core → Core} (h : s.Runs core d c a) (hi : exec i s = act true s (·.runReg core.toNat f)) (hk : f c = k) :
    exec i s = .next (s.seq core d a k) := by
  subst hk; exact h.exec_seq hi rfl

section Alu
variable {rd ra rb : Nat} {imm r fl : Word} {f : Word → Word → Word → Word × Word}

/-- An instruction of two sources. -/
theorem State.Runs.exec_alu3 (h : s.Runs core d c a) (hi : exec i s = act true s (·.alu3 core.toNat rd ra rb f))
    (hf : f c.flags (c.rw ra) (c.rw rb) = (r, fl)) : exec i s = .next (s.seq core d a (c.result rd r fl)) := by
  refine h.exec_reg hi ?_
  simp only [hf]; rfl

/-- An instruction of two sources that names w0 as its destination writes FLAGS alone. -/
theorem State.Runs.exec_compare (h : s.Runs core d c a) (hi : exec i s = act true s (·.alu3 core.toNat 0 ra rb f))
    (hf : f c.flags (c.rw ra) (c.rw rb) = (r, fl)) : exec i s = .next (s.seq core d a { c with flags := fl }) := (h.exec_alu3 hi hf :)

/-- An instruction of one source and an immediate. -/
theorem State.Runs.exec_aluI (h : s.Runs core d c a) (hi : exec i s = act true s (·.aluI core.toNat rd ra imm f))
    (hf : f c.flags (c.rw ra) imm = (r, fl)) : exec i s = .next (s.seq core d a (c.result rd r fl)) := by
  refine h.exec_reg hi ?_
  simp only [hf]; rfl

/-- A comparison with an immediate writes FLAGS alone. -/
theorem State.Runs.exec_compareI (h : s.Runs core d c a) (hi : exec i s = act true s (·.aluI core.toNat 0 ra imm f))
    (hf : f c.flags (c.rw ra) imm = (r, fl)) : exec i s = .next (s.seq core d a { c with flags := fl }) := (h.exec_aluI hi hf :)

end Alu

end Runs

/-! ### Sums and differences (R187) -/

theorem addF_eq (f x y : Word) : addF f x y false =
    (x + y, flagsZNCV f (x + y) (decide (2 ^ 64 ≤ x.toNat + y.toNat)) (ovf (x.toInt + y.toInt))) := by
  simp [addF, BitVec.ofNat_add]

theorem addF_carry (f x y : Word) {k : Nat} (hk : k = if f.getLsbD 2 then 1 else 0) : addF f x y (flagC f) =
    (x + y + BitVec.ofNat 64 k, flagsZNCV f (x + y + BitVec.ofNat 64 k) (decide (2 ^ 64 ≤ x.toNat + y.toNat + k)) (ovf (x.toInt + y.toInt + k))) := by
  subst hk
  simp only [addF, flagC, BitVec.ofNat_add, BitVec.ofNat_toNat, BitVec.setWidth_eq]; rfl

theorem subF_eq (f x y : Word) : subF f x y false = (x - y, flagsZNCV f (x - y) (decide (x.toNat < y.toNat)) (ovf (x.toInt - y.toInt))) := by
  simp [subF]

theorem subF_borrow (f x y : Word) {k : Nat} (hk : k = if f.getLsbD 2 then 1 else 0) : subF f x y (flagC f) =
    (x - y - BitVec.ofNat 64 k, flagsZNCV f (x - y - BitVec.ofNat 64 k) (decide (x.toNat < y.toNat + k)) (ovf (x.toInt - y.toInt - k))) := by
  subst hk; rfl

theorem subF_neg (f x : Word) : subF f 0 x false = (-x, flagsZNCV f (-x) (decide (x ≠ 0)) (ovf (-x.toInt))) := by
  simp [subF_eq, BitVec.toNat_eq, Nat.pos_iff_ne_zero]

end Sys2Proof.Machine
end

section
open Sys2Proof Sys2Proof.Machine

/-- Settles O11: each clause is the sum or difference of its sources. -/
theorem addSubtractCompareResults : Obligations.AddSubtractCompareResults := by
  unfold Obligations.AddSubtractCompareResults
  rintro s core d c a h rd ra rb imm _ _ _ k rfl rfl rfl hk
  exact ⟨h.exec_alu3 rfl (addF_eq ..), h.exec_alu3 rfl (addF_carry _ _ _ hk), h.exec_alu3 rfl (subF_eq ..), h.exec_alu3 rfl (subF_borrow _ _ _ hk),
    h.exec_alu3 rfl (subF_neg ..), h.exec_compare rfl (subF_eq ..), h.exec_aluI rfl (addF_eq ..), h.exec_compareI rfl (subF_eq ..)⟩

end

section
/-! PROOFS. Results and flags of the arithmetic instructions (R187 to R189). -/
namespace Sys2Proof.Machine
open Sys2Proof

/-! ### FLAGS (Table 8.4) -/

theorem getLsbD_setF (f : Word) (i : Nat) (b : Bool) (k : Nat) : (setF f i b).getLsbD k = if k = i ∧ i < 64 then b else f.getLsbD k := by
  have hone : (BitVec.ofNat 64 (2 ^ i)).getLsbD k = (decide (k < 64) && decide (i = k)) := by
    rw [BitVec.getLsbD_ofNat, Nat.testBit_two_pow]
  unfold setF
  cases b with
  | true =>
    rw [if_pos rfl, BitVec.getLsbD_or, hone]
    by_cases hk : k = i
    · subst hk; by_cases h : k < 64 <;> simp [h]
    · simp [hk, Ne.symm hk]
  | false =>
    rw [if_neg Bool.false_ne_true, BitVec.getLsbD_and, BitVec.getLsbD_not, hone]
    by_cases hk : k = i
    · subst hk
      by_cases h : k < 64
      · simp [h]
      · simp [h, f.getLsbD_of_ge k (by omega)]
    · by_cases h : k < 64
      · simp [h, hk, Ne.symm hk]
      · simp [h, hk, f.getLsbD_of_ge k (by omega)]

theorem getLsbD_flagsZN (f r : Word) (k : Nat) :
    (flagsZN f r).getLsbD k = if k = 0 then decide (r = 0) else if k = 1 then r.getLsbD 63 else f.getLsbD k := by
  rw [flagsZN, getLsbD_setF, getLsbD_setF]
  by_cases h0 : k = 0
  · simp [h0]; rfl
  · by_cases h1 : k = 1
    · simp [h1, BitVec.msb_eq_getLsbD_last]
    · simp [h0, h1]

theorem getLsbD_flagsZNCV (f r : Word) (cy v : Bool) (k : Nat) :
    (flagsZNCV f r cy v).getLsbD k = if k = 2 then cy else if k = 3 then v else (flagsZN f r).getLsbD k := by
  rw [flagsZNCV, getLsbD_setF, getLsbD_setF]
  by_cases h2 : k = 2
  · simp [h2]
  · simp [h2]

theorem znF_eq (f r : Word) : znF f r = (r, flagsZN f r) := rfl

/-! ### Shifts (R188) -/

theorem sra_eq (x : Word) (n : Nat) : sra x n = x.sshiftRight (min n 63) := by
  unfold sra
  split
  next h => rw [Nat.min_eq_right (by omega)]
  next h => rw [Nat.min_eq_left (by omega)]

theorem sll_of_lt (x : Word) {n : Nat} (h : n < 64) : sll x n = x <<< n := if_neg (by omega)

theorem srl_of_lt (x : Word) {n : Nat} (h : n < 64) : srl x n = x >>> n := if_neg (by omega)

theorem sra_of_lt (x : Word) {n : Nat} (h : n < 64) : sra x n = x.sshiftRight n := if_neg (by omega)

theorem ror_of_lt (x : Word) {n : Nat} (h : n < 64) : ror x n = x.rotateRight n := by rw [ror, Nat.mod_eq_of_lt h]

/-! ### Comparisons -/

theorem slt_iff (x y : Word) : x.slt y = true ↔ x.toInt < y.toInt := by simp [BitVec.slt]

theorem ult_iff (x y : Word) : x.ult y = true ↔ x.toNat < y.toNat := by simp [BitVec.ult]

/-! ### Counts of bits -/

/-- The leading zeros: nothing above the bit that ends them. -/
theorem clz_spec (x : Word) : clz x ≤ 64 ∧ x.toNat < 2 ^ (64 - clz x) ∧ (clz x < 64 → x.getLsbD (63 - clz x) = true) := by
  unfold clz
  split
  next h => simp [h]
  next h =>
    have hne : x.toNat ≠ 0 := fun h0 => h (BitVec.eq_of_toNat_eq h0)
    have hlog : x.toNat.log2 < 64 := (Nat.log2_lt hne).2 x.isLt
    rw [show 64 - (63 - x.toNat.log2) = x.toNat.log2 + 1 by omega, show 63 - (63 - x.toNat.log2) = x.toNat.log2 by omega]
    exact ⟨by omega, Nat.lt_log2_self, fun _ => Nat.testBit_log2 hne⟩

/-- The trailing zeros: nothing below the bit that ends them. -/
theorem ctz_spec (x : Word) : ctz x ≤ 64 ∧ (∀ j < ctz x, x.getLsbD j = false) ∧ (ctz x < 64 → x.getLsbD (ctz x) = true) := by
  unfold ctz
  cases h : (List.range 64).find? fun i => x.getLsbD i with
  | none =>
    rw [List.find?_range_eq_none] at h
    exact ⟨le_rfl, fun j hj => by simpa using h j hj, fun hlt => absurd hlt (lt_irrefl _)⟩
  | some k =>
    obtain ⟨hbit, hk, hbelow⟩ := List.find?_range_eq_some.1 h
    exact ⟨(List.mem_range.1 hk).le, fun j hj => by simpa using hbelow j hj, fun _ => hbit⟩

theorem popc_eq (x : Word) : popc x = (List.range 64).countP fun j => x.getLsbD j := List.countP_eq_length_filter.symm

/-! ### Bytes -/

/-- Bit `i` of a little-endian number is a bit of its byte `i / 8`. -/
theorem testBit_leNat : ∀ (l : List Byte) (i : Nat), (leNat l).testBit i = (l.getD (i / 8) 0).getLsbD (i % 8)
  | [], i => by simp [leNat]
  | b :: r, i => by
    have hsplit : leNat (b :: r) = 2 ^ 8 * leNat r + b.toNat := by rw [leNat]; omega
    rw [hsplit, Nat.testBit_two_pow_mul_add _ b.isLt]
    split
    next h => rw [Nat.div_eq_of_lt h, Nat.mod_eq_of_lt h, List.getD_cons_zero]; rfl
    next h =>
      obtain ⟨j, rfl⟩ := Nat.exists_eq_add_of_le' (Nat.le_of_not_lt h)
      rw [Nat.add_sub_cancel, testBit_leNat r j, Nat.add_div_right _ (by decide), Nat.add_mod_right, List.getD_cons_succ]

/-- Byte `i` of the bytes of a number. -/
theorem getD_leBytes : ∀ (n v i : Nat), i < n → (leBytes n v).getD i 0 = BitVec.ofNat 8 (v / 256 ^ i)
  | 0, _, _, h => absurd h (Nat.not_lt_zero _)
  | _ + 1, v, 0, _ => by rw [leBytes, List.getD_cons_zero, Nat.pow_zero, Nat.div_one]
  | n + 1, v, i + 1, h => by
    rw [leBytes, List.getD_cons_succ, getD_leBytes n _ i (by omega), Nat.div_div_eq_div_mul, Nat.pow_succ']

/-- BSWAP moves byte `j / 8` to byte `7 - j / 8`. -/
theorem getLsbD_bswap (x : Word) {j : Nat} (hj : j < 64) : (bswap x).getLsbD j = x.getLsbD (56 - j / 8 * 8 + j % 8) := by
  have hmirror : (leBytes 8 x.toNat).reverse.getD (j / 8) 0 = (leBytes 8 x.toNat).getD (7 - j / 8) 0 := by
    rw [List.getD_reverse (j / 8) (by simp; omega), length_leBytes]
  have hbyte : (56 - j / 8 * 8 + j % 8) = 8 * (7 - j / 8) + j % 8 := by omega
  rw [bswap, BitVec.getLsbD_ofNat, decide_eq_true hj, Bool.true_and, beNat, testBit_leNat, hmirror, getD_leBytes 8 _ _ (by omega), BitVec.getLsbD_ofNat,
    decide_eq_true (Nat.mod_lt j (by decide) : j % 8 < 8), Bool.true_and, pow256_eq, Nat.testBit_div_two_pow, hbyte, Nat.add_comm]
  rfl

/-! ### Products and quotients (R189) -/

theorem mulF_eq (f x y : Word) : mulF f x y = (BitVec.ofNat 64 (x.toNat * y.toNat),
    flagsZNCV f (BitVec.ofNat 64 (x.toNat * y.toNat)) (decide (2 ^ 64 ≤ x.toNat * y.toNat)) (ovf (x.toInt * y.toInt))) := by
  have hlow : x * y = BitVec.ofNat 64 (x.toNat * y.toNat) := by rw [BitVec.ofNat_mul, BitVec.ofNat_toNat, BitVec.ofNat_toNat]; simp
  rw [mulF, hlow]

theorem divF_zero (f x : Word) (signed : Bool) : divF f x 0 signed = (BitVec.allOnes 64, x, flagsZN (setF f 4 true) (BitVec.allOnes 64)) := if_pos rfl

theorem least_iff (x : Word) : x = BitVec.ofNat 64 (2 ^ 63) ↔ x.toInt = -2 ^ 63 := by
  rw [← BitVec.toInt_inj]; exact Iff.rfl

theorem allOnes_iff (x : Word) : x = BitVec.allOnes 64 ↔ x.toInt = -1 := by
  rw [← BitVec.toInt_inj]; exact Iff.rfl

theorem divF_least (f : Word) {x y : Word} (hx : x.toInt = -2 ^ 63) (hy : y.toInt = -1) : divF f x y true = (x, 0, flagsZN (setF f 3 true) x) := by
  have hy0 : y ≠ 0 := by rintro rfl; cases hy
  rw [divF, if_neg hy0, if_pos ⟨rfl, (least_iff x).2 hx, (allOnes_iff y).2 hy⟩]

theorem divF_signed (f : Word) {x y q r : Word} (hy : y ≠ 0) (h : ¬ (x.toInt = -2 ^ 63 ∧ y.toInt = -1)) (hq : q.toInt = x.toInt.tdiv y.toInt)
    (hr : r.toInt = x.toInt - q.toInt * y.toInt) : divF f x y true = (q, r, flagsZN (setF f 3 false) q) := by
  have hquot : BitVec.ofInt 64 (x.toInt.tdiv y.toInt) = q := by rw [← hq, BitVec.ofInt_toInt]
  have hrem : x - q * y = r := by
    rw [← BitVec.ofInt_toInt (x := r), hr, Int.sub_eq_add_neg, BitVec.ofInt_add, BitVec.ofInt_neg, BitVec.ofInt_mul, BitVec.ofInt_toInt,
      BitVec.ofInt_toInt, BitVec.ofInt_toInt, BitVec.sub_eq_add_neg]
  have hover : ¬ (true = true ∧ x = BitVec.ofNat 64 (2 ^ 63) ∧ y = BitVec.allOnes 64) :=
    fun ⟨_, hx, hy⟩ => h ⟨(least_iff x).1 hx, (allOnes_iff y).1 hy⟩
  rw [divF, if_neg hy, if_neg hover]
  simp only [if_true, hquot, hrem]

theorem divF_unsigned (f : Word) {x y q r : Word} (hy : y ≠ 0) (hq : q.toNat = x.toNat / y.toNat) (hr : r.toNat = x.toNat % y.toNat) :
    divF f x y false = (q, r, flagsZN (setF f 3 false) q) := by
  have hquot : BitVec.ofNat 64 (x.toNat / y.toNat) = q := by rw [← hq, BitVec.ofNat_toNat, BitVec.setWidth_eq]
  have hrem : x - q * y = r := by
    have hx : x = q * y + r := BitVec.eq_of_toNat_eq (by
      rw [BitVec.toNat_add, BitVec.toNat_mul, hq, hr, Nat.mod_add_mod, Nat.div_add_mod', Nat.mod_eq_of_lt x.isLt])
    rw [hx, add_sub_cancel_left]
  rw [divF, if_neg hy, if_neg (by simp)]
  simp only [Bool.false_eq_true, if_false, hquot, hrem]

/-! ### Instructions that write Z and N alone, or divide -/

section Results
variable {s : State} {core : BitVec 6} {d : Dev} {c : Core} {a : Nat} {i : Instr} {op rd ra rb rc : Nat} {imm : BitVec 16} {x q r f : Word}

section ZN
variable {g : Word → Word → Word} {out : Word → State}

theorem State.Runs.exec_zn (h : s.Runs core d c a) (hout : ∀ r, out r = s.seq core d a (c.result rd r (flagsZN c.flags r)))
    (hi : exec i s = act true s (·.alu3 core.toNat rd ra rb fun f x y => znF f (g x y))) (hr : g (c.rw ra) (c.rw rb) = r) : exec i s = .next (out r) := by
  rw [hout]; exact h.exec_alu3 hi (congrArg (znF c.flags) hr)

theorem State.Runs.exec_znI (h : s.Runs core d c a) (hout : ∀ r, out r = s.seq core d a (c.result rd r (flagsZN c.flags r)))
    (hi : exec i s = act true s (·.aluI core.toNat rd ra x fun f x y => znF f (g x y))) (hr : g (c.rw ra) x = r) : exec i s = .next (out r) := by
  rw [hout]; exact h.exec_aluI hi (congrArg (znF c.flags) hr)

end ZN

/-- A shift by an amount below 64. -/
theorem State.Runs.exec_shiftI {g : Word → Nat → Word} {out : Word → State} (h : s.Runs core d c a)
    (hout : ∀ r, out r = s.seq core d a (c.result rd r (flagsZN c.flags r))) (hi : exec i s = act true s (·.shiftI core.toNat op rd ra imm g))
    (himm : imm.toNat < 64) (hr : g (c.rw ra) imm.toNat = r) : exec i s = .next (out r) := by
  subst hr
  rw [hout]; exact h.exec_seq hi (if_neg (by omega))

/-- A shift by 64 or more is no instruction. -/
theorem State.Runs.exec_shiftI_illegal {g : Word → Nat → Word} (h : s.Runs core d c a) (hi : exec i s = act true s (·.shiftI core.toNat op rd ra imm g))
    (himm : 64 ≤ imm.toNat) : exec i s = .next (s.trapsAt core d 2 0 (encI op rd ra imm.toNat) a) := h.exec_trapsAt hi (if_pos himm)

/-- A divide that the trap of UCTL stops. -/
theorem State.Runs.exec_divide_traps {signed : Bool} (h : s.Runs core d c a) (hi : exec i s = act true s (·.divide core.toNat rd ra rb rc signed))
    (hy : c.rw rb = 0) (htrap : c.uctl.getLsbD 0 = true) : exec i s = .next (s.trapsAt core d 0x0A 0 0 a) := h.exec_trapsAt hi (if_pos ⟨hy, htrap⟩)

/-- A divide that completes. -/
theorem State.Runs.exec_divide {signed : Bool} {out : Word → Word → Word → State} (h : s.Runs core d c a)
    (hout : ∀ q r f, out q r f = s.seq core d a { (c.ww rc r).ww rd q with flags := flagsZN f q })
    (hi : exec i s = act true s (·.divide core.toNat rd ra rb rc signed)) (hgo : c.rw rb ≠ 0 ∨ c.uctl.getLsbD 0 = false)
    (hf : divF c.flags (c.rw ra) (c.rw rb) signed = (q, r, flagsZN f q)) : exec i s = .next (out q r f) := by
  have hno : ¬ (c.rw rb = 0 ∧ c.uctl.getLsbD 0 = true) := by
    rintro ⟨hz, ht⟩
    rcases hgo with hgo | hgo
    · exact hgo hz
    · rw [ht] at hgo; cases hgo
  rw [hout, h.exec_run hi]
  simp only [hno, if_false, hf]
  rfl

end Results

end Sys2Proof.Machine
end

section
open Sys2Proof Sys2Proof.Machine

/-- Settles O12: each clause is the result of its operation on the sources. -/
theorem logicAndShiftResults : Obligations.LogicAndShiftResults := by
  unfold Obligations.LogicAndShiftResults
  rintro s core d c a h rd ra rb imm _ _ _ out rfl rfl rfl hout
  refine ⟨h.exec_zn hout rfl rfl, h.exec_zn hout rfl rfl, h.exec_zn hout rfl rfl, h.exec_zn hout rfl rfl,
    h.exec_znI hout rfl rfl, h.exec_znI hout rfl rfl, h.exec_znI hout rfl rfl, h.exec_zn hout rfl rfl, h.exec_zn hout rfl rfl, h.exec_zn hout rfl (sra_eq ..),
    h.exec_zn hout rfl rfl, h.exec_zn hout rfl rfl, fun himm => ⟨?_, ?_, ?_, ?_⟩, fun himm => ⟨?_, ?_, ?_, ?_⟩⟩
  · exact h.exec_shiftI hout rfl himm (sll_of_lt _ himm)
  · exact h.exec_shiftI hout rfl himm (srl_of_lt _ himm)
  · exact h.exec_shiftI hout rfl himm (sra_of_lt _ himm)
  · exact h.exec_shiftI hout rfl himm (ror_of_lt _ himm)
  all_goals exact h.exec_shiftI_illegal rfl himm

/-- Settles O13: each clause is the result of its operation on the sources. -/
theorem minMaxAndCountResults : Obligations.MinMaxAndCountResults := by
  unfold Obligations.MinMaxAndCountResults
  rintro s core d c a h rd ra rb _ _ out rfl rfl hout
  refine ⟨?min, ?max, ?minu, ?maxu, ?slt, ?sltu, ⟨clz (c.rw ra.toNat), ?clz, clz_spec _⟩, ⟨ctz (c.rw ra.toNat), ?ctz, ctz_spec _⟩, ?popc,
    ⟨bswap (c.rw ra.toNat), ?bswap, fun j hj => getLsbD_bswap _ hj⟩⟩
  case min => exact h.exec_zn hout rfl (if_congr (slt_iff ..) rfl rfl)
  case max => exact h.exec_zn hout rfl (if_congr (slt_iff ..) rfl rfl)
  case minu => exact h.exec_zn hout rfl (if_congr (ult_iff ..) rfl rfl)
  case maxu => exact h.exec_zn hout rfl (if_congr (ult_iff ..) rfl rfl)
  case slt => exact h.exec_zn hout rfl (if_congr (slt_iff ..) rfl rfl)
  case sltu => exact h.exec_zn hout rfl (if_congr (ult_iff ..) rfl rfl)
  case clz => exact h.exec_zn hout rfl rfl
  case ctz => exact h.exec_zn hout rfl rfl
  case bswap => exact h.exec_zn hout rfl rfl
  case popc => exact h.exec_zn hout rfl (congrArg (BitVec.ofNat 64) (popc_eq _))

/-- Settles O14: the low half, and the two high halves. -/
theorem multiplyResults : Obligations.MultiplyResults := by
  unfold Obligations.MultiplyResults
  rintro s core d c a h rd ra rb _ _ _ _ rfl rfl rfl rfl
  exact ⟨h.exec_alu3 rfl (mulF_eq ..), h.exec_alu3 rfl (znF_eq ..), h.exec_alu3 rfl (znF_eq ..)⟩

/-- Settles O15: the trap, and each case of the quotient. -/
theorem divideFollowsTheRule : Obligations.DivideFollowsTheRule := by
  unfold Obligations.DivideFollowsTheRule
  rintro s core d c a h rd ra rb rc _ _ out rfl rfl hout
  refine ⟨fun hy htrap => ?trap, fun hy hgo => ?zero, fun hx hy => ?least, fun hy hno q r hq hr => ?signed, fun hy q r hq hr => ?unsigned⟩
  case trap => exact ⟨h.exec_divide_traps rfl hy htrap, h.exec_divide_traps rfl hy htrap⟩
  case zero =>
    have hzero (signed : Bool) := divF_zero c.flags (c.rw ra.toNat) signed
    rw [← hy] at hzero
    exact ⟨h.exec_divide hout rfl (.inr hgo) (hzero true), h.exec_divide hout rfl (.inr hgo) (hzero false)⟩
  case least =>
    have hy0 : c.rw rb.toNat ≠ 0 := fun h0 => by rw [h0] at hy; cases hy
    exact h.exec_divide hout rfl (.inl hy0) (divF_least _ hx hy)
  case signed => exact h.exec_divide hout rfl (.inl hy) (divF_signed _ hy hno hq hr)
  case unsigned => exact h.exec_divide hout rfl (.inl hy) (divF_unsigned _ hy hq hr)

/-- Settles O16: the bit of each flag, and the bits that are no flag of the result. -/
theorem flagBitsOfAResult : Obligations.FlagBitsOfAResult := by
  unfold Obligations.FlagBitsOfAResult
  intro f r cy v b j k
  refine ⟨fun hj => ?_, fun _ hk => ?_, ?_, ?_, fun hk => ?_, ?_, ?_, ?_, ?_, fun hk => ?_⟩
  · rw [getLsbD_setF, if_pos ⟨rfl, hj⟩]
  · rw [getLsbD_setF, if_neg (by simp [hk])]
  · rw [getLsbD_flagsZN, if_pos rfl]
  · rw [getLsbD_flagsZN, if_neg (by decide), if_pos rfl]
  · rw [getLsbD_flagsZN, if_neg (by omega), if_neg (by omega)]
  · rw [getLsbD_flagsZNCV, if_neg (by decide), if_neg (by decide), getLsbD_flagsZN, if_pos rfl]
  · rw [getLsbD_flagsZNCV, if_neg (by decide), if_neg (by decide), getLsbD_flagsZN, if_neg (by decide), if_pos rfl]
  · rw [getLsbD_flagsZNCV, if_pos rfl]
  · rw [getLsbD_flagsZNCV, if_neg (by decide), if_pos rfl]
  · rw [getLsbD_flagsZNCV, if_neg (by omega), if_neg (by omega), getLsbD_flagsZN, if_neg (by omega), if_neg (by omega)]

end

section
/-! PROOFS. The vector instructions (R193): lanes of a vector that is built lane by lane, reductions, and the edges of Table 8.12A (R188). -/
namespace Sys2Proof.Machine
open Sys2Proof

/-! ### Fields of one width, side by side -/

/-- Fields of width `w` below bit `w * N`: the number stays below it, and bit `k` is bit `k % w` of field `k / w`. -/
theorem testBit_foldl_fields {w : Nat} (hw : 0 < w) (f : Nat → Nat) (N : Nat) :
    (List.range N).foldl (fun n i => n + f i % 2 ^ w * 2 ^ (w * i)) 0 < 2 ^ (w * N) ∧
    ∀ k, ((List.range N).foldl (fun n i => n + f i % 2 ^ w * 2 ^ (w * i)) 0).testBit k = (decide (k < w * N) && (f (k / w)).testBit (k % w)) := by
  induction N with
  | zero => exact ⟨Nat.two_pow_pos _, fun k => by simp⟩
  | succ N ih =>
    obtain ⟨hlt, hbit⟩ := ih
    have hfield : f N % 2 ^ w < 2 ^ w := Nat.mod_lt _ (Nat.two_pow_pos w)
    rw [List.range_succ, List.foldl_append, List.foldl_cons, List.foldl_nil, Nat.add_comm, Nat.mul_comm (f N % 2 ^ w)]
    refine ⟨?_, fun k => ?_⟩
    · calc 2 ^ (w * N) * (f N % 2 ^ w) + _ < 2 ^ (w * N) * (f N % 2 ^ w) + 2 ^ (w * N) := Nat.add_lt_add_left hlt _
        _ = 2 ^ (w * N) * (f N % 2 ^ w + 1) := by ring
        _ ≤ 2 ^ (w * N) * 2 ^ w := Nat.mul_le_mul_left _ hfield
        _ = 2 ^ (w * (N + 1)) := by ring
    · rw [Nat.testBit_two_pow_mul_add _ hlt, hbit, Nat.testBit_mod_two_pow]
      split
      next h => rw [decide_eq_true h, decide_eq_true (by rw [Nat.mul_succ]; omega)]
      next h =>
        obtain ⟨j, rfl⟩ := Nat.exists_eq_add_of_le (Nat.le_of_not_lt h)
        have hin : (w * N + j < w * (N + 1)) ↔ j < w := by rw [Nat.mul_succ]; omega
        rw [Nat.add_sub_cancel_left]
        simp only [hin]
        by_cases hj : j < w
        · rw [Nat.mul_add_div hw, Nat.mul_add_mod, Nat.div_eq_of_lt hj, Nat.mod_eq_of_lt hj, Nat.add_zero]
        · simp [hj]

/-! ### Lanes -/

theorem laneW_pos (es : Nat) : 0 < laneW es := Nat.mul_pos (by decide) (Nat.two_pow_pos es)

/-- The lanes of every element size fill the register. -/
theorem laneW_mul_laneN {es : Nat} (h : es < 4) : laneW es * laneN es = 512 := by
  interval_cases es <;> rfl

theorem lane_lt (es : Nat) (v : Vec) (l : Nat) : lane es v l < 2 ^ laneW es := Nat.mod_lt _ (Nat.two_pow_pos _)

theorem lane_mod (es : Nat) (v : Vec) (l : Nat) : lane es v l % 2 ^ laneW es = lane es v l := Nat.mod_eq_of_lt (lane_lt es v l)

/-- Bit `k` of a lane is a bit of the register. -/
theorem testBit_lane (es : Nat) (v : Vec) (l k : Nat) : (lane es v l).testBit k = (decide (k < laneW es) && v.getLsbD (laneW es * l + k)) := by
  rw [lane, Nat.testBit_mod_two_pow, Nat.testBit_div_two_pow, Nat.add_comm]; rfl

/-- A lane of the vector whose lanes are given. -/
theorem lane_ofLanes {es l : Nat} (hes : es < 4) (hl : l < laneN es) (f : Nat → Nat) : lane es (ofLanes es f) l = f l % 2 ^ laneW es := by
  refine Nat.eq_of_testBit_eq fun k => ?_
  rw [testBit_lane, Nat.testBit_mod_two_pow, ofLanes, BitVec.getLsbD_ofNat, (testBit_foldl_fields (laneW_pos es) f _).2, laneW_mul_laneN hes]
  by_cases hk : k < laneW es
  · have hin : laneW es * l + k < 512 := by
      calc laneW es * l + k < laneW es * l + laneW es := Nat.add_lt_add_left hk _
        _ = laneW es * (l + 1) := rfl
        _ ≤ laneW es * laneN es := Nat.mul_le_mul_left _ hl
        _ = 512 := laneW_mul_laneN hes
    rw [Nat.mul_add_div (laneW_pos es), Nat.mul_add_mod, Nat.div_eq_of_lt hk, Nat.mod_eq_of_lt hk]
    simp [hk, hin]
  · simp [hk]

theorem lane_lanes2 {es l : Nat} (hes : es < 4) (hl : l < laneN es) (f : Nat → Nat → Nat) (u v : Vec) :
    lane es (lanes2 es f u v) l = f (lane es u l) (lane es v l) % 2 ^ laneW es := lane_ofLanes hes hl _

/-- A signed lane shifted by its width is its sign. -/
theorem laneS_div {es x : Nat} (hx : x < 2 ^ laneW es) : laneS es x / 2 ^ laneW es = if laneS es x < 0 then -1 else 0 := by
  have hx' : (x : Int) < 2 ^ laneW es := by exact_mod_cast hx
  have hlow : -2 ^ laneW es ≤ laneS es x ∧ laneS es x < 2 ^ laneW es := by
    unfold laneS
    split <;> omega
  split
  next hneg => exact Int.ediv_eq_neg_one_of_neg_of_le hneg (by omega)
  next hneg => exact Int.ediv_eq_zero_of_lt (by omega) hlow.2

/-- All ones of a lane. -/
theorem neg_one_emod_two_pow (w : Nat) : ((-1 : Int) % 2 ^ w).toNat = 2 ^ w - 1 := by
  have hpos : (0 : Int) < 2 ^ w := by positivity
  have hnat : ((2 ^ w : Nat) : Int) = 2 ^ w := by push_cast; rfl
  rw [Int.emod_eq_add_self_emod, Int.emod_eq_of_lt (by omega) (by omega)]
  omega

/-- A word shifted by its last bit's place is copies of that bit. -/
theorem sshiftRight_last (x : Word) : x.sshiftRight 63 = if x.getLsbD 63 then BitVec.allOnes 64 else 0 := by
  refine BitVec.eq_of_getLsbD_eq fun j hj => ?_
  have hsign : (if 63 + j < 64 then x.getLsbD (63 + j) else x.msb) = x.getLsbD 63 := by
    split
    next h => rw [show 63 + j = 63 by omega]
    next h => rw [BitVec.msb_eq_getLsbD_last]
  rw [BitVec.getLsbD_sshiftRight, decide_eq_false (by omega), Bool.not_false, Bool.true_and, hsign]
  cases x.getLsbD 63 with
  | true => rw [if_pos rfl, BitVec.getLsbD_allOnes, decide_eq_true hj]
  | false => rw [if_neg Bool.false_ne_true, BitVec.ofNat_eq_ofNat, BitVec.getLsbD_zero]

/-! ### Reductions -/

/-- A fold that keeps the better of two keeps one of the list that none of the list beats. -/
theorem foldl_best {better : Nat → Nat → Bool} {key : Nat → Int} (h : ∀ y m, better y m = true ↔ key y < key m) (r : List Nat) : ∀ x : Nat,
    r.foldl (fun m y => if better y m then y else m) x ∈ x :: r ∧
    ∀ y ∈ x :: r, key (r.foldl (fun m y => if better y m then y else m) x) ≤ key y := by
  induction r with
  | nil => exact fun x => ⟨by simp, by simp⟩
  | cons z r ih =>
    intro x
    rw [List.foldl_cons]
    obtain ⟨hmem, hleast⟩ := ih (if better z x then z else x)
    have hz : key (if better z x then z else x) ≤ key z ∧ key (if better z x then z else x) ≤ key x := by
      by_cases hb : better z x = true
      · rw [if_pos hb]; exact ⟨le_rfl, ((h z x).1 hb).le⟩
      · rw [if_neg hb]; exact ⟨not_lt.1 fun hlt => hb ((h z x).2 hlt), le_rfl⟩
    refine ⟨?_, fun y hy => ?_⟩
    · rcases List.mem_cons.1 hmem with heq | hmem
      · rw [heq]; split <;> simp
      · simp [hmem]
    · rcases List.mem_cons.1 hy with rfl | hy
      · exact (hleast _ List.mem_cons_self).trans hz.2
      · rcases List.mem_cons.1 hy with rfl | hy
        · exact (hleast _ List.mem_cons_self).trans hz.1
        · exact hleast _ (List.mem_cons_of_mem _ hy)

/-- A signed reduction selects a lane that none beats. -/
theorem laneFold_best {es : Nat} (hes : es < 4) {better : Int → Int → Bool} {key : Nat → Int}
    (h : ∀ y m, better (laneS es y) (laneS es m) = true ↔ key y < key m) (v : Vec) :
    ∃ m < laneN es, laneFold es better v = lane es v m ∧ ∀ j < laneN es, key (lane es v m) ≤ key (lane es v j) := by
  have hmem (y : Nat) : y ∈ lanesOf es v ↔ ∃ j < laneN es, lane es v j = y := by simp [lanesOf]
  have hpos : 0 < laneN es := Nat.pos_of_ne_zero fun h0 => by have := laneW_mul_laneN hes; simp [h0] at this
  cases hl : lanesOf es v with
  | nil =>
    have h0 := (hmem (lane es v 0)).2 ⟨0, hpos, rfl⟩
    rw [hl] at h0; cases h0
  | cons x r =>
    obtain ⟨hin, hbest⟩ := foldl_best (better := fun y m => better (laneS es y) (laneS es m)) h r x
    have hfold : laneFold es better v = r.foldl (fun m y => if better (laneS es y) (laneS es m) then y else m) x := by rw [laneFold, hl]
    rw [← hl] at hin hbest
    obtain ⟨m, hm, heq⟩ := (hmem _).1 hin
    refine ⟨m, hm, hfold.trans heq.symm, fun j hj => ?_⟩
    rw [heq]
    exact hbest _ ((hmem _).2 ⟨j, hj, rfl⟩)

theorem sum_lanesOf (es : Nat) (v : Vec) : (lanesOf es v).foldl (· + ·) 0 = ((List.range (laneN es)).map (lane es v)).sum := List.sum_eq_foldl.symm

/-- VMSK gathers the top bits of the lanes. -/
theorem getLsbD_topBits (es : Nat) (v : Vec) {j : Nat} (hj : j < 64) :
    (BitVec.ofNat 64 ((List.range (laneN es)).foldl (fun m i => m + (if (lane es v i).testBit (laneW es - 1) then 2 ^ i else 0)) 0)).getLsbD j =
      (decide (j < laneN es) && v.getLsbD (laneW es * j + laneW es - 1)) := by
  have hbits : (fun m i : Nat => m + (if (lane es v i).testBit (laneW es - 1) then 2 ^ i else 0)) =
      fun m i => m + ((lane es v i).testBit (laneW es - 1)).toNat % 2 ^ 1 * 2 ^ (1 * i) := by
    funext m i
    cases (lane es v i).testBit (laneW es - 1) <;> simp
  have hpos := laneW_pos es
  rw [BitVec.getLsbD_ofNat, decide_eq_true hj, Bool.true_and, hbits, (testBit_foldl_fields Nat.one_pos _ _).2, Nat.one_mul, Nat.div_one, Nat.mod_one,
    testBit_lane, decide_eq_true (show laneW es - 1 < laneW es by omega), Bool.true_and, Nat.add_sub_assoc hpos]
  cases v.getLsbD (laneW es * j + (laneW es - 1)) <;> simp

/-! ### The vector instructions of a running core -/

theorem elementSize_lt (es : BitVec 2) : es.toNat < 4 := es.isLt

section Results
variable {s : State} {core : BitVec 6} {d : Dev} {c : Core} {a : Nat} {i : Instr}

/-- An instruction of two vector sources. -/
theorem State.Runs.exec_vec2 {vd va vb : Nat} {g : Vec → Vec → Vec} {r : Vec} (h : s.Runs core d c a)
    (hi : exec i s = act true s (·.vec2 core.toNat vd va vb g)) (hr : g (c.rv va) (c.rv vb) = r) : exec i s = .next (s.seq core d a (c.wv vd r)) :=
  h.exec_reg hi (by rw [hr])

/-- An instruction of two vector sources, lane by lane; `f` gives the same lanes as the model's `g`. -/
theorem State.Runs.exec_lanes {vd va vb : Nat} {es : BitVec 2} {g f : Nat → Nat → Nat} (h : s.Runs core d c a)
    (hi : exec i s = act true s (·.vec2 core.toNat vd va vb (lanes2 es.toNat g)))
    (hf : ∀ p q, p < 2 ^ laneW es.toNat → q < 2 ^ laneW es.toNat → g p q = f p q) :
    ∃ r : Vec, exec i s = .next (s.seq core d a (c.wv vd r)) ∧
      ∀ l < laneN es.toNat, lane es.toNat r l = f (lane es.toNat (c.rv va) l) (lane es.toNat (c.rv vb) l) % 2 ^ laneW es.toNat :=
  ⟨lanes2 es.toNat g (c.rv va) (c.rv vb), h.exec_reg hi rfl, fun _ hl => by rw [lane_lanes2 (elementSize_lt es) hl, hf _ _ (lane_lt ..) (lane_lt ..)]⟩

end Results

end Sys2Proof.Machine
end

section
open Sys2Proof Sys2Proof.Machine

/-- Settles O28: the lanes of each result, and the bitwise operations. -/
theorem vectorLaneResults : Obligations.VectorLaneResults := by
  unfold Obligations.VectorLaneResults
  rintro s core d c a h es vd va vb _ _ _ _ _ gives rfl rfl rfl rfl rfl hgives
  have like {i : Instr} {g f : Nat → Nat → Nat} (hi : exec i s = act true s (·.vec2 core.toNat vd.toNat va.toNat vb.toNat (lanes2 es.toNat g)))
      (hf : ∀ p q, p < 2 ^ laneW es.toNat → q < 2 ^ laneW es.toNat → g p q = f p q) : gives i f :=
    (hgives i f).2 (h.exec_lanes hi hf)
  have same {i : Instr} {g : Nat → Nat → Nat} (hi : exec i s = act true s (·.vec2 core.toNat vd.toNat va.toNat vb.toNat (lanes2 es.toNat g))) :
      gives i g :=
    like hi fun _ _ _ _ => rfl
  refine ⟨same rfl, like rfl ?vsub, same rfl, same rfl, same rfl, like rfl ?vminu, like rfl ?vmaxu, like rfl ?vcmpeq, like rfl ?vcmpgt, like rfl ?vcmpgtu,
    same rfl, same rfl, same rfl, ⟨ofLanes es.toNat fun _ => (c.rw va.toNat).toNat, h.exec_reg rfl rfl, ?vbcast⟩,
    h.exec_vec2 rfl rfl, h.exec_vec2 rfl rfl, h.exec_vec2 rfl rfl, h.exec_vec2 rfl rfl, h.exec_reg rfl rfl⟩
  case vsub => exact fun p q _ hq => Nat.add_sub_assoc hq.le p
  case vminu => exact fun p q _ _ => by split <;> omega
  case vmaxu => exact fun p q _ _ => by split <;> omega
  case vcmpeq => exact fun p q _ _ => by simp [laneMask, laneW]
  case vcmpgt => exact fun p q _ _ => by simp [laneMask, laneW]
  case vcmpgtu => exact fun p q _ _ => by simp [laneMask, laneW]
  case vbcast => exact fun l hl => lane_ofLanes (elementSize_lt es) hl _

/-- Settles O29: a lane out and in, the reductions, and the top bits. -/
theorem vectorMoveResults : Obligations.VectorMoveResults := by
  unfold Obligations.VectorMoveResults
  rintro s core d c a h es vd va l _ _ _ rfl rfl rfl
  have hes := elementSize_lt es
  refine ⟨fun hl => ⟨?vext, ?vins⟩, fun hl => ⟨?vextIllegal, ?vinsIllegal⟩, ?vrsum, ?vrmin, ?vrmax, ?vmsk, h.exec_reg rfl rfl⟩
  case vext => exact h.exec_seqDev rfl (if_neg (Nat.not_le.2 hl))
  case vins =>
    refine ⟨putLane es.toNat (c.rv vd.toNat) l.toNat (c.rw va.toNat).toNat, h.exec_seqDev rfl (if_neg (Nat.not_le.2 hl)), fun j hj => ?_⟩
    rw [putLane, lane_ofLanes hes hj]
    split
    · rfl
    · exact lane_mod ..
  case vextIllegal => exact h.exec_trapsAt rfl (if_pos hl)
  case vinsIllegal => exact h.exec_trapsAt rfl (if_pos hl)
  case vrsum =>
    refine h.exec_reg rfl ?_
    rw [sum_lanesOf]
    rfl
  case vrmin =>
    obtain ⟨m, hm, heq, hleast⟩ := laneFold_best hes (better := fun y m => decide (y < m)) (key := laneS es.toNat)
      (fun _ _ => decide_eq_true_iff) (c.rv va.toNat)
    exact ⟨m, hm, by rw [← heq]; exact h.exec_reg rfl rfl, hleast⟩
  case vrmax =>
    obtain ⟨m, hm, heq, hmost⟩ := laneFold_best hes (better := fun y m => decide (m < y)) (key := fun x => -laneS es.toNat x)
      (fun _ _ => by rw [decide_eq_true_iff, Int.neg_lt_neg_iff]) (c.rv va.toNat)
    exact ⟨m, hm, by rw [← heq]; exact h.exec_reg rfl rfl, fun j hj => Int.neg_le_neg_iff.1 (hmost j hj)⟩
  case vmsk => exact ⟨_, h.exec_reg rfl rfl, fun j hj => getLsbD_topBits es.toNat _ hj⟩

/-- Settles O17: each row of Table 8.12A. -/
theorem arithmeticEdgesOfTable8p12A : Obligations.ArithmeticEdgesOfTable8p12A := by
  unfold Obligations.ArithmeticEdgesOfTable8p12A
  intro f x n es l signed u v hes hl
  have hleast : (BitVec.ofNat 64 (2 ^ 63)).toInt = -2 ^ 63 := by decide
  have hminus : (BitVec.allOnes 64).toInt = -1 := by decide
  have hneg : subF f 0 (BitVec.ofNat 64 (2 ^ 63)) false = (BitVec.ofNat 64 (2 ^ 63), flagsZNCV f (BitVec.ofNat 64 (2 ^ 63)) true true) := subF_neg ..
  rw [hneg, divF_least f hleast hminus, divF_zero]
  refine ⟨rfl, ?negV, fun hn => ⟨if_pos hn, if_pos hn, ?sraEdge⟩, fun hn => ⟨sll_of_lt x hn, srl_of_lt x hn, sra_of_lt x hn⟩, rfl, rfl, rfl,
    ?ctz, rfl, rfl, ?divV, rfl, rfl, ?divD, fun hw => ⟨?vsll, ?vsrl, ?vsra⟩⟩
  case negV => rw [flagV, getLsbD_flagsZNCV, if_neg (by decide), if_pos rfl]
  case sraEdge =>
    rw [sra, if_pos hn, sshiftRight_last]
  case ctz => decide
  case divV => rw [flagV, getLsbD_flagsZN, if_neg (by decide), if_neg (by decide), getLsbD_setF, if_pos (by decide)]
  case divD => rw [flagD, getLsbD_flagsZN, if_neg (by decide), if_neg (by decide), getLsbD_setF, if_pos (by decide)]
  case vsll => rw [lane_lanes2 hes hl, if_pos hw, Nat.zero_mod]
  case vsrl => rw [lane_lanes2 hes hl, if_pos hw, Nat.zero_mod]
  case vsra =>
    rw [lane_lanes2 hes hl, Nat.min_eq_right hw, laneS_div (lane_lt ..)]
    split
    · rw [neg_one_emod_two_pow, Nat.mod_eq_of_lt (Nat.sub_lt (Nat.two_pow_pos _) Nat.one_pos)]
    · rfl

end

section
/-! PROOFS. The memory instructions (R182, R193, R194): loads, stores and atomics that reach memory, and effective addresses that lie outside it. -/
namespace Sys2Proof.Machine
open Sys2Proof

/-! ### Little-endian numbers -/

theorem leNat_lt : ∀ l : List Byte, leNat l < 2 ^ (8 * l.length)
  | [] => Nat.one_pos
  | b :: r => by
    have hb : b.toNat < 256 := b.isLt
    have hr := leNat_lt r
    rw [leNat, List.length_cons, Nat.mul_succ, Nat.pow_add]
    omega

theorem Dev.peekLe_lt (d : Dev) (loc n : Nat) : d.peekLe loc n < 2 ^ (8 * n) := by
  simpa [Dev.peekLe, Dev.peekN] using leNat_lt (d.peekN loc n)

/-- One byte read as a number. -/
theorem Dev.ofNat_peekLe_one (d : Dev) (loc : Nat) : BitVec.ofNat 8 (d.peekLe loc 1) = d.peek loc := by
  have hone : d.peekLe loc 1 = (d.peek loc).toNat := by simp [Dev.peekLe, Dev.peekN, leNat]
  rw [hone, BitVec.ofNat_toNat, BitVec.setWidth_eq]

/-- A number of `n` bytes read as signed is the word that extends its sign. -/
theorem ofInt_signedOf {n v w : Nat} (hw : w = 8 * n) (hv : v < 2 ^ w) : BitVec.ofInt 64 (signedOf n v) = (BitVec.ofNat w v).signExtend 64 := by
  subst hw
  have hsigned : (BitVec.ofNat (8 * n) v).toInt = signedOf n v := by
    rw [BitVec.toInt_eq_toNat_cond, BitVec.toNat_ofNat, Nat.mod_eq_of_lt hv, signedOf]
    rcases Nat.eq_zero_or_pos n with rfl | hn
    · have : v = 0 := by simpa using hv
      subst this; rfl
    · have hhalf : 2 ^ (8 * n) = 2 * 2 ^ (8 * n - 1) := by rw [← Nat.pow_succ']; congr 1; omega
      have hcond : 2 * v < 2 ^ (8 * n) ↔ v < 2 ^ (8 * n - 1) := by omega
      simp only [hcond]
      push_cast
      rfl
  rw [BitVec.signExtend, hsigned]

/-! ### Stores -/

/-- A byte inside the bytes that were stored. -/
theorem Dev.peek_pokeN_in : ∀ (l : List Byte) (d : Dev) (loc j : Nat), j < l.length → (d.pokeN loc l).peek (loc + j) = l.getD j 0
  | [], _, _, _, h => absurd h (Nat.not_lt_zero _)
  | b :: r, d, loc, 0, _ => by
    exact (Dev.peek_pokeN_out r _ (loc + 1) loc (.inl (Nat.lt_succ_self loc))).trans (Dev.peek_poke_same ..)
  | b :: r, d, loc, j + 1, h => by
    rw [Dev.pokeN, show loc + (j + 1) = loc + 1 + j by omega, Dev.peek_pokeN_in r _ _ j (by simpa using h), List.getD_cons_succ]

/-- A store of one byte changes no object, and of a core its scratch alone. -/
theorem Dev.poke_frame (d : Dev) (loc : Nat) (b : Byte) :
    (d.poke loc b).dict = d.dict ∧ ∀ n, ∃ x, (d.poke loc b).core n = { d.core n with scratch := x } := by
  unfold Dev.poke
  split
  · exact ⟨rfl, fun n => ⟨(d.core n).scratch, rfl⟩⟩
  · split
    · refine ⟨rfl, fun n => ?_⟩
      rw [Dev.core_setCore]
      split
      next heq => rw [heq]; exact ⟨_, rfl⟩
      next => exact ⟨(d.core n).scratch, rfl⟩
    · exact ⟨rfl, fun n => ⟨(d.core n).scratch, rfl⟩⟩

/-- A store of bytes changes no object, and of a core its scratch alone. -/
theorem Dev.pokeN_frame : ∀ (l : List Byte) (d : Dev) (loc : Nat),
    (d.pokeN loc l).dict = d.dict ∧ ∀ n, ∃ x, (d.pokeN loc l).core n = { d.core n with scratch := x }
  | [], d, _ => ⟨rfl, fun n => ⟨(d.core n).scratch, rfl⟩⟩
  | b :: r, d, loc => by
    obtain ⟨hdict, hcore⟩ := d.poke_frame loc b
    obtain ⟨hdict', hcore'⟩ := Dev.pokeN_frame r (d.poke loc b) (loc + 1)
    refine ⟨hdict'.trans hdict, fun n => ?_⟩
    obtain ⟨x, hx⟩ := hcore n
    obtain ⟨y, hy⟩ := hcore' n
    exact ⟨y, by rw [Dev.pokeN, hy, hx]⟩

@[simp] theorem Dev.storeAt_peek (d : Dev) (loc len v j : Nat) : (d.storeAt loc len v).peek j = (d.pokeN loc (leBytes len v)).peek j := rfl

/-! ### Accesses (R182) -/

/-- An access that reaches memory goes on there. -/
theorem Dev.withAcc_reaches {d e : Dev} {core : BitVec 6} {ea : Int} {a len need acc loc : Nat} {k : Dev → Nat → Nat → Res} {r : Res}
    (h : d.Reaches core ea len need acc loc e) (hk : ∀ cls, k e loc cls = r) : d.withAcc core.toNat a ea len need acc k = r := by
  obtain ⟨cls, h⟩ := h
  rw [Dev.withAcc, h]
  exact hk cls

/-- An effective address of no memory: negative, beyond the address space, or in the hole below the scratch window. -/
def outOfRange (ea : Int) : Prop := ea < 0 ∨ 2 ^ 48 ≤ ea ∨ (0xfffffff00000 ≤ ea ∧ ea < 0xfffffffc0000)

theorem Dev.coreAccess_range (d : Dev) (n : Nat) {ea : Int} {len need acc : Nat} (h : outOfRange ea) (hneed : need ≠ 4) :
    d.coreAccess n ea len need acc = .trap 4 0 (ea % 2 ^ 64).toNat d := by
  unfold Dev.coreAccess
  rcases h with h | h | ⟨hlow, hhigh⟩
  · exact if_pos (.inl h)
  · exact if_pos (.inr h)
  · have hva : (ea % 2 ^ 64).toNat = ea.toNat := by omega
    have hhole : ¬ need = 4 ∧ 2 ^ 48 - 2 ^ 20 ≤ ea.toNat ∧ ea.toNat < winBase := ⟨hneed, by omega, by unfold winBase; omega⟩
    rw [hva]
    exact (if_neg (by omega)).trans (if_pos hhole)

theorem Dev.withAcc_range (d : Dev) {n a len need acc : Nat} {ea : Int} {k : Dev → Nat → Nat → Res} (h : outOfRange ea) (hneed : need ≠ 4) :
    d.withAcc n a ea len need acc k = .trap 4 0 (ea % 2 ^ 64).toNat a false d := by
  rw [Dev.withAcc, d.coreAccess_range n h hneed]

/-! ### The memory instructions of a running core -/

section Results
variable {s : State} {core : BitVec 6} {d e e' : Dev} {c : Core} {a : Nat} {i : Instr}
  {rt rd rb base k len loc loc' : Nat} {d12 : BitVec 12} {sx : Bool} {x : Int}
  {ea : Core → Int} {old v : Word} {f : Word → Word → Word}

theorem State.Runs.exec_load (h : s.Runs core d c a) (hi : exec i s = act true s (·.load core.toNat rt ea len sx))
    (hr : d.Reaches core (ea c) len 1 1 loc e)
    (hv : (if sx then BitVec.ofInt 64 (signedOf len (e.peekLe loc len)) else BitVec.ofNat 64 (e.peekLe loc len)) = v) :
    exec i s = .next (s.seqDev core d a (e.setCore core.toNat ((e.core core.toNat).ww rt v))) := by
  subst hv
  exact h.exec_seqDev hi (Dev.withAcc_reaches hr fun _ => rfl)

theorem State.Runs.exec_store (h : s.Runs core d c a) (hi : exec i s = act true s (·.store core.toNat rt ea len))
    (hr : d.Reaches core (ea c) len 2 2 loc e) : exec i s = .next (s.seqDev core d a (e.storeAt loc len (c.rw rt).toNat)) :=
  h.exec_seqDev hi (Dev.withAcc_reaches hr fun _ => rfl)

theorem State.Runs.exec_amo (h : s.Runs core d c a) (hi : exec i s = act true s (·.amo core.toNat rd base k rb f))
    (hr : d.Reaches core (eaBased c k base 0) 8 1 4 loc' e') (hw : e'.Reaches core (eaBased c k base 0) 8 2 4 loc e)
    (hold : old = BitVec.ofNat 64 (e.peekLe loc 8)) (hv : f old (c.rw rb) = v) :
    exec i s = .next (s.seqDev core d a ((e.storeAt loc 8 v.toNat).setCore core.toNat (((e.storeAt loc 8 v.toNat).core core.toNat).ww rd old))) := by
  subst hv hold
  exact h.exec_seqDev hi (Dev.withAcc_reaches hr fun _ => Dev.withAcc_reaches hw fun _ => rfl)

theorem State.Runs.exec_load_range (h : s.Runs core d c a) (hi : exec i s = act true s (·.load core.toNat rt ea len sx)) (hx : ea c = x)
    (hbad : outOfRange x) : exec i s = .next (s.trapsAt core d 4 0 (x % 2 ^ 64).toNat a) := by
  subst hx; exact h.exec_trapsAt hi (d.withAcc_range hbad (by decide))

theorem State.Runs.exec_store_range (h : s.Runs core d c a) (hi : exec i s = act true s (·.store core.toNat rt ea len)) (hx : ea c = x)
    (hbad : outOfRange x) : exec i s = .next (s.trapsAt core d 4 0 (x % 2 ^ 64).toNat a) := by
  subst hx; exact h.exec_trapsAt hi (d.withAcc_range hbad (by decide))

theorem State.Runs.exec_amo_range (h : s.Runs core d c a) (hi : exec i s = act true s (·.amo core.toNat rd base k rb f))
    (hbad : outOfRange (eaBased c k base 0)) :
    exec i s = .next (s.trapsAt core d 4 0 (eaBased c k base 0 % 2 ^ 64).toNat a) := h.exec_trapsAt hi (d.withAcc_range hbad (by decide))

end Results

end Sys2Proof.Machine
end

section
open Sys2Proof Sys2Proof.Machine

/-- Settles O24: each load reads the bytes at its location. -/
theorem loadResults : Obligations.LoadResults := by
  unfold Obligations.LoadResults
  rintro s core d c a h rt base k d12 a20 _ _ loc e put rfl rfl hput
  simp only [hput]
  refine ⟨fun hr => ?_, fun hr => ⟨?_, ?_⟩, fun hr => ⟨?_, ?_⟩, fun hr => ⟨?_, ?_⟩, fun hr => ?_, fun hr => ?_, fun hr => ?vld⟩
  · exact h.exec_load rfl hr rfl
  · exact h.exec_load rfl hr rfl
  · exact h.exec_load rfl hr (ofInt_signedOf rfl (e.peekLe_lt loc 4))
  · exact h.exec_load rfl hr rfl
  · exact h.exec_load rfl hr (ofInt_signedOf rfl (e.peekLe_lt loc 2))
  · exact h.exec_load rfl hr rfl
  · exact h.exec_load rfl hr (ofInt_signedOf rfl (e.peekLe_lt loc 1))
  · exact h.exec_load rfl hr rfl
  · exact h.exec_load rfl hr rfl
  case vld => exact h.exec_seqDev rfl (Dev.withAcc_reaches hr fun _ => rfl)

/-- Settles O25: each store writes at its location, and a store of bytes writes those bytes alone. -/
theorem storeResults : Obligations.StoreResults := by
  unfold Obligations.StoreResults
  refine ⟨?stores, fun d loc len v j => ⟨fun hj => ?inside, fun hj => ?outside, ?dict, ?cores⟩⟩
  case stores =>
    rintro s core d c a h rt base k d12 a20 _ _ loc _ e put rfl rfl rfl hput
    simp only [hput]
    refine ⟨fun hr => h.exec_store rfl hr, fun hr => h.exec_store rfl hr, fun hr => h.exec_store rfl hr, fun hr => h.exec_store rfl hr,
      fun hr => h.exec_store rfl hr, fun hr => h.exec_store rfl hr, fun hr => ?vst⟩
    case vst => exact h.exec_seqDev rfl (Dev.withAcc_reaches hr fun _ => rfl)
  case inside => rw [Dev.storeAt_peek, Dev.peek_pokeN_in _ _ _ _ (by simpa using hj), getD_leBytes _ _ _ hj]
  case outside => rw [Dev.storeAt_peek, Dev.peek_pokeN_out _ _ _ _ (by simpa using hj)]
  case dict => exact (Dev.pokeN_frame (leBytes len v) d loc).1
  case cores =>
    rintro n _ _ rfl rfl
    obtain ⟨x, hx⟩ := (Dev.pokeN_frame (leBytes len v) d loc).2 n
    have hcore : (d.storeAt loc len v).core n = { d.core n with scratch := x } := hx
    rw [hcore]
    exact ⟨rfl, rfl, rfl, rfl, rfl, rfl, rfl, rfl, rfl, rfl, rfl, rfl⟩

/-- Settles O26: each atomic stores its function of the old word and the source. -/
theorem atomicResults : Obligations.AtomicResults := by
  unfold Obligations.AtomicResults
  rintro s core d c a h rd base rb k _ loc l1 d1 d2 old y put rfl hr hw hold hy hput
  subst hy
  have hea : eaBased c k.toNat base.toNat 0 = (c.rb k.toNat).toNat + (c.rw base.toNat).toInt := Int.add_zero _
  rw [← hea] at hr hw
  have hstore (v : Word) := hput v _ rfl
  simp only [hstore]
  refine ⟨h.exec_amo rfl hr hw hold rfl, h.exec_amo rfl hr hw hold rfl, h.exec_amo rfl hr hw hold rfl, h.exec_amo rfl hr hw hold rfl,
    h.exec_amo rfl hr hw hold rfl, ?min, ?max, ?minu, ?maxu, fun heq => ?stored, fun hne => ?kept⟩
  case min => exact h.exec_amo rfl hr hw hold (if_congr (slt_iff ..) rfl rfl)
  case max => exact h.exec_amo rfl hr hw hold (if_congr (slt_iff ..) rfl rfl)
  case minu => exact h.exec_amo rfl hr hw hold (if_congr (ult_iff ..) rfl rfl)
  case maxu => exact h.exec_amo rfl hr hw hold (if_congr (ult_iff ..) rfl rfl)
  case stored =>
    rintro e rfl
    subst hold
    refine h.exec_seqDev rfl (Dev.withAcc_reaches hr fun _ => Dev.withAcc_reaches hw fun _ => ?_)
    simp only [heq, if_true, decide_true]
  case kept =>
    subst hold
    refine h.exec_seqDev rfl (Dev.withAcc_reaches hr fun _ => Dev.withAcc_reaches hw fun _ => ?_)
    simp only [hne, if_false, decide_false]

/-- Settles O27: an access out of range traps before anything else of it. -/
theorem addressRangeOfTheRule : Obligations.AddressRangeOfTheRule := by
  unfold Obligations.AddressRangeOfTheRule
  rintro s core d c a h rt base k d12 a20 ea _ bad trap hea rfl hbad htrap
  have hbase : (if base = 0 then 0 else (c.rw base.toNat).toInt) = (c.rw base.toNat).toInt := by
    split
    next h0 => rw [h0]; rfl
    next => rfl
  have hbased : ea = eaBased c k.toNat base.toNat d12 := by rw [hea, hbase]; rfl
  have hatomic : ea - d12.toInt = eaBased c k.toNat base.toNat 0 := by
    rw [hbased, eaBased, eaBased, Int.add_sub_cancel]; exact (Int.add_zero _).symm
  subst hbased
  rw [hatomic]
  simp only [hbad, htrap]
  refine ⟨fun hr => ?based, fun hr rb => ?atomic, fun hr => ?short⟩
  case based =>
    refine ⟨h.exec_load_range rfl rfl hr, h.exec_load_range rfl rfl hr, h.exec_load_range rfl rfl hr, h.exec_load_range rfl rfl hr,
      h.exec_load_range rfl rfl hr,
      h.exec_load_range rfl rfl hr, h.exec_load_range rfl rfl hr, h.exec_store_range rfl rfl hr, h.exec_store_range rfl rfl hr, h.exec_store_range rfl rfl hr,
      h.exec_store_range rfl rfl hr, ?vld, ?vst⟩
    case vld => exact h.exec_trapsAt rfl (d.withAcc_range hr (by decide))
    case vst => exact h.exec_trapsAt rfl (d.withAcc_range hr (by decide))
  case atomic =>
    refine ⟨h.exec_amo_range rfl hr, h.exec_amo_range rfl hr, h.exec_amo_range rfl hr, h.exec_amo_range rfl hr, h.exec_amo_range rfl hr,
      h.exec_amo_range rfl hr, h.exec_amo_range rfl hr, h.exec_amo_range rfl hr, h.exec_amo_range rfl hr, ?cas⟩
    case cas => exact h.exec_trapsAt rfl (d.withAcc_range hr (by decide))
  case short =>
    exact ⟨h.exec_load_range rfl rfl hr, h.exec_load_range rfl rfl hr, h.exec_store_range rfl rfl hr, h.exec_store_range rfl rfl hr⟩

end

section
/-! PROOFS. How an instruction ends (R190): the cycles it took, the end check of the loops, and a command that sets nothing off. -/
namespace Sys2Proof.Machine
open Sys2Proof

/-! ### Loop counts -/

theorem Core.rlc_wlc (c : Core) (l m : Nat) (v : Word) : (c.wlc l v).rlc m = if m = l then v else c.rlc m := by
  simp [Core.rlc, Core.wlc, storeGet_set]

/-- The count of level `l` runs, and its end is `a`. -/
def Core.endsAt (c : Core) (a l : Nat) : Bool := decide (c.rlc l ≠ 0 ∧ (c.rle l).toNat = a)

/-- The loop of level `l` ends at `a` and has passes left. -/
def Core.loopsBack (c : Core) (a l : Nat) : Bool := c.endsAt a l && decide (c.rlc l ≠ 1)

theorem Core.endsAt_of_loopsBack {c : Core} {a l : Nat} (h : c.loopsBack a l = true) : c.endsAt a l = true := (Bool.and_eq_true _ _ ▸ h).1

/-- The core with the count of level `l` lowered, when it ends at `a`. -/
def Core.loopEnd (c : Core) (a l : Nat) : Core := if c.endsAt a l then c.wlc l (c.rlc l - 1) else c

theorem Core.rlc_loopEnd (c : Core) (a l m : Nat) : (c.loopEnd a l).rlc m = if m = l ∧ c.endsAt a l = true then c.rlc l - 1 else c.rlc m := by
  unfold Core.loopEnd
  split
  next h => simp [Core.rlc_wlc, h]
  next h => simp [h]

theorem Core.rlc_loopEnd_same (c : Core) (a l : Nat) : (c.loopEnd a l).rlc l = if c.endsAt a l then c.rlc l - 1 else c.rlc l := by
  simp [Core.rlc_loopEnd]

theorem Core.rlc_loopEnd_ne (c : Core) {a l m : Nat} (h : m ≠ l) : (c.loopEnd a l).rlc m = c.rlc m := by
  simp [Core.rlc_loopEnd, h]

/-- The count of a loop that ends and does not go back reaches 0. -/
theorem Core.rlc_loopEnd_last (c : Core) {a l : Nat} (hback : c.loopsBack a l = false) (hend : c.endsAt a l = true) : (c.loopEnd a l).rlc l = 0 := by
  have hone : c.rlc l = 1 := by simpa [Core.loopsBack, hend] using hback
  rw [Core.rlc_loopEnd_same, if_pos hend, hone]
  rfl

/-- The end of a loop changes counts alone. -/
theorem Core.loopEnd_eq (c : Core) (a l : Nat) : ∃ lc, c.loopEnd a l = { c with lc := lc } := by
  unfold Core.loopEnd
  split
  · exact ⟨_, rfl⟩
  · exact ⟨c.lc, rfl⟩

/-- The end of another level does not decide whether this one ends. -/
theorem Core.endsAt_loopEnd (c : Core) {a l m : Nat} (h : m ≠ l) : (c.loopEnd a l).endsAt a m = c.endsAt a m := by
  obtain ⟨lc, hlc⟩ := c.loopEnd_eq a l
  have hle : (c.loopEnd a l).rle m = c.rle m := by rw [hlc]; rfl
  rw [Core.endsAt, Core.rlc_loopEnd_ne c h, hle, Core.endsAt]

theorem Core.loopsBack_loopEnd (c : Core) {a l m : Nat} (h : m ≠ l) : (c.loopEnd a l).loopsBack a m = c.loopsBack a m := by
  rw [Core.loopsBack, Core.endsAt_loopEnd c h, Core.rlc_loopEnd_ne c h, Core.loopsBack]

/-- The end check: level 1, and level 0 unless level 1 goes back (R190). -/
theorem endCheck_eq (c : Core) (a next : Nat) : endCheck c a next =
    if c.loopsBack a 1 then (c.loopEnd a 1, (c.rls 1).toNat)
    else ((c.loopEnd a 1).loopEnd a 0, if c.loopsBack a 0 then (c.rls 0).toNat else next) := by
  have hstart (c : Core) (l m : Nat) : (c.loopEnd a l).rls m = c.rls m := by
    obtain ⟨lc, hlc⟩ := c.loopEnd_eq a l
    rw [hlc]; rfl
  have hone (c : Core) (l : Nat) : (if c.rlc l ≠ 0 ∧ (c.rle l).toNat = a then
      (c.wlc l (c.rlc l - 1), decide ((c.wlc l (c.rlc l - 1)).rlc l ≠ 0)) else (c, false)) = (c.loopEnd a l, c.loopsBack a l) := by
    have hlast : c.rlc l - 1 ≠ 0 ↔ c.rlc l ≠ 1 := sub_ne_zero
    by_cases hend : c.rlc l ≠ 0 ∧ (c.rle l).toNat = a
    · have hends : c.endsAt a l = true := decide_eq_true hend
      rw [if_pos hend, Core.loopEnd, if_pos hends, Core.loopsBack, hends, Bool.true_and, Core.rlc_wlc, if_pos rfl]
      simp only [hlast]
    · have hends : c.endsAt a l = false := decide_eq_false hend
      rw [if_neg hend, Core.loopEnd, hends, Core.loopsBack, hends, Bool.false_and]
      rfl
  unfold endCheck
  simp only [hone, hstart, Core.loopsBack_loopEnd c (show 0 ≠ 1 by decide)]
  cases c.loopsBack a 1 with
  | true => rfl
  | false => cases c.loopsBack a 0 <;> rfl

/-- The end check changes loop counts alone. -/
theorem endCheck_counts (c : Core) (a next : Nat) : ∃ lc, (endCheck c a next).1 = { c with lc := lc } := by
  obtain ⟨lc, hone⟩ := c.loopEnd_eq a 1
  obtain ⟨lc', hzero⟩ := (c.loopEnd a 1).loopEnd_eq a 0
  rw [endCheck_eq]
  split
  · exact ⟨lc, hone⟩
  · exact ⟨lc', by rw [hzero, hone]⟩

/-- The end check leaves the count of a level that no loop has, that does not run, or that ends elsewhere. -/
theorem rlc_endCheck (c : Core) {a next l : Nat} (h : 2 ≤ l ∨ c.rlc l = 0 ∨ (c.rle l).toNat ≠ a) : (endCheck c a next).1.rlc l = c.rlc l := by
  have hkept {m : Nat} : l = m → c.endsAt a m = true → 2 ≤ m := by
    rintro rfl hend
    have hend := of_decide_eq_true hend
    rcases h with h | h | h
    · exact h
    · exact absurd h hend.1
    · exact absurd hend.2 h
  have hlevel (k : Core) {m : Nat} (hm : m < 2) (hk : k.endsAt a m = c.endsAt a m) : (k.loopEnd a m).rlc l = k.rlc l := by
    rw [Core.rlc_loopEnd, if_neg]
    rintro ⟨hl, hend⟩
    exact absurd (hkept hl (hk ▸ hend)) (by omega)
  rw [endCheck_eq]
  split
  · exact hlevel c (by decide) rfl
  · exact (hlevel _ (by decide) (Core.endsAt_loopEnd c (by decide))).trans (hlevel c (by decide) rfl)

/-! ### An instruction that completes -/

/-- The cycles of an instruction are counted in its core alone, and take one free value. -/
theorem Dev.countCycles_eq (d : Dev) (n : Nat) : ∃ cy sl, d.countCycles n =
    ({ d with free := d.free + 1 } : Dev).setCore n { d.core n with cycle := cy, slice := sl } := ⟨_, _, rfl⟩

/-- What an instruction that goes on sequentially leaves: one free value is used, and in its core, `x` with its cycles counted, the loop counts and the pc are
those of the end check. -/
theorem Dev.settleRes_seq (d e : Dev) (n a next : Nat) : ∃ x cy sl cores, x = { e.core n with cycle := cy, slice := sl, inStr := false } ∧
    d.settleRes n a (.done next false e) = { e with free := e.free + 1, cores := cores } ∧
    (∀ m, m ≠ n → (d.settleRes n a (.done next false e)).core m = e.core m) ∧
    (d.settleRes n a (.done next false e)).core n = { (endCheck x a next).1 with pc := BitVec.ofNat 48 (endCheck x a next).2 } := by
  obtain ⟨cy, sl, hcount⟩ := e.countCycles_eq n
  obtain ⟨f, hf⟩ : ∃ f, f = ({ e with free := e.free + 1 } : Dev).setCore n { e.core n with cycle := cy, slice := sl } := ⟨_, rfl⟩
  obtain ⟨x, hx⟩ : ∃ x, x = { e.core n with cycle := cy, slice := sl, inStr := false } := ⟨_, rfl⟩
  have hset : d.settleRes n a (.done next false e) = f.setCore n { (endCheck x a next).1 with pc := BitVec.ofNat 48 (endCheck x a next).2 } := by
    unfold Dev.settleRes
    simp only [Bool.false_eq_true, false_and, if_false, hcount, ← hf]
    rw [hf, Dev.core_setCore_same, ← hx]
  refine ⟨x, cy, sl, _, hx, by rw [hset, hf]; rfl, fun m hm => ?_, by rw [hset, Dev.core_setCore_same]⟩
  rw [hset, Dev.core_setCore, if_neg hm, hf, Dev.core_setCore, if_neg hm]
  rfl

/-- The pc and the loop counts after an instruction that goes on sequentially are those of the end check. -/
theorem Dev.core_settleRes_seq (d e : Dev) (n a next : Nat) : ∃ x cy sl, x = { e.core n with cycle := cy, slice := sl, inStr := false } ∧
    ((d.settleRes n a (.done next false e)).core n).pc = BitVec.ofNat 48 (endCheck x a next).2 ∧
    ∀ l, ((d.settleRes n a (.done next false e)).core n).rlc l = (endCheck x a next).1.rlc l := by
  obtain ⟨x, cy, sl, cores, hx, -, -, hcore⟩ := d.settleRes_seq e n a next
  rw [hcore]
  exact ⟨x, cy, sl, hx, rfl, fun _ => rfl⟩

/-- The core after an instruction that goes elsewhere. -/
theorem Dev.core_settleRes_goes (d e : Dev) (n a : Nat) {t : Nat} (ht : t % 4 = 0) : ∃ cy sl,
    (d.settleRes n a (.done t true e)).core n = { e.core n with cycle := cy, slice := sl, inStr := false, pc := BitVec.ofNat 48 t } := by
  obtain ⟨cy, sl, hcount⟩ := e.countCycles_eq n
  refine ⟨cy, sl, ?_⟩
  unfold Dev.settleRes
  simp only [ht, ne_eq, not_true_eq_false, and_false, if_false, if_true, hcount, Dev.core_setCore_same]

/-! ### A command that sets nothing off -/

theorem Dev.drivePins_core (d : Dev) (n : Nat) : d.drivePins.core n = d.core n := rfl

theorem Dev.linkLives_idle {d : Dev} (hport : ∀ n < 64, d.faults.live.testBit (400 + n) = true → (d.port n).speed ≠ 0)
    (hhost : d.faults.live.testBit 14 = true → d.insts.link ≠ 0) : d.linkLives = d := by
  have hnone : ((List.range 64).filter fun n => decide (d.faults.live.testBit (400 + n) = true ∧ (d.port n).speed = 0)) = [] :=
    List.filter_eq_nil_iff.2 fun n hn => by simpa using hport n (List.mem_range.1 hn)
  unfold Dev.linkLives
  simp only [hnone, List.foldl_nil]
  exact if_neg fun h => hhost h.1 h.2

/-- At the end of a command that sets nothing off the fault pins follow, and nothing else happens. -/
theorem Dev.Calm.settle_eq {d : Dev} (h : d.Calm) : d.settle = d.drivePins := by
  obtain ⟨hocc, hres, hport, hhost, hhalt, ⟨hsoft, hdefer⟩, hflush⟩ := h
  have hdrain := d.drain_none 4096 hocc hres
  have hstill : d.haltDue = d := by simp [Dev.haltDue, hhalt]
  have hpending : d.softPending = d := by simp [Dev.softPending, hsoft, hdefer]
  have hstart : d.flushStart = d := by simp [Dev.flushStart, hflush]
  rw [Dev.settle, Dev.followUp, hdrain, Dev.linkLives_idle hport hhost, hstill, hdrain, hpending, hstart, hdrain]


end Sys2Proof.Machine
end

section
open Sys2Proof Sys2Proof.Machine

/-- Settles O9: of a calm device the end of the command changes the pins alone, and the end of the instruction its own core. -/
theorem registerInstructionFrame : Obligations.RegisterInstructionFrame := by
  unfold Obligations.RegisterInstructionFrame
  rintro s _ core d a c _ hcalm rfl rfl
  obtain ⟨x, cy, sl, cores, hx, hset, hother, hcore⟩ := d.settleRes_seq (d.setCore core.toNat c) core.toNat a (a + 4)
  rw [Dev.core_setCore_same] at hx
  have heCalm : (d.settleRes core.toNat a (.done (a + 4) false (d.setCore core.toNat c))).Calm := by
    rw [hset]
    exact { hcalm with }
  have hstate : s.seq core d a c = { s with dev := (d.settleRes core.toNat a (.done (a + 4) false (d.setCore core.toNat c))).drivePins } := by
    rw [← heCalm.settle_eq]; rfl
  obtain ⟨lc, hcounts⟩ := endCheck_counts x a (a + 4)
  have hlc (l : Nat) : x.rlc l = c.rlc l := by rw [hx]; rfl
  have hle (l : Nat) : x.rle l = c.rle l := by rw [hx]; rfl
  rw [hstate]
  simp only [Dev.drivePins_core, hcore]
  refine ⟨trivial, ?rest, fun m hm => ?others, ?own, fun l hl => ?_, fun l hl => ?_⟩
  case rest => rw [hset]; rfl
  case others => rw [hother m hm, Dev.core_setCore, if_neg hm]
  case own => rw [hcounts, hx]
  · exact (rlc_endCheck x (.inl hl)).trans (hlc l)
  · exact (rlc_endCheck x (.inr (by simpa [hlc, hle] using hl))).trans (hlc l)

/-- Settles O19: LOOP, the end check, and a taken transfer. -/
theorem loopSetUpAndEndCheck : Obligations.LoopSetUpAndEndCheck := by
  unfold Obligations.LoopSetUpAndEndCheck
  refine ⟨?setUp, ?endCheck, fun d e n a t ht => ?taken⟩
  case setUp =>
    intro s core d c a h lvl rc n16
    refine ⟨fun hn => ?_, fun hn => h.exec_trapsAt rfl (if_pos hn)⟩
    rw [h.exec_run (i := .loop core lvl rc n16) rfl]
    exact congrArg (fun r => Host.Outcome.next (s.leaves (d.settleRes core.toNat a r))) (if_neg hn)
  case endCheck =>
    rintro d e n a next _ _ ends back rfl rfl hends hback
    obtain ⟨x, cy, sl, hx, hnext, hcounts⟩ := d.core_settleRes_seq e n a next
    have hlc (l : Nat) : x.rlc l = (e.core n).rlc l := by rw [hx]; rfl
    have hls (l : Nat) : x.rls l = (e.core n).rls l := by rw [hx]; rfl
    have hendsAt (l : Nat) : ends l ↔ x.endsAt a l = true := by rw [hends, hx]; exact decide_eq_true_iff.symm
    have hbackAt (l : Nat) : back l ↔ x.loopsBack a l = true := by rw [hback, hendsAt, ← hlc, Core.loopsBack, Bool.and_eq_true, decide_eq_true_iff]
    have hpc (p : W48) : BitVec.ofNat 48 p.toNat = p := by rw [BitVec.ofNat_toNat, BitVec.setWidth_eq]
    have hzero := x.endsAt_loopEnd (a := a) (show 0 ≠ 1 by decide)
    have hcount := x.rlc_loopEnd_ne (a := a) (show 0 ≠ 1 by decide)
    have hcount' (y : Core) := y.rlc_loopEnd_ne (a := a) (show 1 ≠ 0 by decide)
    simp only [hnext, hcounts, endCheck_eq, hbackAt, hendsAt, ← hlc, ← hls]
    refine ⟨fun h1 => ?back1, fun h1 h0 => ?back0, fun h1 h0 => ?on, fun h1 => ?level1⟩
    case back1 =>
      rw [if_pos h1]
      exact ⟨hpc _, (x.rlc_loopEnd_same a 1).trans (if_pos (Core.endsAt_of_loopsBack h1)), hcount⟩
    case back0 =>
      rw [if_neg h1, if_pos h0]
      exact ⟨hpc _, ((x.loopEnd a 1).rlc_loopEnd_same a 0).trans (by rw [hzero, hcount, if_pos (Core.endsAt_of_loopsBack h0)])⟩
    case on =>
      rw [if_neg h1, if_neg h0]
      refine ⟨rfl, fun h => ?_, fun h => ?_⟩
      · exact Core.rlc_loopEnd_last _ (by simpa [Core.loopsBack_loopEnd] using h0) (hzero.trans h)
      · exact ((x.loopEnd a 1).rlc_loopEnd_same a 0).trans (by rw [hzero, hcount, if_neg h])
    case level1 =>
      rw [if_neg h1]
      refine ⟨fun h => ?_, fun h => ?_⟩
      · exact (hcount' _).trans (Core.rlc_loopEnd_last _ (by simpa using h1) h)
      · exact (hcount' _).trans ((x.rlc_loopEnd_same a 1).trans (if_neg h))
  case taken =>
    obtain ⟨cy, sl, hcore⟩ := d.core_settleRes_goes e n a ht
    rw [hcore]
    exact ⟨rfl, fun l => rfl⟩

end

section
/-! PROOFS. Control flow, register moves and traps of a running core (R183, R186, R195, R196). -/
namespace Sys2Proof.Machine
open Sys2Proof

/-! ### Condition codes (Table 8.11) -/

theorem condHolds_unlisted (f : Word) {n : Nat} (h : 10 ≤ n) : condHolds f n = none := by
  obtain ⟨m, rfl⟩ := Nat.exists_eq_add_of_le' h
  rfl

/-! ### Register moves -/

/-- MOVK replaces the 16 bits from bit `16 * h`. -/
theorem getLsbD_movk (x : Word) {h : Nat} (imm : BitVec 16) {j : Nat} (hj : j < 64) :
    (BitVec.ofNat 64 (setField x.toNat (2 * h) 2 imm.toNat)).getLsbD j =
      if 16 * h ≤ j ∧ j < 16 * h + 16 then imm.getLsbD (j - 16 * h) else x.getLsbD j := by
  rw [BitVec.getLsbD_ofNat, decide_eq_true hj, Bool.true_and, testBit_setField, show 8 * (2 * h) = 16 * h by omega,
    show 8 * (2 * h + 2) = 16 * h + 16 by omega]
  rfl

/-! ### Branches -/

section Results
variable {s : State} {core : BitVec 6} {d : Dev} {c k : Core} {a t : Nat} {i : Instr} {f : Dev → Core → Nat → Res}

/-- An instruction that goes elsewhere with its core as `k`. -/
theorem State.Runs.exec_goes (h : s.Runs core d c a) (hi : exec i s = act true s (·.run core.toNat f))
    (hf : f d c a = .done t true (d.setCore core.toNat k)) : exec i s = .next (s.goes core d a t k) := h.exec_goesDev hi hf

/-- An instruction that goes elsewhere, or goes on, as `b` says. -/
theorem State.Runs.exec_either {b : Bool} {out : Bool → State} (h : s.Runs core d c a)
    (hout : ∀ b, out b = if b then s.goesDev core d a t d else s.seqDev core d a d) (hi : exec i s = act true s (·.run core.toNat f))
    (hf : f d c a = if b then .done t true d else .done (a + 4) false d) : exec i s = .next (out b) := by
  rw [hout]
  cases b with
  | true => exact h.exec_goesDev hi hf
  | false => exact h.exec_seqDev hi hf

/-- A branch on a comparison of two registers. -/
theorem State.Runs.exec_branch {ra rb : Nat} {d16 : BitVec 16} {b : Bool} {cond : Word → Word → Bool} {out : Bool → State} (h : s.Runs core d c a)
    (hout : ∀ b, out b = if b then s.goesDev core d a (pcRel a d16.toInt) d else s.seqDev core d a d)
    (hi : exec i s = act true s (·.branch core.toNat ra rb d16 cond)) (hb : cond (c.rw ra) (c.rw rb) = b) : exec i s = .next (out b) :=
  h.exec_either hout hi (by rw [hb])

end Results

/-! ### Trap entry (R196) -/

/-- A core that is at supervisor privilege. -/
theorem Core.sup_eq (c : Core) : c.sup = c.status.getLsbD 0 := rfl

/-- A trap that a user handler takes. -/
theorem Dev.trapEnter_delegated (d : Dev) {n code : Nat} (detail value epc : Nat) (inStr : Bool)
    (hcode : code = 2 ∨ code = 4 ∨ code = 5 ∨ code = 6 ∨ code = 10) (hpriv : (d.core n).status.getLsbD 0 = false) (hvec : (d.core n).utvec ≠ 0)
    (hfree : (d.core n).uctl.getLsbD 1 = false) : d.trapEnter n code detail value epc inStr = d.setCore n { d.core n with
      uepc := BitVec.ofNat 64 epc, ucause := BitVec.ofNat 64 (code + detail * 2 ^ 8 + (if inStr then 2 ^ 16 else 0)), utval := BitVec.ofNat 64 value,
      uctl := (d.core n).uctl ||| 2, pc := (d.core n).utvec.truncate 48 } := by
  have hdel : delegable code = true := decide_eq_true hcode
  unfold Dev.trapEnter
  simp only [hdel, Core.sup_eq, hpriv, hfree, decide_eq_true hvec, Bool.not_false, Bool.and_true, if_true]

/-- STATUS after the entry of a trap: Priv and IE go to PrevPriv and PrevIE, Priv is set and IE cleared. -/
def trapStatus (st : Word) : Word := setF (setF (setF (setF st 2 (st.getLsbD 0)) 3 (st.getLsbD 1)) 0 true) 1 false

theorem trapStatus_bits (st : Word) : (trapStatus st).getLsbD 0 = true ∧ (trapStatus st).getLsbD 1 = false ∧ (trapStatus st).getLsbD 2 = st.getLsbD 0 ∧
    (trapStatus st).getLsbD 3 = st.getLsbD 1 ∧ (trapStatus st).getLsbD 4 = st.getLsbD 4 := by
  refine ⟨?_, ?_, ?_, ?_, ?_⟩ <;> simp only [trapStatus, getLsbD_setF] <;> rfl

/-- A trap at supervisor privilege. -/
theorem Dev.trapEnter_supervisor (d : Dev) {n code : Nat} (detail value epc : Nat) (inStr : Bool) (hpriv : (d.core n).status.getLsbD 0 = true)
    (hcode : code ≠ 0x10) : d.trapEnter n code detail value epc inStr =
      (let e := d.setCore n { d.core n with
        sepc := BitVec.ofNat 64 epc, scause := BitVec.ofNat 64 (code + detail * 2 ^ 8 + (if inStr then 2 ^ 16 else 0)), stval := BitVec.ofNat 64 value,
        status := trapStatus (d.core n).status, pc := (d.core n).stvec.truncate 48, wfi := false }
       if code < 0x10 then e.raise { src := 72 + n, acc := 6, iUnit := uCoreN n, addr := epc } else e) := by
  unfold Dev.trapEnter
  simp only [Core.sup_eq, hpriv, hcode, trapStatus, Bool.not_true, Bool.and_false, Bool.false_and, Bool.false_eq_true, if_false, if_true]

/-- A word that no encoding lists is an instruction that raises ILLEGAL (R186). -/
theorem Dev.opIllegal_unlisted (d : Dev) (n : Nat) {w : BitVec 32} (h : legalWord w.toNat = false) :
    d.opIllegal n w = d.run n fun d _ a => illegalAt w.toNat a d := by
  rw [Dev.opIllegal, h]
  exact if_neg Bool.false_ne_true

/-! ### Asynchronous traps (R195) -/

/-- A pending trap is due where asynchronous traps are taken. -/
theorem Core.asyncDue_of_on {c : Core} (hon : c.status.getLsbD 0 = false ∨ c.status.getLsbD 1 = true ∨ c.wfi = true)
    (hpend : c.preempt.isSome = true ∨ c.irqs ≠ []) : c.asyncDue = true := by
  have hon' : c.asyncOn = true := by
    rw [Core.asyncOn, Core.sup_eq]
    rcases hon with h | h | h
    · rw [h]; rfl
    · rw [h, Bool.or_true, Bool.true_or]
    · rw [h, Bool.or_true]
  rcases hpend with h | h <;> simp [Core.asyncDue, hon', h]

section Commands
variable {s : State} (h : s.Powered)
include h

theorem exec_sliceExpire (core : BitVec 6) : exec (.sliceExpire core) s = .next (s.leaves (s.dev.sliceExpire core.toNat)) :=
  act_on s (·.sliceExpire core.toNat) h

theorem exec_asyncTrapTake (core : BitVec 6) : exec (.asyncTrapTake core) s = .next (s.leaves (s.dev.asyncTrapTake core.toNat)) :=
  act_on s (·.asyncTrapTake core.toNat) h

end Commands

section Async
variable {d : Dev} {n : Nat} (hrun : d.canRun n = true)
include hrun

theorem Dev.sliceExpire_user (hpriv : (d.core n).status.getLsbD 0 = false) (hslice : (d.core n).slice ≠ 0) :
    d.sliceExpire n = d.setCore n { d.core n with slice := 0, preempt := some ((d.core n).preempt.getD 0) } :=
  if_pos ⟨hrun, by rw [Core.sup_eq, hpriv]; exact Bool.false_ne_true, hslice⟩

section Take
variable (hon : (d.core n).status.getLsbD 0 = false ∨ (d.core n).status.getLsbD 1 = true ∨ (d.core n).wfi = true) {det : Nat}
include hon

theorem Dev.asyncTrapTake_preempt (hdet : (d.core n).preempt = some det) : d.asyncTrapTake n =
    (d.setCore n { d.core n with preempt := none, inStr := false }).trapEnter n 0x10 det 0 (d.core n).pc.toNat (d.core n).inStr := by
  have hdue : (d.core n).asyncDue = true := Core.asyncDue_of_on hon (.inl (by rw [hdet]; rfl))
  rw [Dev.asyncTrapTake, if_pos ⟨hrun, hdue⟩, Dev.takeAsync]
  simp only [hdet]

theorem Dev.asyncTrapTake_interrupt {r : List Nat} (hnone : (d.core n).preempt = none) (hirq : (d.core n).irqs = det :: r) : d.asyncTrapTake n =
    (d.setCore n { d.core n with irqs := r, inStr := false }).trapEnter n 0x11 det 0 (d.core n).pc.toNat (d.core n).inStr := by
  have hdue : (d.core n).asyncDue = true := Core.asyncDue_of_on hon (.inr (by rw [hirq]; simp))
  rw [Dev.asyncTrapTake, if_pos ⟨hrun, hdue⟩, Dev.takeAsync]
  simp only [hnone, hirq]

end Take

end Async

end Sys2Proof.Machine
end

section
open Sys2Proof Sys2Proof.Machine

/-- Settles O18: each move writes its one register, and an index that no table lists is no instruction. -/
theorem moveAndSelectResults : Obligations.MoveAndSelectResults := by
  unfold Obligations.MoveAndSelectResults
  rintro s core d c a h rd ra rb rc imm _ _ rfl rfl
  refine ⟨fun hh => ?movz, fun hh => ?movk, fun b hb => ?csel, fun hd hv => ?setb, fun hd hv => ?setbRange, fun ha => ?getb, fun hl => ?count,
    fun l hl hrc => ?start, fun l hl hrc => ?ending, h.exec_seq rfl rfl, h.exec_seq rfl rfl, h.exec_seq rfl rfl, h.exec_seq rfl rfl, h.exec_seq rfl rfl,
    h.exec_seq rfl rfl, h.exec_seq rfl rfl, h.exec_seq rfl rfl, fun hh => ?movIllegal, fun hc => ?cselIllegal, fun hd => ?setbIllegal,
    fun ha => ?getbIllegal, fun hl => ?loopIllegal,
    fun hs => ?stringIllegal, fun hl => ?lclrIllegal⟩
  case movz => exact h.exec_seq rfl (if_neg (Nat.not_le.2 hh))
  case movk => exact ⟨_, h.exec_seq rfl (if_neg (Nat.not_le.2 hh)), fun j hj => getLsbD_movk _ imm hj⟩
  case csel => exact h.exec_seq rfl (by simp only [hb])
  case setb => exact h.exec_seq rfl ((if_neg (Nat.not_le.2 hd)).trans (if_neg (Nat.not_le.2 hv)))
  case setbRange => exact h.exec_trapsAt rfl ((if_neg (Nat.not_le.2 hd)).trans (if_pos hv))
  case getb => exact h.exec_seq rfl (if_neg (Nat.not_le.2 ha))
  case count =>
    have h6 : ¬ 6 ≤ rc.toNat := by omega
    refine ⟨h.exec_seq rfl ?_, h.exec_seq rfl ?_, h.exec_seq rfl (if_neg (Nat.not_le.2 hl))⟩
    · simp only [h6, hl, if_true, if_false]
    · simp only [h6, hl, if_true, if_false]
  case start =>
    have h6 : ¬ 6 ≤ rc.toNat := by omega
    have h2 : ¬ rc.toNat < 2 := by omega
    have h4 : rc.toNat < 4 := by omega
    have hsub : rc.toNat - 2 = l := by omega
    refine ⟨h.exec_seq rfl ?_, h.exec_seq rfl ?_⟩ <;> simp only [h6, h2, h4, hsub, if_true, if_false]
  case ending =>
    have h6 : ¬ 6 ≤ rc.toNat := by omega
    have h2 : ¬ rc.toNat < 2 := by omega
    have h4 : ¬ rc.toNat < 4 := by omega
    have hsub : rc.toNat - 4 = l := by omega
    refine ⟨h.exec_seq rfl ?_, h.exec_seq rfl ?_⟩ <;> simp only [h6, h2, h4, hsub, if_false]
  case movIllegal => exact ⟨h.exec_trapsAt rfl (if_pos hh), h.exec_trapsAt rfl (if_pos hh)⟩
  case cselIllegal => exact h.exec_trapsAt rfl (by simp only [condHolds_unlisted _ hc]; rfl)
  case setbIllegal => exact h.exec_trapsAt rfl (if_pos hd)
  case getbIllegal => exact h.exec_trapsAt rfl (if_pos ha)
  case loopIllegal => exact ⟨h.exec_trapsAt rfl (if_pos hl), h.exec_trapsAt rfl (if_pos hl)⟩
  case stringIllegal =>
    obtain ⟨m, hm⟩ := Nat.exists_eq_add_of_le' hs
    refine ⟨h.exec_trapsAt rfl ?_, h.exec_trapsAt rfl ?_⟩
    · rw [hm]; rfl
    · rw [hm]; rfl
  case lclrIllegal => exact h.exec_trapsAt rfl (if_pos hl)

/-- Settles O20: each branch goes as its comparison says, and each jump goes. -/
theorem branchAndJumpResults : Obligations.BranchAndJumpResults := by
  unfold Obligations.BranchAndJumpResults
  rintro s core d c a h rd ra rb d16 d26 _ _ _ out rfl rfl rfl hout
  refine ⟨h.exec_branch hout rfl rfl, h.exec_branch hout rfl ?bne, h.exec_branch hout rfl rfl, h.exec_branch hout rfl ?bge, h.exec_branch hout rfl rfl,
    h.exec_branch hout rfl ?bgeu, fun b hb => ?bf, fun hc => ?bfIllegal, h.exec_goesDev rfl rfl, h.exec_goes rfl rfl, fun ht => ?jr, fun ht => ?jrMisaligned⟩
  case bne => exact (decide_not ..).symm
  case bge => rw [BitVec.slt, ← decide_not, decide_eq_decide]; exact not_lt
  case bgeu => rw [BitVec.ult, ← decide_not, decide_eq_decide]; exact not_lt
  case bf => exact h.exec_either hout rfl (by simp only [hb]; rfl)
  case bfIllegal => exact h.exec_trapsAt rfl (by simp only [condHolds_unlisted _ hc]; rfl)
  case jr => exact h.exec_goes rfl (if_neg (not_not.2 ht))
  case jrMisaligned => exact h.exec_trapsAt rfl (if_pos ht)

/-- Settles O22: the trap instructions, an unlisted word, and the asynchronous traps. -/
theorem trapInstructionsAndAsyncTraps : Obligations.TrapInstructionsAndAsyncTraps := by
  unfold Obligations.TrapInstructionsAndAsyncTraps
  refine ⟨?traps, ?async⟩
  case traps =>
    intro s core d c a h code w
    refine ⟨?trap, h.exec_trapsAt rfl rfl, fun hw => ?illegal⟩
    case trap => exact h.exec_trapsAt rfl (by rw [Nat.mod_eq_of_lt code.isLt])
    case illegal =>
      have hop : (fun d : Dev => d.opIllegal core.toNat w) = (·.run core.toNat fun d _ a => illegalAt w.toNat a d) :=
        funext fun d => d.opIllegal_unlisted core.toNat hw
      have hi : exec (.illegalInstruction core w) s = act true s (fun d => d.opIllegal core.toNat w) := rfl
      exact h.exec_trapsAt (hi.trans (by rw [hop])) rfl
  case async =>
    rintro s core _ hp hrun rfl
    refine ⟨fun hpriv hslice => ?slice, fun hon => ⟨fun det hdet => ?preempt, fun det r hnone hirq => ?interrupt⟩⟩
    case slice => rw [exec_sliceExpire hp, Dev.sliceExpire_user hrun hpriv hslice]
    case preempt => rw [exec_asyncTrapTake hp, Dev.asyncTrapTake_preempt hrun hon hdet]
    case interrupt => rw [exec_asyncTrapTake hp, Dev.asyncTrapTake_interrupt hrun hon hnone hirq]

/-- Settles O23: a delegated trap, and a trap at supervisor privilege. -/
theorem trapEntryOfTheRule : Obligations.TrapEntryOfTheRule := by
  unfold Obligations.TrapEntryOfTheRule
  rintro d n code detail value epc inStr _ _ rfl rfl
  exact ⟨fun hcode hpriv hvec hfree => d.trapEnter_delegated detail value epc inStr hcode hpriv hvec hfree,
    fun hpriv hcode => ⟨_, d.trapEnter_supervisor detail value epc inStr hpriv hcode, trapStatus_bits _⟩⟩

end

section
/-! PROOFS. The string instructions (R191, R192): what one element does, and how an instruction of one element ends. -/
namespace Sys2Proof.Machine
open Sys2Proof

/-! ### The accesses of an element -/

section Elements
variable {d e : Dev} {core : BitVec 6} {p : Word} {sz loc v : Nat} {r : Elem}

theorem Dev.elemLoad_reaches {k : Dev → Nat → Elem} (h : d.Reaches core p.toNat sz 1 1 loc e) (hk : k e (e.peekLe loc sz) = r) :
    d.elemLoad core.toNat p sz k = r := by
  obtain ⟨cls, h⟩ := h
  rw [Dev.elemLoad, Dev.elemAcc, h]
  exact hk

theorem Dev.elemStore_reaches {k : Dev → Elem} (h : d.Reaches core p.toNat sz 2 2 loc e) (hk : k (e.storeAt loc sz v) = r) :
    d.elemStore core.toNat p sz v k = r := by
  obtain ⟨cls, h⟩ := h
  rw [Dev.elemStore, Dev.elemAcc, h]
  exact hk

end Elements

/-! ### The loop over elements -/

/-- With no element left the instruction completes. -/
theorem strLoop_none {n : Nat} (elem : Dev → Elem) (last : Core → Core) (a lim : Nat) {d : Dev} (h : (d.core n).pn = 0) :
    strLoop n elem last a lim d = .done (a + 4) false (d.setCore n (last (d.core n))) := by
  cases lim with
  | zero => exact if_pos h
  | succ _ => exact if_pos h

/-- The device after an element that lets the loop go on: one element fewer is left. -/
def Dev.elementDone (d : Dev) (n : Nat) : Dev := d.setCore n { d.core n with pn := (d.core n).pn - 1 }

/-- One element that lets the loop go on: the instruction completes, or stands at the boundary. -/
theorem strLoop_one_next {n a : Nat} {elem : Dev → Elem} {last : Core → Core} {d e : Dev} (h : (d.core n).pn ≠ 0) (he : elem d = .next e) :
    strLoop n elem last a 1 d = if ((e.elementDone n).core n).pn = 0
      then .done (a + 4) false ((e.elementDone n).setCore n (last ((e.elementDone n).core n)))
      else .stay ((e.elementDone n).setCore n { (e.elementDone n).core n with inStr := true }) := by
  rw [strLoop]
  simp only [h, if_false, he]
  rfl

/-- An element that ends the loop completes the instruction. -/
theorem strLoop_one_stop {n a : Nat} {elem : Dev → Elem} {last : Core → Core} {d e : Dev} (h : (d.core n).pn ≠ 0) (he : elem d = .stop e) :
    strLoop n elem last a 1 d = .done (a + 4) false e := by
  rw [strLoop]
  simp only [h, if_false, he]

section Results
variable {s : State} {core : BitVec 6} {d e : Dev} {c k : Core} {a lim : Nat} {i : Instr} {elem : Dev → Elem} {last : Core → Core}

theorem State.Runs.exec_str_none (h : s.Runs core d c a) (hi : exec i s = act true s (·.str core.toNat lim elem last)) (hpn : c.pn = 0) (hk : last c = k) :
    exec i s = .next (s.seq core d a k) := by
  obtain rfl := h.cur
  subst hk
  exact h.exec_seq hi (strLoop_none elem last a lim hpn)

theorem State.Runs.exec_str_next {after : Dev → (Core → Core) → State} (h : s.Runs core d c a)
    (hafter : ∀ e last g, g = e.setCore core.toNat { e.core core.toNat with pn := (e.core core.toNat).pn - 1 } →
      after e last = if (g.core core.toNat).pn = 0 then s.seqDev core d a (g.setCore core.toNat (last (g.core core.toNat)))
        else s.leaves (g.setCore core.toNat { g.core core.toNat with inStr := true }))
    (hi : exec i s = act true s (·.str core.toNat 1 elem last)) (hpn : c.pn ≠ 0) (he : elem d = .next e) : exec i s = .next (after e last) := by
  obtain rfl := h.cur
  rw [h.exec_run hi, hafter e last (e.elementDone core.toNat) rfl, strLoop_one_next hpn he]
  split
  · rfl
  · rfl

theorem State.Runs.exec_str_stop (h : s.Runs core d c a) (hi : exec i s = act true s (·.str core.toNat 1 elem last)) (hpn : c.pn ≠ 0)
    (he : elem d = .stop e) : exec i s = .next (s.seqDev core d a e) := by
  obtain rfl := h.cur
  exact h.exec_seqDev hi (strLoop_one_stop hpn he)

end Results

end Sys2Proof.Machine
end

section
open Sys2Proof Sys2Proof.Machine

/-- Settles O30: the instruction without an element, and the one element of each instruction. -/
theorem stringElementResults : Obligations.StringElementResults := by
  unfold Obligations.StringElementResults
  rintro s core d c a h es _ _ rfl rfl
  obtain rfl := h.cur
  refine ⟨fun hpn lim => ?none, fun hpn after hafter => ⟨?movs, ?fills, ?cmps, ?scans, ?hashs⟩⟩
  case none =>
    exact ⟨h.exec_str_none rfl hpn rfl, h.exec_str_none rfl hpn rfl, h.exec_str_none rfl hpn rfl, h.exec_str_none rfl hpn rfl, h.exec_str_none rfl hpn rfl⟩
  case movs =>
    rintro l1 l2 d1 d2 _ hload hstore rfl
    exact h.exec_str_next hafter rfl hpn (Dev.elemLoad_reaches hload (Dev.elemStore_reaches hstore rfl))
  case fills =>
    rintro l2 d2 _ hstore rfl
    exact h.exec_str_next hafter rfl hpn (Dev.elemStore_reaches hstore rfl)
  case cmps =>
    rintro l1 l2 d1 d2 _ _ _ hsrc hdst rfl rfl rfl
    refine ⟨fun hne => ?_, fun heq => ?_⟩
    · exact h.exec_str_stop rfl hpn (Dev.elemLoad_reaches hsrc (Dev.elemLoad_reaches hdst (if_pos hne)))
    · exact h.exec_str_next hafter rfl hpn (Dev.elemLoad_reaches hsrc (Dev.elemLoad_reaches hdst (if_neg (not_not.2 heq))))
  case scans =>
    rintro l1 d1 _ hload rfl
    refine ⟨fun heq => ?_, fun hne => ?_⟩
    · exact h.exec_str_stop rfl hpn (Dev.elemLoad_reaches hload (if_pos heq))
    · exact h.exec_str_next hafter rfl hpn (Dev.elemLoad_reaches hload (if_neg hne))
  case hashs =>
    intro l1 d1 hload
    refine h.exec_str_next hafter rfl hpn (Dev.elemLoad_reaches hload ?_)
    rw [Dev.ofNat_peekLe_one]
    rfl

end

section
/-! PROOFS. DMA channels (09_translation_dma_preemption.md): what a row of a descriptor operation does to a free and to a held channel, the units of a
run, faults and page requests, and invalidations. -/
namespace Sys2Proof.Machine
open Sys2Proof

/-! ### The commands, at a powered device -/

section Commands
variable {s : State} (h : s.Powered)
include h

theorem exec_pageResponseReceive (prg : Nat) (ok : Bool) : exec (.pageResponseReceive prg ok) s = .next (s.leaves (s.dev.pageResponse prg ok)) :=
  act_on s (Dev.pageResponse · prg ok) h

theorem exec_hostPageTimeout (prg : Nat) : exec (.hostPageTimeout prg) s = .next (s.leaves (s.dev.pageTimeout prg)) := act_on s (Dev.pageTimeout · prg) h

theorem exec_tlbInvalidate (asid : Nat) (host : Bool) (va : Nat) :
    exec (.tlbInvalidate asid host va) s = .next (s.leaves (s.dev.tlbInvalidate asid host va)) := act_on s (Dev.tlbInvalidate · asid host va) h

variable {i : Nat} (hi : i < 1024)
include hi

theorem exec_dmaDescriptorComplete : exec (.dmaDescriptorComplete i) s = .next (s.leaves (s.dev.dmaComplete i)) :=
  act_if _ s (Dev.dmaComplete · i) h (by simpa using hi)

theorem exec_dmaFaultEnd : exec (.dmaFaultEnd i) s = .next (s.leaves (s.dev.dmaFaultEnd i)) := by
  have hact : s.dev.activityFaultEnd i = s.dev.dmaFaultEnd i := if_pos hi
  rw [← hact]
  exact act_if _ s (Dev.activityFaultEnd · i) h (decide_eq_true (by omega))

theorem exec_dmaChannelResume : exec (.dmaChannelResume i) s = .next (s.leaves (s.dev.dmaResume i)) := by
  have hact : s.dev.activityResume i = s.dev.dmaResume i := if_pos hi
  rw [← hact]
  exact act_if _ s (Dev.activityResume · i) h (decide_eq_true (by omega))

end Commands

/-- Command `c` is the row of descriptor operation `op`, of channel `i` and queue `q`, with entry `raw`, for `n` units. -/
def IsDmaRow (i q op n : Nat) (raw : BitVec 512) (grant : Bool) (data : List Byte) (c : Instr) : Prop :=
  (op = 1 ∧ c = .dmaCopy i q raw n) ∨ (op = 2 ∧ c = .dmaFill i q raw n) ∨ (op = 3 ∧ c = .dmaHostRead i q raw n grant data) ∨
    (op = 4 ∧ c = .dmaHostWrite i q raw n grant) ∨ (op = 5 ∧ c = .dmaVolumeRead i q raw n) ∨ (op = 6 ∧ c = .dmaVolumeWrite i q raw n)

/-- Every row is `Dev.dmaRow` of its Op: those of the host's memory carry the host's grant, and HOST_READ the host's bytes (R221). -/
theorem IsDmaRow.exec_eq {i q op n : Nat} {raw : BitVec 512} {grant : Bool} {data : List Byte} {c : Instr} (hc : IsDmaRow i q op n raw grant data c)
    (hi : i < 1024) (hq : q < 65536) : ∃ g l, (op = 3 ∨ op = 4 → g = grant) ∧ (op = 3 → l = data) ∧
      ∀ s : State, s.Powered → exec c s = .next (s.leaves (s.dev.dmaRow op i q raw n g l)) := by
  have hact : ∀ (f : Dev → Dev) (s : State), s.Powered → act (decide (i < 1024 ∧ q < 65536)) s f = .next (s.leaves (f s.dev)) :=
    fun f s h => act_if _ s f h (by simp [hi, hq])
  rcases hc with ⟨rfl, rfl⟩ | ⟨rfl, rfl⟩ | ⟨rfl, rfl⟩ | ⟨rfl, rfl⟩ | ⟨rfl, rfl⟩ | ⟨rfl, rfl⟩
  · exact ⟨false, [], by simp, by simp, hact (Dev.dmaCopy · i q raw n)⟩
  · exact ⟨false, [], by simp, by simp, hact (Dev.dmaFill · i q raw n)⟩
  · exact ⟨grant, data, fun _ => rfl, fun _ => rfl, hact (Dev.dmaHostRead · i q raw n grant data)⟩
  · exact ⟨grant, [], fun _ => rfl, by simp, hact (Dev.dmaHostWrite · i q raw n grant)⟩
  · exact ⟨false, [], by simp, by simp, hact (Dev.dmaVolumeRead · i q raw n)⟩
  · exact ⟨false, [], by simp, by simp, hact (Dev.dmaVolumeWrite · i q raw n)⟩

/-! ### A channel after a write of it -/

@[simp] theorem Dev.ch_setCh_same (d : Dev) (i : Nat) (x : Channel) : (d.setCh i x).ch i = x := by simp [Dev.ch_setCh]

@[simp] theorem Dev.ch_setDesc_same (d : Dev) (i : Nat) (x : Desc) : (d.setDesc i x).ch i = { d.ch i with desc := some x } := Dev.ch_setCh_same ..

@[simp] theorem Dev.tlbInvalidate_ch (d : Dev) (asid va i : Nat) (host : Bool) : (d.tlbInvalidate asid host va).ch i = d.ch i := rfl

theorem Dev.desc_setVst {d : Dev} {i : Nat} {x : Desc} (st : Nat) (hx : (d.ch i).desc = some x) :
    ((d.setVst i st).ch i).desc = some { x with vst := st } := by simp [Dev.setVst, hx]

/-! ### A free channel takes a descriptor (R216, R220) -/

section Take
variable {d : Dev} {i q : Nat} {raw : BitVec 512}

/-- The context that submitted the descriptor from its ring has ended. -/
theorem Dev.dmaTake_gone (hq : q ≠ 0xFFFF) (hloc : qLoc (d.q q) = 1) (hgone : d.ctxGone (d.descOf q raw).ctx = true) :
    d.dmaTake i q raw = (d.setDesc i (d.descOf q raw)).dmaFinish i stAborted := if_pos ⟨hq, hloc, hgone⟩

section Lives
variable (hlive : q = 0xFFFF ∨ qLoc (d.q q) ≠ 1 ∨ d.ctxGone (d.descOf q raw).ctx = false)
include hlive

theorem Dev.dmaTake_lives : d.dmaTake i q raw =
    if (d.descOf q raw).invalid then (d.setDesc i (d.descOf q raw)).dmaFinish i stInvalid
    else if (d.descOf q raw).len = 0 then (d.setDesc i (d.descOf q raw)).dmaFinish i stDone
    else d.setDesc i (d.descOf q raw) := by
  refine if_neg fun ⟨hq, hloc, hgone⟩ => ?_
  rcases hlive with h | h | h
  · exact hq h
  · exact h hloc
  · exact Bool.false_ne_true (h.symm.trans hgone)

theorem Dev.dmaTake_invalid (hbad : (d.descOf q raw).invalid = true) :
    d.dmaTake i q raw = (d.setDesc i (d.descOf q raw)).dmaFinish i stInvalid := by rw [Dev.dmaTake_lives hlive, if_pos hbad]

theorem Dev.dmaTake_empty (hok : (d.descOf q raw).invalid = false) (hlen : (d.descOf q raw).len = 0) :
    d.dmaTake i q raw = (d.setDesc i (d.descOf q raw)).dmaFinish i stDone := by
  rw [Dev.dmaTake_lives hlive, if_neg (by simp [hok]), if_pos hlen]

theorem Dev.dmaTake_queued (hok : (d.descOf q raw).invalid = false) (hlen : (d.descOf q raw).len ≠ 0) :
    d.dmaTake i q raw = d.setDesc i (d.descOf q raw) := by
  rw [Dev.dmaTake_lives hlive, if_neg (by simp [hok]), if_neg hlen]

end Lives

variable {op : Nat} {grant : Bool} {data : List Byte}
  (hfree : (d.ch i).desc = none) (hruns : d.unitRuns (chUnit i) = true) (hquiet : d.quiet = false)
include hfree hruns hquiet

theorem Dev.dmaRow_nothing {n : Nat} (htake : d.takeEntry (chUnit i) q raw.toNat = none) : d.dmaRow op i q raw n grant data = d := by
  simp [Dev.dmaRow, hfree, hruns, hquiet, htake]

/-- A row that runs no unit takes a descriptor of its own Op and does no more. -/
theorem Dev.dmaRow_takes {r : Nat} {f : Dev} (hi : i < 1024) (htake : d.takeEntry (chUnit i) q raw.toNat = some (r, f)) (hop : byteOf r 0 = op) :
    d.dmaRow op i q raw 0 grant data = f.dmaTake i q (BitVec.ofNat 512 r) := by
  simp only [Dev.dmaRow, hfree, hruns, hquiet, htake, hop, hi, Option.isNone_none, Bool.false_eq_true, not_false_eq_true, and_self, true_or, if_true,
    lt_irrefl, and_false, if_false]
  split <;> rfl

end Take

/-! ### A channel that holds a descriptor (R216, R217) -/

/-- One unit of the operation of descriptor `x`. -/
def Dev.dmaUnit (d : Dev) (i : Nat) (x : Desc) (grant : Bool) (data : List Byte) : Unit1 :=
  match x.op with
  | 1 => d.copyUnit i x
  | 2 => d.fillUnit i x
  | 3 => d.hostReadUnit i x grant data
  | 4 => d.hostWriteUnit i x grant
  | 5 => d.volReadUnit i x
  | _ => d.volWriteUnit i x

/-- The device after a unit of descriptor `x` at channel `i`: Progress counts the bytes of a unit that completed. -/
def unitEnds (i : Nat) (x : Desc) : Unit1 → Dev
  | .stop d => d
  | .go k d => match (d.ch i).desc with
    | none => d
    | some y => d.setDesc i { y with progress := x.progress + k }

theorem unitEnds_go {i k : Nat} {x y : Desc} {d : Dev} (hy : (d.ch i).desc = some y) :
    unitEnds i x (.go k d) = d.setDesc i { y with progress := x.progress + k } := by simp only [unitEnds, hy]

section Held
variable {d : Dev} {i q op n : Nat} {raw : BitVec 512} {grant : Bool} {data : List Byte} {x : Desc} (hx : (d.ch i).desc = some x)
include hx

theorem Dev.dmaRow_held : d.dmaRow op i q raw n grant data = if x.op = op ∧ 0 < n then Dev.dmaRun i grant n data (d.dmaStart i) else d := by
  simp [Dev.dmaRow, hx]

theorem Dev.dmaRow_otherOp (hop : x.op ≠ op) : d.dmaRow op i q raw n grant data = d := by
  rw [Dev.dmaRow_held hx, if_neg fun h => hop h.1]

theorem Dev.dmaStart_stays (h : x.status ≠ stQueued ∨ d.unitRuns (chUnit i) = false) : d.dmaStart i = d := by
  simp only [Dev.dmaStart, hx]
  refine if_neg fun ⟨hst, hruns⟩ => ?_
  rcases h with h | h
  · exact h hst
  · exact Bool.false_ne_true (h.symm.trans hruns)

theorem Dev.dmaStart_starts (hst : x.status = stQueued) (hruns : d.unitRuns (chUnit i) = true) :
    d.dmaStart i = d.setDesc i { x with status := stRunning } := by
  simp only [Dev.dmaStart, hx]
  exact if_pos ⟨hst, hruns⟩

/-- A QUEUED descriptor runs as it does once RUNNING. -/
theorem Dev.dmaRow_starts (hst : x.status = stQueued) (hruns : d.unitRuns (chUnit i) = true) (hop : x.op = op) (hn : 0 < n) :
    d.dmaRow op i q raw n grant data = (d.setDesc i { x with status := stRunning }).dmaRow op i q raw n grant data := by
  have hrunning : ((d.setDesc i { x with status := stRunning }).ch i).desc = some { x with status := stRunning } := by simp
  rw [Dev.dmaRow_held hx, if_pos ⟨hop, hn⟩, Dev.dmaStart_starts hx hst hruns, Dev.dmaRow_held hrunning, if_pos ⟨hop, hn⟩,
    Dev.dmaStart_stays hrunning (.inl (by decide : stRunning ≠ stQueued))]

theorem Dev.dmaRun_idle (h : x.status ≠ stRunning ∨ d.unitRuns (chUnit i) = false ∨ x.gen ≠ d.instGen x.inst) : Dev.dmaRun i grant n data d = d := by
  cases n with
  | zero => rfl
  | succ n =>
    simp only [Dev.dmaRun, hx]
    rcases h with h | h | h
    · exact if_pos (.inl h)
    · exact if_pos (.inr (by simp [h]))
    · rw [if_pos h, ite_self]

theorem Dev.dmaRow_idle
    (h : (x.status ≠ stRunning ∧ x.status ≠ stQueued) ∨ d.unitRuns (chUnit i) = false ∨ (x.status = stRunning ∧ x.gen ≠ d.instGen x.inst)) :
    d.dmaRow op i q raw n grant data = d := by
  have hstart : x.status ≠ stQueued ∨ d.unitRuns (chUnit i) = false := by
    rcases h with ⟨-, h⟩ | h | ⟨h, -⟩
    · exact .inl h
    · exact .inr h
    · exact .inl (by rw [h]; decide)
  have hidle : x.status ≠ stRunning ∨ d.unitRuns (chUnit i) = false ∨ x.gen ≠ d.instGen x.inst := h.imp And.left (Or.imp_right And.right)
  rw [Dev.dmaRow_held hx, Dev.dmaStart_stays hx hstart, Dev.dmaRun_idle hx hidle, ite_self]

theorem Dev.dmaRun_one (hst : x.status = stRunning) (hruns : d.unitRuns (chUnit i) = true) (hgen : x.gen = d.instGen x.inst) :
    Dev.dmaRun i grant 1 data d = unitEnds i x (d.dmaUnit i x grant data) := by
  have hgo : ¬ (x.status ≠ stRunning ∨ ¬ d.unitRuns (chUnit i) = true) := by simp [hst, hruns]
  simp only [Dev.dmaRun, hx, if_neg hgo, if_neg (not_not.2 hgen), ite_self]
  rfl

theorem Dev.dmaRow_one (hop : x.op = op) (hst : x.status = stRunning) (hruns : d.unitRuns (chUnit i) = true) (hgen : x.gen = d.instGen x.inst) :
    d.dmaRow op i q raw 1 grant data = unitEnds i x (d.dmaUnit i x grant data) := by
  rw [Dev.dmaRow_held hx, if_pos ⟨hop, Nat.one_pos⟩, Dev.dmaStart_stays hx (.inl (by rw [hst]; decide)), Dev.dmaRun_one hx hst hruns hgen]

end Held

/-! ### The units of a run (R217, R220, R221, R246) -/

/-- Bytes of one unit of `x` within memory: to the next line of either side, or a whole line where source and destination overlap. -/
def Desc.unitBytes (x : Desc) : Nat :=
  if x.op = 1 ∧ x.overlaps then min 64 (x.len - x.progress)
  else if x.op = 2 then min (64 - (x.dst + x.progress) % 64) (x.len - x.progress)
  else min (min (64 - (x.src + x.progress) % 64) (64 - (x.dst + x.progress) % 64)) (x.len - x.progress)

/-- The bytes that a unit of FILL stores: those of Src in turn. -/
def Desc.fillBytes (x : Desc) : List Byte := (List.range x.unitBytes).map fun j => BitVec.ofNat 8 (byteOf x.src ((x.progress + j) % 8))

section Units
variable {d d1 d2 : Dev} {i a v : Nat} {x y : Desc} {grant : Bool} {data b : List Byte}

section Copy
variable (hop : x.op = 1)
include hop

theorem Desc.unitBytes_copy : x.unitBytes = if x.overlaps then min 64 (x.len - x.progress)
    else min (min (64 - (x.src + x.progress) % 64) (64 - (x.dst + x.progress) % 64)) (x.len - x.progress) := by simp [Desc.unitBytes, hop]

theorem Dev.dmaUnit_copy : d.dmaUnit i x grant data = d.copyUnit i x := by simp only [Dev.dmaUnit, hop]

theorem Dev.copyUnit_goes (hread : d.readVa (chWho i x) (x.src + x.progress) x.unitBytes = .ok b d1)
    (hwrite : d1.writeVa (chWho i x) (x.dst + x.progress) b = .ok () d2) : d.copyUnit i x = .go x.unitBytes d2 := by
  rw [Desc.unitBytes_copy hop] at hread ⊢
  simp only [Dev.copyUnit, hread, hwrite]

theorem Dev.copyUnit_faults (hread : d.readVa (chWho i x) (x.src + x.progress) x.unitBytes = .fault a v d1) :
    d.copyUnit i x = .stop (d1.dmaFault i a v) := by
  rw [Desc.unitBytes_copy hop] at hread
  simp only [Dev.copyUnit, hread, Dev.dmaStop]

theorem Dev.copyUnit_poisoned (hread : d.readVa (chWho i x) (x.src + x.progress) x.unitBytes = .poison d1) :
    d.copyUnit i x = .stop (d1.dmaFinish i stPoisoned) := by
  rw [Desc.unitBytes_copy hop] at hread
  simp only [Dev.copyUnit, hread, Dev.dmaStop]

end Copy

section Fill
variable (hop : x.op = 2)
include hop

theorem Dev.dmaUnit_fill : d.dmaUnit i x grant data = d.fillUnit i x := by simp only [Dev.dmaUnit, hop]

theorem Desc.unitBytes_fill : x.unitBytes = min (64 - (x.dst + x.progress) % 64) (x.len - x.progress) := by simp [Desc.unitBytes, hop]

theorem Dev.fillUnit_goes (hwrite : d.writeVa (chWho i x) (x.dst + x.progress) x.fillBytes = .ok () d2) : d.fillUnit i x = .go x.unitBytes d2 := by
  rw [Desc.fillBytes, Desc.unitBytes_fill hop] at hwrite
  simp only [Dev.fillUnit, hwrite, Desc.unitBytes_fill hop]

theorem Dev.fillUnit_faults (hwrite : d.writeVa (chWho i x) (x.dst + x.progress) x.fillBytes = .fault a v d1) :
    d.fillUnit i x = .stop (d1.dmaFault i a v) := by
  rw [Desc.fillBytes, Desc.unitBytes_fill hop] at hwrite
  simp only [Dev.fillUnit, hwrite, Dev.dmaStop]

end Fill

theorem Desc.unitBytes_host (hop : x.op = 3 ∨ x.op = 4) :
    x.unitBytes = min (min (64 - (x.src + x.progress) % 64) (64 - (x.dst + x.progress) % 64)) (x.len - x.progress) := by
  rcases hop with hop | hop <;> simp [Desc.unitBytes, hop]

theorem Dev.hostReadUnit_asks (hxlat : d.hostXlat i x.inst (x.src + x.progress) grant = none) :
    d.hostReadUnit i x grant data = .stop (d.dmaHostFault i (x.src + x.progress)) := by simp only [Dev.hostReadUnit, hxlat]

section HostRead
variable (hop : x.op = 3)
include hop

theorem Dev.dmaUnit_hostRead : d.dmaUnit i x grant data = d.hostReadUnit i x grant data := by simp only [Dev.dmaUnit, hop]

theorem Dev.hostReadUnit_goes (hxlat : d.hostXlat i x.inst (x.src + x.progress) grant = some d1)
    (hwrite : ((d1.noteRequest x.inst).emit .hostRead [x.inst, x.src + x.progress, x.unitBytes, d1.pasid x.inst]).writeVa (chWho i x) (x.dst + x.progress)
      ((List.range x.unitBytes).map fun j => listGet 0 data j) = .ok () d2) : d.hostReadUnit i x grant data = .go x.unitBytes d2 := by
  rw [Desc.unitBytes_host (.inl hop)] at hwrite ⊢
  simp only [Dev.hostReadUnit, hxlat, hwrite]

end HostRead

section HostWrite
variable (hop : x.op = 4)
include hop

theorem Dev.dmaUnit_hostWrite : d.dmaUnit i x grant data = d.hostWriteUnit i x grant := by simp only [Dev.dmaUnit, hop]

variable (hread : d.readVa (chWho i x) (x.src + x.progress) x.unitBytes = .ok b d1)
include hread

theorem Dev.hostWriteUnit_asks (hxlat : d1.hostXlat i x.inst (x.dst + x.progress) grant = none) :
    d.hostWriteUnit i x grant = .stop (d1.dmaHostFault i (x.dst + x.progress)) := by
  rw [Desc.unitBytes_host (.inr hop)] at hread
  simp only [Dev.hostWriteUnit, hread, hxlat]

theorem Dev.hostWriteUnit_goes (hxlat : d1.hostXlat i x.inst (x.dst + x.progress) grant = some d2) : d.hostWriteUnit i x grant =
    .go x.unitBytes (d2.hostPost x.inst x.gen .hostWrite [x.inst, x.dst + x.progress, d2.pasid x.inst] b) := by
  rw [Desc.unitBytes_host (.inr hop)] at hread ⊢
  simp only [Dev.hostWriteUnit, hread, hxlat]

end HostWrite

theorem Dev.dmaUnit_volRead (hop : x.op = 5) : d.dmaUnit i x grant data = d.volReadUnit i x := by simp only [Dev.dmaUnit, hop]

theorem Dev.volReadUnit_beyond (hvol : d.volHolds x.vol (x.src + x.progress) 4096 = false) : d.volReadUnit i x = .stop (d.dmaFinish i stVolErr) :=
  if_pos (by simp [hvol])

/-- A block that has come from the volume is stored. -/
theorem Dev.volReadUnit_goes (hx : (d.ch i).desc = some x) (hvol : d.volHolds x.vol (x.src + x.progress) 4096 = true) (hvst : x.vst = 2)
    (hwrite : d.writeVa (chWho i x) (x.dst + x.progress) (leBytes 4096 x.vdata) = .ok () d1) : d.volReadUnit i x = .go 4096 (d1.setVst i 0) := by
  refine (if_neg (by simp [hvol])).trans ?_
  simp only [hvst, OfNat.ofNat_ne_zero, if_false, hx, if_true, hwrite]

theorem Dev.dmaUnit_volWrite (hop : x.op = 6) : d.dmaUnit i x grant data = d.volWriteUnit i x := by simp only [Dev.dmaUnit, hop]

theorem Dev.volWriteUnit_beyond (hvol : d.volHolds x.vol (x.dst + x.progress) 4096 = false) : d.volWriteUnit i x = .stop (d.dmaFinish i stVolErr) :=
  if_pos (.inl (by simp [hvol]))

/-- A block that the cache has placed is done. -/
theorem Dev.volWriteUnit_goes (hvol : d.volHolds x.vol (x.dst + x.progress) 4096 = true) (hst : vState (d.vol x.vol) ≠ 3) (hvst : x.vst = 2) :
    d.volWriteUnit i x = .go 4096 (d.setVst i 0) :=
  (if_neg (by simp [hvol, hst])).trans ((if_neg (by simp [hvst])).trans (if_pos hvst))

end Units

/-! ### The end of a descriptor, faults and resumes (R218, R219, R226, R267) -/

section Ends
variable {d : Dev} {i : Nat} {x : Desc} (hx : (d.ch i).desc = some x)
include hx

theorem Dev.dmaComplete_done (hlen : x.len ≤ x.progress) (hst : x.status = stRunning) : d.dmaComplete i = d.dmaFinish i stDone := by
  simp only [Dev.dmaComplete, hx]
  exact if_pos ⟨hlen, hst⟩

theorem Dev.dmaComplete_early (hlen : x.progress < x.len) : d.dmaComplete i = d := by
  simp only [Dev.dmaComplete, hx]
  exact if_neg fun h => absurd h.1 (by omega)

theorem Dev.dmaFaultEnd_idle (hst : x.status ≠ stSuspFault) : d.dmaFaultEnd i = d := by
  simp only [Dev.dmaFaultEnd, hx]
  exact if_neg fun h => hst h.1

theorem Dev.dmaResume_idle (hst : x.status ≠ stSuspFault) : d.dmaResume i = d := by
  simp only [Dev.dmaResume, hx]
  exact if_pos (.inl hst)

section Suspended
variable (hst : x.status = stSuspFault) (hkind : (d.ch i).fault.kind = 1)
include hst hkind

theorem Dev.dmaFaultEnd_ends : d.dmaFaultEnd i = (d.incU (chUnit i) oFatalTranslationFaults).dmaFinish i stTransErr := by
  simp only [Dev.dmaFaultEnd, hx]
  exact if_pos ⟨hst, hkind⟩

/-- A fault that firmware needs no page for is corrected, and the channel goes on. -/
theorem Dev.dmaResume_goes (h2 : (d.ch i).fault.detail % 16 ≠ 2) (h3 : (d.ch i).fault.detail % 16 ≠ 3) : d.dmaResume i =
    (d.setCh i { desc := some { x with status := stRunning }, fault := { (d.ch i).fault with kind := 0 } }).tlbInvalidate
      (asidOf x.inst x.ctx) false (d.ch i).fault.addr := by
  simp [Dev.dmaResume, hx, hst, hkind, h2, h3]

variable (hreason : (d.ch i).fault.detail % 16 = 2 ∨ (d.ch i).fault.detail % 16 = 3) (hctx : x.ctx < 1024) {f : Dev}
include hreason hctx

theorem Dev.dmaResume_waits (hfix : d.fwResolve x.ctx (d.ch i).fault.addr = .wait f) : d.dmaResume i = f := by
  simp [Dev.dmaResume, hx, hst, hkind, hreason, hctx, hfix]

theorem Dev.dmaResume_lost (hfix : d.fwResolve x.ctx (d.ch i).fault.addr = .lost f) :
    d.dmaResume i = (f.incU (chUnit i) oFatalTranslationFaults).endCtx x.ctx 0x03 0x08 (d.ch i).fault.addr 0 := by
  simp [Dev.dmaResume, hx, hst, hkind, hreason, hctx, hfix]

end Suspended

end Ends

/-! ### Page requests (R221) -/

theorem Dev.pageResponse_unknown {d : Dev} (h : d.mem.preqs = []) (prg : Nat) (ok : Bool) : d.pageResponse prg ok = d := by simp [Dev.pageResponse, h]

theorem Dev.pageTimeout_unknown {d : Dev} (h : d.mem.preqs = []) (prg : Nat) : d.pageTimeout prg = d := by simp [Dev.pageTimeout, h]

section OneRequest
variable {d : Dev} {r : PageReq} (hreq : d.mem.preqs = [r])
include hreq

theorem Dev.dropReq_last : (d.dropReq r.prg).mem.preqs = [] := by simp [hreq]

variable {x : Desc} (hx : (d.ch r.chan).desc = some x)
include hx

section OldGeneration
variable (hgen : x.gen ≠ d.instGen x.inst)
include hgen

theorem Dev.pageResponse_old (ok : Bool) : d.pageResponse r.prg ok = d.dropReq r.prg := by
  have hx' : ((d.dropReq r.prg).ch r.chan).desc = some x := hx
  have hgen' : x.gen ≠ (d.dropReq r.prg).instGen x.inst := hgen
  simp [Dev.pageResponse, hreq, hx', hgen']

theorem Dev.pageTimeout_old : d.pageTimeout r.prg = d.dropReq r.prg := by
  have hx' : ((d.dropReq r.prg).ch r.chan).desc = some x := hx
  have hgen' : x.gen ≠ (d.dropReq r.prg).instGen x.inst := hgen
  simp [Dev.pageTimeout, hreq, hx', hgen']

end OldGeneration

section Waits
variable (hst : x.status = stSuspFault) (hkind : (d.ch r.chan).fault.kind = 2) (hprg : (d.ch r.chan).fault.prg = r.prg) (hgen : x.gen = d.instGen x.inst)
include hst hkind hprg hgen

theorem Dev.pageResponse_current (ok : Bool) : d.pageResponse r.prg ok = if ok then (d.dropReq r.prg).setCh r.chan
    { desc := some { x with status := stRunning }, fault := { (d.ch r.chan).fault with kind := 0 } } else (d.dropReq r.prg).hostDenied r.chan := by
  have hch : (d.dropReq r.prg).ch r.chan = d.ch r.chan := rfl
  have hgen' : x.gen = (d.dropReq r.prg).instGen x.inst := hgen
  simp [Dev.pageResponse, hreq, hch, hx, hst, hkind, hprg, ← hgen']

theorem Dev.pageTimeout_current : d.pageTimeout r.prg = (d.dropReq r.prg).hostDenied r.chan := by
  have hch : (d.dropReq r.prg).ch r.chan = d.ch r.chan := rfl
  have hgen' : x.gen = (d.dropReq r.prg).instGen x.inst := hgen
  simp [Dev.pageTimeout, hreq, hch, hx, hst, hkind, hprg, ← hgen']

end Waits

end OneRequest

/-! ### Invalidations (R212) -/

/-- What a store of lists reads, once each list has been filtered, satisfies the filter. -/
theorem mem_storeGet_mapV_filter {V : Type} [DecidableEq V] {p : V → Bool} {m : List (Nat × List V)} {k : Nat} {x : V}
    (hx : x ∈ storeGet (fun _ => []) (storeMapV (fun _ => []) (fun _ l => l.filter p) m) k) : p x = true := by
  induction m with
  | nil => simp [storeMapV, storeGet] at hx
  | cons e m ih =>
    obtain ⟨a, l⟩ := e
    by_cases hnil : l.filter p = []
    · exact ih (by simpa [storeMapV, hnil] using hx)
    · by_cases hak : a = k
      · have hmem : x ∈ l.filter p := by simpa [storeMapV, storeGet, hnil, hak] using hx
        exact (List.mem_filter.1 hmem).2
      · exact ih (by simpa [storeMapV, storeGet, hnil, hak] using hx)

theorem Dev.tlbInvalidate_drops (d : Dev) (asid va u : Nat) (host : Bool) {x : TlbEntry} (hx : x ∈ (d.tlbInvalidate asid host va).tlbOf u) :
    ¬ (x.host = host ∧ (if host then x.asid / 1024 = asid / 1024 else x.asid = asid) ∧ x.va ≤ va ∧ va < x.va + x.size) := by
  simp only [Dev.tlbOf, Dev.tlbInvalidate] at hx
  split at hx
  · have hkept := mem_storeGet_mapV_filter hx
    exact of_decide_eq_true hkept
  · split at hx
    · have hkept := mem_storeGet_mapV_filter hx
      exact of_decide_eq_true hkept
    · exact absurd hx List.not_mem_nil

end Sys2Proof.Machine
end

section
open Sys2Proof Sys2Proof.Machine

/-- Settles O54: each row by what it does to a free, a queued and a running channel, each unit by its lemma, and each end of a suspension by its own. -/
theorem dmaChannelsRunTheirDescriptors : Obligations.DmaChannelsRunTheirDescriptors := by
  unfold Obligations.DmaChannelsRunTheirDescriptors
  rintro s _ hp rfl
  refine ⟨fun i q op n raw grant data c hi hq hc => ?rows, fun i x hi hx => ⟨fun hlen hst => ?done, fun hlen => ?early,
    fun hst hkind => ⟨?faultEnd, fun h2 h3 => ?resumes, fun hreason hctx f => ⟨fun hfix => ?waits, fun hfix => ?lost⟩⟩, fun hst => ?notSuspended,
    fun r hreq hchan hst hkind hprg => ?request⟩, fun prg hnone => ?unknown, fun asid va host => ?invalidate⟩
  case rows =>
    obtain ⟨g, l, hgrant, hdata, hexec⟩ := IsDmaRow.exec_eq hc hi hq
    refine ⟨fun hfree hruns hquiet hn => ⟨fun htake => ?nothing, fun r f x e htake hop hx he => ?takes⟩, fun x hx hop hst hruns hn => ?starts,
      fun x hx hop => ?otherOp, fun x hx hop hidle => ?idle, fun x hx hop hst hruns hgen hn w t u k hw hu ht hk => ?unit⟩
    case nothing => rw [hexec s hp, Dev.dmaRow_nothing hfree hruns hquiet htake]
    case takes =>
      subst hn hx he
      rw [hexec s hp, Dev.dmaRow_takes hfree hruns hquiet hi htake hop]
      exact ⟨fun hq hloc hgone => by rw [Dev.dmaTake_gone hq hloc hgone], fun hlive => ⟨fun hbad => by rw [Dev.dmaTake_invalid hlive hbad],
        fun hok hlen => by rw [Dev.dmaTake_empty hlive hok hlen], fun hok hlen => by rw [Dev.dmaTake_queued hlive hok hlen]⟩⟩
    case starts =>
      have hrunning := hexec { s with dev := s.dev.setDesc i { x with status := stRunning } } hp
      rw [hexec s hp, Dev.dmaRow_starts hx hst hruns hop hn]
      exact hrunning.symm
    case otherOp => rw [hexec s hp, Dev.dmaRow_otherOp hx hop]
    case idle => rw [hexec s hp, Dev.dmaRow_idle hx hidle]
    case unit =>
      subst hn hop hw hu ht
      obtain rfl : k = x.unitBytes := hk
      have hrun : exec c s = .next (s.leaves (unitEnds i x (s.dev.dmaUnit i x g l))) := by rw [hexec s hp, Dev.dmaRow_one hx rfl hst hruns hgen]
      refine ⟨fun hop => ?copy, fun hop _ hl => ?fill, fun hop => ?hostRead, fun hop b d1 hread => ?hostWrite, fun hop => ?volRead, fun hop => ?volWrite⟩
      case copy =>
        rw [hrun, Dev.dmaUnit_copy hop]
        refine ⟨fun b d1 d2 y hread hwrite hy => ?_, fun a v d1 hread => ?_, fun d1 hread => ?_⟩
        · rw [Dev.copyUnit_goes hop hread hwrite, unitEnds_go hy]
        · rw [Dev.copyUnit_faults hop hread, unitEnds]
        · rw [Dev.copyUnit_poisoned hop hread, unitEnds]
      case fill =>
        obtain rfl := hl
        rw [hrun, Dev.dmaUnit_fill hop]
        refine ⟨fun d2 y hwrite hy => ?_, fun a v d1 hwrite => ?_⟩
        · rw [Dev.fillUnit_goes hop hwrite, unitEnds_go hy]
        · rw [Dev.fillUnit_faults hop hwrite, unitEnds]
      case hostRead =>
        obtain rfl := hgrant (.inl hop)
        obtain rfl := hdata hop
        rw [hrun, Dev.dmaUnit_hostRead hop]
        refine ⟨fun hxlat => ?_, fun d1 d2 y hxlat hwrite hy => ?_⟩
        · rw [Dev.hostReadUnit_asks hxlat, unitEnds]
        · rw [Dev.hostReadUnit_goes hop hxlat hwrite, unitEnds_go hy]
      case hostWrite =>
        obtain rfl := hgrant (.inr hop)
        rw [hrun, Dev.dmaUnit_hostWrite hop]
        refine ⟨fun hxlat => ?_, fun d2 y hxlat hy => ?_⟩
        · rw [Dev.hostWriteUnit_asks hop hread hxlat, unitEnds]
        · rw [Dev.hostWriteUnit_goes hop hread hxlat, unitEnds_go hy]
      case volRead =>
        rw [hrun, Dev.dmaUnit_volRead hop]
        refine ⟨fun hvol => ?_, fun hvol hvst d1 y hwrite hy => ?_⟩
        · rw [Dev.volReadUnit_beyond hvol, unitEnds]
        · rw [Dev.volReadUnit_goes hx hvol hvst hwrite, unitEnds_go hy]
      case volWrite =>
        rw [Dev.dmaUnit_volWrite hop] at hrun
        refine ⟨fun hvol => ?_, fun hvol hvst hdone => ⟨_, hrun, ?_⟩⟩
        · rw [hrun, Dev.volWriteUnit_beyond hvol, unitEnds]
        · rw [Dev.volWriteUnit_goes hvol hvst hdone, unitEnds_go (Dev.desc_setVst 0 hx)]
          exact ⟨_, congrArg Channel.desc (Dev.ch_setDesc_same ..), rfl, rfl⟩
  case done => rw [exec_dmaDescriptorComplete hp hi, Dev.dmaComplete_done hx hlen hst]
  case early => rw [exec_dmaDescriptorComplete hp hi, Dev.dmaComplete_early hx hlen]
  case faultEnd => rw [exec_dmaFaultEnd hp hi, Dev.dmaFaultEnd_ends hx hst hkind]
  case resumes => exact ⟨_, exec_dmaChannelResume hp hi, by simp [Dev.dmaResume_goes hx hst hkind h2 h3]⟩
  case waits => rw [exec_dmaChannelResume hp hi, Dev.dmaResume_waits hx hst hkind hreason hctx hfix]
  case lost => rw [exec_dmaChannelResume hp hi, Dev.dmaResume_lost hx hst hkind hreason hctx hfix]
  case notSuspended =>
    rw [exec_dmaFaultEnd hp hi, exec_dmaChannelResume hp hi, Dev.dmaFaultEnd_idle hx hst, Dev.dmaResume_idle hx hst]
    exact ⟨rfl, rfl⟩
  case request =>
    subst hchan
    refine ⟨fun hgen c hc => ?old, fun hgen => ?granted, fun hgen => ?denied⟩
    case old =>
      have hleft : ((s.dev.dropReq r.prg).ch r.chan).desc = some x ∧ (s.dev.dropReq r.prg).mem.preqs = [] := ⟨hx, Dev.dropReq_last hreq⟩
      rcases hc with rfl | ⟨ok, rfl⟩
      · exact ⟨_, exec_hostPageTimeout hp r.prg, by rwa [Dev.pageTimeout_old hreq hx hgen]⟩
      · exact ⟨_, exec_pageResponseReceive hp r.prg ok, by rwa [Dev.pageResponse_old hreq hx hgen]⟩
    case granted => exact ⟨_, exec_pageResponseReceive hp r.prg true, by simp [Dev.pageResponse_current hreq hx hst hkind hprg hgen, hreq]⟩
    case denied =>
      refine ⟨s.dev.dropReq r.prg, Dev.dropReq_last hreq, ?_, ?_⟩
      · rw [exec_pageResponseReceive hp, Dev.pageResponse_current hreq hx hst hkind hprg hgen, if_neg Bool.false_ne_true]
      · rw [exec_hostPageTimeout hp, Dev.pageTimeout_current hreq hx hst hkind hprg hgen]
  case unknown =>
    exact ⟨fun ok => by rw [exec_pageResponseReceive hp, Dev.pageResponse_unknown hnone], by rw [exec_hostPageTimeout hp, Dev.pageTimeout_unknown hnone]⟩
  case invalidate => exact ⟨_, exec_tlbInvalidate hp asid host va, fun u x hx => s.dev.tlbInvalidate_drops asid va u host hx⟩

end

section
/-! PROOFS. The offload engines (10_offload_engines.md): what a row of an engine operation does to a free and to a held job slot, the end of a job, its
faults, and the key slots of the crypto engines. -/
namespace Sys2Proof.Machine
open Sys2Proof

/-! ### The commands, at a powered device -/

/-- Command `c` is the row of engine operation `op` (Table 10.4), of slot `i` and queue `q`, with entry `raw`, for at most `n` units. -/
def IsEngineRow (i q op n : Nat) (raw : BitVec 1024) (c : Instr) : Prop :=
  (op, c) ∈ ([(0x10, .deflateCompress i q raw n), (0x11, .deflateDecompress i q raw n), (0x12, .zstandardCompress i q raw n), (0x13, .zstandardDecompress i q raw n),
    (0x14, .lz4Compress i q raw n), (0x15, .lz4Decompress i q raw n), (0x20, .scanRow i q raw n), (0x21, .scanColumn i q raw n), (0x30, .hashProbe i q raw n),
    (0x31, .bloomTest i q raw n), (0x32, .runSearch i q raw n), (0x40, .xtsEncrypt i q raw n), (0x41, .xtsDecrypt i q raw n), (0x42, .sha256 i q raw n),
    (0x43, .sha384 i q raw n), (0x44, .rsEncode i q raw n), (0x45, .rsReconstruct i q raw n)] : List (Nat × Instr))

section Commands
variable {s : State} (h : s.Powered)
include h

/-- Every row is `Dev.jobRow` of its Op. -/
theorem exec_engineRow {i q op n : Nat} {raw : BitVec 1024} {c : Instr} (hi : i < 320) (hq : q < 65536) (hc : IsEngineRow i q op n raw c) :
    exec c s = .next (s.leaves (s.dev.jobRow op i q raw n)) := by
  simp only [IsEngineRow, List.mem_cons, Prod.mk.injEq, List.not_mem_nil, or_false] at hc
  rcases hc with ⟨rfl, rfl⟩ | ⟨rfl, rfl⟩ | ⟨rfl, rfl⟩ | ⟨rfl, rfl⟩ | ⟨rfl, rfl⟩ | ⟨rfl, rfl⟩ | ⟨rfl, rfl⟩ | ⟨rfl, rfl⟩ | ⟨rfl, rfl⟩ | ⟨rfl, rfl⟩ |
    ⟨rfl, rfl⟩ | ⟨rfl, rfl⟩ | ⟨rfl, rfl⟩ | ⟨rfl, rfl⟩ | ⟨rfl, rfl⟩ | ⟨rfl, rfl⟩ | ⟨rfl, rfl⟩
  all_goals exact act_if _ s (Dev.jobRow · _ i q raw n) h (by simp [hi, hq])

theorem exec_keySlotLoad {q : Nat} (hq : q < 4) (v : BitVec 576) :
    exec (.keySlotLoad (uEng q 8) v) s = .next (s.leaves (s.dev.mgrWrite (uEng q 8) oKeySlotLoad v.toNat)) :=
  act_if _ s (Dev.mgrWrite · (uEng q 8) oKeySlotLoad v.toNat) h (decide_eq_true (by unfold uEng; omega))

variable {i : Nat} (hi : i < 320)
include hi

theorem exec_engineJobComplete : exec (.engineJobComplete i) s = .next (s.leaves (s.dev.engineComplete i)) :=
  act_if _ s (Dev.engineComplete · i) h (by simpa using hi)

/-- From 1,024 on, DMA_FAULT_END is that of a job slot. -/
theorem exec_jobFaultEnd : exec (.dmaFaultEnd (1024 + i)) s = .next (s.leaves (s.dev.jobFaultEnd i)) := by
  have hact : s.dev.activityFaultEnd (1024 + i) = s.dev.jobFaultEnd i := by
    rw [Dev.activityFaultEnd, if_neg (by omega), Nat.add_sub_cancel_left]
  rw [← hact]
  exact act_if _ s (Dev.activityFaultEnd · (1024 + i)) h (decide_eq_true (by omega))

/-- From 1,024 on, DMA_CHANNEL_RESUME is that of a job slot. -/
theorem exec_jobResume : exec (.dmaChannelResume (1024 + i)) s = .next (s.leaves (s.dev.jobResume i)) := by
  have hact : s.dev.activityResume (1024 + i) = s.dev.jobResume i := by
    rw [Dev.activityResume, if_neg (by omega), Nat.add_sub_cancel_left]
  rw [← hact]
  exact act_if _ s (Dev.activityResume · (1024 + i)) h (decide_eq_true (by omega))

end Commands

/-! ### A free slot takes a job (R231, R234, R249) -/

/-- The device `d` once its slot `i` has taken job `x`, with a free choice of its own for what the job's format leaves open. -/
def Dev.holdJob (d : Dev) (i : Nat) (x : Job) : Dev :=
  ({ d with free := d.free + 1 }).setSlot i { job := some { x with status := stRunning }, kind := 1, crc := 0xFFFFFFFF, pick := d.free }

/-- A SHA job's last part has a digest to give even when it is empty (R243). -/
def Job.lastPart (x : Job) : Prop := (x.op = 0x42 ∨ x.op = 0x43) ∧ bit (x.p 0x53 1) 1

/-- The job of an entry has the Op of the entry's first byte (Table 10.2). -/
theorem Dev.jobOf_op (d : Dev) (q r : Nat) : (d.jobOf q (BitVec.ofNat 1024 r)).op = byteOf r 0 := by
  simp only [Dev.jobOf, ent, fieldOf, byteOf, BitVec.toNat_ofNat, pow_zero, Nat.div_one, pow_one]
  omega

section Take
variable {d : Dev} {i q : Nat} {raw : BitVec 1024}

/-- The context that submitted the job from its ring has ended. -/
theorem Dev.jobTake_gone (hq : q ≠ 0xFFFF) (hloc : qLoc (d.q q) = 1) (hgone : d.ctxGone (d.jobOf q raw).ctx = true) :
    d.jobTake i q raw = (d.holdJob i (d.jobOf q raw)).jobFinish i stAborted := if_pos ⟨hq, hloc, hgone⟩

section Lives
variable (hlive : q = 0xFFFF ∨ qLoc (d.q q) ≠ 1 ∨ d.ctxGone (d.jobOf q raw).ctx = false)
include hlive

theorem Dev.jobTake_lives : d.jobTake i q raw =
    if (d.holdJob i (d.jobOf q raw)).jobInvalid i (d.jobOf q raw) then (d.holdJob i (d.jobOf q raw)).jobFinish i stInvalid
    else if (d.jobOf q raw).srcLen = 0 ∧ ¬ (((d.jobOf q raw).op = 0x42 ∨ (d.jobOf q raw).op = 0x43) ∧ bit ((d.jobOf q raw).p 0x53 1) 1)
      then (d.holdJob i (d.jobOf q raw)).jobFinish i stDone
    else d.holdJob i (d.jobOf q raw) := by
  refine if_neg fun ⟨hq, hloc, hgone⟩ => ?_
  rcases hlive with h | h | h
  · exact hq h
  · exact h hloc
  · exact Bool.false_ne_true (h.symm.trans hgone)

theorem Dev.jobTake_invalid (hbad : (d.holdJob i (d.jobOf q raw)).jobInvalid i (d.jobOf q raw) = true) :
    d.jobTake i q raw = (d.holdJob i (d.jobOf q raw)).jobFinish i stInvalid := by rw [Dev.jobTake_lives hlive, if_pos hbad]

section Valid
variable (hok : (d.holdJob i (d.jobOf q raw)).jobInvalid i (d.jobOf q raw) = false)
include hok

theorem Dev.jobTake_empty (hlen : (d.jobOf q raw).srcLen = 0) (hlast : ¬ (d.jobOf q raw).lastPart) :
    d.jobTake i q raw = (d.holdJob i (d.jobOf q raw)).jobFinish i stDone := by
  rw [Dev.jobTake_lives hlive, if_neg (by simp [hok]), if_pos ⟨hlen, hlast⟩]

theorem Dev.jobTake_runs (hwork : (d.jobOf q raw).srcLen ≠ 0 ∨ (d.jobOf q raw).lastPart) : d.jobTake i q raw = d.holdJob i (d.jobOf q raw) := by
  rw [Dev.jobTake_lives hlive, if_neg (by simp [hok]), if_neg fun ⟨hlen, hlast⟩ => hwork.elim (· hlen) hlast]

end Valid

end Lives

variable {op : Nat} (hfree : (d.slot i).job = none) (hruns : d.unitRuns (slotUnit i) = true) (hquiet : d.quiet = false)
include hfree hruns hquiet

theorem Dev.jobRow_nothing {n : Nat} (htake : d.takeEntry (slotUnit i) q raw.toNat = none) : d.jobRow op i q raw n = d := by
  simp [Dev.jobRow, hfree, hruns, hquiet, htake]

/-- A row that runs no unit takes a job of its own Op and does no more. -/
theorem Dev.jobRow_takes {r : Nat} {f : Dev} (hi : i < 320) (htake : d.takeEntry (slotUnit i) q raw.toNat = some (r, f)) (hop : byteOf r 0 = op) :
    d.jobRow op i q raw 0 = f.jobTake i q (BitVec.ofNat 1024 r) := by
  simp only [Dev.jobRow, hfree, hruns, hquiet, htake, hop, hi, Option.isNone_none, Bool.false_eq_true, not_false_eq_true, and_self, true_or, if_true,
    Dev.jobRun, ite_self]
  split <;> rfl

end Take

/-! ### A slot that holds a job (R231, R236, R239) -/

/-- The device after a unit of job `x` at slot `i`: the unit's work is applied, or it faults, meets Poison, or waits. -/
def jobUnitEnds (i : Nat) (x : Job) : Got Work → Dev
  | .ok w d => d.jobApply i x w
  | .fault a v d => d.jobFault i a v
  | .poison d => d.jobFinish i stPoisoned
  | .wait d => d

section Held
variable {d : Dev} {i q op n : Nat} {raw : BitVec 1024} {x : Job} (hx : (d.slot i).job = some x)
include hx

theorem Dev.jobRow_held : d.jobRow op i q raw n = if x.op = op ∧ d.slotTurn i x.cls then Dev.jobRun i n d else d := by
  simp [Dev.jobRow, hx]

theorem Dev.jobRun_idle (h : x.status ≠ stRunning ∨ d.unitRuns (slotUnit i) = false ∨ x.gen ≠ d.instGen x.inst) : Dev.jobRun i n d = d := by
  cases n with
  | zero => rfl
  | succ n =>
    simp only [Dev.jobRun, hx]
    refine if_pos ?_
    rcases h with h | h | h
    · exact .inl h
    · exact .inr (.inl (by simp [h]))
    · exact .inr (.inr (.inl h))

/-- A row leaves alone a slot whose job is of another Op, whose job cannot run, or whose turn it is not. -/
theorem Dev.jobRow_idle (h : x.op ≠ op ∨ x.status ≠ stRunning ∨ d.unitRuns (slotUnit i) = false ∨ x.gen ≠ d.instGen x.inst ∨ d.slotTurn i x.cls = false) :
    d.jobRow op i q raw n = d := by
  rw [Dev.jobRow_held hx]
  split
  case isFalse => rfl
  case isTrue hgo =>
    refine Dev.jobRun_idle hx ?_
    rcases h with h | h | h | h | h
    · exact absurd hgo.1 h
    · exact .inl h
    · exact .inr (.inl h)
    · exact .inr (.inr h)
    · exact absurd (h.symm.trans hgo.2) Bool.false_ne_true

variable (hst : x.status = stRunning) (hruns : d.unitRuns (slotUnit i) = true) (hgen : x.gen = d.instGen x.inst) (hvst : x.vst = 0)
  (hsrc : x.srcVol = false) (hdst : x.dstVol = false) (hfin : (d.slot i).fin = false)
include hst hruns hgen hvst hsrc hdst hfin

/-- A job of memory alone, with work to do, does one unit of it. -/
theorem Dev.jobRun_one : Dev.jobRun i 1 d = jobUnitEnds i x (d.jobUnit i (d.slot i) x) := by
  have hgo : ¬ (x.status ≠ stRunning ∨ ¬ d.unitRuns (slotUnit i) = true ∨ x.gen ≠ d.instGen x.inst ∨ x.vst = 1) := by
    simp [hst, hruns, hgen, hvst]
  simp only [Dev.jobRun, hx]
  rw [if_neg hgo]
  simp only [hvst, hsrc, hdst, hfin, OfNat.zero_ne_ofNat, if_false, Bool.false_eq_true, or_self, false_and]
  cases d.jobUnit i (d.slot i) x <;> rfl

theorem Dev.jobRow_one (hop : x.op = op) (hturn : d.slotTurn i x.cls = true) :
    d.jobRow op i q raw 1 = jobUnitEnds i x (d.jobUnit i (d.slot i) x) := by
  rw [Dev.jobRow_held hx, if_pos ⟨hop, hturn⟩, Dev.jobRun_one hx hst hruns hgen hvst hsrc hdst hfin]

end Held

/-- What a data unit of XTS gives: the bytes of the cipher under the keys of slot `k`, tweaked by the unit's number (R242). -/
def xtsWork (s : JobSlot) (x : Job) (k : KeySlot) (l : List Byte) : Work :=
  { s := { s with fin := decide (x.srcLen ≤ x.inProg + 2 ^ x.p 0x52 1) }
    x := { x with inProg := x.inProg + 2 ^ x.p 0x52 1, outProg := x.outProg + 2 ^ x.p 0x52 1 }
    out := xts (x.op = 0x41) (leBytes 32 k.k1) (leBytes 32 k.k2) ((x.p 0x58 16 + x.inProg / 2 ^ x.p 0x52 1) % 2 ^ 128) l }

theorem Dev.jobUnit_xts {d d1 : Dev} {i : Nat} {x : Job} {l : List Byte} (hop : x.op = 0x40 ∨ x.op = 0x41) (hsrc : x.srcVol = false)
    (hread : d.readVa (slotWho i x) (x.src + x.inProg) (2 ^ x.p 0x52 1) = .ok l d1) (s : JobSlot) :
    d.jobUnit i s x = .ok (xtsWork s x (storeGet noKey d.eng.keys (256 * (i / 80) + x.p 0x50 2)) l) d1 := by
  have hunit : d.jobUnit i s x = d.xtsUnit i s x := by
    rw [Dev.jobUnit, if_neg (by omega), if_neg (by omega), if_neg (by omega), if_pos (by omega)]
  have hbytes : d.srcRead i x x.inProg (2 ^ x.p 0x52 1) = .ok l d1 := by
    rw [Dev.srcRead, if_pos (by simp [hsrc]), hread]
  rw [hunit, Dev.xtsUnit]
  simp only [hbytes]
  rfl

/-! ### The end of a job, and of its fault (R219, R235, R249) -/

section Ends
variable {d : Dev} {i : Nat} {x : Job} (hx : (d.slot i).job = some x)
include hx

theorem Dev.engineComplete_early (hfin : (d.slot i).fin = false) : d.engineComplete i = d := by
  simp only [Dev.engineComplete, hx]
  exact if_neg (by simp [hfin])

/-- A job that is done posts its record; the result of a stream is the CRC of its bytes. -/
theorem Dev.engineComplete_done (hfin : (d.slot i).fin = true) (hvst : x.vst = 0) (hout : (d.slot i).outBuf = []) (hst : x.status = stRunning)
    (hruns : d.unitRuns (slotUnit i) = true) : d.engineComplete i =
      (if x.op < 0x20 then d.setSlot i { d.slot i with result := (d.slot i).crc ^^^ 0xFFFFFFFF } else d).jobFinish i (d.slot i).fst := by
  simp only [Dev.engineComplete, hx]
  exact if_pos ⟨hfin, hvst, by simp [hout], hst, hruns⟩

variable (hst : x.status = stSuspFault)
include hst

theorem Dev.jobFaultEnd_ends : d.jobFaultEnd i = (d.incU (slotUnit i) oFatalTranslationFaults).jobFinish i stTransErr := by
  simp only [Dev.jobFaultEnd, hx]
  exact if_pos hst

/-- A fault that firmware needs no page for is corrected, and the slot goes on. -/
theorem Dev.jobResume_goes (hkind : (d.slot i).fault.kind = 1) (h2 : (d.slot i).fault.detail % 16 ≠ 2) (h3 : (d.slot i).fault.detail % 16 ≠ 3) :
    d.jobResume i = (d.setSlot i { d.slot i with job := some { x with status := stRunning }, fault := { (d.slot i).fault with kind := 0 } }).tlbInvalidate
      (asidOf x.inst x.ctx) false (d.slot i).fault.addr := by
  simp [Dev.jobResume, hx, hst, hkind, h2, h3]

end Ends

@[simp] theorem Dev.slot_setSlot_same (d : Dev) (i : Nat) (x : JobSlot) : (d.setSlot i x).slot i = x := by simp [Dev.slot_setSlot]

@[simp] theorem Dev.tlbInvalidate_slot (d : Dev) (asid va i : Nat) (host : Bool) : (d.tlbInvalidate asid host va).slot i = d.slot i := rfl

/-! ### Key slots (R245) -/

/-- The row of KeySlotLoad. -/
def keySlotLoadRow : ObjRow := ⟨oKeySlotLoad, 10, 72, 1, 1, 2, 2, 0, 0, false, 9, none, false⟩

theorem kindOf_crypto {q : Nat} (hq : q < 4) : kindOf (uEng q 8) = 0x08 := by interval_cases q <;> rfl

/-- Crypto engine `q` is engine 5q + 4. -/
theorem engNo_crypto (q : Nat) : engNo (uEng q 8) = 5 * q + 4 := by unfold engNo uEng; omega

/-- A value written to KeySlotLoad at a crypto engine passes. -/
theorem Dev.keySlotLoad_passes (d : Dev) {q : Nat} (hq : q < 4) (v : Nat) : d.Passes keySlotLoadRow (uEng q 8) oKeySlotLoad v where
  isRow := by decide +kernel
  present := by simp [Dev.present, kindOf_crypto hq]
  holds := by simp [Dev.holds, locAt, keySlotLoadRow, kindOf_crypto hq]
  ok := rfl
  pre := rfl
  named := by simp [Dev.namedUnits, isGroup, kindOf_crypto hq]
  notCursor := by decide

/-- What a value written to KeySlotLoad puts into its slot. -/
def keyOf (v : Nat) : KeySlot := if fieldOf v 4 2 = 1 then {} else { owner := fieldOf v 2 2, k1 := fieldOf v 8 32, k2 := fieldOf v 40 32 }

/-- The device once key slot `slot` of quadrant `q` holds `k`. -/
def Dev.setKey (d : Dev) (q slot : Nat) (k : KeySlot) : Dev := { d with eng := { d.eng with keys := storeSet noKey d.eng.keys (256 * q + slot) k } }

section Load
variable {d : Dev} {q v : Nat}

theorem Dev.fxKeySlotLoad_malformed {u : Nat} (h : 255 < fieldOf v 0 2 ∨ 1 < fieldOf v 4 2 ∨ fieldOf v 6 2 ≠ 0 ∨ 4095 < fieldOf v 2 2) :
    d.fxKeySlotLoad u v = badValue d u := if_pos h

section WellFormed
variable (hslot : fieldOf v 0 2 ≤ 255) (hflags : fieldOf v 4 2 ≤ 1) (hzero : fieldOf v 6 2 = 0) (howner : fieldOf v 2 2 ≤ 4095)
include hslot hflags hzero howner

theorem Dev.fxKeySlotLoad_wellFormed (u : Nat) : d.fxKeySlotLoad u v =
    if (List.range 16).any fun j => (d.slot (16 * engNo u + j)).job.any fun x => (x.op = 0x40 ∨ x.op = 0x41) ∧ x.p 0x50 2 = fieldOf v 0 2 then conflict d u
    else okR (d.setKey (engNo u / 5) (fieldOf v 0 2) (keyOf v)) := if_neg (by omega)

theorem Dev.fxKeySlotLoad_busy {u j : Nat} {x : Job} (hj : j < 16) (hx : (d.slot (16 * engNo u + j)).job = some x) (hop : x.op = 0x40 ∨ x.op = 0x41)
    (hnames : x.p 0x50 2 = fieldOf v 0 2) : d.fxKeySlotLoad u v = conflict d u := by
  rw [Dev.fxKeySlotLoad_wellFormed hslot hflags hzero howner]
  exact if_pos (List.any_eq_true.2 ⟨j, List.mem_range.2 hj, by simp [hx, hop, hnames]⟩)

theorem Dev.fxKeySlotLoad_free {u : Nat} (hfree : ∀ j < 16, (d.slot (16 * engNo u + j)).job = none) :
    d.fxKeySlotLoad u v = okR (d.setKey (engNo u / 5) (fieldOf v 0 2) (keyOf v)) := by
  rw [Dev.fxKeySlotLoad_wellFormed hslot hflags hzero howner]
  refine if_neg fun hbusy => ?_
  obtain ⟨j, hj, hjob⟩ := List.any_eq_true.1 hbusy
  simp [hfree j (List.mem_range.1 hj)] at hjob

end WellFormed

section Reach
variable (hq : q < 4) (hs : d.supAway = false) (hc : d.writesClosed = false) (hiso : d.isolated (uEng q 8) = false) (hlock : d.lockedOff (uEng q 8) = false)
  (hon : d.pathOn (uEng q 8) = true)
include hc hiso hlock hon

/-- A write that reaches a crypto engine has the effect of the value. -/
theorem Dev.applyOne_keySlotLoad (sid : Nat) : d.applyOne sid (uEng q 8) oKeySlotLoad v = d.fxKeySlotLoad (uEng q 8) v := by
  have hreach : d.applyOne sid (uEng q 8) oKeySlotLoad v = d.reach (uEng q 8) (Dev.fxKeySlotLoad · (uEng q 8) v) := rfl
  have hhalt : d.halted = false := (Bool.or_eq_false_iff.1 hc).2
  rw [hreach, Dev.reach, if_neg (by simp [hiso, hhalt]), if_neg (by simp [hlock]), if_pos hon]

include hq hs

theorem Dev.keySlotLoad_refused (hp : d.aon.auxUp = true) {st : Nat} (hst : st ≠ 0)
    (hfx : d.fxKeySlotLoad (uEng q 8) v = { st := st, unit := uEng q 8, d := d }) :
    d.mgrWrite (uEng q 8) oKeySlotLoad v = d.refuses st (uEng q 8) :=
  (d.keySlotLoad_passes hq v).refused hs hc hp hst ((Dev.applyOne_keySlotLoad hc hiso hlock hon 0xFF).trans hfx)

theorem Dev.keySlotLoad_accepted {f : Dev} (hfx : d.fxKeySlotLoad (uEng q 8) v = okR f) :
    d.mgrWrite (uEng q 8) oKeySlotLoad v = f.accepts oKeySlotLoad :=
  (d.keySlotLoad_passes hq v).accepted hs hc ((Dev.applyOne_keySlotLoad hc hiso hlock hon 0xFF).trans hfx)

end Reach

end Load

/-- The count of changes and the answer touch no engine. -/
theorem Dev.accepts_eng (f : Dev) (o : Nat) : (f.accepts o).eng = f.eng := by
  rw [Dev.accepts]
  split <;> rfl

end Sys2Proof.Machine
end

section
open Sys2Proof Sys2Proof.Machine

/-- Settles O55: each row by what it does to a free and to a held slot, each unit by its end, and each key slot by the value written. -/
theorem engineJobsRunAndComplete : Obligations.EngineJobsRunAndComplete := by
  unfold Obligations.EngineJobsRunAndComplete
  rintro s _ hp rfl
  refine ⟨fun i q op n raw c hi hq hc => ?rows, fun i x hi hx => ⟨fun hfin hvst hout hst hruns => ?done, fun hfin => ?early, fun hst => ?suspended⟩,
    fun ht q slot v hq hslot hiso hlock hon => ?keys⟩
  case rows =>
    have hexec := exec_engineRow hp hi hq hc
    refine ⟨fun hfree hruns hquiet hn => ⟨fun htake => ?nothing, fun r f x e htake hop hx he => ?takes⟩, fun x hx hidle => ?idle,
      fun x hx hop hst hruns hgen hturn hvst hsrc hdst hfin hn => ?unit⟩
    case nothing => rw [hexec, Dev.jobRow_nothing hfree hruns hquiet htake]
    case takes =>
      obtain rfl : x.op = op := by rw [hx, Dev.jobOf_op, hop]
      obtain rfl : e = f.holdJob i x := he
      subst hn hx
      rw [hexec, Dev.jobRow_takes hfree hruns hquiet hi htake hop]
      exact ⟨fun hq hloc hgone => by rw [Dev.jobTake_gone hq hloc hgone], fun hlive => ⟨fun hbad => by rw [Dev.jobTake_invalid hlive hbad],
        fun hok hlen hlast => by rw [Dev.jobTake_empty hlive hok hlen hlast], fun hok hwork => by rw [Dev.jobTake_runs hlive hok hwork]⟩⟩
    case idle => rw [hexec, Dev.jobRow_idle hx hidle]
    case unit =>
      subst hn
      rw [hexec, Dev.jobRow_one hx hst hruns hgen hvst hsrc hdst hfin hop hturn]
      refine ⟨fun w d1 hunit => by rw [hunit, jobUnitEnds], fun a v d1 hunit => by rw [hunit, jobUnitEnds], fun d1 hunit => by rw [hunit, jobUnitEnds],
        fun d1 hunit => by rw [hunit, jobUnitEnds], fun hxts l d1 k hread hk => ?xts⟩
      case xts =>
        subst hop hk
        rw [Dev.jobUnit_xts hxts hsrc hread]
        exact ⟨_, rfl, rfl, rfl⟩
  case done =>
    rw [exec_engineJobComplete hp hi, Dev.engineComplete_done hx hfin hvst hout hst hruns]
    exact ⟨fun hop => by rw [if_neg (by omega)], fun hop => by rw [if_pos hop]⟩
  case early => rw [exec_engineJobComplete hp hi, Dev.engineComplete_early hx hfin]
  case suspended =>
    refine ⟨?_, fun hkind h2 h3 => ⟨_, exec_jobResume hp hi, ?_⟩⟩
    · rw [exec_jobFaultEnd hp hi, Dev.jobFaultEnd_ends hx hst]
    · simp [Dev.jobResume_goes hx hst hkind h2 h3]
  case keys =>
    subst hslot
    rw [exec_keySlotLoad hp hq]
    refine ⟨fun hbad => ?malformed, fun hle hflags hzero howner => ⟨fun ⟨j, hj, x, hx, hop, hnames⟩ => ?busy, fun hfree => ⟨_, exec_keySlotLoad hp hq v, ?loads⟩⟩⟩
    case malformed =>
      rw [Dev.keySlotLoad_refused hq ht.present ht.openNow hiso hlock hon hp (by decide) (Dev.fxKeySlotLoad_malformed hbad)]
    case busy =>
      rw [Dev.keySlotLoad_refused hq ht.present ht.openNow hiso hlock hon hp (by decide)
        (Dev.fxKeySlotLoad_busy hle hflags hzero howner hj hx hop hnames)]
    case loads =>
      have hno : engNo (uEng q 8) / 5 = q := by rw [engNo_crypto]; omega
      rw [Dev.keySlotLoad_accepted hq ht.present ht.openNow hiso hlock hon (Dev.fxKeySlotLoad_free hle hflags hzero howner hfree), hno]
      have hpowered : (s.dev.setKey q (fieldOf v.toNat 0 2) (keyOf v.toNat)).aon.auxUp = true := hp
      refine ⟨(Dev.accepts_result hpowered oKeySlotLoad).1, ?_⟩
      rw [Dev.accepts_eng, Dev.setKey, storeGet_set_same, keyOf]

end

section
/-! PROOFS. Clocks (20_clocks.md), the Tj sensors and the test port (21_electrical_and_package.md). -/
namespace Sys2Proof.Machine
open Sys2Proof

/-! ### The commands, at a powered device -/

section Commands
variable {s : State} (h : s.Powered)
include h

theorem exec_clockLoss {i : Nat} (hi : i ≤ 22) (freq : Nat) : exec (.clockLoss i freq) s = .next (s.leaves (s.dev.clockLoss i freq)) :=
  act_if _ s (Dev.clockLoss · i freq) h (by simpa using hi)

theorem exec_clockRecovered {i : Nat} (hi : i ≤ 22) : exec (.clockRecovered i) s = .next (s.leaves (s.dev.clockRecovered i)) :=
  act_if _ s (Dev.clockRecovered · i) h (by simpa using hi)

theorem exec_xclkHoldoverEnd : exec .xclkHoldoverEnd s = .next (s.leaves s.dev.holdoverEnd) := act_on s Dev.holdoverEnd h

theorem exec_mclkPllRestart {n : Nat} (hn : n < 8) (locked : Bool) :
    exec (.mclkPllRestart n locked) s = .next (s.leaves (s.dev.pllRestart n locked)) :=
  act_if _ s (Dev.pllRestart · n locked) h (by simpa using hn)

theorem exec_thermalSample {i : Nat} (hi : i < 5) (t : Int) : exec (.thermalSample i t) s = .next (s.leaves (s.dev.thermalSample i t)) :=
  act_if _ s (Dev.thermalSample · i t) h (by simpa using hi)

theorem exec_bypass (tdi : List Bool) : exec (.bypass tdi) s = .next (s.leaves (s.dev.jtagBypass tdi)) := act_on s (Dev.jtagBypass · tdi) h

theorem exec_idcode (tdi : List Bool) : exec (.idcode tdi) s = .next (s.leaves (s.dev.jtagIdcode tdi)) := act_on s (Dev.jtagIdcode · tdi) h

theorem exec_samplePreload (pins tdi : List Bool) : exec (.samplePreload pins tdi) s = .next (s.leaves (s.dev.jtagSample pins tdi)) :=
  act_on s (Dev.jtagSample · pins tdi) h

theorem exec_extest (pins tdi : List Bool) : exec (.extest pins tdi) s = .next (s.leaves (s.dev.jtagExtest pins tdi)) :=
  act_on s (Dev.jtagExtest · pins tdi) h

theorem exec_clamp (tdi : List Bool) : exec (.clamp tdi) s = .next (s.leaves (s.dev.jtagHold 4 1 tdi)) := act_on s (Dev.jtagHold · 4 1 tdi) h

theorem exec_highz (tdi : List Bool) : exec (.highz tdi) s = .next (s.leaves (s.dev.jtagHold 5 2 tdi)) := act_on s (Dev.jtagHold · 5 2 tdi) h

end Commands

/-! ### A clock after a write of it -/

theorem Dev.clk_setClk (d : Dev) (i j : Nat) (x : Clock) : (d.setClk i x).clk j = if j = i then x else d.clk j := storeGet_set ..

@[simp] theorem Dev.clk_setClk_same (d : Dev) (i : Nat) (x : Clock) : (d.setClk i x).clk i = x := by simp [Dev.clk_setClk]

/-- The clocks stand in the always-on block. -/
theorem Dev.clk_of_aon {d e : Dev} (h : e.aon = d.aon) (i : Nat) : e.clk i = d.clk i := by rw [Dev.clk, h, Dev.clk]

/-- A field of a number after a write of it. -/
theorem fieldOf_setField_same (n off len v : Nat) : fieldOf (setField n off len v) off len = v % 256 ^ len := by
  refine Nat.eq_of_testBit_eq fun i => ?_
  rw [testBit_fieldOf, testBit_setField, pow256_eq, Nat.testBit_mod_two_pow, Nat.add_sub_cancel_left]
  by_cases hi : i < 8 * len
  · rw [if_pos (by omega)]
  · simp [hi]

/-! ### The count of a clock's losses (R438) -/

/-- One more loss of clock `i` is counted. -/
def Dev.lossCounted (d : Dev) (i : Nat) : Dev :=
  d.s oClockLosses (setField (d.g oClockLosses) (2 * i) 2 (min 65535 (fieldOf (d.g oClockLosses) (2 * i) 2 + 1)))

theorem Dev.lossCounted_field (d : Dev) (i : Nat) :
    fieldOf ((d.lossCounted i).g oClockLosses) (2 * i) 2 = min 65535 (fieldOf (d.g oClockLosses) (2 * i) 2 + 1) := by
  rw [Dev.lossCounted, Dev.g_s_same, fieldOf_setField_same]
  exact Nat.mod_eq_of_lt (by omega)

theorem Dev.lossCounted_vst (d : Dev) (i : Nat) : (d.lossCounted i).vst = d.vst := d.g_s_chip _ (by decide) (by decide) (by decide)

/-! ### A loss (R436 to R439) -/

/-- The flush of a channel's crossings changes no object and nothing of the always-on block. -/
theorem Dev.chanFlush_frame (d : Dev) (n : Nat) : (d.chanFlush n).aon = d.aon ∧ (d.chanFlush n).dict = d.dict :=
  List.foldlRecOn _ _ (motive := fun e : Dev => e.aon = d.aon ∧ e.dict = d.dict) ⟨rfl, rfl⟩ fun _ he _ _ => he

/-- The crossings of the clock of an MCLK flushed, of another clock none. -/
def Dev.crossingsFlushed (d : Dev) (i : Nat) : Dev := if 10 ≤ i ∧ i < 18 then d.chanFlush (i - 10) else d

theorem Dev.crossingsFlushed_frame (d : Dev) (i : Nat) : (d.crossingsFlushed i).aon = d.aon ∧ (d.crossingsFlushed i).dict = d.dict := by
  unfold Dev.crossingsFlushed
  split
  · exact d.chanFlush_frame _
  · exact ⟨rfl, rfl⟩

/-- What clock `i` reads once its detector found it at `freq`: the users of SUPCLK and MONCLK fall back (R438), any other clock is lost. -/
def lostClock (i freq : Nat) : Clock := { st := if i = 19 ∨ i = 20 then 3 else 2, freq := freq % 2 ^ 32 }

section Loss
variable {d : Dev} {i freq : Nat}

theorem Dev.clockLoss_ignored (h : (d.clk i).st ≠ 0 ∨ d.clockMasked i = true) : d.clockLoss i freq = d :=
  if_pos (.inr (h.imp_right .inl))

variable (hst : (d.clk i).st = 0) (hm : d.clockMasked i = false)
include hst hm

/-- The detector of a clock that is neither lost nor masked counts. -/
theorem Dev.clockLoss_due (hi : i ≤ 22) (hsup : i = 19 → (d.clk 20).st = 0) :
    ¬ (22 < i ∨ (d.clk i).st ≠ 0 ∨ d.clockMasked i = true ∨ (i = 19 ∧ (d.clk 20).st ≠ 0)) := by
  rintro (h | h | h | ⟨h19, h⟩)
  · omega
  · exact h hst
  · simp [hm] at h
  · exact h (hsup h19)

/-- The loss of XCLK begins the holdover. -/
theorem Dev.clockLoss_xclk (hi : i = 22) :
    d.clockLoss i freq = (d.setClk i (lostClock i freq)).setAon { (d.setClk i (lostClock i freq)).aon with xclkHold := some d.now } :=
  (if_neg (Dev.clockLoss_due hst hm hi.le fun h => by omega)).trans (if_pos hi)

/-- The loss of another clock is counted and raised. -/
theorem Dev.clockLoss_counts (hi : i < 22) (hsup : i = 19 → (d.clk 20).st = 0) (hpre : ¬ (5 ≤ i ∧ i < 9 ∧ d.vst = 3)) :
    d.clockLoss i freq = (((d.setClk i (lostClock i freq)).lossCounted i).crossingsFlushed i).faultLive (648 + i) := by
  have hvst : ((d.setClk i (lostClock i freq)).lossCounted i).vst = d.vst := Dev.lossCounted_vst ..
  refine (if_neg (Dev.clockLoss_due hst hm hi.le hsup)).trans ((if_neg (by omega)).trans ?_)
  exact congrArg (fun e : Dev => (e.crossingsFlushed i).faultLive (648 + i)) (if_neg fun h => hpre ⟨h.1, h.2.1, hvst ▸ h.2.2⟩)

theorem Dev.clockLoss_result (hi : i < 22) (hsup : i = 19 → (d.clk 20).st = 0) (hpre : ¬ (5 ≤ i ∧ i < 9 ∧ d.vst = 3)) :
    (d.clockLoss i freq).clk i = lostClock i freq ∧ (d.clockLoss i freq).Raised (648 + i) ∧
      fieldOf ((d.clockLoss i freq).g oClockLosses) (2 * i) 2 = min 65535 (fieldOf (d.g oClockLosses) (2 * i) 2 + 1) := by
  rw [Dev.clockLoss_counts hst hm hi hsup hpre]
  obtain ⟨haon, hdict⟩ := ((d.setClk i (lostClock i freq)).lossCounted i).crossingsFlushed_frame i
  refine ⟨(Dev.clk_of_aon haon i).trans (d.clk_setClk_same i _), Dev.faultLive_raised _ _, ?_⟩
  exact (congrArg (fieldOf · (2 * i) 2) (Dev.g_of_dict hdict _)).trans (Dev.lossCounted_field _ i)

end Loss

/-! ### A recovery, the end of the holdover, and the PLLs (R312, R438, R440) -/

section Recovery
variable {d : Dev}

theorem Dev.clockRecovered_ignored {i : Nat} (h : (d.clk i).st = 0 ∨ i = 9 ∨ i = 19 ∨ (10 ≤ i ∧ i < 18)) : d.clockRecovered i = d := if_pos (.inr h)

/-- A recovered clock is good again; with XCLK the holdover ends, with another its source. -/
theorem Dev.clockRecovered_result {i : Nat} (hi : i ≤ 22) (h : ¬ ((d.clk i).st = 0 ∨ i = 9 ∨ i = 19 ∨ (10 ≤ i ∧ i < 18))) :
    ((d.clockRecovered i).clk i).st = 0 ∧ (i = 22 → (d.clockRecovered i).aon.xclkHold = none) ∧
      (i ≠ 22 → (d.clockRecovered i).faults.live.testBit (648 + i) = false) := by
  have hgood : ((d.setClk i {}).clk i).st = 0 := congrArg Clock.st (d.clk_setClk_same i {})
  rw [show d.clockRecovered i = if i = 22 then (d.setClk i {}).setAon { (d.setClk i {}).aon with xclkHold := none } else (d.setClk i {}).unlive (648 + i)
    from if_neg fun hno => hno.elim (by omega) h]
  split
  next hx => exact ⟨hgood, fun _ => rfl, fun hne => absurd hx hne⟩
  next hx => exact ⟨hgood, fun heq => absurd heq hx, fun _ => Dev.unlive_live _ _⟩

theorem Dev.holdoverEnd_none (h : d.aon.xclkHold = none) : d.holdoverEnd = d := by rw [Dev.holdoverEnd, h]

/-- The end of the holdover is the loss of SUPCLK. -/
theorem Dev.holdoverEnd_loses (h : d.aon.xclkHold ≠ none) (hst : (d.clk 19).st = 0) : d.holdoverEnd =
    (((d.setAon { d.aon with xclkHold := none }).lossCounted 19).setClk 19 { st := 3 }).faultLive 667 := by
  obtain ⟨t, ht⟩ := Option.ne_none_iff_exists'.1 h
  rw [Dev.holdoverEnd, ht]
  exact if_neg (not_not.2 hst)

theorem Dev.pllRestart_ignored {n : Nat} (h : (d.clk (10 + n)).st = 0 ∨ 3 ≤ (d.clk (10 + n)).attempts) (locked : Bool) : d.pllRestart n locked = d :=
  if_pos (.inr h)

variable {n : Nat} (hn : n < 8) (hst : (d.clk (10 + n)).st ≠ 0) (hatt : (d.clk (10 + n)).attempts < 3)
include hn hst hatt

theorem Dev.pllRestart_due : ¬ (8 ≤ n ∨ (d.clk (10 + n)).st = 0 ∨ 3 ≤ (d.clk (10 + n)).attempts) := by
  rintro (h | h | h)
  · omega
  · exact hst h
  · omega

theorem Dev.pllRestart_locks : d.pllRestart n true = ((d.setClk (10 + n) {}).quarantine n).unlive (658 + n) :=
  (if_neg (Dev.pllRestart_due hn hst hatt)).trans (if_pos rfl)

/-- A restart that fails counts; the third gives the channel up. -/
theorem Dev.pllRestart_fails : d.pllRestart n false = if (d.clk (10 + n)).attempts < 2 then
      d.setClk (10 + n) { d.clk (10 + n) with attempts := (d.clk (10 + n)).attempts + 1 }
    else ((d.setClk (10 + n) { d.clk (10 + n) with attempts := (d.clk (10 + n)).attempts + 1 }).mclkPoison n).quarantine n :=
  (if_neg (Dev.pllRestart_due hn hst hatt)).trans ((if_neg (by decide)).trans (if_congr Nat.succ_lt_succ_iff rfl rfl))

end Recovery

/-! ### The Tj sensors (R454) -/

/-- The reading `t` of sensor `i` is kept; from 130 °C on it raises source 4. -/
def Dev.sampled (d : Dev) (i : Nat) (t : Int) : Dev :=
  let e := d.setAon { d.aon with thermal := storeSet (fun _ => (0 : Int)) d.aon.thermal i t }
  if 130 ≤ t ∧ storeGet (fun _ => (0 : Int)) d.aon.thermal i < 130 then e.fault 4 else e

section Thermal
variable {d : Dev} {i : Nat} {t : Int}

/-- What a sample changes: the reading, and the queue of occurrences by source 4. -/
theorem Dev.sampled_frame (d : Dev) (i : Nat) (t : Int) : (d.sampled i t).faults = d.faults ∧ (d.sampled i t).dict = d.dict ∧
    storeGet (fun _ => (0 : Int)) (d.sampled i t).aon.thermal i = t := by
  unfold Dev.sampled
  split <;> exact ⟨rfl, rfl, storeGet_set_same ..⟩

theorem Dev.sampled_hot (ht : 130 ≤ t) (hwas : storeGet (fun _ => (0 : Int)) d.aon.thermal i < 130) : (d.sampled i t).Raised 4 := by
  rw [show d.sampled i t = _ from if_pos ⟨ht, hwas⟩]
  exact Dev.fault_raised _ 4

/-- A sample, and what a quadrant's sensor asks of its operating point. -/
theorem Dev.thermalSample_eq (hi : i < 5) : d.thermalSample i t = if i = 4 then d.sampled i t
    else if 120 ≤ t ∧ ¬ d.faults.live.testBit (44 + i) = true then ((d.sampled i t).faultLive (44 + i)).opRequest i 0
    else if t < 115 ∧ d.faults.live.testBit (44 + i) = true then ((d.sampled i t).unlive (44 + i)).opRequest i (d.gb oCoreOperatingPoint i)
    else d.sampled i t := by
  obtain ⟨hfaults, hdict, -⟩ := d.sampled_frame i t
  have hpoint : (d.sampled i t).gb oCoreOperatingPoint i = d.gb oCoreOperatingPoint i := congrArg (byteOf · i) (Dev.g_of_dict hdict _)
  rw [← hpoint, ← hfaults]
  exact if_neg (by omega)

theorem Dev.thermalSample_calm (hi : i < 5) (h : i = 4 ∨ (t < 120 ∧ d.faults.live.testBit (44 + i) = false)) : d.thermalSample i t = d.sampled i t := by
  rw [Dev.thermalSample_eq hi]
  rcases h with h4 | ⟨ht, hlive⟩
  · exact if_pos h4
  · rw [if_neg (c := _ ∧ _) (by omega), if_neg (c := _ ∧ _) (by simp [hlive]), ite_self]

variable (hi : i < 4)
include hi

theorem Dev.thermalSample_hot (ht : 120 ≤ t) (hlive : d.faults.live.testBit (44 + i) = false) :
    d.thermalSample i t = ((d.sampled i t).faultLive (44 + i)).opRequest i 0 := by
  rw [Dev.thermalSample_eq (by omega), if_neg (by omega), if_pos ⟨ht, by simp [hlive]⟩]

theorem Dev.thermalSample_cool (ht : t < 115) (hlive : d.faults.live.testBit (44 + i) = true) :
    d.thermalSample i t = ((d.sampled i t).unlive (44 + i)).opRequest i (d.gb oCoreOperatingPoint i) := by
  rw [Dev.thermalSample_eq (by omega), if_neg (by omega), if_neg (by simp [hlive]), if_pos ⟨ht, hlive⟩]

end Thermal

/-! ### The test port (R453) -/

section TestPort
variable {d : Dev}

/-- The bypass register shifted, with instruction `ir` in force and the balls driven as `drive` says. -/
def Dev.ballsTaken (d : Dev) (ir drive : Nat) (tdi : List Bool) : Dev := (d.jtagBypass tdi).setAon { (d.jtagBypass tdi).aon with ir := ir, drive := drive }

/-- In test mode SAMPLE/PRELOAD and EXTEST select the boundary chain; CLAMP and HIGHZ select the bypass register and take the balls. -/
theorem Dev.testMode_selects (h : d.aon.testMode = true) (pins tdi : List Bool) : d.jtagSample pins tdi = d.jtagChain 2 0 pins tdi ∧
    d.jtagExtest pins tdi = d.jtagChain 3 1 pins tdi ∧ ∀ ir drive, d.jtagHold ir drive tdi = d.ballsTaken ir drive tdi :=
  ⟨if_pos h, if_pos h, fun _ _ => if_pos h⟩

/-- Out of test mode each of the four acts as BYPASS. -/
theorem Dev.normalMode_bypasses (h : d.aon.testMode = false) (pins tdi : List Bool) : d.jtagSample pins tdi = d.jtagBypass tdi ∧
    d.jtagExtest pins tdi = d.jtagBypass tdi ∧ ∀ ir drive, d.jtagHold ir drive tdi = d.jtagBypass tdi := by
  have hno : ¬ d.aon.testMode = true := by simp [h]
  exact ⟨if_neg hno, if_neg hno, fun _ _ => if_neg hno⟩

end TestPort

end Sys2Proof.Machine
end

section
open Sys2Proof Sys2Proof.Machine

/-- Settles O53: each command by the lemma of what it does to its clock, its sensor or the test port's registers. -/
theorem clocksSensorsAndTestPort : Obligations.ClocksSensorsAndTestPort := by
  unfold Obligations.ClocksSensorsAndTestPort
  rintro s _ hp rfl
  refine ⟨fun i freq hi => ⟨fun h => ?masked, fun hst hm hfreq => ⟨fun h22 => ?xclk, fun hlt h19 hvst => ?loss, fun h19 h20 => ?supclk⟩⟩,
    fun i hi => ⟨fun h => ?unrecovered, fun hst h9 h19 hm => ⟨_, exec_clockRecovered hp hi, Dev.clockRecovered_result hi (by omega)⟩⟩,
    ⟨fun h => ?noHoldover, fun h hst => ?holdover⟩,
    fun n hn => ⟨fun h locked => ?noRestart, fun hst hatt => ⟨?locks, fun h => ?retries, fun h => ?gives⟩⟩,
    fun i t hi => ⟨fun h => ?calm, fun hi4 ht hlive => ?hot, fun hi4 ht hlive => ?cool⟩,
    fun pins tdi out hout => ⟨⟨_, exec_bypass hp tdi, rfl, rfl, (hout _ _).2 rfl, rfl⟩, ⟨_, exec_idcode hp tdi, rfl, rfl, (hout _ _).2 rfl⟩,
      fun htest => ?test, fun htest c hc => ?normal⟩⟩
  case masked => rw [exec_clockLoss hp hi, Dev.clockLoss_ignored h]
  case xclk =>
    refine ⟨_, by rw [exec_clockLoss hp hi, Dev.clockLoss_xclk hst hm h22], ?_⟩
    subst h22
    have hclk := s.dev.clk_setClk_same 22 (lostClock 22 freq)
    exact ⟨congrArg Clock.st hclk, (congrArg Clock.freq hclk).trans (Nat.mod_eq_of_lt hfreq), rfl, rfl⟩
  case loss =>
    obtain ⟨hclk, hraised, hcount⟩ := Dev.clockLoss_result (freq := freq) hst hm hlt (fun h => absurd h h19) (fun h => hvst h.2.2)
    refine ⟨_, exec_clockLoss hp hi freq, ?_, ?_, hraised, hcount⟩
    · simp [hclk, lostClock, h19]
    · rw [hclk]; exact Nat.mod_eq_of_lt hfreq
  case supclk =>
    subst h19
    obtain ⟨hclk, hraised, -⟩ := Dev.clockLoss_result (freq := freq) hst hm (by decide) (fun _ => h20) (by omega)
    exact ⟨_, exec_clockLoss hp hi freq, by rw [hclk]; rfl, hraised⟩
  case unrecovered => rw [exec_clockRecovered hp hi, Dev.clockRecovered_ignored h]
  case noHoldover => rw [exec_xclkHoldoverEnd hp, Dev.holdoverEnd_none h]
  case holdover =>
    refine ⟨_, by rw [exec_xclkHoldoverEnd hp, Dev.holdoverEnd_loses h hst], rfl, ?_, Dev.faultLive_raised _ _⟩
    exact congrArg Clock.st (Dev.clk_setClk_same _ 19 { st := 3 })
  case noRestart => rw [exec_mclkPllRestart hp hn, Dev.pllRestart_ignored h]
  case locks =>
    exact ⟨s.dev.setClk (10 + n) {}, by rw [exec_mclkPllRestart hp hn, Dev.pllRestart_locks hn hst hatt], congrArg Clock.st (Dev.clk_setClk_same ..)⟩
  case retries =>
    refine ⟨_, by rw [exec_mclkPllRestart hp hn, Dev.pllRestart_fails hn hst hatt, if_pos h], ?_, ?_⟩ <;> rw [Dev.clk_setClk_same]
  case gives =>
    refine ⟨s.dev.setClk (10 + n) { s.dev.clk (10 + n) with attempts := (s.dev.clk (10 + n)).attempts + 1 }, ?_, by rw [Dev.clk_setClk_same, h]⟩
    rw [exec_mclkPllRestart hp hn, Dev.pllRestart_fails hn hst hatt, if_neg (by omega)]
  case calm =>
    obtain ⟨-, -, hread⟩ := s.dev.sampled_frame i t
    exact ⟨_, by rw [exec_thermalSample hp hi, Dev.thermalSample_calm hi h], hread, Dev.sampled_hot⟩
  case hot =>
    obtain ⟨-, -, hread⟩ := s.dev.sampled_frame i t
    exact ⟨_, by rw [exec_thermalSample hp hi, Dev.thermalSample_hot hi4 ht hlive], Dev.faultLive_raised _ _, hread⟩
  case cool => exact ⟨_, by rw [exec_thermalSample hp hi, Dev.thermalSample_cool hi4 ht hlive], Dev.unlive_live _ _⟩
  case test =>
    obtain ⟨hsample, hextest, hhold⟩ := Dev.testMode_selects htest pins tdi
    exact ⟨⟨_, by rw [exec_samplePreload hp, hsample], rfl, rfl, rfl, (hout _ _).2 rfl⟩,
      ⟨_, by rw [exec_extest hp, hextest], rfl, rfl, rfl, (hout _ _).2 rfl⟩,
      ⟨s.dev.ballsTaken 4 1 tdi, by rw [exec_clamp hp, hhold], rfl, rfl, rfl, (hout _ _).2 rfl⟩,
      ⟨s.dev.ballsTaken 5 2 tdi, by rw [exec_highz hp, hhold], rfl, rfl, rfl, (hout _ _).2 rfl⟩⟩
  case normal =>
    have hexec : exec c s = .next (s.leaves (s.dev.jtagBypass tdi)) := by
      obtain ⟨hsample, hextest, hhold⟩ := Dev.normalMode_bypasses htest pins tdi
      simp only [List.mem_cons, List.not_mem_nil, or_false] at hc
      rcases hc with rfl | rfl | rfl | rfl
      · rw [exec_samplePreload hp, hsample]
      · rw [exec_extest hp, hextest]
      · rw [exec_clamp hp, hhold]
      · rw [exec_highz hp, hhold]
    exact ⟨_, hexec, rfl, rfl, rfl, (hout _ _).2 rfl⟩

end

section
/-! PROOFS. The DRAM controller (13_dram_controller.md): its commands, its state after a write, and a command opportunity. -/
namespace Sys2Proof.Machine
open Sys2Proof

/-! ### The commands, at a powered device -/

section Commands
variable {s : State} (h : s.Powered)
include h

theorem exec_activateTableClear : exec .activateTableClear s = .next (s.leaves s.dev.actsClear) := act_on s Dev.actsClear h

section Subchannel
variable {i : Nat} (hi : i < 16)
include hi

theorem exec_dramCommandIssue (held : List Nat) (passed : Nat) (must : Option (Nat × Nat × Nat)) (res : Nat) :
    exec (.dramCommandIssue i held passed must res) s = .next (s.leaves (s.dev.dramCommand i held passed must res)) :=
  act_if _ s (Dev.dramCommand · i held passed must res) h (by simpa using hi)

theorem exec_dramAlert (rank : Nat) : exec (.dramAlert i rank) s = .next (s.leaves (s.dev.dramAlert i rank)) :=
  act_if _ s (Dev.dramAlert · i rank) h (by simpa using hi)

end Subchannel

section Channel
variable {n : Nat} (hn : n < 8)
include hn

theorem exec_mr4Read (t : Int) : exec (.mr4Read n t) s = .next (s.leaves (s.dev.mr4Read n t)) := act_if _ s (Dev.mr4Read · n t) h (by simpa using hn)

theorem exec_selfRefreshExit : exec (.selfRefreshExit n) s = .next (s.leaves (s.dev.refreshExit n)) :=
  act_if _ s (Dev.refreshExit · n) h (by simpa using hn)

theorem exec_retrainDue (outcome : Nat) (t : Int) : exec (.retrainDue n outcome t) s = .next (s.leaves (s.dev.retrainDue n outcome t)) :=
  act_if _ s (Dev.retrainDue · n outcome t) h (by simpa using hn)

theorem exec_channelQuarantine : exec (.channelQuarantine n) s = .next (s.leaves (s.dev.mgrWrite uMem oChannelCommand (n + 1 * 0x100))) :=
  act_if _ s (Dev.mgrWrite · uMem oChannelCommand (n + 1 * 0x100)) h (by simpa using hn)

theorem exec_channelRetrain : exec (.channelRetrain n) s = .next (s.leaves (s.dev.mgrWrite uMem oChannelCommand (n + 2 * 0x100))) :=
  act_if _ s (Dev.mgrWrite · uMem oChannelCommand (n + 2 * 0x100)) h (by simpa using hn)

theorem exec_quarantineRescueComplete (bad badPages : List Nat) :
    exec (.quarantineRescueComplete n bad badPages) s = .next (s.leaves (s.dev.rescueComplete n bad badPages)) :=
  act_if _ s (Dev.rescueComplete · n bad badPages) h (by simpa using hn)

end Channel
end Commands

/-! ### Subchannels, banks and channels after a write -/

theorem Dev.subch_setSub (d : Dev) (i j : Nat) (x : SubChan) : (d.setSub i x).subch j = if j = i then x else d.subch j := storeGet_set ..

@[simp] theorem Dev.subch_setSub_same (d : Dev) (i : Nat) (x : SubChan) : (d.setSub i x).subch i = x := by simp [Dev.subch_setSub]

theorem Dev.subch_of_subs {d e : Dev} (h : e.dram.subs = d.dram.subs) (i : Nat) : e.subch i = d.subch i := by rw [Dev.subch, h, Dev.subch]

theorem SubChan.bank_setBank (x : SubChan) (k k' : Nat) (b : Bank) : (x.setBank k b).bank k' = if k' = k then b else x.bank k' := storeGet_set ..

@[simp] theorem SubChan.bank_setBank_same (x : SubChan) (k : Nat) (b : Bank) : (x.setBank k b).bank k = b := by simp [SubChan.bank_setBank]

/-- What every value of a store has once each is mapped, and the default has too, every key reads. -/
theorem storeGet_mapV_of {V : Type} [DecidableEq V] {D : Nat → V} {f : Nat → V → V} {P : Nat → V → Prop}
    (hD : ∀ k, P k (D k)) (hf : ∀ k v, P k (f k v)) (m : List (Nat × V)) (k : Nat) : P k (storeGet D (storeMapV D f m) k) := by
  induction m with
  | nil => exact hD k
  | cons e m ih =>
    obtain ⟨a, v⟩ := e
    by_cases hdrop : f a v = D a
    · rwa [show storeMapV D f ((a, v) :: m) = storeMapV D f m by simp [storeMapV, hdrop]]
    · rw [show storeMapV D f ((a, v) :: m) = (a, f a v) :: storeMapV D f m by simp [storeMapV, hdrop], storeGet]
      split
      next hak => exact hak ▸ hf a v
      next => exact ih

/-! ### The queues of a subchannel through its predictor and its activate table (R301, R308) -/

/-- The requests that wait at `y` are those at `x`. -/
structure SubChan.SameQueues (x y : SubChan) : Prop where
  reads : y.reads = x.reads
  writes : y.writes = x.writes

theorem SubChan.SameQueues.trans {x y z : SubChan} (h : x.SameQueues y) (h' : y.SameQueues z) : x.SameQueues z :=
  ⟨h'.reads.trans h.reads, h'.writes.trans h.writes⟩

theorem SubChan.SameQueues.ite {p : Prop} [Decidable p] {x y z : SubChan} (hy : x.SameQueues y) (hz : x.SameQueues z) : x.SameQueues (if p then y else z) := by
  split
  · exact hy
  · exact hz

theorem SubChan.setBank_queues (x : SubChan) (k : Nat) (b : Bank) : x.SameQueues (x.setBank k b) := ⟨rfl, rfl⟩

theorem SubChan.touch_queues (x : SubChan) (k row : Nat) : x.SameQueues (x.touch k row) := by
  have hctr : ∀ (b : Bool) c, x.SameQueues (if b then { x with ctr := c } else x) := fun _ _ => .ite ⟨rfl, rfl⟩ ⟨rfl, rfl⟩
  exact (hctr _ _).trans (SubChan.setBank_queues ..)

theorem SubChan.countAct_queues (x : SubChan) (t br rows rank bank row : Nat) : x.SameQueues (x.countAct t br rows rank bank row) := by
  unfold SubChan.countAct
  dsimp only
  exact .ite ⟨rfl, rfl⟩ ⟨rfl, rfl⟩

theorem SubChan.keepOpen_queues (x : SubChan) (policy k : Nat) : x.SameQueues (x.keepOpen policy k).2 := by
  unfold SubChan.keepOpen
  split
  · exact ⟨rfl, rfl⟩
  · split <;> exact ⟨rfl, rfl⟩

/-! ### The command an opportunity goes to (R295, R304) -/

/-- The retry buffer of subchannel `i` without its `passed` oldest entries. -/
def Dev.retryAged (d : Dev) (i passed : Nat) : Dev := d.setSub i { d.subch i with retry := (d.subch i).retry.drop passed }

theorem Dev.retryAged_subch (d : Dev) (i passed : Nat) : (d.retryAged i passed).subch i = { d.subch i with retry := (d.subch i).retry.drop passed } :=
  Dev.subch_setSub_same ..

@[simp] theorem Dev.retryAged_bank (d : Dev) (i passed k : Nat) : ((d.retryAged i passed).subch i).bank k = (d.subch i).bank k := by
  rw [Dev.retryAged_subch]
  rfl

@[simp] theorem Dev.retryAged_due (d : Dev) (i passed : Nat) : ((d.retryAged i passed).subch i).due = (d.subch i).due := by rw [Dev.retryAged_subch]

theorem Dev.retryAged_queues (d : Dev) (i passed : Nat) : (d.subch i).SameQueues ((d.retryAged i passed).subch i) := by
  rw [Dev.retryAged_subch]
  exact ⟨rfl, rfl⟩

/-- The retry buffer has room. -/
theorem Dev.retryAged_room {d : Dev} {i passed : Nat} (h : ((d.subch i).retry.drop passed).length < 64) :
    ¬ 64 ≤ ((d.retryAged i passed).subch i).retry.length := by
  rw [Dev.retryAged_subch]
  exact Nat.not_le.2 h

section Opportunity
variable {d : Dev} {i : Nat} {held : List Nat} {passed res : Nat}

theorem Dev.dramCommand_idle (h : ((d.chan (i / 2)).st ≠ 2 ∧ (d.chan (i / 2)).st ≠ 4) ∨ d.domSt (uChan (i / 2)) = 1 ∨ (d.subch i).stopped = true)
    (must : Option (Nat × Nat × Nat)) : d.dramCommand i held passed must res = d := if_pos (.inr (h.imp_left not_or.2))

section Issues
variable (hi : i < 16) (hst : (d.chan (i / 2)).st = 2 ∨ (d.chan (i / 2)).st = 4) (hdom : d.domSt (uChan (i / 2)) ≠ 1) (hrun : (d.subch i).stopped = false)
include hi hst hdom hrun

/-- The subchannel may issue. -/
theorem Dev.dramCommand_due :
    ¬ (16 ≤ i ∨ ¬ ((d.chan (i / 2)).st = 2 ∨ (d.chan (i / 2)).st = 4) ∨ d.domSt (uChan (i / 2)) = 1 ∨ (d.subch i).stopped = true) := by
  rintro (h | h | h | h)
  · omega
  · exact h hst
  · exact hdom h
  · simp [hrun] at h

theorem Dev.dramCommand_full (hfull : 64 ≤ ((d.subch i).retry.drop passed).length) (must : Option (Nat × Nat × Nat)) :
    d.dramCommand i held passed must res = d.retryAged i passed :=
  (if_neg (Dev.dramCommand_due hi hst hdom hrun)).trans (if_pos (by rwa [Dev.subch_setSub_same]))

variable (hroom : ((d.subch i).retry.drop passed).length < 64)
include hroom

/-- A refresh at its deadline goes first. -/
theorem Dev.dramCommand_refresh (r b : Nat) : d.dramCommand i held passed (some (6, r, b)) res = (d.retryAged i passed).dramDeadline i 6 r b :=
  (if_neg (Dev.dramCommand_due hi hst hdom hrun)).trans (if_neg (Dev.retryAged_room hroom))

/-- Then a neighbour refresh that is due, then the request that is picked. -/
theorem Dev.dramCommand_next : d.dramCommand i held passed none res = (((d.retryAged i passed).dramNeighbour i held).getD
    (((d.retryAged i passed).dramPick i held).elim (d.retryAged i passed) fun q => (d.retryAged i passed).dramIssue i q res)) := by
  refine (if_neg (Dev.dramCommand_due hi hst hdom hrun)).trans ((if_neg (Dev.retryAged_room hroom)).trans ?_)
  change (match (d.retryAged i passed).dramNeighbour i held with
    | some e => e
    | none => match (d.retryAged i passed).dramPick i held with
      | some q => (d.retryAged i passed).dramIssue i q res
      | none => d.retryAged i passed) = _
  cases (d.retryAged i passed).dramNeighbour i held with
  | some e => rfl
  | none => cases (d.retryAged i passed).dramPick i held <;> rfl

end Issues

/-- A refresh of a bank address whose rows are closed is issued. -/
theorem Dev.dramDeadline_closed {rank bank : Nat} (h : ∀ g < 8, ((d.subch i).bank (rank * 32 + (g * 4 + bank % 4))).openRow = none) (kind : Nat) :
    d.dramDeadline i kind rank bank = d.emit .dram [i / 2, i % 2, kind, rank * 32 + bank % 4, 0, 0] := by
  refine if_neg fun hopen => ?_
  obtain ⟨k, hk, hrow⟩ := List.any_eq_true.1 hopen
  obtain ⟨g, hg, rfl⟩ := List.mem_map.1 hk
  rw [Nat.add_assoc, h g (List.mem_range.1 hg)] at hrow
  exact Bool.false_ne_true hrow

theorem Dev.dramNeighbour_none (h : (d.subch i).due = []) : d.dramNeighbour i held = none := by
  rw [Dev.dramNeighbour, h]
  rfl

/-- Neighbour refresh `r` issued and counted, the refreshes `l` still due. -/
def Dev.neighbourRefreshed (d : Dev) (i : Nat) (r : NeighbourDue) (l : List NeighbourDue) : Dev :=
  ((d.setSub i { d.subch i with due := l }).emit .dram [i / 2, i % 2, 8, r.rank * 32 + r.bank, r.row, 0]).incU (uChan (i / 2)) oNeighbourRefreshes 64

theorem Dev.neighbourRefreshed_result (d : Dev) (i : Nat) (r : NeighbourDue) (l : List NeighbourDue) : ((d.neighbourRefreshed i r l).subch i).due = l ∧
    (d.neighbourRefreshed i r l).out = d.out ++ [⟨.dram, [i / 2, i % 2, 8, r.rank * 32 + r.bank, r.row, 0], []⟩] ∧
    (d.neighbourRefreshed i r l).gu (uChan (i / 2)) oNeighbourRefreshes = min (2 ^ 64 - 1) (d.gu (uChan (i / 2)) oNeighbourRefreshes + 1) :=
  ⟨congrArg SubChan.due (Dev.subch_setSub_same ..), rfl, Dev.gu_su_same ..⟩

/-- A neighbour refresh in a closed bank that is not held is issued. -/
theorem Dev.dramNeighbour_due {r : NeighbourDue} {l : List NeighbourDue} (hdue : (d.subch i).due = r :: l) (hheld : r.rank * 32 + r.bank ∉ held)
    (hrow : ((d.subch i).bank (r.rank * 32 + r.bank)).openRow = none) : d.dramNeighbour i held =
    some (d.neighbourRefreshed i r l) := by
  have hfind : (r :: l).find? (fun r => ¬ held.contains (r.rank * 32 + r.bank)) = some r := by simp [hheld]
  rw [Dev.dramNeighbour, hdue, hfind]
  refine (if_neg (by simp [hrow])).trans ?_
  rw [List.erase_cons_head]
  rfl

end Opportunity

/-! ### The request that is picked (Table 13.5) -/

/-- The better of a request and the best so far. -/
def Dev.betterReq (d : Dev) (x : SubChan) (o : Option DramReq) (q : DramReq) : Option DramReq :=
  match o with
  | none => some q
  | some p => if d.dramKey x q < d.dramKey x p then some q else some p

/-- The fold of `betterReq` ends with one of the list, which none of the list precedes. -/
theorem Dev.foldl_betterReq (d : Dev) (x : SubChan) (l : List DramReq) : ∀ {o : Option DramReq} {q : DramReq}, l.foldl (d.betterReq x) o = some q →
    (q ∈ l ∨ o = some q) ∧ (∀ r ∈ l, ¬ d.dramKey x r < d.dramKey x q) ∧ ∀ p, o = some p → ¬ d.dramKey x p < d.dramKey x q := by
  induction l with
  | nil =>
    rintro o q rfl
    exact ⟨.inr rfl, by simp, fun p hp => by rw [Option.some.inj hp]; exact lt_irrefl _⟩
  | cons r l ih =>
    intro o q h
    rw [List.foldl_cons] at h
    obtain ⟨hmem, hleast, hlast⟩ := ih h
    cases o with
    | none =>
      refine ⟨.inl (hmem.elim (List.mem_cons_of_mem r) fun he => Option.some.inj he ▸ List.mem_cons_self), ?_, by simp⟩
      exact List.forall_mem_cons.2 ⟨hlast r rfl, hleast⟩
    | some p =>
      by_cases hlt : d.dramKey x r < d.dramKey x p
      · have hr := hlast r (if_pos hlt)
        refine ⟨.inl (hmem.elim (List.mem_cons_of_mem r) fun he => ?_), List.forall_mem_cons.2 ⟨hr, hleast⟩, fun p' hp' hp => ?_⟩
        · obtain rfl := Option.some.inj ((if_pos hlt).symm.trans he)
          exact List.mem_cons_self
        · obtain rfl := Option.some.inj hp'
          exact hr (hlt.trans hp)
      · have hp := hlast p (if_neg hlt)
        refine ⟨hmem.imp (List.mem_cons_of_mem r) fun he => (if_neg hlt).symm.trans he, List.forall_mem_cons.2 ⟨fun hr => ?_, hleast⟩, ?_⟩
        · exact hp ((not_lt.1 hlt).trans_lt hr)
        · rintro _ ⟨⟩
          exact hp

/-- The request picked waits in a queue, its bank is not held, and no eligible read precedes it. -/
theorem Dev.dramPick_spec {d : Dev} {i : Nat} {held : List Nat} {q : DramReq} (h : d.dramPick i held = some q) :
    (q ∈ (d.subch i).reads ∨ q ∈ (d.subch i).writes) ∧ q.key ∉ held ∧
      ∀ r ∈ (d.subch i).reads, r.key ∉ held → (d.subch i).free r = true → ¬ d.dramKey (d.subch i) r < d.dramKey (d.subch i) q := by
  obtain ⟨hmem, hleast, -⟩ := d.foldl_betterReq (d.subch i) _ h
  have hq := List.mem_append.1 (hmem.resolve_right (by simp))
  refine ⟨?_, ?_, fun r hr hheld hfree => hleast r (List.mem_append_left _ (List.mem_filter.2 ⟨hr, by simp [hheld, hfree]⟩))⟩
  · refine hq.imp List.mem_of_mem_filter fun hw => ?_
    have hopen := List.mem_of_mem_filter hw
    split at hopen
    · exact absurd hopen List.not_mem_nil
    · exact hopen
  · have hok : ¬ held.contains q.key = true ∧ (d.subch i).free q = true :=
      hq.elim (fun hr => of_decide_eq_true (List.mem_filter.1 hr).2) fun hw => (of_decide_eq_true (List.mem_filter.1 hw).2).1
    simpa using hok.1

/-! ### The command of the request picked (R301, R304 to R308) -/

section Next
variable {x : SubChan} {q : DramReq}

theorem SubChan.next_closed (h : (x.bank q.key).openRow = none) : x.next q = 0 := by rw [SubChan.next, h]

theorem SubChan.next_hit (h : (x.bank q.key).openRow = some q.row) : x.next q = 1 := by
  rw [SubChan.next, h]
  exact if_pos rfl

theorem SubChan.next_other {r : Nat} (h : (x.bank q.key).openRow = some r) (hne : r ≠ q.row) : x.next q = 2 := by
  rw [SubChan.next, h]
  exact if_neg hne

end Next

section Issue
variable {d : Dev} {i : Nat} {q : DramReq}

/-- Subchannel `i` once an activate for `q` is noted by the predictor and counted. -/
def Dev.activateCounted (d : Dev) (i : Nat) (q : DramReq) : SubChan :=
  (if d.g oPagePolicy = 0 then (d.subch i).touch q.key q.row else d.subch i).countAct (d.g oRowHammerThreshold) (d.g oBlastRadius) (2 ^ (d.chan (i / 2)).r)
    q.rank q.bank q.row

theorem Dev.activateCounted_queues (d : Dev) (i : Nat) (q : DramReq) : (d.subch i).SameQueues (d.activateCounted i q) :=
  SubChan.SameQueues.trans (.ite (SubChan.touch_queues ..) ⟨rfl, rfl⟩) (SubChan.countAct_queues ..)

/-- The row of `q` activated. -/
def Dev.rowOpened (d : Dev) (i : Nat) (q : DramReq) : Dev :=
  (d.setSub i ((d.activateCounted i q).setBank q.key { (d.activateCounted i q).bank q.key with openRow := some q.row })).emit .dram
    [i / 2, i % 2, 0, q.key, q.row, 0]

theorem Dev.rowOpened_result (d : Dev) (i : Nat) (q : DramReq) : (((d.rowOpened i q).subch i).bank q.key).openRow = some q.row ∧
    (d.rowOpened i q).out = d.out ++ [⟨.dram, [i / 2, i % 2, 0, q.key, q.row, 0], []⟩] ∧ (d.subch i).SameQueues ((d.rowOpened i q).subch i) := by
  have hsub : (d.rowOpened i q).subch i = _ := d.subch_setSub_same i _
  rw [hsub, SubChan.bank_setBank_same]
  exact ⟨rfl, rfl, (d.activateCounted_queues i q).trans (SubChan.setBank_queues ..)⟩

/-- Bank `k` of subchannel `i` precharged. -/
def Dev.bankClosed (d : Dev) (i k : Nat) : Dev :=
  (d.setSub i ((d.subch i).setBank k { (d.subch i).bank k with openRow := none })).emit .dram [i / 2, i % 2, 5, k, 0, 0]

theorem Dev.bankClosed_result (d : Dev) (i k : Nat) : (((d.bankClosed i k).subch i).bank k).openRow = none ∧
    (d.bankClosed i k).out = d.out ++ [⟨.dram, [i / 2, i % 2, 5, k, 0, 0], []⟩] ∧ (d.subch i).SameQueues ((d.bankClosed i k).subch i) := by
  have hsub : (d.bankClosed i k).subch i = _ := d.subch_setSub_same i _
  rw [hsub, SubChan.bank_setBank_same]
  exact ⟨rfl, rfl, SubChan.setBank_queues ..⟩

/-- A row of a closed bank is activated. -/
theorem Dev.dramIssue_activates (h : ((d.subch i).bank q.key).openRow = none) (res : Nat) : d.dramIssue i q res = d.rowOpened i q := by
  rw [Dev.dramIssue, SubChan.next_closed h]
  rfl

/-- Another row that is open is closed first. -/
theorem Dev.dramIssue_precharges {r : Nat} (h : ((d.subch i).bank q.key).openRow = some r) (hne : r ≠ q.row) (res : Nat) :
    d.dramIssue i q res = d.bankClosed i q.key := by
  rw [Dev.dramIssue, SubChan.next_other h hne]
  rfl

/-- The column command goes to the open row. -/
theorem Dev.dramIssue_column (h : ((d.subch i).bank q.key).openRow = some q.row) (res : Nat) : d.dramIssue i q res = d.dramColumn i q res := by
  rw [Dev.dramIssue, SubChan.next_hit h]
  rfl

end Issue

/-! ### The column command (R301, R304, R306) -/

/-- A subchannel whose request `q` has left its queue for the retry buffer. -/
def SubChan.requestTaken (x : SubChan) (policy : Nat) (q : DramReq) : SubChan :=
  let y := if policy = 0 then x.touch q.key q.row else x
  { y with reads := y.reads.filter (·.id ≠ q.id), writes := y.writes.filter (·.id ≠ q.id), retry := y.retry ++ [(⟨q, 0⟩ : Retry)] }

theorem SubChan.requestTaken_queues (x : SubChan) (policy : Nat) (q : DramReq) : (x.requestTaken policy q).reads = x.reads.filter (·.id ≠ q.id) ∧
    (x.requestTaken policy q).writes = x.writes.filter (·.id ≠ q.id) := by
  have htouch : x.SameQueues (if policy = 0 then x.touch q.key q.row else x) := .ite (SubChan.touch_queues ..) ⟨rfl, rfl⟩
  exact ⟨congrArg _ htouch.reads, congrArg _ htouch.writes⟩

/-- Whether the row of `q` stays open, and the subchannel then. -/
def SubChan.columnTaken (x : SubChan) (policy : Nat) (q : DramReq) : Bool × SubChan :=
  (x.requestTaken policy q).keepOpen policy q.key

/-- The subchannel after the column command: the row closed unless it stays open, and the writes that drain counted. -/
def SubChan.columnDone (x : SubChan) (policy : Nat) (q : DramReq) : SubChan :=
  let y := (x.columnTaken policy q).2
  let z := if (x.columnTaken policy q).1 then y else y.setBank q.key { y.bank q.key with openRow := none }
  { z with draining := z.draining && decide (16 < z.writes.length) }

theorem SubChan.columnDone_queues (x : SubChan) (policy : Nat) (q : DramReq) : (x.columnDone policy q).reads = x.reads.filter (·.id ≠ q.id) ∧
    (x.columnDone policy q).writes = x.writes.filter (·.id ≠ q.id) := by
  obtain ⟨hreads, hwrites⟩ := x.requestTaken_queues policy q
  have hkeep : (x.requestTaken policy q).SameQueues (x.columnTaken policy q).2 := SubChan.keepOpen_queues ..
  have hclose := hkeep.trans (.ite (p := (x.columnTaken policy q).1 = true) ⟨rfl, rfl⟩
    (SubChan.setBank_queues _ q.key { (x.columnTaken policy q).2.bank q.key with openRow := none }))
  exact ⟨hclose.reads.trans hreads, hclose.writes.trans hwrites⟩

/-- The column command of `q` at subchannel `i`. -/
def Dev.columnSent (d : Dev) (i : Nat) (q : DramReq) : Dev :=
  (d.setSub i ((d.subch i).columnDone (d.g oPagePolicy) q)).emit .dram
    [i / 2, i % 2, (if q.write then 2 else 1) + (if ((d.subch i).columnTaken (d.g oPagePolicy) q).1 then 0 else 2), q.key, q.row, q.col]

/-- What a read found uncorrectable raises. -/
def Dev.readBad (d : Dev) (i : Nat) (q : DramReq) : Dev :=
  (d.incU (uChan (i / 2)) oUncorrectableReads).raise
    { src := 464 + i / 2, acc := 1, iUnit := q.tag / 2 ^ 16 % 2 ^ 16, iInst := q.tag / 2 ^ 52, addr := q.line * 64, tag := tagPoison q.tag }

/-- A corrected read is counted, and written back. -/
def Dev.readCorrected (d : Dev) (i : Nat) (q : DramReq) : Dev :=
  (d.incU (uChan (i / 2)) oCorrectedReads 64).emit .dram [i / 2, i % 2, 12, q.key, q.row, q.col]

/-- The end of the column command: a read by what it found. -/
def Dev.columnEnds (d : Dev) (i : Nat) (q : DramReq) (res : Nat) : Dev :=
  if q.write then d
  else if res = 1 then (d.readCorrected i q).dramDone q.id false
  else if res = 2 then (d.readBad i q).dramDone q.id true
  else d.dramDone q.id false

theorem Dev.dramColumn_eq (d : Dev) (i : Nat) (q : DramReq) (res : Nat) : d.dramColumn i q res = ((d.columnSent i q).columnEnds i q res).dramAdmit i := rfl

/-- The data of a read changes no subchannel, raises nothing, and adds outputs behind those there. -/
theorem Dev.dramDone_frame (d : Dev) (id : Nat) (bad : Bool) : (d.dramDone id bad).dram.subs = d.dram.subs ∧ (d.dramDone id bad).faultQ = d.faultQ ∧
    d.out <+: (d.dramDone id bad).out :=
  List.foldlRecOn _ _ (motive := fun e : Dev => e.dram.subs = d.dram.subs ∧ e.faultQ = d.faultQ ∧ d.out <+: e.out) ⟨rfl, rfl, List.prefix_rfl⟩
    fun _ ⟨hsubs, hq, hout⟩ _ _ => ⟨hsubs, hq, hout.trans (List.prefix_append ..)⟩

theorem Dev.columnEnds_subs (d : Dev) (i : Nat) (q : DramReq) (res : Nat) : (d.columnEnds i q res).dram.subs = d.dram.subs := by
  unfold Dev.columnEnds
  split
  · rfl
  · split
    · exact (Dev.dramDone_frame ..).1
    · split <;> exact (Dev.dramDone_frame ..).1

section Ends
variable {q : DramReq} (h : q.write = false) (d : Dev) (i : Nat)
include h

theorem Dev.columnEnds_bad : (d.columnEnds i q 2).Raised (464 + i / 2) := by
  have hends : d.columnEnds i q 2 = (d.readBad i q).dramDone q.id true := by simp [Dev.columnEnds, h]
  obtain ⟨-, hq, -⟩ := (d.readBad i q).dramDone_frame q.id true
  rw [hends]
  exact Dev.Raised.of_faultQ ⟨_, List.mem_append_right _ List.mem_cons_self, rfl⟩ hq

theorem Dev.columnEnds_corrected : (⟨.dram, [i / 2, i % 2, 12, q.key, q.row, q.col], []⟩ : Output) ∈ (d.columnEnds i q 1).out := by
  have hends : d.columnEnds i q 1 = (d.readCorrected i q).dramDone q.id false := by simp [Dev.columnEnds, h]
  obtain ⟨-, -, hout⟩ := (d.readCorrected i q).dramDone_frame q.id false
  rw [hends]
  exact hout.subset (List.mem_append_right _ List.mem_cons_self)

end Ends

/-- What the column command leaves in the queues. -/
theorem Dev.columnEnds_subch (d : Dev) (i : Nat) (q : DramReq) (res : Nat) :
    ((d.columnSent i q).columnEnds i q res).subch i = (d.subch i).columnDone (d.g oPagePolicy) q :=
  (Dev.subch_of_subs (Dev.columnEnds_subs ..) i).trans (d.subch_setSub_same i _)

end Sys2Proof.Machine
end

section
/-! PROOFS. The DRAM controller (13_dram_controller.md): the activate table, temperatures, alerts, self-refresh exit and retraining. -/
namespace Sys2Proof.Machine
open Sys2Proof

/-! ### A channel after a write of it -/

@[simp] theorem Dev.setChan_dram (d : Dev) (n : Nat) (c : Chan) : (d.setChan n c).dram = { d.dram with chans := storeSet noChan d.dram.chans n c } := by
  simp only [Dev.setChan]; split <;> simp

@[simp] theorem Dev.setChan_dict (d : Dev) (n : Nat) (c : Chan) : (d.setChan n c).dict = d.dict := by
  simp only [Dev.setChan]; split <;> simp

@[simp] theorem Dev.setChan_out (d : Dev) (n : Nat) (c : Chan) : (d.setChan n c).out = d.out := by
  simp only [Dev.setChan]; split <;> simp

@[simp] theorem Dev.setChan_faultQ (d : Dev) (n : Nat) (c : Chan) : (d.setChan n c).faultQ = d.faultQ := (d.setChan_keepsRun n c).faultQ

@[simp] theorem Dev.setChan_cache (d : Dev) (n : Nat) (c : Chan) : (d.setChan n c).cache = d.cache := (d.setChan_keepsRun n c).cache

@[simp] theorem Dev.chan_setChan_same (d : Dev) (n : Nat) (c : Chan) : (d.setChan n c).chan n = c := by simp [Dev.chan]

theorem Dev.subch_setChan (d : Dev) (n : Nat) (c : Chan) (i : Nat) : (d.setChan n c).subch i = d.subch i := Dev.subch_of_subs (by simp) i

/-! ### The activate table and the temperatures (R295, R308, R310) -/

theorem Dev.actsClear_acts (d : Dev) (i : Nat) : (d.actsClear.subch i).acts = [] :=
  storeGet_mapV_of (D := noSub) (f := fun _ x => { x with acts := [] }) (P := fun _ x => x.acts = []) (fun _ => rfl) (fun _ _ => rfl) d.dram.subs i

section Mr4
variable {d : Dev} {n : Nat} {t : Int}

theorem Dev.mr4Read_ignored (h : d.serving n = false ∨ (d.chan n).st = 3) : d.mr4Read n t = d :=
  if_pos (.inr (h.imp_left fun hs => by simp [hs]))

/-- Temperature `t` is further than RetrainDrift from `u`. -/
def Dev.drifted (d : Dev) (t u : Int) : Prop := (d.g oRetrainDrift : Int) * 10 ≤ t - u ∨ (d.g oRetrainDrift : Int) * 10 ≤ u - t

/-- A reading is kept; a drift from the last training or over a self-refresh asks for retraining. -/
theorem Dev.mr4Read_result (hn : n < 8) (hs : d.serving n = true) (h3 : (d.chan n).st ≠ 3) : ((d.mr4Read n t).chan n).temp = t ∧
    ((d.mr4Read n t).chan n).st = (d.chan n).st ∧ ((d.mr4Read n t).chan n).srTemp = none ∧
    (((d.mr4Read n t).chan n).retrain = true ↔ (d.chan n).retrain = true ∨ ∃ u, (u = (d.chan n).trainTemp ∨ (d.chan n).srTemp = some u) ∧ d.drifted t u) := by
  have hdue : ¬ (8 ≤ n ∨ ¬ d.serving n = true ∨ (d.chan n).st = 3) := by
    rintro (h | h | h)
    · omega
    · exact h hs
    · exact h3 h
  rw [Dev.mr4Read, if_neg hdue, Dev.chan_setChan_same]
  refine ⟨rfl, rfl, rfl, ?_⟩
  simp [Option.any_eq_true, or_and_right, exists_or, Dev.drifted, or_assoc]

end Mr4

/-! ### An alert (R307) -/

/-- The rows of rank `rank` closed. -/
def SubChan.rowsClosed (x : SubChan) (rank : Nat) : SubChan :=
  { x with banks := storeMapV noBank (fun k b => if k / 32 = rank then { b with openRow := none } else b) x.banks }

theorem SubChan.rowsClosed_bank (x : SubChan) {rank k : Nat} (hk : k / 32 = rank) : ((x.rowsClosed rank).bank k).openRow = none := by
  refine storeGet_mapV_of (D := noBank) (f := fun k b => if k / 32 = rank then { b with openRow := none } else b)
    (P := fun k b => k / 32 = rank → b.openRow = none) (fun _ _ => rfl) (fun k b hk => ?_) x.banks k hk
  rw [if_pos hk]

/-- A command of the retry buffer replayed once more. -/
def Retry.again (c : Retry) : Retry := { c with replays := c.replays + 1 }

/-- The replay of a command at subchannel `i`. -/
def Retry.sent (i : Nat) (c : Retry) : Output := ⟨.dram, [i / 2, i % 2, 11, c.req.key, c.req.row, c.req.col], []⟩

section Replay
variable {i : Nat}

/-- Commands replayed fewer than three times are all replayed, in order. -/
theorem Dev.replay_all (r : List Retry) : ∀ (d : Dev) (l : List Retry), (∀ c ∈ r, c.replays < 3) →
    d.replay i l r = ({ d with out := d.out ++ r.map (Retry.sent i) } : Dev).setSub i { d.subch i with retry := l ++ r.map Retry.again } := by
  induction r with
  | nil => intro d l _; simp only [List.map_nil, List.append_nil]; rfl
  | cons c r ih =>
    intro d l h
    have hc := h c List.mem_cons_self
    have hrest := ih (d.emit .dram [i / 2, i % 2, 11, c.req.key, c.req.row, c.req.col]) (l ++ [c.again]) fun c hc => h c (List.mem_cons_of_mem _ hc)
    refine (if_neg (by show ¬ 3 < c.replays + 1; omega)).trans (hrest.trans ?_)
    simp only [List.map_cons, List.append_assoc, List.singleton_append, Dev.emit_out]
    rfl

/-- A command replayed three times stops the subchannel. -/
theorem Dev.replay_stops (r : List Retry) : ∀ (d : Dev) (l : List Retry), (∃ c ∈ r, 3 ≤ c.replays) →
    ((d.replay i l r).subch i).stopped = true ∧ (d.replay i l r).Raised (472 + i / 2) := by
  induction r with
  | nil => simp
  | cons c r ih =>
    intro d l h
    by_cases hc : 3 ≤ c.replays
    · rw [show d.replay i l (c :: r) = _ from if_pos (by show 3 < c.replays + 1; omega)]
      refine ⟨?_, Dev.fault_raised _ _⟩
      exact congrArg SubChan.stopped (Dev.subch_setSub_same ..)
    · rw [show d.replay i l (c :: r) = _ from if_neg (by show ¬ 3 < c.replays + 1; omega)]
      obtain ⟨x, hx, hx3⟩ := h
      exact ih _ _ ⟨x, (List.mem_cons.1 hx).resolve_left fun he => hc (he ▸ hx3), hx3⟩

end Replay

section Alert
variable {d : Dev} {i rank : Nat}

theorem Dev.dramAlert_ignored (h : d.serving (i / 2) = false ∨ (d.subch i).stopped = true) : d.dramAlert i rank = d :=
  if_pos (.inr (h.imp_left fun hs => by simp [hs]))

/-- Subchannel `i` with the rows of the rank closed, and the alert counted. -/
def Dev.alerted (d : Dev) (i rank : Nat) : Dev := (d.setSub i ((d.subch i).rowsClosed rank)).incU (uChan (i / 2)) oReplays

theorem Dev.alerted_subch (d : Dev) (i rank : Nat) : (d.alerted i rank).subch i = (d.subch i).rowsClosed rank := d.subch_setSub_same i _

variable (hi : i < 16) (hs : d.serving (i / 2) = true) (hrun : (d.subch i).stopped = false)
include hi hs hrun

theorem Dev.dramAlert_replays : d.dramAlert i rank = (d.alerted i rank).replay i [] (d.subch i).retry := by
  refine if_neg ?_
  rintro (h | h | h)
  · omega
  · exact h hs
  · simp [hrun] at h

theorem Dev.dramAlert_result (h : ∀ c ∈ (d.subch i).retry, c.replays < 3) :
    (d.dramAlert i rank).gu (uChan (i / 2)) oReplays = min (2 ^ 32 - 1) (d.gu (uChan (i / 2)) oReplays + 1) ∧
      (∀ k, k / 32 = rank → (((d.dramAlert i rank).subch i).bank k).openRow = none) ∧
      ((d.dramAlert i rank).subch i).retry = (d.subch i).retry.map Retry.again ∧ (d.dramAlert i rank).out = d.out ++ (d.subch i).retry.map (Retry.sent i) := by
  rw [Dev.dramAlert_replays hi hs hrun, Dev.replay_all _ _ _ h, Dev.subch_setSub_same, Dev.alerted_subch]
  exact ⟨Dev.gu_su_same .., fun k hk => (d.subch i).rowsClosed_bank hk, rfl, rfl⟩

end Alert

/-! ### Self-refresh exit (R310) -/

section Exit
variable {d : Dev} {n : Nat}

theorem Dev.refreshExit_ignored (h : (d.chan n).st ≠ 3 ∨ d.domSt (uChan n) ≠ 3) : d.refreshExit n = d := if_pos (.inr h)

/-- The activate tables of channel `n`, cleared once it has been in self-refresh for 32 ms. -/
def Dev.actsForgotten (d : Dev) (n : Nat) : Dev :=
  if (d.chan n).srSince.any (fun t => decide (t + 32000 ≤ d.now)) then
    (d.setSub (2 * n) { d.subch (2 * n) with acts := [] }).setSub (2 * n + 1) { d.subch (2 * n + 1) with acts := [] }
  else d

/-- Channel `n` out of self-refresh and in service. -/
def Dev.refreshExited (d : Dev) (n : Nat) : Dev :=
  ((d.actsForgotten n).setChan n { d.chan n with st := 2, srSince := none, srTemp := some (d.chan n).temp }).emit .dram [n, 0, 10, 0, 0, 0]

theorem Dev.refreshExit_exits (hn : n < 8) (hst : (d.chan n).st = 3) (hdom : d.domSt (uChan n) = 3) : d.refreshExit n = (d.refreshExited n).domainOn (uChan n) := by
  have hdue : ¬ (8 ≤ n ∨ (d.chan n).st ≠ 3 ∨ d.domSt (uChan n) ≠ 3) := by
    rintro (h | h | h)
    · omega
    · exact h hst
    · exact h hdom
  rw [Dev.refreshExited, Dev.actsForgotten]
  refine (if_neg hdue).trans ?_
  cases (d.chan n).srSince <;> rfl

theorem Dev.actsForgotten_out (d : Dev) (n : Nat) : (d.actsForgotten n).out = d.out := by
  unfold Dev.actsForgotten
  split <;> rfl

/-- What the exit changes: the channel, an output, and by the time in self-refresh its activate tables. -/
theorem Dev.refreshExited_result (d : Dev) (n : Nat) : ((d.refreshExited n).chan n).st = 2 ∧ ((d.refreshExited n).chan n).srSince = none ∧
    (d.refreshExited n).out = d.out ++ [⟨.dram, [n, 0, 10, 0, 0, 0], []⟩] ∧ ∀ i, (d.refreshExited n).subch i = (d.actsForgotten n).subch i := by
  have hchan := (d.actsForgotten n).chan_setChan_same n { d.chan n with st := 2, srSince := none, srTemp := some (d.chan n).temp }
  refine ⟨congrArg Chan.st hchan, congrArg Chan.srSince hchan, ?_, fun i => Dev.subch_setChan ..⟩
  rw [Dev.refreshExited, Dev.emit_out, Dev.setChan_out, Dev.actsForgotten_out]

theorem Dev.actsForgotten_long {t : Nat} (ht : (d.chan n).srSince = some t) (h : t + 32000 ≤ d.now) :
    ((d.actsForgotten n).subch (2 * n)).acts = [] ∧ ((d.actsForgotten n).subch (2 * n + 1)).acts = [] := by
  have hlong : d.actsForgotten n = _ := if_pos (by rw [ht]; exact decide_eq_true h)
  rw [hlong, Dev.subch_setSub_same, Dev.subch_setSub, if_neg (by omega), Dev.subch_setSub_same]
  exact ⟨rfl, rfl⟩

theorem Dev.actsForgotten_short {t : Nat} (ht : (d.chan n).srSince = some t) (h : d.now < t + 32000) : d.actsForgotten n = d :=
  if_neg (by rw [ht]; simpa using h)

end Exit

/-! ### Retraining (R311) -/

section Retrain
variable {d : Dev} {n : Nat} {t : Int}

theorem Dev.retrainDue_ignored (h : (d.chan n).st ≠ 2 ∨ d.inVault = true ∨ d.domSt (uChan n) ≠ 0 ∨
    ((d.chan n).retrain = false ∧ d.now < (d.chan n).trained + d.g oRetrainInterval * 1000000)) (outcome : Nat) : d.retrainDue n outcome t = d := by
  refine if_pos (.inr (h.imp_right (Or.imp_right (Or.imp_right ?_))))
  rintro ⟨hr, hlate⟩ (hr' | hdue)
  · simp [hr] at hr'
  · omega

/-- Channel `n` trained at `t`. -/
def Dev.retrained (d : Dev) (n : Nat) (t : Int) : Dev :=
  ((d.incU (uChan n) oRetrains).setChan n { d.chan n with retrain := false, trained := d.now, temp := t, trainTemp := t }).su
    (uChan n) oTrainTemperature (unsignedOf 2 t)

/-- A retraining records its tick and temperature, and is counted. -/
theorem Dev.retrained_result (d : Dev) (n : Nat) (t : Int) :
    ((d.retrained n t).chan n) = { d.chan n with retrain := false, trained := d.now, temp := t, trainTemp := t } ∧
    (d.retrained n t).gu (uChan n) oRetrains = min (2 ^ 32 - 1) (d.gu (uChan n) oRetrains + 1) ∧ (d.retrained n t).faultQ = d.faultQ := by
  refine ⟨Dev.chan_setChan_same .., ?_, Dev.setChan_faultQ ..⟩
  have hkey : dkey (uChan n) oRetrains ≠ dkey (uChan n) oTrainTemperature := fun he => absurd ((dkey_inj (by decide) (by decide)).1 he).2 (by decide)
  rw [Dev.retrained, Dev.gu_su, if_neg hkey, Dev.gu_of_dict (Dev.setChan_dict ..)]
  exact Dev.gu_su_same ..

/-- The retraining's end: with only the last good setting it raises the channel's source. -/
def Dev.trainingEnds (d : Dev) (n outcome : Nat) (t : Int) : Dev := if outcome = 1 then (d.retrained n t).fault (480 + n) else d.retrained n t

theorem Dev.trainingEnds_result (d : Dev) (n outcome : Nat) (t : Int) :
    (d.trainingEnds n outcome t).chan n = { d.chan n with retrain := false, trained := d.now, temp := t, trainTemp := t } ∧
      (d.trainingEnds n outcome t).gu (uChan n) oRetrains = min (2 ^ 32 - 1) (d.gu (uChan n) oRetrains + 1) ∧
      (outcome = 1 → (d.trainingEnds n outcome t).Raised (480 + n)) ∧ (outcome = 0 → (d.trainingEnds n outcome t).faultQ = d.faultQ) := by
  obtain ⟨hchan, hcount, hq⟩ := d.retrained_result n t
  unfold Dev.trainingEnds
  split
  next h1 => exact ⟨hchan, hcount, fun _ => Dev.fault_raised _ _, fun h0 => absurd (h0.symm.trans h1) (by decide)⟩
  next h1 => exact ⟨hchan, hcount, fun h => absurd h h1, fun _ => hq⟩

variable (hn : n < 8) (hst : (d.chan n).st = 2) (hv : d.inVault = false) (hdom : d.domSt (uChan n) = 0)
  (hdue : (d.chan n).retrain = true ∨ (d.chan n).trained + d.g oRetrainInterval * 1000000 ≤ d.now)
include hn hst hv hdom hdue

/-- A retraining that is due, by its outcome. -/
theorem Dev.retrainDue_eq (outcome : Nat) : d.retrainDue n outcome t = if 2 ≤ outcome then (d.incU (uChan n) oRetrains).quarantine n
    else d.trainingEnds n outcome t := by
  refine if_neg ?_
  rintro (h | h | h | h | h)
  · omega
  · exact h hst
  · simp [hv] at h
  · exact h hdom
  · exact h hdue

end Retrain

end Sys2Proof.Machine
end

section
/-! PROOFS. The DRAM controller (13_dram_controller.md): the commands of a channel, quarantine and rescue. -/
namespace Sys2Proof.Machine
open Sys2Proof

/-! ### A write of ChannelCommand (R315) -/

/-- The row of ChannelCommand. -/
def channelCommandRow : ObjRow := ⟨oChannelCommand, 10, 4, 1, 1, 2, 2, 0, 0, false, 4, none, false⟩

/-- The memory system is the only unit with objects of its own location. -/
theorem mem_of_upOrder : (upOrder uMem).filter (locAt 4) = [uMem] := by decide +kernel

theorem Dev.present_mem (d : Dev) : d.present uMem = true := rfl

/-- A write of ChannelCommand passes. -/
theorem Dev.channelCommand_passes (d : Dev) (v : Nat) : d.Passes channelCommandRow uMem oChannelCommand v where
  isRow := by decide +kernel
  present := d.present_mem
  holds := rfl
  ok := rfl
  pre := rfl
  named := by
    have hloc : channelCommandRow.loc = 4 := rfl
    rw [Dev.namedUnits, if_pos (by decide), hloc, ← List.filter_filter, mem_of_upOrder]
    simp [d.present_mem]
  notCursor := by decide

theorem Dev.applyOne_channelCommand (d : Dev) (sid v : Nat) : d.applyOne sid uMem oChannelCommand v = d.fxChannelCommand v := rfl

section ChannelCommand
variable {d : Dev} {n act : Nat} (hn : n < 8) (hact : act = 1 ∨ act = 2) (hc : d.writesClosed = false)
include hn hact hc

/-- The effect of a command to a channel, outside a vault sequence. -/
theorem Dev.fxChannelCommand_eq : d.fxChannelCommand (n + act * 0x100) =
    if ((d.chan n).st = 0 ∨ (d.chan n).st = 4 ∨ (d.chan n).st = 5) ∨ (act = 1 ∧ d.chansIn = [n]) then conflict d uMem
    else if act = 1 then okR (d.quarantine n) else okR (d.setChan n { d.chan n with retrain := true }) := by
  have hv : d.inVault = false := (Bool.or_eq_false_iff.1 hc).1
  obtain ⟨hchan, hdo, -⟩ := portCommand_fields (n := n) (act := act) (slot := 0) (by omega) (by omega) (by decide)
  rw [Nat.zero_mul, Nat.add_zero] at hchan hdo
  rw [Dev.fxChannelCommand, hchan, hdo]
  refine (if_neg (by omega)).trans (if_congr ?_ rfl rfl)
  simp [hv, or_assoc]

variable (hs : d.supAway = false)
include hs

theorem Dev.channelCommand_refused (hp : d.aon.auxUp = true)
    (h : ((d.chan n).st = 0 ∨ (d.chan n).st = 4 ∨ (d.chan n).st = 5) ∨ (act = 1 ∧ d.chansIn = [n])) :
    d.mgrWrite uMem oChannelCommand (n + act * 0x100) = d.refuses 4 uMem :=
  (d.channelCommand_passes _).refused hs hc hp (by decide) ((Dev.fxChannelCommand_eq hn hact hc).trans (if_pos h))

theorem Dev.channelCommand_accepted (h : ¬ (((d.chan n).st = 0 ∨ (d.chan n).st = 4 ∨ (d.chan n).st = 5) ∨ (act = 1 ∧ d.chansIn = [n]))) :
    d.mgrWrite uMem oChannelCommand (n + act * 0x100) =
      (if act = 1 then d.quarantine n else d.setChan n { d.chan n with retrain := true }).accepts oChannelCommand := by
  refine (d.channelCommand_passes _).accepted hs hc ?_
  rw [d.applyOne_channelCommand, Dev.fxChannelCommand_eq hn hact hc, if_neg h]
  split <;> rfl

end ChannelCommand

/-! ### A version whose copy in a channel is given up (R61) -/

/-- Nothing of version `v` depends on channel `n`: a frame there is its only one, and no COPY is there. -/
def Version.Clear (n : Nat) (v : Version) : Prop := (frameChan v.frame = n → v.copy = none) ∧ ∀ k, v.copy = some k → frameChan k ≠ n

theorem Version.clear_of_copy {n : Nat} {v : Version} (h : v.copy = none) : v.Clear n := ⟨fun _ => h, by simp [h]⟩

/-- What becomes of version `v` as the version `u` gives up its copy in channel `n`. -/
def Version.split (n : Nat) (u v : Version) : Version :=
  match u.copy with
  | some c =>
    if frameChan u.frame = n then (if v.frame = u.frame then { v with frame := c, copy := none } else v)
    else if frameChan c = n then (if v.frame = u.frame then { v with copy := none } else v)
    else v
  | none => v

section Split
variable (n : Nat) (u v : Version)

/-- A version stays, or is left with one copy, and its frame changes only out of the channel. -/
theorem Version.split_cases : Version.split n u v = v ∨ ((Version.split n u v).copy = none ∧ (Version.split n u v).st = v.st ∧
    (frameChan v.frame ≠ n → (Version.split n u v).frame = v.frame)) := by
  unfold Version.split
  split
  next c hc =>
    split
    next hf =>
      split
      next he => exact .inr ⟨rfl, rfl, fun hne => absurd (he ▸ hf) hne⟩
      next => exact .inl rfl
    next =>
      split
      next =>
        split
        next => exact .inr ⟨rfl, rfl, fun _ => rfl⟩
        next => exact .inl rfl
      next => exact .inl rfl
  next => exact .inl rfl

/-- The version that gives up its copy is clear of the channel. -/
theorem Version.split_self : (Version.split n v v).Clear n := by
  unfold Version.split
  split
  next c hc =>
    split
    next => exact Version.clear_of_copy (by rw [if_pos rfl])
    next hf =>
      split
      next => exact Version.clear_of_copy (by rw [if_pos rfl])
      next hk =>
        refine ⟨fun h => absurd h hf, fun k hk' => ?_⟩
        obtain rfl := Option.some.inj (hc.symm.trans hk')
        exact hk
  next hc => exact Version.clear_of_copy hc

end Split

/-- The versions after `u` gave up its copy. -/
theorem Dev.splitCopy_versions (d : Dev) (n : Nat) (u : Version) : (d.splitCopy n u).cache.versions = d.cache.versions.map (Version.split n u) := by
  cases hc : u.copy with
  | none =>
    rw [show Version.split n u = id from funext fun v => by rw [Version.split, hc]; rfl, List.map_id, Dev.splitCopy, hc]
  | some c =>
    by_cases hf : frameChan u.frame = n
    · have htwice : (d.splitCopy n u).cache.versions = mapIf (·.frame = u.frame) (fun v => { v with frame := c })
          (mapIf (·.frame = u.frame) (fun v => { v with copy := none }) d.cache.versions) := by
        rw [Dev.splitCopy, hc]
        dsimp only
        rw [if_pos hf]
        rfl
      rw [htwice, mapIf, mapIf, List.map_map]
      refine List.map_congr_left fun v _ => ?_
      by_cases he : v.frame = u.frame <;> simp [Version.split, hc, hf, he]
    · by_cases hk : frameChan c = n
      · simp [Dev.splitCopy, Version.split, hc, hf, hk, Dev.modVer, mapIf]
      · rw [show Version.split n u = id from funext fun v => by simp [Version.split, hc, hf, hk], List.map_id]
        simp [Dev.splitCopy, hc, hf, hk]

/-- What giving up a copy leaves as it was. -/
theorem Dev.splitCopy_frame (d : Dev) (n : Nat) (u : Version) : (d.splitCopy n u).faultQ = d.faultQ ∧ (d.splitCopy n u).dram = d.dram := by
  unfold Dev.splitCopy
  split
  · split
    · exact ⟨rfl, rfl⟩
    · split <;> exact ⟨rfl, rfl⟩
  · exact ⟨rfl, rfl⟩

/-- Once every version that is not clear of the channel has given up its copy, all are clear. -/
theorem Dev.splitCopies_clear (n : Nat) (l : List Version) : ∀ d : Dev, (∀ v ∈ d.cache.versions, v ∈ l ∨ v.Clear n) →
    ∀ v ∈ (l.foldl (fun d u => d.splitCopy n u) d).cache.versions, v.Clear n := by
  induction l with
  | nil => exact fun d h v hv => (h v hv).resolve_left List.not_mem_nil
  | cons u l ih =>
    refine fun d h => ih (d.splitCopy n u) fun v hv => ?_
    rw [Dev.splitCopy_versions] at hv
    obtain ⟨w, hw, rfl⟩ := List.mem_map.1 hv
    rcases Version.split_cases n u w with hsame | ⟨hnone, -⟩
    · rcases h w hw with hl | hclear
      · rcases List.mem_cons.1 hl with rfl | hl
        · exact .inr (Version.split_self n w)
        · exact .inl (by rwa [hsame])
      · exact .inr (by rwa [hsame])
    · exact .inr (Version.clear_of_copy hnone)

/-- No CLEAN version comes to stand in the channel. -/
theorem Dev.splitCopies_clean (n : Nat) (l : List Version) {d : Dev} (h : ∀ v ∈ d.cache.versions, ¬ (v.st = 1 ∧ frameChan v.frame = n)) :
    ∀ v ∈ (l.foldl (fun d u => d.splitCopy n u) d).cache.versions, ¬ (v.st = 1 ∧ frameChan v.frame = n) := by
  refine List.foldlRecOn l _ (motive := fun e : Dev => ∀ v ∈ e.cache.versions, ¬ (v.st = 1 ∧ frameChan v.frame = n)) h fun e he u _ v hv => ?_
  rw [Dev.splitCopy_versions] at hv
  obtain ⟨w, hw, rfl⟩ := List.mem_map.1 hv
  rcases Version.split_cases n u w with hsame | ⟨-, hst, hframe⟩
  · rw [hsame]
    exact he w hw
  · rintro ⟨h1, hf⟩
    have hout : frameChan w.frame ≠ n := fun hin => he w hw ⟨hst ▸ h1, hin⟩
    exact hout (hframe hout ▸ hf)

theorem Dev.splitCopies_frame (n : Nat) (l : List Version) (d : Dev) : (l.foldl (fun d u => d.splitCopy n u) d).faultQ = d.faultQ ∧
    (l.foldl (fun d u => d.splitCopy n u) d).dram = d.dram :=
  List.foldlRecOn l _ (motive := fun e : Dev => e.faultQ = d.faultQ ∧ e.dram = d.dram) ⟨rfl, rfl⟩ fun e he u _ =>
    ⟨(e.splitCopy_frame n u).1.trans he.1, (e.splitCopy_frame n u).2.trans he.2⟩

/-! ### Pools that are trimmed (R39) -/

/-- From `d` to `e` versions are dropped; no channel changes, and nothing is raised. -/
structure Dev.DropsVersions (d e : Dev) : Prop where
  faultQ : e.faultQ = d.faultQ
  dram : e.dram = d.dram
  versions : e.cache.versions ⊆ d.cache.versions

theorem Dev.DropsVersions.foldl {α : Type} {f : Dev → α → Dev} (h : ∀ (d : Dev) a, d.DropsVersions (f d a)) (l : List α) (d : Dev) :
    d.DropsVersions (l.foldl f d) :=
  List.foldlRecOn l f (motive := d.DropsVersions) ⟨rfl, rfl, List.Subset.refl _⟩ fun e he a _ =>
    ⟨(h e a).faultQ.trans he.faultQ, (h e a).dram.trans he.dram, fun _ hv => he.versions ((h e a).versions hv)⟩

theorem Dev.freeVer_dropsVersions (d : Dev) (f : Nat) : d.DropsVersions (d.freeVer f) := ⟨rfl, rfl, fun _ => List.mem_of_mem_filter⟩

theorem Dev.trimPools_dropsVersions (d : Dev) : d.DropsVersions d.trimPools := by
  unfold Dev.trimPools
  refine .foldl (fun d n => ?_) _ d
  exact .foldl (fun d (v : Version) => d.freeVer_dropsVersions v.frame) _ d

/-! ### The beginning of a quarantine (R312 step 1) -/

section Quarantine
variable {d : Dev} {n : Nat}

/-- Channel `n` RESCUING, its source raised, and its CLEAN frames dropped. -/
def Dev.cleanDropped (d : Dev) (n : Nat) : Dev :=
  ((d.setChan n { d.chan n with st := 4, quarDue := false }).fault (488 + n)).setVers
    (((d.setChan n { d.chan n with st := 4, quarDue := false }).fault (488 + n)).cache.versions.filter fun v => ¬ (v.st = 1 ∧ frameChan v.frame = n))

/-- Then its copies given up, and the pools trimmed. -/
def Dev.copiesDropped (d : Dev) (n : Nat) : Dev :=
  ((d.cleanDropped n).cache.versions.foldl (fun d v => d.splitCopy n v) (d.cleanDropped n)).trimPools

theorem Dev.quarantine_begins (hpop : (d.chan n).populated = true) (h4 : (d.chan n).st ≠ 4) (h5 : (d.chan n).st ≠ 5) (hv : d.inVault = false) :
    d.quarantine n = if (d.copiesDropped n).mirrorCheck.chanOut ((n + 4) % 8) then (d.copiesDropped n).mirrorCheck.fault 8 else (d.copiesDropped n).mirrorCheck := by
  have hdue : ¬ (¬ (d.chan n).populated = true ∨ (d.chan n).st = 4 ∨ (d.chan n).st = 5) := by
    rintro (h | h | h)
    · exact h hpop
    · exact h4 h
    · exact h5 h
  unfold Dev.quarantine Dev.copiesDropped
  rw [if_neg hdue, if_neg (by simp [hv])]
  rfl

/-- What the quarantine leaves before the mirror is judged anew. -/
theorem Dev.copiesDropped_result (d : Dev) (n : Nat) : ((d.copiesDropped n).chan n).st = 4 ∧ (d.copiesDropped n).Raised (488 + n) ∧
    ∀ v ∈ (d.copiesDropped n).cache.versions, ¬ (v.st = 1 ∧ frameChan v.frame = n) ∧ v.Clear n := by
  obtain ⟨hsplitq, hsplitd⟩ := Dev.splitCopies_frame n (d.cleanDropped n).cache.versions (d.cleanDropped n)
  have hclean := Dev.splitCopies_clean n (d.cleanDropped n).cache.versions (d := d.cleanDropped n) fun w hw => of_decide_eq_true (List.mem_filter.1 hw).2
  have hclear := Dev.splitCopies_clear n (d.cleanDropped n).cache.versions (d.cleanDropped n) fun _ => .inl
  have hchan : ((d.cleanDropped n).chan n).st = 4 := congrArg Chan.st (Dev.chan_setChan_same ..)
  have hraised : (d.cleanDropped n).Raised (488 + n) := Dev.fault_raised _ _
  rw [Dev.copiesDropped]
  generalize (d.cleanDropped n).cache.versions.foldl (fun d v => d.splitCopy n v) (d.cleanDropped n) = e at *
  obtain ⟨htrimq, htrimd, htrimv⟩ := e.trimPools_dropsVersions
  refine ⟨?_, hraised.of_faultQ (htrimq.trans hsplitq), fun v hv => ⟨hclean v (htrimv hv), hclear v (htrimv hv)⟩⟩
  rw [Dev.chan_congr (htrimd.trans hsplitd), hchan]

end Quarantine

/-! ### The end of the rescue (R312 steps 2 to 5) -/

section Rescue
variable {d : Dev} {n : Nat} {bad badPages : List Nat}

/-- The versions that have no other copy than the one in channel `n`. -/
def Dev.toRescue (d : Dev) (n : Nat) : List Version := (d.versIn n).filter fun v => frameChan v.frame = n ∧ v.copy.isNone

theorem Dev.rescueComplete_waits (h : (d.chan n).st ≠ 4 ∨ d.inVault = true ∨ (d.chansIn.map d.poolFree).sum < (d.toRescue n).length) :
    d.rescueComplete n bad badPages = d := if_pos (.inr h)

/-- The versions of channel `n` rescued. -/
def Dev.versionsRescued (d : Dev) (n : Nat) (bad : List Nat) : Dev := (d.versIn n).foldl (fun d v => d.rescueOne n bad v) d

/-- The pages of channel `n` moved, or dropped where they read uncorrectable. -/
def Dev.pagesRescued (d : Dev) (n : Nat) (badPages : List Nat) : Dev :=
  (d.mem.pages.filter fun p => chanOf (p.phys * 4096) = n).foldl (fun d p => if badPages.contains p.phys then d.dropPage p else d.movePage p) d

/-- Channel `n` QUARANTINED, with no translation left in a cache. -/
def Dev.channelGone (d : Dev) (n : Nat) : Dev := (d.setChan n { d.chan n with st := 5 }).tlbEmpty

theorem Dev.channelGone_result (d : Dev) (n : Nat) : ((d.channelGone n).chan n).st = 5 ∧ (d.channelGone n).mem.tlb = [] :=
  ⟨congrArg Chan.st (Dev.chan_setChan_same ..), rfl⟩

/-- The rescue's end: versions and pages leave the channel, and mirror, ceiling, hosts and I/O are judged anew. -/
theorem Dev.rescueComplete_ends (hn : n < 8) (hst : (d.chan n).st = 4) (hv : d.inVault = false)
    (hroom : (d.toRescue n).length ≤ (d.chansIn.map d.poolFree).sum) {g : Dev}
    (hg : g = (((d.versionsRescued n bad).pagesRescued n badPages).channelGone n).mirrorCheck.recompute) : d.rescueComplete n bad badPages =
      ((g.liveInsts.filter fun i => g.instState i = 1).foldl (fun d i => d.smartWarn i 4) g).rejudge.throughKick := by
  subst hg
  refine if_neg ?_
  rintro (h | h | h | h)
  · omega
  · exact h hst
  · simp [hv] at h
  · exact absurd hroom (Nat.not_le.2 h)

end Rescue

end Sys2Proof.Machine
end

section
open Sys2Proof Sys2Proof.Machine

/-- Settles O58: an opportunity by what it goes to, and each other command by the lemma of what it does to its channel, its subchannels or its versions. -/
theorem dramChannelsFollowTheirRules : Obligations.DramChannelsFollowTheirRules := by
  unfold Obligations.DramChannelsFollowTheirRules
  rintro s _ hp rfl
  refine ⟨fun i held passed must res hi x f hx hf => ⟨fun h => ?idle, fun hst hdom hrun => ?opportunity⟩, ⟨_, exec_activateTableClear hp, s.dev.actsClear_acts⟩,
    fun n hn t c hc => ⟨fun h => ?noReading, fun hserv h3 => ?reading⟩, fun i rank hi => ⟨fun h => ?noAlert, fun hserv hrun => ⟨fun h => ?replays, fun h => ?stops⟩⟩,
    fun n hn => ⟨fun h => ?asleep, fun hst hdom => ?exits⟩,
    fun n outcome t hn c hc => ⟨fun h => ?notDue, fun hst hv hdom hdue => ⟨fun hout => ?trains, fun hout => ?untrained⟩⟩,
    fun ht n hn c hc => ⟨fun h => ?refused, fun hlast => ?last, fun h0 h4 h5 => ⟨?retrain, fun hmore hpop => ?quarantine⟩⟩,
    fun n bad badPages hn => ⟨fun h => ?noRescue, fun hst hv => ⟨fun hroom => ?waits, fun hroom => ?rescued⟩⟩⟩
  case idle =>
    subst hx
    rw [exec_dramCommandIssue hp hi, Dev.dramCommand_idle h]
  case opportunity =>
    subst hx
    obtain rfl : f = s.dev.retryAged i passed := hf
    refine ⟨fun hfull => ?full, fun hroom => ⟨fun r b hmust hclosed => ?refresh, fun r l hmust hdue hheld hrow => ?neighbour,
      fun hmust hdue => ⟨fun hpick => ?nothing, fun q hpick => ?picked⟩⟩⟩
    case full => rw [exec_dramCommandIssue hp hi, Dev.dramCommand_full hi hst hdom hrun hfull]
    case refresh =>
      subst hmust
      refine ⟨(s.dev.retryAged i passed).emit .dram [i / 2, i % 2, 6, r * 32 + b % 4, 0, 0], ?_, rfl⟩
      rw [exec_dramCommandIssue hp hi, Dev.dramCommand_refresh hi hst hdom hrun hroom, Dev.dramDeadline_closed (by simpa using hclosed)]
    case neighbour =>
      subst hmust
      refine ⟨_, ?_, (s.dev.retryAged i passed).neighbourRefreshed_result i r l⟩
      rw [exec_dramCommandIssue hp hi, Dev.dramCommand_next hi hst hdom hrun hroom, Dev.dramNeighbour_due (by simpa using hdue) hheld (by simpa using hrow),
        Option.getD_some]
    case nothing =>
      subst hmust
      rw [exec_dramCommandIssue hp hi, Dev.dramCommand_next hi hst hdom hrun hroom, Dev.dramNeighbour_none (by simpa using hdue), hpick, Option.getD_none,
        Option.elim_none]
    case picked =>
      subst hmust
      have hexec : exec (.dramCommandIssue i held passed none res) s = .next (s.leaves ((s.dev.retryAged i passed).dramIssue i q res)) := by
        rw [exec_dramCommandIssue hp hi, Dev.dramCommand_next hi hst hdom hrun hroom, Dev.dramNeighbour_none (by simpa using hdue), hpick, Option.getD_none,
          Option.elim_some]
      have haged := s.dev.retryAged_queues i passed
      obtain ⟨hmem, hheld, hleast⟩ := Dev.dramPick_spec hpick
      rw [haged.reads] at hleast
      rw [haged.reads, haged.writes] at hmem
      rw [← s.dev.retryAged_bank i passed]
      refine ⟨hmem, hheld, hleast, fun hrow => ?activates, fun r hrow hne => ?precharges, fun hrow => ?column⟩
      case activates =>
        obtain ⟨hopen, hout, hqueues⟩ := (s.dev.retryAged i passed).rowOpened_result i q
        exact ⟨_, by rw [hexec, Dev.dramIssue_activates hrow], hopen, hout, (haged.trans hqueues).reads, (haged.trans hqueues).writes⟩
      case precharges =>
        obtain ⟨hclosed, hout, hqueues⟩ := (s.dev.retryAged i passed).bankClosed_result i q.key
        exact ⟨_, by rw [hexec, Dev.dramIssue_precharges hrow hne], hclosed, hout, (haged.trans hqueues).reads⟩
      case column =>
        obtain ⟨hreads, hwrites⟩ := ((s.dev.retryAged i passed).subch i).columnDone_queues ((s.dev.retryAged i passed).g oPagePolicy) q
        refine ⟨((s.dev.retryAged i passed).columnSent i q).columnEnds i q res, by rw [hexec, Dev.dramIssue_column hrow, Dev.dramColumn_eq], ?_, ?_, ?_, ?_⟩
        · rw [Dev.columnEnds_subch, hreads, haged.reads]
        · rw [Dev.columnEnds_subch, hwrites, haged.writes]
        · rintro hread rfl
          exact Dev.columnEnds_bad hread _ i
        · rintro hread rfl
          exact Dev.columnEnds_corrected hread _ i
  case noReading => subst hc; rw [exec_mr4Read hp hn, Dev.mr4Read_ignored h]
  case reading => subst hc; exact ⟨_, exec_mr4Read hp hn t, Dev.mr4Read_result hn hserv h3⟩
  case noAlert => rw [exec_dramAlert hp hi, Dev.dramAlert_ignored h]
  case replays => exact ⟨_, exec_dramAlert hp hi rank, Dev.dramAlert_result hi hserv hrun h⟩
  case stops => exact ⟨_, by rw [exec_dramAlert hp hi, Dev.dramAlert_replays hi hserv hrun], Dev.replay_stops _ _ _ h⟩
  case asleep => rw [exec_selfRefreshExit hp hn, Dev.refreshExit_ignored h]
  case exits =>
    obtain ⟨hserves, hsince, hout, hsubs⟩ := s.dev.refreshExited_result n
    refine ⟨s.dev.refreshExited n, by rw [exec_selfRefreshExit hp hn, Dev.refreshExit_exits hn hst hdom], hserves, hsince, hout, fun t ht => ?_⟩
    simp only [hsubs]
    exact ⟨Dev.actsForgotten_long ht, fun hshort i => by rw [Dev.actsForgotten_short ht hshort]⟩
  case notDue => subst hc; rw [exec_retrainDue hp hn, Dev.retrainDue_ignored h]
  case trains =>
    subst hc
    obtain ⟨hchan, hcount, hraises⟩ := s.dev.trainingEnds_result n outcome t
    refine ⟨s.dev.trainingEnds n outcome t, by rw [exec_retrainDue hp hn, Dev.retrainDue_eq hn hst hv hdom hdue, if_neg (by omega)], ?_⟩
    beta_reduce
    rw [hchan]
    exact ⟨rfl, rfl, rfl, hst, hcount, hraises⟩
  case untrained => subst hc; rw [exec_retrainDue hp hn, Dev.retrainDue_eq hn hst hv hdom hdue, if_pos hout]
  case refused =>
    subst hc
    rw [exec_channelQuarantine hp hn, exec_channelRetrain hp hn, Dev.channelCommand_refused hn (.inl rfl) ht.openNow ht.present hp (.inl h),
      Dev.channelCommand_refused hn (.inr rfl) ht.openNow ht.present hp (.inl h)]
    exact ⟨rfl, rfl⟩
  case last => rw [exec_channelQuarantine hp hn, Dev.channelCommand_refused hn (.inl rfl) ht.openNow ht.present hp (.inr ⟨rfl, hlast⟩)]
  case retrain =>
    subst hc
    rw [exec_channelRetrain hp hn, Dev.channelCommand_accepted hn (.inr rfl) ht.openNow ht.present (by simp [h0, h4, h5])]
    rfl
  case quarantine =>
    subst hc
    obtain ⟨hchan, hraised, hvers⟩ := s.dev.copiesDropped_result n
    refine ⟨s.dev.copiesDropped n, _, rfl, ?_, hchan, hraised, hvers⟩
    rw [exec_channelQuarantine hp hn, Dev.channelCommand_accepted hn (.inl rfl) ht.openNow ht.present (by simp [h0, h4, h5, hmore]), if_pos rfl,
      Dev.quarantine_begins hpop h4 h5 (Bool.or_eq_false_iff.1 ht.openNow).1]
  case noRescue => rw [exec_quarantineRescueComplete hp hn, Dev.rescueComplete_waits (h.imp_right .inl)]
  case waits => rw [exec_quarantineRescueComplete hp hn, Dev.rescueComplete_waits (.inr (.inr hroom))]
  case rescued =>
    obtain ⟨hchan, htlb⟩ := ((s.dev.versionsRescued n bad).pagesRescued n badPages).channelGone_result n
    exact ⟨_, _, hchan, htlb, rfl, by rw [exec_quarantineRescueComplete hp hn, Dev.rescueComplete_ends hn hst hv hroom rfl]⟩

end

section
/-! PROOFS. Commands and the auxiliary input (R329, R420, R424): all but two commands act only while it is present. -/
namespace Sys2Proof.Machine
open Sys2Proof

/-- Every command but the auxiliary input's return and the watch over VBAT stands behind the gate of the auxiliary input. -/
theorem exec_gated (i : Instr) (s : State) (hreset : ∀ k e a m t, i ≠ .powerOnReset k e a m t) (hlow : i ≠ .vbatLowLatch) :
    ∃ ok f, exec i s = act ok s f := by
  cases i
  case powerOnReset => exact absurd rfl (hreset _ _ _ _ _)
  case vbatLowLatch => exact absurd rfl hlow
  all_goals
    dsimp only [exec]
    exact ⟨_, _, rfl⟩

end Sys2Proof.Machine
end

section
open Sys2Proof Sys2Proof.Machine

/-- Settles O5: a command behind the gate changes nothing without the auxiliary input. -/
theorem nothingActsWithoutTheAuxiliaryInput : Obligations.NothingActsWithoutTheAuxiliaryInput := by
  intro i s haux hreset hlow
  obtain ⟨ok, f, hgated⟩ := exec_gated i s hreset hlow
  rw [hgated]
  exact act_off ok s f haux

end

section
/-! PROOFS. Rails and their sequences (14_power_supervision.md): what a rail that moves, the power-up and a collapse write, and what they leave alone. -/
namespace Sys2Proof.Machine
open Sys2Proof

/-! ### Objects that an operation leaves alone -/

/-- Of the dictionary's objects, `e` has been given other values than `d` at most in `os`. -/
def Dev.WritesOnly (d e : Dev) (os : Set Nat) : Prop := ∀ o < 0x1000000, o ∉ os → e.g o = d.g o

theorem Dev.WritesOnly.refl (d : Dev) (os : Set Nat) : d.WritesOnly d os := fun _ _ _ => rfl

theorem Dev.WritesOnly.of_dict {d e : Dev} (h : e.dict = d.dict) (os : Set Nat) : d.WritesOnly e os := fun o _ _ => Dev.g_of_dict h o

theorem Dev.WritesOnly.trans {d e f : Dev} {os : Set Nat} (h : d.WritesOnly e os) (h' : e.WritesOnly f os) : d.WritesOnly f os :=
  fun o hlt ho => (h' o hlt ho).trans (h o hlt ho)

theorem Dev.WritesOnly.mono {d e : Dev} {os os' : Set Nat} (h : d.WritesOnly e os) (hs : os ⊆ os') : d.WritesOnly e os' :=
  fun o hlt ho => h o hlt fun hin => ho (hs hin)

theorem Dev.WritesOnly.ite {p : Prop} [Decidable p] {d e f : Dev} {os : Set Nat} (he : d.WritesOnly e os) (hf : d.WritesOnly f os) :
    d.WritesOnly (if p then e else f) os := by
  split
  · exact he
  · exact hf

/-- A further step that is taken in one case only. -/
theorem Dev.WritesOnly.andIf {p : Prop} [Decidable p] {d e f : Dev} {os : Set Nat} (he : d.WritesOnly e os) (hf : e.WritesOnly f os) :
    d.WritesOnly (if p then f else e) os := .ite (he.trans hf) he

theorem Dev.WritesOnly.foldl {α : Type} {f : Dev → α → Dev} {os : Set Nat} (l : List α) (h : ∀ (d : Dev), ∀ a ∈ l, d.WritesOnly (f d a) os) (d : Dev) :
    d.WritesOnly (l.foldl f d) os :=
  List.foldlRecOn l f (motive := fun e : Dev => d.WritesOnly e os) (.refl d os) fun _ he a ha => he.trans (h _ a ha)

/-- A write of an object leaves every other one alone. -/
theorem Dev.s_writesOnly (d : Dev) {o : Nat} (v : Nat) (hlt : o < 0x1000000) : d.WritesOnly (d.s o v) {o} :=
  fun _ hlt' ho' => Dev.g_s_ne _ _ _ _ fun hk => ho' ((dkey_inj hlt' hlt).1 hk).2

theorem Dev.s_writes {d : Dev} {o : Nat} {os : Set Nat} (v : Nat) (hlt : o < 0x1000000) (ho : o ∈ os) : d.WritesOnly (d.s o v) os :=
  (d.s_writesOnly v hlt).mono (Set.singleton_subset_iff.2 ho)

theorem Dev.WritesOnly.sup {d e : Dev} {os : Set Nat} (h : d.WritesOnly e os) (ho : oSupervisorState ∉ os) : e.sup = d.sup := h _ (by decide) ho

theorem oRail_lt {o r : Nat} (ho : o < 0x300000) (hr : r < 24) : oRail o r < 0x1000000 := by unfold oRail; omega

theorem Dev.WritesOnly.gr {d e : Dev} {os : Set Nat} {o r : Nat} (h : d.WritesOnly e os) (hlt : o < 0x300000) (hr : r < 24) (ho : oRail o r ∉ os) :
    e.gr o r = d.gr o r := h _ (oRail_lt hlt hr) ho

theorem Dev.WritesOnly.rst {d e : Dev} {os : Set Nat} {r : Nat} (h : d.WritesOnly e os) (hr : r < 24) (ho : oRail oRailState r ∉ os) :
    e.rst r = d.rst r := h.gr (by decide) hr ho

/-- Objects of a rail are told apart by the low byte of their keys, and those of one kind by their rail. -/
theorem oRail_ne {o o' : Nat} (r r' : Nat) (h : o % 0x100 ≠ o' % 0x100) : oRail o r ≠ oRail o' r' := by unfold oRail; omega

theorem oRail_inj {o r r' : Nat} : oRail o r = oRail o r' ↔ r = r' := by unfold oRail; omega

/-- A write of one object of a rail leaves the rails' objects of another kind alone. -/
theorem Dev.gr_sr_ne (d : Dev) {o o' r r' : Nat} (v : Nat) (hlt : o < 0x300000) (hlt' : o' < 0x300000) (hr : r < 24) (hr' : r' < 24)
    (h : o' % 0x100 ≠ o % 0x100) : (d.sr o r v).gr o' r' = d.gr o' r' :=
  (d.s_writesOnly v (oRail_lt hlt hr)).gr hlt' hr' (oRail_ne _ _ h)

/-! ### A rail that moves (Table 14.3) -/

/-- Of a rail that moves, its RailState and its debounce count are written; records, a live source and a regulator's command aside, all else stays. -/
theorem Dev.setRst_moves {d : Dev} {r t : Nat} (h : d.rst r ≠ t) : (d.setRst r t).dict = (d.sr oRailState r t).dict ∧ (d.setRst r t).aon = d.aon ∧
    (d.setRst r t).power = (d.setRail r { d.rail r with cnt := 0 }).power := by
  unfold Dev.setRst
  dsimp only
  rw [if_neg h]
  generalize hf : ((d.sr oRailState r t).setRail r _).record 0x100 0 uSup r (d.rst r) t (d.gr oRailVoltage r) = f
  have hset : f.dict = (d.sr oRailState r t).dict ∧ f.aon = d.aon ∧ f.power = (d.setRail r { d.rail r with cnt := 0 }).power := by
    rw [← hf]
    exact ⟨Dev.record_dict .., Dev.record_aon .., Dev.record_power ..⟩
  split_ifs <;> exact hset

theorem Dev.setRst_stays {d : Dev} {r t : Nat} (h : d.rst r = t) : d.setRst r t = d := if_pos h

@[simp] theorem Dev.setRst_rst_same (d : Dev) (r t : Nat) : (d.setRst r t).rst r = t := by
  by_cases h : d.rst r = t
  · rw [Dev.setRst_stays h, h]
  · exact (Dev.g_of_dict (Dev.setRst_moves h).1 _).trans (Dev.g_s_same ..)

theorem Dev.setRst_writes (d : Dev) {r : Nat} (t : Nat) {os : Set Nat} (hr : r < 24) (ho : oRail oRailState r ∈ os) : d.WritesOnly (d.setRst r t) os := by
  by_cases h : d.rst r = t
  · rw [Dev.setRst_stays h]
    exact .refl d os
  · intro o hlt hno
    rw [Dev.g_of_dict (Dev.setRst_moves h).1]
    exact Dev.s_writes t (oRail_lt (by decide) hr) ho o hlt hno

/-- Another rail stays in its state. -/
theorem Dev.setRst_rst_ne (d : Dev) {r w : Nat} (t : Nat) (hr : r < 24) (hw : w < 24) (h : w ≠ r) : (d.setRst r t).rst w = d.rst w :=
  (d.setRst_writes t hr (Set.mem_singleton _)).rst hw (by simpa [oRail_inj] using h)

@[simp] theorem Dev.setRst_aon (d : Dev) (r t : Nat) : (d.setRst r t).aon = d.aon := by
  by_cases h : d.rst r = t
  · rw [Dev.setRst_stays h]
  · exact (Dev.setRst_moves h).2.1

@[simp] theorem Dev.setRst_faultQ (d : Dev) (r t : Nat) : (d.setRst r t).faultQ = d.faultQ := (d.setRst_keepsPlan r t).faultQ

/-- Of the supply's sequencing, the rails alone. -/
theorem Dev.setRst_power (d : Dev) (r t : Nat) : ∃ rails, (d.setRst r t).power = { d.power with rails := rails } := by
  by_cases h : d.rst r = t
  · exact ⟨d.power.rails, by rw [Dev.setRst_stays h]⟩
  · exact ⟨_, (Dev.setRst_moves h).2.2⟩

/-- A rail whose enable is released. -/
theorem Dev.releaseRail_en (d : Dev) (r w : Nat) : ((d.releaseRail r).rail w).en = if w = r then false else (d.rail w).en := by
  rw [Dev.releaseRail, Dev.rail_setRail]
  split <;> rfl

/-- A rail that is released and takes a new state. -/
theorem Dev.released_result (d : Dev) (r t : Nat) : ((d.releaseRail r).setRst r t).rst r = t ∧ (((d.releaseRail r).setRst r t).rail r).en = false :=
  ⟨Dev.setRst_rst_same .., by rw [Dev.setRst_en, Dev.releaseRail_en, if_pos rfl]⟩

theorem Dev.released_writes (d : Dev) {r : Nat} (t : Nat) {os : Set Nat} (hr : r < 24) (ho : oRail oRailState r ∈ os) :
    d.WritesOnly ((d.releaseRail r).setRst r t) os := (WritesOnly.of_dict (e := d.releaseRail r) rfl os).trans (Dev.setRst_writes _ t hr ho)

/-- A released rail leaves every other one alone. -/
theorem Dev.released_other (d : Dev) {r w : Nat} (t : Nat) (hr : r < 24) (hw : w < 24) (h : w ≠ r) :
    ((d.releaseRail r).setRst r t).rst w = d.rst w ∧ (((d.releaseRail r).setRst r t).rail w).en = (d.rail w).en :=
  ⟨(d.released_writes t hr (Set.mem_singleton _)).rst hw (by simpa [oRail_inj] using h), by rw [Dev.setRst_en, Dev.releaseRail_en, if_neg h]⟩

theorem Dev.railDesc_lt {d : Dev} {r c : Nat} (h : c ∈ d.railDesc r) : c < 24 := by
  have := Dev.enRails_lt (List.mem_of_mem_filter h)
  omega

/-- Of the rails `l`, each that reads `a` takes the state `t`. -/
def Dev.moveFrom (d : Dev) (l : List Nat) (a t : Nat) : Dev := l.foldl (fun d c => if d.rst c = a then d.setRst c t else d) d

/-- What waits below a rail is BLOCKED. -/
theorem Dev.blockBelow_eq (d : Dev) (r : Nat) : d.blockBelow r = d.moveFrom (d.railDesc r) 0 6 := rfl

/-- Moves of rails that read `a` leave a rail that reads otherwise, every enable, and the occurrences. -/
theorem Dev.moveFrom_keeps {d e : Dev} {l : List Nat} {a t r : Nat} (he : d.moveFrom l a t = e) (hl : ∀ c ∈ l, c < 24) (hr : r < 24) (hst : d.rst r ≠ a) :
    e.rst r = d.rst r ∧ (∀ w, (e.rail w).en = (d.rail w).en) ∧ e.faultQ = d.faultQ ∧ e.aon = d.aon := by
  rw [← he]
  refine List.foldlRecOn l _ (motive := fun e : Dev => e.rst r = d.rst r ∧ (∀ w, (e.rail w).en = (d.rail w).en) ∧ e.faultQ = d.faultQ ∧ e.aon = d.aon)
    ⟨rfl, fun _ => rfl, rfl, rfl⟩ fun e he c hc => ?_
  obtain ⟨hrst, hen, hq, haon⟩ := he
  split
  next hmoves =>
    have hother : r ≠ c := fun h => hst (by rw [← hrst, h, hmoves])
    exact ⟨(e.setRst_rst_ne t (hl c hc) hr hother).trans hrst, fun w => (e.setRst_en c t w).trans (hen w), by rw [e.setRst_faultQ, hq], by rw [e.setRst_aon, haon]⟩
  next => exact ⟨hrst, hen, hq, haon⟩

/-! ### The power-up sequence (R324, R325) -/

theorem Dev.notify_power (d : Dev) (kind code unit : Nat) : (d.notify kind code unit).power = d.power := by
  unfold Dev.notify
  refine List.foldlRecOn _ _ (motive := fun e : Dev => e.power = d.power) rfl fun e he i _ => ?_
  split
  · unfold Dev.notifyTo
    dsimp only
    split
    · exact he
    · exact he
  · exact he

theorem Dev.nextImage_power (d : Dev) : d.nextImage.power = d.power := rfl

theorem Dev.setVaultState_power (d : Dev) (v : Nat) : (d.setVaultState v).power = d.power := by
  have hset : (((d.s oVaultState v).record 0x501 0 uChip d.vst v (byteOf (d.g oLastOutage) 2) 0).notify 0x03 v uChip).power = d.power := by
    rw [Dev.notify_power, Dev.record_power]
    rfl
  unfold Dev.setVaultState
  dsimp only
  split
  · rfl
  · split
    · rw [Dev.nextImage_power, hset]
    · exact hset

/-- The objects of the supply that a sequence writes as it settles. -/
def settledObjects : Set Nat := {oSupervisorState, oPowerGoodTick, oVaultState}

theorem railObject_not_settled {o r : Nat} (ho : 0x204000 ≤ o ∧ o < 0x204100) (hr : r < 24) : oRail o r ∉ settledObjects := by
  simp only [settledObjects, Set.mem_insert_iff, Set.mem_singleton_iff, oRail, oSupervisorState, oPowerGoodTick, oVaultState]
  omega

/-- A sequence that has not settled goes on; one that has is over, and the supervisor is up or, with a required rail missing, INCOMPLETE. -/
theorem Dev.settleUp_cases (d : Dev) : d.settleUp = d ∨ (d.WritesOnly d.settleUp settledObjects ∧ d.settleUp.power = { d.power with seqUp := false } ∧
    (d.settleUp.sup = 2 ∨ d.settleUp.sup = 3)) := by
  unfold Dev.settleUp
  split
  case isFalse => exact .inl rfl
  case isTrue =>
    refine .inr ?_
    dsimp only
    generalize hf : ({ d with power := { d.power with seqUp := false } } : Dev) = f
    have hfrom : d.WritesOnly f settledObjects := by rw [← hf]; exact .of_dict rfl _
    have hpower : f.power = { d.power with seqUp := false } := by rw [← hf]
    split
    case isTrue hup => exact ⟨hfrom, hpower, .inl hup⟩
    case isFalse =>
      have hsup : ∀ v, f.WritesOnly (f.s oSupervisorState v) settledObjects := fun v => Dev.s_writes v (by decide) (.inl rfl)
      split
      case isFalse => exact ⟨hfrom.trans (hsup 3), hpower, .inr (Dev.g_s_same ..)⟩
      case isTrue =>
        generalize hg : (f.s oSupervisorState 2).s oPowerGoodTick f.now = g
        have hgood : f.WritesOnly g settledObjects := by rw [← hg]; exact (hsup 2).trans (Dev.s_writes _ (by decide) (.inr (.inl rfl)))
        have hgsup : g.sup = 2 := by
          rw [← hg]
          exact ((Dev.s_writesOnly (f.s oSupervisorState 2) f.now (by decide)).sup (by decide)).trans (Dev.g_s_same ..)
        have hgpower : g.power = { d.power with seqUp := false } := by rw [← hg]; exact hpower
        split
        case isFalse => exact ⟨hfrom.trans hgood, hgpower, .inl hgsup⟩
        case isTrue =>
          refine ⟨(hfrom.trans hgood).trans fun o _ ho => g.setVaultState_g 0x0A fun h => ho (.inr (.inr h)), (g.setVaultState_power _).trans hgpower, .inl ?_⟩
          exact (g.setVaultState_g 0x0A (by decide)).trans hgsup

theorem Dev.settleUp_writes (d : Dev) : d.WritesOnly d.settleUp settledObjects := by
  obtain h | ⟨h, -, -⟩ := d.settleUp_cases
  · rw [h]
    exact .refl d _
  · exact h

theorem Dev.settleUp_rail (d : Dev) (r : Nat) : d.settleUp.rail r = d.rail r := by
  obtain h | ⟨-, h, -⟩ := d.settleUp_cases
  · rw [h]
  · rw [Dev.rail, h, Dev.rail]

theorem Dev.settleUp_gr (d : Dev) {o r : Nat} (ho : 0x204000 ≤ o ∧ o < 0x204100) (hr : r < 24) : d.settleUp.gr o r = d.gr o r :=
  d.settleUp_writes.gr (by omega) hr (railObject_not_settled ho hr)

/-- The power-up begins at the present tick, with the supervisor's state as it was. -/
theorem Dev.beginUp_result (d : Dev) : d.beginUp.power.s0 = d.now ∧ d.beginUp.power.seqUp = true ∧ d.beginUp.power.shortPress = d.power.shortPress ∧
    d.beginUp.sup = d.sup := by
  unfold Dev.beginUp
  refine List.foldlRecOn d.enRails _ (motive := fun e : Dev => e.power.s0 = d.now ∧ e.power.seqUp = true ∧ e.power.shortPress = d.power.shortPress ∧ e.sup = d.sup)
    ⟨rfl, rfl, rfl, rfl⟩ fun e he r hr => ?_
  split
  · exact he
  · obtain ⟨rails, hpower⟩ := (e.releaseRail r).setRst_power r 0
    have hlt : r < 24 := by have := Dev.enRails_lt hr; omega
    have hsup : ((e.releaseRail r).setRst r 0).sup = e.sup :=
      (e.released_writes 0 hlt (Set.mem_singleton _)).sup fun h =>
        railObject_not_settled (o := oRailState) (by decide) hlt (.inl (Set.mem_singleton_iff.1 h).symm)
    rw [hpower, hsup]
    exact he

end Sys2Proof.Machine
end

section
/-! PROOFS. The power-up of the supply, samples and discharges of its rails (R317, R319, R323 to R325, R327). -/
namespace Sys2Proof.Machine
open Sys2Proof

/-! ### The commands, at a powered device -/

section Commands
variable {s : State} (h : s.Powered)
include h

theorem exec_powerUpStart : exec .powerUpStart s = .next (s.leaves s.dev.powerUp) := act_on s Dev.powerUp h

theorem exec_railEnable {r : Nat} (hr : r < 16) : exec (.railEnable r) s = .next (s.leaves (s.dev.railEnable r)) :=
  act_if _ s (Dev.railEnable · r) h (by simpa using hr)

theorem exec_railStartFail {r : Nat} (hr : r < 16) : exec (.railStartFail r) s = .next (s.leaves (s.dev.railStartFail r)) :=
  act_if _ s (Dev.railStartFail · r) h (by simpa using hr)

theorem exec_adcSample {r code : Nat} (hr : r < 24) (hcode : code < 4096) : exec (.adcSample r code) s = .next (s.leaves (s.dev.adcSample r code)) :=
  act_if _ s (Dev.adcSample · r code) h (by simpa using ⟨hr, hcode⟩)

theorem exec_railDischargeTimeout {r : Nat} (hr : r < 16) : exec (.railDischargeTimeout r) s = .next (s.leaves (s.dev.dischargeTimeout r)) :=
  act_if _ s (Dev.dischargeTimeout · r) h (by simpa using hr)

end Commands

/-! ### The power-up begins (R323) -/

/-- The sequence that begins is under way with the supervisor RISING, or has settled at once. -/
theorem Dev.beginUp_settles {d e : Dev} (he : d.beginUp.settleUp = e) (h : d.sup = 1) : e.power.s0 = d.now ∧ e.power.shortPress = d.power.shortPress ∧
    (if e.power.seqUp then e.sup = 1 else e.sup = 2 ∨ e.sup = 3) := by
  obtain ⟨hs0, hup, hpress, hsup⟩ := d.beginUp_result
  obtain hgoes | ⟨-, hpower, hends⟩ := d.beginUp.settleUp_cases
  · rw [← he, hgoes, if_pos hup]
    exact ⟨hs0, hpress, hsup.trans h⟩
  · rw [← he, hpower, if_neg Bool.false_ne_true]
    exact ⟨hs0, hpress, hends⟩

/-- In STANDBY, with the start conditions of R323. -/
theorem Dev.powerUp_begins {d e : Dev} (he : d.powerUp = e) (haux : d.aon.auxUp = true) (hon : d.aon.powered = true) (hfw : d.aon.fwHalt = false)
    (hwd : d.aon.wdRestart = false) (hret : d.doms.supRet = false) (hsup : d.sup = 0)
    (hwhy : (d.g oAutoPowerOn = 1 ∧ d.power.endedStandby = false) ∨ d.power.shortPress = true) :
    e.power.s0 = d.now ∧ e.power.shortPress = false ∧ (if e.power.seqUp then e.sup = 1 else e.sup = 2 ∨ e.sup = 3) := by
  rw [Dev.powerUp, if_neg (by simp [hfw, hwd]), if_pos hon, Dev.powerUpStart, if_pos (by simpa [hsup, haux, hret] using hwhy)] at he
  exact Dev.beginUp_settles he (Dev.g_s_same ..)

/-! ### One rail of the sequence (R324) -/

/-- A rail whose turn it is. -/
theorem Dev.railEnable_ramps {d : Dev} {r : Nat} (hup : d.power.seqUp = true) (hen : r ∈ d.enRails) (hoff : d.rst r = 0)
    (hparents : (d.parentsR r).all d.parentGood = true) : (d.railEnable r).rst r = 1 ∧ ((d.railEnable r).rail r).en = true := by
  rw [Dev.railEnable, if_pos ⟨hup, List.contains_iff_mem.2 hen, hoff, hparents⟩]
  exact ⟨(Dev.g_of_dict rfl _).trans (Dev.setRst_rst_same ..), by rw [Dev.rail_setRail, if_pos rfl]⟩

/-- A rail that does not ramp in time: its enable is released, and what waits below it is BLOCKED. -/
theorem Dev.railStartFail_fails {d : Dev} {r : Nat} (hr : r < 16) (hramp : d.rst r = 1) :
    (d.railStartFail r).rst r = 5 ∧ ((d.railStartFail r).rail r).en = false ∧ (d.railStartFail r).Raised (576 + r) := by
  have hlt : r < 24 := by omega
  rw [Dev.railStartFail, if_pos ⟨hr, hramp⟩]
  dsimp only
  obtain ⟨hfailed, hreleased⟩ := d.released_result r 5
  generalize (d.releaseRail r).setRst r 5 = f at hfailed hreleased ⊢
  generalize hg : Dev.raise _ _ = g
  have hgst : g.rst r = 5 := by
    rw [← hg]
    exact (f.gr_sr_ne (o := oStartFailures) (o' := oRailState) _ (by decide) (by decide) hlt hlt (by decide)).trans hfailed
  have hgen : (g.rail r).en = false := by rw [← hg]; exact hreleased
  have hraised : g.Raised (576 + r) := by
    rw [← hg]
    exact ⟨_, List.mem_append_right _ (List.mem_singleton_self _), rfl⟩
  rw [Dev.blockBelow_eq]
  generalize hh : g.moveFrom (g.railDesc r) 0 6 = h
  obtain ⟨hst, hen, hq, -⟩ := Dev.moveFrom_keeps hh (fun c hc => Dev.railDesc_lt hc) hlt (by rw [hgst]; decide)
  exact ⟨(h.settleUp_gr (by decide) hlt).trans (hst.trans hgst), by rw [Dev.settleUp_rail, hen, hgen], hraised.of_faultQ (h.settleUp_keepsPlan.faultQ.trans hq)⟩

/-! ### Samples (R317, R319) -/

section Sample
variable {d : Dev} {r code : Nat} (hr : r < 24) (hcode : code < 4096) (hfree : d.adcHeld r = false)
include hr hcode hfree

/-- What a sample that the ADC takes does with its voltage. -/
theorem Dev.adcSample_eq {v n t : Nat} {d1 : Dev} (hv : v = code * d.ra oSenseScale r / 4095) (hd1 : d1 = d.sr oRailVoltage r (min 65535 v))
    (ht : t = d1.supports r v) (hn : n = if (d.rail r).cand = t then (d.rail r).cnt + 1 else 1) : d.adcSample r code =
      if t = d.rst r then d1.setRail r { d.rail r with cnt := 0 }
      else if n < d.gr oDebounce r then d1.setRail r { d.rail r with cand := t, cnt := n }
      else if d.rst r = 7 then (d1.setRail r { d.rail r with cand := t, cnt := n }).discharged r
      else (d1.setRail r { d.rail r with cand := t, cnt := n }).railChange r t v := by
  have hst : d1.rst r = d.rst r := by rw [hd1]; exact d.gr_sr_ne _ (by decide) (by decide) hr hr (by decide)
  have hdebounce : d1.gr oDebounce r = d.gr oDebounce r := by rw [hd1]; exact d.gr_sr_ne _ (by decide) (by decide) hr hr (by decide)
  have hrail : d1.rail r = d.rail r := by rw [hd1]; rfl
  have hset : ∀ x, (d1.setRail r x).rst r = d1.rst r ∧ (d1.setRail r x).gr oDebounce r = d1.gr oDebounce r := fun x => ⟨rfl, rfl⟩
  rw [Dev.adcSample, if_neg (by simp [hfree]; omega)]
  dsimp only
  rw [← hv, ← hd1, hrail, ← ht, ← hn, (hset _).1, (hset _).2, hst, hdebounce]

end Sample

/-- A change of a RAMPING rail to GOOD settles at most the sequence. -/
theorem Dev.railChange_good {d : Dev} {r : Nat} (hr : r < 24) (hramp : d.rst r = 1) (v : Nat) :
    (d.railChange r 2 v).rst r = 2 ∧ (d.railChange r 2 v).gr oRailVoltage r = d.gr oRailVoltage r := by
  have hchange : d.railChange r 2 v = (d.setRst r 2).settleUp := by
    unfold Dev.railChange
    exact (if_pos rfl).trans (if_pos hramp)
  rw [hchange]
  exact ⟨((d.setRst r 2).settleUp_gr (by decide) hr).trans (Dev.setRst_rst_same ..),
    ((d.setRst r 2).settleUp_gr (by decide) hr).trans ((d.setRst_writes 2 hr (Set.mem_singleton _)).gr (by decide) hr (oRail_ne _ _ (by decide)))⟩

section SampleResult
variable {d d1 e : Dev} {r code v n t : Nat} (he : d.adcSample r code = e) (hr : r < 24) (hcode : code < 4096) (hfree : d.adcHeld r = false)
  (hv : v = code * d.ra oSenseScale r / 4095) (hd1 : d1 = d.sr oRailVoltage r (min 65535 v)) (ht : t = d1.supports r v)
  (hn : n = if (d.rail r).cand = t then (d.rail r).cnt + 1 else 1)
include he hr hcode hfree hv hd1 ht hn

/-- A sample for the state that the rail reads. -/
theorem Dev.adcSample_agrees (hsame : t = d.rst r) : e.gr oRailVoltage r = min 65535 v ∧ e.rst r = d.rst r ∧ (e.rail r).cnt = 0 := by
  rw [← he, Dev.adcSample_eq hr hcode hfree hv hd1 ht hn, if_pos hsame, hd1]
  exact ⟨Dev.gr_sr_same .., d.gr_sr_ne _ (by decide) (by decide) hr hr (by decide), by rw [Dev.rail_setRail, if_pos rfl]⟩

/-- A sample for another state, fewer than Debounce in a row. -/
theorem Dev.adcSample_counts (hother : t ≠ d.rst r) (hfew : n < d.gr oDebounce r) :
    e.gr oRailVoltage r = min 65535 v ∧ e.rst r = d.rst r ∧ (e.rail r).cand = t ∧ (e.rail r).cnt = n := by
  rw [← he, Dev.adcSample_eq hr hcode hfree hv hd1 ht hn, if_neg hother, if_pos hfew, hd1, Dev.rail_setRail, if_pos rfl]
  exact ⟨Dev.gr_sr_same .., d.gr_sr_ne _ (by decide) (by decide) hr hr (by decide), rfl, rfl⟩

/-- The sample that makes a RAMPING rail GOOD. -/
theorem Dev.adcSample_good (hramp : d.rst r = 1) (hgood : t = 2) (hmany : d.gr oDebounce r ≤ n) : e.gr oRailVoltage r = min 65535 v ∧ e.rst r = 2 := by
  rw [← he, Dev.adcSample_eq hr hcode hfree hv hd1 ht hn, if_neg (by omega), if_neg (by omega), if_neg (by omega), hgood]
  generalize hf : d1.setRail r _ = f
  have hvolt : f.gr oRailVoltage r = min 65535 v := by rw [← hf, hd1]; exact Dev.gr_sr_same ..
  have hst : f.rst r = 1 := by rw [← hf, hd1, ← hramp]; exact d.gr_sr_ne _ (by decide) (by decide) hr hr (by decide)
  obtain ⟨hnow, hkept⟩ := Dev.railChange_good hr hst v
  exact ⟨hkept.trans hvolt, hnow⟩

end SampleResult

/-! ### Discharge (R327) -/

/-- A rail that no power-down waits for. -/
theorem Dev.discharged_alone {d : Dev} {r : Nat} (h : ∀ x ∈ d.power.down, x.1 ≠ r) : d.discharged r = d.setRst r 0 := by
  unfold Dev.discharged
  split
  next x t l hdown => exact if_neg (h (x, t) (by rw [hdown]; exact List.mem_cons_self))
  next => rfl

theorem Dev.dischargeTimeout_counts {d : Dev} {r : Nat} (hr : r < 16) (hst : d.rst r = 7) (halone : ∀ x ∈ d.power.down, x.1 ≠ r) :
    (d.dischargeTimeout r).rst r = 0 ∧ (d.dischargeTimeout r).gr oDischargeTimeouts r = min 65535 (d.gr oDischargeTimeouts r + 1) := by
  have hlt : r < 24 := by omega
  rw [Dev.dischargeTimeout, if_pos ⟨hr, hst⟩, Dev.discharged_alone (d := d.sr ..) halone]
  refine ⟨Dev.setRst_rst_same .., ?_⟩
  rw [(Dev.setRst_writes _ 0 hlt (Set.mem_singleton _)).gr (by decide) hlt (oRail_ne _ _ (by decide)), Dev.gr_sr_same]

end Sys2Proof.Machine
end

section
open Sys2Proof Sys2Proof.Machine

/-- Settles O31: each command by the lemma of what it does to the sequence or to its rail. -/
theorem powerUpSequenceSteps : Obligations.PowerUpSequenceSteps := by
  rintro s d hp rfl
  refine ⟨fun hon hfw hwd hret hsup hwhy => ?begins, fun r hup hen hoff hparents => ?ramps, fun r hr hramp => ?fails⟩
  case begins => exact ⟨_, exec_powerUpStart hp, Dev.powerUp_begins rfl hp hon hfw hwd hret hsup hwhy⟩
  case ramps => exact ⟨_, exec_railEnable hp (Dev.enRails_lt hen), Dev.railEnable_ramps hup hen hoff hparents⟩
  case fails => exact ⟨_, exec_railStartFail hp hr, Dev.railStartFail_fails hr hramp⟩

/-- Settles O32: a sample by the state that it supports, and a discharge by its lemma. -/
theorem railSamplesAndDischarge : Obligations.RailSamplesAndDischarge := by
  rintro s d hp rfl
  refine ⟨fun r code v n t d1 hr hcode hfree hv hd1 ht hn => ⟨fun hsame => ?agrees, fun hother hfew => ?counts, fun hramp hgood hmany => ?good⟩,
    fun r hr hst halone => ?discharge⟩
  case agrees => exact ⟨_, exec_adcSample hp hr hcode, Dev.adcSample_agrees rfl hr hcode hfree hv hd1 ht hn hsame⟩
  case counts => exact ⟨_, exec_adcSample hp hr hcode, Dev.adcSample_counts rfl hr hcode hfree hv hd1 ht hn hother hfew⟩
  case good => exact ⟨_, exec_adcSample hp hr hcode, Dev.adcSample_good rfl hr hcode hfree hv hd1 ht hn hramp hgood hmany⟩
  case discharge => exact ⟨_, exec_railDischargeTimeout hp hr, Dev.dischargeTimeout_counts hr hst halone⟩

end

section
/-! PROOFS. Regulator buses and core voltage scaling (R320, R321, R332 to R334), and writes to the supervisor's objects. -/
namespace Sys2Proof.Machine
open Sys2Proof

/-! ### The commands, at a powered device -/

section Commands
variable {s : State} (h : s.Powered)
include h

theorem exec_regulatorPoll {r : Nat} (hr : r < 16) (answered bad : Bool) :
    exec (.regulatorPoll r answered bad) s = .next (s.leaves (s.dev.regulatorPoll r answered bad)) :=
  act_if _ s (Dev.regulatorPoll · r answered bad) h (by simpa using hr)

theorem exec_avsAckReceive {q : Nat} (hq : q < 4) : exec (.avsAckReceive q) s = .next (s.leaves (s.dev.avsAck q)) :=
  act_if _ s (Dev.avsAck · q) h (by simpa using hq)

theorem exec_avsAckTimeout {q : Nat} (hq : q < 4) : exec (.avsAckTimeout q) s = .next (s.leaves (s.dev.avsTimeout q)) :=
  act_if _ s (Dev.avsTimeout · q) h (by simpa using hq)

theorem exec_qclkSlewComplete {q : Nat} (hq : q < 4) : exec (.qclkSlewComplete q) s = .next (s.leaves (s.dev.slewComplete q)) :=
  act_if _ s (Dev.slewComplete · q) h (by simpa using hq)

theorem exec_operatingPointChange (p : BitVec 32) :
    exec (.operatingPointChange p) s = .next (s.leaves (s.dev.mgrWrite uSup oCoreOperatingPoint p.toNat)) :=
  act_on s (Dev.mgrWrite · uSup oCoreOperatingPoint p.toNat) h

end Commands

/-! ### Polls of a regulator (R320) -/

/-- A number with a bit cleared keeps the bits above it. -/
theorem testBit_clear_gt {n i j : Nat} (hset : n.testBit i = true) (h : i < j) : (n - 2 ^ i).testBit j = n.testBit j := by
  have hlow : 2 ^ i ≤ n % 2 ^ (i + 1) := Nat.ge_two_pow_of_testBit (by rw [Nat.testBit_mod_two_pow, hset]; simp)
  have hlt : n % 2 ^ (i + 1) < 2 ^ (i + 1) := Nat.mod_lt _ (by positivity)
  have hsplit := Nat.div_add_mod n (2 ^ (i + 1))
  have hhigh : ∀ b < 2 ^ (i + 1), (2 ^ (i + 1) * (n / 2 ^ (i + 1)) + b).testBit j = (n / 2 ^ (i + 1)).testBit (j - (i + 1)) := fun b hb => by
    rw [Nat.testBit_two_pow_mul_add _ hb, if_neg (by omega)]
  calc (n - 2 ^ i).testBit j = (2 ^ (i + 1) * (n / 2 ^ (i + 1)) + (n % 2 ^ (i + 1) - 2 ^ i)).testBit j := by rw [← Nat.add_sub_assoc hlow, hsplit]
    _ = (2 ^ (i + 1) * (n / 2 ^ (i + 1)) + n % 2 ^ (i + 1)).testBit j := by rw [hhigh _ (by omega), hhigh _ hlt]
    _ = n.testBit j := by rw [hsplit]

/-- The end of a source's condition leaves the sources above it alone. -/
theorem Dev.unlive_live_gt (d : Dev) {m n : Nat} (h : n < m) : (d.unlive n).faults.live.testBit m = d.faults.live.testBit m := by
  rw [Dev.unlive_faults]
  dsimp only
  split
  next hset => exact testBit_clear_gt hset h
  next => rfl

/-- The polls in a row that rail `r`'s regulator has not answered are `n`. -/
def Dev.setMissed (d : Dev) (r n : Nat) : Dev := { d with power := { d.power with missed := storeSet (fun _ => 0) d.power.missed r n } }

/-- Rail `r`'s regulator, polled. -/
def Dev.polled (d : Dev) (r : Nat) : Dev := d.emit .pmbus [d.ra oBusAddress r, 0x79, 0]

/-- No fault bit is set in the STATUS_WORD of rail `r`'s regulator. -/
def Dev.statusGood (d : Dev) (r : Nat) : Dev :=
  ({ d with power := { d.power with statusBad := d.power.statusBad.filter (· ≠ r) } } : Dev).unlive (600 + r)

section Poll
variable {d : Dev} {r : Nat} (hr : r < 16) (hen : d.railFlag r 0 = true) (hkind : d.ra oRailKind r = 1)
include hr hen hkind

theorem Dev.polls_enabled : ¬ (16 ≤ r ∨ ¬ d.railFlag r 0 = true ∨ d.ra oRailKind r ≠ 1) := by
  simp [hen, hkind]
  omega

/-- A poll that is answered with no fault bit set. -/
theorem Dev.regulatorPoll_answered : storeGet (fun _ => 0) (d.regulatorPoll r true false).power.missed r = 0 ∧
    (d.regulatorPoll r true false).faults.live.testBit (624 + r) = false := by
  have hpoll : d.regulatorPoll r true false = ((((d.polled r).setMissed r 0).unlive (624 + r))).statusGood r :=
    (if_neg (Dev.polls_enabled hr hen hkind)).trans ((if_neg (by decide)).trans (if_neg (by decide)))
  rw [hpoll]
  exact ⟨storeGet_set_same (fun _ => 0) d.power.missed r 0, (Dev.unlive_live_gt _ (by omega)).trans (Dev.unlive_live ..)⟩

/-- The third poll in a row that is not answered. -/
theorem Dev.regulatorPoll_lost (hmissed : storeGet (fun _ => 0) d.power.missed r = 2) : (d.regulatorPoll r false false).Raised (624 + r) := by
  have hpoll : d.regulatorPoll r false false = ((d.polled r).setMissed r (storeGet (fun _ => 0) d.power.missed r + 1)).faultLive (624 + r) :=
    (if_neg (Dev.polls_enabled hr hen hkind)).trans ((if_pos (by decide)).trans (if_pos (congrArg (· + 1) hmissed)))
  rw [hpoll]
  exact Dev.faultLive_raised ..

end Poll

/-! ### A change of operating point (R332, R333) -/

@[simp] theorem Dev.avsOf_setAvs (d : Dev) (q : Nat) (a : Avs) : (d.setAvs q a).avsOf q = a := storeGet_set_same ..

/-- No request has waited for the change. -/
theorem Dev.opNext_none {d : Dev} {q : Nat} (h : (d.avsOf q).want = none) : d.opNext q = d := by rw [Dev.opNext, h]

theorem Dev.avsWrite_avsOf (d : Dev) (q : Nat) (a : Avs) : (d.avsWrite q a).avsOf q = { a with step := 1, retried := false } := storeGet_set_same ..

/-- A change that completes with no request waiting. -/
theorem Dev.opDone_eq {d : Dev} {q : Nat} (h : (d.avsOf q).want = none) : d.opDone q =
    (d.setAvs q { d.avsOf q with step := 0, point := (d.avsOf q).target }).sr oNominal q (d.opPoint (d.avsOf q).target).2 :=
  Dev.opNext_none ((congrArg Avs.want (Dev.avsOf_setAvs ..)).trans h)

section Change
variable {d : Dev} {q : Nat} (hq : q < 4)
include hq

section Acknowledged
variable (hstep : (d.avsOf q).step = 1)
include hstep

/-- An acknowledged voltage with the clock in place completes the change. -/
theorem Dev.avsAck_completes (hwant : (d.avsOf q).want = none) (hfreq : (d.avsOf q).freq = (d.opPoint (d.avsOf q).target).1) : ((d.avsAck q).avsOf q).step = 0 ∧
    ((d.avsAck q).avsOf q).point = (d.avsOf q).target ∧ ((d.avsAck q).avsOf q).vack = (d.opPoint (d.avsOf q).target).2 ∧
    (d.avsAck q).gr oNominal q = (d.opPoint (d.avsOf q).target).2 := by
  have hack := d.avsOf_setAvs q { d.avsOf q with vack := (d.opPoint (d.avsOf q).target).2 }
  generalize hf : d.setAvs q { d.avsOf q with vack := (d.opPoint (d.avsOf q).target).2 } = f at hack
  have heq : d.avsAck q = f.opDone q := by rw [← hf]; exact (if_pos ⟨hq, hstep⟩).trans (if_pos hfreq)
  have hpoint : f.opPoint (d.avsOf q).target = d.opPoint (d.avsOf q).target := by rw [← hf]; rfl
  rw [heq, Dev.opDone_eq (by rw [hack]; exact hwant), hack, ← hpoint]
  have havs : ∀ a v, ((f.setAvs q a).sr oNominal q v).avsOf q = a := fun a v => Dev.avsOf_setAvs ..
  rw [havs, Dev.gr_sr_same]
  exact ⟨rfl, rfl, by rw [hpoint], rfl⟩

/-- One that the clock is to follow lets it slew. -/
theorem Dev.avsAck_slews (hfreq : (d.avsOf q).freq ≠ (d.opPoint (d.avsOf q).target).1) : ((d.avsAck q).avsOf q).step = 2 ∧
    ((d.avsAck q).avsOf q).freq = (d.opPoint (d.avsOf q).target).1 ∧ ((d.avsAck q).avsOf q).point = (d.avsOf q).point := by
  rw [Dev.avsAck, if_pos ⟨hq, hstep⟩]
  dsimp only
  rw [if_neg hfreq, Dev.avsOf_setAvs]
  exact ⟨rfl, rfl, rfl⟩

/-- The first acknowledgement that fails. -/
theorem Dev.avsTimeout_retries (hfirst : (d.avsOf q).retried = false) : ((d.avsTimeout q).avsOf q).step = 1 ∧
    ((d.avsTimeout q).avsOf q).retried = true ∧ (d.avsTimeout q).faultQ = d.faultQ := by
  have heq : d.avsTimeout q = (d.setAvs q { d.avsOf q with retried := true }).emit .avs [d.ra oBusAddress q, (d.opPoint (d.avsOf q).target).2] :=
    (if_pos ⟨hq, hstep⟩).trans (if_pos (by simp [hfirst]))
  have havs : (d.avsTimeout q).avsOf q = { d.avsOf q with retried := true } := by rw [heq]; exact Dev.avsOf_setAvs ..
  rw [havs, heq]
  exact ⟨hstep, rfl, rfl⟩

/-- The second one. -/
theorem Dev.avsTimeout_ends (hwant : (d.avsOf q).want = none) (hsecond : (d.avsOf q).retried = true) : ((d.avsTimeout q).avsOf q).step = 0 ∧
    ((d.avsTimeout q).avsOf q).point = (d.avsOf q).point ∧ (d.avsTimeout q).Raised (40 + q) := by
  have heq : d.avsTimeout q = (d.setAvs q { d.avsOf q with step := 0 }).fault (40 + q) :=
    (if_pos ⟨hq, hstep⟩).trans ((if_neg (by simp [hsecond])).trans (Dev.opNext_none ((congrArg Avs.want (Dev.avsOf_setAvs ..)).trans hwant)))
  have havs : (d.avsTimeout q).avsOf q = { d.avsOf q with step := 0 } := by rw [heq]; exact Dev.avsOf_setAvs ..
  rw [havs, heq]
  exact ⟨rfl, rfl, Dev.fault_raised ..⟩

end Acknowledged

section Slewed
variable (hstep : (d.avsOf q).step = 2)
include hstep

/-- A slew that completes with the voltage in place. -/
theorem Dev.slewComplete_completes (hwant : (d.avsOf q).want = none) (hvolt : (d.avsOf q).vack = (d.opPoint (d.avsOf q).target).2) :
    ((d.slewComplete q).avsOf q).step = 0 ∧ ((d.slewComplete q).avsOf q).point = (d.avsOf q).target := by
  have heq : d.slewComplete q = d.opDone q := (if_pos ⟨hq, hstep⟩).trans (if_pos hvolt)
  have havs : (d.slewComplete q).avsOf q = { d.avsOf q with step := 0, point := (d.avsOf q).target } := by
    rw [heq, Dev.opDone_eq hwant]
    exact Dev.avsOf_setAvs ..
  rw [havs]
  exact ⟨rfl, rfl⟩

/-- One that the voltage is to follow. -/
theorem Dev.slewComplete_writes (hvolt : (d.avsOf q).vack ≠ (d.opPoint (d.avsOf q).target).2) : ((d.slewComplete q).avsOf q).step = 1 ∧
    ((d.slewComplete q).avsOf q).point = (d.avsOf q).point := by
  have heq : d.slewComplete q = d.avsWrite q (d.avsOf q) := (if_pos ⟨hq, hstep⟩).trans (if_neg hvolt)
  rw [heq, Dev.avsWrite_avsOf]
  exact ⟨rfl, rfl⟩

end Slewed

end Change

/-! ### A command row that is one write of the supervisor's (R360) -/

theorem Dev.present_sup (d : Dev) : d.present uSup = true := rfl

theorem Dev.holds_sup (d : Dev) {row : ObjRow} (hloc : row.loc = 2) : d.holds row uSup = true := by simp [Dev.holds, hloc, locAt]

/-- A value in range, written to an object of the supervisor's that the machine lets be written. -/
theorem Dev.supWrite_passes {d : Dev} {row : ObjRow} {o v : Nat} (hrow : objRow o = some row) (hloc : row.loc = 2) (hok : rowOk row v = true)
    (hpre : d.precond o v = true) (hcur : o ≠ oEventCursor) : d.Passes row uSup o v where
  isRow := hrow
  present := d.present_sup
  holds := d.holds_sup hloc
  ok := hok
  pre := hpre
  named := if_neg fun h => absurd h.1 (by decide)
  notCursor := hcur

/-- A value out of range is refused with INVALID_VALUE. -/
theorem Dev.supWrite_outOfRange {d : Dev} {row : ObjRow} {o v : Nat} (hp : d.aon.auxUp = true) (hs : d.supAway = false) (hc : d.writesClosed = false)
    (hrow : objRow o = some row) (hloc : row.loc = 2) (hbad : rowOk row v = false) : d.mgrWrite uSup o v = d.refuses 3 uSup := by
  have hreply : d.writeChecked row uSup o v (Dev.applyWrite · row 0xFF uSup o v) = badValue d uSup :=
    (if_neg (by simp [hc])).trans (if_pos (by simp [hbad]))
  rw [Dev.mgrWrite, hrow]
  dsimp only
  rw [Dev.mgrRun, hrow]
  refine (if_neg (by simp [hs])).trans ?_
  rw [if_neg (not_not.2 d.present_sup), if_neg (not_not.2 (d.holds_sup hloc)), hreply]
  exact if_pos hp

/-- An accepted effect leaves the supply's sequencing as it made it. -/
theorem Dev.accepts_power (f : Dev) (o : Nat) : (f.accepts o).power = f.power := by
  unfold Dev.accepts
  split <;> rfl

/-! ### A request for an operating point (R332, R333) -/

/-- The row of CoreOperatingPoint. -/
def coreOperatingPointRow : ObjRow := ⟨oCoreOperatingPoint, 10, 4, 1, 1, 2, 2, 0, 0, false, 2, none, false⟩

theorem Dev.coreOperatingPoint_passes (d : Dev) (v : Nat) : d.Passes coreOperatingPointRow uSup oCoreOperatingPoint v :=
  Dev.supWrite_passes (by decide +kernel) rfl rfl rfl (by decide)

theorem Dev.applyOne_coreOperatingPoint (d : Dev) (sid v : Nat) : d.applyOne sid uSup oCoreOperatingPoint v = d.fxCoreOperatingPoint v := rfl

/-- A request changes no object by itself. -/
theorem Dev.opRequest_keeps (d : Dev) (q b : Nat) : (d.opRequest q b).dict = d.dict ∧ (d.opRequest q b).aon = d.aon := by
  unfold Dev.opRequest
  split
  · unfold Dev.opStart
    dsimp only
    split_ifs <;> exact ⟨rfl, rfl⟩
  · exact ⟨rfl, rfl⟩

section PointWrite
variable {d : Dev} {v : Nat} (hp : d.aon.auxUp = true) (hs : d.supAway = false) (hc : d.writesClosed = false)
include hp hs hc

/-- A used entry for every quadrant is stored. -/
theorem Dev.operatingPoint_stored (hused : ∀ q < 4, byteOf v q < 8 ∧ (d.opPoint (byteOf v q)).1 ≠ 0) :
    (d.mgrWrite uSup oCoreOperatingPoint v).g oCoreOperatingPoint = v ∧ (d.mgrWrite uSup oCoreOperatingPoint v).Answers 4 0 0xFFFF := by
  have hfx : d.fxCoreOperatingPoint v = okR ((List.range 4).foldl (fun (d : Dev) q => d.opRequest q (byteOf v q)) (d.s oCoreOperatingPoint v)) :=
    if_pos (by simpa using hused)
  rw [(d.coreOperatingPoint_passes v).accepted hs hc ((d.applyOne_coreOperatingPoint 0xFF v).trans hfx)]
  have hkept := List.foldlRecOn (List.range 4) (fun (d : Dev) q => d.opRequest q (byteOf v q))
    (motive := fun e : Dev => e.dict = (d.s oCoreOperatingPoint v).dict ∧ e.aon = d.aon) ⟨rfl, rfl⟩
    fun e he q _ => ⟨(e.opRequest_keeps q _).1.trans he.1, (e.opRequest_keeps q _).2.trans he.2⟩
  generalize List.foldl _ (d.s oCoreOperatingPoint v) _ = f at hkept ⊢
  obtain ⟨hanswers, -, hobjects⟩ := Dev.accepts_result (f := f) (by rw [hkept.2]; exact hp) oCoreOperatingPoint
  refine ⟨?_, hanswers⟩
  rw [hobjects _ (by decide), Dev.g_of_dict hkept.1, Dev.g_s_same]

/-- An entry that is not used, or that does not exist, is refused. -/
theorem Dev.operatingPoint_refused (hunused : ∃ q < 4, 8 ≤ byteOf v q ∨ (d.opPoint (byteOf v q)).1 = 0) :
    d.mgrWrite uSup oCoreOperatingPoint v = d.refuses 3 uSup := by
  have hfx : d.fxCoreOperatingPoint v = badValue d uSup := by
    obtain ⟨q, hq, hbad⟩ := hunused
    refine if_neg fun hall => ?_
    have hok := of_decide_eq_true (List.all_eq_true.1 hall q (List.mem_range.2 hq))
    omega
  exact (d.coreOperatingPoint_passes v).refused hs hc hp (by decide) ((d.applyOne_coreOperatingPoint 0xFF v).trans hfx)

end PointWrite

end Sys2Proof.Machine
end

section
open Sys2Proof Sys2Proof.Machine

/-- Settles O33: polls, acknowledgements and slews by what they make of the change, and a request by whether its points are used. -/
theorem regulatorBusesAndScaling : Obligations.RegulatorBusesAndScaling := by
  rintro s d hp rfl
  refine ⟨fun r hr hen hkind => ⟨?answered, fun hmissed => ?lost⟩, ?voltage, ?clock, fun ht p => ⟨fun hused => ?stored, fun hunused => ?refused⟩⟩
  case answered => exact ⟨_, exec_regulatorPoll hp hr true false, Dev.regulatorPoll_answered hr hen hkind⟩
  case lost => exact ⟨_, exec_regulatorPoll hp hr false false, Dev.regulatorPoll_lost hr hen hkind hmissed⟩
  case voltage =>
    rintro q a hq rfl hstep hwant
    refine ⟨fun hfreq => ?completes, fun hfreq => ?slewsNext, fun hfirst => ?retries, fun hsecond => ?ends⟩
    case completes => exact ⟨_, exec_avsAckReceive hp hq, Dev.avsAck_completes hq hstep hwant hfreq⟩
    case slewsNext => exact ⟨_, exec_avsAckReceive hp hq, Dev.avsAck_slews hq hstep hfreq⟩
    case retries => exact ⟨_, exec_avsAckTimeout hp hq, Dev.avsTimeout_retries hq hstep hfirst⟩
    case ends => exact ⟨_, exec_avsAckTimeout hp hq, Dev.avsTimeout_ends hq hstep hwant hsecond⟩
  case clock =>
    rintro q a hq rfl hstep hwant
    refine ⟨fun hvolt => ?completes, fun hvolt => ?writes⟩
    case completes => exact ⟨_, exec_qclkSlewComplete hp hq, Dev.slewComplete_completes hq hstep hwant hvolt⟩
    case writes => exact ⟨_, exec_qclkSlewComplete hp hq, Dev.slewComplete_writes hq hstep hvolt⟩
  case stored => exact ⟨_, exec_operatingPointChange hp p, Dev.operatingPoint_stored hp ht.present ht.openNow hused⟩
  case refused =>
    rw [exec_operatingPointChange hp, Dev.operatingPoint_refused hp ht.present ht.openNow hunused]
    rfl

end

section
/-! PROOFS. Margining, the rail commands and ShutdownRequest (R330, R331, R336, R337, R339). -/
namespace Sys2Proof.Machine
open Sys2Proof

/-! ### The commands, at a powered device -/

section Commands
variable {s : State} (h : s.Powered)
include h

theorem exec_marginMode (on : Bool) : exec (.marginMode on) s = .next (s.leaves (s.dev.mgrWrite uSup oMarginMode on.toNat)) :=
  act_on s (Dev.mgrWrite · uSup oMarginMode on.toNat) h

theorem exec_marginStep {r : Nat} {v : Int} (hr : r < 24) (hlo : -128 ≤ v) (hhi : v < 128) :
    exec (.marginStep r v) s = .next (s.leaves (s.dev.mgrWrite uSup (oRail oMarginStep r) (unsignedOf 1 v))) :=
  act_if _ s (Dev.mgrWrite · uSup (oRail oMarginStep r) (unsignedOf 1 v)) h (by simpa using ⟨hr, hlo, hhi⟩)

theorem exec_railRestart {r : Nat} (hr : r < 16) : exec (.railRestart r) s = .next (s.leaves (s.dev.mgrWrite uSup oRailCommand (r + 0x100))) :=
  act_if _ s (Dev.mgrWrite · uSup oRailCommand (r + 0x100)) h (by simpa using hr)

theorem exec_clearCounters {r : Nat} (hr : r < 256) : exec (.clearCounters r) s = .next (s.leaves (s.dev.mgrWrite uSup oRailCommand (r + 0x200))) :=
  act_if _ s (Dev.mgrWrite · uSup oRailCommand (r + 0x200)) h (by simpa using hr)

theorem exec_shutdownRequestClear : exec .shutdownRequestClear s = .next (s.leaves (s.dev.mgrWrite uSup oShutdownRequest 0)) :=
  act_on s (Dev.mgrWrite · uSup oShutdownRequest 0) h

end Commands

/-- An accepted effect leaves the objects of the rails as it made them. -/
theorem Dev.accepts_gr {f : Dev} (hp : f.aon.auxUp = true) (o : Nat) {x r : Nat} (hx : 0x200000 ≤ x) : (f.accepts o).gr x r = f.gr x r :=
  (Dev.accepts_result hp o).2.2 _ (by unfold oRail oDictChangeCounter; omega)

/-! ### Targets that are written (R331) -/

/-- A target goes to the regulator, and no object changes. -/
theorem Dev.writeTarget_keeps (d : Dev) (r : Nat) : (d.writeTarget r).dict = d.dict ∧ (d.writeTarget r).aon = d.aon := by
  unfold Dev.writeTarget
  dsimp only
  split_ifs <;> exact ⟨rfl, rfl⟩

theorem Dev.restoreTargets_keeps (d : Dev) : d.restoreTargets.dict = d.dict ∧ d.restoreTargets.aon = d.aon :=
  List.foldlRecOn _ Dev.writeTarget (motive := fun e : Dev => e.dict = d.dict ∧ e.aon = d.aon) ⟨rfl, rfl⟩
    fun e he r _ => ⟨(e.writeTarget_keeps r).1.trans he.1, (e.writeTarget_keeps r).2.trans he.2⟩

/-! ### MarginMode (R330) -/

/-- The row of MarginMode. -/
def marginModeRow : ObjRow := ⟨oMarginMode, 1, 1, 1, 1, 2, 2, 0, 0, false, 2, none, false⟩

theorem Dev.marginMode_passes (d : Dev) (on : Bool) : d.Passes marginModeRow uSup oMarginMode on.toNat :=
  Dev.supWrite_passes (by decide +kernel) rfl (by cases on <;> decide) rfl (by decide)

theorem Dev.applyOne_marginMode (d : Dev) (sid v : Nat) : d.applyOne sid uSup oMarginMode v = d.fxMarginMode v := rfl

/-- The enabled rails whose target is not Nominal. -/
def Dev.marginedRails (d : Dev) : List Nat := d.enRails.filter fun r => d.target r ≠ d.ra oNominal r

theorem Dev.marginedRails_lt {d : Dev} {r : Nat} (h : r ∈ d.marginedRails) : r < 24 := by
  have := Dev.enRails_lt (List.mem_of_mem_filter h)
  omega

/-- The rails whose target leaves Nominal are counted: MarginMode stays. -/
theorem Dev.foldl_marginCycle_keeps (l : List Nat) (hl : ∀ r ∈ l, r < 24) (d : Dev) :
    (l.foldl Dev.marginCycle d).g oMarginMode = d.g oMarginMode ∧ (l.foldl Dev.marginCycle d).aon = d.aon := by
  refine List.foldlRecOn l Dev.marginCycle (motive := fun e : Dev => e.g oMarginMode = d.g oMarginMode ∧ e.aon = d.aon) ⟨rfl, rfl⟩ fun e he r hr => ⟨?_, he.2⟩
  exact (e.s_writesOnly _ (oRail_lt (o := oMarginCycles) (by decide) (hl r hr)) oMarginMode (by decide) (by
    simp only [Set.mem_singleton_iff, oRail, oMarginMode, oMarginCycles]
    have := hl r hr
    omega)).trans he.1

section ModeWrite
variable {d : Dev} (hp : d.aon.auxUp = true) (hs : d.supAway = false) (hc : d.writesClosed = false)
include hp hs hc

/-- An accepted write of MarginMode answers, and leaves the value its effect gave. -/
theorem Dev.marginMode_accepted {on : Bool} {f : Dev} {v : Nat} (hfx : d.fxMarginMode on.toNat = okR f) (hg : f.g oMarginMode = v) (haon : f.aon = d.aon) :
    (d.mgrWrite uSup oMarginMode on.toNat).g oMarginMode = v ∧ (d.mgrWrite uSup oMarginMode on.toNat).Answers 4 0 0xFFFF := by
  rw [(d.marginMode_passes on).accepted hs hc ((d.applyOne_marginMode 0xFF _).trans hfx)]
  obtain ⟨hanswers, -, hobjects⟩ := Dev.accepts_result (f := f) (by rw [haon]; exact hp) oMarginMode
  exact ⟨(hobjects _ (by decide)).trans hg, hanswers⟩

/-- Margining begins where nothing is dirty and nothing runs. -/
theorem Dev.marginMode_begins (hoff : d.g oMarginMode = 0) (hcause : (d.g oWriteThroughCause).testBit 0 = true) (hclean : d.dirtyTotal = 0)
    (hidle : d.seqBusy = false) :
    (d.mgrWrite uSup oMarginMode true.toNat).g oMarginMode = 1 ∧ (d.mgrWrite uSup oMarginMode true.toNat).Answers 4 0 0xFFFF := by
  have hfx : d.fxMarginMode true.toNat = okR (((d.s oMarginMode 1).marginedRails.foldl Dev.marginCycle (d.s oMarginMode 1)).restoreTargets) :=
    (if_neg (by decide)).trans ((if_neg (by simp [hoff])).trans (if_neg (by simp [bit, hcause, hclean, hidle])))
  obtain ⟨hmode, haon⟩ := Dev.foldl_marginCycle_keeps (d.s oMarginMode 1).marginedRails (fun r => Dev.marginedRails_lt) (d.s oMarginMode 1)
  obtain ⟨hdict, haon'⟩ := ((d.s oMarginMode 1).marginedRails.foldl Dev.marginCycle (d.s oMarginMode 1)).restoreTargets_keeps
  exact Dev.marginMode_accepted hp hs hc hfx ((Dev.g_of_dict hdict _).trans (hmode.trans (Dev.g_s_same ..))) (haon'.trans haon)

/-- It does not begin where write-through is not on for it, or something is dirty or runs. -/
theorem Dev.marginMode_refused (hoff : d.g oMarginMode = 0)
    (hbusy : (d.g oWriteThroughCause).testBit 0 = false ∨ d.dirtyTotal ≠ 0 ∨ d.seqBusy = true) :
    d.mgrWrite uSup oMarginMode true.toNat = d.refuses 4 uSup := by
  have hfx : d.fxMarginMode true.toNat = conflict d uSup :=
    (if_neg (by decide)).trans ((if_neg (by simp [hoff])).trans (if_pos (by simpa [bit] using hbusy)))
  exact (d.marginMode_passes true).refused hs hc hp (by decide) ((d.applyOne_marginMode 0xFF _).trans hfx)

/-- Margining ends. -/
theorem Dev.marginMode_ends :
    (d.mgrWrite uSup oMarginMode false.toNat).g oMarginMode = 0 ∧ (d.mgrWrite uSup oMarginMode false.toNat).Answers 4 0 0xFFFF := by
  by_cases hoff : d.g oMarginMode = 0
  · exact Dev.marginMode_accepted hp hs hc ((if_pos rfl).trans (if_pos hoff)) hoff rfl
  · obtain ⟨hdict, haon⟩ := (d.s oMarginMode 0).restoreTargets_keeps
    exact Dev.marginMode_accepted hp hs hc ((if_pos rfl).trans (if_neg hoff)) ((Dev.g_of_dict hdict _).trans (Dev.g_s_same ..)) haon

end ModeWrite

/-! ### MarginStep of a rail (R331) -/

/-- The row of MarginStep. -/
def marginStepRow : ObjRow := ⟨oMarginStep, 13, 1, 1, 1, 2, 2, 0, 1, false, 2, some (-20, 20), false⟩

/-- A step is a signed byte. -/
theorem signedOf_unsignedOf_byte {v : Int} (hlo : -128 ≤ v) (hhi : v < 128) : signedOf 1 (unsignedOf 1 v) = v := by
  unfold signedOf unsignedOf
  norm_num
  split <;> omega

theorem baseOid_marginStep {r : Nat} (hr : r < 24) : baseOid (oRail oMarginStep r) = (oMarginStep, r) := by
  unfold baseOid oRail oMarginStep
  rw [if_pos (by omega)]
  refine Prod.ext ?_ ?_
  · dsimp only
    omega
  · dsimp only
    omega

theorem objRow_marginStep {r : Nat} (hr : r < 24) : objRow (oRail oMarginStep r) = some marginStepRow := by
  have hbase : objRow oMarginStep = some marginStepRow := by decide +kernel
  rw [← hbase, objRow, objRow, baseOid_marginStep hr]
  rfl

theorem marginStep_inRange {v : Int} (hlo : -128 ≤ v) (hhi : v < 128) : rowOk marginStepRow (unsignedOf 1 v) = decide (-20 ≤ v ∧ v ≤ 20) := by
  have hfixed : fixedRule marginStepRow.oid (unsignedOf 1 v) = true := rfl
  have hsigned := signedOf_unsignedOf_byte hlo hhi
  unfold rowOk
  rw [hfixed]
  simp [marginStepRow, hsigned]

theorem Dev.marginStep_passes (d : Dev) {r : Nat} {v : Int} (hr : r < 24) (hlo : -20 ≤ v) (hhi : v ≤ 20) :
    d.Passes marginStepRow uSup (oRail oMarginStep r) (unsignedOf 1 v) := by
  refine Dev.supWrite_passes (objRow_marginStep hr) rfl ?_ ?_ ?_
  · rw [marginStep_inRange (by omega) (by omega)]
    exact decide_eq_true ⟨hlo, hhi⟩
  · rw [Dev.precond, baseOid_marginStep hr]
    rfl
  · unfold oRail oMarginStep oEventCursor
    omega

theorem Dev.applyOne_marginStep (d : Dev) (sid : Nat) {r : Nat} (v : Nat) (hr : r < 24) : d.applyOne sid uSup (oRail oMarginStep r) v = d.fxMarginStep r v := by
  rw [Dev.applyOne, Dev.applyA, baseOid_marginStep hr]
  rfl

/-- The effect of an allowed step: MarginStep takes it, and the regulator its target while margin mode is on. -/
theorem Dev.fxMarginStep_stores {d : Dev} {r w : Nat} (hr : r < 24) (hstep : -20 ≤ signedOf 1 w ∧ signedOf 1 w ≤ 20)
    (hok : d.railMarginOk r (d.gr oNominal r) (signedOf 1 w) (d.sgr oFaultHigh r 2) = true) :
    ∃ f, d.fxMarginStep r w = okR f ∧ f.gr oMarginStep r = w ∧ f.aon = d.aon := by
  unfold Dev.fxMarginStep
  dsimp only
  rw [if_neg (by simp [hok]; omega)]
  generalize hf : d.sr oMarginStep r w = f
  have hset : f.gr oMarginStep r = w ∧ f.aon = d.aon := by
    rw [← hf]
    exact ⟨Dev.gr_sr_same .., rfl⟩
  split
  case isFalse => exact ⟨f, rfl, hset⟩
  case isTrue =>
    generalize hg : (if d.target r = f.ra oNominal r then f.marginCycle r else f) = g
    have hcycled : g.gr oMarginStep r = w ∧ g.aon = d.aon := by
      rw [← hg]
      split
      · exact ⟨(f.gr_sr_ne _ (by decide) (by decide) hr hr (by decide)).trans hset.1, hset.2⟩
      · exact hset
    obtain ⟨hdict, haon⟩ := g.writeTarget_keeps r
    exact ⟨g.writeTarget r, rfl, (Dev.g_of_dict hdict _).trans hcycled.1, haon.trans hcycled.2⟩

section StepWrite
variable {d : Dev} {r : Nat} {v : Int} (hp : d.aon.auxUp = true) (hs : d.supAway = false) (hc : d.writesClosed = false) (hr : r < 24)
include hp hs hc hr

/-- A step within ±20 that keeps the rail below its absolute maximum. -/
theorem Dev.marginStep_stored {e : Dev} (he : d.mgrWrite uSup (oRail oMarginStep r) (unsignedOf 1 v) = e) (hlo : -20 ≤ v) (hhi : v ≤ 20)
    (hok : d.railMarginOk r (d.gr oNominal r) v (d.sgr oFaultHigh r 2) = true) : e.sgr oMarginStep r 1 = v ∧ e.Answers 4 0 0xFFFF := by
  have hsigned := signedOf_unsignedOf_byte (v := v) (by omega) (by omega)
  obtain ⟨f, hfx, hset, haon⟩ := Dev.fxMarginStep_stores hr (w := unsignedOf 1 v) (by rw [hsigned]; exact ⟨hlo, hhi⟩) (by rw [hsigned]; exact hok)
  rw [← he, (d.marginStep_passes hr hlo hhi).accepted hs hc ((d.applyOne_marginStep 0xFF _ hr).trans hfx)]
  have haux : f.aon.auxUp = true := by rw [haon]; exact hp
  refine ⟨?_, (Dev.accepts_result haux _).1⟩
  rw [Dev.sgr, Dev.accepts_gr haux _ (by decide), hset, hsigned]

/-- A step beyond ±20 is refused. -/
theorem Dev.marginStep_refused (hlo : -128 ≤ v) (hhi : v < 128) (hfar : v < -20 ∨ 20 < v) :
    d.mgrWrite uSup (oRail oMarginStep r) (unsignedOf 1 v) = d.refuses 3 uSup :=
  Dev.supWrite_outOfRange hp hs hc (objRow_marginStep hr) rfl ((marginStep_inRange hlo hhi).trans (decide_eq_false (by omega)))

end StepWrite

/-! ### RailCommand (R339) -/

/-- The row of RailCommand. -/
def railCommandRow : ObjRow := ⟨oRailCommand, 10, 4, 1, 1, 2, 2, 0, 0, false, 2, none, false⟩

theorem Dev.railCommand_passes (d : Dev) (v : Nat) : d.Passes railCommandRow uSup oRailCommand v :=
  Dev.supWrite_passes (by decide +kernel) rfl rfl rfl (by decide)

theorem Dev.applyOne_railCommand (d : Dev) (sid v : Nat) : d.applyOne sid uSup oRailCommand v = d.fxRailCommand v := rfl

/-- The rail and the action of a command value. -/
theorem railCommand_fields {r : Nat} (a : Nat) (hr : r < 256) (ha : a < 256) : byteOf (r + a * 0x100) 0 = r ∧ byteOf (r + a * 0x100) 1 = a := by
  simp only [byteOf]
  omega

theorem Dev.fxRailCommand_restart (d : Dev) {r : Nat} (hr : r < 16) : d.fxRailCommand (r + 0x100) = okR (d.railRestart r) := by
  obtain ⟨hrail, hact⟩ := railCommand_fields (r := r) 1 (by omega) (by decide)
  rw [Nat.one_mul] at hrail hact
  unfold Dev.fxRailCommand
  dsimp only
  rw [hrail, hact]
  exact if_pos ⟨rfl, hr, by omega⟩

theorem Dev.fxRailCommand_clear (d : Dev) {r : Nat} (hr : r < 24) : d.fxRailCommand (r + 0x200) = okR (d.clearRail r) := by
  obtain ⟨hrail, hact⟩ := railCommand_fields (r := r) 2 (by omega) (by decide)
  unfold Dev.fxRailCommand
  dsimp only
  rw [hrail, hact]
  refine (if_neg (by omega)).trans ((if_pos ⟨rfl, .inl hr, by omega⟩).trans ?_)
  rw [if_neg (by omega)]

/-- Rail `r` is OFF again, and so is what was BLOCKED below it. -/
def Dev.returned (d : Dev) (r : Nat) : Dev := ((d.releaseRail r).setRst r 0).moveFrom (((d.releaseRail r).setRst r 0).railDesc r) 6 0

/-- A supervisor that is INCOMPLETE rises again. -/
def Dev.risesAgain (d : Dev) : Dev := if d.sup = 3 then d.s oSupervisorState 1 else d

theorem Dev.returned_result {d e : Dev} {r : Nat} (he : d.returned r = e) (hr : r < 24) : e.rst r = 0 ∧ (e.rail r).en = false ∧ e.aon = d.aon := by
  obtain ⟨hoff, hreleased⟩ := d.released_result r 0
  obtain ⟨hst, hen, -, haon⟩ := Dev.moveFrom_keeps he (fun c hc => Dev.railDesc_lt hc) hr (by rw [hoff]; decide)
  exact ⟨hst.trans hoff, (hen r).trans hreleased, haon.trans (Dev.setRst_aon ..)⟩

theorem Dev.risesAgain_keeps (d : Dev) {r : Nat} (hr : r < 24) : d.risesAgain.rst r = d.rst r ∧ d.risesAgain.rail r = d.rail r ∧ d.risesAgain.aon = d.aon := by
  unfold Dev.risesAgain
  split
  · exact ⟨(Dev.s_writes 1 (by decide) (.inl rfl)).rst hr (railObject_not_settled (by decide) hr), Dev.rail_of_power (Dev.s_power ..) r, Dev.s_aon ..⟩
  · exact ⟨rfl, rfl, rfl⟩

/-- A failed rail returns to OFF, and the sequence runs from the present tick. -/
theorem Dev.railRestart_result {d e : Dev} {r : Nat} (he : d.railRestart r = e) (hr : r < 16) (hst : d.rst r = 5 ∨ d.rst r = 4) :
    e.rst r = 0 ∧ (e.rail r).en = false ∧ e.power.seqUp = true ∧ e.power.s0 = d.now ∧ e.aon = d.aon := by
  have hlt : r < 24 := by omega
  generalize hf : d.returned r = f
  have heq : d.railRestart r = { f.risesAgain with power := { f.risesAgain.power with seqUp := true, s0 := f.risesAgain.now } } := by
    rw [← hf]
    exact if_pos hst
  obtain ⟨hoff, hen, haon⟩ := Dev.returned_result hf hlt
  obtain ⟨hst', hrail, haon'⟩ := f.risesAgain_keeps hlt
  rw [← he, heq]
  exact ⟨hst'.trans hoff, (congrArg Rail.en hrail).trans hen, rfl, congrArg Aon.tick (haon'.trans haon), haon'.trans haon⟩

/-- Every counter of rail `r` reads 0. -/
def Dev.countersClear (d : Dev) (r : Nat) : Prop :=
  d.gr oWarnings r = 0 ∧ d.gr oFaults r = 0 ∧ d.gr oStartFailures r = 0 ∧ d.gr oDischargeTimeouts r = 0 ∧ d.gr oMarginCycles r = 0

theorem Dev.clearRail_clear (d : Dev) {r : Nat} (hr : r < 24) : (d.clearRail r).countersClear r := by
  have hother : ∀ (e : Dev) (o o' : Nat), o < 0x300000 ∧ o' < 0x300000 ∧ o' % 0x100 ≠ o % 0x100 → (e.sr o r 0).gr o' r = e.gr o' r :=
    fun e o o' h => e.gr_sr_ne 0 h.1 h.2.1 hr hr h.2.2
  unfold Dev.clearRail Dev.countersClear
  simp (disch := decide) only [hother, Dev.gr_sr_same, and_self]

theorem Dev.countersClear.accepts {f : Dev} {r : Nat} (h : f.countersClear r) (hp : f.aon.auxUp = true) (o : Nat) : (f.accepts o).countersClear r := by
  have hkept : ∀ x, 0x200000 ≤ x → (f.accepts o).gr x r = f.gr x r := fun x hx => Dev.accepts_gr hp o hx
  unfold Dev.countersClear
  rw [hkept _ (by decide), hkept _ (by decide), hkept _ (by decide), hkept _ (by decide), hkept _ (by decide)]
  exact h

theorem Dev.sr_aon (d : Dev) (o r v : Nat) : (d.sr o r v).aon = d.aon := rfl

theorem Dev.clearRail_aon (d : Dev) (r : Nat) : (d.clearRail r).aon = d.aon := by
  unfold Dev.clearRail
  rw [Dev.sr_aon, Dev.sr_aon, Dev.sr_aon, Dev.sr_aon, Dev.sr_aon]

section RailWrite
variable {d e : Dev} {r : Nat} (hp : d.aon.auxUp = true) (hs : d.supAway = false) (hc : d.writesClosed = false)
include hp hs hc

/-- RESTART of a failed rail. -/
theorem Dev.railCommand_restarts (he : d.mgrWrite uSup oRailCommand (r + 0x100) = e) (hr : r < 16) (hst : d.rst r = 5 ∨ d.rst r = 4) :
    e.rst r = 0 ∧ (e.rail r).en = false ∧ e.power.seqUp = true ∧ e.power.s0 = d.now ∧ e.Answers 4 0 0xFFFF := by
  generalize hf : d.railRestart r = f
  have heq : e = f.accepts oRailCommand := by
    rw [← he, ← hf]
    exact (d.railCommand_passes _).accepted hs hc ((d.applyOne_railCommand 0xFF _).trans (d.fxRailCommand_restart hr))
  obtain ⟨hoff, hen, hup, hs0, haon⟩ := Dev.railRestart_result hf hr hst
  have haux : f.aon.auxUp = true := by rw [haon]; exact hp
  have hpower := f.accepts_power oRailCommand
  rw [heq, Dev.rail_of_power hpower, hpower]
  exact ⟨(Dev.accepts_gr haux _ (by decide)).trans hoff, hen, hup, hs0, (Dev.accepts_result haux _).1⟩

/-- CLEAR_COUNTERS of a rail. -/
theorem Dev.railCommand_clears (he : d.mgrWrite uSup oRailCommand (r + 0x200) = e) (hr : r < 24) : e.countersClear r ∧ e.Answers 4 0 0xFFFF := by
  have haux : (d.clearRail r).aon.auxUp = true := by rw [Dev.clearRail_aon]; exact hp
  rw [← he, (d.railCommand_passes _).accepted hs hc ((d.applyOne_railCommand 0xFF _).trans (d.fxRailCommand_clear hr))]
  exact ⟨(d.clearRail_clear hr).accepts haux _, (Dev.accepts_result haux _).1⟩

end RailWrite

/-! ### ShutdownRequest (R336) -/

/-- The row of ShutdownRequest. -/
def shutdownRequestRow : ObjRow := ⟨oShutdownRequest, 1, 1, 1, 1, 2, 2, 0, 0, false, 2, some (0, 0), false⟩

theorem Dev.shutdownRequest_passes (d : Dev) : d.Passes shutdownRequestRow uSup oShutdownRequest 0 :=
  Dev.supWrite_passes (by decide +kernel) rfl (by decide) rfl (by decide)

theorem Dev.shutdownRequest_clears {d : Dev} (hp : d.aon.auxUp = true) (hs : d.supAway = false) (hc : d.writesClosed = false) :
    (d.mgrWrite uSup oShutdownRequest 0).g oShutdownRequest = 0 ∧ (d.mgrWrite uSup oShutdownRequest 0).Answers 4 0 0xFFFF := by
  have hfx : d.applyOne 0xFF uSup oShutdownRequest 0 = okR (d.s oShutdownRequest 0) := rfl
  rw [d.shutdownRequest_passes.accepted hs hc hfx]
  obtain ⟨hanswers, -, hobjects⟩ := Dev.accepts_result (f := d.s oShutdownRequest 0) hp oShutdownRequest
  exact ⟨(hobjects _ (by decide)).trans (Dev.g_s_same ..), hanswers⟩

end Sys2Proof.Machine
end

section
open Sys2Proof Sys2Proof.Machine

/-- Settles O34: each write of the supervisor's objects by what its effect stores, or by its refusal. -/
theorem marginingAndRailCommands : Obligations.MarginingAndRailCommands := by
  rintro s d ht rfl
  obtain ⟨hp, hs, hc⟩ := ht
  refine ⟨fun hoff hcause hclean hidle => ?begins, fun hoff hbusy => ?busy, ?ends, fun r v hr hlo hhi => ⟨fun hlow hhigh hok => ?stored, fun hfar => ?far⟩,
    fun r hr hst => ?restarts, fun r hr => ?clears, ?shutdown⟩
  case begins => exact ⟨_, exec_marginMode hp true, Dev.marginMode_begins hp hs hc hoff hcause hclean hidle⟩
  case busy =>
    rw [exec_marginMode hp, Dev.marginMode_refused hp hs hc hoff hbusy]
    rfl
  case ends => exact ⟨_, exec_marginMode hp false, Dev.marginMode_ends hp hs hc⟩
  case stored => exact ⟨_, exec_marginStep hp hr hlo hhi, Dev.marginStep_stored hp hs hc hr rfl hlow hhigh hok⟩
  case far =>
    rw [exec_marginStep hp hr hlo hhi, Dev.marginStep_refused hp hs hc hr hlo hhi hfar]
    rfl
  case restarts => exact ⟨_, exec_railRestart hp hr, Dev.railCommand_restarts hp hs hc rfl hr hst⟩
  case clears =>
    obtain ⟨⟨hwarnings, hfaults, hfailures, htimeouts, hcycles⟩, hanswers⟩ := Dev.railCommand_clears hp hs hc rfl hr
    exact ⟨_, exec_clearCounters hp (by omega), hwarnings, hfaults, hfailures, htimeouts, hcycles, hanswers⟩
  case shutdown => exact ⟨_, exec_shutdownRequestClear hp, Dev.shutdownRequest_clears hp hs hc⟩

end

section
/-! PROOFS. Loss and return of the auxiliary input, MRST_N and the power button (R329, R335, R336, R420, R424). -/
namespace Sys2Proof.Machine
open Sys2Proof

/-! ### The commands -/

theorem exec_powerOnReset (s : State) (keepOk en mstr test : Bool) (addr : BitVec 3) :
    exec (.powerOnReset keepOk en addr mstr test) s = .next (s.leaves (s.dev.powerOnReset keepOk en addr.toNat mstr test)) :=
  actDark_on s (Dev.powerOnReset · keepOk en addr.toNat mstr test)

theorem exec_vbatLowLatch (s : State) : exec .vbatLowLatch s = .next (s.leaves s.dev.vbatLow) := actDark_on s Dev.vbatLow

section Commands
variable {s : State} (h : s.Powered)
include h

theorem exec_auxBrownout : exec .auxBrownout s = .next (s.leaves s.dev.auxBrownout) := act_on s Dev.auxBrownout h

theorem exec_mrstN (len : Nat) : exec (.mrstN len) s = .next (s.leaves (s.dev.mrst len)) := act_on s (Dev.mrst · len) h

theorem exec_pwrbtnShortPress (len : Nat) : exec (.pwrbtnShortPress len) s = .next (s.leaves (s.dev.shortPress len)) := act_on s (Dev.shortPress · len) h

theorem exec_pwrbtnIgnoredPress (len : Nat) : exec (.pwrbtnIgnoredPress len) s = .next (s.leaves (s.dev.ignoredPress len)) :=
  act_on s (Dev.ignoredPress · len) h

theorem exec_pwrbtnLongPress (len : Nat) : exec (.pwrbtnLongPress len) s = .next (s.leaves (s.dev.longPress len)) := act_on s (Dev.longPress · len) h

end Commands

/-! ### The collapse of the auxiliary input (R329) -/

/-- Rail `r` is released and reads OFF. -/
def Dev.railOff (d : Dev) (r : Nat) : Prop := (d.rail r).en = false ∧ d.rst r = 0

/-- A rail that falls is OFF, and one that was OFF stays so. -/
theorem Dev.released_railOff (d : Dev) {r w : Nat} (hr : r < 24) (hw : w < 24) (h : w = r ∨ d.railOff w) : ((d.releaseRail r).setRst r 0).railOff w := by
  by_cases hwr : w = r
  · subst hwr
    exact (d.released_result w 0).symm
  · obtain ⟨hst, hen⟩ := d.released_other 0 hr hw hwr
    obtain ⟨hen', hst'⟩ := h.resolve_left hwr
    exact ⟨hen.trans hen', hst.trans hst'⟩

theorem Dev.foldl_released_railOff (l : List Nat) (hl : ∀ r ∈ l, r < 24) : ∀ (d : Dev) {w : Nat}, w < 24 → (w ∈ l ∨ d.railOff w) →
    (l.foldl (fun d r => (d.releaseRail r).setRst r 0) d).railOff w := by
  induction l with
  | nil => exact fun d w _ h => h.resolve_left List.not_mem_nil
  | cons r l ih =>
    intro d w hw h
    have hr := hl r List.mem_cons_self
    refine ih (fun r' hr' => hl r' (List.mem_cons_of_mem _ hr')) _ hw ?_
    by_cases hmem : w ∈ l
    · exact .inl hmem
    · exact .inr (d.released_railOff hr hw (h.imp_left fun h => (List.mem_cons.1 h).resolve_right hmem))

/-- Every enable is released, every commanded rail is OFF, and no sequence runs. -/
theorem Dev.dropRails_result (d : Dev) : (∀ r < 16, d.dropRails.railOff r) ∧ d.dropRails.power.seqUp = false ∧ d.dropRails.aon = d.aon := by
  unfold Dev.dropRails
  dsimp only
  generalize hf : ({ d with power := { d.power with seqUp := false, down := [], full := false } } : Dev) = f
  have hfrom : f.power.seqUp = false ∧ f.aon = d.aon := by rw [← hf]; exact ⟨rfl, rfl⟩
  have hlt : ∀ r ∈ cmdRails, r < 24 := fun r hr => by have := List.mem_range.1 hr; omega
  refine ⟨fun r hr => Dev.foldl_released_railOff cmdRails hlt f (by omega) (.inl (List.mem_range.2 hr)), ?_⟩
  refine List.foldlRecOn cmdRails _ (motive := fun e : Dev => e.power.seqUp = false ∧ e.aon = d.aon) hfrom fun e he r _ => ?_
  obtain ⟨rails, hpower⟩ := (e.releaseRail r).setRst_power r 0
  rw [hpower, Dev.setRst_aon]
  exact he

theorem Dev.furthest_power (d : Dev) (n : Nat) : (d.furthest n).power = d.power := by
  unfold Dev.furthest
  split
  · exact Dev.s_power _ _ _
  · rfl

/-- The mark of the outage leaves the rails alone. -/
theorem Dev.furthest_railOff {d : Dev} {r : Nat} (h : d.railOff r) (n : Nat) (hr : r < 24) : (d.furthest n).railOff r :=
  ⟨by rw [Dev.rail_of_power (d.furthest_power n)]; exact h.1, (d.furthest_g n (by unfold oRail oRailState oLastOutage; omega)).trans h.2⟩

/-- The auxiliary input collapses, at whatever the machine does. -/
theorem Dev.auxBrownout_result {d e : Dev} (he : d.auxBrownout = e) : e.aon.auxUp = false ∧ e.aon.collapse = some d.now ∧ e.aon.holdEn = false ∧
    e.power.seqUp = false ∧ ∀ r < 16, e.railOff r := by
  unfold Dev.auxBrownout at he
  dsimp only at he
  generalize hf : (if 2 ≤ d.vst ∧ d.vst ≤ 7 then d.dropRails.furthest 8 else d.dropRails) = f at he
  obtain ⟨hoff, hup, haon⟩ := d.dropRails_result
  have hfell : (∀ r < 16, f.railOff r) ∧ f.power.seqUp = false ∧ f.aon = d.aon := by
    rw [← hf]
    split
    · exact ⟨fun r hr => Dev.furthest_railOff (hoff r hr) 8 (by omega), by rw [Dev.furthest_power, hup], (Dev.furthest_keepsRun _ 8).aon.trans haon⟩
    · exact ⟨hoff, hup, haon⟩
  rw [← he]
  exact ⟨rfl, congrArg (fun a : Aon => some a.tick) hfell.2.2, rfl, hfell.2.1, hfell.1⟩

/-! ### MRST_N and the power button (R335, R336) -/

theorem Dev.Recorded.of_faults {d e : Dev} {c : Nat} (h : d.Recorded c) (hf : e.faults = d.faults) : e.Recorded c := by
  unfold Dev.Recorded
  rw [hf]
  exact h

/-- Within a vault sequence that no reset ends. -/
theorem Dev.mrst_ignored {d : Dev} (hv : d.inVault = true) (hr : d.retainResets = false) (len : Nat) : d.mrst len = d.record 0x103 0 uSup 1 len 0 0 :=
  (if_neg (by simp [hr])).trans (if_pos hv)

/-- In WAKE, RESTORE and FETCH. -/
theorem Dev.mrst_deferred {d : Dev} (hlo : 0x0A ≤ d.vst) (hhi : d.vst ≤ 0x0C) (len : Nat) :
    (d.mrst len).aon.mrstDefer = true ∧ (d.mrst len).Recorded 0x103 := by
  have hv : d.inVault = false := by simp [Dev.inVault]; omega
  have hr : d.retainResets = false := by simp [Dev.retainResets]; omega
  have heq : d.mrst len = (d.record 0x103 0 uSup 1 len 0 0).setAon { (d.record 0x103 0 uSup 1 len 0 0).aon with mrstDefer := true } :=
    (if_neg (by simp [hr])).trans ((if_neg (by simp [hv])).trans (if_pos ⟨hlo, hhi⟩))
  rw [heq]
  exact ⟨rfl, (d.record_recorded 0x103 0 uSup 1 len 0 0).of_faults rfl⟩

theorem Dev.shortPress_vault {d : Dev} (hv : d.inVault = true) (len : Nat) : d.shortPress len = d.record 0x103 0 uSup 2 len 0 0 := if_pos hv

theorem Dev.shortPress_standby {d : Dev} (hv : d.inVault = false) (hsup : d.sup = 0) (len : Nat) : (d.shortPress len).power.shortPress = true := by
  have heq : d.shortPress len = { d with power := { d.power with shortPress := true } } := (if_neg (by simp [hv])).trans (if_pos hsup)
  rw [heq]

theorem Dev.shortPress_up {d : Dev} (hv : d.inVault = false) (hsup : d.sup ≠ 0) (len : Nat) :
    (d.shortPress len).g oShutdownRequest = 1 ∧ (d.shortPress len).Recorded 0x103 := by
  have heq : d.shortPress len = ((d.s oShutdownRequest 1).record 0x103 0 uSup 2 len 0 0).notify 0x01 0 uSup :=
    (if_neg (by simp [hv])).trans (if_neg hsup)
  rw [heq]
  exact ⟨by rw [Dev.g_of_dict (Dev.notify_dict_dram ..).1, Dev.g_record, Dev.g_s_same], (Dev.record_recorded ..).of_faults (Dev.notify_insts ..).2⟩

theorem Dev.ignoredPress_recorded (d : Dev) {len : Nat} (h : 4000 ≤ len) : d.ignoredPress len = d.record 0x103 0 uSup 3 len 0 0 := if_pos h

theorem Dev.vbatLow_latches {d : Dev} (h : d.aon.auxUp = false) : d.vbatLow.aon.vbatLow = true := by
  have heq : d.vbatLow = d.setAon { d.aon with vbatLow := true } := if_neg (by simp [h])
  rw [heq]
  rfl

/-! ### The return of the auxiliary input (R420, R424) -/

/-- An object that a store no longer lists reads as its default. -/
theorem storeGet_keep_dropped {V : Type} (d : Nat → V) {keep : Nat → V → Bool} (m : List (Nat × V)) {k : Nat} (h : ∀ v, keep k v = false) :
    storeGet d (storeKeep keep m) k = d k := by
  induction m with
  | nil => rfl
  | cons p r ih =>
    obtain ⟨a, v⟩ := p
    unfold storeKeep at ih ⊢
    by_cases hkeep : keep a v = true
    · have hne : a ≠ k := by
        rintro rfl
        simp [h v] at hkeep
      rw [List.filter_cons, if_pos hkeep]
      exact (if_neg hne).trans ih
    · rw [List.filter_cons, if_neg hkeep, ih]

/-- The objects that a power-on sets by itself: the recorder's reserve, and the kind and count of resets. -/
def powerOnObjects : Set Nat := {oSeqReserve, oLastResetKind, oResetCounts}

/-- The recorder starts in a device that has just been powered on, whose domains `off` are locked, and the reset is counted (R404, R414). -/
def Dev.restarted (d : Dev) (off : List Nat) (lost : Bool) : Dev :=
  (((off.foldl (fun d u => d.setDom u { st := 2 }) d).recorderStart lost).resetKind 1).nextImage

/-- The collapse that the always-on block had latched, at tick `t`, is recorded. -/
def Dev.collapseNoted (d : Dev) (t : Option Nat) : Dev :=
  match t with
  | some t => d.record 0x102 2 uAon (t % 2 ^ 32) 0 0 0
  | none => d

/-- A power-on keeps the objects that persist, starts the recorder and notes the collapse; with the keep store lost, source 6 is raised. -/
theorem Dev.powerOn_stages (d : Dev) (lost : Bool) : ∃ (e : Dev) (off : List Nat),
    d.powerOn lost = (if lost then ((e.restarted off lost).collapseNoted d.aon.collapse).fault 6 else (e.restarted off lost).collapseNoted d.aon.collapse) ∧
    e.dict = storeKeep (fun k _ => keptObject lost (k % 0x1000000)) d.dict ∧ e.aon.auxUp = true ∧ e.aon.collapse = none :=
  ⟨_, _, rfl, rfl, rfl, rfl⟩

theorem Dev.recorderStart_keeps (d : Dev) (lost : Bool) : d.WritesOnly (d.recorderStart lost) powerOnObjects ∧ (d.recorderStart lost).aon = d.aon := by
  unfold Dev.recorderStart
  dsimp only
  exact ⟨(WritesOnly.of_dict (Dev.setFaults_dict ..) _).trans (Dev.s_writes _ (by decide) (.inl rfl)), (Dev.s_aon ..).trans (Dev.setFaults_aon ..)⟩

theorem Dev.resetKind_keeps (d : Dev) (k : Nat) : d.WritesOnly (d.resetKind k) powerOnObjects ∧ (d.resetKind k).aon = d.aon := by
  unfold Dev.resetKind
  dsimp only
  exact ⟨(Dev.s_writes k (by decide) (.inr (.inl rfl))).trans (Dev.s_writes _ (by decide) (.inr (.inr rfl))), (Dev.s_aon ..).trans (Dev.s_aon ..)⟩

theorem Dev.nextImage_aon (d : Dev) : d.nextImage.aon = d.aon := rfl

theorem Dev.restarted_keeps (d : Dev) (off : List Nat) (lost : Bool) : d.WritesOnly (d.restarted off lost) powerOnObjects ∧ (d.restarted off lost).aon = d.aon := by
  unfold Dev.restarted
  have hoff := List.foldlRecOn off (fun (d : Dev) u => d.setDom u { st := 2 }) (motive := fun e : Dev => e.dict = d.dict ∧ e.aon = d.aon) ⟨rfl, rfl⟩
    fun e he u _ => he
  generalize List.foldl _ d off = f at hoff ⊢
  obtain ⟨hstart, hstartAon⟩ := f.recorderStart_keeps lost
  obtain ⟨hcount, hcountAon⟩ := (f.recorderStart lost).resetKind_keeps 1
  exact ⟨(((WritesOnly.of_dict hoff.1 _).trans hstart).trans hcount).trans fun o _ _ => Dev.nextImage_g _ o,
    (Dev.nextImage_aon _).trans (hcountAon.trans (hstartAon.trans hoff.2))⟩

theorem Dev.collapseNoted_keeps (d : Dev) (t : Option Nat) : (d.collapseNoted t).dict = d.dict ∧ (d.collapseNoted t).aon = d.aon := by
  cases t with
  | none => exact ⟨rfl, rfl⟩
  | some t => exact ⟨Dev.record_dict .., Dev.record_aon ..⟩

/-- A power-on: the always-on block acts, an object that does not persist reads its default, and a lost keep store raises source 6. -/
theorem Dev.powerOn_result (d : Dev) (lost : Bool) : (d.powerOn lost).aon.auxUp = true ∧ (d.powerOn lost).aon.collapse = none ∧
    (∀ o < 0x1000000, keptObject lost o = false → o ∉ powerOnObjects → (d.powerOn lost).g o = dictDefault (homeOf o) o) ∧
    (lost = true → (d.powerOn lost).Raised 6) := by
  obtain ⟨e, off, heq, hdict, haux, hcollapse⟩ := d.powerOn_stages lost
  obtain ⟨hwrites, haon⟩ := e.restarted_keeps off lost
  obtain ⟨hndict, hnaon⟩ := (e.restarted off lost).collapseNoted_keeps d.aon.collapse
  have hkept : (d.powerOn lost).dict = (e.restarted off lost).dict ∧ (d.powerOn lost).aon = e.aon := by
    rw [heq]
    split
    · exact ⟨hndict, hnaon.trans haon⟩
    · exact ⟨hndict, hnaon.trans haon⟩
  refine ⟨by rw [hkept.2, haux], by rw [hkept.2, hcollapse], fun o hlt hdropped ho => ?_, fun hlost => ?_⟩
  · rw [Dev.g_of_dict hkept.1, hwrites o hlt ho, Dev.g, Dev.gu, hdict]
    have hkey : dkey (homeOf o) o % 0x1000000 = o ∧ dkey (homeOf o) o / 0x1000000 = homeOf o := by
      unfold dkey
      omega
    rw [storeGet_keep_dropped dictD _ fun _ => by rw [hkey.1, hdropped], dictD, hkey.1, hkey.2]
  · rw [heq, if_pos hlost]
    exact Dev.fault_raised ..

theorem Dev.sb_aon (d : Dev) (o i v : Nat) : (d.sb o i v).aon = d.aon := Dev.s_aon ..

theorem Dev.sb_faultQ (d : Dev) (o i v : Nat) : (d.sb o i v).faultQ = d.faultQ := Dev.s_faultQ ..

/-- The objects that tell of the firmware's slots. -/
def firmwareObjects : Set Nat := {oFirmwareStatus, oFirmwareSlot, oFirmwareVersion}

/-- The boot ROM's choice of a slot writes its own objects, and of the always-on block the slot and whether there is one. -/
theorem Dev.bootSelect_keeps (d : Dev) : d.WritesOnly d.bootSelect firmwareObjects ∧ d.bootSelect.faultQ = d.faultQ ∧
    ∃ slot halt, d.bootSelect.aon = { d.aon with fwSlot := slot, fwHalt := halt } := by
  have hstatus : ∀ (e : Dev) (i v : Nat), e.WritesOnly (e.sb oFirmwareStatus i v) firmwareObjects := fun e i v => Dev.s_writes _ (by decide) (.inl rfl)
  unfold Dev.bootSelect
  dsimp only
  generalize hf : (if d.fwb 2 = 1 then _ else d) = f
  have hcounted : d.WritesOnly f firmwareObjects ∧ f.faultQ = d.faultQ ∧ f.aon = d.aon := by
    rw [← hf]
    split
    · refine ⟨.andIf (hstatus _ _ _) ((hstatus _ _ _).trans (hstatus _ _ _)), ?_⟩
      split
      · exact ⟨by rw [Dev.sb_faultQ, Dev.sb_faultQ, Dev.sb_faultQ], by rw [Dev.sb_aon, Dev.sb_aon, Dev.sb_aon]⟩
      · exact ⟨Dev.sb_faultQ .., Dev.sb_aon ..⟩
    · exact ⟨.refl d _, rfl, rfl⟩
  generalize (if (f.fwSlotOf (f.fwb 1 % 2)).valid then f.fwb 1 % 2 else 1 - f.fwb 1 % 2) = slot
  split
  · refine ⟨((hcounted.1.trans (.of_dict (Dev.setAon_dict ..) _)).trans (Dev.s_writes _ (by decide) (.inr (.inl rfl)))).trans
      (Dev.s_writes _ (by decide) (.inr (.inr rfl))), ?_, slot, false, ?_⟩
    · rw [Dev.s_faultQ, Dev.s_faultQ, Dev.setAon_faultQ, hcounted.2.1]
    · rw [Dev.s_aon, Dev.s_aon, Dev.setAon_aon, hcounted.2.2]
  · exact ⟨hcounted.1.trans (.of_dict (Dev.setAon_dict ..) _), hcounted.2.1, d.aon.fwSlot, true, by rw [Dev.setAon_aon, hcounted.2.2]⟩

/-- The objects that show the straps. -/
def strapObjects : Set Nat := {oPackAddress, oTestMode}

/-- The always-on block of `a` with the straps as they are sampled. -/
def Aon.strapped (a : Aon) (en : Bool) (addr : Nat) (mstr test : Bool) : Aon :=
  { a with lshEn := en, lshAddr := addr % 8, lshMstr := mstr, testMode := test, lshSyncN := true }

/-- The straps are sampled, and PackAddress and TestMode show them. -/
def Dev.strapped (d : Dev) (en : Bool) (addr : Nat) (mstr test : Bool) : Dev :=
  ((d.setAon (d.aon.strapped en addr mstr test)).s oPackAddress (addr % 8)).s oTestMode (if test then 1 else 0)

theorem Dev.strapped_keeps {d e : Dev} {en mstr test : Bool} {addr : Nat} (he : d.strapped en addr mstr test = e) : d.WritesOnly e strapObjects ∧
    e.g oPackAddress = addr % 8 ∧ e.aon = d.aon.strapped en addr mstr test ∧ e.faultQ = d.faultQ := by
  rw [← he, Dev.strapped]
  generalize hf : d.setAon (d.aon.strapped en addr mstr test) = f
  have hset : f.dict = d.dict ∧ f.aon = d.aon.strapped en addr mstr test ∧ f.faultQ = d.faultQ := by
    rw [← hf]
    exact ⟨Dev.setAon_dict .., Dev.setAon_aon .., Dev.setAon_faultQ ..⟩
  refine ⟨((WritesOnly.of_dict hset.1 _).trans (Dev.s_writes _ (by decide) (.inl rfl))).trans (Dev.s_writes _ (by decide) (.inr rfl)), ?_, ?_, ?_⟩
  · rw [Dev.s_writesOnly _ _ (by decide) _ (by decide) (by decide), Dev.g_s_same]
  · rw [Dev.s_aon, Dev.s_aon, hset.2.1]
  · rw [Dev.s_faultQ, Dev.s_faultQ, hset.2.2]

/-- The states of the supply and of the vault do not persist, their default is 0, and no part of a power-on sets them. -/
theorem supplyState_volatile {o : Nat} (ho : o = oSupervisorState ∨ o = oVaultState) (lost : Bool) : o < 0x1000000 ∧ keptObject lost o = false ∧
    dictDefault (homeOf o) o = 0 ∧ o ∉ powerOnObjects ∧ o ∉ strapObjects ∧ o ∉ firmwareObjects := by
  have hother : o ∉ powerOnObjects ∧ o ∉ strapObjects ∧ o ∉ firmwareObjects := by
    rcases ho with rfl | rfl <;> simp [firmwareObjects, powerOnObjects, strapObjects, oSupervisorState, oVaultState, oFirmwareStatus, oFirmwareSlot,
      oFirmwareVersion, oPackAddress, oTestMode, oSeqReserve, oLastResetKind, oResetCounts]
  refine ⟨?_, ?_, ?_, hother⟩
  · rcases ho with rfl | rfl <;> decide
  · rcases ho with rfl | rfl <;> cases lost <;> decide +kernel
  · rcases ho with rfl | rfl <;> decide +kernel

/-- The auxiliary input returns: the always-on block takes its straps, and the supply stands in STANDBY. -/
theorem Dev.powerOnReset_result {d e : Dev} {keepOk en mstr test : Bool} {addr : Nat} (he : d.powerOnReset keepOk en addr mstr test = e) (haddr : addr < 8) :
    e.aon.auxUp = true ∧ e.sup = 0 ∧ e.vst = 0 ∧ e.aon.lshEn = en ∧ e.aon.lshMstr = mstr ∧ e.aon.testMode = test ∧ e.g oPackAddress = addr ∧
    e.aon.collapse = none ∧ (keepOk = false ∨ d.aon.vbatLow = true → e.Raised 6) := by
  have hlost : keepOk = false ∨ d.aon.vbatLow = true → (!keepOk || d.aon.vbatLow) = true := by simp
  generalize hl : (!keepOk || d.aon.vbatLow) = lost at hlost
  generalize hx : (if lost then d.setAon { d.aon with tick := 0 } else d) = x
  generalize hf : x.powerOn lost = f
  generalize hg : f.strapped en addr mstr test = g
  have hboots : g.bootSelect = e := by
    rw [← he, ← hg, ← hf, ← hx, ← hl]
    rfl
  obtain ⟨haux, hcollapse, hobjects, hraised⟩ := x.powerOn_result lost
  obtain ⟨hstraps, hpack, hgaon, hgq⟩ := Dev.strapped_keeps hg
  obtain ⟨hboot, hbootq, slot, halt, haon⟩ := g.bootSelect_keeps
  rw [hf] at haux hcollapse hobjects hraised
  rw [hboots] at hboot hbootq haon
  have hzero : ∀ o, o = oSupervisorState ∨ o = oVaultState → e.g o = 0 := by
    intro o ho
    obtain ⟨hlt, hdropped, hdefault, hpowerOn, hstrap, hfirmware⟩ := supplyState_volatile ho lost
    rw [hboot o hlt hfirmware, hstraps o hlt hstrap, hobjects o hlt hdropped hpowerOn, hdefault]
  have haddress : e.g oPackAddress = addr := by
    rw [hboot _ (by decide) (by simp [firmwareObjects, oPackAddress, oFirmwareStatus, oFirmwareSlot, oFirmwareVersion]), hpack, Nat.mod_eq_of_lt haddr]
  rw [haon, hgaon]
  exact ⟨haux, hzero _ (.inl rfl), hzero _ (.inr rfl), rfl, rfl, rfl, haddress, hcollapse, fun h6 => (hraised (hlost h6)).of_faultQ (hbootq.trans hgq)⟩

end Sys2Proof.Machine
end

section
open Sys2Proof Sys2Proof.Machine

/-- Settles O35: each loss, return, reset and press by the lemma of what it does. -/
theorem powerLossPressesAndResets : Obligations.PowerLossPressesAndResets := by
  rintro s d rfl
  refine ⟨fun hp => ?collapse, fun keepOk en mstr test addr => ?returns, fun haux => ?vbat, fun hp len => ⟨fun hv hr => ?ignored, fun hlo hhi => ?deferred,
    fun hv => ?vault, fun hv hsup => ?standby, fun hv hsup => ?up, fun hlong => ?recorded, ?trigger⟩⟩
  case collapse => exact ⟨_, exec_auxBrownout hp, Dev.auxBrownout_result rfl⟩
  case returns => exact ⟨_, exec_powerOnReset s keepOk en mstr test addr, Dev.powerOnReset_result rfl addr.isLt⟩
  case vbat => exact ⟨_, exec_vbatLowLatch s, Dev.vbatLow_latches haux⟩
  case ignored => rw [exec_mrstN hp, Dev.mrst_ignored hv hr]
  case deferred => exact ⟨_, exec_mrstN hp len, Dev.mrst_deferred hlo hhi len⟩
  case vault => rw [exec_pwrbtnShortPress hp, Dev.shortPress_vault hv]
  case standby => exact ⟨_, exec_pwrbtnShortPress hp len, Dev.shortPress_standby hv hsup len⟩
  case up => exact ⟨_, exec_pwrbtnShortPress hp len, Dev.shortPress_up hv hsup len⟩
  case recorded => rw [exec_pwrbtnIgnoredPress hp, Dev.ignoredPress_recorded _ hlong]
  case trigger => rw [exec_pwrbtnLongPress hp, Dev.longPress]

end
